-- ==== Sys2Proof/Word.lean ====
section
/-! DEFINITION. The word types of the A720: every register is 64 bits wide (00_scope.md, "Conventions"), bytes are
8 bits, and the identifiers of 01_anatomy.md have the widths of R33 to R36. -/

namespace Sys2Proof

/-- A 64-bit register, message or queue word (R10). -/
abbrev Word := BitVec 64

/-- One byte of memory. -/
abbrev Byte := BitVec 8

/-- A logical core ID: stand[11:10], grove[9:4], core[3:0] (R34). -/
abbrev Lcid := BitVec 12

/-- A device grove number, LCID[11:4] (R34). -/
abbrev Dg := BitVec 8

/-- A context number within its core (R35). -/
abbrev CtxNo := BitVec 9

/-- A device ID (R33). -/
abbrev Did := BitVec 15

/-- An 8-bit status code (Table 17.1). -/
abbrev Status := BitVec 8

end Sys2Proof
end

