-- ==== Sys2Proof/Syntax.lean ====
section
/-! DEFINITION. The syntax of the block's commands: the operand types, and `Instr`, one constructor per row of
spec/opcode_table.json. A row gives no operands of its own; each constructor's operands are what its rules name
(log entry 10, DESIGN CHOICE). -/

namespace Sys2Proof

/-- Which half of a 64-bit register a BAR0 write names (R555). -/
inductive Half where
  | full | low | high
deriving DecidableEq, Repr

/-- A register write: the writer (0 PF0, n VFn, 31 the Lookout, as in Table 22.3), the half named, the value. -/
structure Wr where
  writer : BitVec 5
  half   : Half
  value  : Word
deriving DecidableEq, Repr

/-- A PCIe function: 0 PF0, n VFn (R369). -/
abbrev HostFn := Fin 17

/-- Where mesh packets are taken: the local exits of a grove's router, or a Landing endpoint (R29, R30). -/
inductive Endpt where
  | grove (dg : Dg)
  | hbm (t : BitVec 2)
  | gf (k : BitVec 4)
  | pcie
  | lookout
deriving DecidableEq, Repr

/-- An output of a grove router (R295, Table 11.1 EXIT). -/
inductive OutPort where
  | north | east | south | west
  | pos (n : BitVec 4)
  | landing (k : Bool)
  | unit
deriving DecidableEq, Repr

/-- How a Mill fault found after issue arises (R131, R133, R134); `twin` where the position's twin site finds it (R509). -/
inductive MillFaultSrc where
  /-- the first group whose operand chunk or accumulator row is poisoned -/
  | poison
  /-- an uncorrectable accumulator word found at the read of `row` in group `j` -/
  | accWord (j : BitVec 8) (row : BitVec 5) (twin : Bool)
  /-- a single-bit error of an accumulator word, corrected at its read by an MMA, a VE access or a save; nothing ends -/
  | accFixed (acc : BitVec 3) (row : BitVec 5) (twin : Bool)
  /-- an uncorrectable accumulator word found by the save of a Ring or of Dormant; nothing ends -/
  | accSaved (acc : BitVec 3) (row : BitVec 5) (twin : Bool)
  /-- a residue mismatch of a lane column (32 is the spare) in group `j` -/
  | residue (j : BitVec 8) (col : BitVec 6) (twin : Bool)
deriving DecidableEq, Repr

/-- How a VE fault found after issue arises (R158); `twin` where the position's twin site finds it (R509). -/
inductive VeFaultSrc where
  | poison
  /-- an uncorrectable accumulator word found at the read of `row` of accumulator `acc` -/
  | accWord (acc : BitVec 3) (row : BitVec 5) (twin : Bool)
  /-- a lane residue mismatch; `elem` is an element that the failing lane computed -/
  | lane (lane : BitVec 7) (elem : Nat) (twin : Bool)
deriving DecidableEq, Repr

/-- A bit upset that a read meets: the chunk (scratchpad) or granule (HBM) and whether the code can correct it. -/
structure Upset where
  at'     : Nat
  correctable : Bool
deriving DecidableEq, Repr

/-- What SEC-DED finds in a word that a link's storage holds: nothing, an error that it corrects, or one that it cannot (R282). -/
inductive WordErr where
  | none | fixed | bad
deriving DecidableEq, Repr

/-- What SEC-DED finds in the words of a packet that crosses a link (R297): nothing, an error that it corrects, or one that it cannot in the
given 32-byte chunk of the body, the control word counting as the first chunk's. -/
inductive LinkErr where
  | none | fixed | bad (chunk : Nat)
deriving DecidableEq, Repr

/-- An output that a router grants, with what SEC-DED finds in the words of the packet on that output's link, and on the Landing link or crossbar
port by which it entered the mesh, where it did so at this router (R297). -/
structure Hop where
  out  : OutPort
  errs : List LinkErr
  come : List LinkErr
deriving DecidableEq, Repr

/-- An outbound channel direction whose word moves, with what SEC-DED finds in its storage (R282). -/
structure SkidMove where
  dir : BitVec 2
  err : WordErr
deriving DecidableEq, Repr

/-- A unit that sends requests again after a blaze notice (R308): a core, a grove's own unit, the PCIe controller. -/
inductive Sender where
  | core (l : Lcid)
  | unit (dg : Dg)
  | pcie
deriving DecidableEq, Repr

/-- What another device answers to a read by this one: its bytes, with the indices of poisoned bytes, or a loss. -/
inductive RemoteRead where
  | none
  | bytes (data : List Byte) (bad : List Nat)
  | lost
deriving DecidableEq, Repr

/-- An outstanding operation of a core that another device may never answer (R264). -/
inductive OpRef where
  | narrow (c : CtxNo)
  | sync (tag : Nat)
  | xfer (op : Nat) (part : Nat)
  | send (id : Nat)
deriving DecidableEq, Repr

/-- What the governor reads at a 100 µs interval (R58, R61): region temperatures in 1/16 °C, measured pace in 1/1024
of RP, package power in W over 1 ms, whether each Stand's AVSBus answered, the temperature of each HBM stack in 1/16 °C, the highest
power in W over a window of 100 µs or less, the current of VDD_S0 to VDD_S3 in A, and the smallest delay-line step that each region's shadow
line passes with (R54). -/
structure GovReadings where
  temps  : List Int
  paces  : List Nat
  watts  : Nat
  avsOk  : List Bool
  hbmTemps : List Int
  peak   : Nat
  amps   : List Nat
  steps  : List Nat
deriving DecidableEq, Repr

/-- A FEC codeword that holds bits of a flit (R323): its physical lane, its symbol errors, and whether this is the first flit received that holds
bits of it. -/
structure FecWord where
  lane  : BitVec 5
  errs  : Nat
  first : Bool
deriving DecidableEq, Repr

/-- A flit as received (R325, Table 12.2), with the codewords that hold its bits, as far as they had errors (R323), and the data bytes that travel
as poison (R226; log entry 112, DESIGN CHOICE). -/
structure Flit where
  seq     : BitVec 12
  ack     : BitVec 12
  nak     : Bool
  typ     : BitVec 2
  cvc     : BitVec 4
  credits : BitVec 9
  pad     : BitVec 8
  rsvd    : BitVec 16
  data    : List Byte
  crc     : BitVec 32
  fec     : List FecWord
  bad     : List Nat
deriving DecidableEq, Repr

/-- Where the fabric switch takes its next packet: from an arrival port, or from the device's own traffic. -/
inductive FabSrc where
  | port (k : BitVec 4)
  | own
  | held
deriving DecidableEq, Repr

/-- What a write TLP to BAR4 carries, and whether it is poisoned (R366, R374). -/
structure BarWrite where
  data : List Byte
  bad  : Bool
deriving DecidableEq, Repr

/-- A host command in flight: its function, queue pair and command identifier (R376, Table 14.3). -/
structure CmdRef where
  f   : HostFn
  q   : BitVec 7
  cid : BitVec 16
deriving DecidableEq, Repr

/-- What host memory returns to a command (R383): the bytes up to the first failing completion, the indices of bytes of
poisoned completions, the scatter list as read (counts and host addresses), and whether a completion failed with UR or CA. -/
structure HostData where
  bytes  : List Byte
  bad    : List Nat
  counts : List Nat
  addrs  : List Word
  failed : Bool
deriving DecidableEq, Repr

/-- What a LOAD reads from host memory (Table 14.7): the descriptor, image, handler entries and channel list, or
`unreadable` when a host address does not answer. -/
structure LoadData where
  desc       : List Word
  image      : List Byte
  handlers   : List Word
  channels   : List Word
  unreadable : Bool
deriving DecidableEq, Repr

/-- What COLL_DEFINE reads (R388): the arming image and the DID list. -/
structure CollData where
  image : List Word
  dids  : List Did
deriving DecidableEq, Repr

/-- The exchanged local results of the other devices of a collective (R389): per device its data, its plane and the indices of its poisoned
chunks, or its loss. -/
structure CollExchange where
  remote : List (Did × Option (List Byte × List Byte × List Nat))
deriving DecidableEq, Repr

/-- The two paths of SPDM (R394). -/
inductive SpdmPath where
  | doe | mctp
deriving DecidableEq, Repr

/-- IDE_KM requests (R393): a stream is programmed with a key and its address-association blocks, each a base and a limit. -/
inductive IdeOp where
  | program (key : List Byte) (assoc : List (Word × Word))
  | refresh (key : List Byte)
  | stop | integrityFailure
deriving DecidableEq, Repr

/-- The SPDM requests of R394 other than GET_MEASUREMENTS. A key exchange says for which VF's owner it is, by the partition; a piece of a large request
is a CHUNK_SEND with its number, but the last one, which is the request that it completes. -/
inductive SpdmReq where
  | getVersion | getCapabilities | negotiateAlgorithms | getDigests
  | getCertificate (slot off len : Nat)
  | challenge (slot : Nat) (nonce : List Byte)
  | keyExchange (slot : Nat) (owner : Option (BitVec 4))
  | heartbeat (sess : Nat)
  | keyUpdate (sess : Nat)
  | endSession (sess : Nat)
  | chunkGet (seq size : Nat)
  | chunkSend (seq : Nat)
deriving DecidableEq, Repr

/-- The TDISP requests of R395 that read. -/
inductive TdispGet where
  | version | capabilities | report | state
deriving DecidableEq, Repr

/-- A reading TDISP request and the VF that it names, by its partition. -/
structure TdispRead where
  vf   : BitVec 4
  what : TdispGet
deriving DecidableEq, Repr

/-- What the link and the host's configuration of the functions settle on (Table 14.1, R369): flit mode, the largest payload and read request, ASPM
L1, L0p, ECRC, the number of VFs enabled, the functions in D3hot. -/
structure PcieCfg where
  flit : Bool
  mps  : Nat
  mrrs : Nat
  l1   : Bool
  l0p  : Bool
  ecrc : Bool
  vfs  : Nat
  d3   : List Nat
deriving DecidableEq, Repr

/-- The width that a link trains at, and what its configuration settles. -/
structure PcieTrain where
  width : Nat
  cfg   : PcieCfg
deriving DecidableEq, Repr

/-- How an owner token is delivered (R403). -/
inductive TokenSrc where
  | mailbox (w : Wr)
  | mctp (bytes : List Byte)
deriving DecidableEq, Repr

/-- A firmware image: its 512-byte header and its ciphertext (R408, Table 15.6). -/
structure FwImage where
  header : List Byte
  cipher : List Byte
deriving DecidableEq, Repr

/-- ActivateFirmware (R525, R526): whether SelfContainedActivationRequest is set, and the FN and REDUCE fields of the new
image's EQKEY. -/
structure ActivateIn where
  selfContained : Bool
  fn            : BitVec 8
  reduce        : BitVec 8
deriving DecidableEq, Repr

/-- What a word of the manufacturing repair map names (Table 16.3): the 18 sites of a grove, the 33 Mill columns of a site, the first 64 or the last 2
of the 66 lanes of its VE, 64 of the 512 rows of a bank of a slice (log entry 138, DESIGN CHOICE). -/
inductive RepairWord where
  | sites (dg : Dg)
  | cols (dg : Dg) (site : BitVec 5)
  | lanes (dg : Dg) (site : BitVec 5) (hi : Bool)
  | rows (l : Lcid) (bank : BitVec 5) (part : BitVec 3)
deriving DecidableEq, Repr

/-- A fuse word's class and index (Table 16.3). -/
inductive FuseClass where
  | groves (i : BitVec 2)
  | ports
  | repair (w : RepairWord)
  | vrp (s : BitVec 2)
  | revoke
  | svn
  | svcEntry | svcExit | lifeCycle
  | secret | imageKey | signerHash (slot : BitVec 2) | ownerHash
deriving DecidableEq, Repr

/-- The six reads of one fuse word: per copy the low-margin and the high-margin read (R429). -/
structure FuseRead where
  cls    : FuseClass
  copies : List (Word × Word)
deriving DecidableEq, Repr

/-- A unit's failure in a Cruise or commanded test: its PSID, and whether the retest failed too (R435, R455). -/
structure TestFail where
  psid     : BitVec 24
  sounding : Bool
  again    : Bool
deriving DecidableEq, Repr

/-- A port's training result and what its peer says in IDENT (R424). -/
structure PortTrain where
  up       : Bool
  did      : Did
  didValid : Bool
  peerPort : BitVec 4
deriving DecidableEq, Repr

/-- What a Cruise meets from outside (Table 16.1): fuse reads and address straps (cold only), REFCLK, HBM and port training results, groves
whose supply current is outside its window, for each region the smallest passing delay-line step at V_RP and at each voltage 5 mV above (R54, R55), test failures, sites whose reducer fails, positions whose resident
image write is not acknowledged twice, the duration in ms if READY is reached, and that of each step. -/
structure CruiseIn where
  fuses     : List FuseRead
  straps    : BitVec 2
  refclk    : Bool
  hbmOk     : List Bool
  ports     : List PortTrain
  supplyBad : List Dg
  trims     : List (List Nat)
  fails     : List TestFail
  reducerBad : List (BitVec 24)
  imageFail : List Lcid
  durationMs : Nat
  stepMs    : List Nat
deriving DecidableEq, Repr

/-- What steps 8 and 9 of Cruise meet: the duration in ms (R442), and that of steps 8 and 9 (R443). -/
structure ReadyIn where
  durationMs : Nat
  stepMs     : List Nat
deriving DecidableEq, Repr

/-- The causes of a PCIe domain reset (R492, R545). -/
inductive PcieResetCause where
  | perstLow | hotReset | linkDown
deriving DecidableEq, Repr

/-- The rails of Table 21.3. -/
inductive Rail where
  | vddS (s : BitVec 2)
  | vddLand | vppHbm | vddHbm | vddqHbm | vddOpt | vddIo | vddAon
deriving DecidableEq, Repr

/-- A fault-manager command (Table 17.7): its step token, word 1 of its header, its argument words, and the SPDM secured session inside which it
came, if any (R466). -/
structure Mgmt where
  step : Word
  head : Word
  args : List Word
  sess : Option Nat
deriving DecidableEq, Repr

/-- A Dormant request: by DEV_DORMANT_CTRL.REQ or by the DORMANT command (R444). -/
inductive DormantSrc where
  | reg (w : Wr)
  | cmd (m : Mgmt)
deriving DecidableEq, Repr

/-- An accumulator error that a known-answer kernel finds (R133): the accumulator and row, and whether it is uncorrectable. -/
structure KernelAcc where
  acc  : BitVec 3
  row  : BitVec 5
  hard : Bool
deriving DecidableEq, Repr

/-- One run of a known-answer kernel on a unit: its target, with the lane column or lane that a mismatch names, the kernel ID, the output words in
order and whether it ended in time without a fault (R497, R498); the words and the end of the retest that a mismatch brings at once (R455), and
the accumulator errors found. -/
structure KernelRun where
  psid   : BitVec 24
  kernel : BitVec 16
  words  : List Word
  ended  : Bool
  words2 : List Word
  ended2 : Bool
  accs   : List KernelAcc
deriving DecidableEq, Repr

/-- One scan segment's signature (R505). -/
structure SegmentRun where
  psid : BitVec 24
  sig  : Word
deriving DecidableEq, Repr

/-- The engines of a site whose own faults carry cause INTERNAL (R18, Table 17.3). -/
inductive SiteEngine where
  | scalar | queue | haul | brand
deriving DecidableEq, Repr

/-- A fault of an engine, the context whose operation it met, if any (R179), and whether it is the position's twin site that has it (R509). -/
structure SiteFault where
  engine : SiteEngine
  ctx    : Option CtxNo
  twin   : Bool
deriving DecidableEq, Repr

/-- The commands of the block: one constructor per row of spec/opcode_table.json. A TGX instruction's operands are the
issuing core, the context and the 54 low bits of its word; its opcode is the constructor's (07_tgx_encoding.md). -/
inductive Instr where
  /-- ADD (R196): Scalar add: GD = GA + GB modulo 2^64. -/
  | add (l : Lcid) (c : CtxNo) (b : BitVec 54)
  /-- SUB (R196): Scalar subtract: GD = GA - GB modulo 2^64. -/
  | sub (l : Lcid) (c : CtxNo) (b : BitVec 54)
  /-- MUL (R196): Scalar multiply: low 64 bits of GA times GB. -/
  | mul (l : Lcid) (c : CtxNo) (b : BitVec 54)
  /-- MULHS (R196): High 64 bits of the signed 128-bit product. -/
  | mulhs (l : Lcid) (c : CtxNo) (b : BitVec 54)
  /-- MULHU (R196): High 64 bits of the unsigned 128-bit product. -/
  | mulhu (l : Lcid) (c : CtxNo) (b : BitVec 54)
  /-- AND (R196): Scalar bitwise AND of GA and GB. -/
  | andR (l : Lcid) (c : CtxNo) (b : BitVec 54)
  /-- OR (R196): Scalar bitwise OR of GA and GB. -/
  | orR (l : Lcid) (c : CtxNo) (b : BitVec 54)
  /-- XOR (R196): Scalar bitwise XOR of GA and GB. -/
  | xorR (l : Lcid) (c : CtxNo) (b : BitVec 54)
  /-- SHL (R196): Scalar left shift by GB[5:0] with zero fill. -/
  | shl (l : Lcid) (c : CtxNo) (b : BitVec 54)
  /-- SHRL (R196): Scalar logical right shift by GB[5:0]. -/
  | shrl (l : Lcid) (c : CtxNo) (b : BitVec 54)
  /-- SHRA (R196): Scalar arithmetic right shift by GB[5:0]. -/
  | shra (l : Lcid) (c : CtxNo) (b : BitVec 54)
  /-- MINS (R196): Signed minimum of GA and GB. -/
  | mins (l : Lcid) (c : CtxNo) (b : BitVec 54)
  /-- MAXS (R196): Signed maximum of GA and GB. -/
  | maxs (l : Lcid) (c : CtxNo) (b : BitVec 54)
  /-- MINU (R196): Unsigned minimum of GA and GB. -/
  | minu (l : Lcid) (c : CtxNo) (b : BitVec 54)
  /-- MAXU (R196): Unsigned maximum of GA and GB. -/
  | maxu (l : Lcid) (c : CtxNo) (b : BitVec 54)
  /-- ADDI (R196): Add the sign-extended immediate to GA. -/
  | addi (l : Lcid) (c : CtxNo) (b : BitVec 54)
  /-- ANDI (R196): Bitwise AND of GA with the immediate. -/
  | andi (l : Lcid) (c : CtxNo) (b : BitVec 54)
  /-- ORI (R196): Bitwise OR of GA with the immediate. -/
  | ori (l : Lcid) (c : CtxNo) (b : BitVec 54)
  /-- XORI (R196): Bitwise XOR of GA with the immediate. -/
  | xori (l : Lcid) (c : CtxNo) (b : BitVec 54)
  /-- SHLI (R196): Left shift of GA by IMM[5:0]. -/
  | shli (l : Lcid) (c : CtxNo) (b : BitVec 54)
  /-- SHRLI (R196): Logical right shift of GA by IMM[5:0]. -/
  | shrli (l : Lcid) (c : CtxNo) (b : BitVec 54)
  /-- SHRAI (R196): Arithmetic right shift of GA by IMM[5:0]. -/
  | shrai (l : Lcid) (c : CtxNo) (b : BitVec 54)
  /-- LI (R196): Load the sign-extended immediate into GD. -/
  | li (l : Lcid) (c : CtxNo) (b : BitVec 54)
  /-- LIH (R196): Load the immediate into GD[63:32], keeping GD[31:0]. -/
  | lih (l : Lcid) (c : CtxNo) (b : BitVec 54)
  /-- CEQ (R197): Set PD to GA equal to GB. -/
  | ceq (l : Lcid) (c : CtxNo) (b : BitVec 54)
  /-- CNE (R197): Set PD to GA not equal to GB. -/
  | cne (l : Lcid) (c : CtxNo) (b : BitVec 54)
  /-- CLT (R197): Set PD to GA less than GB, signed. -/
  | clt (l : Lcid) (c : CtxNo) (b : BitVec 54)
  /-- CLE (R197): Set PD to GA less than or equal to GB, signed. -/
  | cle (l : Lcid) (c : CtxNo) (b : BitVec 54)
  /-- CLTU (R197): Set PD to GA less than GB, unsigned. -/
  | cltu (l : Lcid) (c : CtxNo) (b : BitVec 54)
  /-- CLEU (R197): Set PD to GA less than or equal to GB, unsigned. -/
  | cleu (l : Lcid) (c : CtxNo) (b : BitVec 54)
  /-- CEQI (R197): Set PD to GA equal to the immediate. -/
  | ceqi (l : Lcid) (c : CtxNo) (b : BitVec 54)
  /-- CNEI (R197): Set PD to GA not equal to the immediate. -/
  | cnei (l : Lcid) (c : CtxNo) (b : BitVec 54)
  /-- CLTI (R197): Set PD to GA less than the immediate, signed. -/
  | clti (l : Lcid) (c : CtxNo) (b : BitVec 54)
  /-- CLEI (R197): Set PD to GA less than or equal to the immediate, signed. -/
  | clei (l : Lcid) (c : CtxNo) (b : BitVec 54)
  /-- CLTUI (R197): Set PD to GA less than the sign-extended immediate, unsigned. -/
  | cltui (l : Lcid) (c : CtxNo) (b : BitVec 54)
  /-- CLEUI (R197): Set PD to GA less than or equal to the sign-extended immediate, unsigned. -/
  | cleui (l : Lcid) (c : CtxNo) (b : BitVec 54)
  /-- PAND (R197): Predicate AND of two optionally inverted predicates. -/
  | pand (l : Lcid) (c : CtxNo) (b : BitVec 54)
  /-- POR (R197): Predicate OR of two optionally inverted predicates. -/
  | por (l : Lcid) (c : CtxNo) (b : BitVec 54)
  /-- PXOR (R197): Predicate XOR of two optionally inverted predicates. -/
  | pxor (l : Lcid) (c : CtxNo) (b : BitVec 54)
  /-- BR (R198): Relative branch by OFF instructions when the guard holds. -/
  | br (l : Lcid) (c : CtxNo) (b : BitVec 54)
  /-- BL (R198): Relative branch that writes pc + 8 into GD. -/
  | bl (l : Lcid) (c : CtxNo) (b : BitVec 54)
  /-- BRI (R198): Indirect branch to GA[20:0], with BOUNDS then ALIGN checks. -/
  | bri (l : Lcid) (c : CtxNo) (b : BitVec 54)
  /-- BLI (R198): Indirect branch to GA[20:0] that writes the link into GD. -/
  | bli (l : Lcid) (c : CtxNo) (b : BitVec 54)
  /-- LDB (R199): Narrow load of 1 byte, zero-extended. -/
  | ldb (l : Lcid) (c : CtxNo) (b : BitVec 54)
  /-- LDH (R199): Narrow load of 2 bytes, zero-extended. -/
  | ldh (l : Lcid) (c : CtxNo) (b : BitVec 54)
  /-- LDW (R199): Narrow load of 4 bytes, zero-extended. -/
  | ldw (l : Lcid) (c : CtxNo) (b : BitVec 54)
  /-- LDD (R199): Narrow load of 8 bytes. -/
  | ldd (l : Lcid) (c : CtxNo) (b : BitVec 54)
  /-- LDBS (R199): Narrow load of 1 byte, sign-extended. -/
  | ldbs (l : Lcid) (c : CtxNo) (b : BitVec 54)
  /-- LDHS (R199): Narrow load of 2 bytes, sign-extended. -/
  | ldhs (l : Lcid) (c : CtxNo) (b : BitVec 54)
  /-- LDWS (R199): Narrow load of 4 bytes, sign-extended. -/
  | ldws (l : Lcid) (c : CtxNo) (b : BitVec 54)
  /-- STB (R199): Narrow store of the low byte of GS. -/
  | stb (l : Lcid) (c : CtxNo) (b : BitVec 54)
  /-- STH (R199): Narrow store of the low 2 bytes of GS. -/
  | sth (l : Lcid) (c : CtxNo) (b : BitVec 54)
  /-- STW (R199): Narrow store of the low 4 bytes of GS. -/
  | stw (l : Lcid) (c : CtxNo) (b : BitVec 54)
  /-- STD (R199): Narrow store of all 8 bytes of GS. -/
  | std (l : Lcid) (c : CtxNo) (b : BitVec 54)
  /-- FFENCE (R200): Discard the context's fetched slots so that the next instruction is fetched anew. -/
  | ffence (l : Lcid) (c : CtxNo) (b : BitVec 54)
  /-- MCLAIM (R107): All-or-nothing claim of descriptors and accumulators; sets the predicate to the outcome. -/
  | mclaim (l : Lcid) (c : CtxNo) (b : BitVec 54)
  /-- MREL (R108): Release the named Mill resources once their earlier operations complete. -/
  | mrel (l : Lcid) (c : CtxNo) (b : BitVec 54)
  /-- TDLD (R110): Load a tile descriptor from a 32-byte image in the own scratchpad. -/
  | tdld (l : Lcid) (c : CtxNo) (b : BitVec 54)
  /-- MZERO (R120): Queue the clearing of an accumulator tile. -/
  | mzero (l : Lcid) (c : CtxNo) (b : BitVec 54)
  /-- MMA (R105): Queue a tile multiply-accumulate over G dot groups, after the issue checks. -/
  | mma (l : Lcid) (c : CtxNo) (b : BitVec 54)
  /-- MWAIT (R129): Wait until every earlier Mill operation of the context has completed or faulted. -/
  | mwait (l : Lcid) (c : CtxNo) (b : BitVec 54)
  /-- MILL_OP_COMPLETE (R116): A Mill operation finishes; its accumulator and numeric status record are written, and the next queued operation starts. -/
  | millOpComplete (l : Lcid)
  /-- MILL_OP_FAULT (R131): A fault found after issue ends an MMA at group j and removes the context's later queued Mill operations. -/
  | millOpFault (l : Lcid) (src : MillFaultSrc)
  /-- VE_ADD (R142): VE element-wise addition, written under the destination rules. -/
  | veAdd (l : Lcid) (c : CtxNo) (b : BitVec 54)
  /-- VE_SUB (R142): VE element-wise subtraction. -/
  | veSub (l : Lcid) (c : CtxNo) (b : BitVec 54)
  /-- VE_MUL (R142): VE element-wise exact multiply, then rounding to the destination. -/
  | veMul (l : Lcid) (c : CtxNo) (b : BitVec 54)
  /-- MAD (R142): VE multiply-add a·b + c. -/
  | veMad (l : Lcid) (c : CtxNo) (b : BitVec 54)
  /-- NEG (R142): VE negation. -/
  | veNeg (l : Lcid) (c : CtxNo) (b : BitVec 54)
  /-- ABS (R142): VE absolute value. -/
  | veAbs (l : Lcid) (c : CtxNo) (b : BitVec 54)
  /-- MAX (R80): VE element-wise maximum. -/
  | veMax (l : Lcid) (c : CtxNo) (b : BitVec 54)
  /-- MIN (R80): VE element-wise minimum. -/
  | veMin (l : Lcid) (c : CtxNo) (b : BitVec 54)
  /-- SCL (R141): VE scale by 2^k, with k taken from a g register. -/
  | veScl (l : Lcid) (c : CtxNo) (b : BitVec 54)
  /-- EQ (R144): VE compare for equality, into a bit stream. -/
  | veEq (l : Lcid) (c : CtxNo) (b : BitVec 54)
  /-- NE (R144): VE compare for inequality, into a bit stream. -/
  | veNe (l : Lcid) (c : CtxNo) (b : BitVec 54)
  /-- LT (R144): VE compare less-than, into a bit stream. -/
  | veLt (l : Lcid) (c : CtxNo) (b : BitVec 54)
  /-- LE (R144): VE compare less-or-equal, into a bit stream. -/
  | veLe (l : Lcid) (c : CtxNo) (b : BitVec 54)
  /-- GT (R144): VE compare greater-than, into a bit stream. -/
  | veGt (l : Lcid) (c : CtxNo) (b : BitVec 54)
  /-- GE (R144): VE compare greater-or-equal, into a bit stream. -/
  | veGe (l : Lcid) (c : CtxNo) (b : BitVec 54)
  /-- SEL (R145): VE select between a and b by a bit stream. -/
  | veSel (l : Lcid) (c : CtxNo) (b : BitVec 54)
  /-- VE_AND (R146): VE bitwise AND of integer streams. -/
  | veAnd (l : Lcid) (c : CtxNo) (b : BitVec 54)
  /-- VE_OR (R146): VE bitwise OR of integer streams. -/
  | veOr (l : Lcid) (c : CtxNo) (b : BitVec 54)
  /-- VE_XOR (R146): VE bitwise XOR of integer streams. -/
  | veXor (l : Lcid) (c : CtxNo) (b : BitVec 54)
  /-- NOT (R146): VE bitwise NOT of an integer stream. -/
  | veNot (l : Lcid) (c : CtxNo) (b : BitVec 54)
  /-- VE_SHL (R146): VE left shift with zero fill. -/
  | veShl (l : Lcid) (c : CtxNo) (b : BitVec 54)
  /-- VE_SHRL (R146): VE logical right shift. -/
  | veShrl (l : Lcid) (c : CtxNo) (b : BitVec 54)
  /-- VE_SHRA (R146): VE arithmetic right shift. -/
  | veShra (l : Lcid) (c : CtxNo) (b : BitVec 54)
  /-- CVT (R148): VE format conversion under the conversion rules. -/
  | veCvt (l : Lcid) (c : CtxNo) (b : BitVec 54)
  /-- SHF (R147): VE permutation of elements within each aligned group of 32. -/
  | veShf (l : Lcid) (c : CtxNo) (b : BitVec 54)
  /-- SCAN (R149): VE running SUM, MAX or MIN over a stream. -/
  | veScan (l : Lcid) (c : CtxNo) (b : BitVec 54)
  /-- SSCAN (R150): VE segmented scan driven by a flag stream. -/
  | veSscan (l : Lcid) (c : CtxNo) (b : BitVec 54)
  /-- RED (R152): VE reduction of an accumulator tile along one axis into 32 results. -/
  | veRed (l : Lcid) (c : CtxNo) (b : BitVec 54)
  /-- FN (R156): VE evaluation of one of the seven functions. -/
  | veFn (l : Lcid) (c : CtxNo) (b : BitVec 54)
  /-- VWAIT (R157): Wait until every earlier VE operation of the context has completed or faulted. -/
  | vwait (l : Lcid) (c : CtxNo) (b : BitVec 54)
  /-- VE_OP_COMPLETE (R141): A VE operation finishes its stream and writes its record; the next queued operation starts. -/
  | veOpComplete (l : Lcid)
  /-- VE_OP_FAULT (R158): A fault found after issue ends a VE operation at its first failing destination slot. -/
  | veOpFault (l : Lcid) (src : VeFaultSrc)
  /-- QRD (R206): Read a word of the head entry and optionally pop it; waits while the queue is empty. -/
  | qrd (l : Lcid) (c : CtxNo) (b : BitVec 54)
  /-- QPUT (R206): Append one entry copied from the own scratchpad, or contribute to a Boom. -/
  | qput (l : Lcid) (c : CtxNo) (b : BitVec 54)
  /-- QTEST (R206): Set PD to whether the queue holds an entry. -/
  | qtest (l : Lcid) (c : CtxNo) (b : BitVec 54)
  /-- QCFG (R253): Configure a queue or Boom from a 32-byte image. -/
  | qcfg (l : Lcid) (c : CtxNo) (b : BitVec 54)
  /-- SEND (R243): Check a message and place it in the message queue for injection. -/
  | send (l : Lcid) (c : CtxNo) (b : BitVec 54)
  /-- MSGREL (R245): Release the arrival slot or Boom entry that started the context. -/
  | msgrel (l : Lcid) (c : CtxNo) (b : BitVec 54)
  /-- HAUL (R259): Check a bulk copy and start it in the haul queue. -/
  | haul (l : Lcid) (c : CtxNo) (b : BitVec 54)
  /-- HAULL (R261): Start a split request of up to 64 parts. -/
  | haull (l : Lcid) (c : CtxNo) (b : BitVec 54)
  /-- BROPEN (R516): Begin a Brand state. -/
  | bropen (l : Lcid) (c : CtxNo) (b : BitVec 54)
  /-- BRHASH (R516): Queue the hashing of data into a Brand part. -/
  | brhash (l : Lcid) (c : CtxNo) (b : BitVec 54)
  /-- BRSEAL (R518): Seal the Brand and have it signed, or fail it. -/
  | brseal (l : Lcid) (c : CtxNo) (b : BitVec 54)
  /-- BRAND_HASH_COMPLETE (R520): The grove hasher finishes a queued BRHASH, leaf by leaf. -/
  | brandHashComplete (l : Lcid) (remote : RemoteRead)
  /-- BRAND_SEAL_COMPLETE (R518): The Warden's signature returns; RECORD and the KIND 6 completion entry are written. -/
  | brandSealComplete (l : Lcid)
  /-- SADD (R267): Add GV to a counter sync object. -/
  | sadd (l : Lcid) (c : CtxNo) (b : BitVec 54)
  /-- SARRIVE (R267): Arrive at a barrier, or contribute to an armed reduction. -/
  | sarrive (l : Lcid) (c : CtxNo) (b : BitVec 54)
  /-- SSET (R267): Set an event sync object. -/
  | sset (l : Lcid) (c : CtxNo) (b : BitVec 54)
  /-- SCLR (R267): Clear a counter or event sync object. -/
  | sclr (l : Lcid) (c : CtxNo) (b : BitVec 54)
  /-- SWAIT (R268): Wait until the object's condition holds. -/
  | swait (l : Lcid) (c : CtxNo) (b : BitVec 54)
  /-- SACQ (R268): Acquire GV units of a semaphore, first come first served. -/
  | sacq (l : Lcid) (c : CtxNo) (b : BitVec 54)
  /-- SREL (R267): Release GV units to a semaphore. -/
  | srel (l : Lcid) (c : CtxNo) (b : BitVec 54)
  /-- SRD (R267): Read the value of a sync object into GD. -/
  | srd (l : Lcid) (c : CtxNo) (b : BitVec 54)
  /-- END (R209): End the context, which becomes FREE once its Mill and VE operations complete. -/
  | ctxEnd (l : Lcid) (c : CtxNo) (b : BitVec 54)
  /-- PARK (R209): Enter PARKED with an optional park timer. -/
  | park (l : Lcid) (c : CtxNo) (b : BitVec 54)
  /-- WAKE (R209): Wake a PARKED context of this core. -/
  | wake (l : Lcid) (c : CtxNo) (b : BitVec 54)
  /-- RESUME (R209): Resume a FAULTED context at a new pc. -/
  | resume (l : Lcid) (c : CtxNo) (b : BitVec 54)
  /-- CFREE (R209): Free a FAULTED context of this core. -/
  | cfree (l : Lcid) (c : CtxNo) (b : BitVec 54)
  /-- SLEEP (R209): Wait GT microseconds. -/
  | sleep (l : Lcid) (c : CtxNo) (b : BitVec 54)
  /-- SRSEED (R96): Set the SR seed and zero the SR counter. -/
  | srseed (l : Lcid) (c : CtxNo) (b : BitVec 54)
  /-- RING (R480): Take a Ring; the context waits for its outstanding operations. -/
  | ring (l : Lcid) (c : CtxNo) (b : BitVec 54)
  /-- RING_COMPLETE (R480): Once the operations are drained, the context and accumulator records are written and deferred releases take effect. -/
  | ringComplete (l : Lcid) (c : CtxNo)
  /-- QRY (R210): Read a query selector into GD. -/
  | qry (l : Lcid) (c : CtxNo) (b : BitVec 54)
  /-- NSRD (R210): Read ns0 and ns1 from one record. -/
  | nsrd (l : Lcid) (c : CtxNo) (b : BitVec 54)
  /-- TLRD (R210): Read the tally words without clearing them. -/
  | tlrd (l : Lcid) (c : CtxNo) (b : BitVec 54)
  /-- TLCLR (R103): Read and clear the tally as one action. -/
  | tlclr (l : Lcid) (c : CtxNo) (b : BitVec 54)
  /-- DISTRD (R39): Read the distance table atomically into three registers. -/
  | distrd (l : Lcid) (c : CtxNo) (b : BitVec 54)
  /-- FAULT_NOTICE_START (R181): A waiting fault notice starts a context at FAULT_HIDX when one is FREE. -/
  | faultNoticeStart (l : Lcid)
  /-- MESSAGE_INJECT (R242): A queued message is injected on the MSG virtual channel, after any FENCE is satisfied. -/
  | messageInject (l : Lcid)
  /-- MESSAGE_ARRIVAL (R246): A MSG packet arrives at its core and is checked, then placed, held or bounced. -/
  | messageArrival (dg : Dg)
  /-- MESSAGE_START (R169): A placed START message starts the lowest FREE context, within LIMIT. -/
  | messageStart (l : Lcid)
  /-- HELD_MESSAGE_PLACED (R247): A held message is placed once room frees. -/
  | heldMessagePlaced (l : Lcid)
  /-- ARR_TMO_EXPIRY (R247): A held message that is not placed within ARR_TMO bounces with QUEUE_TIMEOUT. -/
  | arrTmoExpiry (l : Lcid)
  /-- BOOM_ROUND_RELEASE (R256): A completed Boom round is released into the ring, possibly starting a handler. -/
  | boomRoundRelease (l : Lcid) (qn : BitVec 6)
  /-- HAUL_PACKET_INJECT (R260): The haul unit injects the next packet of a haul. -/
  | haulPacketInject (l : Lcid) (op : Nat) (part : Nat)
  /-- PACKET_FORWARD (R302): A router grants an output and forwards a packet by XY routing and distance arbitration. -/
  | packetForward (x : BitVec 4) (y : BitVec 4) (out : Hop)
  /-- RD_REQ (R300): A read request arrives at its target slice or endpoint and is answered. -/
  | rdReq (e : Endpt)
  /-- WR_REQ (R260): A write packet arrives and is written whole at its destination. -/
  | wrReq (e : Endpt)
  /-- RD_RSP (R300): Read data returns to the issuer, completing a load or haul packet. -/
  | rdRsp (e : Endpt)
  /-- WR_ACK (R260): A write acknowledgement confirms a packet; the last one completes the operation. -/
  | wrAck (e : Endpt)
  /-- COMPL (R251): A completion entry arrives and is written to its queue, or redirected to q63. -/
  | compl (e : Endpt)
  /-- SYNC_OP (R268): A sync operation arrives at its router; it is applied, registered as a waiter, or fails. -/
  | syncOp (dg : Dg)
  /-- SYNC_ANS (R268): A sync answer returns to the issuing context. -/
  | syncAns (e : Endpt)
  /-- SYNC_REPRESENT (R268): At a tick, the core presents again an operation refused by a full waiter table. -/
  | syncRepresent (l : Lcid) (c : CtxNo)
  /-- SYNC_WAIT_TIMEOUT (R268): A SWAIT or SACQ timeout expires and a cancel is sent. -/
  | syncWaitTimeout (l : Lcid) (c : CtxNo)
  /-- SYNC_CANCEL (R565): A cancel reaches the router; granted SACQ units are returned. -/
  | syncCancel (dg : Dg)
  /-- QRD_TIMEOUT (R254): A QRD wait times out and sets PD false. -/
  | qrdTimeout (l : Lcid) (c : CtxNo)
  /-- PARK_TIMER_EXPIRY (R209): A park timer expires and the context becomes READY. -/
  | parkTimerExpiry (l : Lcid) (c : CtxNo)
  /-- SLEEP_EXPIRY (R209): A SLEEP wait ends. -/
  | sleepExpiry (l : Lcid) (c : CtxNo)
  /-- REMOTE_TMO_EXPIRY (R264): No response arrives within REMOTE_TMO, so the operation is reported lost. -/
  | remoteTmoExpiry (l : Lcid) (o : OpRef)
  /-- REMOTE_LOST_COMPLETE (R264): A REMOTE_LOST completion is written no sooner than 50 ms after the last injection. -/
  | remoteLostComplete (l : Lcid) (o : OpRef)
  /-- MCAST_WR (R309): A multicast write is split by next hop and written at each destination grove. -/
  | mcastWr (dg : Dg)
  /-- MGT (R303): A management packet is served by the Lookout or the core control logic. -/
  | mgt (e : Endpt)
  /-- RED_PACKET (R317): A reduction chunk arrives at a tree router and is combined. -/
  | redPacket (dg : Dg)
  /-- RED_CREDIT (R315): A freed chunk buffer returns credit, letting the next chunk be sent. -/
  | redCredit (dg : Dg)
  /-- REDUCTION_ARM (R312): The Lookout checks an arming image and arms a reduction. -/
  | reductionArm (image : List Word)
  /-- DETOUR_RESEND (R308): Requests still unanswered 100 µs after a blaze notice are resent on the new route. -/
  | detourResend (f : Sender)
  /-- CHANNEL_WORD_DELIVER (R279): A word moves from an outbound skid queue to the inbound skid queue when there is room. -/
  | channelWordDeliver (l : Lcid) (d : SkidMove)
  /-- TIME_TICK (R65): The 1 µs tick reaches every grove router; shapers refill. -/
  | timeTick
  /-- PPS_EDGE (R63): A PPS rising edge disciplines the time base. -/
  | ppsEdge (offset : Int)
  /-- PTP_SYNC (R64): A PTP Sync message disciplines the time base. -/
  | ptpSync (domain : Nat) (offset : Int)
  /-- HOLDOVER (R63): The time source is lost past its limit; the counter enters holdover. -/
  | holdover
  /-- PACE_TIME_SET (R62): A write loads the time-base counter, allowed only before the first READY. -/
  | paceTimeSet (w : Wr)
  /-- GOVERNOR_INTERVAL (R61): Every 100 µs the pace governor adjusts region voltages. -/
  | governorInterval (r : GovReadings)
  /-- THERMAL_TRIP (R53): A sensor reaches 110 °C; the regulators switch off and the device stays off. -/
  | thermalTrip (region : BitVec 6) (temp : Int)
  /-- REGION_RECALIBRATION (R54): The delay-line trims of a region are recalibrated live. -/
  | regionRecalibration (region : BitVec 6) (step : Nat) (temp : Int)
  /-- PACE_RECAL (R529): A commanded recalibration of a region, or of all regions. -/
  | paceRecal (w : Wr)
  /-- SCRUB_STEP (R227): The slice scrubber reads and corrects a slot. -/
  | scrubStep (l : Lcid) (upsets : List Upset)
  /-- CTX_HOLD (R185): CORE_CTX_CMD HOLD holds the selected context. -/
  | ctxHold (l : Lcid) (w : Wr)
  /-- CTX_RELEASE (R185): CORE_CTX_CMD RELEASE returns a held context to HELD_FROM. -/
  | ctxRelease (l : Lcid) (w : Wr)
  /-- CTX_FREE (R185): CORE_CTX_CMD FREE frees a HELD or FAULTED context. -/
  | ctxFree (l : Lcid) (w : Wr)
  /-- CTX_START (R172): CORE_CTX_CMD START starts a FREE context at a pc. -/
  | ctxStart (l : Lcid) (w : Wr)
  /-- FREE_ALL (R185): Free every HELD and FAULTED context of a quiet core. -/
  | freeAll (l : Lcid) (w : Wr)
  /-- HOLD_ALL (R164): A write of CORE_CTRL.HOLD_ALL holds or releases every context of the core. -/
  | holdAll (l : Lcid) (w : Wr)
  /-- CORE_ROLE_WRITE (R174): A role write increments EPOCH and bounces queued messages. -/
  | coreRoleWrite (l : Lcid) (w : Wr)
  /-- SYNC_CFG_WRITE (R270): A GRV_SYNC_CFGn write configures an object and sets its initial value. -/
  | syncCfgWrite (dg : Dg) (n : BitVec 7) (w : Wr)
  /-- LINK_REGISTER_WRITE (R287): A CORE_LINK write binds an endpoint, or unbinds it and discards its skid contents. -/
  | linkRegisterWrite (l : Lcid) (inbound : Bool) (d : BitVec 2) (w : Wr)
  /-- REGISTER_WRITE (R558): A write to a register with no row of its own is accepted or rejected and recorded. -/
  | registerWrite (writer : BitVec 5) (offset : BitVec 26) (size : Nat) (value : Word)
  /-- ROUTING_ENTRY_WRITE (R340): A GF_RT_DATA or GF_MC_DATA write to the inactive bank. -/
  | routingEntryWrite (multicast : Bool) (w : Wr)
  /-- BANK_SWAP (R344): A GF_CTRL.ACTIVE write swaps the active bank of both tables between lookups. -/
  | bankSwap (w : Wr)
  /-- DID_HOLD (R344): A GF_HOLDi write holds or releases packets for a DID range. -/
  | didHold (i : BitVec 2) (w : Wr)
  /-- SHAPER_RATE_WRITE (R346): A RATE write takes effect at the next tick; 0 freezes the bucket. -/
  | shaperRateWrite (w : Wr)
  /-- SHAPER_RESET (R346): RESET sets a bucket's TOKENS to 0. -/
  | shaperReset (w : Wr)
  /-- SHAPER_SEND (R345): A queued packet is sent once its bucket's TOKENS is positive. -/
  | shaperSend (port : BitVec 4) (part : BitVec 4)
  /-- SHAPER_FROZEN_TIMEOUT (R346): A packet that waits GF_SHAPER_TMO on a frozen bucket fails its operation. -/
  | shaperFrozenTimeout (port : BitVec 4) (part : BitVec 4)
  /-- CONGESTION_SAMPLE (R347): Every 100th tick the egress VC occupancy is sampled. -/
  | congestionSample (bytes : Nat)
  /-- LANE_RETRAIN (R338): A GF_PORTk_LANES RETRAIN moves the lane to a spare and retrains it. -/
  | laneRetrain (port : BitVec 4) (w : Wr) (trained : Bool)
  /-- DATA_FLIT (R327): A data flit is received, checked and either accepted in order or discarded with NAK. -/
  | dataFlit (port : BitVec 4) (f : Flit)
  /-- IDENT (R326): A control flit carries the peer's DID and port. -/
  | ident (port : BitVec 4) (did : Did) (valid : Bool) (peerPort : BitVec 4)
  /-- LANE_MAP (R336): A control flit agrees a new lane map and its switch-over flit. -/
  | laneMap (port : BitVec 4) (logical : BitVec 4) (physical : BitVec 5) (seq : BitVec 12)
  /-- RETRAIN (R328): A RETRAIN control flit, or a repeat NAK limit, puts the port into TRAINING. -/
  | retrain (port : BitVec 4) (byPeer : Bool)
  /-- ACK_TIMEOUT (R328): Flits outstanding for 100 µs with no ACK advance trigger a retrain. -/
  | ackTimeout (port : BitVec 4)
  /-- TRAINING_ATTEMPT_END (R328): A training attempt ends in UP, or after three failures in DOWN. -/
  | trainingAttemptEnd (port : BitVec 4) (trained : Bool)
  /-- PORT_TRAINING_RETRY (R553): Every 10 s the Lookout retries training of DOWN ports. -/
  | portTrainingRetry
  /-- FABRIC_PACKET (R332): A fabric packet is switched to its egress port, delivered locally, or discarded by age or missing route. -/
  | fabricPacket (from' : FabSrc)
  /-- HBM_ACCESS (R357): An HBM controller serves a read or write packet. -/
  | hbmAccess (t : BitVec 2) (upsets : List Upset)
  /-- PATROL_SCRUB (R363): The HBM patrol scrub reads granules and repairs rows. -/
  | patrolScrub (t : BitVec 2) (first : Nat) (granules : Nat) (upsets : List Upset)
  /-- RANGE_CREATION (R354): An HBM_RANGEn write creates a range with a fresh key and starts its zero-fill. -/
  | rangeCreation (n : BitVec 4) (w : Wr)
  /-- RANGE_REMOVAL (R354): An HBM_RANGEn write removes a range and destroys its key. -/
  | rangeRemoval (n : BitVec 4) (w : Wr)
  /-- RANGE_GROWTH (R354): An HBM_RANGEn write grows a range in place onto free units. -/
  | rangeGrowth (n : BitVec 4) (w : Wr)
  /-- RANGE_FILL_COMPLETE (R354): The zero-fill finishes and READY sets; the new size takes force. -/
  | rangeFillComplete (n : BitVec 4)
  /-- SQ_TAIL_DOORBELL (R372): A host write moves an SQ tail. -/
  | sqTailDoorbell (f : HostFn) (off : BitVec 12) (v : Word)
  /-- CQ_HEAD_DOORBELL (R372): A host write moves a CQ head, freeing completion slots. -/
  | cqHeadDoorbell (f : HostFn) (off : BitVec 12) (v : Word)
  /-- COMMAND_FETCH (R376): The device fetches a command once a CQ slot is reserved, then checks its header. -/
  | commandFetch (f : HostFn) (q : BitVec 7) (words : List Word)
  /-- CREATE_QP (R375): Create a host or service queue pair. -/
  | createQp (r : CmdRef)
  /-- DELETE_QP (R380): Delete a queue pair once its completions are written. -/
  | deleteQp (r : CmdRef)
  /-- IDENTIFY (R378): Fill a host buffer with query selectors and maps. -/
  | identify (r : CmdRef)
  /-- DMA_TO_DEV (R383): Move host bytes to a device address as a haul. -/
  | dmaToDev (r : CmdRef) (d : HostData)
  /-- DMA_FROM_DEV (R383): Move device bytes to host memory. -/
  | dmaFromDev (r : CmdRef) (d : HostData)
  /-- MSG (R384): Send one active message from the host. -/
  | hostMsg (r : CmdRef) (d : HostData)
  /-- LOAD (R386): Load a program into a set of cores. -/
  | hostLoad (r : CmdRef) (d : LoadData)
  /-- UNLOAD (R386): Return cores to PROGRAM 0 and unbind their channels. -/
  | hostUnload (r : CmdRef)
  /-- COLL_DEFINE (R388): Arm a collective. -/
  | collDefine (r : CmdRef) (d : CollData)
  /-- COLL_DELETE (R378): Disarm a collective. -/
  | collDelete (r : CmdRef)
  /-- COLLECTIVE_EXCHANGE (R389): After the local phase, results are exchanged with listed devices and folded. -/
  | collectiveExchange (part : BitVec 4) (coll : BitVec 16) (x : CollExchange)
  /-- CKPT_ATTACH (R390): Attach an SSD queue pair to a checkpoint slot. -/
  | ckptAttach (r : CmdRef)
  /-- CKPT_DETACH (R378): Detach a checkpoint slot. -/
  | ckptDetach (r : CmdRef)
  /-- CKPT_WRITE (R391): Stream a partition range to SSD LBAs. -/
  | ckptWrite (r : CmdRef)
  /-- CKPT_READ (R391): Stream SSD LBAs into a partition range. -/
  | ckptRead (r : CmdRef)
  /-- NVME_COMPLETION (R391): A polled NVMe completion advances a checkpoint transfer. -/
  | nvmeCompletion (f : HostFn) (slot : BitVec 3) (nvmeId : Nat) (sf : BitVec 16) (data : List Byte)
  /-- NVME_TIMEOUT (R391): An NVMe command not completed within 5 s ends the transfer with REMOTE_LOST. -/
  | nvmeTimeout (f : HostFn) (slot : BitVec 3) (nvmeId : Nat)
  /-- TELEM (R392): Set up the telemetry ring and interval. -/
  | telem (r : CmdRef)
  /-- TELEMETRY_INTERVAL (R392): At each interval, telemetry records are appended. -/
  | telemetryInterval
  /-- HOST_COMMAND_COMPLETE (R379): A finished command writes its completion and signals its vector. -/
  | hostCommandComplete (r : CmdRef)
  /-- CQ_ENABLE (R380): A CQ_CTRL.EN write starts or stops the admin pair. -/
  | cqEnable (f : HostFn) (w : Wr)
  /-- HOST_WINDOW_READ (R374): A BAR4 read reaches the partition range. -/
  | hostWindowRead (f : HostFn) (off : Nat) (len : Nat)
  /-- HOST_WINDOW_WRITE (R374): A BAR4 write is cut at data units and applied. -/
  | hostWindowWrite (f : HostFn) (off : Nat) (data : BarWrite)
  /-- FLR (R371): Function-level reset of one function. -/
  | flr (f : HostFn)
  /-- MSIX_UNMASK (R381): Unmasking a vector sends its pending message. -/
  | msixUnmask (f : HostFn) (v : BitVec 11)
  /-- GET_MEASUREMENTS (R419): SPDM request returning the measurement blocks, optionally signed. -/
  | getMeasurements (index : BitVec 8) (sign : Bool) (nonce : List Byte) (sess : Option Nat)
  /-- KEY_EXCHANGE (R394): SPDM key exchange that establishes a secured session; the SPDM requests that lead to it or use it, which have
  no row of their own, are its operand too (log entry 121, DESIGN CHOICE). -/
  | keyExchange (path : SpdmPath) (req : SpdmReq) (ok : Bool)
  /-- IDE_KM (R393): IDE key programming or refresh over a secured session. -/
  | ideKm (stream : Nat) (sess : Option Nat) (op : IdeOp)
  /-- LOCK_INTERFACE (R395): A TDISP request locks a VF's TDI. -/
  | lockInterface (vf : BitVec 4)
  /-- START_INTERFACE (R395): A TDISP request moves a TDI to RUN. -/
  | startInterface (vf : BitVec 4)
  /-- STOP_INTERFACE (R395): A TDISP request unloads the partition, removes its range and unlocks the TDI. -/
  | stopInterface (vf : BitVec 4)
  /-- GET_DEVICE_INTERFACE_REPORT (R395): A TDISP request returning the VF's BAR ranges; or one of the other reading requests, which have
  no row of their own (log entry 121, DESIGN CHOICE). -/
  | getDeviceInterfaceReport (vf : TdispRead)
  /-- DEPLOY (R400): A token fuses the owner key hash and closes JTAG. -/
  | deploy (tok : TokenSrc)
  /-- ENTER_SERVICE (R405): A token runs the sanitising sequence and enters SERVICE. -/
  | enterService (tok : TokenSrc)
  /-- EXIT_SERVICE (R407): A token blows an SVC_EXIT bit; DEPLOYED takes effect at the next cold reset. -/
  | exitService (tok : TokenSrc)
  /-- RETIRE (R405): A token sanitises the device, destroys its secret and fuses RETIRED. -/
  | retire (tok : TokenSrc)
  /-- COMMIT (R410): Raise the fused anti-rollback count and apply revocations. -/
  | commit (w : Wr)
  /-- OWNER_CHAIN_WRITE (R419): The owner writes the certificate chain of SPDM slot 1. -/
  | ownerChainWrite (chain : List Byte)
  /-- FIRMWARE_UPDATE (R409): A PLDM component update writes the inactive slot, checked under R409. -/
  | firmwareUpdate (overSmbus : Bool) (warden : FwImage) (lookout : FwImage)
  /-- ACTIVATE_FIRMWARE (R525): A PLDM ActivateFirmware request runs the Lookout handoff. -/
  | activateFirmware (a : ActivateIn)
  /-- HANDOFF_FALLBACK (R527): The new image misses step 4 within 40 ms; the previous image restarts. -/
  | handoffFallback (restarted : Bool)
  /-- RESIDENT_IMAGE_ROLL (R528): After a handoff, the resident image is rolled through the groves one by one. -/
  | residentImageRoll (dg : Dg)
  /-- PWR_OK_RISE (R421): PWR_OK rises and a cold Cruise begins. -/
  | pwrOkRise (i : CruiseIn)
  /-- PWR_OK_FALL (R537): PWR_OK falls, causing a device cold reset. -/
  | pwrOkFall
  /-- DEV_RST_N_FALL (R537): DEV_RST_N held low for 10 µs starts a device warm reset. -/
  | devRstNFall (heldUs : Nat)
  /-- DEV_RST_N_RISE (R421): DEV_RST_N rises and Cruise begins. -/
  | devRstNRise (i : CruiseIn)
  /-- PCIE_RESET (R492): PERST_N low, hot reset or link down resets the PCIe domain. -/
  | pcieReset (cause : PcieResetCause)
  /-- PERST_N_RISE (R537): PERST_N rises and the PCIe lanes are enabled. -/
  | perstNRise
  /-- RAIL_LOSS (R539): A rail lost for 10 µs causes a device cold reset. -/
  | railLoss (rail : Rail) (lostUs : Nat)
  /-- REFCLK_LOSS (R545): REFCLK is lost; the PCIe link resets and the time base runs from MCLK25. -/
  | refclkLoss
  /-- REFCLK_RETURN (R422): REFCLK returns; Cruise resumes or the time base returns to it. -/
  | refclkReturn (i : CruiseIn)
  /-- MCLK25_LOSS (R545): The on-die oscillator takes over and a warning is raised. -/
  | mclk25Loss
  /-- ASSIGNMENT_DEADLINE (R439): At 8.5 s without an assignment the device enters READY without a DID. -/
  | assignmentDeadline (i : ReadyIn)
  /-- WARDEN_WATCHDOG (R492): The Lookout has not refreshed the watchdog for 2 s, causing a device warm reset. -/
  | wardenWatchdog (i : CruiseIn)
  /-- DORMANT (R444): Request Dormant by register or command; entry runs unless refused. -/
  | dormant (src : DormantSrc)
  /-- DORMANT_QUIET_TIMEOUT (R444): Cores are not quiet 100 ms after the request; Dormant is refused with QUEUE_TIMEOUT. -/
  | dormantQuietTimeout
  /-- DORMANT_TIMER_EXPIRY (R447): The Dormant timer fires as a wake source. -/
  | dormantTimerExpiry
  /-- WAKE_FROM_DORMANT (R448): A wake source fires and the device returns to service. -/
  | wakeFromDormant (lastUs : Nat) (upsets : List (Lcid × Upset))
  /-- REPORT (R459): A report reaches its combiner and matches or opens a record. -/
  | report
  /-- RECORD_CLOSE (R459): A record closes after QUIET without a match, or after 1 s. -/
  | recordClose (s : BitVec 2) (seq : BitVec 32)
  /-- ERR_HEAD_WRITE (R471): PF0 advances ERR_Ss_HEAD when it is the host consumer. -/
  | errHeadWrite (s : BitVec 2) (w : Wr)
  /-- FAULT_AGENT_ACTION (R465): The local fault agent classifies a record and takes the Table 17.3 action. -/
  | faultAgentAction (s : BitVec 2) (seq : BitVec 32)
  /-- SNAG_RECORD (R475): A cycle quiet for QUIET is recorded and reported as a Snag. -/
  | snagRecord (members : List (Lcid × CtxNo))
  /-- KAK_SWEEP (R499): A scheduled sweep of an idle unit runs the known-answer kernels. -/
  | kakSweep (psid : BitVec 24) (runs : List KernelRun)
  /-- TWIN_MISMATCH (R511): Twin outputs differ; the output is withheld and the pair is swept and repaired. -/
  | twinMismatch (l : Lcid) (runs : List KernelRun)
  /-- ASSIGN (R439): Set the DID and expected port map, and rerun the topology check. -/
  | mgmtAssign (m : Mgmt) (i : ReadyIn)
  /-- ACK (R468): Advance ERR_Ss_HEAD of a Stand. -/
  | mgmtAck (m : Mgmt)
  /-- BLAZE (R452): Blaze a unit, with adoption or vacancy as it requires. -/
  | mgmtBlaze (m : Mgmt)
  /-- RETIRE_PORT (R337): Retire a Gwynfold port. -/
  | mgmtRetirePort (m : Mgmt)
  /-- CHECK (R521): Run a known-answer sweep or a Sounding over a scope. -/
  | mgmtCheck (m : Mgmt) (runs : List KernelRun) (segments : List SegmentRun)
  /-- RESET (R495): Reset a context, core, grove, Stand or the device (warm). -/
  | mgmtReset (m : Mgmt) (i : CruiseIn)
  /-- RT_WRITE (R468): Write routing or multicast entries into a bank. -/
  | mgmtRtWrite (m : Mgmt)
  /-- HOLD (R468): Hold up to four DID ranges. -/
  | mgmtHold (m : Mgmt)
  /-- SWAP (R343): Wait for the drain, then switch the active bank. -/
  | mgmtSwap (m : Mgmt)
  /-- RELEASE (R468): Clear every DID hold. -/
  | mgmtRelease (m : Mgmt)
  /-- MGMT_WAKE (R447): The WAKE management command fires wake source 1. -/
  | mgmtWake (m : Mgmt)
  /-- STATUS (R468): Return device status and the Cruise report. -/
  | mgmtStatus (m : Mgmt)
  /-- READ_LOG (R468): Return error-log entries from the log or the ring. -/
  | mgmtReadLog (m : Mgmt)
  /-- GROVE_RELEASE (R562): PART_GROVEk ASSIGNED written 0 starts sanitising of the grove. -/
  | groveRelease (dg : Dg) (w : Wr)
  /-- GROVE_JOIN (R562): PART_GROVEk ASSIGNED written 1 puts the grove in a partition. -/
  | groveJoin (dg : Dg) (w : Wr)
  /-- SANITISE_COMPLETE (R415): The grove's sanitising work completes and SANITISING clears. -/
  | sanitiseComplete (dg : Dg)
  /-- CORE_INTERNAL_FAULT (R181): A hardware fault of cause INTERNAL arises in a site's scalar pipeline, queue, haul or brand unit; the core holds all its contexts and recovery is called. -/
  | coreInternalFault (l : Lcid) (engine : SiteFault)
  /-- UNDEFINED_OPCODE (R191): A context issues an instruction word whose opcode is not defined at TGX-1 and takes a precise UNDEF fault. -/
  | undefinedOpcode (l : Lcid) (c : CtxNo) (word : Word)
  /-- UNDEFINED_COMMAND (R468): A fault-manager command arrives with an OPC not in Table 17.8 and completes with UNDEF. -/
  | mgmtUndefined (opc : BitVec 8) (m : Mgmt)
  /-- TRNG_HEALTH_TEST (R412): The TRNG entropy source fails or again passes its SP 800-90B health test, stopping or resuming key generation and raising an INTERNAL report on failure. -/
  | trngHealthTest (pass : Bool)
  /-- PCIE_LINK_TRAINED (R367): The PCIe link completes training, within or below the 16 GT/s and x4 limits, deciding whether BAR accesses are served or completed with Unsupported Request. -/
  | pcieLinkTrained (gts : Nat) (width : PcieTrain)
  /-- MCLK25_START (R545): MCLK25 starts running; after 1 ms Cruise step 1 may proceed and the always-on FAULT_N hold is released. -/
  | mclk25Start (i : CruiseIn)
  /-- CHECKING_HOLD_TIMEOUT (R501): A position under the checking hold is not quiet within 100 ms; everything is released and CHECK completes with QUEUE_TIMEOUT. -/
  | checkingHoldTimeout (l : Lcid)
  /-- ACTIVATION_EXCHANGE_TIMEOUT (R526): A firmware activation still waits on an in-flight collective exchange after 100 ms and is refused with QUEUE_TIMEOUT. -/
  | activationExchangeTimeout
deriving DecidableEq, Repr

end Sys2Proof
end

