-- ==== Sys2Proof/Decode.lean ====
section
/-! DEFINITION. The command that a word of the opcode table spells. The table gives no row bits, so no word spells a
command by it (log entry 2, DESIGN CHOICE). The instructions of TGX have encodings all the same, in 07_tgx_encoding.md: `decodeTgx` reads
them. -/

namespace Sys2Proof

/-- No row of spec/opcode_table.json gives bits: no word spells a command. -/
def decodeTableWord (_nbits _w : Nat) : Option Instr := none

/-- What an instruction of a context is, once its operation is known: its command for the 54 bits below OP. -/
abbrev TgxOp := Lcid → CtxNo → BitVec 54 → Instr

/-- The operations of a class by OP[5:0] (R194, Tables 07.4 to 07.17); an operation that is not listed is undefined (R191). -/
def tgxOps (cls : Nat) : List (Nat × TgxOp) :=
  match cls with
  | 0 =>
    [(0x01, .add), (0x02, .sub), (0x03, .mul), (0x04, .mulhs), (0x05, .mulhu), (0x06, .andR), (0x07, .orR), (0x08, .xorR), (0x09, .shl),
     (0x0A, .shrl), (0x0B, .shra), (0x0C, .mins), (0x0D, .maxs), (0x0E, .minu), (0x0F, .maxu), (0x11, .addi), (0x16, .andi), (0x17, .ori),
     (0x18, .xori), (0x19, .shli), (0x1A, .shrli), (0x1B, .shrai), (0x20, .li), (0x21, .lih)]
  | 1 =>
    [(0x00, .ceq), (0x01, .cne), (0x02, .clt), (0x03, .cle), (0x04, .cltu), (0x05, .cleu), (0x08, .pand), (0x09, .por), (0x0A, .pxor),
     (0x10, .ceqi), (0x11, .cnei), (0x12, .clti), (0x13, .clei), (0x14, .cltui), (0x15, .cleui)]
  | 2 =>
    [(0x00, .br), (0x01, .bl), (0x02, .bri), (0x03, .bli)]
  | 3 =>
    [(0x00, .ldb), (0x01, .ldh), (0x02, .ldw), (0x03, .ldd), (0x04, .ldbs), (0x05, .ldhs), (0x06, .ldws), (0x08, .stb), (0x09, .sth),
     (0x0A, .stw), (0x0B, .std), (0x10, .ffence)]
  | 4 =>
    [(0x00, .mclaim), (0x01, .mrel), (0x02, .tdld), (0x03, .mzero), (0x04, .mma), (0x05, .mwait)]
  | 5 =>
    [(0x00, .veAdd), (0x01, .veSub), (0x02, .veMul), (0x03, .veMad), (0x04, .veNeg), (0x05, .veAbs), (0x06, .veMax), (0x07, .veMin),
     (0x08, .veScl), (0x10, .veEq), (0x11, .veNe), (0x12, .veLt), (0x13, .veLe), (0x14, .veGt), (0x15, .veGe), (0x18, .veSel),
     (0x20, .veAnd), (0x21, .veOr), (0x22, .veXor), (0x23, .veNot), (0x24, .veShl), (0x25, .veShrl), (0x26, .veShra)]
  | 6 =>
    [(0x00, .veCvt), (0x01, .veShf), (0x02, .veScan), (0x03, .veSscan), (0x04, .veRed), (0x05, .veFn), (0x0F, .vwait)]
  | 7 =>
    [(0x00, .qrd), (0x01, .qput), (0x02, .qtest), (0x03, .qcfg)]
  | 8 =>
    [(0x00, .send), (0x01, .msgrel)]
  | 9 =>
    [(0x00, .haul), (0x01, .haull)]
  | 10 =>
    [(0x00, .sadd), (0x01, .sarrive), (0x02, .sset), (0x03, .sclr), (0x04, .swait), (0x05, .sacq), (0x06, .srel), (0x07, .srd)]
  | 11 =>
    [(0x00, .ctxEnd), (0x01, .park), (0x02, .wake), (0x03, .resume), (0x04, .cfree), (0x05, .sleep), (0x06, .srseed)]
  | 12 =>
    [(0x00, .ring), (0x08, .bropen), (0x09, .brhash), (0x0A, .brseal)]
  | 13 =>
    [(0x00, .qry), (0x01, .nsrd), (0x02, .tlrd), (0x03, .tlclr), (0x04, .distrd)]
  | _ => []

/-- R187, R194: the command of an instruction word: its class is OP[9:6], word bits [63:60], its operation OP[5:0], bits [59:54]; the guard and
the operands are the bits below. None for a word whose opcode is not defined, whose command is UNDEFINED_OPCODE (R191). -/
def decodeTgx (l : Lcid) (c : CtxNo) (w : BitVec 64) : Option Instr :=
  ((tgxOps (w.toNat / 2 ^ 60)).find? fun p => p.1 == w.toNat / 2 ^ 54 % 64).map fun p => p.2 l c (BitVec.ofNat 54 w.toNat)

end Sys2Proof
end

