-- ==== Sys2Proof/Config.lean ====
section
/-! DEFINITION. What one part fixes and what the spec leaves open: fused values of the part (constants), and the
free values, each an opaque constant with no body, so that no proof can rest on a particular value. -/

namespace Sys2Proof.Config

/-- Free 64-bit values in sequence: the step reads the next and advances State.freeCtr (log entry 3, DESIGN CHOICE). -/
opaque freeWord : Nat → BitVec 64

/-- Free bytes in sequence (log entry 3, DESIGN CHOICE). -/
opaque freeByte : Nat → BitVec 8

/-- R156: a significand for the intermediate result R of function `f` at the exact argument `s * 2^x`, by the tables of the version that comes
first. R depends only on x; the table contents are not in the spec (log entry 4, DESIGN CHOICE). -/
opaque fnSig : Nat → Nat → Int → Int → Int

/-- R156: its exponent (log entry 4, DESIGN CHOICE). -/
opaque fnExp : Nat → Nat → Int → Int → Int

/-- R404, R409: whether an ECDSA P-384 signature (last) verifies over a message (first) under a public key of 96 bytes, or under the key
whose SHA-384 of 48 bytes is given in its place (log entry 5, DESIGN CHOICE). -/
opaque verifySig : List (BitVec 8) → List (BitVec 8) → List (BitVec 8) → Bool

/-- R404: whether 96 bytes are a valid P-384 point (log entry 5, DESIGN CHOICE). -/
opaque validPoint : List (BitVec 8) → Bool

/-- R409: AES-256-GCM decryption of an image's ciphertext under the fused firmware image key: header, ciphertext
to plaintext, none where TAG does not verify (log entry 5, DESIGN CHOICE). -/
opaque decryptImage : List (BitVec 8) → List (BitVec 8) → Option (List (BitVec 8))

/-- R411, R419, R519: the 96-byte ECDSA P-384 signature that the attestation key makes over a message. The key derives from the unique
device secret, of which the first argument says whether it still stands, and from measurements 1 and 2 (log entry 5, DESIGN CHOICE). -/
opaque attestSign : Bool → List (BitVec 8) → List (BitVec 8) → List (BitVec 8) → List (BitVec 8)

/-- R394, R419: whether an SPDM certificate chain's root key has the given SHA-384 and its leaf certifies the device
identity key (log entry 5, DESIGN CHOICE). -/
opaque chainCertifies : List (BitVec 8) → List (BitVec 8) → Bool

/-- R404: SHA-384 of this part's device identity public key (log entry 5, DESIGN CHOICE). -/
opaque deviceIdHash : List (BitVec 8)

/-- R419: the digest of the Warden ROM, 48 bytes (log entry 5, DESIGN CHOICE). -/
opaque romHash : List (BitVec 8)

/-- R409: the fused SHA-384 of signer slot `i`, 48 bytes (log entry 5, DESIGN CHOICE). -/
opaque signerHash : Nat → List (BitVec 8)

/-- R419: the DIGEST of the images that the factory put into slot A: 1 the Warden's, 2 the Lookout's, 3 that of the
service images and kernels in it (log entry 21, DESIGN CHOICE). -/
opaque factoryDigest : Nat → List (BitVec 8)

/-- R419: the digest of the service images and known-answer kernels in a Lookout image's plaintext (log entry 5, DESIGN CHOICE). -/
opaque serviceDigest : List (BitVec 8) → List (BitVec 8)

/-- R497, R498: the expected signature of a known-answer kernel for a stepping, in the kernel set whose measurement (R419, index 4) is given
(log entry 6, DESIGN CHOICE). -/
opaque kakExpected : List (BitVec 8) → BitVec 16 → BitVec 8 → BitVec 64

/-- R505: the expected Sounding signature of the segment that covers a PSID, for a stepping (log entry 6, DESIGN CHOICE). -/
opaque soundingExpected : BitVec 24 → BitVec 8 → BitVec 64

/-- R438: the bytes of the resident image whose measurement (R419, index 4) is given, by own-scratchpad offset below 256 KiB
(log entry 7, DESIGN CHOICE). -/
opaque residentByte : List (BitVec 8) → Nat → BitVec 8

/-- R438: the handler entries of that resident image, by handler index (log entry 7, DESIGN CHOICE). -/
opaque residentHandler : List (BitVec 8) → Nat → BitVec 64

/-- R528: the pc, in 8-byte words, at which the service of a context of that resident image starts again (log entry 7, DESIGN CHOICE). -/
opaque residentEntry : List (BitVec 8) → Nat → Nat

/-- The free bytes beyond the confirmed prefix of a failed CKPT_READ (R391), by sequence and offset (log entry 3, DESIGN CHOICE). -/
opaque ckptByte : Nat → Nat → BitVec 8

/-- The bus address at which the host has placed BAR4 of a function, which no register of the spec holds (R390; log entry 40). -/
opaque bar4Base : Nat → BitVec 64

/-- R394, R419: certificate chain 0, from Barvago's root through the device identity key to the attestation key; whether the unique device secret
stands, and measurement 2 (log entry 5, DESIGN CHOICE). -/
opaque deviceChain : Bool → List (BitVec 8) → List (BitVec 8)

/-- R560: this part's fused serial number and MAC (log entry 8, DESIGN CHOICE). -/
opaque serial : BitVec 64
opaque mac : BitVec 48

/-- R363: the soft post-package repairs available in one pseudo-channel of a stack; the spec gives no number
(log entry 9, DESIGN CHOICE). -/
opaque hbmSpareRows : Nat

/-- R363, R364: the row and the pseudo-channel of a stack that hold a granule; the spec gives no mapping
(log entry 9, DESIGN CHOICE). -/
opaque hbmRow : BitVec 2 → Nat → Nat
opaque hbmChannel : BitVec 2 → Nat → BitVec 4

/-- R392: whether the management interfaces have configured export of the telemetry records on their Ethernet, for which the table has no row (log
entry 122, DESIGN CHOICE). -/
opaque telemExport : Bool

end Sys2Proof.Config
end

