-- ==== Sys2Proof/Machine/Bits.lean ====
section
/-! DEFINITION. Bit fields, byte order and the sparse tables in which State keeps large things: a list of key and value
pairs with strictly rising keys and no entry equal to what an unlisted key reads as. -/

namespace Sys2Proof.Machine

/-- `len` bits of `x` from bit `lo` up, as a number. -/
def fld {w : Nat} (x : BitVec w) (lo len : Nat) : Nat := (x.toNat >>> lo) % 2 ^ len

/-- Bit `i` of `x`. -/
def bit {w : Nat} (x : BitVec w) (i : Nat) : Bool := x.toNat.testBit i

/-- The 64-bit word of a number, modulo 2^64. -/
def wd (n : Nat) : Word := BitVec.ofNat 64 n

/-- A Bool as a bit of value `2 ^ i`. -/
def bitAt (b : Bool) (i : Nat) : Nat := if b then 2 ^ i else 0

/-- `n` little-endian bytes of a number (R10). -/
def leBytes : Nat → Nat → List Byte
  | 0, _ => []
  | n + 1, v => BitVec.ofNat 8 v :: leBytes n (v / 256)

/-- The bytes of 64-bit words. -/
def wordBytes (ws : List Word) : List Byte := ws.flatMap fun w => leBytes 8 w.toNat

/-- The number that little-endian bytes hold (R10). -/
def leNat : List Byte → Nat
  | [] => 0
  | b :: r => b.toNat + 256 * leNat r

/-- The two's-complement value of the low `n` bits of `v`. -/
def signed (n v : Nat) : Int :=
  let u := v % 2 ^ n
  if 2 ^ n ≤ 2 * u then (u : Int) - 2 ^ n else u

/-- The `n`-bit two's-complement pattern of an integer. -/
def unsigned (n : Nat) (v : Int) : Nat := (v % (2 ^ n : Int)).toNat

/-- Addition that saturates at `2 ^ n - 1`. -/
def satAdd (n a b : Nat) : Nat := min (a + b) (2 ^ n - 1)

/-- `n` rounded up to a multiple of `k`. -/
def roundUp (n k : Nat) : Nat := (n + k - 1) / k * k

/-- The numbers `a`, `a + 1`, … of which there are `n`. -/
def upto : Nat → Nat → List Nat
  | _, 0 => []
  | a, n + 1 => a :: upto (a + 1) n

/-- The first `n` naturals. -/
def below (n : Nat) : List Nat := upto 0 n

/-- Consecutive pieces of `n` elements. -/
def pieces {α : Type} (n : Nat) : Nat → List α → List (List α)
  | 0, _ => []
  | _, [] => []
  | f + 1, l => l.take n :: pieces n f (l.drop n)

/-- The least number of a list that satisfies `p`. -/
def firstThat {α : Type} (p : α → Bool) : List α → Option α
  | [] => none
  | a :: r => if p a then some a else firstThat p r

/-- An element put into a list sorted by a key, after those with equal keys. -/
def insBy {α : Type} (f : α → Nat) (a : α) : List α → List α
  | [] => [a]
  | b :: r => if f b ≤ f a then b :: insBy f a r else a :: b :: r

/-- A list sorted by a key, equal keys in their order. -/
def sortBy {α : Type} (f : α → Nat) (l : List α) : List α := l.foldl (fun r a => insBy f a r) []

/-- The exclusive or of a list of numbers' bits. -/
def xorAll (l : List Nat) : Nat := l.foldl (· ^^^ ·) 0

/-- A sparse table: strictly rising keys, no entry equal to the default. -/
abbrev Tbl (α : Type) := List (Nat × α)

/-- The value at key `k`, `d` where the table lists none. -/
def tget {α : Type} (d : α) : Tbl α → Nat → α
  | [], _ => d
  | (j, v) :: r, k => if j = k then v else tget d r k

/-- The table with `v` at key `k`, kept in the canonical form. -/
def tput {α : Type} [DecidableEq α] (d : α) : Tbl α → Nat → α → Tbl α
  | [], k, v => if v = d then [] else [(k, v)]
  | (j, w) :: r, k, v =>
    if v = d then (if k = j then tput d r k v else (j, w) :: tput d r k v)
    else if k < j then (k, v) :: (j, w) :: r
    else if k = j then (k, v) :: r
    else (j, w) :: tput d r k v

/-- A sparse table with every entry changed. -/
def tmap {α : Type} [DecidableEq α] (d : α) (f : α → α) : Tbl α → Tbl α
  | [] => []
  | (j, v) :: r => tput d (tmap d f r) j (f v)

/-- The canonical form of a sparse table. -/
abbrev TblWf {α : Type} (d : α) (t : Tbl α) : Prop :=
  (t.map Prod.fst).Pairwise (· < ·) ∧ ∀ p ∈ t, p.2 ≠ d

/-- A sparse table of bytes: memory. An unlisted address reads as 0 (log entry 11, DESIGN CHOICE). -/
abbrev Memory := Tbl Byte

/-- Memory's canonical form. -/
abbrev Memory.wf (m : Memory) : Prop := TblWf (0 : Byte) m

/-- One byte of memory. -/
def rdByte (m : Memory) (a : Nat) : Byte := tget 0 m a

/-- Memory with one byte written. -/
def wrByte (m : Memory) (a : Nat) (v : Byte) : Memory := tput 0 m a v

/-- `n` bytes from address `a`. -/
def rdBytes (m : Memory) (a n : Nat) : List Byte := (upto a n).map (rdByte m)

/-- Memory with consecutive bytes written from address `a`. -/
def wrBytes (m : Memory) : Nat → List Byte → Memory
  | _, [] => m
  | a, b :: r => wrBytes (wrByte m a b) (a + 1) r

/-- The little-endian number of `n` bytes at `a` (R10). -/
def rdNum (m : Memory) (a n : Nat) : Nat := leNat (rdBytes m a n)

/-- The 64-bit word at `a`. -/
def rdWord (m : Memory) (a : Nat) : Word := wd (rdNum m a 8)

/-- Memory with the low `n` bytes of a number written at `a`. -/
def wrNum (m : Memory) (a n v : Nat) : Memory := wrBytes m a (leBytes n v)

/-- A finite set of naturals, as a rising list. -/
abbrev NatSet := List Nat

/-- Insertion into a rising list. -/
def sIns : NatSet → Nat → NatSet
  | [], k => [k]
  | j :: r, k => if k < j then k :: j :: r else if k = j then j :: r else j :: sIns r k

/-- Removal. -/
def sDel (s : NatSet) (k : Nat) : NatSet := s.filter (· != k)

/-- Membership. -/
def sHas (s : NatSet) (k : Nat) : Bool := s.contains k

/-- CRC-32C, reflected polynomial 0x82F63B78, one byte (Castagnoli). -/
def crcByte (c : Nat) (b : Nat) : Nat :=
  (below 8).foldl (fun c _ => if c % 2 = 1 then (c >>> 1) ^^^ 0x82F63B78 else c >>> 1) (c ^^^ b)

/-- CRC-32C of bytes: initial value all ones, final complement. -/
def crc32c (l : List Byte) : Nat := (l.foldl (fun c b => crcByte c b.toNat) 0xFFFFFFFF) ^^^ 0xFFFFFFFF

end Sys2Proof.Machine
end

