-- ==== Sys2Proof/Machine/Numbers.lean ====
section
/-! DEFINITION. Number formats, special classes, rounding and conversion (03_numbers.md). A finite value is an integer
significand and a power of two; every format decodes into one exactly and every write rounds once. -/

namespace Sys2Proof.Machine

/-- Special classes (Table 03.5). -/
inductive Cls where
  | fin | nan | pinf | ninf
deriving DecidableEq, Repr

/-- The 2-bit code of a class (Table 03.5). -/
def clsCode : Cls → Nat
  | .fin => 0 | .nan => 1 | .pinf => 2 | .ninf => 3

/-- The class of a 2-bit code (Table 03.5). -/
def clsOf (n : Nat) : Cls :=
  match n % 4 with
  | 0 => .fin | 1 => .nan | 2 => .pinf | _ => .ninf

/-- An exact element: class, significand and exponent; value `s * 2 ^ x` when finite (R117, R142). -/
structure Num where
  cls : Cls
  s   : Int
  x   : Int
deriving DecidableEq, Repr

/-- A finite exact element. -/
def fin' (s x : Int) : Num := ⟨.fin, s, x⟩

/-- A special element. -/
def spec' (c : Cls) : Num := ⟨c, 0, 0⟩

/-- Exact zero. -/
def zero' : Num := fin' 0 0

/-- Element formats (Table 03.1). -/
inductive Fmt where
  | bf16 | fp16 | fp32 | sb4 | sb8 | sb12 | w32 | w64 | i8 | i16 | i32 | i64
deriving DecidableEq, Repr

/-- The format of a 4-bit code; 0xC to 0xF are reserved (Table 03.1). -/
def fmtOf (n : Nat) : Option Fmt :=
  match n with
  | 0 => some .bf16 | 1 => some .fp16 | 2 => some .fp32 | 3 => some .sb4 | 4 => some .sb8 | 5 => some .sb12
  | 6 => some .w32 | 7 => some .w64 | 8 => some .i8 | 9 => some .i16 | 10 => some .i32 | 11 => some .i64
  | _ => none

/-- The code of a format (Table 03.1). -/
def fmtCode : Fmt → Nat
  | .bf16 => 0 | .fp16 => 1 | .fp32 => 2 | .sb4 => 3 | .sb8 => 4 | .sb12 => 5
  | .w32 => 6 | .w64 => 7 | .i8 => 8 | .i16 => 9 | .i32 => 10 | .i64 => 11

/-- Bits of one element (Table 03.1). -/
def fmtBits : Fmt → Nat
  | .bf16 => 16 | .fp16 => 16 | .fp32 => 32 | .sb4 => 4 | .sb8 => 8 | .sb12 => 12
  | .w32 => 32 | .w64 => 64 | .i8 => 8 | .i16 => 16 | .i32 => 32 | .i64 => 64

/-- SB formats and W32: blocks of 32 with a scale plane (R72, R75). -/
def fmtScaled : Fmt → Bool
  | .sb4 | .sb8 | .sb12 | .w32 => true
  | _ => false

/-- Formats whose stream names a plane as well as data (R136). -/
def fmtPlaned (f : Fmt) : Bool := fmtScaled f || f = .w64

/-- Integer formats (R77). -/
def fmtInt : Fmt → Bool
  | .i8 | .i16 | .i32 | .i64 => true
  | _ => false

/-- Number of significant bits of |x|; 0 for 0 (04_mill.md, "Dot-group arithmetic"). -/
def bitlen (x : Int) : Nat := if x = 0 then 0 else Nat.log2 x.natAbs + 1

/-- sign(x) * floor(|x| / 2^k) (04_mill.md). -/
def trunc (x : Int) (k : Nat) : Int := Int.tdiv x (2 ^ k)

/-- x * 2^d, or the truncation of it (04_mill.md). -/
def shift (x d : Int) : Int := if 0 ≤ d then x * 2 ^ d.toNat else trunc x (-d).toNat

/-- floor(log2 |v|) of a non-zero element. -/
def topExp (v : Num) : Int := v.x + (bitlen v.s : Int) - 1

/-- Class of a product (Table 03.6). -/
def mulCls (a b : Num) : Cls :=
  match a.cls, b.cls with
  | .nan, _ | _, .nan => .nan
  | .fin, .fin => .fin
  | .fin, c => if a.s = 0 then .nan else if (a.s < 0) = (c = .ninf) then .pinf else .ninf
  | c, .fin => if b.s = 0 then .nan else if (b.s < 0) = (c = .ninf) then .pinf else .ninf
  | c, d => if c = d then .pinf else .ninf

/-- Class of a sum (Table 03.6). -/
def addCls (a b : Cls) : Cls :=
  match a, b with
  | .nan, _ | _, .nan => .nan
  | .fin, c => c
  | c, .fin => c
  | c, d => if c = d then c else .nan

/-- Negation of a class (Table 03.6, last row). -/
def negCls : Cls → Cls
  | .pinf => .ninf | .ninf => .pinf | c => c

/-- Exact negation. -/
def negNum (a : Num) : Num := ⟨negCls a.cls, -a.s, a.x⟩

/-- Exact product (R142). -/
def mulNum (a b : Num) : Num :=
  match mulCls a b with
  | .fin => fin' (a.s * b.s) (a.x + b.x)
  | c => spec' c

/-- `a < b` on exact values with −Inf < finite < +Inf; false when either is NaN (R80, R81). -/
def numLt (a b : Num) : Bool :=
  match a.cls, b.cls with
  | .nan, _ | _, .nan => false
  | .ninf, c => c != .ninf
  | _, .ninf => false
  | .pinf, _ => false
  | _, .pinf => true
  | .fin, .fin =>
    if a.s = 0 ∨ b.s = 0 ∨ (a.s < 0) ≠ (b.s < 0) then decide (a.s.sign < b.s.sign)
    else if topExp a ≠ topExp b then decide (topExp a < topExp b) != decide (a.s < 0)
    else
      let e := min a.x b.x
      decide (a.s * 2 ^ (a.x - e).toNat < b.s * 2 ^ (b.x - e).toNat)

/-- Equality of exact values; NaN is unordered (R81). -/
def numEq (a b : Num) : Bool :=
  a.cls != .nan && b.cls != .nan && !(numLt a b) && !(numLt b a)

/-- Maximum (R80). -/
def maxNum (a b : Num) : Num :=
  if a.cls = .nan ∨ b.cls = .nan then spec' .nan else if numLt a b then b else a

/-- Minimum (R80). -/
def minNum (a b : Num) : Num :=
  if a.cls = .nan ∨ b.cls = .nan then spec' .nan else if numLt b a then b else a

/-- Absolute value: NaN stays NaN, either infinity is +Inf. -/
def absNum (a : Num) : Num :=
  match a.cls with
  | .fin => fin' a.s.natAbs a.x
  | .nan => spec' .nan
  | _ => spec' .pinf

/-- Rounding modes (Table 03.7). -/
inductive RM where
  | rne | rtz | sr
deriving DecidableEq, Repr

/-- The mode of a 2-bit code; 0b11 is reserved (R83). -/
def rmOf (n : Nat) : Option RM :=
  match n with
  | 0 => some .rne | 1 => some .rtz | 2 => some .sr | _ => none

/-- R84: the magnitude `s * 2 ^ x` in units of `2 ^ e`, rounded; `r` is the element's 32-bit draw. -/
def roundMag (m : RM) (r s : Nat) (x e : Int) : Nat :=
  let d := e - x
  if d ≤ 0 then s * 2 ^ (-d).toNat
  else
    let n := d.toNat
    if n > bitlen s + 40 then 0 else
    let t := s >>> n
    let rest := s % 2 ^ n
    if rest = 0 then t
    else match m with
      | .rtz => t
      | .rne => if 2 * rest > 2 ^ n then t + 1 else if 2 * rest < 2 ^ n then t else t + t % 2
      | .sr => if rest * 2 ^ 32 / 2 ^ n + r ≥ 2 ^ 32 then t + 1 else t

/-- R84 with the sign of the value applied. -/
def roundInt (m : RM) (r : Nat) (v : Num) (e : Int) : Int :=
  let q := (roundMag m r v.s.natAbs v.x e : Int)
  if v.s < 0 then -q else q

/-- `roundInt` of a magnitude far above every significand range is any value above that range. -/
def roundCap (m : RM) (r : Nat) (v : Num) (e : Int) : Int :=
  if v.s ≠ 0 ∧ topExp v > e + 70 then (if v.s < 0 then -(2 ^ 70) else 2 ^ 70) else roundInt m r v e

/-- R94: one draw of the stochastic-rounding generator. -/
def srDraw (seed n : Word) : Nat :=
  let z := seed + (n + 1) * 0x9E3779B97F4A7C15
  let z := (z ^^^ (z >>> 30)) * 0xBF58476D1CE4E5B9
  let z := (z ^^^ (z >>> 27)) * 0x94D049BB133111EB
  let z := z ^^^ (z >>> 31)
  fld z 32 32

/-- IEEE layouts: exponent bits, fraction bits, bias (Table 03.2). -/
def ieee : Fmt → Option (Nat × Nat × Nat)
  | .bf16 => some (8, 7, 127)
  | .fp16 => some (5, 10, 15)
  | .fp32 => some (8, 23, 127)
  | _ => none

/-- Exact decoding of an IEEE pattern (R68 to R70). -/
def decIeee (eb fb bias w : Nat) : Num :=
  let f := w % 2 ^ fb
  let x := (w >>> fb) % 2 ^ eb
  let neg := w.testBit (eb + fb)
  let sg := fun (n : Nat) => if neg then -(n : Int) else (n : Int)
  if x = 2 ^ eb - 1 then
    if f = 0 then spec' (if neg then .ninf else .pinf) else spec' .nan
  else if x = 0 then fin' (sg f) (1 - (bias : Int) - fb)
  else fin' (sg (2 ^ fb + f)) ((x : Int) - bias - fb)

/-- What writing one element did: bits, whether it saturated, whether it flushed. -/
structure Enc where
  bits : Nat
  sat  : Bool
  fl   : Bool
deriving DecidableEq, Repr

/-- Writing an element in an IEEE format (R85, R89, R69, R70). -/
def encIeee (eb fb bias : Nat) (m : RM) (r : Nat) (v : Num) : Enc :=
  let top := (2 ^ eb - 1) * 2 ^ fb
  let sgn := 2 ^ (eb + fb)
  match v.cls with
  | .nan => ⟨top + 2 ^ (fb - 1), false, false⟩
  | .pinf => ⟨top, false, false⟩
  | .ninf => ⟨sgn + top, false, false⟩
  | .fin =>
    if v.s = 0 then ⟨0, false, false⟩
    else
      let neg := if v.s < 0 then sgn else 0
      let emin : Int := 1 - (bias : Int) - fb
      let e0 := topExp v - fb
      if e0 + fb > (bias : Int) + 1 then ⟨neg + (top - 1), true, false⟩
      else
        let e := max e0 emin
        let n := roundMag m r v.s.natAbs v.x e
        if n = 0 then ⟨0, false, true⟩
        else
          let pat := n + (e - emin).toNat * 2 ^ fb
          if top ≤ pat then ⟨neg + (top - 1), true, false⟩ else ⟨neg + pat, false, false⟩

/-- Writing an element as an `n`-bit integer (R86, R89). -/
def encInt (n : Nat) (m : RM) (r : Nat) (v : Num) : Enc :=
  let hi : Int := 2 ^ (n - 1) - 1
  let lo : Int := -(2 ^ (n - 1))
  match v.cls with
  | .nan => ⟨0, false, false⟩
  | .pinf => ⟨unsigned n hi, true, false⟩
  | .ninf => ⟨unsigned n lo, true, false⟩
  | .fin =>
    if v.s = 0 then ⟨0, false, false⟩
    else if topExp v ≥ n then ⟨unsigned n (if v.s < 0 then lo else hi), true, false⟩
    else
      let q := roundInt m r v 0
      if q > hi then ⟨unsigned n hi, true, false⟩
      else if q < lo then ⟨unsigned n lo, true, false⟩
      else ⟨unsigned n q, false, q = 0⟩

/-- One written block or row: its scale or exponent, its special codes, its significands, and the counts. -/
structure Blk where
  exp  : Int
  spec : List Cls
  sig  : List Int
  sat  : Nat
  fl   : Nat
deriving DecidableEq, Repr

/-- The largest magnitude of a list's finite elements, none when all are zero or special. -/
def maxMag : List Num → Option Num
  | [] => none
  | v :: r =>
    match maxMag r with
    | none => if v.cls = .fin ∧ v.s ≠ 0 then some (absNum v) else none
    | some w => if v.cls = .fin ∧ numLt w (absNum v) then some (absNum v) else some w

/-- Number of elements that satisfy `p`. -/
def countP {α : Type} (p : α → Bool) (l : List α) : Nat := (l.filter p).length

/-- R87: a block of 32 elements (with their draws) in an SB format or W32 of `q` bits. -/
def convertBlock (q : Nat) (m : RM) (xs : List (Num × Nat)) : Blk :=
  if xs.any (fun p => p.1.cls != .fin) then ⟨0xFF, [], xs.map fun _ => 0, 0, 0⟩
  else match maxMag (xs.map Prod.fst) with
    | none => ⟨0, [], xs.map fun _ => 0, 0, 0⟩
    | some mx =>
      let e0 := topExp mx - ((q : Int) - 2) + 127
      let e := if e0 > 254 then 254 else if e0 < 0 then 0 else e0
      let hi : Int := 2 ^ (q - 1) - 1
      let lo : Int := -(2 ^ (q - 1))
      let rnd := fun (e : Int) => xs.map fun p => roundCap m p.2 p.1 (e - 127)
      let s0 := rnd e
      let up : Bool := e < 254 && s0.any (fun s => hi < s)
      let e := if up then e + 1 else e
      let s := if up then rnd e else s0
      { exp := e, spec := []
        sig := s.map fun v => if v > hi then hi else if v < lo then lo else v
        sat := countP (fun v => v > hi || v < lo) s
        fl := countP (fun p => p.1.1.s != 0 && p.2 == 0) (xs.zip s) }

/-- A row with significand 0 and its code for every special element. -/
def rowSpec (xs : List (Num × Nat)) : List Cls := xs.map fun p => p.1.cls

/-- R88 (the rule for IEEE sources) with the range rule of R143: a W64 row. -/
def convertRow (m : RM) (xs : List (Num × Nat)) : Blk :=
  let e0 : Int := match maxMag (xs.map Prod.fst) with
    | none => 0
    | some mx => topExp mx - 61
  let e := if e0 > 32767 then 32767 else if e0 < -32768 then -32768 else e0
  let top : Int := 2 ^ 62 - 1
  let s := xs.map fun p => if p.1.cls = .fin then roundCap m p.2 p.1 e else 0
  { exp := e, spec := rowSpec xs
    sig := if e = 32767 then s.map fun v => if v > top then top else if v < -top then -top else v else s
    sat := if e = 32767 then countP (fun v => v > top || v < -top) s else 0
    fl := countP (fun p => p.1.1.cls == .fin && p.1.1.s != 0 && p.2 == 0) (xs.zip s) }

/-- R88 from SB, W32, an integer format, or one W64 row: exact, at the given exponent. -/
def exactRow (e : Int) (xs : List (Num × Nat)) : Blk :=
  { exp := e, spec := rowSpec xs
    sig := xs.map fun p => if p.1.cls = .fin then shift p.1.s (p.1.x - e) else 0, sat := 0, fl := 0 }

/-- The W64 tag words of a row (Table 03.4). -/
def tagWord1 (spec : List Cls) : Nat :=
  match spec with
  | [] => 0
  | c :: r => clsCode c + 4 * tagWord1 r

/-- A numeric status record in the making: counts and the first special. -/
structure Rec where
  sat   : Nat
  fl    : Nat
  first : Option (Nat × Cls)
deriving DecidableEq, Repr

/-- The empty record. -/
def rec0 : Rec := ⟨0, 0, none⟩

/-- Adds counts. -/
def recCount (r : Rec) (sat fl : Nat) : Rec := { r with sat := r.sat + sat, fl := r.fl + fl }

/-- Notes a special at a position, if it is the first (R98). -/
def recMark (r : Rec) (pos : Nat) (c : Cls) : Rec :=
  if c = .fin then r else match r.first with
    | some _ => r
    | none => { r with first := some (pos, c) }

/-- ns0 of a record (Table 03.9). -/
def ns0Of (r : Rec) : Word := wd (min r.fl 0xFFFFFFFF * 2 ^ 32 + min r.sat 0xFFFFFFFF)

/-- ns1 of a record (Table 03.10): `unit` 0 Mill, 1 VE; `dfmt` the destination format code. -/
def ns1Of (r : Rec) (unit dfmt : Nat) : Word :=
  match r.first with
  | none => wd (unit * 2 ^ 58 + dfmt * 2 ^ 40)
  | some (p, c) => wd (2 ^ 63 + clsCode c * 2 ^ 61 + unit * 2 ^ 58 + dfmt * 2 ^ 40 + p % 2 ^ 32)

end Sys2Proof.Machine
end

