-- ==== Sys2Proof/Machine/MillArith.lean ====
section
/-! DEFINITION. The Mill's arithmetic on exact elements (04_mill.md, "Dot-group arithmetic", "Accumulator rows",
"Special values in the Mill"): group sums in a 48-bit window, accumulation and renormalisation of one W64 row. -/

namespace Sys2Proof.Machine

/-- One accumulator row: EXP, the special codes of tag word 1, the significands by column, the poison mark (R120). -/
structure AccRow where
  exp    : BitVec 16
  spec   : BitVec 64
  sig    : Tbl Word
  poison : Bool
deriving DecidableEq, Repr

/-- A row as MZERO leaves it (R120). -/
def AccRow.zero : AccRow := ⟨0x8000, 0, [], false⟩

/-- Class of element `n` of a row. -/
def rowCls (r : AccRow) (n : Nat) : Cls := clsOf (fld r.spec (2 * n) 2)

/-- Signed significand of element `n`. -/
def rowSig (r : AccRow) (n : Nat) : Int := signed 64 (tget 0 r.sig n).toNat

/-- Signed row exponent. -/
def rowExp (r : AccRow) : Int := signed 16 r.exp.toNat

/-- Element `n` of a row as an exact element (R148). -/
def rowNum (r : AccRow) (n : Nat) : Num :=
  match rowCls r n with
  | .fin => fin' (rowSig r n) (rowExp r)
  | c => spec' c

/-- Significands as a sparse row. -/
def sigTbl : Nat → List Int → Tbl Word
  | _, [] => []
  | n, v :: r => if v = 0 then sigTbl (n + 1) r else (n, wd (unsigned 64 v)) :: sigTbl (n + 1) r

/-- A row from its exponent, codes and significands; the poison mark is gone (R133). -/
def mkRow (e : Int) (spec : List Cls) (sig : List Int) : AccRow :=
  ⟨BitVec.ofNat 16 (unsigned 16 e), wd (tagWord1 spec), sigTbl 0 sig, false⟩

/-- The sum of one dot group for one output element. -/
structure Grp where
  cls : Cls
  gs  : Int
  eg  : Int
  fl  : Nat
deriving DecidableEq, Repr

/-- R117 to R119: the group of the products of two lines of elements. `live` is false when the accumulator element is
already special, and then no sum is formed. -/
def groupSum (live : Bool) (a b : List Num) : Grp :=
  let ps := List.zipWith mulNum a b
  let cls := ps.foldl (fun c p => addCls c p.cls) .fin
  if cls != .fin || !live then ⟨cls, 0, 0, 0⟩
  else
    let nz := ps.filter fun p => p.s != 0
    match nz.map fun p => p.x + (bitlen p.s : Int) with
    | [] => ⟨.fin, 0, 0, 0⟩
    | t0 :: ts =>
      let eg := ts.foldl max t0 - 48
      nz.foldl (fun g p =>
        if p.x + (bitlen p.s : Int) ≤ eg then { g with fl := g.fl + 1 }
        else { g with gs := g.gs + shift p.s (p.x - eg) }) ⟨.fin, 0, eg, 0⟩

/-- The smallest `k` for which every |trunc(t, k)| < 2^62: the excess of the longest over 62 bits. -/
def renormK (ts : List Int) : Nat := ts.foldl (fun k t => max k (bitlen t - 62)) 0

/-- One row after one element-wise addition: exponent, significands, flushed, saturated. -/
structure RowAdd where
  e   : Int
  s   : List Int
  fl  : Nat
  sat : Nat
deriving DecidableEq, Repr

/-- R121 to R123: candidates of the row's finite elements renormalised where needed. -/
def renorm (e : Int) (ts : List Int) : RowAdd :=
  let k0 := renormK ts
  if k0 = 0 then ⟨e, ts, 0, 0⟩
  else
    let k : Nat := if e + k0 > 32767 then (32767 - e).toNat else k0
    let top : Int := 2 ^ 62
    ts.foldr (fun t r =>
      let v := trunc t k
      if top ≤ v then { r with s := (top - 1) :: r.s, sat := r.sat + 1 }
      else if v ≤ -top then { r with s := (1 - top) :: r.s, sat := r.sat + 1 }
      else { r with s := v :: r.s, fl := if t ≠ 0 ∧ v = 0 then r.fl + 1 else r.fl }) ⟨e + k, [], 0, 0⟩

/-- The candidate of one finite element and whether its addend flushed (R121). -/
def candidate (e s : Int) (g : Grp) : Int × Nat :=
  if g.gs = 0 then (s, 0)
  else
    let a := shift g.gs (g.eg - e)
    (s + a, if a = 0 then 1 else 0)

/-- `accumulate_row` of 04_mill.md: a row and the groups of its 32 elements. -/
def accumulateRow (r : AccRow) (gs : List Grp) : AccRow × Nat × Nat :=
  let ns := below 32
  let e := rowExp r
  let el := (ns.zip gs).map fun p =>
    let c := addCls (rowCls r p.1) p.2.cls
    if c = .fin then (c, candidate e (rowSig r p.1) p.2) else (c, (0, 0))
  let a := renorm e (el.map fun p => p.2.1)
  let fl := (gs.map Grp.fl).sum + (el.map fun p => p.2.2).sum + a.fl
  ({ exp := BitVec.ofNat 16 (unsigned 16 a.e), spec := wd (tagWord1 (el.map Prod.fst))
     sig := sigTbl 0 a.s, poison := r.poison }, fl, a.sat)

/-- One group over one row: `a` the line of A, `bs` the 32 lines of B. The third part is the first special product's
column and the class that its element holds afterwards (R126). -/
def millRow (r : AccRow) (a : List Num) (bs : List (List Num)) : AccRow × (Nat × Nat) × Option (Nat × Cls) :=
  let gs := (below 32).zip bs |>.map fun p => groupSum (rowCls r p.1 = .fin) a p.2
  let out := accumulateRow r gs
  let hit := firstThat (fun n =>
    (List.zipWith (fun p q => mulCls p q) a (bs.getD n [])).any (· != .fin)) (below 32)
  (out.1, (out.2.1, out.2.2), hit.map fun n => (n, rowCls out.1 n))

/-- One dot group over the whole tile (R124, `mill_group`): rows keyed 0 to 31. -/
def millGroup (acc : Tbl AccRow) (as bs : List (List Num)) (rec : Rec) : Tbl AccRow × Rec :=
  ((below 32).zip as).foldl (fun st p =>
    let o := millRow (tget AccRow.zero st.1 p.1) p.2 bs
    let rec' := recCount st.2 o.2.1.2 o.2.1.1
    let rec'' := match o.2.2 with
      | some h => recMark rec' (32 * p.1 + h.1) h.2
      | none => rec'
    (tput AccRow.zero st.1 p.1 o.1, rec'')) (acc, rec)

end Sys2Proof.Machine
end

