-- ==== Sys2Proof/Machine/VeArith.lean ====
section
/-! DEFINITION. The vector engine's arithmetic on exact elements and the images it writes (05_vector_engine.md). -/

namespace Sys2Proof.Machine

/-- R142: the sum of addends in the 96-bit window, and the number of addends flushed. -/
def windowSum (xs : List Num) : Num × Nat :=
  match xs.foldl (fun c p => addCls c p.cls) .fin with
  | .fin =>
    let nz := xs.filter fun p => p.s != 0
    match nz.map fun p => p.x + (bitlen p.s : Int) with
    | [] => (zero', 0)
    | t0 :: ts =>
      let w := ts.foldl max t0 - 96
      nz.foldl (fun g p =>
        if p.x + (bitlen p.s : Int) ≤ w then (g.1, g.2 + 1)
        else (fin' (g.1.s + shift p.s (p.x - w)) w, g.2)) (fin' 0 w, 0)
  | c => (spec' c, 0)

/-- Element-wise operations of Table 07.11 on exact values. -/
inductive Arith where
  | add | sub | mul | mad | neg | abs | max | min | scl
deriving DecidableEq, Repr

/-- One element of an arithmetic operation, with the flushed addends (R142). `k` is SCL's exponent. -/
def arith1 (o : Arith) (k : Int) (a b c : Num) : Num × Nat :=
  match o with
  | .add => windowSum [a, b]
  | .sub => windowSum [a, negNum b]
  | .mul => (mulNum a b, 0)
  | .mad => windowSum [mulNum a b, c]
  | .neg => (negNum a, 0)
  | .abs => (absNum a, 0)
  | .max => (maxNum a b, 0)
  | .min => (minNum a b, 0)
  | .scl => (if a.cls = .fin then fin' a.s (a.x + k) else a, 0)

/-- Comparisons (Table 07.11). -/
inductive Cmp where
  | eq | ne | lt | le | gt | ge
deriving DecidableEq, Repr

/-- One comparison (R81, R144): NaN is unordered. -/
def cmp1 (o : Cmp) (a b : Num) : Bool :=
  let un := a.cls = .nan ∨ b.cls = .nan
  match o with
  | .eq => numEq a b
  | .ne => !(numEq a b)
  | .lt => numLt a b
  | .gt => numLt b a
  | .le => !un && !(numLt b a)
  | .ge => !un && !(numLt a b)

/-- Logic and shift operations (Table 07.11). -/
inductive Logic where
  | and | or | xor | not | shl | shrl | shra
deriving DecidableEq, Repr

/-- One logic or shift element of `w` bits (R146). -/
def logic1 (o : Logic) (w a b : Nat) : Nat :=
  let k := b % 64 % w
  match o with
  | .and => a &&& b
  | .or => a ||| b
  | .xor => a ^^^ b
  | .not => 2 ^ w - 1 - a % 2 ^ w
  | .shl => (a <<< k) % 2 ^ w
  | .shrl => a >>> k
  | .shra => unsigned w (signed w a / 2 ^ k)

/-- The carry of a scan (R149, Table 05.4). -/
structure Carry where
  empty : Bool
  cls   : Cls
  s     : Int
  e     : Int
deriving DecidableEq, Repr

/-- The empty carry (R149). -/
def carry0 : Carry := ⟨true, .fin, 0, -32768⟩

/-- The value of a carry; an empty one gives 0. -/
def carryVal (c : Carry) : Num := if c.empty then zero' else if c.cls = .fin then fin' c.s c.e else spec' c.cls

/-- Scan operations. -/
inductive ScanOp where
  | sum | max | min
deriving DecidableEq, Repr

/-- R149: one element combined into the carry, with flushed and saturated counts. -/
def combine (o : ScanOp) (c : Carry) (x : Num) : Carry × Nat × Nat :=
  match o with
  | .sum =>
    match addCls c.cls x.cls with
    | .fin =>
      let q := candidate c.e c.s ⟨.fin, x.s, x.x, 0⟩
      let r := renorm c.e [q.1]
      (⟨false, .fin, r.s.headD 0, r.e⟩, q.2 + r.fl, r.sat)
    | k => (⟨false, k, 0, c.e⟩, 0, 0)
  | o =>
    let y := if c.empty then x else
      let v : Num := ⟨c.cls, c.s, c.e⟩
      match o with
      | .max => maxNum v x
      | _ => minNum v x
    (⟨false, y.cls, y.s, y.x⟩, 0, 0)

/-- R149, R150: the scan over elements paired with their segment-start marks. -/
def scanList (o : ScanOp) (incl : Bool) : Carry → List (Num × Bool) → List Num × Carry × Nat × Nat
  | c, [] => ([], c, 0, 0)
  | c, (x, start) :: r =>
    let c := if start then carry0 else c
    let k := combine o c x
    let t := scanList o incl k.1 r
    ((if incl then carryVal k.1 else carryVal c) :: t.1, t.2.1, k.2.1 + t.2.2.1, k.2.2 + t.2.2.2)

/-- Tile reductions (R152). -/
inductive RedOp where
  | sum | max | min | amax
deriving DecidableEq, Repr

/-- R153: the reduction of one line of elements, with flushed terms. -/
def redLine (o : RedOp) (xs : List Num) : Num × Nat :=
  match o with
  | .sum =>
    match xs.foldl (fun c p => addCls c p.cls) .fin with
    | .fin =>
      let nz := xs.filter fun p => p.s != 0
      match nz.map Num.x with
      | [] => (zero', 0)
      | t0 :: ts =>
        let e := ts.foldl max t0
        nz.foldl (fun g p =>
          let t := trunc p.s (e - p.x).toNat
          (fin' (g.1.s + t) e, if t = 0 then g.2 + 1 else g.2)) (fin' 0 e, 0)
    | c => (spec' c, 0)
  | .max => (xs.tail.foldl maxNum (xs.headD zero'), 0)
  | .min => (xs.tail.foldl minNum (xs.headD zero'), 0)
  | .amax => ((xs.tail.map absNum).foldl maxNum (absNum (xs.headD zero')), 0)

/-- R147, Table 05.3: the source index of destination index `i` in a group of 32. -/
def shuffleIx (kind c i : Nat) : Nat :=
  match kind with
  | 0 => i ^^^ c
  | 1 => (i + c) % 32
  | 2 => c
  | _ => 31 - i

/-- The image of a written stream: data bytes, plane bytes, rows (accumulator destinations), and the record. -/
structure Image where
  data  : List Byte
  plane : List Byte
  rows  : List (Nat × AccRow)
  rcd   : Rec
deriving DecidableEq, Repr

/-- Bit fields of `q` bits packed little-endian (R72). -/
def packBits (q : Nat) : List Nat → Nat
  | [] => 0
  | v :: r => v % 2 ^ q + 2 ^ q * packBits q r

/-- The 16 bytes of a W64 tag (Table 03.4). -/
def tagBytes (b : Blk) : List Byte := leBytes 8 (unsigned 16 b.exp) ++ leBytes 8 (tagWord1 b.spec)

/-- Whole groups of 32, padded with exact zeros (R93). -/
def padded (xs : List (Num × Nat)) : List (List (Num × Nat)) :=
  (pieces 32 (xs.length + 1) xs).map fun g => g ++ List.replicate (32 - g.length) (zero', 0)

/-- The first special of a list, in order (R98). -/
def markAll (r : Rec) : Nat → List (Num × Nat) → Rec
  | _, [] => r
  | i, p :: t => markAll (recMark r i p.1.cls) (i + 1) t

/-- R143: writing exact results to a scratchpad stream. `exps` gives the exact exponent of each W64 row where R88
re-encodes rather than rounds. -/
def writeStream (f : Fmt) (m : RM) (exps : List (Option Int)) (xs : List (Num × Nat)) (r0 : Rec) : Image :=
  let r := markAll r0 0 xs
  if fmtScaled f then
    let q := fmtBits f
    let bs := (padded xs).map (convertBlock q m)
    { data := bs.flatMap fun b => leBytes (4 * q) (packBits q (b.sig.map (unsigned q)))
      plane := bs.map fun b => BitVec.ofNat 8 b.exp.toNat, rows := []
      rcd := recCount r (bs.map Blk.sat).sum (bs.map Blk.fl).sum }
  else match f with
    | .w64 =>
      let bs := ((padded xs).zip (exps ++ List.replicate xs.length none)).map fun p =>
        match p.2 with
        | some e => exactRow e p.1
        | none => convertRow m p.1
      { data := bs.flatMap fun b => b.sig.flatMap fun v => leBytes 8 (unsigned 64 v)
        plane := bs.flatMap tagBytes, rows := []
        rcd := recCount r (bs.map Blk.sat).sum (bs.map Blk.fl).sum }
    | _ =>
      let es := xs.map fun p =>
        match ieee f with
        | some (eb, fb, bias) => encIeee eb fb bias m p.2 p.1
        | none => encInt (fmtBits f) m p.2 p.1
      { data := es.flatMap fun e => leBytes (fmtBits f / 8) e.bits
        plane := [], rows := []
        rcd := recCount r (countP Enc.sat es) (countP Enc.fl es) }

/-- The rows that an accumulator destination of `n` elements writes (R143). -/
def accRows (trans : Bool) (n : Nat) : Nat := if trans then min n 32 else (n + 31) / 32

/-- R143: writing exact results to an accumulator: whole rows, with zero padding. -/
def writeAcc (trans : Bool) (m : RM) (exps : List (Option Int)) (xs : List (Num × Nat)) (r0 : Rec) : Image :=
  let n := xs.length
  let bs := (below (accRows trans n)).map fun row =>
    let els := (below 32).map fun c =>
      let i := if trans then 32 * c + row else 32 * row + c
      xs.getD i (zero', 0)
    (row, match exps.getD row none with
      | some e => exactRow e els
      | none => convertRow m els)
  { data := [], plane := [], rows := bs.map fun b => (b.1, mkRow b.2.exp b.2.spec b.2.sig)
    rcd := recCount (markAll r0 0 xs) (bs.map fun b => b.2.sat).sum (bs.map fun b => b.2.fl).sum }

/-- A bit stream of `n` bits; unused high bits of the last byte are 0 (R136). -/
def bitBytes (bs : List Bool) : List Byte :=
  (pieces 8 (bs.length + 1) bs).map fun g =>
    BitVec.ofNat 8 (g.foldr (fun b v => (if b then 1 else 0) + 2 * v) 0)

end Sys2Proof.Machine
end

