-- ==== Sys2Proof/Machine/CoreState.lean ====
section
/-! DEFINITION. The state of one logical core and of its contexts (04 to 10 and 18): plain data. -/

namespace Sys2Proof.Machine

/-- Context states (Table 06.2). -/
inductive CtxSt where
  | free | ready | waiting | parked | faulted | held
deriving DecidableEq, Repr

/-- What a WAITING context waits for. -/
inductive Wait where
  | none
  /-- QRD on an empty queue, with its PD (R206); `link` on an inbound bound queue (R282) -/
  | queue (qn : Nat) (pd : Nat) (link : Bool)
  /-- SWAIT, SACQ or SRD, by the operation's TAG (R208, R267) -/
  | sync (tag : Nat)
  | mill
  | ve
  /-- the context-end instruction (R209) -/
  | ending
  /-- a narrow access outside the own slice, by its TAG (R167) -/
  | narrow (tag : Nat)
  /-- RING with its GA (R480) -/
  | ring (ga : Word)
  | timer
deriving DecidableEq, Repr

/-- What a context holds from its start: an arrival slot (R245) or a Boom entry (R258). -/
inductive StartSrc where
  | none
  | slot (i : Nat)
  | boom (qn : Nat) (seq : Nat)
deriving DecidableEq, Repr

/-- One thread context (Table 06.1, R160), with what the manual implies beside it: the fetched slot (R161), what it waits
for, its timer, and the releases deferred since its last record (R482), and the numbers of its waits and of its holds so far, by
which a wait is told from the next and a hold is seen (R474). -/
structure Ctx where
  g        : Tbl Word
  p        : BitVec 8
  pc       : BitVec 21
  st       : CtxSt
  heldFrom : CtxSt
  byRec    : Bool
  wait     : Wait
  deadline : Option Nat
  epoch    : BitVec 16
  origin   : BitVec 2
  handler  : BitVec 12
  ns0      : Word
  ns1      : Word
  tl0      : Word
  tl1      : Word
  tl2      : Word
  srSeed   : Word
  srCtr    : Word
  fr0      : Word
  fr1      : Word
  slot     : Option Nat
  src      : StartSrc
  freeing  : Bool
  hasRec   : Bool
  waitNo   : Nat
  holds    : Nat
  defTd    : BitVec 8
  defAcc   : BitVec 8
  defMsg   : Bool
deriving DecidableEq, Repr

/-- A context at reset: FREE, every register zero, predicates reading 1 in p0 alone (R160, Table 06.9). -/
def Ctx.zero : Ctx :=
  { g := [], p := 1, pc := 0, st := .free, heldFrom := .free, byRec := false, wait := .none, deadline := none
    epoch := 0, origin := 0, handler := 0, ns0 := 0, ns1 := 0, tl0 := 0, tl1 := 0, tl2 := 0, srSeed := 0, srCtr := 0
    fr0 := 0, fr1 := 0, slot := none, src := .none, freeing := false, hasRec := false, waitNo := 0, holds := 0, defTd := 0, defAcc := 0
    defMsg := false }

/-- A tile descriptor (Table 04.1); DATA and SCALE are whole words, so that an advance past the slice stays visible. -/
structure TileDesc where
  data    : BitVec 64
  scale   : BitVec 64
  sstride : BitVec 21
  lstride : BitVec 21
  fmt     : BitVec 4
deriving DecidableEq, Repr

/-- A cleared descriptor: BF16 at offset 0 with both strides 0 (R107). -/
def TileDesc.zero : TileDesc := ⟨0, 0, 0, 0, 0⟩

/-- An operation in the Mill queue (R115): MZERO, or MMA with the copies of its descriptors (R112). `iss` orders the
operations that a core issues, `tds` are the descriptors that it names (R108). -/
structure MillOp where
  ctx  : CtxNo
  pc   : BitVec 21
  iss  : Nat
  acc  : BitVec 3
  tds  : List Nat
  mma  : Option (TileDesc × TileDesc × Nat)
deriving DecidableEq, Repr

/-- An operand of a VE operation with its register values taken at issue (Table 07.10). -/
inductive VeOpd where
  | none
  | mem (data : Nat) (plane : Nat)
  | acc (n : BitVec 3) (trans : Bool)
  | scalar (w : Word)
  | imm (v : Nat)
deriving DecidableEq, Repr

/-- What a VE operation computes (Table 07.11). -/
inductive VeKind where
  | arith (o : Arith) (k : Int)
  | cmp (o : Cmp)
  | sel
  | logic (o : Logic)
  | cvt
  | shf (kind c : Nat)
  | scan (o : ScanOp) (incl : Bool) (seg : Bool) (carry : Option Nat)
  | red (o : RedOp) (col : Bool)
  | fn (f : Nat) (ver : BitVec 8)
deriving DecidableEq, Repr

/-- An operation in the VE queue (R157). -/
structure VeOp where
  ctx  : CtxNo
  pc   : BitVec 21
  iss  : Nat
  kind : VeKind
  n    : Nat
  rm   : RM
  fd   : Fmt
  fa   : Fmt
  fb   : Fmt
  d    : VeOpd
  a    : VeOpd
  b    : VeOpd
  c    : VeOpd
  seed : Word
  ctr  : Word
deriving DecidableEq, Repr

/-- An operation in the brand unit's queue (19_checking.md): the address of the Brand state, and data to hash, or the completion queue of a seal
with, once it has begun, the record that the Warden signs (R518). -/
inductive BrandWork where
  | hash (data : Word) (count : Nat) (part : Nat)
  | seal (tag : BitVec 16) (cq : BitVec 6) (rec : Option (List Byte))
deriving DecidableEq, Repr

/-- One brand operation. -/
structure BrandOp where
  ctx  : CtxNo
  st   : Nat
  work : BrandWork
deriving DecidableEq, Repr

/-- A message header (Table 09.1). -/
structure Hdr where
  w0 : Word
  w1 : Word
  w2 : Word
  w3 : Word
deriving DecidableEq, Repr

/-- A message with its payload; `part` is the sender's partition (route word), `mid` the sender core's own number of the
SEND, by which its acceptance is matched (log entry 16, DESIGN CHOICE), `due` the tick by which a held message is bounced (R247), `bad` the
payload bytes that a link has poisoned (R297), `again` that its packet came with the mark of one sent again (R308, R332). -/
structure Msg where
  h    : Hdr
  data : List Byte
  bad  : NatSet
  part : BitVec 4
  mid  : Nat
  due  : Nat
  again : Bool
deriving DecidableEq, Repr

/-- A SEND in the message queue (R242): the issuing context, its CQ, the message. -/
structure SendOp where
  ctx : CtxNo
  cq  : BitVec 6
  msg : Msg
  iss : Nat
deriving DecidableEq, Repr

/-- A SEND injected and not yet accepted or refused; `seq` is its packet's count (R305), `lost` that its device is lost
(R264). -/
structure SentMsg where
  ctx  : CtxNo
  cq   : BitVec 6
  msg  : Msg
  seq  : Nat
  retried : Bool
  lost : Bool
  tick : Nat
deriving DecidableEq, Repr

/-- A start that waits for a context (R169, R258). -/
inductive PendStart where
  | msg (slot : Nat) (m : Msg)
  | boom (qn : Nat) (seq : Nat) (hidx : BitVec 12)
deriving DecidableEq, Repr

/-- One Boom working slot: contributions so far, exact element values (R256, R257). -/
structure BoomSlot where
  count : Nat
  vals  : List Int
deriving DecidableEq, Repr

/-- One queue (R252 to R258). `ents` are the sequence numbers of the entries present, in order; `held` the popped or
started entries whose storage is still occupied, with the context that holds them (R482); `tail` numbers the next entry, `nops`
counts the appends and contributions (R474). -/
structure Queue where
  valid  : Bool
  kind   : BitVec 2
  esz    : BitVec 2
  lcap   : BitVec 4
  base   : BitVec 21
  boomW  : Word
  next   : BitVec 16
  ents   : List Nat
  held   : List (Nat × CtxNo)
  tail   : Nat
  waiters : List CtxNo
  feeders : List Word
  nops   : Nat
  slots  : Tbl BoomSlot
deriving DecidableEq, Repr

/-- An unconfigured queue. -/
def Queue.zero : Queue :=
  { valid := false, kind := 0, esz := 0, lcap := 0, base := 0, boomW := 0, next := 0, ents := [], held := [], tail := 0
    waiters := [], feeders := [], nops := 0, slots := [] }

/-- One part of a haul (R259, R260): as issued, packets confirmed, the packet under way with the bytes that it writes, and what has gone
wrong. -/
structure Xfer where
  dst     : Word
  src     : Word
  count   : Nat
  conf    : Nat
  /-- the packet under way: 0 none, 1 its source read is requested, 2 its write is requested -/
  phase   : BitVec 2
  tag     : Nat
  data    : List Byte
  bad     : NatSet
  done    : Bool
  status  : Status
  detail  : Word
  retried : Bool
  lost    : Bool
  tick    : Nat
deriving DecidableEq, Repr

/-- An entry of the haul queue (R259, R261). -/
structure HaulOp where
  id    : Nat
  ctx   : CtxNo
  cq    : BitVec 6
  tag   : BitVec 16
  split : Bool
  iss   : Nat
  parts : List Xfer
deriving DecidableEq, Repr

/-- A sync operation issued and not answered (R267, R268): `retry` when the waiter table was full, `cancel` when its GT
has expired. -/
structure SyncOut where
  tag    : Nat
  ctx    : CtxNo
  op     : BitVec 4
  name   : Word
  gv     : Word
  gd     : BitVec 4
  pd     : BitVec 3
  waits  : Bool
  retry  : Bool
  cancel : Bool
  dead   : Bool
  lost   : Bool
  seq    : Nat
  tick   : Nat
deriving DecidableEq, Repr

/-- A narrow access outside the own slice (R167, R250): its size, its destination, and how its result is read. -/
structure NarrowOut where
  tag   : Nat
  ctx   : CtxNo
  addr  : Word
  size  : Nat
  gs    : BitVec 4
  load  : Bool
  sext  : Bool
  value : Word
  dead  : Bool
  lost  : Bool
  tick  : Nat
deriving DecidableEq, Repr

/-- One end of a channel (R281 to R294): its register, the words in its skid queue with sequence and poison, the next
sequence, the words retained, those retained that a replay delivers again, BROKEN. -/
structure LinkEnd where
  reg    : Word
  words  : List (BitVec 32 × List Byte × Bool)
  seq    : BitVec 32
  kept   : List (BitVec 32 × List Byte × Bool)
  again  : List (BitVec 32 × List Byte × Bool)
  top    : BitVec 32
  recSeq : BitVec 32
  broken : Bool
deriving DecidableEq, Repr

/-- An unbound endpoint. -/
def LinkEnd.zero : LinkEnd := ⟨0, [], 0, [], [], 0, 0, false⟩

/-- One scratchpad slice (R215 to R231): bytes, poisoned chunks, rows moved to spares (by bank and row), spares used by
bank, counts, the scrubber's next slot. -/
structure Slice where
  mem       : Memory
  bad       : NatSet
  rowMoved  : Tbl Nat
  spares    : Tbl Nat
  corrected : BitVec 16
  uncorr    : BitVec 16
  noSpare   : Bool
  scrub     : Nat
deriving DecidableEq, Repr

/-- A slice at reset: nothing listed, every spare row free (Table 08.3). -/
def Slice.zero : Slice := ⟨[], [], [], [], 0, 0, false, 0⟩

/-- The Mill and VE of a core, with the claims (R106 to R109, R115, R157). A pending release holds one more than the number
of the operations issued before it (R108). -/
structure Engines where
  td       : Tbl TileDesc
  tdOwner  : Tbl (Option CtxNo)
  acc      : Tbl (Tbl AccRow)
  accOwner : Tbl (Option CtxNo)
  relTd    : Tbl Nat
  relAcc   : Tbl Nat
  millq    : List MillOp
  veq      : List VeOp
  brandq   : List BrandOp
  fallback : Bool
  issued   : Nat
deriving DecidableEq, Repr

/-- Engines at reset: nothing claimed or queued; FALLBACK 1 (Table 05.6). -/
def Engines.zero : Engines := ⟨[], [], [], [], [], [], [], [], [], true, 0⟩

/-- The message unit, queue unit, haul unit and sync port of a core (09_messages_and_queues.md). -/
structure Units where
  area    : Word
  cfg     : Word
  q63Lost : BitVec 16
  bounces : BitVec 16
  qsel    : BitVec 6
  msgq    : List SendOp
  sent    : List SentMsg
  hold    : List Msg
  slots   : NatSet
  starts  : List PendStart
  queues  : Tbl Queue
  hauls   : List HaulOp
  syncs   : List SyncOut
  narrows : List NarrowOut
  tag     : Nat
  nid     : Nat
deriving DecidableEq, Repr

/-- Units at reset (Table 09.11). -/
def Units.zero : Units :=
  { area := 0, cfg := 0x030D4003E8000000, q63Lost := 0, bounces := 0, qsel := 0, msgq := [], sent := [], hold := []
    slots := [], starts := [], queues := [], hauls := [], syncs := [], narrows := [], tag := 0, nid := 0 }

/-- The Ring registers of a position (Table 18.7). -/
structure RingRegs where
  area      : Word
  seq       : BitVec 48
  replays   : BitVec 16
  adoptions : BitVec 16
  gen       : BitVec 64
  replaying : NatSet
deriving DecidableEq, Repr

/-- One logical core (R2, R160, R183, R485). -/
structure Core where
  ctrl     : Word
  rejected : Bool
  role     : Word
  faults   : BitVec 32
  htSel    : BitVec 12
  ctxSel   : CtxNo
  ht       : Tbl Word
  ctxs     : Tbl Ctx
  irqs     : Nat
  notices  : List (CtxNo × Word × Word)
  recHold  : Bool
  sp       : Slice
  eng      : Engines
  un       : Units
  outL     : Tbl LinkEnd
  inL      : Tbl LinkEnd
  ring     : RingRegs
deriving DecidableEq, Repr

/-- A core at reset (Tables 06.9, 09.11, 10.4, 18.7): PROGRAM 0, ACCEPT 0, every context FREE. -/
def Core.zero : Core :=
  { ctrl := 0, rejected := false, role := 0, faults := 0, htSel := 0, ctxSel := 0, ht := [], ctxs := [], irqs := 0
    notices := [], recHold := false, sp := .zero, eng := .zero, un := .zero, outL := [], inL := []
    ring := ⟨0, 0, 0, 0, 0, []⟩ }

end Sys2Proof.Machine
end

