-- ==== Sys2Proof/Machine/MeshState.lean ====
section
/-! DEFINITION. The state of the mesh: packets, grove routers, sync objects, sites, reductions (01, 09, 11). -/

namespace Sys2Proof.Machine

/-- The fabric addresses of a packet that comes from or goes to another device (Table 12.3); `dstLcid` is none for external
memory. -/
structure FabRef where
  srcDid : Did
  dstDid : Did
  srcLcid : Lcid
  dstLcid : Option Lcid
  age    : Nat
  retried : Bool
deriving DecidableEq, Repr

/-- A mesh packet (Tables 11.1 to 11.3). `kind` is the KIND code; `exit` 0 position, 1 and 2 Landing links, 3 the router's
own unit; `ep` the Landing endpoint that it is for; `msg` the message of a MSG packet; `data` the data bytes with the indices `bad` of poisoned ones; `mask` the
grove mask of an MCAST_WR; `sep` its source: a Landing endpoint 0 to 21, 22 a grove's own unit, 23 a position; `seq` the count
whose low 8 bits are the SEQ field. -/
structure Pkt where
  kind   : BitVec 4
  cls    : Bool
  hops   : BitVec 5
  dst    : Dg
  exit   : BitVec 2
  ep     : Nat
  dpos   : BitVec 4
  way    : Option Dg
  src    : Dg
  spos   : BitVec 4
  srcl   : Bool
  sep    : Nat
  part   : BitVec 4
  seq    : Nat
  addr   : Word
  tag    : Nat
  sctx   : CtxNo
  len    : Nat
  arg0   : Word
  arg1   : Word
  msg    : Option Msg
  data   : List Byte
  bad    : NatSet
  mask   : Nat
  fab    : Option FabRef
  retried : Bool
  tick   : Nat
deriving DecidableEq, Repr

/-- What one output of a router remembers between grants (R43, R303): the VC passed over counts, whether REQ was served
last of REQ and MSG, and the input port served last in each VC. -/
structure OutSt where
  passed  : Tbl Nat
  reqLast : Bool
  lastIn  : Tbl Nat
deriving DecidableEq, Repr

/-- An output that has granted nothing. -/
def OutSt.zero : OutSt := ⟨[], false, []⟩

/-- One packet waiting at a router: its input port (0 to 3 mesh, 4 to 19 positions, 20 and 21 Landing, 22 the unit) and,
by output, the grants that have passed it over (R43). -/
structure InPkt where
  port   : Nat
  passed : Tbl Nat
  pkt    : Pkt
deriving DecidableEq, Repr

/-- A waiter of a sync object (R268): the operation and where its answer goes. -/
structure Waiter where
  obj : Nat
  op  : BitVec 4
  gv  : Word
  pkt : Pkt
deriving DecidableEq, Repr

/-- One sync object (R270) with its feeder list (R473) and the count of operations applied to it (R474). -/
structure SyncObj where
  cfg     : Word
  val     : Word
  feeders : List Word
  nops    : Nat
deriving DecidableEq, Repr

/-- A sync object at reset. -/
def SyncObj.zero : SyncObj := ⟨0, 0, [], 0⟩

/-- One core site's own health (R135, R159): residue mismatches, the failed lane columns and lanes, the reducer. -/
structure Site where
  residue    : BitVec 16
  cols       : List Nat
  lanes      : List Nat
  reducerBad : Bool
  blazed     : Bool
deriving DecidableEq, Repr

/-- A working site. -/
def Site.zero : Site := ⟨0, [], [], false, false⟩

/-- A multicast that a grove's own unit has sent (R308, R310): the packet, the groves of its mask whose acknowledgement is still to come, the
tick of its last injection, and the collective that it belongs to. -/
structure Mcast where
  pkt  : Pkt
  left : Nat
  tick : Nat
  coll : BitVec 4 × BitVec 16
deriving DecidableEq, Repr

/-- One grove: router, sites, sync objects (R15 to R25, R40, R270, R295 to R308, R321). `siteOf n` is 0 for a vacant
position and the site number plus one otherwise; `tested` while a Sounding of the router or the grove runs (R504); `pkts` are the packets in the
router's input buffers, `wait` those that wait at their sources for room there (R301). -/
structure Grove where
  gen      : BitVec 16
  fused    : Bool
  routerBad : Bool
  tested   : Bool
  sites    : Tbl Site
  siteOf   : Tbl Nat
  lost     : NatSet
  twinOf   : Tbl Nat
  objs     : Tbl SyncObj
  waiters  : List Waiter
  detours  : Tbl (Option Dg)
  pkts     : List InPkt
  wait     : List InPkt
  outs     : Tbl OutSt
  arrived  : List Pkt
  seqTx    : Tbl Nat
  seqRx    : Tbl (List Nat)
  corrected : BitVec 16
  aborts   : BitVec 16
  restarts : BitVec 16
  check    : Word
  mcasts   : List Mcast
deriving DecidableEq, Repr

/-- A grove before Cruise: every position vacant, distance generation 0 (R38, R40). -/
def Grove.zero : Grove :=
  { gen := 0, fused := false, routerBad := false, tested := false, sites := [], siteOf := [], lost := [], twinOf := [], objs := []
    waiters := [], detours := [], pkts := [], wait := [], outs := [], arrived := [], seqTx := [], seqRx := []
    corrected := 0, aborts := 0, restarts := 0, check := 0, mcasts := [] }

/-- A router that the mesh goes around: blazed, or under a Sounding (R504). -/
def Grove.out (g : Grove) : Bool := g.routerBad || g.tested

/-- One reduction chunk (R314): in fast mode the exponent codes and 128 significands of four W32 blocks, in reproducible mode
the exponent, the special codes and the 32 significands of a W64 row; `bad` when a source chunk was poisoned. -/
structure RedChunk where
  exps : List Int
  spec : List Cls
  sigs : List Int
  bad  : Bool
deriving DecidableEq, Repr

/-- A chunk that waits at a tree node for its turn: the node, the input it came on, its index. Inputs are numbered by the
contributor's LCID, or 4096 plus the device grove number of an upstream node. -/
structure RedBuf where
  node  : Dg
  input : Nat
  idx   : Nat
  chunk : RedChunk
deriving DecidableEq, Repr

/-- A running sum of a node: the inputs added so far, in order. -/
structure RedSum where
  node  : Dg
  idx   : Nat
  chunk : RedChunk
  got   : List Nat
deriving DecidableEq, Repr

/-- An armed reduction (R311 to R319): the image, the contributors, and the phase under way: those that have arrived, the tick at which the
arrival of each was last forwarded, those that the anchor has counted. `next` counts the chunks sent on each input and `busy` its buffers that
are taken, as the sender knows (R315); `out` holds the chunks that the destination has combined. -/
structure Red where
  image   : List Word
  members : List Lcid
  arrived : List Lcid
  fwd     : Tbl Nat
  counted : List Lcid
  next    : Tbl Nat
  busy    : Tbl Nat
  bufs    : List RedBuf
  sums    : List RedSum
  out     : Tbl (Option RedChunk)
  fl      : Nat
  sat     : Nat
  bad     : Bool
  retried : Bool
  coll    : Option (BitVec 4 × BitVec 16)
deriving DecidableEq, Repr

end Sys2Proof.Machine
end

