-- ==== Sys2Proof/Machine/LinkState.lean ====
section
/-! DEFINITION. The state of the Gwynfold ports and of external memory (12_gwynfold_links.md, 13_external_memory.md). -/

namespace Sys2Proof.Machine

/-- A fabric packet (Table 12.3) with the body of the mesh packet it carries; `bad` are the indices of poisoned body
bytes, `since` the tick at which it last moved (R331). -/
structure FPkt where
  dstDid : Did
  srcDid : Did
  part   : BitVec 4
  cls    : BitVec 2
  level  : BitVec 2
  mcast  : Bool
  resent : Bool
  group  : BitVec 12
  age    : Nat
  kind   : BitVec 4
  srcLcid : Lcid
  seq    : BitVec 8
  dstLcid : Lcid
  ext    : Bool
  body   : List Byte
  bad    : NatSet
  since  : Nat
  arr    : Option (BitVec 4)
deriving DecidableEq, Repr

/-- A data flit in a replay buffer (R327): its number, its 256 bytes, those of its data that are poison (R226), the NAKs it has had, the packets that
it holds bytes of. -/
structure TxFlit where
  seq   : BitVec 12
  bytes : List Byte
  bad   : NatSet
  naks  : Nat
  pkts  : List FPkt
deriving DecidableEq, Repr

/-- A control flit that a port repeats until its peer answers it (R326): IDENT, RETRAIN, or LANE_MAP with the logical lane, its new physical lane
and the first data flit that uses it. -/
inductive Ctl where
  | ident
  | retrain
  | laneMap (logical phys : Nat) (seq : BitVec 12)
deriving DecidableEq, Repr

/-- A logical lane on its way to a spare (R336): the tick by which the spare has trained, the switch-over flit once LANE_MAP has named it, whether
the peer has agreed it, and for a retrain (R338) whether the old lane trains again. -/
structure LaneJob where
  logical : Nat
  old     : Nat
  new     : Nat
  ready   : Nat
  seq     : Option (BitVec 12)
  agreed  : Bool
  retrain : Option Bool
deriving DecidableEq, Repr

/-- One Gwynfold port (R322 to R338, Table 12.7). `lanes` maps a logical lane to its physical lane plus one, 0 standing for
the lane of the same number; `upFrom` is the tick at which training succeeded; `used` the 64-byte units of the peer's
buffer that each fabric VC fills, `owed` the units that this port has yet to return (R330); `fixes` the corrected symbols by lane and tick;
`pendMap` the peer's lane map that awaits its switch-over flit; `ctl` the control flits that are repeated, `jobs` the lane moves under way, first in
first out; `wire` the flits sent, each as what every physical lane carried of it (R325; log entry 113, DESIGN CHOICE). -/
structure Port where
  st       : BitVec 3
  cause    : Status
  retrains : BitVec 16
  lanes    : Tbl Nat
  failed   : NatSet
  corrected : BitVec 32
  uncorr   : BitVec 16
  retries  : BitVec 16
  known    : Bool
  peerOk   : Bool
  peerDid  : Did
  peerPort : BitVec 4
  txSeq    : BitVec 12
  replay   : List TxFlit
  rxAck    : BitVec 12
  rxBuf    : List Byte
  rxBad    : NatSet
  nak      : Bool
  attempts : Nat
  upFrom   : Option Nat
  progress : Nat
  pendMap  : Option (Nat × Nat × BitVec 12)
  used     : Tbl Nat
  owed     : Tbl Nat
  fixes    : List (Nat × Nat × Nat)
  ctl      : List Ctl
  jobs     : List LaneJob
  wire     : List (List (Nat × List Byte))
deriving DecidableEq, Repr

/-- A port after cold reset: DOWN, lanes 0 to 15 straight (Table 12.7). -/
def Port.zero : Port :=
  { st := 1, cause := 0, retrains := 0, lanes := [], failed := [], corrected := 0, uncorr := 0, retries := 0
    known := false, peerOk := false, peerDid := 0, peerPort := 0, txSeq := 0, replay := [], rxAck := 0xFFF, rxBuf := [], rxBad := []
    nak := false, attempts := 0, upFrom := none, progress := 0, pendMap := none
    used := [], owed := [], fixes := [], ctl := [], jobs := [], wire := [] }

/-- One token bucket (R345, R346) with its queue: packets and the tick of their arrival. -/
structure Shaper where
  rate     : Nat
  nextRate : Nat
  burst    : Nat
  tokens   : Int
  frozenAt : Option Nat
  fails    : BitVec 16
  queue    : List (FPkt × Nat)
deriving DecidableEq, Repr

/-- A bucket after cold reset (Table 12.7). -/
def Shaper.zero : Shaper := ⟨400000, 400000, 65536, 0, none, 0, []⟩

/-- The GF_ block (Table 12.7) with ports, tables, hold store and congestion maps. `moved` are the packets that a port has given back as it left
service and that wait beside the switch (R332); `rxSeq` the sequences taken of each fabric source, with RESENT and the tick (R331). -/
structure Gf where
  active  : Bool
  aged    : BitVec 16
  noroute : BitVec 16
  rtSel   : BitVec 16
  mcSel   : BitVec 16
  rt      : Tbl (BitVec 32)
  mc      : Tbl (BitVec 17)
  holds   : Tbl Word
  shSel   : BitVec 8
  shTmo   : BitVec 32
  samples : BitVec 32
  epoch   : BitVec 16
  congSel : BitVec 10
  openMap : Tbl (BitVec 16)
  openN   : Nat
  openAt  : Word
  closed  : Tbl Word
  ports   : Tbl Port
  shapers : Tbl Shaper
  stored  : List FPkt
  moved   : List FPkt
  egress  : Tbl (List FPkt)
  inbox   : Tbl (List FPkt)
  rxSeq   : Tbl (List (BitVec 8 × Bool × Nat))
  lost    : List Did
deriving DecidableEq, Repr

/-- The block after cold reset (Table 12.7). -/
def Gf.zero : Gf :=
  { active := false, aged := 0, noroute := 0, rtSel := 0, mcSel := 0, rt := [], mc := [], holds := [], shSel := 0
    shTmo := 0x2710, samples := 0x2710, epoch := 0, congSel := 0, openMap := [], openN := 0, openAt := 0, closed := []
    ports := [], shapers := [], stored := [], moved := [], egress := [], inbox := [], rxSeq := [], lost := [] }

/-- One HBM stack (R349 to R365). -/
structure Stack where
  mem       : Memory
  bad       : NatSet
  repaired  : Tbl Nat
  retired   : BitVec 16
  rows      : BitVec 16
  temp      : BitVec 16
  noSpare   : Bool
  hot       : Bool
  selfRef   : Bool
  trained   : Bool
  corrected : BitVec 32
  uncorr    : BitVec 16
deriving DecidableEq, Repr

/-- A stack at reset (Table 13.2). -/
def Stack.zero : Stack := ⟨[], [], [], 0, 0, 0, false, false, false, false, 0, 0⟩

/-- External memory: the range registers (their RW and RO bits), the sizes that growths will bring, the partition keys and the firmware
range key that the Warden holds (R356, R411; an empty list is no key), the stacks. `Stack.mem` is what a stack's data units decrypt to (log entry
119, DESIGN CHOICE). -/
structure Hbm where
  ranges : Tbl Word
  grow   : Tbl Nat
  keys   : Tbl (List Byte)
  stk    : Tbl Stack
  fwKey  : List Byte
deriving DecidableEq, Repr

/-- External memory at reset. -/
def Hbm.zero : Hbm := ⟨[], [], [], [], []⟩

end Sys2Proof.Machine
end

