-- ==== Sys2Proof/Machine/HostState.lean ====
section
/-! DEFINITION. The state of the host interface: functions, queue pairs, commands in flight, collectives, checkpoint
slots, telemetry (14_host_interface.md). -/

namespace Sys2Proof.Machine

/-- One queue pair (R375, R376, R387). `cqTail` and `sqHead` number every slot since creation, so the phase is
the parity of the pass; `resv` counts completion slots reserved and not yet written. -/
structure Qp where
  sqBase  : Word
  sqSize  : Nat
  cqBase  : Word
  cqSize  : Nat
  sqHead  : Nat
  sqTail  : Nat
  cqHead  : Nat
  cqTail  : Nat
  resv    : Nat
  ien     : Bool
  svc     : Option (Word × Word × Word)
  stop    : Bool
deriving DecidableEq, Repr

/-- A checkpoint transfer's NVMe command outstanding (R391): its number, the byte range, the tick of its issue, the aperture page from which its
range is mapped. -/
structure Nvme where
  page  : Nat
  id    : Nat
  off   : Nat
  len   : Nat
  tick  : Nat
  flush : Bool
  ok    : Option Bool
deriving DecidableEq, Repr

/-- A host command in flight (R376 to R378): its words, the SQ head at its fetch, and its outcome once known; `cores` are
those of a LOAD or UNLOAD under way, `ref` its HOSTREF, `wire` the packet of a MSG with the tick of its last injection (R308), `gone` that the
device it goes to is lost (R264). -/
structure HostCmd where
  q      : BitVec 7
  cid    : BitVec 16
  words  : List Word
  sqhd   : Nat
  seq    : Nat
  begun  : Bool
  fin    : Option (Status × Word)
  dead   : Bool
  nv     : List Nvme
  nvNext : Nat
  nvSf   : BitVec 16
  nvBad  : Option Status
  ref    : Nat
  cores  : List Lcid
  wire   : Option (Pkt × Nat)
  gone   : Bool
deriving DecidableEq, Repr

/-- An attached checkpoint slot (R390): the words that attached it, its SQ tail and CQ head, the phase tag that the CQ's next entry will have. -/
structure Slot where
  words : List Word
  tail  : Nat
  head  : Nat
  nextId : Nat
  phase : Bool
deriving DecidableEq, Repr

/-- TDI states of a VF (R395). -/
inductive Tdi where
  | unlocked | locked | run | error
deriving DecidableEq, Repr

/-- One function: its CQ_ block (Table 14.8), queue pairs, MSI-X and TDI state. `unmasked` lists the vectors unmasked,
`pend` the pending bits, `sent` how many messages each vector has sent (log entry 15, DESIGN CHOICE); `rpts` the fault and Snag reports that name the
partition of a VF, which receives them in full (R418; log entry 137, DESIGN CHOICE). -/
structure Fn where
  en       : Bool
  rdy      : Bool
  lost     : BitVec 32
  winErr   : Bool
  dbErr    : Bool
  asq      : Word
  acq      : Word
  win      : Word
  telHead  : BitVec 31
  notify   : Tbl Word
  pairs    : Tbl (Option Qp)
  cmds     : List HostCmd
  slots    : Tbl (Option Slot)
  unmasked : NatSet
  pend     : NatSet
  sent     : Tbl Nat
  tdi      : Tdi
  nseq     : Nat
  rpts     : List (List Word)
deriving DecidableEq, Repr

/-- A function at reset (Table 14.8). -/
def Fn.zero : Fn :=
  { en := false, rdy := false, lost := 0, winErr := false, dbErr := false, asq := 0, acq := 0, win := 0, telHead := 0
    notify := [], pairs := [], cmds := [], slots := [], unmasked := [], pend := [], sent := [], tdi := .unlocked
    nseq := 0, rpts := [] }

/-- A collective defined (R388): partition, COLL_ID, KIND, the arming image, the device list, DONE, the contributors,
whether its local phase is complete and waits for the exchange, the tick since when it waits and the local result that it holds for it, the anchor
phase that a BROADCAST has answered, and the multicast acknowledgements still to come before DONE is arrived at (R310, R389). -/
structure Coll where
  part   : BitVec 4
  id     : BitVec 16
  kind   : BitVec 2
  image  : List Word
  dids   : List Did
  done   : Word
  fn     : HostFn
  members : List Lcid
  ready  : Bool
  since  : Nat
  result : Option Red
  phase  : Nat
  acks   : Nat
deriving DecidableEq, Repr

/-- The telemetry ring (R392). -/
structure Telem where
  base : Word
  log2 : Nat
  ivl  : Nat
  mask : Word
  tail : Nat
  due  : Nat
  maps : List (Tbl Word)
deriving DecidableEq, Repr

/-- The PCIe link (R366, R367): trained, its rate and width, what else it and the host's configuration have settled on, whether it is in L1, and the
errors that AER has noted, by the bits of the standard's uncorrectable error status (log entry 120). -/
structure PcieLink where
  up    : Bool
  gts   : Nat
  width : Nat
  cfg   : PcieCfg
  inL1  : Bool
  aer   : NatSet
deriving DecidableEq, Repr

/-- The configuration after a reset of the link: non-flit, the smallest sizes, no VF enabled, every function in D0. -/
def PcieLink.noCfg : PcieCfg := ⟨false, 128, 128, false, false, false, 0, []⟩

/-- A link that is not trained. -/
def PcieLink.zero : PcieLink := ⟨false, 0, 0, PcieLink.noCfg, false, []⟩

/-- An SPDM secured session (R394) with its key (R411); `owner` is the partition whose VF's owner has established it (R418). -/
structure Session where
  id   : Nat
  path : SpdmPath
  slot : Nat
  key  : List Byte
  owner : Option (BitVec 4)
deriving DecidableEq, Repr

/-- An IDE stream (R393): 0 none, 1 secure, 2 insecure; its key, its address-association blocks. -/
structure IdeStream where
  st    : BitVec 2
  key   : List Byte
  assoc : List (Word × Word)
deriving DecidableEq, Repr

/-- A stream without a key. -/
def IdeStream.zero : IdeStream := ⟨0, [], []⟩

/-- A host-window access that waits for a stack in self-refresh (R374, R447): a write, or a read of `len` bytes. -/
structure WinReq where
  f    : HostFn
  off  : Nat
  len  : Nat
  wr   : Option BarWrite
deriving DecidableEq, Repr

/-- The host side (R366 to R397): `winq` holds the window accesses that wait in Dormant, `mem` holds what the device has written to host memory, `hbad` the bytes that it
sent in poisoned TLPs, `reads` the answers to BAR4 reads (bytes and whether poisoned; none for Unsupported Request), `bus`
its writes to peer devices, `aper` the Landing memory behind the service aperture, `armSt` what the Lookout has answered to the last request
to arm a reduction (R312), `spdm` the answers to SPDM and TDISP
requests (none for an error), `large` the last answer that chunks are taken from and `chunks` how many pieces of a large request have come (R394), `eth` the telemetry records that have left on the management Ethernet (R392). -/
structure HostSide where
  fns    : Tbl Fn
  link   : PcieLink
  mem    : Memory
  hbad   : NatSet
  bus    : List (Word × Word)
  reads  : List (Option (List Byte × Bool))
  aper   : Memory
  colls  : List Coll
  telem  : Telem
  sess   : List Session
  nsess  : Nat
  armSt  : Option Status
  ide    : Tbl IdeStream
  spdm   : List (Option (List Byte))
  large  : List Byte
  chunks : Nat
  eth    : List (List Word)
  winq   : List WinReq
deriving DecidableEq, Repr

/-- The host side at reset: link not trained, telemetry stopped. -/
def HostSide.zero : HostSide :=
  { fns := [], link := .zero, mem := [], hbad := [], bus := [], reads := [], aper := [], colls := []
    telem := ⟨0, 0, 0, 0, 0, 0, []⟩, sess := [], nsess := 0, armSt := none, ide := [], spdm := [], large := [], chunks := 0, eth := [], winq := [] }

end Sys2Proof.Machine
end

