-- ==== Sys2Proof/Machine/DevState.lean ====
section
/-! DEFINITION. The state of the device's own services: pace and time base (02), security (15), bring-up (16), faults (17),
Snags (18), checking (19), live service (20), pins (21), registers shared by blocks (22). -/

namespace Sys2Proof.Machine

/-- One pace region (R51 to R61, Table 02.8): readings, voltages in mV above 600, the delay-line trim and what it was
calibrated at, the directions of voltage change, up and down, that made the trim longer, and whether the trim that the last calibration required
lies above 63 (R55). -/
structure Region where
  temp    : BitVec 16
  pace    : BitVec 12
  vnow    : Nat
  vset    : Nat
  trim    : Nat
  calV    : Nat
  calTemp : Int
  calTick : Nat
  thermal : Bool
  pwr     : Bool
  skew    : Bool
  longUp  : Bool
  longDown : Bool
  tooLong : Bool
deriving DecidableEq, Repr

/-- A region at reset: VSET 0x78, everything else zero (Table 02.3). -/
def Region.zero : Region := ⟨0, 0, 0, 0x78, 0, 0, 0, 0, false, false, false, false, false, false⟩

/-- The PACE_ block (R66), the Stand rails in mV, 800 where none is listed, with the Stands whose AVSBus does not answer (R540, R541), the regions
that a commanded recalibration has still to do (R529), the adjacent pairs 64a + b that SKEW holds (R57), and the time base (R62 to R65): `corr` is the correction in 2^-32 ns per
reference cycle, `frac` the counter's fraction of a nanosecond in the same unit, `peakW` and `amps` the short-window power and the rail currents
of R58, `goodFrom` the tick since which the offset is within ±500 ns, `heard` that at which the source was last heard. -/
structure Pace where
  mode     : BitVec 2
  limit    : BitVec 16
  pkgW     : BitVec 16
  peakW    : Nat
  amps     : Tbl Nat
  skewSeen : Bool
  skewPairs : NatSet
  capped   : Bool
  regions  : Tbl Region
  recal    : Word
  recalBusy : Bool
  recalLeft : NatSet
  rails    : Tbl Nat
  avsBad   : NatSet
  corr     : Int
  ns       : Word
  frac     : Nat
  ticks    : Nat
  src      : BitVec 2
  offset   : Int
  holdover : Bool
  locked   : Bool
  goodFrom : Option Nat
  heard    : Nat
  tripped  : Bool
deriving DecidableEq, Repr

/-- Pace and time at reset (Table 02.3). -/
def Pace.zero : Pace :=
  { mode := 0, limit := 0x258, pkgW := 0, peakW := 0, amps := [], skewSeen := false, skewPairs := [], capped := false, regions := [], recal := 0
    recalBusy := false, recalLeft := [], rails := [], avsBad := [], corr := 0, ns := 0, frac := 0, ticks := 0, src := 0, offset := 0, holdover := false, locked := false
    goodFrom := none, heard := 0, tripped := false }

/-- Life-cycle states (Table 15.1). -/
inductive Life where
  | blank | provisioned | deployed | service | retired
deriving DecidableEq, Repr

/-- One firmware slot of the flash (R408): its Warden and Lookout images, empty when never written. -/
structure FwSlot where
  warden  : FwImage
  lookout : FwImage
  valid   : Bool
deriving DecidableEq, Repr

/-- An empty slot. -/
def FwSlot.zero : FwSlot := ⟨⟨[], []⟩, ⟨[], []⟩, false⟩

/-- The security state (15_security.md): life cycle, fuses, firmware, mailbox, measurements. `entries` and `exits` count
the bits of SVC_ENTRY and SVC_EXIT; `pending` is the sanitising sequence that the always-on domain remembers (R406); `badKeys` the key
words that read marginal (R430): 0 to 3 signer slots, 4 the owner hash, 5 the image key, 6 the device secret; `sanAt` the step of that
sequence that comes next; `burnt` the bits of the life-cycle (0), SVC_ENTRY (1), SVC_EXIT (2), anti-rollback (3) and revocation (4) words that are
known to be blown, which nothing undoes (R400). -/
structure Sec where
  life     : Life
  marginal : Bool
  entries  : Nat
  exits    : Nat
  exitPend : Bool
  owner    : List Byte
  badKeys  : NatSet
  secret   : Bool
  svnFused : Nat
  svnRun   : Nat
  revoked  : BitVec 4
  recovery : Bool
  slotA    : FwSlot
  slotB    : FwSlot
  run      : Bool
  next     : Bool
  result   : Status
  command  : Byte
  rejected : BitVec 16
  changed  : Bool
  done     : Bool
  busy     : Bool
  nonce    : List Word
  mbox     : Tbl Word
  pending  : Option Byte
  sanAt    : Nat
  burnt    : Tbl Word
  trngOk   : Bool
  chain    : List Byte
  meas2    : List Byte
  meas3    : List Byte
  meas4    : List Byte
  measP    : Tbl (List Byte)
deriving DecidableEq, Repr

/-- A fuse word as applied and whether it was marginal (R429, R430). -/
structure FuseOut where
  cls      : FuseClass
  val      : Word
  marginal : Bool
deriving DecidableEq, Repr

/-- Grades (R1). -/
inductive Grade where
  | f | h | p
deriving DecidableEq, Repr

/-- An expected map entry of the assignment (R439): a peer DID and port, or unconnected. -/
abbrev Expect := Option (Did × BitVec 4)

/-- The assignment (R439). -/
structure Assign where
  did : Did
  map : Tbl Expect
deriving DecidableEq, Repr

/-- Cruise and Dormant (16_bringup.md, Table 16.8): `fused` the fuse words as applied, `isoPend` the ports to be isolated once drained (R441), `blazed` the blaze list of R436 in
PSID form, `saved` the contexts saved for Dormant, `coldStart` whether rails were lost since the last Cruise, `unit` the
units blazed in this Cruise with the step and the test that blazed them, `stepMs` the duration of each step in ms, `report` the Cruise report as
published at READY (R443), `cause` that of the previous cold reset: 0 none, 1 PWR_OK low,
2 a rail lost, 3 a thermal trip, 4 the always-on supply lost; `differs` the fuse words that this cold Cruise took another value of (R431). -/
structure Cruise where
  phase    : BitVec 4
  ready    : Bool
  pendDid  : Bool
  mismatch : Bool
  badGrade : Bool
  prevTrip : Bool
  warm     : Bool
  noClock  : Bool
  nblazed  : BitVec 16
  duration : BitVec 14
  fused    : List FuseOut
  margins  : BitVec 8
  fgroves  : NatSet
  fports   : BitVec 16
  vrp      : Tbl Nat
  isolated : BitVec 16
  missing  : BitVec 16
  matched  : BitVec 16
  isoPend  : BitVec 16
  blazed   : List (BitVec 24)
  unit     : List (BitVec 24 × Nat × Nat)
  stepMs   : List Nat
  report   : List Word
  hbmFail  : BitVec 4
  wasReady : Bool
  running  : Bool
  cold     : Bool
  startTick : Nat
  cause    : Nat
  differs  : List FuseClass
deriving DecidableEq, Repr

/-- Dormant states (Table 16.12). -/
inductive DormSt where
  | active | entering | dormant | waking
deriving DecidableEq, Repr

/-- Dormant (Table 16.8): `held` the positions whose HOLD_ALL step 2 of an entry has set, `slept` that the entry has come to its end,
`portsIdle` that the ports are in low-power idle (Table 16.6). -/
structure Dorm where
  st      : DormSt
  wakeEn  : BitVec 4
  timer   : BitVec 32
  refusal : Status
  src     : BitVec 4
  entries : BitVec 16
  lastUs  : BitVec 16
  reqTick : Nat
  dueTick : Option Nat
  saved   : List (Nat × Nat × Ctx)
  held    : NatSet
  slept   : Bool
  portsIdle : Bool
deriving DecidableEq, Repr

/-- The counted events of Table 17.3, each with the physical unit it counts against: a slice's row or bank by its
position, a site, column or lane by its PSID, a port, lane, HBM row or pseudo-channel, a region, a mesh link by its receiving router and
port with the bursts of its errors. -/
inductive Ev where
  | spRow (l : Lcid) (bank row : Nat)
  | spBank (l : Lcid) (bank row : Nat)
  | accWord (site : BitVec 24)
  | column (psid : BitVec 24)
  | lane (psid : BitVec 24)
  | internal (site : BitVec 24)
  | region (r : Nat)
  | gfLane (k : BitVec 4) (lane : Nat)
  | gfRate (k : BitVec 4) (lane : Nat)
  | gfPort (k : BitVec 4)
  | hbmRow (t : BitVec 2) (ch : Nat) (row : Nat)
  | hbmChan (t : BitVec 2) (ch : Nat) (row : Nat)
  | twin (l : Lcid)
  | meshLink (dg : Dg) (port : Nat)
  | meshBurst (dg : Dg) (port : Nat)
deriving DecidableEq, Repr

/-- A report (R458): what Table 17.4 holds of it, and the counted event it stands for, with whether it makes its
fault permanent. -/
structure Rpt where
  status : Status
  cls    : BitVec 8
  sev    : BitVec 2
  part   : Option (BitVec 4)
  lcid   : Option Lcid
  locus  : BitVec 4
  psid   : BitVec 24
  d0     : Word
  d1     : Word
  action : BitVec 8
  time   : Word
  ev     : Option (Ev × Bool)
deriving DecidableEq, Repr

/-- An error-log entry (Table 17.4); `evs` are the counted events on which the fault agent has not yet acted, each with the time of its
detection (R23), `sev0` the severity of the report that opened it, which alone moves a pin (R460). -/
structure LogEnt where
  r     : Rpt
  count : Nat
  last  : Word
  opened : Bool
  lastTick : Nat
  openTick : Nat
  seq   : Nat
  evs   : List (Ev × Bool × Word)
  sev0  : BitVec 2
deriving DecidableEq, Repr

/-- The reports lost since the log filled (R463): how many, their classes, the times of the first and the last. -/
structure Gap where
  n     : Nat
  mask  : Nat
  first : Word
  last  : Word
deriving DecidableEq, Repr

/-- A Stand's combiner and its log (R459 to R464, Table 17.9). -/
structure Comb where
  die    : List LogEnt
  spill  : List LogEnt
  tail   : Nat
  head   : Nat
  lost   : Nat
  ovf    : Tbl (BitVec 16)
  sel    : BitVec 35
  gap    : Option Gap
  armed  : Bool
  warned : Bool
deriving DecidableEq, Repr

/-- A combiner at reset (Table 17.9); its LOST condition is armed (R464). -/
def Comb.zero : Comb := ⟨[], [], 0, 0, 0, [], 0, none, true, false⟩

/-- The answer to a fault-manager command (Table 17.7). -/
structure MgmtResp where
  step   : Word
  status : Status
  state  : BitVec 2
  words  : List Word
  digest : Word
deriving DecidableEq, Repr

/-- An entry of the token table (R469): `args` are those of a command in progress, `left` says that a restart of the Lookout
abandoned it (R470), `begun` that the freeing of a context under RESET has begun. -/
structure Token where
  step   : Word
  opc    : BitVec 8
  digest : Word
  done   : Option MgmtResp
  tick   : Nat
  args   : List Word
  left   : Bool
  begun  : Bool
deriving DecidableEq, Repr

/-- Faults and the fault manager (17_faults.md): reports on their way, the four combiners, ERR_CFG, the counted events
with their ticks, the token table, the answers given. -/
structure Errs where
  cfg     : Word
  reports : List Rpt
  combs   : Tbl Comb
  events  : List (Ev × Nat)
  tokens  : List Token
  answers : List MgmtResp
  assign  : Option Assign
  faultN  : Bool
deriving DecidableEq, Repr

/-- Faults at reset (Table 17.9). -/
def Errs.zero : Errs := ⟨0x20002710, [], [], [], [], [], none, false⟩

/-- One Snag detector (Table 18.2): its records and registers, and the cycles already reported and still unbroken. -/
structure Snag where
  count  : BitVec 32
  next   : BitVec 4
  sel    : BitVec 9
  recs   : Tbl (List Word)
  live   : List (List (Lcid × CtxNo))
deriving DecidableEq, Repr

/-- A detector at reset. -/
def Snag.zero : Snag := ⟨0, 0, 0, [], []⟩

/-- One wait of the Snag graph, by the context that waits: since when, since when its edges are quiet (R474), which wait it
is, the operations that had been applied to what is waited on when it began, and the context's holds so far. -/
structure Quiet where
  since : Nat
  quiet : Nat
  key   : Nat
  base  : Nat
  holds : Nat
deriving DecidableEq, Repr

/-- A part after manufacturing test (log entry 21, DESIGN CHOICE): PROVISIONED, slot A valid and running, every count zero. -/
def Sec.zero : Sec :=
  { life := .provisioned, marginal := false, entries := 0, exits := 0, exitPend := false, owner := [], badKeys := []
    secret := true, svnFused := 0, svnRun := 0, revoked := 0, recovery := false
    slotA := ⟨⟨[], []⟩, ⟨[], []⟩, true⟩, slotB := .zero, run := false, next := false, result := 0, command := 0
    rejected := 0, changed := false, done := false, busy := false, nonce := [], mbox := [], pending := none, sanAt := 0, burnt := [(0, 1)]
    trngOk := true, chain := [], meas2 := [], meas3 := [], meas4 := [], measP := [] }

/-- Cruise before its first run: PHASE 0 (Table 16.8). -/
def Cruise.zero : Cruise :=
  { phase := 0, ready := false, pendDid := false, mismatch := false, badGrade := false, prevTrip := false
    warm := false, noClock := false, nblazed := 0, duration := 0, fused := [], margins := 0, fgroves := []
    fports := 0, vrp := [], isolated := 0, missing := 0, matched := 0, isoPend := 0, blazed := [], unit := [], stepMs := [], report := [], hbmFail := 0
    wasReady := false, running := false, cold := true, startTick := 0, cause := 0
    differs := [] }

/-- Dormant at reset: ACTIVE, every wake source enabled (Table 16.8). -/
def Dorm.zero : Dorm :=
  { st := .active, wakeEn := 0xF, timer := 0, refusal := 0, src := 0, entries := 0, lastUs := 0, reqTick := 0
    dueTick := none, saved := [], held := [], slept := false, portsIdle := false }

/-- What a CHECK has found so far (R521): the units tested, those that failed, those blazed or with a part substituted. -/
structure Tally where
  tested : List (BitVec 24)
  failed : List (BitVec 24)
  acted  : List (BitVec 24)
deriving DecidableEq, Repr

/-- A checking hold that waits for quiet (R501 step 3): the positions still to be tested, of which the first is held, the target and the token of
the command, the tick at which this hold began, and the command's outcome so far. -/
structure CheckHold where
  lcids : List Lcid
  psid : BitVec 24
  step : Word
  tick : Nat
  tally : Tally
deriving DecidableEq, Repr

/-- A known-answer sweep of an idle unit under way (R499, R500): the unit, the position whose slice it uses, the position whose own site it holds
where a spare is swept, the tick at which it began, and what its kernels give. -/
structure Sweep where
  psid : BitVec 24
  seat : Option Lcid
  held : Option Lcid
  tick : Nat
  runs : List KernelRun
deriving DecidableEq, Repr

/-- A CHECK that waits for the sweep of a unit that it names (R500): its step, its argument words, its kernels and segments. -/
structure CheckWait where
  step : Word
  args : List Word
  runs : List KernelRun
  segs : List SegmentRun
deriving DecidableEq, Repr

/-- A Sounding that has been accepted (R506, R507): its scope and target, its token, the tick at which it began, the signatures that its segments
give, whether it runs or waits for another, and what a grove scope has saved into the firmware range: each position's slice and core registers, and
the sync objects. -/
structure Sound where
  scope : Nat
  psid  : BitVec 24
  step  : Word
  tick  : Nat
  segs  : List SegmentRun
  runs  : Bool
  saved : List (Lcid × Core)
  objs  : Tbl SyncObj
deriving DecidableEq, Repr

/-- Checking (19_checking.md): DEV_KAK_CFG, the counts of DEV_CHECK_STATUS, the twin groves of the next and of this
Cruise, each partition's fast-phase count (R518), the checking holds that wait for quiet, the unexplained
mismatches of each pair within 1 h (R512), the units whose sweep the fault agent has asked for (Table 17.3), the Soundings under way, the sweeps of
idle units under way and the CHECKs and context starts that wait for them (R500). -/
structure Check where
  period   : BitVec 32
  runs     : BitVec 16
  fails    : BitVec 16
  sounds   : BitVec 16
  twins    : BitVec 16
  twinNext : NatSet
  twinNow  : NatSet
  fast     : Tbl Nat
  hold     : List CheckHold
  odd      : List ((BitVec 24 × BitVec 24) × Nat)
  owed     : List (BitVec 24)
  sounding : List Sound
  sweeps   : List Sweep
  waits    : List CheckWait
  starts   : List (Lcid × CtxNo × BitVec 21)
deriving DecidableEq, Repr

/-- Checking at reset (Table 19.10). -/
def Check.zero : Check := ⟨0xE10, 0, 0, 0, 0, [], [], [], [], [], [], [], [], [], []⟩

/-- The gap of a handoff (R525), and what it replaced, for the fallback of R527: the slot, SVN, measurements, table versions, roll and kernel set before
it; `down` that the restart of the old image has failed too. -/
structure Handoff where
  tick : Nat
  slot : Bool
  svn  : Nat
  m3   : List Byte
  m4   : List Byte
  fn   : BitVec 8
  red  : BitVec 8
  roll : List Dg
  kset : List Byte
  down : Bool
deriving DecidableEq, Repr

/-- Live service (20_live_service.md): the FN and REDUCE versions in force (Table 19.6), the handoff whose gap is open, the activations
that wait, with the ticks of their requests, the groves still to be rolled, the contexts that the roll of the first has freed and restarts, whether it
has begun, the measurement of the kernel set that the groves still to be rolled use (R528), the partition moves that wait for a procedure in their
grove (R524), and the answers given to ActivateFirmware with the estimated activation time in ms (R525). -/
structure Live where
  fn      : BitVec 8
  red     : BitVec 8
  last    : Option Handoff
  waiting : List (ActivateIn × Nat)
  roll    : List Dg
  freed   : List (Lcid × CtxNo)
  rolling : Bool
  kset    : List Byte
  moves   : List (Dg × Wr)
  answers : List (Status × Nat)
deriving DecidableEq, Repr

/-- Live service at reset: FN 1 and REDUCE 1 (Table 19.6). -/
def Live.zero : Live := ⟨1, 1, none, [], [], [], false, [], [], []⟩

/-- Pins, clocks and rails (21_signals_and_electrical.md): `rstLow` DEV_RST_N held low, `osc` the always-on oscillator's
hold of FAULT_N, `trip` the thermal trip cause, `wake` WAKE_N, `aonLost` that VDD_AON was lost since the last Cruise,
`ioOut` that VDD_AON or VDD_IO is out of range (R536), `upTick` the tick at which PWR_OK rose, `smbAddr` the SMBus address as sampled (Table 21.6). -/
structure Pins where
  pwrOk   : Bool
  rstLow  : Bool
  perstN  : Bool
  mclk    : Bool
  refclk  : Bool
  osc     : Bool
  trip    : Bool
  wake    : Bool
  aonLost : Bool
  ioOut   : Bool
  upTick  : Nat
  smbAddr : BitVec 7
deriving DecidableEq, Repr

/-- The pins with the device held in cold reset and both clocks running (Table 21.4 step 6). -/
def Pins.zero : Pins := ⟨false, false, false, true, true, false, false, false, false, false, 0, 0⟩

/-- What one part is (R1, R560). -/
structure Part where
  stepping : BitVec 8
  grade    : Grade
deriving DecidableEq, Repr

end Sys2Proof.Machine
end

