-- ==== Sys2Proof/Machine/State.lean ====
section
/-! DEFINITION. The state of the whole block as plain data, the ways a step could stop, and the state after reset. -/

namespace Sys2Proof.Machine

/-- Reasons for a fault. No command of this block ends in one: every rule of the spec gives the block a next state. -/
inductive Fault where
  /-- never raised; kept so that the type is inhabited (safe) -/
  | none
deriving DecidableEq, Repr

/-- Reasons for a refusal. -/
inductive Refusal where
  /-- a command that has no meaning yet, by its mnemonic; raised by the dispatcher alone (safe) -/
  | notModelled (mnemonic : String)
deriving DecidableEq, Repr

/-- The state of the A720. Cores are keyed by LCID, groves by DG, `landing` packets by endpoint (0 to 3 HBM, 4 to 19
ports, 20 PCIe, 21 Lookout), detectors by Stand. `part` is what the part is, `pgrove` the PART_GROVEk registers,
`wrej` every block's write-reject register by the offset of its block, `notice` the tick of the last blaze notice (R308). `freeCtr`, `pending` and the message numbers are
the model's own. -/
structure State where
  part    : Part
  cores   : Tbl Core
  groves  : Tbl Grove
  reds    : List Red
  landing : Tbl (List Pkt)
  gf      : Gf
  hbm     : Hbm
  host    : HostSide
  pace    : Pace
  sec     : Sec
  cruise  : Cruise
  dorm    : Dorm
  errs    : Errs
  snagCfg : Word
  snags   : Tbl Snag
  quiets  : List (Lcid × CtxNo × Quiet)
  check   : Check
  live    : Live
  pins    : Pins
  did     : Word
  pgrove  : Tbl Word
  sanDue  : Tbl Nat
  wrej    : Tbl Word
  notice  : Option Nat
  freeCtr : Nat
  pending : List Instr
deriving DecidableEq, Repr

/-- The machine right after a device cold reset, before its Cruise: every register at its reset value, no command
waiting. PART_GROVEk resets to 0x10, which `pgrove` does not list (R562). -/
def State.reset : State :=
  { part := ⟨0xB1, .f⟩, cores := [], groves := [], reds := [], landing := [], gf := .zero, hbm := .zero, host := .zero
    pace := .zero, sec := .zero, cruise := .zero, dorm := .zero, errs := .zero, snagCfg := 0x14, snags := [], quiets := []
    check := .zero, live := .zero, pins := .zero, did := 0, pgrove := [], sanDue := [], wrej := [], notice := none, freeCtr := 0
    pending := [] }

end Sys2Proof.Machine
end

