-- ==== Sys2Proof/Machine/Ops.lean ====
section
/-! DEFINITION. Named operations over State: accessors for cores, contexts, groves and registers, status codes, reports and
the counting of events, write rejection. -/

namespace Sys2Proof.Machine

/-- The outcome of a command. -/
abbrev Out := Host.Outcome State Fault Refusal

/-! ### Status codes (Table 17.1) -/

def sOK : Status := 0x00
def sRETRIED : Status := 0x01
def sPARTIAL : Status := 0x02
def sUNDEF : Status := 0x10
def sRSVD : Status := 0x11
def sALIGN : Status := 0x12
def sBOUNDS : Status := 0x13
def sPERM : Status := 0x14
def sSTALE : Status := 0x20
def sNOTLOADED : Status := 0x21
def sNOHANDLER : Status := 0x22
def sQTIMEOUT : Status := 0x23
def sLOST : Status := 0x30
def sLINKRET : Status := 0x31
def sNOROUTE : Status := 0x32
def sECC : Status := 0x40
def sPOISON : Status := 0x41
def sSNAG : Status := 0x50
def sREPLAY : Status := 0x51
def sRETIRED : Status := 0x52
def sVACANT : Status := 0x53
def sFROZEN : Status := 0x60
def sKAK : Status := 0x70
def sTWIN : Status := 0x71
def sSOUND : Status := 0x72
def sINTERNAL : Status := 0xFF

/-! ### Accessors -/

/-- A logical core. -/
def getCore (s : State) (l : Lcid) : Core := tget Core.zero s.cores l.toNat

/-- The state with a logical core replaced. -/
def setCore (s : State) (l : Lcid) (k : Core) : State := { s with cores := tput Core.zero s.cores l.toNat k }

/-- The state with a logical core changed. -/
def modCore (s : State) (l : Lcid) (f : Core → Core) : State := setCore s l (f (getCore s l))

/-- A context of a core. -/
def getCtx (k : Core) (c : CtxNo) : Ctx := tget Ctx.zero k.ctxs c.toNat

/-- The core with a context replaced. -/
def setCtx (k : Core) (c : CtxNo) (x : Ctx) : Core := { k with ctxs := tput Ctx.zero k.ctxs c.toNat x }

/-- The core with a context changed. -/
def modCtx (k : Core) (c : CtxNo) (f : Ctx → Ctx) : Core := setCtx k c (f (getCtx k c))

/-- A context of a logical core. -/
def ctxOf (s : State) (l : Lcid) (c : CtxNo) : Ctx := getCtx (getCore s l) c

/-- The state with a context of a logical core changed. -/
def modCtxOf (s : State) (l : Lcid) (c : CtxNo) (f : Ctx → Ctx) : State := modCore s l fun k => modCtx k c f

/-- A grove. -/
def getGrove (s : State) (dg : Dg) : Grove := tget Grove.zero s.groves dg.toNat

/-- The state with a grove replaced. -/
def setGrove (s : State) (dg : Dg) (g : Grove) : State := { s with groves := tput Grove.zero s.groves dg.toNat g }

/-- The state with a grove changed. -/
def modGrove (s : State) (dg : Dg) (f : Grove → Grove) : State := setGrove s dg (f (getGrove s dg))

/-- A queue of a core. -/
def getQ (k : Core) (q : Nat) : Queue := tget Queue.zero k.un.queues q

/-- The core with a queue replaced. -/
def setQ (k : Core) (q : Nat) (v : Queue) : Core := { k with un := { k.un with queues := tput Queue.zero k.un.queues q v } }

/-- The core with its units changed. -/
def modUn (k : Core) (f : Units → Units) : Core := { k with un := f k.un }

/-- The core with its engines changed. -/
def modEng (k : Core) (f : Engines → Engines) : Core := { k with eng := f k.eng }

/-- An endpoint of a channel on side `d`. -/
def getLink (k : Core) (inb : Bool) (d : Nat) : LinkEnd := tget LinkEnd.zero (if inb then k.inL else k.outL) d

/-- The core with an endpoint replaced. -/
def setLink (k : Core) (inb : Bool) (d : Nat) (e : LinkEnd) : Core :=
  if inb then { k with inL := tput LinkEnd.zero k.inL d e } else { k with outL := tput LinkEnd.zero k.outL d e }

/-- Device grove number of a core (R34). -/
def dgOf (l : Lcid) : Dg := l.extractLsb' 4 8

/-- Logical position of a core in its grove (R34). -/
def posOf (l : Lcid) : Nat := l.toNat % 16

/-- The core at a position of a grove. -/
def lcidOf (dg : Dg) (n : Nat) : Lcid := BitVec.ofNat 12 (dg.toNat * 16 + n % 16)

/-- The Stand of a grove (R34). -/
def standOf (dg : Dg) : Nat := dg.toNat / 64

/-- The tick count of the time base (R65). -/
def now (s : State) : Nat := s.pace.ticks

/-- Register g of a context; g0 reads 0 (Table 06.1). -/
def readG (x : Ctx) (i : Nat) : Word := if i % 16 = 0 then 0 else tget 0 x.g (i % 16)

/-- Writing register g; g0 discards it (R189). -/
def writeG (x : Ctx) (i : Nat) (v : Word) : Ctx := if i % 16 = 0 then x else { x with g := tput 0 x.g (i % 16) v }

/-- Predicate p; p0 reads 1 (Table 06.1). -/
def readP (x : Ctx) (i : Nat) : Bool := i % 8 == 0 || bit x.p (i % 8)

/-- Writing a predicate; p0 discards it (R189). -/
def writeP (x : Ctx) (i : Nat) (b : Bool) : Ctx :=
  if i % 8 = 0 then x
  else { x with p := BitVec.ofNat 8 (x.p.toNat - bitAt (bit x.p (i % 8)) (i % 8) + bitAt b (i % 8)) }

/-- A field of a word replaced. -/
def putFld {w : Nat} (x : BitVec w) (lo len v : Nat) : BitVec w :=
  BitVec.ofNat w (x.toNat - fld x lo len * 2 ^ lo + v % 2 ^ len * 2 ^ lo)

/-! ### Numbering (01_anatomy.md) -/

/-- A working grove: neither fused nor with a blazed router (GROVE_MAP, Table 07.18). -/
def groveWorks (s : State) (dg : Dg) : Bool :=
  let g := getGrove s dg
  !g.fused && !g.out

/-- An occupied position (CORE_MAP, Table 07.18). -/
def occupied (s : State) (l : Lcid) : Bool :=
  groveWorks s (dgOf l) && tget 0 (getGrove s (dgOf l)).siteOf (posOf l) != 0

/-- The number of the site that serves a position, 31 where none does. -/
def siteNo (s : State) (l : Lcid) : Nat :=
  match tget 0 (getGrove s (dgOf l)).siteOf (posOf l) with
  | 0 => 31
  | n + 1 => n

/-- The twin site of a position (R509), 31 where it has none. -/
def twinNo (s : State) (l : Lcid) : Nat :=
  match tget 0 (getGrove s (dgOf l)).twinOf (posOf l) with
  | 0 => 31
  | n + 1 => n

/-- The lead or the twin site of a position. -/
def siteAt (s : State) (l : Lcid) (twin : Bool) : Nat := if twin then twinNo s l else siteNo s l

/-- The lead of a position is there, and its twin where that is meant. -/
def siteThere (s : State) (l : Lcid) (twin : Bool) : Bool := !twin || twinNo s l != 31

/-- The site that serves a position. -/
def siteOfCore (s : State) (l : Lcid) : Site := tget Site.zero (getGrove s (dgOf l)).sites (siteNo s l)

/-- R18: the spare lanes of a site's VE in use, spare and logical lane, with the logical lanes replaced so far in their order, after
the failed lanes `l`: a spare that fails in use hands its logical lane to the other; one that is not in use is only used up. -/
def veSpares (l : List Nat) : List Nat × List (Nat × Nat) × List Nat :=
  l.foldl (fun q x =>
    let lane := if x < 64 then some x else (firstThat (fun (p : Nat × Nat) => p.1 == x) q.2.1).map Prod.snd
    match lane, q.1 with
    | none, _ => (q.1.erase x, q.2)
    | some _, [] => q
    | some a, m :: r => (r, (q.2.1.filter fun p => p.1 != x) ++ [(m, a)], q.2.2 ++ [a])) ([64, 65], [], [])

/-- The state with a site of a grove changed. -/
def modSite (s : State) (dg : Dg) (n : Nat) (f : Site → Site) : State :=
  modGrove s dg fun g => { g with sites := tput Site.zero g.sites n (f (tget Site.zero g.sites n)) }

/-- A PSID (Table 01.5): stand and grove are the DG's bits. -/
def psidOf (dg : Dg) (site engine lane : Nat) : BitVec 24 :=
  BitVec.ofNat 24 (dg.toNat * 65536 + site % 32 * 2048 + engine % 8 * 256 + lane % 256)

/-- The PSID of an engine of the site that serves a core; 7 the whole site. -/
def corePsid (s : State) (l : Lcid) (engine : Nat) : BitVec 24 := psidOf (dgOf l) (siteNo s l) engine 0xFF

/-- The PSID of an engine of the lead or the twin site of a core. -/
def sitePsid (s : State) (l : Lcid) (twin : Bool) (engine : Nat) : BitVec 24 := psidOf (dgOf l) (siteAt s l twin) engine 0xFF

/-- The PART_GROVEk register of a grove: 0 for a fused grove, 0x10 at reset (Table 22.7). -/
def pgroveWord (s : State) (dg : Dg) : Word := if (getGrove s dg).fused then 0 else tget 0x10 s.pgrove dg.toNat

/-- The partition of a grove, none for a fused or unassigned one (R414). -/
def partOf (s : State) (dg : Dg) : Option (BitVec 4) :=
  let w := pgroveWord s dg
  if bit w 4 && !bit w 63 then some (BitVec.ofNat 4 (fld w 0 4)) else none

/-- The partition that traffic of a core carries (R414): that of its grove. -/
def corePart (s : State) (l : Lcid) : BitVec 4 := (partOf s (dgOf l)).getD 0

/-- A valid device ID is held (R33). -/
def hasDid (s : State) : Bool := bit s.did 63

/-- The device's own DID. -/
def ownDid (s : State) : Did := BitVec.ofNat 15 (fld s.did 0 15)

/-- The sender layout of g3 (R169): DID (0 without one), LCID, context. -/
def senderWord (s : State) (l : Lcid) (c : CtxNo) : Word :=
  wd ((if hasDid s then (ownDid s).toNat else 0) * 2 ^ 21 + l.toNat * 2 ^ 9 + c.toNat)

/-- The time that records hold: the counter rounded down to a whole microsecond (R65). -/
def timeWord (s : State) : Word := wd (s.pace.ns.toNat / 1000 * 1000)

/-! ### Reports and counted events (17_faults.md) -/

/-- A report with no partition, core or detail. -/
def rpt (cls : Nat) (st : Status) (sev locus : Nat) (psid : BitVec 24) : Rpt :=
  { status := st, cls := BitVec.ofNat 8 cls, sev := BitVec.ofNat 2 sev, part := none, lcid := none
    locus := BitVec.ofNat 4 locus, psid := psid, d0 := 0, d1 := 0, action := 0, time := 0, ev := none }

/-- A report that names a core and its partition. -/
def rptCore (s : State) (l : Lcid) (r : Rpt) : Rpt := { r with lcid := some l, part := partOf s (dgOf l) }

/-- A unit of a grove that lies in the scope of a Sounding (Table 19.2): a site, the router with its crossbar and sync objects, or the grove. -/
def soundsOver (x : Sound) (q : BitVec 24) : Bool :=
  fld q 16 8 == fld x.psid 16 8 &&
  match x.scope with
  | 0 => fld q 11 5 == fld x.psid 11 5
  | 1 => decide (24 ≤ fld q 11 5) && decide (fld q 11 5 ≤ 26)
  | _ => true

/-- R507: a unit under a Sounding that runs. -/
def underSound (s : State) (q : BitVec 24) : Bool := s.check.sounding.any fun x => x.runs && soundsOver x q

/-- A unit under a scheduled sweep (R500). -/
def underSweep (s : State) (u : BitVec 24) : Bool := s.check.sweeps.any fun w => w.psid == u

/-- R500: a position whose slice a scheduled sweep uses. -/
def sweptPos (s : State) (l : Lcid) : Bool := s.check.sweeps.any fun w => w.seat == some l

/-- A grove with a Sounding that runs in it. -/
def groveSounds (s : State) (dg : Dg) : Bool := s.check.sounding.any fun x => x.runs && fld x.psid 16 8 == dg.toNat

/-- A report on its way to its combiner (R458), with the time at which it was raised. -/
def raise (s : State) (r : Rpt) : State :=
  { s with errs := { s.errs with reports := s.errs.reports ++ [{ r with time := timeWord s }] } }

/-- Ticks in an hour. -/
def hour : Nat := 3600000000

/-- The events of a list within a span of `t`. -/
def recent (evs : List (Ev × Nat)) (t span : Nat) : List Ev :=
  (evs.filter fun p => t < p.2 + span).map Prod.fst

/-- Number of distinct values. -/
def distinct (l : List Nat) : Nat := (l.foldl sIns []).length

/-- Whether an event, counted in `evs`, makes its fault permanent at tick `t` (Table 17.3). -/
def permanent (evs : List (Ev × Nat)) (t : Nat) (e : Ev) : Bool :=
  match e with
  | .spRow _ _ _ => decide (3 ≤ ((recent evs t hour).filter (· = e)).length)
  | .spBank l b _ =>
    decide (4 ≤ distinct ((recent evs t 10000000).filterMap fun f =>
      match f with | .spBank l' b' r => if l' = l ∧ b' = b then some r else none | _ => none))
  | .accWord _ | .column _ | .lane _ | .internal _ | .twin _ =>
    decide (2 ≤ ((recent evs t hour).filter (· = e)).length)
  | .region _ | .gfRate _ _ => true
  | .gfLane _ _ => decide (5 ≤ ((recent evs t 1000000).filter (· = e)).length)
  | .gfPort _ => decide (3 ≤ ((recent evs t hour).filter (· = e)).length)
  | .meshLink _ _ => decide (3 ≤ ((recent evs t 1000000).filter (· = e)).length)
  | .meshBurst _ _ => decide (4 ≤ ((recent evs t (24 * hour)).filter (· = e)).length)
  | .hbmRow _ _ _ => decide (8 ≤ ((recent evs t (24 * hour)).filter (· = e)).length)
  | .hbmChan st ch _ =>
    let rows := fun span => (recent evs t span).filterMap fun f =>
      match f with | .hbmChan st' ch' r => if st' = st ∧ ch' = ch then some r else none | _ => none
    decide (16 ≤ (rows hour).length) || decide (4 ≤ distinct (rows 10000000))

/-- An event counted, with those older than every window dropped (R454). -/
def countEv (s : State) (e : Ev) : State :=
  { s with errs := { s.errs with events :=
      (s.errs.events.filter fun p => now s < p.2 + 24 * hour) ++ [(e, now s)] } }

/-- Counts that start again, because the work moved off the unit (R228, R454). -/
def forgetEv (s : State) (p : Ev → Bool) : State :=
  { s with errs := { s.errs with events := s.errs.events.filter fun q => !p q.1 } }

/-- A counted event and its report: ERROR when it makes the fault permanent (Table 17.11). -/
def raiseEv (s : State) (r : Rpt) (e : Ev) : State :=
  let s := countEv s e
  let perm := permanent s.errs.events (now s) e
  raise s { r with sev := if perm && decide (r.sev.toNat < 2) then 2 else r.sev, ev := some (e, perm) }

/-- R411: a key of 64 bytes that the TRNG gives: eight free words (log entry 3). -/
def drawKey (s : State) : State × List Byte :=
  ({ s with freeCtr := s.freeCtr + 8 }, (below 8).flatMap fun i => leBytes 8 (Config.freeWord (s.freeCtr + i)).toNat)

/-! ### Rejected writes (R558, R559) -/

/-- The write-reject register of the block at BAR0 offset `blk`. -/
def wrejWord (s : State) (blk : Nat) : Word := tget 0 s.wrej blk

/-- A rejection recorded in a block's register (Table 22.3). -/
def reject (s : State) (blk reason writer off : Nat) : State :=
  let w := wrejWord s blk
  let v := wd (2 ^ 63 + reason % 16 * 2 ^ 56 + writer % 32 * 2 ^ 48 + satAdd 16 (fld w 32 16) 1 * 2 ^ 32 + off % 2 ^ 26)
  { s with wrej := tput 0 s.wrej blk v }

/-- The block that records what is held against the writer: its CQ_ block, or DEV_ for the Lookout (Table 22.2). -/
def writerBlk (writer : Nat) : Nat := if 17 ≤ writer then 0 else 0x10000 + 0x1000 * writer

/-- Base of a core's block (Table 22.1). -/
def coreBlk (l : Lcid) : Nat := 0x400000 + 0x800 * l.toNat

/-- Base of a grove's block (Table 22.1). -/
def groveBlk (dg : Dg) : Nat := 0x100000 + 0x2000 * dg.toNat

/-- A write's value merged into a register: the half named is updated, the other keeps `old` (R555). -/
def mergeHalf (h : Half) (old v : Word) : Word :=
  match h with
  | .full => v
  | .low => wd (old.toNat / 2 ^ 32 * 2 ^ 32 + v.toNat % 2 ^ 32)
  | .high => wd (v.toNat % 2 ^ 32 * 2 ^ 32 + old.toNat % 2 ^ 32)

/-- The bits that a write names, for write-one-to-clear fields (R555): zero outside its half. -/
def halfBits (h : Half) (v : Word) : Word := mergeHalf h 0 v

/-! ### Dormant (16_bringup.md) -/

/-- R445, R446: entry to Dormant has stopped command fetch, or the device is Dormant or waking. -/
def dormBusy (s : State) : Bool := s.dorm.st != .active

/-- R446: the logic has no power: Dormant, or waking from it. -/
def asleep (s : State) : Bool := s.dorm.st == .dormant || s.dorm.st == .waking

/-- What the logic does only while it has power (R446). -/
def awake (f : State → State) (s : State) : State := if asleep s then s else f s

/-- R447, R449: a wake source fires, in Dormant or during entry, if WAKE_EN enables it. -/
def fireWake (s : State) (src : Nat) : State :=
  if (s.dorm.st == .dormant || s.dorm.st == .entering) && bit s.dorm.wakeEn src then
    { s with dorm := { s.dorm with st := .waking, src := BitVec.ofNat 4 (src + 1) }, pins := { s.pins with wake := true } }
  else s

/-- The next free value of the model (log entry 3, DESIGN CHOICE). -/
def freshWord (s : State) : State × Word := ({ s with freeCtr := s.freeCtr + 1 }, Config.freeWord s.freeCtr)

end Sys2Proof.Machine
end

