-- ==== Sys2Proof/Machine/Slices.lean ====
section
/-! DEFINITION. Accesses to a scratchpad slice: chunks, poison, partial writes, rows, upsets (08_scratchpad.md). -/

namespace Sys2Proof.Machine

/-- Bytes of a slice. -/
def sliceBytes : Nat := 0x200000

/-- R216: the bank of a slot. -/
def bankOf (slot : Nat) : Nat := (slot % 32) ^^^ (slot / 32 % 32) ^^^ (slot / 1024 % 16)

/-- R216: the row of a slot. -/
def rowOf (slot : Nat) : Nat := slot / 32 % 512

/-- The chunks that `n` bytes from `a` touch. -/
def chunksOf (a n : Nat) : List Nat := if n = 0 then [] else upto (a / 32) ((a + n - 1) / 32 - a / 32 + 1)

/-- The first poisoned chunk among those that a range touches, as its address (R224). -/
def poisonAt (sl : Slice) (a n : Nat) : Option Nat :=
  if sl.bad.isEmpty then none
  else (firstThat (fun ch => sHas sl.bad ch) (chunksOf a n)).map (· * 32)

/-- Bytes of a slice, poison disregarded. -/
def slRead (sl : Slice) (a n : Nat) : List Byte := rdBytes sl.mem a n

/-- A 64-bit word of a slice. -/
def slWord (sl : Slice) (a : Nat) : Word := rdWord sl.mem a

/-- R225: a write chunk by chunk. A chunk covered whole loses its mark; a poisoned chunk covered in part is unchanged and
its address is answered. -/
def slWriteGo : Nat → Slice → Nat → List Byte → Option Nat → Slice × Option Nat
  | 0, sl, _, _, e => (sl, e)
  | _ + 1, sl, _, [], e => (sl, e)
  | n + 1, sl, a, bs, e =>
    let room := 32 - a % 32
    let part := bs.take room
    let full := part.length == 32
    if sHas sl.bad (a / 32) && !full then
      slWriteGo n sl (a + room) (bs.drop room) (match e with | some _ => e | none => some (a / 32 * 32))
    else
      slWriteGo n { sl with mem := wrBytes sl.mem a part, bad := if full then sDel sl.bad (a / 32) else sl.bad }
        (a + room) (bs.drop room) e

/-- A write of bytes to a slice, with the first poisoned chunk that it covers only in part (R225). -/
def slWrite (sl : Slice) (a : Nat) (bs : List Byte) : Slice × Option Nat := slWriteGo (bs.length / 32 + 2) sl a bs none

/-- A write whose poison outcome no one reads: hardware records and entries that cover whole chunks. -/
def slPut (sl : Slice) (a : Nat) (bs : List Byte) : Slice := (slWrite sl a bs).1

/-- A write of 64-bit words. -/
def slPutWords (sl : Slice) (a : Nat) (ws : List Word) : Slice := slPut sl a (ws.flatMap fun w => leBytes 8 w.toNat)

/-- A chunk marked poisoned (R224, R226). -/
def slMark (sl : Slice) (ch : Nat) : Slice := { sl with bad := sIns sl.bad ch }

/-- R226: copied data with the indices of poisoned bytes: a destination chunk that a poisoned byte would reach is written
as poisoned where it is covered whole and left unchanged where it is covered in part; the other chunks are written. The
answer holds the first poisoned destination address. -/
def slCopyGo : Nat → Slice → Nat → List (Byte × Bool) → Option Nat → Slice × Option Nat
  | 0, sl, _, _, e => (sl, e)
  | _ + 1, sl, _, [], e => (sl, e)
  | n + 1, sl, a, bs, e =>
    let room := 32 - a % 32
    let part := bs.take room
    let full := part.length == 32
    let tainted := part.any Prod.snd
    let hit := tainted || (sHas sl.bad (a / 32) && !full)
    let at' := match part.findIdx? Prod.snd with
      | some i => a + i
      | none => a
    let e' := match e with
      | some _ => e
      | none => if hit then some at' else none
    let sl' := if tainted then (if full then slMark sl (a / 32) else sl)
      else if hit then sl
      else { sl with mem := wrBytes sl.mem a (part.map Prod.fst)
                     bad := if full then sDel sl.bad (a / 32) else sl.bad }
    slCopyGo n sl' (a + room) (bs.drop room) e'

/-- A packet of copied data written to a slice (R226, R260). -/
def slCopy (sl : Slice) (a : Nat) (bs : List Byte) (bad : NatSet) : Slice × Option Nat :=
  slCopyGo (bs.length / 32 + 2) sl a (bs.zipIdx.map fun p => (p.1, sHas bad p.2)) none

/-- The chunks marked that the bytes of given indices from an offset lie in. -/
def markBytes (sl : Slice) (a : Nat) (bad : NatSet) : Slice := bad.foldl (fun sl i => slMark sl ((a + i) / 32)) sl

/-- The bytes of a slice with the indices of those in poisoned chunks. -/
def slFetch (sl : Slice) (a n : Nat) : List Byte × NatSet :=
  (slRead sl a n, if sl.bad.isEmpty then [] else (below n).filter fun i => sHas sl.bad ((a + i) / 32))

/-- The core with its slice changed. -/
def modSp (k : Core) (f : Slice → Slice) : Core := { k with sp := f k.sp }

/-- Corrected and uncorrectable upsets that a read of a slice meets (R223, R224): counts, reports, poison. -/
def slUpset (s : State) (l : Lcid) (u : Upset) : State :=
  let ch := u.at' % 65536
  let slot := ch / 4
  let (b, r) := (bankOf slot, rowOf slot)
  let k := getCore s l
  let base := rptCore s l { rpt 0 sOK 0 0 (corePsid s l 7) with d0 := wd (r * 256 + b) }
  if sHas k.sp.bad ch then s
  else if u.correctable then
    let s := setCore s l (modSp k fun sl => { sl with corrected := BitVec.ofNat 16 (satAdd 16 sl.corrected.toNat 1) })
    raiseEv s base (.spRow l b r)
  else
    let s := setCore s l (modSp k fun sl =>
      { slMark sl ch with uncorr := BitVec.ofNat 16 (satAdd 16 sl.uncorr.toNat 1) })
    raiseEv s { base with cls := 1, status := sECC, sev := 2, d0 := wd (ch * 32) } (.spBank l b r)

end Sys2Proof.Machine
end

