-- ==== Sys2Proof/Machine/Net.lean ====
section
/-! DEFINITION. The mesh's geometry and routes, distance tables, addresses and their checks, and the injection of packets
(01_anatomy.md, 08_scratchpad.md, 11_mesh_and_reduction.md, 12_gwynfold_links.md). -/

namespace Sys2Proof.Machine

/-! ### Geometry and routes -/

/-- Mesh X of a grove (R26). -/
def xOf (dg : Dg) : Nat := 8 * (dg.toNat / 64 % 2) + dg.toNat % 8

/-- Mesh Y of a grove (R26). -/
def yOf (dg : Dg) : Nat := 8 * (dg.toNat / 128) + dg.toNat / 8 % 8

/-- The grove at a mesh position (R26). -/
def dgAt (x y : Nat) : Dg := BitVec.ofNat 8 ((y / 8 * 2 + x / 8) * 64 + y % 8 * 8 + x % 8)

/-- Numbers from `a` towards `b`, both included. -/
def span (a b : Nat) : List Nat := if a ≤ b then upto a (b - a + 1) else (upto b (a - b + 1)).reverse

/-- The routers of the XY route between two groves, ends included (R306). -/
def xyPath (a b : Dg) : List Dg :=
  ((span (xOf a) (xOf b)).map fun x => dgAt x (yOf a)) ++ ((span (yOf a) (yOf b)).drop 1).map fun y => dgAt (xOf b) y

/-- Hops of the XY route. -/
def hops (a b : Dg) : Nat :=
  (max (xOf a) (xOf b) - min (xOf a) (xOf b)) + (max (yOf a) (yOf b) - min (yOf a) (yOf b))

/-- No router of the XY route is blazed. -/
def pathClear (s : State) (a b : Dg) : Bool := (xyPath a b).all fun d => !(getGrove s d).out

/-- The waypoint that the source's detour table names (R307). -/
def detour (s : State) (a b : Dg) : Option Dg := tget none (getGrove s a).detours b.toNat

/-- Hops of the route in force, none when the destination is unreachable (R307, R37). -/
def routeHops (s : State) (a b : Dg) : Option Nat :=
  match detour s a b with
  | some w => if pathClear s a w && pathClear s w b then some (hops a w + hops w b) else none
  | none => if pathClear s a b then some (hops a b) else none

/-- The first waypoint whose two legs avoid every blazed router (R307), in DG order (log entry 24, DESIGN CHOICE). -/
def findWay (s : State) (a b : Dg) : Option Dg :=
  firstThat (fun w => pathClear s a w && pathClear s w b) ((below 256).map (BitVec.ofNat 8))

/-- Landing endpoints as numbers: HBM 0 to 3, ports 4 to 19, PCIe 20, the Lookout 21. -/
def epHbm (t : BitVec 2) : Nat := t.toNat
def epPort (k : Nat) : Nat := 4 + k
def epPcie : Nat := 20
def epLookout : Nat := 21

/-- Home routers of an endpoint (Table 01.3). -/
def homeRouters (e : Nat) : List Dg :=
  if e < 4 then (upto (if e < 2 then 2 else 10) 4).map fun y => dgAt (if e % 2 = 0 then 0 else 15) y
  else if e < 12 then [dgAt (2 * (e - 4)) 0, dgAt (2 * (e - 4) + 1) 0]
  else if e < 20 then [dgAt (2 * (e - 12)) 15, dgAt (2 * (e - 12) + 1) 15]
  else if e = 20 then [dgAt 0 7, dgAt 0 8]
  else [dgAt 15 7, dgAt 15 8]

/-- The 60 perimeter routers in ring order (R31). -/
def ring : List Dg :=
  ((below 15).map fun x => dgAt x 0) ++ ((below 15).map fun y => dgAt 15 y) ++
  ((below 15).map fun x => dgAt (15 - x) 15) ++ (below 15).map fun y => dgAt 0 (15 - y)

/-- Ring steps between two perimeter routers. -/
def ringSteps (a b : Dg) : Nat :=
  let i := ring.idxOf a
  let j := ring.idxOf b
  let d := max i j - min i j
  min d (60 - d)

/-- The least of a list of pairs by its first part. -/
def leastOf {α : Type} : List (Nat × α) → Option (Nat × α)
  | [] => none
  | p :: r => match leastOf r with
    | none => some p
    | some q => if q.1 < p.1 then some q else some p

/-- Working routers of a list with the hops from a grove. -/
def reachable (s : State) (a : Dg) (l : List Dg) : List (Nat × Dg) :=
  l.filterMap fun d => if (getGrove s d).out then none else (routeHops s a d).map fun h => (h, d)

/-- Ring steps from a perimeter router to the nearest home of an endpoint (R31). -/
def stepsTo (e : Nat) (d : Dg) : Nat := (((homeRouters e).map (ringSteps d)).foldl min 60)

/-- R31: where traffic of an endpoint without a working home router leaves the Landing ring: the working perimeter router the fewest
ring steps away, the first in ring order of several (log entry 91, DESIGN CHOICE). -/
def ringExit (s : State) (e : Nat) : Option Dg :=
  (leastOf ((ring.filter fun d => !(getGrove s d).out).map fun d => (stepsTo e d, d))).map Prod.snd

/-- The nearest router by which a grove's traffic enters an endpoint, with its distance (R37, R31). Of several perimeter routers
equally near, the one that leaves the fewest ring steps, and of those the first in ring order, is the entry (log entry 91, DESIGN CHOICE). -/
def nearest (s : State) (a : Dg) (e : Nat) : Option (Nat × Dg) :=
  if (homeRouters e).any fun d => !(getGrove s d).out then
    (leastOf (reachable s a (homeRouters e))).map fun p => (p.1 + 1, p.2)
  else
    (leastOf ((reachable s a ring).map fun p => (64 * p.1 + stepsTo e p.2, p))).map fun p => (p.2.1 + 1 + stepsTo e p.2.2, p.2.2)

/-- A port's state and record. -/
def getPort (s : State) (k : Nat) : Port := tget Port.zero s.gf.ports k

/-- The state with a port changed. -/
def modPort (s : State) (k : Nat) (f : Port → Port) : State :=
  { s with gf := { s.gf with ports := tput Port.zero s.gf.ports k (f (getPort s k)) } }

/-- A port that is fused off or retired (Table 12.1). -/
def portGone (s : State) (k : Nat) : Bool := (getPort s k).st == 0 || (getPort s k).st == 4

/-- A distance-table entry (R37): 0xFF for a fused, retired or unreachable endpoint, and before the first table. -/
def distEntry (s : State) (dg : Dg) (e : Nat) : Nat :=
  if (getGrove s dg).gen = 0 then 0xFF
  else if 4 ≤ e && e < 20 && portGone s (e - 4) then 0xFF
  else if e < 4 && bit s.cruise.hbmFail e then 0xFF
  else match nearest s dg e with
    | some p => min p.1 0xFE
    | none => 0xFF

/-- GRV_DIST_MEM (Table 01.7). -/
def distMem (s : State) (dg : Dg) : Word :=
  wd ((getGrove s dg).gen.toNat * 2 ^ 48 + distEntry s dg 20 * 2 ^ 32 + distEntry s dg 3 * 2 ^ 24 + distEntry s dg 2 * 2 ^ 16
    + distEntry s dg 1 * 2 ^ 8 + distEntry s dg 0)

/-- GRV_DIST_GFLO and GRV_DIST_GFHI (Table 01.8). -/
def distGf (s : State) (dg : Dg) (hi : Bool) : Word :=
  wd (((below 8).map fun k => distEntry s dg (4 + k + if hi then 8 else 0) * 2 ^ (8 * k)).foldl (· + ·) 0)

/-- R38: the generation after a remap, wrapping from 0xFFFF to 1. -/
def bumpGen (g : BitVec 16) : BitVec 16 := if g = 0xFFFF then 1 else g + 1

/-- A remap of one grove (R38); before Cruise computes the first table the generation stays 0. -/
def remap (s : State) (dg : Dg) : State := modGrove s dg fun g => { g with gen := if g.gen = 0 then 0 else bumpGen g.gen }

/-- A remap of every grove. -/
def remapAll (s : State) : State := (below 256).foldl (fun s d => remap s (BitVec.ofNat 8 d)) s

/-! ### Addresses (08_scratchpad.md, "The global address") -/

/-- A well-formed TGX address (Table 08.5). -/
inductive Addr where
  | own (off : Nat)
  | dev (l : Lcid) (off : Nat)
  | ext (off : Nat)
  | far (did : Did) (l : Lcid) (off : Nat)
  | farExt (did : Did) (off : Nat)
deriving DecidableEq, Repr

/-- Decoding an address; none when malformed (R235). -/
def addrOf (w : Word) : Option Addr :=
  match fld w 62 2 with
  | 0 => if fld w 21 41 = 0 then some (.own (fld w 0 21)) else none
  | 1 => if fld w 33 29 = 0 then some (.dev (BitVec.ofNat 12 (fld w 21 12)) (fld w 0 21)) else none
  | 2 => if fld w 38 24 = 0 then some (.ext (fld w 0 38)) else none
  | _ =>
    if bit w 46 then
      if fld w 38 8 = 0 then some (.farExt (BitVec.ofNat 15 (fld w 47 15)) (fld w 0 38)) else none
    else if fld w 33 13 = 0 then
      some (.far (BitVec.ofNat 15 (fld w 47 15)) (BitVec.ofNat 12 (fld w 21 12)) (fld w 0 21)) else none

/-- An HBM_RANGEn register. -/
def rangeWord (s : State) (n : Nat) : Word := tget 0 s.hbm.ranges n

/-- R351: the size in force of a partition's range. -/
def rangeSize (s : State) (n : Nat) : Nat :=
  let w := rangeWord s n
  if bit w 63 && bit w 62 then fld w 40 8 * (if bit w 57 then 0x10000000 else 0x40000000) else 0

/-- R352, R353: the stack and stack offset of a range offset. -/
def hbmPlace (s : State) (n off : Nat) : BitVec 2 × Nat :=
  let w := rangeWord s n
  let base := fld w 32 8 * 0x10000000
  if bit w 57 then (BitVec.ofNat 2 (fld w 55 2), base + off)
  else
    let line := off / 4096
    (BitVec.ofNat 2 ((line % 4) ^^^ (line / 4 % 4)), base + line / 4 * 4096 + off % 4096)

/-- Where an address leads once the aliases of R236 are resolved. -/
inductive Place where
  | slice (l : Lcid) (off : Nat)
  | hbm (part : Nat) (off : Nat)
  | remote (did : Did) (l : Option Lcid) (off : Nat)
deriving DecidableEq, Repr

/-- R236: resolution of an address that a core of partition `p` names. -/
def place (s : State) (l : Lcid) (p : BitVec 4) : Addr → Place
  | .own o => .slice l o
  | .dev t o => .slice t o
  | .ext o => .hbm p.toNat o
  | .far d t o => if hasDid s && d == ownDid s then .slice t o else .remote d (some t) o
  | .farExt d o => if hasDid s && d == ownDid s then .hbm p.toNat o else .remote d none o

/-- The address word that a packet for a place carries: device scratchpad, partition-relative external memory, or remote. -/
def placeWord : Place → Word
  | .slice l o => wd (2 ^ 62 + l.toNat * 2 ^ 21 + o)
  | .hbm _ o => wd (2 ^ 63 + o)
  | .remote d (some l) o => wd (3 * 2 ^ 62 + d.toNat * 2 ^ 47 + l.toNat * 2 ^ 21 + o)
  | .remote d none o => wd (3 * 2 ^ 62 + d.toNat * 2 ^ 47 + 2 ^ 46 + o)

/-- The size in force of an issuer's external memory: 0 for an issuer without a partition (R351, R415). -/
def extSize (s : State) (p : Option (BitVec 4)) : Nat := match p with | some n => rangeSize s n.toNat | none => 0

/-- R235: whether `n` bytes at an address lie within its space, for an issuer of partition `p`. -/
def inSpace (s : State) (p : Option (BitVec 4)) (a : Addr) (n : Nat) : Bool :=
  n == 0 || match a with
    | .own o | .dev _ o | .far _ _ o => decide (o + n ≤ sliceBytes)
    | .ext o => decide (o + n ≤ extSize s p)
    | .farExt d o => decide (o + n ≤ if hasDid s && d == ownDid s then extSize s p else 2 ^ 38)

/-- A core that lies in a fused grove (R3, R237). -/
def fusedCore (s : State) (l : Lcid) : Bool := (getGrove s (dgOf l)).fused

/-- R501: the grove router holds the packets addressed to a position under the checking hold. -/
def checkHeld (s : State) (l : Lcid) : Bool := s.check.hold.any fun h => h.lcids.head? == some l

/-- Two parties of one partition. -/
def samePart (p q : Option (BitVec 4)) : Bool := p.isSome && p == q

/-- R416: whether an issuer of partition `p` may reach an address of this device; a fused grove is never refused here
(R237). -/
def mayReach (s : State) (p : Option (BitVec 4)) (a : Addr) : Bool :=
  match a with
  | .dev t _ => fusedCore s t || samePart p (partOf s (dgOf t))
  | .far d t _ => !(hasDid s && d == ownDid s) || fusedCore s t || samePart p (partOf s (dgOf t))
  | _ => true

/-- R237: whether an address names a vacant position or a fused grove of this device. -/
def vacantAddr (s : State) (a : Addr) : Bool :=
  match a with
  | .dev t _ => !occupied s t
  | .far d t _ => hasDid s && d == ownDid s && !occupied s t
  | _ => false

/-- R307: a slice of this device that no route reaches from a grove. -/
def cutOff (s : State) (dg : Dg) (a : Addr) : Bool :=
  match a with
  | .dev t _ => (routeHops s dg (dgOf t)).isNone
  | .far d t _ => hasDid s && d == ownDid s && (routeHops s dg (dgOf t)).isNone
  | _ => false

/-- The device that an address names, when it is another. -/
def farDid (s : State) (a : Addr) : Option Did :=
  match a with
  | .far d _ _ | .farExt d _ => if hasDid s && d == ownDid s then none else some d
  | _ => none

/-! ### Gwynfold routes -/

/-- The routing entry of a DID in the active bank (R339). -/
def rtEntry (s : State) (d : Did) : BitVec 32 := tget 0 s.gf.rt ((if s.gf.active then 32768 else 0) + d.toNat)

/-- The ports of a routing entry in set order (Table 12.4). -/
def rtPorts (e : BitVec 32) : List Nat := ((below 4).take (fld e 16 2 + 1)).map fun i => fld e (4 * i) 4

/-- R324, R441, R442: a port released for data, in a state of Table 12.1; without a valid DID no port is. -/
def portIn (s : State) (k : Nat) (st : BitVec 3) : Bool :=
  hasDid s && s.cruise.ready && bit s.cruise.matched k && (getPort s k).st == st

/-- A port that R332 and R334 count as UP. -/
def portUpFor (s : State) (k : Nat) : Bool := portIn s k 3

/-- A port that R332 and R334 count as UP or TRAINING. -/
def portOpen (s : State) (k : Nat) : Bool := portIn s k 3 || portIn s k 2

/-- Whether a DID has a route here (R334). -/
def hasRoute (s : State) (d : Did) : Bool :=
  hasDid s && bit (rtEntry s d) 31 && (rtPorts (rtEntry s d)).any (portOpen s)

/-- R332 step 1: the entry port of a grove: UP or TRAINING, smallest distance entry, lowest number. -/
def entryPort (s : State) (dg : Dg) : Option Nat :=
  (leastOf (((below 16).filter (portOpen s)).map fun k => (distEntry s dg (epPort k), k))).map Prod.snd

/-! ### Injection -/

/-- The virtual channel of a KIND (Table 11.2): 0 REQ, 1 RSP, 2 MSG, 3 MGT. -/
def vcOf (kind : BitVec 4) : Nat :=
  match kind.toNat with
  | 0 | 1 | 6 | 8 | 9 => 0
  | 2 | 3 | 5 | 7 | 11 => 1
  | 4 => 2
  | _ => 3

/-- An empty packet. -/
def Pkt.blank : Pkt :=
  { kind := 0, cls := false, hops := 0, dst := 0, exit := 0, ep := 0, dpos := 0, way := none, src := 0, spos := 0
    srcl := false, sep := 23, part := 0, seq := 0, addr := 0, tag := 0, sctx := 0, len := 0, arg0 := 0, arg1 := 0, msg := none
    data := [], bad := [], mask := 0, fab := none, retried := false, tick := 0 }

/-- The packet addressed to a position of this device. -/
def Pkt.toCore (p : Pkt) (l : Lcid) : Pkt := { p with dst := dgOf l, exit := 0, dpos := BitVec.ofNat 4 (posOf l) }

/-- The packet addressed to a grove's own unit. -/
def Pkt.toUnit (p : Pkt) (dg : Dg) : Pkt := { p with dst := dg, exit := 3 }

/-- R306: the packet addressed to an endpoint, by the router that its rule names; `link` is the Landing link. -/
def Pkt.toEp (p : Pkt) (e : Nat) (d : Dg) (link : Bool) : Pkt := { p with dst := d, exit := if link then 2 else 1, ep := e }

/-- The grove and the key that hold the count of a source and virtual channel (R298). A Landing endpoint has one count, whichever of its
routers a packet enters by (log entry 109, DESIGN CHOICE). -/
def seqAt (dg : Dg) (port : Nat) (p : Pkt) : Dg × Nat :=
  if p.srcl then ((homeRouters p.sep).headD 0, (32 + p.sep) * 4 + vcOf p.kind) else (dg, (port - 4) * 4 + vcOf p.kind)

/-- The count that the next packet of a source and virtual channel takes (R298). -/
def nextSeq (s : State) (dg : Dg) (port : Nat) (p : Pkt) : Nat :=
  tget 0 (getGrove s (seqAt dg port p).1).seqTx (seqAt dg port p).2

/-- Bytes of a packet's body (Table 11.2). -/
def bodyBytes (p : Pkt) : Nat :=
  match p.kind.toNat with
  | 1 | 2 => 32 + p.data.length
  | 4 => 32 + (p.msg.map fun m => m.data.length).getD 0
  | 5 => 96
  | 8 => 32 + p.data.length
  | 9 => 64 + p.data.length
  | 10 => 32 + p.data.length
  | _ => 32

/-- R298: transfers of a packet. -/
def nxfer (p : Pkt) : Nat := (bodyBytes p + 127) / 128

/-- R301: two packets of one input buffer: of one port, virtual channel and CLASS. -/
def oneBuf (a b : InPkt) : Bool := a.port == b.port && vcOf a.pkt.kind == vcOf b.pkt.kind && a.pkt.cls == b.pkt.cls

/-- R301: the packets of a list leave room in the buffer of another for all of it: 10 transfers of CLASS 0, 5 of CLASS 1. -/
def bufRoom (l : List InPkt) (q : InPkt) : Bool :=
  decide (((l.filter (oneBuf q)).map fun w => nxfer w.pkt).sum + nxfer q.pkt ≤ if q.pkt.cls then 5 else 10)

/-- R301: a packet from a source enters its input buffer, or waits for room behind those that do. -/
def enterBuf (g : Grove) (q : InPkt) : Grove :=
  if g.wait.any (oneBuf q) || !bufRoom g.pkts q then { g with wait := g.wait ++ [q] } else { g with pkts := g.pkts ++ [q] }

/-- R301: what waits for room in a router's input buffers enters them, in order. -/
def refill (g : Grove) : Grove := g.wait.foldl enterBuf { g with wait := [] }

/-- The packets at a router, in its buffers and waiting for them. -/
def Grove.queued (g : Grove) : List Pkt := (g.pkts ++ g.wait).map InPkt.pkt

/-- R298, R307: a packet enters the mesh at a router's input port with the count `q`: its waypoint and time are set. -/
def injectAs (s : State) (dg : Dg) (port : Nat) (p : Pkt) (q : Nat) : State :=
  let p := { p with src := dg, seq := q, way := if p.kind = 9 then none else detour s dg p.dst
                    hops := if p.srcl then 1 else 0, tick := now s }
  modGrove s dg fun g => enterBuf g ⟨port, [], p⟩

/-- A packet enters the mesh with the next count of its source. -/
def inject (s : State) (dg : Dg) (port : Nat) (p : Pkt) : State :=
  let q := nextSeq s dg port p
  let at' := seqAt dg port p
  injectAs (modGrove s at'.1 fun g => { g with seqTx := tput 0 g.seqTx at'.2 (q + 1) }) dg port p q

/-- A packet that a core sends, from its position's port (4 to 19), with its partition (R414). -/
def sendFrom (s : State) (l : Lcid) (p : Pkt) : State :=
  inject s (dgOf l) (4 + posOf l) { p with spos := BitVec.ofNat 4 (posOf l), part := corePart s l }

/-- A packet that a grove's own unit sends: it starts as a core's does, with HOPS 0, SRCL 0 and SPOS 0, and has its own count (log entry
108, DESIGN CHOICE). -/
def sendUnit (s : State) (dg : Dg) (p : Pkt) : State := inject s dg 22 { p with srcl := false, sep := 22, spos := 0 }

/-- The home routers of an endpoint in the order in which traffic between it and grove `dg` tries them: the PCIe controller's go by
the grove's Y (R368), an HBM controller's by the stack offset `off` (R359). -/
def homesFor (e : Nat) (dg : Dg) (off : Nat) : List Dg :=
  let hs := homeRouters e
  if e < 4 then let i := off / 4096 % 4; hs.drop i ++ hs.take i
  else if e = epPcie ∧ 7 < yOf dg then hs.reverse
  else hs

/-- The first working home router of an endpoint for a grove's traffic. -/
def homeFor (s : State) (e : Nat) (dg : Dg) (off : Nat) : Option Dg :=
  firstThat (fun d => !(getGrove s d).out) (homesFor e dg off)

/-- R359: the router of an access from grove `a` to a stack. -/
def hbmRouter (s : State) (a : Dg) (t : BitVec 2) (off : Nat) : Dg :=
  (homeFor s (epHbm t) a off).getD (((nearest s a (epHbm t)).map Prod.snd).getD a)

/-- R30, R359, R368: whether a packet takes the second of the two Landing links of its router: address bit 9 for the PCIe and HBM
controllers; elsewhere the low bit of the mesh position `n` that it comes from or goes to (log entry 92, DESIGN CHOICE). -/
def secondLink (e : Nat) (a : Word) (n : Nat) : Bool := if e < 4 || e == epPcie then bit a 9 else n % 2 == 1

/-- The Landing link, as an input port, of a packet that an endpoint sends. -/
def landLink (e : Nat) (p : Pkt) : Nat := if secondLink e p.addr p.dpos.toNat then 21 else 20

/-- The stack offset that a response of an HBM controller answers. -/
def pktStackOff (s : State) (p : Pkt) : Nat :=
  match addrOf p.addr with
  | some (.ext o) | some (.farExt _ o) => (hbmPlace s p.part.toNat o).2
  | _ => 0

/-- The router by which a packet of a Landing endpoint enters the mesh: its first working home router, else the one nearest on the
Landing ring (R31, R306). -/
def landingRouter (s : State) (e : Nat) (p : Pkt) : Option Dg :=
  match homeFor s e p.dst (pktStackOff s p) with
  | some d => some d
  | none => ringExit s e

/-- A packet that a Landing endpoint sends towards `p.dst`. -/
def sendLanding (s : State) (e : Nat) (p : Pkt) : State :=
  match landingRouter s e p with
  | some d => inject s d (landLink e p) { p with srcl := true, sep := e }
  | none => s

/-- A packet of a Landing endpoint that enters the mesh with the count that it has. -/
def landAs (s : State) (e : Nat) (p : Pkt) : State :=
  match landingRouter s e p with
  | some d => injectAs s d (landLink e p) { p with srcl := true, sep := e } p.seq
  | none => s

/-- A packet for another device: to its entry port (R332); `dst` is none for external memory. -/
def Pkt.toPort (s : State) (p : Pkt) (dg : Dg) (did : Did) (srcLcid : Lcid) (dst : Option Lcid) : Option Pkt :=
  match entryPort s dg with
  | none => none
  | some k =>
    let hs := reachable s dg (homeRouters (epPort k))
    let d := match leastOf hs with
      | some h => h.2
      | none => ((nearest s dg (epPort k)).map Prod.snd).getD dg
    some { p.toEp (epPort k) d (secondLink (epPort k) p.addr srcLcid.toNat) with
      fab := some ⟨if hasDid s then ownDid s else 0, did, srcLcid, dst, 0, false⟩ }

/-- A request for a place, from a core. -/
def sendTo (s : State) (l : Lcid) (p : Pkt) : Place → State
  | .slice t _ => sendFrom s l (p.toCore t)
  | .hbm n o =>
    let q := hbmPlace s n o
    sendFrom s l (p.toEp (epHbm q.1) (hbmRouter s (dgOf l) q.1 q.2) (bit (BitVec.ofNat 64 q.2) 9))
  | .remote d t _ =>
    match p.toPort s (dgOf l) d l t with
    | some q => sendFrom s l q
    | none => s

end Sys2Proof.Machine
end

