-- ==== Sys2Proof/Machine/HbmMem.lean ====
section
/-! DEFINITION. Accesses to external memory: granules, poison, retired pseudo-channels, upsets (13_external_memory.md). -/

namespace Sys2Proof.Machine

/-- A stack. -/
def getStack (s : State) (t : BitVec 2) : Stack := tget Stack.zero s.hbm.stk t.toNat

/-- The state with a stack changed. -/
def modStack (s : State) (t : BitVec 2) (f : Stack → Stack) : State :=
  { s with hbm := { s.hbm with stk := tput Stack.zero s.hbm.stk t.toNat (f (getStack s t)) } }

/-- R364, R428: a granule that lies in a retired pseudo-channel, or in a stack whose interface has failed. -/
def chRetired (k : Stack) (t : BitVec 2) (g : Nat) : Bool := !k.trained || k.retired != 0 && bit k.retired (Config.hbmChannel t g).toNat

/-- A granule whose read gives POISON (R362, R364). -/
def granBad (k : Stack) (t : BitVec 2) (g : Nat) : Bool := sHas k.bad g || chRetired k t g

/-- One byte of partition range `n`, with its poison. -/
def hbmByte (s : State) (n off : Nat) : Byte × Bool :=
  let p := hbmPlace s n off
  (rdByte (getStack s p.1).mem p.2, granBad (getStack s p.1) p.1 (p.2 / 64))

/-- Bytes of a partition range with the indices of poisoned ones (R357). -/
def hbmFetch (s : State) (n off len : Nat) : List Byte × NatSet :=
  let bs := (upto off len).map (hbmByte s n)
  (bs.map Prod.fst, (below len).filter fun i => ((bs.map Prod.snd)[i]?).getD false)

/-- One granule written, in full or in part (R225, R362, R364): the stack, and whether the write met poison. A granule that the write
newly poisons is counted (Table 13.4). -/
def granWrite (k : Stack) (t : BitVec 2) (off : Nat) (part : List (Byte × Bool)) : Stack × Bool :=
  let g := off / 64
  let full := part.length == 64
  let tainted := part.any Prod.snd
  if chRetired k t g then (k, true)
  else if tainted then
    (if full && !sHas k.bad g then { k with bad := sIns k.bad g, uncorr := BitVec.ofNat 16 (satAdd 16 k.uncorr.toNat 1) } else k, true)
  else if sHas k.bad g && !full then (k, true)
  else ({ k with mem := wrBytes k.mem off (part.map Prod.fst), bad := if full then sDel k.bad g else k.bad }, false)

/-- Consecutive granules of a partition range written; the answer holds the first offset at which poison was met. -/
def hbmStoreGo : Nat → State → Nat → Nat → List (Byte × Bool) → Option Nat → State × Option Nat
  | 0, s, _, _, _, e => (s, e)
  | _ + 1, s, _, _, [], e => (s, e)
  | f + 1, s, n, off, bs, e =>
    let room := 64 - off % 64
    let part := bs.take room
    let p := hbmPlace s n off
    let r := granWrite (getStack s p.1) p.1 p.2 part
    let at' := off + (part.findIdx? Prod.snd).getD 0
    let e := match e with
      | some x => some x
      | none => if r.2 then some at' else none
    hbmStoreGo f (modStack s p.1 fun _ => r.1) n (off + room) (bs.drop room) e

/-- Copied data written to a partition range (R226, R357). -/
def hbmStore (s : State) (n off : Nat) (bs : List Byte) (bad : NatSet) : State × Option Nat :=
  hbmStoreGo (bs.length / 64 + 2) s n off (bs.zipIdx.map fun p => (p.1, sHas bad p.2)) none

/-- The PSID field of a report about a stack (Table 17.6). -/
def hbmPsid (t : BitVec 2) (ch row : Nat) : BitVec 24 := BitVec.ofNat 24 (t.toNat * 2 ^ 22 + ch % 64 * 2 ^ 16 + row % 2 ^ 16)

/-- R362: an error that a read of a stack meets: counts, reports, poison. -/
def hbmUpset (s : State) (t : BitVec 2) (u : Upset) : State :=
  let g := u.at' % 0x30000000
  let ch := (Config.hbmChannel t g).toNat
  let row := Config.hbmRow t g
  let base := { rpt 0 sOK 0 1 (hbmPsid t ch row) with d0 := wd (g * 64) }
  if sHas (getStack s t).bad g then s
  else if u.correctable then
    let s := modStack s t fun k => { k with corrected := BitVec.ofNat 32 (satAdd 32 k.corrected.toNat 1) }
    raiseEv s base (.hbmRow t ch row)
  else
    let s := modStack s t fun k => { k with bad := sIns k.bad g, uncorr := BitVec.ofNat 16 (satAdd 16 k.uncorr.toNat 1) }
    raiseEv s { base with cls := 1, status := sECC, sev := 2 } (.hbmChan t ch row)

end Sys2Proof.Machine
end

