-- ==== Sys2Proof/Machine/Contexts.lean ====
section
/-! DEFINITION. Contexts: states and their transitions, starts, ends, fault entry, holds; the Ring records that starts and
ends write (06_core_and_contexts.md, 18_hangs_rings_resets.md). -/

namespace Sys2Proof.Machine

/-! ### States -/

/-- The state that events act on: HELD_FROM while HELD (R164). -/
def effSt (x : Ctx) : CtxSt := if x.st = .held then x.heldFrom else x.st

/-- R164: a state applied to the context, to HELD_FROM while it is HELD. -/
def setSt (x : Ctx) (st : CtxSt) : Ctx := if x.st = .held then { x with heldFrom := st } else { x with st := st }

/-- The context READY again after a wait, a park or a resume. -/
def makeReady (x : Ctx) : Ctx := { setSt x .ready with wait := .none, deadline := none }

/-- The context WAITING. -/
def makeWait (x : Ctx) (w : Wait) (d : Option Nat) : Ctx := { setSt x .waiting with wait := w, deadline := d, waitNo := x.waitNo + 1 }

/-- Codes of Table 06.2. -/
def stCode : CtxSt → Nat
  | .free => 0 | .ready => 1 | .waiting => 2 | .parked => 3 | .faulted => 4 | .held => 5

/-- The deadline of a timeout of `n` µs armed now (R65): the (n+1)-th tick after it. -/
def deadlineAt (s : State) (n : Nat) : Nat := now s + n + 1

/-- An operation of the context is in the Mill queue. -/
def millPend (k : Core) (c : CtxNo) : Bool := k.eng.millq.any fun o => o.ctx == c

/-- An operation of the context is in the VE queue. -/
def vePend (k : Core) (c : CtxNo) : Bool := k.eng.veq.any fun o => o.ctx == c

/-- A haul, split request or brand operation of the context is outstanding (R259, R516). -/
def haulPend (k : Core) (c : CtxNo) : Bool := (k.un.hauls.any fun o => o.ctx == c) || k.eng.brandq.any fun o => o.ctx == c

/-- A SEND of the context waits for injection (R242). -/
def sendPend (k : Core) (c : CtxNo) : Bool := k.un.msgq.any fun o => o.ctx == c

/-- R164: an operation outstanding in the Mill, the VE, the haul unit or the message unit. -/
def busyCtx (k : Core) (c : CtxNo) : Bool := millPend k c || vePend k c || haulPend k c || sendPend k c

/-- WAIT_KIND (Table 06.3). -/
def waitKind (k : Core) (c : CtxNo) (x : Ctx) : Nat :=
  if effSt x ≠ .waiting then 0
  else match x.wait with
    | .none => 0
    | .queue _ _ link => if link then 7 else 1
    | .sync _ => 2
    | .mill => 3
    | .ve => 4
    | .ending => if millPend k c then 3 else 4
    | .narrow _ => 5
    | .ring _ => 5
    | .timer => 6

/-- The status word sw (Table 06.3). -/
def swOf (k : Core) (c : CtxNo) (x : Ctx) : Word :=
  wd (waitKind k c x * 2 ^ 48 + x.epoch.toNat * 2 ^ 32 + x.origin.toNat * 2 ^ 30 + x.handler.toNat * 2 ^ 16
    + (if x.st = .held then stCode x.heldFrom * 2 ^ 12 else 0) + stCode x.st * 2 ^ 9 + c.toNat)

/-- Contexts of a core that are in a state. -/
def countSt (k : Core) (st : CtxSt) : Nat := ((below 512).filter fun c => (getCtx k (BitVec.ofNat 9 c)).st = st).length

/-- R164: a context is FREE, or HELD with nothing outstanding. -/
def quietCtx (k : Core) (c : CtxNo) : Bool :=
  let x := getCtx k c
  x.st = .free || (x.st = .held && !busyCtx k c)

/-- Every context of the core is quiet. Contexts that the core does not list are FREE. -/
def quietCore (k : Core) : Bool := k.ctxs.all fun p => quietCtx k (BitVec.ofNat 9 p.1)

/-- Every context of the core is FREE. -/
def allFree (k : Core) : Bool := k.ctxs.all fun p => p.2.st = .free

/-- The lowest-numbered FREE context (R169). -/
def lowestFree (k : Core) : Option CtxNo :=
  (firstThat (fun c => (getCtx k (BitVec.ofNat 9 c)).st = .free) (below 512)).map (BitVec.ofNat 9)

/-! ### Claims (R106 to R108) -/

/-- The resources of a table of owners that a context holds, as a mask. -/
def heldMask (t : Tbl (Option CtxNo)) (c : CtxNo) : Nat :=
  ((below 8).map fun i => bitAt (tget none t i == some c) i).foldl (· + ·) 0

/-- A resource given to or taken from a context. -/
def setOwner (t : Tbl (Option CtxNo)) (i : Nat) (c : Option CtxNo) : Tbl (Option CtxNo) := tput none t i c

/-- Every claim of a context gone, and its pending releases (R108). -/
def dropClaims (e : Engines) (c : CtxNo) : Engines :=
  (below 8).foldl (fun e i =>
    let e := if tget none e.tdOwner i == some c then { e with tdOwner := setOwner e.tdOwner i none, relTd := tput 0 e.relTd i 0 } else e
    if tget none e.accOwner i == some c then { e with accOwner := setOwner e.accOwner i none, relAcc := tput 0 e.relAcc i 0 } else e) e

/-! ### Ring records (R479 to R481) -/

/-- Contexts 0 to CTXS − 1 have records. -/
def hasRecord (k : Core) (c : CtxNo) : Bool := decide (c.toNat < fld k.ring.area 32 10)

/-- Copy `n` of a context's record. -/
def ctxRec (k : Core) (c : CtxNo) (n : Nat) : Nat := fld k.ring.area 0 21 + 1024 * c.toNat + 512 * n

/-- Copy `n` of an accumulator's record. -/
def accRec (k : Core) (a n : Nat) : Nat := fld k.ring.area 0 21 + 1024 * fld k.ring.area 32 10 + 8832 * (2 * a + n)

/-- The copy that holds the latest valid record at one of two addresses, with its RSEQ; a poisoned slot 0 is not valid. -/
def latestOf (sl : Slice) (a0 a1 : Nat) : Option (Nat × Nat) :=
  let w0 := slWord sl a0
  let w1 := slWord sl a1
  let ok := fun (a : Nat) (w : Word) => bit w 63 && (poisonAt sl a 128).isNone
  match ok a0 w0, ok a1 w1 with
  | false, false => none
  | true, false => some (0, fld w0 0 48)
  | false, true => some (1, fld w1 0 48)
  | true, true => if fld w0 0 48 < fld w1 0 48 then some (1, fld w1 0 48) else some (0, fld w0 0 48)

/-- The copy that a new record goes to: the other than the latest valid one, copy 0 first (log entry 25, DEDUCED). -/
def nextCopy (sl : Slice) (a0 a1 : Nat) : Nat :=
  match latestOf sl a0 a1 with
  | some (n, _) => 1 - n
  | none => 0

/-- A tile descriptor image (Table 04.1). -/
def tdWords (t : TileDesc) : List Word :=
  [wd t.data.toNat, t.scale, wd (t.sstride.toNat * 2 ^ 32 + t.lstride.toNat), wd t.fmt.toNat]

/-- The words 28 to 31 of a context record: next sequences of the endpoints that the context owns (Table 18.5). -/
def linkWord (k : Core) (c : CtxNo) (d : Nat) : Word :=
  let own := fun (e : LinkEnd) => bit e.reg 63 && fld e.reg 44 9 == c.toNat
  let i := getLink k true d
  let o := getLink k false d
  wd ((if own i then i.seq.toNat * 2 ^ 32 else 0) + if own o then o.seq.toNat else 0)

/-- The 64 words of a context record (Table 18.5). -/
def ctxRecWords (k : Core) (c : CtxNo) (x : Ctx) (rseq : Nat) (ringId : Word) (pc : BitVec 21) (td acc : Nat) : List Word :=
  [wd (2 ^ 63 + rseq), ringId,
   wd (td * 2 ^ 48 + acc * 2 ^ 40 + x.p.toNat * 2 ^ 32 + pc.toNat),
   swOf k c x] ++ (upto 1 15).map (readG x) ++
  [x.ns0, x.ns1, x.tl0, x.tl1, x.tl2, x.srSeed, x.srCtr, x.fr0, x.fr1] ++ (below 4).map (linkWord k c) ++
  (below 8).flatMap fun i => if td.testBit i then tdWords (tget TileDesc.zero k.eng.td i) else [0, 0, 0, 0]

/-- The retained words of the endpoints that a context owns freed, and what it recorded noted (R293). -/
def freeKept (k : Core) (c : CtxNo) : Core :=
  (below 4).foldl (fun k d =>
    let i := getLink k true d
    let k := if bit i.reg 63 && fld i.reg 44 9 == c.toNat then setLink k true d { i with kept := [], recSeq := i.seq } else k
    let o := getLink k false d
    if bit o.reg 63 && fld o.reg 44 9 == c.toNat then setLink k false d { o with recSeq := o.seq } else k) k

/-- R481: the start record of a context with a record: next RSEQ, RINGID 0, no claims. -/
def startRecord (k : Core) (c : CtxNo) : Core :=
  if hasRecord k c then
    let x := getCtx k c
    let rseq := (k.ring.seq.toNat + 1) % 2 ^ 48
    let n := nextCopy k.sp (ctxRec k c 0) (ctxRec k c 1)
    let ws := ctxRecWords k c x rseq 0 x.pc 0 0
    let k := modSp k fun sl => slPutWords sl (ctxRec k c n) ws
    let k := freeKept { k with ring := { k.ring with seq := BitVec.ofNat 48 rseq } } c
    modCtx k c fun x => { x with hasRec := true }
  else k

/-- R481: VALID cleared in both copies of a context's record. -/
def clearRecord (k : Core) (c : CtxNo) : Core :=
  if hasRecord k c then
    modSp k fun sl => (below 2).foldl (fun sl n =>
      slPut sl (ctxRec k c n) (leBytes 8 ((slWord sl (ctxRec k c n)).toNat % 2 ^ 63))) sl
  else k

/-! ### Queues' part in a context's end -/

/-- A retained or started entry of a queue released by its holder (R258, R482). -/
def dropHeld (q : Queue) (c : CtxNo) : Queue := { q with held := q.held.filter fun h => h.2 != c }

/-- Every queue of a core with what a context retains released. -/
def dropAllHeld (k : Core) (c : CtxNo) : Core :=
  modUn k fun u => { u with queues := u.queues.map fun p => (p.1, dropHeld p.2 c) }

/-- The arrival slot or Boom entry that started the context released (R245, R258). -/
def dropSource (k : Core) (c : CtxNo) : Core :=
  match (getCtx k c).src with
  | .none => k
  | .slot i => modCtx (modUn k fun u => { u with slots := sDel u.slots i }) c fun x => { x with src := .none }
  | .boom q n =>
    let v := getQ k q
    let k := setQ k q { v with held := v.held.filter fun h => !(h.1 == n && h.2 == c), ents := v.ents.filter (· != n) }
    modCtx k c fun x => { x with src := .none }

/-! ### Sync cancels -/

/-- The cancel of a waiting sync operation (R268, R565): a SYNC_OP of operation 15 with its TAG, none where no port leads to its router. -/
def cancelPkt (s : State) (l : Lcid) (o : SyncOut) : Option Pkt :=
  let p : Pkt := { Pkt.blank with kind := 6, addr := 15, tag := o.tag, sctx := o.ctx, arg0 := o.name }
  if bit o.name 48 && !(hasDid s && fld o.name 49 15 == (ownDid s).toNat) then
    p.toPort s (dgOf l) (BitVec.ofNat 15 (fld o.name 49 15)) l (some (lcidOf (BitVec.ofNat 8 (fld o.name 7 8)) 0))
  else some (p.toUnit (BitVec.ofNat 8 (fld o.name 7 8)))

/-- A cancel that the core sends. -/
def sendCancel (s : State) (l : Lcid) (o : SyncOut) : State :=
  match cancelPkt s l o with
  | some p => sendFrom s l p
  | none => s

/-- R565: a cancel that the grove router of a failed site sends; it names the position whose operation it cancels. -/
def unitCancel (s : State) (l : Lcid) (o : SyncOut) : State :=
  match cancelPkt s l o with
  | some p => inject s (dgOf l) 22 { p with srcl := false, sep := 22, spos := BitVec.ofNat 4 (posOf l), part := corePart s l }
  | none => s

/-- R565: the waiting SWAIT or SACQ of a context is abandoned: it is cancelled, and its answer will be discarded. The context's other operations
go on, and one that fails still gives its entry (R267). -/
def abandonSyncs (s : State) (l : Lcid) (c : CtxNo) : State :=
  let mine := fun (o : SyncOut) => o.ctx == c && o.waits && !o.dead
  let outs := (getCore s l).un.syncs.filter mine
  let s := modCore s l fun k => modUn k fun u =>
    { u with syncs := (u.syncs.filter fun o => !(mine o && o.retry)).map fun o => if mine o then { o with dead := true, cancel := true } else o }
  outs.foldl (fun s o => if !o.retry && !o.cancel then sendCancel s l o else s) s

/-- What a context waits for forgotten: it leaves the queue's waiters, its sync operations and narrow access die, so that no later status of theirs gives
it a MULTI, a count or an entry (log entry 143, DESIGN CHOICE). -/
def abandonWait (s : State) (l : Lcid) (c : CtxNo) : State :=
  match (ctxOf s l c).wait with
  | .queue q _ _ => modCore s l fun k => setQ k q { getQ k q with waiters := (getQ k q).waiters.filter (· != c) }
  | .sync _ => abandonSyncs s l c
  | .narrow t => modCore s l fun k => modUn k fun u =>
      { u with narrows := u.narrows.map fun o => if o.tag = t then { o with dead := true } else o }
  | _ => s

/-! ### Start and end -/

/-- R169, R172, R181: a context started: READY with the values of Table 06.1, and its start record. -/
def startCtx (k : Core) (c : CtxNo) (pc : BitVec 21) (g1 g2 g3 : Word) (origin : BitVec 2) (hidx : BitVec 12)
    (src : StartSrc) : Core :=
  let x := writeG (writeG (writeG { Ctx.zero with st := .ready, pc := pc, origin := origin, handler := hidx, src := src
                                                  epoch := BitVec.ofNat 16 (fld k.role 48 16) } 1 g1) 2 g2) 3 g3
  startRecord (setCtx k c x) c

/-- A core that may start contexts: HOLD_ALL 0 and no recovery hold (Table 06.11, R486). -/
def mayStart (k : Core) : Bool := !bit k.ctrl 1 && !k.recHold

/-- R481, R108, R245: the context becomes FREE; its records, claims, slot and retained entries go with it. A context that is freed by a command has its
registers, tally and SR state cleared too (Table 18.11); END leaves them, since no rule clears them then (log entry 136, DESIGN CHOICE). -/
def toFree (s : State) (l : Lcid) (c : CtxNo) : State :=
  let s := abandonWait s l c
  modCore s l fun k =>
    let k := clearRecord k c
    let k := modEng k fun e => dropClaims e c
    let k := dropAllHeld (dropSource k c) c
    let k := { k with ring := { k.ring with replaying := sDel k.ring.replaying c.toNat } }
    modCtx k c fun x =>
      if x.freeing then { Ctx.zero with waitNo := x.waitNo, holds := x.holds }
      else { x with st := .free, heldFrom := .free, byRec := false, wait := .none, deadline := none
                    freeing := false, hasRec := false, slot := none, defTd := 0, defAcc := 0, defMsg := false }

/-- R209, R185, R129: a context whose engine operations have ended: it becomes FREE if it was ending, READY if it waited
for the engine. -/
def settle (s : State) (l : Lcid) (c : CtxNo) : State :=
  let k := getCore s l
  let x := getCtx k c
  if x.st = .free then s
  else if x.freeing then (if busyCtx k c then s else toFree s l c)
  else if effSt x = .waiting then
    match x.wait with
    | .ending => if millPend k c || vePend k c then s else toFree s l c
    | .mill => if millPend k c then s else modCtxOf s l c makeReady
    | .ve => if vePend k c then s else modCtxOf s l c makeReady
    | _ => s
  else s

/-- R185: a context freed: FREE at once, or once its outstanding operations complete; its waits end (R565). -/
def freeCtx (s : State) (l : Lcid) (c : CtxNo) : State :=
  let s := abandonSyncs (abandonWait s l c) l c
  settle (modCtxOf s l c fun x => { x with freeing := true, wait := .none, deadline := none }) l c

/-! ### Holds -/

/-- R164: a context held. -/
def holdCtx (x : Ctx) (rec' : Bool) : Ctx :=
  if x.st = .free then x
  else if x.st = .held then { x with byRec := x.byRec || rec' }
  else { x with st := .held, heldFrom := x.st, byRec := rec', holds := x.holds + 1 }

/-- A HELD context released to HELD_FROM. -/
def releaseCtx (x : Ctx) : Ctx := if x.st = .held then { x with st := x.heldFrom, heldFrom := .free, byRec := false } else x

/-- Every context of a core changed. -/
def mapCtxs (k : Core) (f : Ctx → Ctx) : Core :=
  { k with ctxs := tmap Ctx.zero f k.ctxs }

/-- R486: the recovery hold on a core. -/
def recoveryHold (k : Core) : Core := { mapCtxs k fun x => holdCtx x true with recHold := true }

/-- R486 step 7: the recovery hold released; HOLD_ALL, if written 1 meanwhile, takes effect. -/
def recoveryRelease (k : Core) : Core :=
  { mapCtxs k fun x => if x.byRec then (if bit k.ctrl 1 then { x with byRec := false } else releaseCtx x) else x with
    recHold := false }

/-! ### Fault entry (R177 to R182) -/

/-- fr0 (Table 06.6). -/
def fr0Of (cause : Status) (imp : Bool) (unit : Nat) (pc : BitVec 21) : Word :=
  wd (cause.toNat * 2 ^ 56 + bitAt imp 55 + unit % 8 * 2 ^ 51 + pc.toNat)

/-- A cause that is a hardware fault (R181). -/
def hardware (cause : Status) : Bool := cause == sINTERNAL || cause == sRETIRED

/-- Adds one to CORE_FAULT_COUNT (R179). -/
def bumpFaults (k : Core) : Core := { k with faults := BitVec.ofNat 32 (satAdd 32 k.faults.toNat 1) }

/-- R181: what follows a program fault's entry: POISON is reported (R563), and there is a fault notice or the fault interrupt. -/
def programFault (s : State) (l : Lcid) (c : CtxNo) (cause : Status) (r0 detail : Word) : State :=
  let s := if cause = sPOISON then
    raise s (rptCore s l { rpt 1 sPOISON 1 0 (corePsid s l 7) with d0 := detail, d1 := r0 }) else s
  modCore s l fun k =>
    if bit k.ctrl 28 && (getCtx k c).origin != 1 then { k with notices := k.notices ++ [(c, r0, detail)] }
    else { k with irqs := k.irqs + 1 }

/-- R179, R181: fault entry of a context. A program fault gives a fault notice or the fault interrupt; a hardware fault
holds every context of the core for recovery; POISON is reported (R563). A PARKED context whose operation faults after issue becomes FAULTED too: R131 and
R158 say so of every context, Table 06.4 has the event from READY and WAITING only (log entry 142, DEDUCED). -/
def faultCtx (s : State) (l : Lcid) (c : CtxNo) (cause : Status) (imp : Bool) (unit : Nat) (pc : BitVec 21)
    (detail : Word) : State :=
  let x := ctxOf s l c
  if x.st = .free then s
  else if effSt x = .faulted then
    modCore s l fun k =>
      let k := bumpFaults (modCtx k c fun x => { x with fr0 := x.fr0 ||| (1 <<< 54) })
      if hardware cause then recoveryHold k else k
  else
    let s := abandonWait s l c
    let r0 := fr0Of cause imp unit pc
    let s := modCore s l fun k => bumpFaults (modCtx k c fun x =>
      { setSt x .faulted with fr0 := r0, fr1 := detail, wait := .none, deadline := none })
    if hardware cause then modCore s l recoveryHold else programFault s l c cause r0 detail

/-- A precise fault: pc stays at the faulting instruction (R177). -/
def precise (s : State) (l : Lcid) (c : CtxNo) (cause : Status) (unit : Nat) (detail : Word) : State :=
  faultCtx s l c cause false unit (ctxOf s l c).pc detail

end Sys2Proof.Machine
end

