-- ==== Sys2Proof/Machine/Operands.lean ====
section
/-! DEFINITION. Instruction words: fields, guards, the order of the issue checks, address operands, and the vector engine's
operand bytes with their encoding and issue checks (07_tgx_encoding.md, 05_vector_engine.md). -/

namespace Sys2Proof.Machine

/-! ### Words and fields -/

/-- The word of an instruction (R187): its opcode over the 54 low bits. -/
def insWord (op : Nat) (b : BitVec 54) : Word := wd (op * 2 ^ 54 + b.toNat)

/-- R192: every bit of [49:0] outside the fields named, each as (low bit, length), is zero. -/
def onlyFields (b : BitVec 54) (fs : List (Nat × Nat)) : Bool :=
  (fs.map fun f => fld b f.1 f.2 * 2 ^ f.1).sum == b.toNat % 2 ^ 50

/-- R188: the guard of an instruction holds. -/
def guardHolds (x : Ctx) (b : BitVec 54) : Bool := readP x (fld b 51 3) != bit b 50

/-- The immediate of formats RI, PI and M, sign-extended (R195). -/
def imm32 (b : BitVec 54) : Word := (b.extractLsb' 0 32).signExtend 64

/-- The branch offset of format B in bytes, sign-extended, as a pc increment (R195, R198). -/
def off19 (b : BitVec 54) : BitVec 21 := (b.extractLsb' 0 19).signExtend 21 <<< 3

/-- The value of the register that a 4-bit field names. -/
def gAt (x : Ctx) (b : BitVec 54) (lo : Nat) : Word := readG x (fld b lo 4)

/-- The context with its instruction complete: changed, and its pc at the next word (R161). -/
def finish (s : State) (l : Lcid) (c : CtxNo) (f : Ctx → Ctx) : State :=
  modCtxOf s l c fun x => { f x with pc := x.pc + 8, deadline := none }

/-- An instruction that changes no register of its context. -/
def advance (s : State) (l : Lcid) (c : CtxNo) : State := finish s l c id

/-- Every queue has room for an instruction that enters none. -/
def anyRoom (_ : Core) : Bool := true

/-- R163, R164: the context may issue. -/
def mayIssue (s : State) (l : Lcid) (c : CtxNo) : Bool :=
  let x := ctxOf s l c
  occupied s l && decide (x.st = .ready) && !x.freeing

/-- R161: the fetch of the slot at the context's pc meets a poisoned chunk. -/
def fetchPoisoned (s : State) (l : Lcid) (c : CtxNo) : Bool :=
  let x := ctxOf s l c
  let n := x.pc.toNat / 128
  decide (x.slot ≠ some n) && (poisonAt (getCore s l).sp (128 * n) 128).isSome

/-- The context with the slot of its pc fetched. -/
def fetched (s : State) (l : Lcid) (c : CtxNo) : State :=
  modCtxOf s l c fun x => { x with slot := some (x.pc.toNat / 128) }

/-- R190: an instruction issues. `enc` says that no reserved bit or value is held, `room` that the queue it enters has
room, `unit` is fr0.UNIT; `body` makes the operand checks and the effect. A context that may not issue, or that finds no
room, is left as it was (R163, R165). -/
def issue (s : State) (l : Lcid) (c : CtxNo) (op : Nat) (b : BitVec 54) (unit : Nat) (enc : Bool) (room : Core → Bool)
    (body : State → State) : State :=
  if !mayIssue s l c then s
  else if fetchPoisoned s l c then precise s l c sPOISON 0 (wd (ctxOf s l c).pc.toNat)
  else if !enc then precise (fetched s l c) l c sRSVD unit (insWord op b)
  else if !guardHolds (ctxOf s l c) b then advance (fetched s l c) l c
  else if !room (getCore s l) then s
  else body (fetched s l c)

/-- The own-scratchpad offset that an address operand names, none outside space 0b00 or malformed (R235). -/
def ownOff (w : Word) : Option Nat := if fld w 21 43 = 0 then some w.toNat else none

/-! ### Vector engine operands (R202 to R205) -/

/-- What an operand byte of format V holds (Table 07.12). -/
inductive VeSlot where
  | unused
  /-- a data operand whose format code is at this bit of the word -/
  | data (fmtAt : Nat)
  | bits
  | scalarK
  | redAcc
  | shfCtl | scanCtl | redCtl | fnCtl
deriving DecidableEq, Repr

/-- The formats that a class admits (Table 05.1). -/
inductive VeSet where
  | arith | logic | any | same | red
deriving DecidableEq, Repr

/-- A row of Table 07.12. -/
structure VeForm where
  d      : VeSlot
  a      : VeSlot
  b      : VeSlot
  c      : VeSlot
  useD   : Bool
  useB   : Bool
  rmZero : Bool
  set    : VeSet
  accD   : Bool
deriving DecidableEq, Repr

/-- Bit positions of FD, FA and FB (Table 07.9). -/
def fdAt : Nat := 40
def faAt : Nat := 36
def fbAt : Nat := 32

/-- ADD, SUB, MUL, MAX, MIN. -/
def formBin : VeForm := ⟨.data fdAt, .data faAt, .data fbAt, .unused, true, true, false, .arith, true⟩
/-- MAD: the addend is in format FD. -/
def formMad : VeForm := ⟨.data fdAt, .data faAt, .data fbAt, .data fdAt, true, true, false, .arith, true⟩
/-- NEG, ABS. -/
def formUn : VeForm := ⟨.data fdAt, .data faAt, .unused, .unused, true, false, false, .arith, true⟩
/-- SCL. -/
def formScl : VeForm := ⟨.data fdAt, .data faAt, .scalarK, .unused, true, false, false, .arith, true⟩
/-- EQ to GE. -/
def formCmp : VeForm := ⟨.bits, .data faAt, .data fbAt, .unused, false, true, true, .arith, false⟩
/-- SEL. -/
def formSel : VeForm := ⟨.data fdAt, .data faAt, .data fbAt, .bits, true, true, false, .arith, true⟩
/-- AND, OR, XOR, SHL, SHRL, SHRA. -/
def formLogic : VeForm := ⟨.data fdAt, .data faAt, .data fbAt, .unused, true, true, true, .logic, false⟩
/-- NOT. -/
def formNot : VeForm := ⟨.data fdAt, .data faAt, .unused, .unused, true, false, true, .logic, false⟩
/-- CVT. -/
def formCvt : VeForm := ⟨.data fdAt, .data faAt, .unused, .unused, true, false, false, .any, true⟩
/-- SHF. -/
def formShf : VeForm := ⟨.data fdAt, .data faAt, .shfCtl, .unused, true, false, true, .same, false⟩
/-- SCAN. -/
def formScan : VeForm := ⟨.data fdAt, .data faAt, .unused, .scanCtl, true, false, false, .arith, true⟩
/-- SSCAN. -/
def formSscan : VeForm := ⟨.data fdAt, .data faAt, .bits, .scanCtl, true, false, false, .arith, true⟩
/-- RED. -/
def formRed : VeForm := ⟨.data fdAt, .redAcc, .unused, .redCtl, true, false, false, .red, false⟩
/-- FN. -/
def formFn : VeForm := ⟨.data fdAt, .data faAt, .unused, .fnCtl, true, false, false, .arith, true⟩

/-- R203: a data operand byte `v` of format code `f`; `isD` for the destination, `isB` for operand B. An immediate B is admitted where B's own format
is an integer one, whatever the other two are (log entry 144, DESIGN CHOICE). -/
def dataByteOk (v f : Nat) (isD isB accD : Bool) : Bool :=
  let block := decide (3 ≤ f) && decide (f ≤ 7)
  match v / 64 with
  | 0 => v % 4 == 0 && !(block && v / 4 % 16 == 15)
  | 1 => v % 4 == 0 && f == 7 && (!isD || accD)
  | 2 => v % 4 == 0 && !isD && !block
  | _ => isB && decide (8 ≤ f)

/-- R203, R204: one operand byte against its slot. -/
def slotOk (b : BitVec 54) (v : Nat) (isD isB accD : Bool) : VeSlot → Bool
  | .unused => v == 0
  | .data p => dataByteOk v (fld b p 4) isD isB accD
  | .bits => v / 64 == 0 && v % 4 == 0
  | .scalarK => v / 64 == 2 && v % 4 == 0
  | .redAcc => v / 64 == 1 && v / 32 % 2 == 0 && v % 4 == 0
  | .shfCtl => v / 32 % 2 == 0 && !(v / 64 == 3 && v % 32 != 0)
  | .scanCtl => v / 64 != 3 && !(v / 32 % 2 == 0 && v / 64 != 0) && !(v / 16 % 2 == 0 && v % 16 != 0)
  | .redCtl => v % 32 == 0
  | .fnCtl => decide (v < 7)

/-- R140, R204: the format codes against the class's set of Table 05.1. -/
def formatsOk (b : BitVec 54) (m : VeForm) : Bool :=
  let fd := fld b fdAt 4
  let fa := fld b faAt 4
  let fb := fld b fbAt 4
  let used := (if m.useD then [fd] else []) ++ [fa] ++ if m.useB then [fb] else []
  used.all (· ≤ 11) && (m.useD || fd == 0) && (m.useB || fb == 0) &&
  match m.set with
  | .arith => used.all (· != 2)
  | .logic => used.all fun f => decide (8 ≤ f) && f == fa
  | .any => true
  | .same => fd == fa
  | .red => fa == 7 && fd != 2

/-- R190, R192, R203 to R205: a word of format V holds no reserved value. -/
def veEnc (b : BitVec 54) (m : VeForm) : Bool :=
  let rm := fld b 44 2
  rm != 3 && (!m.rmZero || rm == 0) && formatsOk b m && (m.set != .red || fld b 46 4 == 0) &&
  slotOk b (fld b 24 8) true false m.accD m.d && slotOk b (fld b 16 8) false false m.accD m.a &&
  slotOk b (fld b 8 8) false true m.accD m.b && slotOk b (fld b 0 8) false false m.accD m.c

/-- The operand that a byte names, its registers read (Table 07.10). -/
def veOpd (x : Ctx) (b : BitVec 54) (v : Nat) : VeSlot → VeOpd
  | .data p =>
    match v / 64 with
    | 0 =>
      let f := fld b p 4
      let plane := if decide (3 ≤ f) && decide (f ≤ 7) then (readG x (v / 4 % 16 + 1)).toNat else 0
      .mem (readG x (v / 4 % 16)).toNat plane
    | 1 => .acc (BitVec.ofNat 3 (v / 4 % 8)) (v / 32 % 2 == 1)
    | 2 => .scalar (readG x (v / 4 % 16))
    | _ => .imm (v % 64)
  | .bits => .mem (readG x (v / 4 % 16)).toNat 0
  | .redAcc => .acc (BitVec.ofNat 3 (v / 4 % 8)) false
  | _ => .none

/-- One address range of a stream (R139): start, length, element size in bits, alignment. -/
structure VeRange where
  at' : Nat
  len : Nat
  esz : Nat
  al  : Nat
deriving DecidableEq, Repr

/-- Bytes of one block or row of a planed format. -/
def blockBytes (f : Fmt) : Nat := if f = .w64 then 256 else 4 * fmtBits f

/-- Bytes of one block's scale or one row's tag. -/
def planeBytes (f : Fmt) : Nat := if f = .w64 then 16 else 1

/-- The ranges of a stream of `n` elements, rounded up to whole blocks or rows (R139). -/
def veRanges (f : Fmt) (n : Nat) : VeOpd → List VeRange
  | .mem a p =>
    if fmtPlaned f then
      let k := (n + 31) / 32
      [⟨a, k * blockBytes f, fmtBits f, 16⟩, ⟨p, k * planeBytes f, 8 * planeBytes f, planeBytes f⟩]
    else [⟨a, n * (fmtBits f / 8), fmtBits f, fmtBits f / 8⟩]
  | _ => []

/-- The range of a bit stream. -/
def bitRange (n : Nat) : VeOpd → List VeRange
  | .mem a _ => [⟨a, (n + 7) / 8, 1, 1⟩]
  | _ => []

/-- The ranges of an operand under its slot. -/
def slotRanges (b : BitVec 54) (n : Nat) (o : VeOpd) : VeSlot → List VeRange
  | .data p => veRanges ((fmtOf (fld b p 4)).getD .bf16) n o
  | .bits => bitRange n o
  | _ => []

/-- Two ranges share a byte and do not start together with one element size (R139 step 4). -/
def rangeClash (x y : VeRange) : Bool :=
  x.len != 0 && y.len != 0 && decide (x.at' < y.at' + y.len) && decide (y.at' < x.at' + x.len) &&
    !(x.at' == y.at' && x.esz == y.esz)

/-- R139: the first fault over destination and source ranges, with the address in DETAIL. -/
def streamFault (dst src : List VeRange) : Option (Status × Word) :=
  let all := dst ++ src
  match firstThat (fun r => decide (2 ^ 21 ≤ r.at')) all with
  | some r => some (sBOUNDS, wd r.at')
  | none =>
  match firstThat (fun r => r.at' % r.al != 0) all with
  | some r => some (sALIGN, wd r.at')
  | none =>
  match firstThat (fun r => r.len != 0 && decide (sliceBytes < r.at' + r.len)) all with
  | some r => some (sBOUNDS, wd r.at')
  | none => (firstThat (fun r => src.any (rangeClash r)) dst).map fun r => (sBOUNDS, wd r.at')

/-- The accumulators that operands name. -/
def accsOf (l : List VeOpd) : List Nat :=
  l.filterMap fun o => match o with | .acc n _ => some n.toNat | _ => none

/-- R95: destination elements that an operation writes, padding included. -/
def destElems (f : Fmt) (n : Nat) : VeOpd → Nat
  | .acc _ tr => 32 * if tr then min n 32 else (n + 31) / 32
  | _ => if fmtPlaned f then roundUp n 32 else n

/-! ### Reading streams -/

/-- Element `i` of a block of `q`-bit significands at one scale (R72 to R75). -/
def sbNum (q e v i : Nat) : Num :=
  if e = 0xFF then spec' .nan else fin' (signed q (v >>> (q * i))) ((e : Int) - 127)

/-- The elements of an SB or W32 block (R72, R75). -/
def sbBlock (sl : Slice) (f : Fmt) (a p k : Nat) : List Num :=
  let q := fmtBits f
  let v := rdNum sl.mem (a + k * blockBytes f) (blockBytes f)
  let e := (rdByte sl.mem (p + k)).toNat
  (below 32).map (sbNum q e v)

/-- The elements of a W64 row (R76, Table 03.4). -/
def w64Row (sl : Slice) (a p k : Nat) : List Num :=
  let e := signed 16 (rdNum sl.mem (p + 16 * k) 2)
  let t := slWord sl (p + 16 * k + 8)
  (below 32).map fun i => match clsOf (fld t (2 * i) 2) with
    | .fin => fin' (signed 64 (slWord sl (a + 256 * k + 8 * i)).toNat) e
    | c => spec' c

/-- The exact element of raw bits in a format without a plane (R68, R77). -/
def rawNum (f : Fmt) (v : Nat) : Num :=
  match ieee f with
  | some (eb, fb, bias) => decIeee eb fb bias v
  | none => fin' (signed (fmtBits f) v) 0

/-- Element `i` of an accumulator stream (R136). -/
def accElem (t : Tbl AccRow) (tr : Bool) (i : Nat) : Num :=
  if tr then rowNum (tget AccRow.zero t (i % 32)) (i / 32) else rowNum (tget AccRow.zero t (i / 32)) (i % 32)

/-- The tile of an accumulator. -/
def accTile (e : Engines) (n : BitVec 3) : Tbl AccRow := tget [] e.acc n.toNat

/-- Raw element bits of a stream in a format without a plane (R138, Table 07.10). -/
def readRaw (sl : Slice) (f : Fmt) (n : Nat) : VeOpd → List Nat
  | .mem a _ => (below n).map fun i => rdNum sl.mem (a + i * (fmtBits f / 8)) (fmtBits f / 8)
  | .scalar w => List.replicate n (w.toNat % 2 ^ fmtBits f)
  | .imm v => List.replicate n v
  | _ => []

/-- The exact elements of a stream (R142). -/
def readElems (e : Engines) (sl : Slice) (f : Fmt) (n : Nat) (o : VeOpd) : List Num :=
  match o with
  | .acc k tr => (below n).map (accElem (accTile e k) tr)
  | .mem a p =>
    if f = .w64 then ((below ((n + 31) / 32)).flatMap (w64Row sl a p)).take n
    else if fmtScaled f then ((below ((n + 31) / 32)).flatMap (sbBlock sl f a p)).take n
    else (readRaw sl f n o).map (rawNum f)
  | o => (readRaw sl f n o).map (rawNum f)

/-- The bits of a bit stream (R136). -/
def readBits (sl : Slice) (n : Nat) : VeOpd → List Bool
  | .mem a _ => (below n).map fun i => (rdByte sl.mem (a + i / 8)).toNat.testBit (i % 8)
  | _ => []

/-- The element to which a byte at offset `rel` of a stream's data belongs. -/
def elemAt (f : Fmt) (rel : Nat) : Nat :=
  if fmtPlaned f then rel / blockBytes f * 32 + rel % blockBytes f * 8 / fmtBits f else rel * 8 / fmtBits f

/-- The byte offset of an element within a stream's data. -/
def elemOff (f : Fmt) (i : Nat) : Nat :=
  if fmtPlaned f then i / 32 * blockBytes f + i % 32 * fmtBits f / 8 else i * fmtBits f / 8

/-- The least of two failing positions. -/
def leastFail (a b : Option Nat) : Option Nat :=
  match a, b with
  | none, x | x, none => x
  | some x, some y => some (min x y)

/-- The first element of a stream whose read fails: a poisoned chunk of its data or plane, or a poisoned accumulator row
(R158). -/
def readFail (e : Engines) (sl : Slice) (f : Fmt) (n : Nat) : VeOpd → Option Nat
  | .mem a p =>
    let k := (n + 31) / 32
    let len := if fmtPlaned f then k * blockBytes f else n * (fmtBits f / 8)
    let x := (poisonAt sl a len).map fun q => elemAt f (q - a)
    let y := if fmtPlaned f then (poisonAt sl p (k * planeBytes f)).map fun q => (q - p) / planeBytes f * 32 else none
    leastFail x y
  | .acc k tr =>
    firstThat (fun i => (tget AccRow.zero (accTile e k) (if tr then i % 32 else i / 32)).poison) (below n)
  | _ => none

/-- The first bit of a bit stream whose read fails. -/
def bitFail (sl : Slice) (n : Nat) : VeOpd → Option Nat
  | .mem a _ => (poisonAt sl a ((n + 7) / 8)).map fun q => (q - a) * 8
  | _ => none

/-- R225: the first chunk of a write that is poisoned and covered only in part, as an offset into the write. -/
def partFail (sl : Slice) (a len : Nat) : Option Nat :=
  if len = 0 then none
  else
    let c0 := a / 32
    let c1 := (a + len - 1) / 32
    if sHas sl.bad c0 && decide (a % 32 ≠ 0 ∨ a + len < 32 * c0 + 32) then some 0
    else if sHas sl.bad c1 && decide (a + len < 32 * c1 + 32) then some (32 * c1 - a)
    else none

end Sys2Proof.Machine
end

