-- ==== Sys2Proof/Machine/Flags.lean ====
section
/-! DEFINITION. The numeric status record, the tally, the stochastic-rounding counter and predicates (03_numbers.md). -/

namespace Sys2Proof.Machine

/-- R101, R102: a record added to the tally, all three words at once. -/
def addTally (x : Ctx) (ns0 ns1 : Word) : Ctx :=
  let sat := fld ns0 0 32
  let fl := fld ns0 32 32
  let ops := if bit ns1 63 then satAdd 32 (fld x.tl2 32 32) 1 else fld x.tl2 32 32
  let clip := bit x.tl2 0 || sat == 0xFFFFFFFF || fl == 0xFFFFFFFF
  { x with tl0 := wd (satAdd 64 x.tl0.toNat sat), tl1 := wd (satAdd 64 x.tl1.toNat fl)
           tl2 := wd (ops * 2 ^ 32 + bitAt clip 0) }

/-- R98, R102: a record written into ns0 and ns1 and added to the tally. -/
def writeRecord (x : Ctx) (r : Rec) (unit dfmt : Nat) : Ctx :=
  { addTally x (ns0Of r) (ns1Of r unit dfmt) with ns0 := ns0Of r, ns1 := ns1Of r unit dfmt }

/-- R103: the tally cleared. -/
def clearTally (x : Ctx) : Ctx := { x with tl0 := 0, tl1 := 0, tl2 := 0 }

/-- R95: the counter range of an SR conversion of `n` written elements taken. -/
def takeDraws (x : Ctx) (n : Nat) : Ctx := { x with srCtr := x.srCtr + wd n }

/-- R96: the seed set and the counter zeroed. -/
def setSeed (x : Ctx) (v : Word) : Ctx := { x with srSeed := v, srCtr := 0 }

/-- R94, R95: the draws of `n` elements from a counter value, zero outside SR. -/
def drawsOf (m : RM) (seed ctr : Word) (n : Nat) : List Nat :=
  match m with
  | .sr => (below n).map fun i => srDraw seed (ctr + wd i)
  | _ => List.replicate n 0

/-- Whether a record sets SPECIAL (Table 03.10). -/
def recSpecial (r : Rec) : Bool := r.first.isSome

end Sys2Proof.Machine
end

