-- ==== Sys2Proof/Machine/QueueOps.lean ====
section
/-! DEFINITION. Hardware queues, bound queues, Boom rounds and completion entries: the shared operations
(09_messages_and_queues.md, 10_spatial_layouts.md). -/

namespace Sys2Proof.Machine

/-! ### Rings -/

/-- Bytes of an entry (R206, Table 09.4). -/
def entBytes (q : Queue) : Nat := if q.kind = 0 then 8 * 2 ^ q.esz.toNat else 64

/-- Entries of the ring. -/
def capOf (q : Queue) : Nat := 2 ^ q.lcap.toNat

/-- The oldest entry whose storage is occupied, the tail when there is none (R482). -/
def oldestOf (q : Queue) : Nat := (q.ents ++ q.held.map Prod.fst).foldl min q.tail

/-- A full ring: the tail reaches the oldest occupied slot (R482). -/
def qFull (q : Queue) : Bool := decide (capOf q ≤ q.tail - oldestOf q)

/-- Own-scratchpad offset of entry `n`. -/
def entAddr (q : Queue) (n : Nat) : Nat := q.base.toNat + n % capOf q * entBytes q

/-- A configured completion queue (R251). -/
def isCompl (q : Queue) : Bool := q.valid && q.kind == 1

/-- The side whose inbound or outbound endpoint binds queue `qn` (R281). -/
def boundSide (k : Core) (inb : Bool) (qn : Nat) : Option Nat :=
  firstThat (fun d => let r := (getLink k inb d).reg; bit r 63 && fld r 38 6 == qn) (below 4)

/-- QN counts as configured (R206, R281). -/
def qConfigured (k : Core) (qn : Nat) : Bool :=
  (getQ k qn).valid || (boundSide k true qn).isSome || (boundSide k false qn).isSome

/-- R473: a feeder joins a list of the last 8 distinct contexts. -/
def joinFeeder (l : List Word) (w : Word) : List Word :=
  let l := l.filter (· != w) ++ [w]
  l.drop (l.length - 8)

/-- R473: a feeder of a queue. -/
def feedQueue (k : Core) (qn : Nat) (w : Word) : Core :=
  let q := getQ k qn
  if q.valid then setQ k qn { q with feeders := joinFeeder q.feeders w } else k

/-- R254: a context that waits on a queue becomes READY; its QRD issues again with the deadline it began with. -/
def wakeQrd (x : Ctx) : Ctx :=
  match x.wait with
  | .queue _ _ _ => { setSt x .ready with wait := .none }
  | _ => x

/-- R254: the contexts that wait on a queue wake in the order in which they began to wait; which of them takes an entry its issue decides, and one
that finds none waits again (log entry 107, DEDUCED). -/
def wakeAll (k : Core) (qn : Nat) : Core :=
  let q := getQ k qn
  q.waiters.foldl (fun k c => modCtx k c wakeQrd) (setQ k qn { q with waiters := [] })

/-- The outcome of an append. -/
inductive AppRes where
  | done (seq : Nat)
  | full
  | poison (a : Nat)
deriving DecidableEq, Repr

/-- R254, R564: an entry appended to the ring of a configured queue, and its waiters woken. -/
def qAppend (k : Core) (qn : Nat) (bs : List Byte) : Core × AppRes :=
  let q := getQ k qn
  if !q.valid || qFull q then (k, .full)
  else
    let a := entAddr q q.tail
    let short := decide (entBytes q < 32)
    if short && sHas k.sp.bad (a / 32) then (k, .poison (a / 32 * 32))
    else
      let k := modSp k fun sl => slPut sl a (bs.take (entBytes q))
      let k := setQ k qn { q with ents := q.ents ++ [q.tail], tail := q.tail + 1, nops := q.nops + 1 }
      (wakeAll k qn, .done q.tail)

/-! ### Completion entries (R249 to R251) -/

/-- A completion entry (Table 09.3). -/
def complWords (s : State) (st : Status) (kind tag count : Nat) (mask detail : Word) (h : Option Hdr) : List Word :=
  let w0 := wd (st.toNat * 2 ^ 56 + kind % 16 * 2 ^ 52 + tag % 2 ^ 16 * 2 ^ 32 + min count 0xFFFFFFFF)
  [w0, mask, detail, timeWord s] ++ match h with
    | some h => [h.w0, h.w1, h.w2, h.w3]
    | none => [0, 0, 0, 0]

/-- R251: the entry with REDIRECTED set. -/
def redirected (ws : List Word) : List Word :=
  match ws with
  | w :: r => (w ||| (1 <<< 51)) :: r
  | [] => []

/-- R251: an entry that q63 cannot take is counted and reported. -/
def loseEntry (s : State) (l : Lcid) (w : Word) : State :=
  let s := modCore s l fun k => modUn k fun u => { u with q63Lost := BitVec.ofNat 16 (satAdd 16 u.q63Lost.toNat 1) }
  raise s (rptCore s l { rpt 9 (BitVec.ofNat 8 (fld w 56 8)) 1 0 (corePsid s l 3) with
    d0 := wd (fld w 32 16 * 2 ^ 16 + fld w 52 4), d1 := wd (getCore s l).un.q63Lost.toNat })

/-- R251: an entry for q63. -/
def postQ63 (s : State) (l : Lcid) (ws : List Word) : State :=
  let k := getCore s l
  if isCompl (getQ k 63) then
    match qAppend k 63 (wordBytes ws) with
    | (k, .done _) => setCore s l k
    | _ => loseEntry s l (ws.headD 0)
  else loseEntry s l (ws.headD 0)

/-- R251: an entry written to its CQ, redirected to q63 where CQ cannot take it. -/
def postEntry (s : State) (l : Lcid) (cq : Nat) (ws : List Word) : State :=
  if cq = 63 then postQ63 s l ws
  else
    let k := getCore s l
    if isCompl (getQ k cq) then
      match qAppend k cq (wordBytes ws) with
      | (k, .done _) => setCore s l k
      | _ => postQ63 s l (redirected ws)
    else postQ63 s l (redirected ws)

/-! ### Booms (R255 to R257) -/

/-- Fields of a Boom's configuration word (Table 09.4). -/
def boomI64 (q : Queue) : Bool := bit q.boomW 63
def boomOp (q : Queue) : Nat := fld q.boomW 61 2
def boomWidth (q : Queue) : Nat := fld q.boomW 57 4
def boomDepth (q : Queue) : Nat := fld q.boomW 53 4 + 1
def boomCount (q : Queue) : Nat := fld q.boomW 37 16
def boomStart (q : Queue) : Bool := bit q.boomW 36
def boomHidx (q : Queue) : BitVec 12 := BitVec.ofNat 12 (fld q.boomW 24 12)

/-- Bytes of one contribution (R255). -/
def boomLen (q : Queue) : Nat := (if boomI64 q then 8 else 4) * boomWidth q

/-- Bits of one element. -/
def boomBits (q : Queue) : Nat := if boomI64 q then 64 else 32

/-- The elements of a contribution (R255). -/
def boomVals (q : Queue) (bs : List Byte) : List Int :=
  let n := boomBits q / 8
  (below (boomWidth q)).map fun i => signed (boomBits q) (leNat ((bs.drop (n * i)).take n))

/-- A free working slot. -/
def BoomSlot.zero : BoomSlot := ⟨0, []⟩

/-- The number of a round's working slot (R256). -/
def boomIx (q : Queue) (r : BitVec 16) : Nat := r.toNat % boomDepth q

/-- The working slot of a round (R256). -/
def boomSlot (q : Queue) (r : BitVec 16) : BoomSlot := tget BoomSlot.zero q.slots (boomIx q r)

/-- R256: a contribution for the round is taken: the round is in the window and not complete. -/
def boomTakes (q : Queue) (r : BitVec 16) : Bool :=
  decide ((r - q.next).toNat < boomDepth q) && decide ((boomSlot q r).count < boomCount q)

/-- R257: one element combined exactly. -/
def boomMix (op w : Nat) (a b : Int) : Int :=
  match op with
  | 0 => a + b
  | 1 => max a b
  | 2 => min a b
  | _ => signed w (unsigned w a ||| unsigned w b)

/-- R256: a contribution combined into its round's slot. -/
def boomAdd (q : Queue) (r : BitVec 16) (vs : List Int) : Queue :=
  let b := boomSlot q r
  let vals := if b.count = 0 then vs else List.zipWith (boomMix (boomOp q) (boomBits q)) b.vals vs
  { q with slots := tput BoomSlot.zero q.slots (boomIx q r) ⟨b.count + 1, vals⟩, nops := q.nops + 1 }

/-- R257: the entry of a completed round. -/
def boomEntry (q : Queue) : List Word :=
  let w := boomBits q
  let vals := (boomSlot q q.next).vals
  let hi : Int := 2 ^ (w - 1) - 1
  let lo : Int := -(2 ^ (w - 1))
  let bytes := vals.flatMap fun v => leBytes (w / 8) (unsigned w (if v > hi then hi else if v < lo then lo else v))
  let sat := ((vals.zipIdx).map fun p => bitAt (decide (p.1 > hi) || decide (p.1 < lo)) p.2).sum
  ((below 7).map fun i => wd (leNat ((bytes.drop (8 * i)).take 8))) ++ [wd (q.next.toNat * 2 ^ 48 + sat)]

/-- R256: round NEXT is complete. -/
def boomReady (q : Queue) : Bool := q.valid && q.kind == 2 && boomCount q == (boomSlot q q.next).count

/-- R258: working slots that the core's Booms take, one queue left out. -/
def boomSlotsUsed (k : Core) (qn : Nat) : Nat :=
  (k.un.queues.map fun p => if p.1 != qn && p.2.valid && p.2.kind == 2 then boomDepth p.2 else 0).sum

/-! ### Narrow accesses (R167, R250) -/

/-- The value of a loaded register: zero or sign extended (Table 07.7). -/
def loadValue (size : Nat) (sext : Bool) (v : Nat) : Word :=
  if sext then wd (unsigned 64 (signed (8 * size) v)) else wd (v % 2 ^ (8 * size))

/-- The outstanding narrow access of a tag, removed. -/
def dropNarrow (k : Core) (t : Nat) : Core := modUn k fun u => { u with narrows := u.narrows.filter fun o => o.tag != t }

/-- The context past its narrow access: READY at the next instruction. -/
def narrowReady (x : Ctx) : Ctx := { makeReady x with pc := x.pc + 8 }

/-- R250: a narrow access that ends without effect, with an entry of KIND 5 in q63. -/
def narrowNoEffect (s : State) (l : Lcid) (st : Status) (a : Word) : State :=
  postQ63 s l (complWords s st 5 0 0 0 a none)

/-- R250: the answer of a narrow access: data or acknowledgement, or the status it ends with. The DETAIL of a PERM at completion is the address, as
R250 has it, though Table 06.8 names the instruction word (log entry 18, DEDUCED). -/
def narrowAnswer (s : State) (l : Lcid) (o : NarrowOut) (st : Status) (v : Nat) : State :=
  let s := modCore s l fun k => dropNarrow k o.tag
  if o.dead then s
  else if st = sOK || st = sRETRIED then
    modCtxOf s l o.ctx fun x => narrowReady (if o.load then writeG x o.gs.toNat (loadValue o.size o.sext v) else x)
  else if st = sPOISON || st = sVACANT || st = sPERM || st = sBOUNDS then
    precise s l o.ctx st 0 o.addr
  else modCtxOf (narrowNoEffect s l st o.addr) l o.ctx narrowReady

/-- A new tag of the core. -/
def newTag (k : Core) : Nat := k.un.tag

/-- The core with its tag counter moved on. -/
def bumpTag (k : Core) : Core := modUn k fun u => { u with tag := u.tag + 1 }

end Sys2Proof.Machine
end

