-- ==== Sys2Proof/Machine/Packets.lean ====
section
/-! DEFINITION. Packets: who sends, replies to requests, the messages' acceptances and bounces, the order of arrivals
(09_messages_and_queues.md, 11_mesh_and_reduction.md). -/

namespace Sys2Proof.Machine

/-- Where a packet is sent from: a position, a grove's own unit, or a Landing endpoint. -/
inductive Side where
  | pos (l : Lcid)
  | unit (dg : Dg)
  | ep (e : Nat)
deriving DecidableEq, Repr

/-- The grove of a side; an endpoint's first home router. -/
def sideDg : Side → Dg
  | .pos l => dgOf l
  | .unit dg => dg
  | .ep e => (homeRouters e).headD 0

/-- A packet placed at a Landing endpoint. -/
def pushLanding (s : State) (e : Nat) (p : Pkt) : State :=
  { s with landing := tput [] s.landing e (tget [] s.landing e ++ [p]) }

/-- A packet sent from a side. -/
def sendVia (s : State) (f : Side) (p : Pkt) : State :=
  match f with
  | .pos l => sendFrom s l p
  | .unit dg => sendUnit s dg p
  | .ep e => sendLanding s e p

/-- A packet sent from a side to another device; an endpoint reaches the entry port over the Landing ring (R31, R332). -/
def sendFar (s : State) (f : Side) (p : Pkt) (did : Did) (src : Lcid) (dst : Option Lcid) : State :=
  match p.toPort s (sideDg f) did src dst with
  | some q =>
    match f with
    | .ep e => pushLanding s q.ep { q with sep := e, tick := now s }
    | _ => sendVia s f q
  | none => s

/-- The position number of a side, 0 where it is none. -/
def sidePos : Side → Nat
  | .pos l => posOf l
  | .unit _ | .ep _ => 0

/-- The packet addressed to a Landing endpoint: through the home router that R368 names for the PCIe controller, through the router
nearest to the side for the others. -/
def toEndpoint (s : State) (f : Side) (e : Nat) (p : Pkt) : Pkt :=
  let near := ((nearest s (sideDg f) e).map Prod.snd).getD (sideDg f)
  p.toEp e (if e = epPcie then (homeFor s e (sideDg f) 0).getD near else near) (secondLink e p.addr (sidePos f))

/-- R300: the answer to a request: its tag returned, to the requester. -/
def reply (s : State) (f : Side) (req p : Pkt) : State :=
  let p := { p with tag := req.tag, sctx := req.sctx, addr := req.addr, part := req.part }
  match req.fab with
  | some r => sendFar s f p r.srcDid (r.dstLcid.getD 0) (some r.srcLcid)
  | none =>
    if req.sep = 23 then sendVia s f (p.toCore (lcidOf req.src req.spos.toNat))
    else if req.sep = 22 then sendVia s f (p.toUnit req.src)
    else sendVia s f (toEndpoint s f req.sep p)

/-- R300: a response status in ARG0[63:56]. -/
def statusWord (st : Status) : Word := wd (st.toNat * 2 ^ 56)

/-- The status that a response carries. -/
def pktStatus (p : Pkt) : Status := BitVec.ofNat 8 (fld p.arg0 56 8)

/-! ### Arrivals -/

/-- R305: an earlier packet of the same source, virtual channel and destination is not yet taken. -/
def earlier (s : State) (p : Pkt) : Bool :=
  s.groves.any fun g => (g.2.queued ++ g.2.arrived).any fun q =>
    q.seq < p.seq && vcOf q.kind == vcOf p.kind && q.src == p.src && q.spos == p.spos && q.sep == p.sep && q.dst == p.dst
      && q.exit == p.exit && q.dpos == p.dpos

/-- The key of a packet's source in a grove's list of counts taken; a Landing endpoint is one source at all its routers. -/
def srcKey (p : Pkt) : Nat := (((if p.srcl then 0 else p.src.toNat) * 32 + p.sep) * 16 + p.spos.toNat) * 4 + vcOf p.kind

/-- R305: a resent packet that was already taken within the last 256 from its source. -/
def takenBefore (g : Grove) (p : Pkt) : Bool := p.retried && (tget [] g.seqRx (srcKey p)).contains p.seq

/-- R305: a packet noted as taken. -/
def noteTaken (g : Grove) (p : Pkt) : Grove :=
  let l := tget [] g.seqRx (srcKey p) ++ [p.seq]
  { g with seqRx := tput [] g.seqRx (srcKey p) (l.drop (l.length - 256)) }

/-- A list without the first element that satisfies `f`, and that element. -/
def takeFirst {α : Type} (f : α → Bool) : List α → Option (α × List α)
  | [] => none
  | a :: r => if f a then some (a, r) else (takeFirst f r).map fun q => (q.1, a :: q.2)

/-- The first packet that has arrived at a grove's positions or unit and satisfies `f`, taken. -/
def takeArrived (s : State) (dg : Dg) (f : Pkt → Bool) : Option (Pkt × State) :=
  (takeFirst f (getGrove s dg).arrived).map fun q => (q.1, modGrove s dg fun g => { g with arrived := q.2 })

/-- The first packet waiting at a Landing endpoint that satisfies `f`, taken. -/
def takeLanding (s : State) (e : Nat) (f : Pkt → Bool) : Option (Pkt × State) :=
  (takeFirst f (tget [] s.landing e)).map fun q => (q.1, { s with landing := tput [] s.landing e q.2 })

/-! ### Acceptances and bounces (R248, R250) -/

/-- The sender's LCID in a header (Table 09.1). -/
def hdrLcid (h : Hdr) : Lcid := BitVec.ofNat 12 (fld h.w1 9 12)

/-- The sender's DID in a header. -/
def hdrDid (h : Hdr) : Did := BitVec.ofNat 15 (fld h.w1 21 15)

/-- Fields of a header (Table 09.1). -/
def hdrClass (h : Hdr) : Nat := fld h.w1 53 2
def hdrLen (h : Hdr) : Nat := fld h.w1 36 10
def hdrNotify (h : Hdr) : Bool := bit h.w1 51
def hdrHost (h : Hdr) : Bool := bit h.w1 56
def hdrQn (h : Hdr) : Nat := fld h.w0 0 6
def hdrHidx (h : Hdr) : BitVec 12 := BitVec.ofNat 12 (fld h.w0 9 12)
def hdrDst (h : Hdr) : Lcid := BitVec.ofNat 12 (fld h.w0 21 12)

/-- HOSTREF of a host message's header (Table 09.1). -/
def hdrRef (h : Hdr) : Nat := fld h.w3 0 32

/-- A message sent on another device. -/
def farMsg (s : State) (m : Msg) : Bool := hasDid s && hdrDid m.h != ownDid s

/-- A message's outcome sent to its sender: to q63 or CQ of the core that SRC names, or to the PCIe controller for a host
message (R248). -/
def answerMsg (s : State) (f : Side) (m : Msg) (st : Status) (kind : Nat) : State :=
  let p : Pkt := { Pkt.blank with kind := 5, tag := m.mid, arg0 := statusWord st, msg := some { m with data := [] }
                                  part := (partOf s (dgOf (hdrDst m.h))).getD m.part
                                  data := wordBytes (complWords s st kind 0 0 0 0 (some m.h)) }
  if farMsg s m then sendFar s f p (hdrDid m.h) (hdrDst m.h) (some (hdrLcid m.h))
  else if hdrHost m.h then sendVia s f (toEndpoint s f epPcie p)
  else sendVia s f (p.toCore (hdrLcid m.h))

/-- A message bounced (R248). -/
def bounce (s : State) (f : Side) (m : Msg) (st : Status) : State := answerMsg s f m st 3

/-- A message bounced by the core that it addresses, counted in BOUNCES (Table 09.14). -/
def coreBounce (s : State) (l : Lcid) (m : Msg) (st : Status) : State :=
  let s := modCore s l fun k => modUn k fun u => { u with bounces := BitVec.ofNat 16 (satAdd 16 u.bounces.toNat 1) }
  bounce s (.pos l) m st

/-- The record of an outstanding SEND dropped at its sender. -/
def dropSent (s : State) (l : Lcid) (mid : Nat) : State :=
  modCore s l fun k => modUn k fun u => { u with sent := u.sent.filter fun o => o.msg.mid != mid }

/-- R250, R332: a message accepted, with RETRIED_OK if it had been sent again. The outcome travels where an entry, the host or another device awaits
it. -/
def acceptMsg (s : State) (l : Lcid) (m : Msg) : State :=
  if hdrNotify m.h || hdrHost m.h || farMsg s m then answerMsg s (.pos l) m (if m.again then sRETRIED else sOK) 0 else dropSent s (hdrLcid m.h) m.mid

end Sys2Proof.Machine
end

