-- ==== Sys2Proof/Machine/Functions.lean ====
section
/-! DEFINITION. Function evaluation (05_vector_engine.md R156): the exact cases, the special results, and the intermediate result R
elsewhere, which the spec bounds and does not state: a free value within the bound of Table 05.5. -/

namespace Sys2Proof.Machine

/-! ### Values of the functions, as fixed-point numbers with `fp` fraction bits -/

/-- Fraction bits. What the series and the roundings below lose stays under 2^-60, far below any bound of Table 05.5. -/
def fp : Nat := 160

/-- ln 2. -/
def fpLn2 : Nat := 1013035739299659071135698605846798551586536899366

/-- 2 / √π. -/
def fpErf : Nat := 1649128000240172121335468122222580532118151184855

/-- A product. -/
def fpMul (a b : Nat) : Nat := a * b / 2 ^ fp

/-- A quotient. -/
def fpDiv (a b : Nat) : Nat := a * 2 ^ fp / b

/-- `n` more terms of a sum, of which the `k`th is `step k` of the one before. -/
def fpSum (step : Nat → Nat → Nat) : Nat → Nat → Nat → Nat
  | 0, _, _ => 0
  | n + 1, k, t => t + fpSum step n (k + 1) (step k t)

/-- 2^f for f below 1: the exponential series of f ln 2. -/
def fpExp2 (f : Nat) : Nat :=
  let z := fpMul f fpLn2
  min (fpSum (fun k t => fpMul t z / (k + 1)) 48 0 (2 ^ fp)) (2 ^ (fp + 1) - 1)

/-- log2 (1 + z) of s = 2^k (1 + z): the series of artanh ((s - 2^k) / (s + 2^k)). -/
def fpLog2 (s k : Nat) : Nat :=
  let t := fpDiv (s - 2 ^ k) (s + 2 ^ k)
  let u := fpMul t t
  fpDiv (2 * fpSum (fun i v => fpMul v u * (2 * i + 1) / (2 * i + 3)) 64 0 t) fpLn2

/-- e^-y; below every bit from y = 128 on. -/
def fpExpNeg (y : Nat) : Nat :=
  if 2 ^ (fp + 7) ≤ y then 0
  else
    let z := fpDiv y fpLn2
    fpExp2 ((2 ^ fp - z % 2 ^ fp) % 2 ^ fp) / 2 ^ ((z + 2 ^ fp - 1) / 2 ^ fp)

/-- erf x for x below 8: 2/√π x e^(-x²) Σ (2x²)^n / (2n + 1)!!. -/
def fpErfOf (x : Nat) : Nat :=
  let u := fpMul x x
  fpMul (fpMul fpErf (fpExpNeg u)) (fpSum (fun k t => fpMul t (2 * u) / (2 * k + 3)) 420 0 x)

/-- The integer square root, by its `n` low bits from `r` on. -/
def sqrtBits (v : Nat) : Nat → Nat → Nat
  | 0, r => r
  | n + 1, r => sqrtBits v n (if (r + 2 ^ n) * (r + 2 ^ n) ≤ v then r + 2 ^ n else r)

/-- |s| 2^x as a fixed-point number, at most 2^8. -/
def fpOf (s : Nat) (x : Int) : Nat :=
  if 8 < (Nat.log2 s : Int) + x then 2 ^ (fp + 8)
  else if 0 ≤ x + fp then s * 2 ^ (x + fp).toNat else s / 2 ^ (-(x + fp)).toNat

/-- A number scaled so that its significand has `fp + 1` bits. -/
def fpNorm (m : Nat) (q : Int) : Int × Int :=
  let k := Nat.log2 m
  if k ≤ fp then (m * 2 ^ (fp - k), q - (fp - k : Nat)) else (m / 2 ^ (k - fp), q + (k - fp : Nat))

/-- f(x) at x = s 2^x, outside the exact cases of Table 05.5, as `m * 2^q`. -/
def fnValue (f : Nat) (s x : Int) : Int × Int :=
  let a := s.natAbs
  let sg : Int := if s < 0 then -1 else 1
  match f with
  | 0 =>
    let i := s / 2 ^ (-x).toNat
    (fpExp2 ((s % 2 ^ (-x).toNat).toNat * 2 ^ fp / 2 ^ (-x).toNat), i - fp)
  | 1 => ((x + Nat.log2 a) * 2 ^ fp + fpLog2 a (Nat.log2 a), -(fp : Int))
  | 2 =>
    let v := fpNorm (2 ^ (2 * fp + 64) / a) (-(2 * fp + 64 : Nat) - x)
    (sg * v.1, v.2)
  | 3 =>
    let b := if x % 2 = 0 then a else 2 * a
    let n := fp + 64
    fpNorm (sqrtBits (2 ^ (2 * n) / b) n 0) (-(n : Int) - (x - x % 2) / 2)
  | 4 =>
    let e := fpExpNeg (2 * fpOf a x)
    (sg * fpDiv (2 ^ fp - e) (2 ^ fp + e), -(fp : Int))
  | 5 =>
    let e := fpExpNeg (fpOf a x)
    (fpDiv (if s < 0 then e else 2 ^ fp) (2 ^ fp + e), -(fp : Int))
  | _ => (sg * if 2 ^ (fp + 3) ≤ fpOf a x then 2 ^ fp else fpErfOf (fpOf a x), -(fp : Int))

/-- Table 05.5: the bound on |R - f(x)| as the table states it, in units of 2^-fp: relative for exp2, recip and rsqrt, absolute for the others. -/
def fnStated (f : Nat) : Nat :=
  match f with
  | 0 | 3 => 2 * 2 ^ (fp - 23)
  | 2 => 2 ^ (fp - 23)
  | 1 => 16 * 2 ^ (fp - 24)
  | 4 | 5 => 4 * 2 ^ (fp - 24)
  | _ => 8 * 2 ^ (fp - 24)

/-- `c * 2^t` lies within `b * 2^q` of `m * 2^q`. -/
def within (c t m q : Int) (b : Nat) : Bool :=
  if q ≤ t then decide ((c * 2 ^ (t - q).toNat - m).natAbs ≤ b)
  else decide ((c - m * 2 ^ (q - t).toNat).natAbs ≤ b * 2 ^ (q - t).toNat)

/-- `m * 2^q` rounded to 24 bits, to the nearest. -/
def round24 (m q : Int) : Num :=
  let k := bitlen m - 24
  if k = 0 then fin' m q else fin' (m.sign * ((m.natAbs + 2 ^ (k - 1)) / 2 ^ k : Nat)) (q + k)

/-- Table 05.5: the bound for f(x) = m 2^q, in units of 2^q: the stated one. Only where no 24-bit significand at all lies within it, as at a log2
of 32 or more that falls between two of them, is it one unit of R's last place (log entry 4, DESIGN CHOICE). -/
def fnBound (f : Nat) (m q : Int) : Nat :=
  let r := round24 m q
  if within r.s r.x m q (fnStated f) then fnStated f else 2 ^ (Nat.log2 m.natAbs - 23)

/-- A finite value with an odd significand, 0 as `0 * 2^0`: R depends only on the value of x. -/
def oddForm (v : Num) : Int × Int :=
  if v.s = 0 then (0, 0)
  else
    let p := Nat.gcd v.s.natAbs (2 ^ bitlen v.s)
    (v.s / (p : Int), v.x + (Nat.log2 p : Int))

/-- R156: the intermediate result R: any 24-bit significand within the bound, as the tables of version `ver` give it (log entry 4, DESIGN
CHOICE). -/
def fnFree (ver f : Nat) (s x : Int) : Num :=
  let v := fnValue f s x
  let c := Int.tmod (Config.fnSig ver f s x) (2 ^ 24)
  let t := Config.fnExp ver f s x
  if within c t v.1 v.2 (fnBound f v.1 v.2) then fin' c t else round24 v.1 v.2

/-- Table 05.5: FN of one exact element, by the tables of a version. -/
def fnEval (ver f : Nat) (v : Num) : Num :=
  match v.cls with
  | .nan => spec' .nan
  | .pinf =>
    match f with
    | 0 | 1 => spec' .pinf
    | 2 | 3 => zero'
    | _ => fin' 1 0
  | .ninf =>
    match f with
    | 0 | 2 | 5 => zero'
    | 1 | 3 => spec' .nan
    | _ => fin' (-1) 0
  | .fin =>
    let (s, x) := oddForm v
    match f with
    | 0 => if 0 ≤ x then fin' 1 (s * 2 ^ x.toNat) else fnFree ver f s x
    | 1 => if s = 0 then spec' .ninf else if s < 0 then spec' .nan else if s = 1 then fin' x 0 else fnFree ver f s x
    | 2 => if s = 0 then spec' .pinf else if s = 1 then fin' 1 (-x) else fnFree ver f s x
    | 3 => if s = 0 then spec' .pinf else if s < 0 then spec' .nan
      else if s = 1 ∧ x % 2 = 0 then fin' 1 (-(x / 2)) else fnFree ver f s x
    | 5 => if s = 0 then fin' 1 (-1) else fnFree ver f s x
    | _ => if s = 0 then zero' else fnFree ver f s x

end Sys2Proof.Machine
end

