-- ==== Sys2Proof/Machine/Mill.lean ====
section
/-! DEFINITION. Class 4 and the Mill: claims, descriptors, the Mill queue, completion and faults of its operations
(04_mill.md). -/

namespace Sys2Proof.Machine

/-! ### Claims (R106 to R109) -/

/-- Every resource of the mask is unclaimed or the context's own (R107). -/
def claimable (t : Tbl (Option CtxNo)) (c : CtxNo) (m : Nat) : Bool :=
  (below 8).all fun i => !m.testBit i || tget none t i == none || tget none t i == some c

/-- Every resource of the mask is held by the context (R109). -/
def holdsAll (t : Tbl (Option CtxNo)) (c : CtxNo) (m : Nat) : Bool :=
  (below 8).all fun i => !m.testBit i || tget none t i == some c

/-- R107, R108: the resources of the masks claimed: new ones cleared, pending releases withdrawn. -/
def claimAll (e : Engines) (c : CtxNo) (tm am : Nat) : Engines :=
  (below 8).foldl (fun e i =>
    let e :=
      if !tm.testBit i then e
      else if tget none e.tdOwner i == some c then { e with relTd := tput 0 e.relTd i 0 }
      else { e with tdOwner := setOwner e.tdOwner i (some c), td := tput TileDesc.zero e.td i TileDesc.zero }
    if !am.testBit i then e
    else if tget none e.accOwner i == some c then { e with relAcc := tput 0 e.relAcc i 0 }
    else { e with accOwner := setOwner e.accOwner i (some c), acc := tput [] e.acc i [] }) e

/-- A Mill operation of a context on a descriptor or accumulator, issued before `iss`, is still queued. -/
def millUses (e : Engines) (c : CtxNo) (iss : Nat) (td : Option Nat) (acc : Option Nat) : Bool :=
  e.millq.any fun o => o.ctx == c && decide (o.iss < iss) &&
    ((match td with | some i => o.tds.contains i | none => false) || acc == some o.acc.toNat)

/-- R108: pending releases whose earlier Mill operations have ended take effect. -/
def settleReleases (e : Engines) : Engines :=
  (below 8).foldl (fun e i =>
    let r := tget 0 e.relTd i
    let e := match r, tget none e.tdOwner i with
      | n + 1, some c =>
        if millUses e c n (some i) none then e
        else { e with tdOwner := setOwner e.tdOwner i none, relTd := tput 0 e.relTd i 0 }
      | _, _ => e
    match tget 0 e.relAcc i, tget none e.accOwner i with
    | n + 1, some c =>
      if millUses e c n none (some i) then e
      else { e with accOwner := setOwner e.accOwner i none, relAcc := tput 0 e.relAcc i 0 }
    | _, _ => e) e

/-- R108: releases of the masks put on, those with no earlier operation effective at once. -/
def releaseAll (e : Engines) (tm am : Nat) : Engines :=
  settleReleases ((below 8).foldl (fun e i =>
    let e := if tm.testBit i then { e with relTd := tput 0 e.relTd i (e.issued + 1) } else e
    if am.testBit i then { e with relAcc := tput 0 e.relAcc i (e.issued + 1) } else e) e)

/-- MCLAIM (R107). -/
def doMclaim (l : Lcid) (c : CtxNo) (b : BitVec 54) (s : State) : State :=
  issue s l c 0x100 b 1 (onlyFields b [(47, 3), (8, 8), (0, 8)]) anyRoom fun s =>
    let e := (getCore s l).eng
    let tm := fld b 8 8
    let am := fld b 0 8
    let ok := claimable e.tdOwner c tm && claimable e.accOwner c am
    let s := if ok then modCore s l fun k => modEng k fun e => claimAll e c tm am else s
    finish s l c fun x =>
      let x := if ok then { x with defTd := x.defTd &&& ~~~(BitVec.ofNat 8 tm), defAcc := x.defAcc &&& ~~~(BitVec.ofNat 8 am) }
        else x
      writeP x (fld b 47 3) ok

/-- MREL (R108, R109): deferred from a context's first record to its next RING (R482). -/
def doMrel (l : Lcid) (c : CtxNo) (b : BitVec 54) (s : State) : State :=
  issue s l c 0x101 b 1 (onlyFields b [(8, 8), (0, 8)]) anyRoom fun s =>
    let e := (getCore s l).eng
    let tm := fld b 8 8
    let am := fld b 0 8
    if !(holdsAll e.tdOwner c tm && holdsAll e.accOwner c am) then precise s l c sPERM 1 (insWord 0x101 b)
    else if (ctxOf s l c).hasRec then
      finish s l c fun x => { x with defTd := x.defTd ||| BitVec.ofNat 8 tm, defAcc := x.defAcc ||| BitVec.ofNat 8 am }
    else advance (modCore s l fun k => modEng k fun e => releaseAll e tm am) l c

/-! ### Descriptors -/

/-- Bytes per line per dot group, none for a format that the Mill does not read (Table 04.2). -/
def lineBytes (f : Nat) : Option Nat :=
  match f with
  | 0 | 1 => some 64
  | 3 => some 16
  | 4 => some 32
  | 5 => some 48
  | _ => none

/-- A descriptor format with a scale. -/
def sbFormat (f : Nat) : Bool := f == 3 || f == 4 || f == 5

/-- R110: a descriptor from the words of its image, or the status that it raises. -/
def tdOf (w0 w1 w2 w3 : Word) : Except Status TileDesc :=
  if fld w2 53 11 ≠ 0 ∨ fld w2 21 11 ≠ 0 ∨ fld w3 4 60 ≠ 0 then .error sRSVD
  else if fld w0 21 43 ≠ 0 ∨ fld w1 21 43 ≠ 0 then .error sRSVD
  else if (lineBytes (fld w3 0 4)).isNone then .error sRSVD
  else if fld w0 0 4 ≠ 0 ∨ fld w2 0 4 ≠ 0 then .error sALIGN
  else .ok ⟨w0, w1, BitVec.ofNat 21 (fld w2 32 21), BitVec.ofNat 21 (fld w2 0 21), BitVec.ofNat 4 (fld w3 0 4)⟩

/-- TDLD (R109, R110). -/
def doTdld (l : Lcid) (c : CtxNo) (b : BitVec 54) (s : State) : State :=
  issue s l c 0x102 b 1 (onlyFields b [(47, 3), (43, 4)]) anyRoom fun s =>
    let k := getCore s l
    let i := fld b 47 3
    let a := gAt (getCtx k c) b 43
    if tget none k.eng.tdOwner i ≠ some c then precise s l c sPERM 1 (insWord 0x102 b)
    else match ownOff a with
    | none => precise s l c sBOUNDS 1 a
    | some o =>
      if o % 32 ≠ 0 then precise s l c sALIGN 1 a
      else if (poisonAt k.sp o 32).isSome then precise s l c sPOISON 1 a
      else match tdOf (slWord k.sp o) (slWord k.sp (o + 8)) (slWord k.sp (o + 16)) (slWord k.sp (o + 24)) with
        | .error st => precise s l c st 1 (if st = sRSVD then insWord 0x102 b else a)
        | .ok t => advance (modCore s l fun k => modEng k fun e => { e with td := tput TileDesc.zero e.td i t }) l c

/-! ### Issue of Mill operations -/

/-- R115: the Mill queue has room. -/
def millRoom (k : Core) : Bool := decide (k.eng.millq.length < 16)

/-- A Mill operation entered in the queue. -/
def millEnter (e : Engines) (o : MillOp) : Engines :=
  { e with millq := e.millq ++ [{ o with iss := e.issued }], issued := e.issued + 1 }

/-- MZERO (R109, R120). -/
def doMzero (l : Lcid) (c : CtxNo) (b : BitVec 54) (s : State) : State :=
  issue s l c 0x103 b 1 (onlyFields b [(47, 3)]) millRoom fun s =>
    let k := getCore s l
    let a := fld b 47 3
    if tget none k.eng.accOwner a ≠ some c then precise s l c sPERM 1 (insWord 0x103 b)
    else
      let o : MillOp := { ctx := c, pc := (getCtx k c).pc, iss := 0, acc := BitVec.ofNat 3 a, tds := [], mma := none }
      advance (modCore s l fun k => modEng k fun e => millEnter e o) l c

/-- Format pairs that the Mill accepts (Table 04.3). -/
def pairOk (fa fb : Nat) : Bool :=
  (fa == fb && (lineBytes fa).isSome) || (fa == 4 && fb == 3) || (fa == 3 && fb == 4)

/-- R114 steps 3 and 4: the first bounds fault of an MMA over `g` groups, with its address. -/
def mmaBounds (ta tb : TileDesc) (g : Nat) : Option Word :=
  let past := fun (t : TileDesc) =>
    decide (sliceBytes < t.data.toNat + 31 * t.lstride.toNat + g * ((lineBytes t.fmt.toNat).getD 0))
  let pastS := fun (t : TileDesc) =>
    sbFormat t.fmt.toNat && decide (sliceBytes < t.scale.toNat + 31 * t.sstride.toNat + g)
  if past ta then some ta.data else if past tb then some tb.data
  else if pastS ta then some ta.scale else if pastS tb then some tb.scale else none

/-- R112: a descriptor advanced by `g` groups. -/
def advanceTd (t : TileDesc) (g : Nat) : TileDesc :=
  { t with data := t.data + wd (g * ((lineBytes t.fmt.toNat).getD 0))
           scale := if sbFormat t.fmt.toNat then t.scale + wd g else t.scale }

/-- R112: the descriptors whose advance flag is set, each advanced once. -/
def advanceAll (e : Engines) (ids : List Nat) (g : Nat) : Engines :=
  ids.foldl (fun e i => { e with td := tput TileDesc.zero e.td i (advanceTd (tget TileDesc.zero e.td i) g) }) e

/-- MMA (R105, R112, R114). -/
def doMma (l : Lcid) (c : CtxNo) (b : BitVec 54) (s : State) : State :=
  issue s l c 0x104 b 1 (onlyFields b [(47, 3), (44, 3), (41, 3), (33, 8), (32, 1), (31, 1)]) millRoom fun s =>
    let k := getCore s l
    let e := k.eng
    let a := fld b 47 3
    let ia := fld b 44 3
    let ib := fld b 41 3
    let g := fld b 33 8 + 1
    let ta := tget TileDesc.zero e.td ia
    let tb := tget TileDesc.zero e.td ib
    if tget none e.tdOwner ia ≠ some c ∨ tget none e.tdOwner ib ≠ some c ∨ tget none e.accOwner a ≠ some c then
      precise s l c sPERM 1 (insWord 0x104 b)
    else if !pairOk ta.fmt.toNat tb.fmt.toNat then precise s l c sRSVD 1 (insWord 0x104 b)
    else match mmaBounds ta tb g with
    | some w => precise s l c sBOUNDS 1 w
    | none =>
      let o : MillOp := { ctx := c, pc := (getCtx k c).pc, iss := 0, acc := BitVec.ofNat 3 a, tds := [ia, ib]
                          mma := some (ta, tb, g) }
      let ids := (if bit b 32 then [ia] else []) ++ if bit b 31 && !(bit b 32 && ia == ib) then [ib] else []
      advance (modCore s l fun k => modEng k fun e => advanceAll (millEnter e o) ids g) l c

/-- MWAIT (R129). -/
def doMwait (l : Lcid) (c : CtxNo) (b : BitVec 54) (s : State) : State :=
  issue s l c 0x105 b 1 (onlyFields b []) anyRoom fun s =>
    let w := millPend (getCore s l) c
    finish s l c fun x => if w then makeWait x .mill none else x

/-! ### Execution -/

/-- One line of 32 elements of group `j` (R111, R117). -/
def tdLine (sl : Slice) (t : TileDesc) (j i : Nat) : List Num :=
  let f := (fmtOf t.fmt.toNat).getD .bf16
  let n := (lineBytes t.fmt.toNat).getD 0
  let a := t.data.toNat + i * t.lstride.toNat + j * n
  if sbFormat t.fmt.toNat then
    let e := (rdByte sl.mem (t.scale.toNat + i * t.sstride.toNat + j)).toNat
    let v := rdNum sl.mem a n
    (below 32).map (sbNum (fmtBits f) e v)
  else (below 32).map fun i => rawNum f (rdNum sl.mem (a + 2 * i) 2)

/-- The group's data or scales of a descriptor meet a poisoned chunk. -/
def tdPoison (sl : Slice) (t : TileDesc) (j : Nat) : Bool :=
  let n := (lineBytes t.fmt.toNat).getD 0
  !sl.bad.isEmpty && (below 32).any fun i =>
    (poisonAt sl (t.data.toNat + i * t.lstride.toNat + j * n) n).isSome ||
    (sbFormat t.fmt.toNat && (poisonAt sl (t.scale.toNat + i * t.sstride.toNat + j) 1).isSome)

/-- A row of the tile is poisoned (R133). -/
def tilePoison (t : Tbl AccRow) : Bool := t.any fun p => p.2.poison

/-- Groups `j` to `j + n - 1` of an MMA: the tile, the record, and the group at which poison ends it (R128, R131). Every operand slot is read
as it stands when the operation completes: of the contents that R130 leaves open, always the newest (log entry 100, DESIGN CHOICE). -/
def mmaRun (sl : Slice) (ta tb : TileDesc) : Nat → Nat → Tbl AccRow → Rec → Tbl AccRow × Rec × Option Nat
  | 0, _, t, r => (t, r, none)
  | n + 1, j, t, r =>
    if tilePoison t || tdPoison sl ta j || tdPoison sl tb j then (t, r, some j)
    else
      let o := millGroup t ((below 32).map (tdLine sl ta j)) ((below 32).map (tdLine sl tb j)) r
      mmaRun sl ta tb n (j + 1) o.1 o.2

/-- A VE operation of the context, issued before `iss`, is queued (R99, R129). -/
def veBefore (e : Engines) (c : CtxNo) (iss : Nat) : Bool := e.veq.any fun v => v.ctx == c && decide (v.iss < iss)

/-- A Mill operation of the context, issued before `iss`, is queued. -/
def millBefore (e : Engines) (c : CtxNo) (iss : Nat) : Bool := e.millq.any fun o => o.ctx == c && decide (o.iss < iss)

/-- The accumulators that a VE operation names. -/
def veAccs (v : VeOp) : List Nat := accsOf [v.d, v.a, v.b, v.c]

/-- R129, R179: the operation at the front of the VE queue has begun. -/
def veBegun (e : Engines) : Bool :=
  match e.veq with
  | v :: _ => !e.millq.any fun o => o.ctx == v.ctx && decide (o.iss < v.iss) && (veAccs v).contains o.acc.toNat
  | [] => false

/-- R129, R179: the operation at the front of the Mill queue has begun. -/
def millBegun (e : Engines) : Bool :=
  match e.millq with
  | o :: _ => !e.veq.any fun v => v.ctx == o.ctx && decide (v.iss < o.iss) && (veAccs v).contains o.acc.toNat
  | [] => false

/-- A queue with a context's operations removed, its front kept where it has begun. -/
def keepBegun {α : Type} (begun : Bool) (mine : α → Bool) : List α → List α
  | [] => []
  | o :: r => if begun then o :: r.filter (fun x => !mine x) else (o :: r).filter fun x => !mine x

/-- The context's waits, releases and end after an engine operation of it ended. -/
def engineEnd (s : State) (l : Lcid) (c : CtxNo) : State :=
  settle (modCore s l fun k => modEng k settleReleases) l c

/-- R131, R178, R179: the front Mill operation ends in a fault at group `j`; the waiting operations of its context leave
both queues, and the context enters FAULTED. Where it is FAULTED already, those of this engine alone leave. -/
def millFault (s : State) (l : Lcid) (o : MillOp) (cause : Status) (j : Nat) : State :=
  let again := effSt (ctxOf s l o.ctx) = .faulted
  let s := modCore s l fun k => modEng k fun e =>
    { e with millq := e.millq.tail.filter fun x => x.ctx != o.ctx
             veq := if again then e.veq else keepBegun (veBegun e) (fun v => v.ctx == o.ctx) e.veq }
  engineEnd (faultCtx s l o.ctx cause true 1 o.pc (wd j)) l o.ctx

/-- The state with an accumulator's tile replaced. -/
def setTile (s : State) (l : Lcid) (a : Nat) (t : Tbl AccRow) : State :=
  modCore s l fun k => modEng k fun e => { e with acc := tput [] e.acc a t }

/-- R116: the front Mill operation carried out: its tile and record written, or its fault at the poisoned group. -/
def millStep (s : State) (l : Lcid) (o : MillOp) : State :=
  let k := getCore s l
  let a := o.acc.toNat
  let done := fun (s : State) (t : Tbl AccRow) (r : Rec) =>
    let s := modCtxOf (setTile s l a t) l o.ctx fun x => writeRecord x r 0 7
    engineEnd (modCore s l fun k => modEng k fun e => { e with millq := e.millq.tail }) l o.ctx
  match o.mma with
  | none => done s [] rec0
  | some (ta, tb, g) =>
    match mmaRun k.sp ta tb g 0 (tget [] k.eng.acc a) rec0 with
    | (t, r, none) => done s t r
    | (t, _, some j) => millFault (setTile s l a t) l o sPOISON j

/-- MILL_OP_COMPLETE (R116, R120): the front operation, once no earlier VE operation of its context is queued. -/
def doMillOpComplete (l : Lcid) (s : State) : State :=
  let e := (getCore s l).eng
  match e.millq with
  | o :: _ => if veBefore e o.ctx o.iss then s else millStep s l o
  | [] => s

/-- R133: an uncorrectable word found at the read of an accumulator row: the row is poisoned, counted and reported. What the twin of a position finds
marks the row of the position, which the model holds once (log entry 103, DESIGN CHOICE). -/
def accUncorr (s : State) (l : Lcid) (a row : Nat) (twin : Bool) : State :=
  let t := tget [] (getCore s l).eng.acc a
  let r := tget AccRow.zero t row
  if r.poison then s
  else
    let s := setTile s l a (tput AccRow.zero t row { r with poison := true })
    raiseEv s (rptCore s l { rpt 1 sECC 2 0 (sitePsid s l twin 1) with d0 := wd (32 * a + row) }) (.accWord (sitePsid s l twin 7))

/-- R133, R563: a single-bit error of an accumulator word corrected at its read: reported, nothing else changes. -/
def accFixed (s : State) (l : Lcid) (a row : Nat) (twin : Bool) : State :=
  raise s (rptCore s l { rpt 0 sOK 0 0 (sitePsid s l twin 1) with d0 := wd (32 * a + row) })

/-- R134: a residue mismatch counted against the site that found it, and reported with the PSID of its column. -/
def residueHit (s : State) (l : Lcid) (col : Nat) (twin : Bool) : State :=
  let n := siteAt s l twin
  let psid := psidOf (dgOf l) n 1 col
  let s := modSite s (dgOf l) n fun t => { t with residue := BitVec.ofNat 16 (satAdd 16 t.residue.toNat 1) }
  raiseEv s (rptCore s l { rpt 2 sINTERNAL 1 0 psid with d0 := wd col }) (.column psid)

/-- A Mill column that carries work: one not replaced, or the spare while it is substituted (R16, R18). -/
def colWorks (t : Site) (col : Nat) : Bool :=
  if col < 32 then !t.cols.contains col else col == 32 && t.cols.length == 1 && !t.cols.contains 32

/-- R131: groups 0 to `j` - 1 of the front MMA applied, and its end in group `j`, where `note` says what was found there; poison met
before ends it first. -/
def millEndAt (s : State) (l : Lcid) (o : MillOp) (ta tb : TileDesc) (j : Nat) (cause : Status) (note : State → State) : State :=
  let k := getCore s l
  match mmaRun k.sp ta tb j 0 (tget [] k.eng.acc o.acc.toNat) rec0 with
  | (t, _, none) => millFault (note (setTile s l o.acc.toNat t)) l o cause j
  | (_, _, some _) => millStep s l o

/-- R131, R133, R134: the front operation, if it is an MMA that meets the fault. -/
def millMeets (l : Lcid) (src : MillFaultSrc) (s : State) : State :=
  let k := getCore s l
  match k.eng.millq with
  | o :: _ =>
    match o.mma with
    | none => s
    | some (ta, tb, g) =>
      let a := o.acc.toNat
      if veBefore k.eng o.ctx o.iss then s
      else match src with
      | .poison => if (mmaRun k.sp ta tb g 0 (tget [] k.eng.acc a) rec0).2.2.isSome then millStep s l o else s
      | .accWord j row twin =>
        if decide (j.toNat < g) && siteThere s l twin then millEndAt s l o ta tb j.toNat sPOISON fun s => accUncorr s l a row.toNat twin else s
      | .residue j col twin =>
        if decide (j.toNat < g) && siteThere s l twin && colWorks (tget Site.zero (getGrove s (dgOf l)).sites (siteAt s l twin)) col.toNat then
          millEndAt s l o ta tb j.toNat sINTERNAL fun s => residueHit s l col.toNat twin
        else s
      | .accFixed .. | .accSaved .. => s
  | [] => s

/-- Rows of an accumulator that a VE operation reads. -/
def rowsRead (o : VeOp) (n : Nat) : Nat :=
  [o.a, o.b, o.c].foldl (fun r v =>
    match v with
    | .acc k tr => if k.toNat = n then max r (match o.kind with | .red _ _ => 32 | _ => accRows tr o.n) else r
    | _ => r) 0

/-- R132, R133: a save reads an accumulator: that of a RING whose context holds it, or of the entry to Dormant. -/
def saveReads (s : State) (l : Lcid) (a : Nat) : Bool :=
  s.dorm.st == .entering || match tget none (getCore s l).eng.accOwner a with
    | some c => match (ctxOf s l c).wait with | .ring _ => true | _ => false
    | none => false

/-- R133: something reads a row of an accumulator: an MMA at the front that adds into it, a VE operation at the front, or a save. -/
def accRead (s : State) (l : Lcid) (a row : Nat) : Bool :=
  let e := (getCore s l).eng
  saveReads s l a ||
    (match e.millq with | o :: _ => o.mma.isSome && o.acc.toNat == a && !veBefore e o.ctx o.iss | [] => false) ||
    (match e.veq with | o :: _ => decide (row < rowsRead o a) && !millBefore e o.ctx o.iss | [] => false)

/-- MILL_OP_FAULT (R131, R133, R134): an error that a read of an accumulator finds, or a fault that ends the front operation. Errors that a
VE access corrects, or a save corrects or marks, enter here too (log entry 103, DESIGN CHOICE). -/
def doMillOpFault (l : Lcid) (src : MillFaultSrc) (s : State) : State :=
  match src with
  | .accFixed a row twin =>
    if occupied s l && siteThere s l twin && accRead s l a.toNat row.toNat then accFixed s l a.toNat row.toNat twin else s
  | .accSaved a row twin =>
    if occupied s l && siteThere s l twin && saveReads s l a.toNat then accUncorr s l a.toNat row.toNat twin else s
  | .poison | .accWord .. | .residue .. => millMeets l src s

/-! ### Meanings -/

def execMclaim (l : Lcid) (c : CtxNo) (b : BitVec 54) (s : State) : Out := .next (doMclaim l c b s)
def execMrel (l : Lcid) (c : CtxNo) (b : BitVec 54) (s : State) : Out := .next (doMrel l c b s)
def execTdld (l : Lcid) (c : CtxNo) (b : BitVec 54) (s : State) : Out := .next (doTdld l c b s)
def execMzero (l : Lcid) (c : CtxNo) (b : BitVec 54) (s : State) : Out := .next (doMzero l c b s)
def execMma (l : Lcid) (c : CtxNo) (b : BitVec 54) (s : State) : Out := .next (doMma l c b s)
def execMwait (l : Lcid) (c : CtxNo) (b : BitVec 54) (s : State) : Out := .next (doMwait l c b s)
def execMillOpComplete (l : Lcid) (s : State) : Out := .next (awake (doMillOpComplete l) s)
def execMillOpFault (l : Lcid) (src : MillFaultSrc) (s : State) : Out := .next (awake (doMillOpFault l src) s)

end Sys2Proof.Machine
end

