-- ==== Sys2Proof/Machine/Vector.lean ====
section
/-! DEFINITION. Classes 5 and 6: the vector engine's issue, execution, completion and faults (05_vector_engine.md). -/

namespace Sys2Proof.Machine

/-! ### Issue -/

/-- R157: the VE queue has room. -/
def veRoom (k : Core) : Bool := decide (k.eng.veq.length < 16)

/-- The destination format of a word of format V. -/
def fdOf (b : BitVec 54) : Fmt := (fmtOf (fld b fdAt 4)).getD .bf16

/-- The element count of R137; RED reduces 32 elements. -/
def veCount (x : Ctx) (b : BitVec 54) (m : VeForm) : Nat := if m.set = .red then 32 else (gAt x b 46).toNat

/-- The carry image of a scan, as a range (R151). -/
def carryRanges : VeKind → List VeRange
  | .scan _ _ _ (some a) => [⟨a, 16, 128, 16⟩]
  | _ => []

/-- R137, R147, R139: the operand faults after PERM, with DETAIL. -/
def veFaultAt (b : BitVec 54) (m : VeForm) (op : Nat) (o : VeOp) : Option (Status × Word) :=
  let accs := accsOf [o.d, o.a, o.b, o.c]
  if 2 ^ 25 ≤ o.n ∨ (accs ≠ [] ∧ 1024 < o.n) then some (sBOUNDS, wd o.n)
  else if m.b = .shfCtl ∧ o.n % 32 ≠ 0 then some (sRSVD, insWord op b)
  else
    let carry := carryRanges o.kind
    streamFault (slotRanges b o.n o.d m.d ++ carry)
      (slotRanges b o.n o.a m.a ++ slotRanges b o.n o.b m.b ++ slotRanges b o.n o.c m.c ++ carry)

/-- The operation that a word describes, its registers read. -/
def veOpOf (x : Ctx) (c : CtxNo) (b : BitVec 54) (m : VeForm) (kind : VeKind) : VeOp :=
  { ctx := c, pc := x.pc, iss := 0, kind := kind, n := veCount x b m, rm := (rmOf (fld b 44 2)).getD .rne
    fd := fdOf b, fa := (fmtOf (fld b faAt 4)).getD .bf16, fb := (fmtOf (fld b fbAt 4)).getD .bf16
    d := veOpd x b (fld b 24 8) m.d, a := veOpd x b (fld b 16 8) m.a
    b := veOpd x b (fld b 8 8) m.b, c := veOpd x b (fld b 0 8) m.c, seed := x.srSeed, ctr := x.srCtr }

/-- A VE operation entered in the queue. -/
def veEnter (e : Engines) (o : VeOp) : Engines :=
  { e with veq := e.veq ++ [{ o with iss := e.issued }], issued := e.issued + 1 }

/-- R95: the counter values that an operation takes at issue; a conversion that is exact for every input takes them too (log entry 98,
DEDUCED). -/
def veDraws (x : Ctx) (o : VeOp) : Ctx := if o.rm = .sr then takeDraws x (destElems o.fd o.n o.d) else x

/-- R202 to R205: the issue of a VE instruction. -/
def veIssue (op : Nat) (m : VeForm) (kind : Ctx → VeKind) (l : Lcid) (c : CtxNo) (b : BitVec 54) (s : State) : State :=
  issue s l c op b 2 (veEnc b m) veRoom fun s =>
    let k := getCore s l
    let x := getCtx k c
    let o := veOpOf x c b m (kind x)
    if (accsOf [o.d, o.a, o.b, o.c]).any fun n => tget none k.eng.accOwner n != some c then
      precise s l c sPERM 2 (insWord op b)
    else match veFaultAt b m op o with
    | some f => precise s l c f.1 2 f.2
    | none => finish (modCore s l fun k => modEng k fun e => veEnter e o) l c fun x => veDraws x o

/-- VWAIT (R157). -/
def doVwait (l : Lcid) (c : CtxNo) (b : BitVec 54) (s : State) : State :=
  issue s l c 0x18F b 2 (onlyFields b []) anyRoom fun s =>
    let w := vePend (getCore s l) c
    finish s l c fun x => if w then makeWait x .ve none else x

/-- SCL's exponent (Table 07.12). -/
def sclK (x : Ctx) (b : BitVec 54) : Int := signed 32 (readG x (fld b 8 8 / 4 % 16)).toNat

/-- The scan that a control byte describes (Table 07.12). -/
def scanKind (seg : Bool) (b : BitVec 54) (x : Ctx) : VeKind :=
  let v := fld b 0 8
  let o : ScanOp := if v / 64 = 0 then .sum else if v / 64 = 1 then .max else .min
  .scan o (v / 32 % 2 == 1) seg (if v / 16 % 2 = 1 then some (readG x (v % 16)).toNat else none)

/-- The reduction that a control byte describes (Table 07.12). -/
def redKind (b : BitVec 54) : VeKind :=
  let v := fld b 0 8
  .red (if v / 64 = 0 then .sum else if v / 64 = 1 then .max else if v / 64 = 2 then .min else .amax) (v / 32 % 2 == 1)

/-! ### What an operation computes -/

/-- A carry image (Table 05.4). -/
def carryOf (w0 w1 : Word) : Carry :=
  if bit w1 18 then carry0 else ⟨false, clsOf (fld w1 16 2), signed 64 w0.toNat, signed 16 w1.toNat⟩

/-- The words of a carry image (Table 05.4). -/
def carryWords (c : Carry) : List Word :=
  [wd (unsigned 64 c.s), wd (bitAt c.empty 18 + clsCode c.cls * 2 ^ 16 + unsigned 16 c.e)]

/-- The exact results of an operation, the elements flushed and saturated before the final write, and a scan's carry. -/
structure VeRes where
  xs    : List Num
  fl    : Nat
  sat   : Nat
  carry : Option Carry
deriving DecidableEq, Repr

/-- The lines that RED reduces (R152). -/
def redLines (t : Tbl AccRow) (col : Bool) : List (List Num) :=
  (below 32).map fun i => (below 32).map fun j => if col then accElem t false (32 * j + i) else accElem t false (32 * i + j)

/-- The exact results of the classes written under R143. -/
def veExact (e : Engines) (sl : Slice) (o : VeOp) : VeRes :=
  let a := readElems e sl o.fa o.n o.a
  match o.kind with
  | .arith k sc =>
    let b := readElems e sl o.fb o.n o.b
    let c := readElems e sl o.fd o.n o.c
    let rs := a.zipIdx.map fun p => arith1 k sc p.1 (b.getD p.2 zero') (c.getD p.2 zero')
    ⟨rs.map Prod.fst, (rs.map Prod.snd).sum, 0, none⟩
  | .sel =>
    let b := readElems e sl o.fb o.n o.b
    let m := readBits sl o.n o.c
    ⟨(a.zip (b.zip m)).map fun p => if p.2.2 then p.1 else p.2.1, 0, 0, none⟩
  | .scan k incl seg carry =>
    let fs := if seg then readBits sl o.n o.b else List.replicate o.n false
    let c0 := match carry with
      | some q => carryOf (slWord sl q) (slWord sl (q + 8))
      | none => carry0
    let r := scanList k incl c0 (a.zip fs)
    ⟨r.1, r.2.2.1, r.2.2.2, some r.2.1⟩
  | .red k col =>
    let t := match o.a with
      | .acc n _ => accTile e n
      | _ => []
    let rs := (redLines t col).map (redLine k)
    ⟨rs.map Prod.fst, (rs.map Prod.snd).sum, 0, none⟩
  | .fn f ver => ⟨a.map (fnEval ver.toNat f), 0, 0, none⟩
  | _ => ⟨a, 0, 0, none⟩

/-- R88: the exponents of the rows that CVT to W64 in scratchpad re-encodes exactly, none where it rounds. Of a transposed accumulator, a
last row of one element comes from one source row. -/
def cvtExps (e : Engines) (sl : Slice) (o : VeOp) : List (Option Int) :=
  let rows := below ((o.n + 31) / 32)
  match o.a with
  | .mem _ p =>
    if o.fa = .w64 then rows.map fun k => some (signed 16 (rdNum sl.mem (p + 16 * k) 2))
    else if fmtScaled o.fa then rows.map fun k =>
      let x := (rdByte sl.mem (p + k)).toNat
      some (if x = 0xFF then 0 else (x : Int) - 127)
    else if fmtInt o.fa then rows.map fun _ => some 0
    else []
  | .acc n false => rows.map fun k => some (rowExp (tget AccRow.zero (accTile e n) k))
  | .acc n true => rows.map fun k =>
      if o.n - 32 * k = 1 then some (rowExp (tget AccRow.zero (accTile e n) 0)) else none
  | .scalar _ | .imm _ => if fmtInt o.fa then rows.map fun _ => some 0 else []
  | _ => []

/-- The elements moved by SHF in each group (R147). -/
def shuffled {α : Type} (kind c : Nat) (d : α) (g : List α) : List α :=
  (below 32).map fun i => g.getD (shuffleIx kind c i) d

/-- R147: a shuffled stream: bits unchanged, planes with their block or row. The significands of an invalid block and the reserved bits of a tag
are copied like all others, not written as the zeros of R74 and Table 03.4 (log entry 99, DEDUCED). BCAST of a transposed accumulator draws a
whole row from source row `c`, which R88 re-encodes exactly. -/
def shfImage (e : Engines) (sl : Slice) (o : VeOp) (kind c : Nat) : Image :=
  let groups := below (o.n / 32)
  let q := fmtBits o.fa
  match o.a with
  | .acc n tr =>
    let t := accTile e n
    let els := fun g => shuffled kind c zero' ((below 32).map fun i => accElem t tr (32 * g + i))
    let r := markAll rec0 0 ((groups.flatMap els).map fun v => (v, 0))
    if tr then
      let bs := groups.map fun g =>
        let xs := (els g).map fun v => (v, 0)
        if kind = 2 then exactRow (rowExp (tget AccRow.zero t c)) xs else convertRow .rne xs
      { data := bs.flatMap fun b => b.sig.flatMap fun v => leBytes 8 (unsigned 64 v), plane := bs.flatMap tagBytes
        rows := [], rcd := recCount r (bs.map Blk.sat).sum (bs.map Blk.fl).sum }
    else
      let row := fun g => tget AccRow.zero t g
      { data := groups.flatMap fun g =>
          (shuffled kind c 0 ((below 32).map fun i => tget 0 (row g).sig i)).flatMap fun w => leBytes 8 w.toNat
        plane := groups.flatMap fun g => leBytes 8 (row g).exp.toNat ++
          leBytes 8 (tagWord1 (shuffled kind c .fin ((below 32).map (rowCls (row g)))))
        rows := [], rcd := r }
  | .mem a p =>
    if fmtPlaned o.fa then
      let sigs := fun g =>
        let v := rdNum sl.mem (a + g * blockBytes o.fa) (blockBytes o.fa)
        shuffled kind c 0 ((below 32).map fun i => (v >>> (q * i)) % 2 ^ q)
      let data := groups.flatMap fun g => leBytes (blockBytes o.fa) (packBits q (sigs g))
      if o.fa = .w64 then
        let cls := fun g => shuffled kind c .fin
          ((below 32).map fun i => clsOf (fld (slWord sl (p + 16 * g + 8)) (2 * i) 2))
        { data := data
          plane := groups.flatMap fun g => slRead sl (p + 16 * g) 8 ++ leBytes 8 (tagWord1 (cls g))
          rows := [], rcd := markAll rec0 0 ((groups.flatMap cls).map fun k => (spec' k, 0)) }
      else
        { data := data, plane := groups.map fun g => rdByte sl.mem (p + g), rows := []
          rcd := markAll rec0 0 (groups.flatMap fun g =>
            List.replicate 32 (if rdByte sl.mem (p + g) = 0xFF then spec' .nan else zero', 0)) }
    else
      let raw := groups.flatMap fun g =>
        shuffled kind c 0 ((below 32).map fun i => rdNum sl.mem (a + (32 * g + i) * (q / 8)) (q / 8))
      { data := raw.flatMap (leBytes (q / 8)), plane := [], rows := []
        rcd := markAll rec0 0 (raw.map fun v => (rawNum o.fa v, 0)) }
  | o' =>
    let raw := readRaw sl o.fa o.n o'
    { data := raw.flatMap (leBytes (q / 8)), plane := [], rows := []
      rcd := markAll rec0 0 (raw.map fun v => (rawNum o.fa v, 0)) }

/-- The whole image that an operation writes, with its record, and the carry written back. -/
def veImage (e : Engines) (sl : Slice) (o : VeOp) : Image × Option Carry :=
  match o.kind with
  | .cmp k =>
    let a := readElems e sl o.fa o.n o.a
    let b := readElems e sl o.fb o.n o.b
    ({ data := bitBytes (List.zipWith (cmp1 k) a b), plane := [], rows := [], rcd := rec0 }, none)
  | .logic k =>
    let a := readRaw sl o.fa o.n o.a
    let b := readRaw sl o.fb o.n o.b
    let w := fmtBits o.fa
    let vs := a.zipIdx.map fun p => logic1 k w p.1 (b.getD p.2 0)
    ({ data := vs.flatMap (leBytes (w / 8)), plane := [], rows := [], rcd := rec0 }, none)
  | .shf kind c => (shfImage e sl o kind c, none)
  | kind =>
    let r := veExact e sl o
    let xs := r.xs.zip (drawsOf o.rm o.seed o.ctr r.xs.length)
    let r0 := recCount rec0 r.sat r.fl
    let im := match o.d with
      | .acc _ tr => writeAcc tr o.rm [] xs r0
      | _ => writeStream o.fd o.rm (if kind = .cvt ∧ o.fd = .w64 then cvtExps e sl o else []) xs r0
    (im, r.carry)

/-! ### Faults after issue (R158) -/

/-- A fault met by an operation: the cause and the first failing element, or a fault of the carry image (R151). -/
inductive VeHit where
  | elem (i : Nat)
  | carry (cause : Status)
deriving DecidableEq, Repr

/-- The bytes of element `i` of a scratchpad stream meet a poisoned chunk. -/
def elemBad (sl : Slice) (f : Fmt) (a p i : Nat) : Bool :=
  let lo := elemOff f i
  let hi := (i % 32 * fmtBits f + fmtBits f + 7) / 8 + (if fmtPlaned f then i / 32 * blockBytes f else i / 32 * 4 * fmtBits f)
  (poisonAt sl (a + lo) (hi - lo)).isSome ||
  (fmtPlaned f && (poisonAt sl (p + i / 32 * planeBytes f) (planeBytes f)).isSome)

/-- The source read of element `i` of a shuffle fails: its bytes, or the accumulator row that holds it. -/
def shfBad (e : Engines) (sl : Slice) (o : VeOp) (i : Nat) : Bool :=
  match o.a with
  | .mem a p => elemBad sl o.fa a p i
  | .acc n tr => (tget AccRow.zero (accTile e n) (if tr then i % 32 else i / 32)).poison
  | _ => false

/-- The first element of a shuffle whose source fails: within the first failing group, the first that draws on it. Where none draws on it, as BCAST
need not, the operation still ends in POISON, at the source element's own index (log entry 148, DESIGN CHOICE). -/
def shfFail (e : Engines) (sl : Slice) (o : VeOp) (kind c i : Nat) : Nat :=
  ((firstThat (fun j => shfBad e sl o (i / 32 * 32 + shuffleIx kind c j)) (below 32)).map (i / 32 * 32 + ·)).getD i

/-- The first failing element over the source reads. -/
def srcFail (e : Engines) (sl : Slice) (o : VeOp) : Option Nat :=
  let a := readFail e sl o.fa o.n o.a
  match o.kind with
  | .shf kind c => a.map (shfFail e sl o kind c)
  | .sel => leastFail (leastFail a (readFail e sl o.fb o.n o.b)) (bitFail sl o.n o.c)
  | .scan _ _ true _ => leastFail a (bitFail sl o.n o.b)
  | .red _ col =>
    match o.a with
    | .acc n _ => (firstThat (fun r => (tget AccRow.zero (accTile e n) r).poison) (below 32)).map fun r => if col then 0 else r
    | _ => none
  | .arith _ _ | .cmp _ | .logic _ =>
    leastFail (leastFail a (readFail e sl o.fb o.n o.b)) (readFail e sl o.fd o.n o.c)
  | _ => a

/-- A bit stream is written. -/
def bitDest (o : VeOp) : Bool := match o.kind with | .cmp _ => true | _ => false

/-- R225: the first element whose destination chunk is poisoned and covered only in part. -/
def dstFail (sl : Slice) (o : VeOp) (im : Image) : Option Nat :=
  match o.d with
  | .mem a p =>
    if bitDest o then (partFail sl a im.data.length).map (· * 8)
    else leastFail ((partFail sl a im.data.length).map (elemAt o.fd))
      ((partFail sl p im.plane.length).map fun q => q / planeBytes o.fd * 32)
  | _ => none

/-- R151, R158: what a running operation meets. -/
def veHit (e : Engines) (sl : Slice) (o : VeOp) (im : Image) : Option VeHit :=
  if o.n = 0 then none
  else
    let bad := match o.kind with
      | .scan _ _ _ (some q) =>
        if (poisonAt sl q 16).isSome then some sPOISON else if fld (slWord sl (q + 8)) 19 45 ≠ 0 then some sRSVD else none
      | _ => none
    match bad with
    | some c => some (.carry c)
    | none => (leastFail (srcFail e sl o) (dstFail sl o im)).map fun i => .elem (min i (o.n - 1))

/-- R158: an image up to the slot that fails at element `i` of a destination at `a`: data bytes and plane bytes written,
and the first element not written. A block or row of which some element is written has its scale or tag written (log entry 101, DESIGN CHOICE). -/
def prefixOf (o : VeOp) (a i : Nat) : Nat × Nat × Nat :=
  let off := if bitDest o then i / 8 else elemOff o.fd i
  let b := (a + off) / 128 * 128
  if b ≤ a then (0, 0, 0)
  else
    let n := b - a
    let d := if bitDest o then n * 8 else elemAt o.fd n
    (n, (d + 31) / 32 * planeBytes o.fd, d)

/-- A write of an image, or of its first bytes, to a scratchpad destination. -/
def putImage (sl : Slice) (a p : Nat) (data plane : List Byte) : Slice := slPut (slPut sl a data) p plane

/-- Rows of an image written to a tile. -/
def putRows (t : Tbl AccRow) (rows : List (Nat × AccRow)) : Tbl AccRow :=
  rows.foldl (fun t r => tput AccRow.zero t r.1 r.2) t

/-- An image written whole to an operation's destination. -/
def writeDest (s : State) (l : Lcid) (o : VeOp) (im : Image) : State :=
  match o.d with
  | .mem a p => modCore s l fun k => modSp k fun sl => putImage sl a p im.data im.plane
  | .acc n _ => setTile s l n.toNat (putRows (accTile (getCore s l).eng n) im.rows)
  | _ => s

/-- R158: what stands before the failing element written; the answer holds DETAIL. -/
def writePrefix (s : State) (l : Lcid) (o : VeOp) (im : Image) (i : Nat) : State × Nat :=
  match o.d with
  | .mem a p =>
    let (n, m, d) := prefixOf o a i
    (modCore s l fun k => modSp k fun sl => putImage sl a p (im.data.take n) (im.plane.take m), d)
  | .acc n false =>
    (setTile s l n.toNat (putRows (accTile (getCore s l).eng n) (im.rows.filter fun r => decide (r.1 < i / 32))), i / 32 * 32)
  | _ => (s, 0)

/-- R158, R178, R179: the front VE operation ends in a fault; the waiting operations of its context leave both queues, or this one
alone where the context is FAULTED already. -/
def veFault (s : State) (l : Lcid) (o : VeOp) (cause : Status) (d : Nat) : State :=
  let again := effSt (ctxOf s l o.ctx) = .faulted
  let s := modCore s l fun k => modEng k fun e =>
    { e with veq := e.veq.tail.filter fun x => x.ctx != o.ctx
             millq := if again then e.millq else keepBegun (millBegun e) (fun v => v.ctx == o.ctx) e.millq }
  engineEnd (faultCtx s l o.ctx cause true 2 o.pc (wd d)) l o.ctx

/-- DFMT of an operation's record (Table 03.10). -/
def veDfmt (o : VeOp) : Nat := if bitDest o then 0xF else fmtCode o.fd

/-- The front VE operation complete: image, carry and record written. -/
def veFinish (s : State) (l : Lcid) (o : VeOp) (im : Image) (carry : Option Carry) : State :=
  let s := if o.n = 0 then s else writeDest s l o im
  let s := match o.kind, carry with
    | .scan _ _ _ (some q), some c =>
      if o.n = 0 then s else modCore s l fun k => modSp k fun sl => slPutWords sl q (carryWords c)
    | _, _ => s
  let s := modCtxOf s l o.ctx fun x => writeRecord x (if o.n = 0 then rec0 else im.rcd) 1 (veDfmt o)
  engineEnd (modCore s l fun k => modEng k fun e => { e with veq := e.veq.tail }) l o.ctx

/-- R157: the front VE operation carried out, or ended by the fault that it meets. -/
def veStep (s : State) (l : Lcid) (o : VeOp) : State :=
  let k := getCore s l
  let (im, carry) := veImage k.eng k.sp o
  match veHit k.eng k.sp o im with
  | none => veFinish s l o im carry
  | some (.carry c) => veFault s l o c 0
  | some (.elem i) =>
    let (s, d) := writePrefix s l o im i
    veFault s l o sPOISON d

/-- VE_OP_COMPLETE (R98, R157): the front operation, once no earlier Mill operation of its context is queued. -/
def doVeOpComplete (l : Lcid) (s : State) : State :=
  let e := (getCore s l).eng
  match e.veq with
  | o :: _ => if millBefore e o.ctx o.iss then s else veStep s l o
  | [] => s

/-- A VE lane that carries work: one of 0 to 63 not replaced, or a spare while it is substituted (R16, R18). -/
def laneWorks (t : Site) (n : Nat) : Bool :=
  if n < 64 then !t.lanes.contains n else (veSpares t.lanes).2.1.any fun p => p.1 == n

/-- R16, R158: a lane residue mismatch counted and reported with the PSID of its lane. -/
def laneHit (s : State) (l : Lcid) (lane : Nat) (twin : Bool) : State :=
  let psid := psidOf (dgOf l) (siteAt s l twin) 2 lane
  raiseEv s (rptCore s l { rpt 2 sINTERNAL 1 0 psid with d0 := wd lane }) (.lane psid)

/-- VE_OP_FAULT (R158): the front operation, if it meets the fault. -/
def doVeOpFault (l : Lcid) (src : VeFaultSrc) (s : State) : State :=
  let k := getCore s l
  match k.eng.veq with
  | o :: _ =>
    let (im, _) := veImage k.eng k.sp o
    if millBefore k.eng o.ctx o.iss then s
    else match src with
    | .poison => if (veHit k.eng k.sp o im).isSome then veStep s l o else s
    | .accWord a row twin =>
      if decide (row.toNat < rowsRead o a.toNat) && siteThere s l twin then veStep (accUncorr s l a.toNat row.toNat twin) l o else s
    | .lane lane i twin =>
      if decide (i < o.n) && siteThere s l twin && laneWorks (tget Site.zero (getGrove s (dgOf l)).sites (siteAt s l twin)) lane.toNat then
        match veHit k.eng k.sp o im with
        | some (.carry _) => veStep s l o
        | some (.elem j) =>
          if j ≤ i then veStep s l o
          else
            let (s, d) := writePrefix (laneHit s l lane.toNat twin) l o im i
            veFault s l o sINTERNAL d
        | none =>
          let (s, d) := writePrefix (laneHit s l lane.toNat twin) l o im i
          veFault s l o sINTERNAL d
      else s
  | [] => s

/-! ### Meanings -/

def execVeAdd (l : Lcid) (c : CtxNo) (b : BitVec 54) (s : State) : Out :=
  .next (veIssue 0x140 formBin (fun _ => .arith .add 0) l c b s)
def execVeSub (l : Lcid) (c : CtxNo) (b : BitVec 54) (s : State) : Out :=
  .next (veIssue 0x141 formBin (fun _ => .arith .sub 0) l c b s)
def execVeMul (l : Lcid) (c : CtxNo) (b : BitVec 54) (s : State) : Out :=
  .next (veIssue 0x142 formBin (fun _ => .arith .mul 0) l c b s)
def execVeMad (l : Lcid) (c : CtxNo) (b : BitVec 54) (s : State) : Out :=
  .next (veIssue 0x143 formMad (fun _ => .arith .mad 0) l c b s)
def execVeNeg (l : Lcid) (c : CtxNo) (b : BitVec 54) (s : State) : Out :=
  .next (veIssue 0x144 formUn (fun _ => .arith .neg 0) l c b s)
def execVeAbs (l : Lcid) (c : CtxNo) (b : BitVec 54) (s : State) : Out :=
  .next (veIssue 0x145 formUn (fun _ => .arith .abs 0) l c b s)
def execVeMax (l : Lcid) (c : CtxNo) (b : BitVec 54) (s : State) : Out :=
  .next (veIssue 0x146 formBin (fun _ => .arith .max 0) l c b s)
def execVeMin (l : Lcid) (c : CtxNo) (b : BitVec 54) (s : State) : Out :=
  .next (veIssue 0x147 formBin (fun _ => .arith .min 0) l c b s)
def execVeScl (l : Lcid) (c : CtxNo) (b : BitVec 54) (s : State) : Out :=
  .next (veIssue 0x148 formScl (fun x => .arith .scl (sclK x b)) l c b s)
def execVeEq (l : Lcid) (c : CtxNo) (b : BitVec 54) (s : State) : Out :=
  .next (veIssue 0x150 formCmp (fun _ => .cmp .eq) l c b s)
def execVeNe (l : Lcid) (c : CtxNo) (b : BitVec 54) (s : State) : Out :=
  .next (veIssue 0x151 formCmp (fun _ => .cmp .ne) l c b s)
def execVeLt (l : Lcid) (c : CtxNo) (b : BitVec 54) (s : State) : Out :=
  .next (veIssue 0x152 formCmp (fun _ => .cmp .lt) l c b s)
def execVeLe (l : Lcid) (c : CtxNo) (b : BitVec 54) (s : State) : Out :=
  .next (veIssue 0x153 formCmp (fun _ => .cmp .le) l c b s)
def execVeGt (l : Lcid) (c : CtxNo) (b : BitVec 54) (s : State) : Out :=
  .next (veIssue 0x154 formCmp (fun _ => .cmp .gt) l c b s)
def execVeGe (l : Lcid) (c : CtxNo) (b : BitVec 54) (s : State) : Out :=
  .next (veIssue 0x155 formCmp (fun _ => .cmp .ge) l c b s)
def execVeSel (l : Lcid) (c : CtxNo) (b : BitVec 54) (s : State) : Out :=
  .next (veIssue 0x158 formSel (fun _ => .sel) l c b s)
def execVeAnd (l : Lcid) (c : CtxNo) (b : BitVec 54) (s : State) : Out :=
  .next (veIssue 0x160 formLogic (fun _ => .logic .and) l c b s)
def execVeOr (l : Lcid) (c : CtxNo) (b : BitVec 54) (s : State) : Out :=
  .next (veIssue 0x161 formLogic (fun _ => .logic .or) l c b s)
def execVeXor (l : Lcid) (c : CtxNo) (b : BitVec 54) (s : State) : Out :=
  .next (veIssue 0x162 formLogic (fun _ => .logic .xor) l c b s)
def execVeNot (l : Lcid) (c : CtxNo) (b : BitVec 54) (s : State) : Out :=
  .next (veIssue 0x163 formNot (fun _ => .logic .not) l c b s)
def execVeShl (l : Lcid) (c : CtxNo) (b : BitVec 54) (s : State) : Out :=
  .next (veIssue 0x164 formLogic (fun _ => .logic .shl) l c b s)
def execVeShrl (l : Lcid) (c : CtxNo) (b : BitVec 54) (s : State) : Out :=
  .next (veIssue 0x165 formLogic (fun _ => .logic .shrl) l c b s)
def execVeShra (l : Lcid) (c : CtxNo) (b : BitVec 54) (s : State) : Out :=
  .next (veIssue 0x166 formLogic (fun _ => .logic .shra) l c b s)
def execVeCvt (l : Lcid) (c : CtxNo) (b : BitVec 54) (s : State) : Out :=
  .next (veIssue 0x180 formCvt (fun _ => .cvt) l c b s)
def execVeShf (l : Lcid) (c : CtxNo) (b : BitVec 54) (s : State) : Out :=
  .next (veIssue 0x181 formShf (fun _ => .shf (fld b 14 2) (fld b 8 5)) l c b s)
def execVeScan (l : Lcid) (c : CtxNo) (b : BitVec 54) (s : State) : Out :=
  .next (veIssue 0x182 formScan (scanKind false b) l c b s)
def execVeSscan (l : Lcid) (c : CtxNo) (b : BitVec 54) (s : State) : Out :=
  .next (veIssue 0x183 formSscan (scanKind true b) l c b s)
def execVeRed (l : Lcid) (c : CtxNo) (b : BitVec 54) (s : State) : Out :=
  .next (veIssue 0x184 formRed (fun _ => redKind b) l c b s)
def execVeFn (l : Lcid) (c : CtxNo) (b : BitVec 54) (s : State) : Out :=
  .next (veIssue 0x185 formFn (fun _ => .fn (fld b 0 3) s.live.fn) l c b s)
def execVwait (l : Lcid) (c : CtxNo) (b : BitVec 54) (s : State) : Out := .next (doVwait l c b s)
def execVeOpComplete (l : Lcid) (s : State) : Out := .next (awake (doVeOpComplete l) s)
def execVeOpFault (l : Lcid) (src : VeFaultSrc) (s : State) : Out := .next (awake (doVeOpFault l src) s)

end Sys2Proof.Machine
end

