-- ==== Sys2Proof/Machine/ContextOps.lean ====
section
/-! DEFINITION. Classes 11 to 13 and the context events: end, park, wake, resume, free, sleep, Rings, queries, fault notices
(06_core_and_contexts.md, 07_tgx_encoding.md R209 and R210, 18_hangs_rings_resets.md). -/

namespace Sys2Proof.Machine

/-! ### Context control (Table 07.16) -/

/-- END (R209). -/
def doCtxEnd (l : Lcid) (c : CtxNo) (b : BitVec 54) (s : State) : State :=
  issue s l c 0x2C0 b 0 (onlyFields b []) anyRoom fun s =>
    settle (finish s l c fun x => makeWait x .ending none) l c

/-- PARK, with the park timer in GT (R209). -/
def doPark (l : Lcid) (c : CtxNo) (b : BitVec 54) (s : State) : State :=
  issue s l c 0x2C1 b 0 (onlyFields b [(38, 4)]) anyRoom fun s =>
    let gt := (gAt (ctxOf s l c) b 38).toNat
    let s' := finish s l c fun x => setSt x .parked
    modCtxOf s' l c fun x => { x with deadline := if gt = 0 then none else some (deadlineAt s gt) }

/-- SLEEP (R209). -/
def doSleep (l : Lcid) (c : CtxNo) (b : BitVec 54) (s : State) : State :=
  issue s l c 0x2C5 b 0 (onlyFields b [(38, 4)]) anyRoom fun s =>
    let gt := (gAt (ctxOf s l c) b 38).toNat
    if gt = 0 then advance s l c
    else modCtxOf (advance s l c) l c fun x => makeWait x .timer (some (deadlineAt s gt))

/-- SRSEED (R96). -/
def doSrseed (l : Lcid) (c : CtxNo) (b : BitVec 54) (s : State) : State :=
  issue s l c 0x2C6 b 0 (onlyFields b [(42, 4)]) anyRoom fun s => finish s l c fun x => setSeed x (gAt x b 42)

/-- The target of WAKE, RESUME and CFREE: the context that GC names, none above 511. -/
def targetOf (w : Word) : Option CtxNo := if fld w 9 55 = 0 then some (BitVec.ofNat 9 w.toNat) else none

/-- A targeted instruction: BOUNDS on GC, then `check` for a further fault, then the effect where it applies, and PD. -/
def doTargeted (l : Lcid) (c : CtxNo) (op : Nat) (b : BitVec 54) (fs : List (Nat × Nat))
    (check : Ctx → Option (Status × Word)) (applies : CtxNo → Ctx → Bool) (f : State → CtxNo → State) (s : State) :
    State :=
  issue s l c op b 0 (onlyFields b ((46, 4) :: (35, 3) :: fs)) anyRoom fun s =>
    let x := ctxOf s l c
    let gc := gAt x b 46
    match targetOf gc with
    | none => precise s l c sBOUNDS 0 gc
    | some t =>
      match check x with
      | some e => precise s l c e.1 0 e.2
      | none =>
        let ok := applies t (ctxOf s l t)
        finish (if ok then f s t else s) l c fun x => writeP x (fld b 35 3) ok

/-- WAKE (R209). -/
def doWake (l : Lcid) (c : CtxNo) (b : BitVec 54) (s : State) : State :=
  doTargeted l c 0x2C2 b [] (fun _ => none) (fun _ t => decide (effSt t = .parked)) (fun s t => modCtxOf s l t makeReady) s

/-- A FAULTED context other than the issuing one, and not already being freed (R209). -/
def faultedOther (c t : CtxNo) (x : Ctx) : Bool := t != c && decide (x.st = .faulted) && !x.freeing

/-- RESUME (R180, R209). -/
def doResume (l : Lcid) (c : CtxNo) (b : BitVec 54) (s : State) : State :=
  let ga := gAt (ctxOf s l c) b 42
  doTargeted l c 0x2C3 b [(42, 4)]
    (fun _ => if fld ga 21 43 ≠ 0 then some (sBOUNDS, ga) else if fld ga 0 3 ≠ 0 then some (sALIGN, ga) else none)
    (faultedOther c)
    (fun s t => modCtxOf s l t fun x => { makeReady x with pc := BitVec.ofNat 21 ga.toNat, slot := none }) s

/-- CFREE (R185, R209). -/
def doCfree (l : Lcid) (c : CtxNo) (b : BitVec 54) (s : State) : State :=
  doTargeted l c 0x2C4 b [] (fun _ => none) (faultedOther c) (fun s t => freeCtx s l t) s

/-! ### Timers -/

/-- A deadline that has been reached. -/
def due (s : State) (x : Ctx) : Bool := match x.deadline with | some d => decide (d ≤ now s) | none => false

/-- PARK_TIMER_EXPIRY (R65, R209). -/
def doParkTimerExpiry (l : Lcid) (c : CtxNo) (s : State) : State :=
  let x := ctxOf s l c
  if effSt x = .parked ∧ due s x = true then modCtxOf s l c makeReady else s

/-- SLEEP_EXPIRY (R65, R209). -/
def doSleepExpiry (l : Lcid) (c : CtxNo) (s : State) : State :=
  let x := ctxOf s l c
  if effSt x = .waiting ∧ x.wait = .timer ∧ due s x = true then modCtxOf s l c makeReady else s

/-! ### Rings (R479 to R482) -/

/-- RING (R480). -/
def doRing (l : Lcid) (c : CtxNo) (b : BitVec 54) (s : State) : State :=
  issue s l c 0x300 b 0 (onlyFields b [(42, 4)]) anyRoom fun s =>
    if hasRecord (getCore s l) c then finish s l c fun x => makeWait x (.ring (gAt x b 42)) none
    else precise s l c sBOUNDS 0 (insWord 0x300 b)

/-- R480: everything that a RING waits for has ended. -/
def ringDrained (k : Core) (c : CtxNo) : Bool :=
  !millPend k c && !vePend k c && !sendPend k c && !(k.un.hauls.any fun o => o.ctx == c) &&
  !(k.eng.brandq.any fun o => o.ctx == c && match o.work with | .seal _ _ _ => true | _ => false) &&
  !(k.un.narrows.any fun o => o.ctx == c && !o.dead) && !(k.un.syncs.any fun o => o.ctx == c && !o.dead)

/-- The accumulator record of Table 18.6. -/
def accRecBytes (t : Tbl AccRow) (c : CtxNo) (rseq : Nat) : List Byte :=
  wordBytes ([wd (2 ^ 63 + rseq), wd c.toNat] ++ List.replicate 14 0) ++
  ((below 32).flatMap fun m => (below 32).flatMap fun n => leBytes 8 (tget 0 (tget AccRow.zero t m).sig n).toNat) ++
  (below 32).flatMap fun m =>
    leBytes 8 (tget AccRow.zero t m).exp.toNat ++ leBytes 8 (tget AccRow.zero t m).spec.toNat

/-- R132, R480: one accumulator's record written, poisoned rows with their marks. -/
def saveAcc (k : Core) (c : CtxNo) (rseq a : Nat) : Core :=
  let t := tget [] k.eng.acc a
  let at' := accRec k a (nextCopy k.sp (accRec k a 0) (accRec k a 1))
  modSp k fun sl =>
    let sl := slPut sl at' (accRecBytes t c rseq)
    (below 32).foldl (fun sl m =>
      if (tget AccRow.zero t m).poison then (upto ((at' + 128 + 256 * m) / 32) 8).foldl slMark sl else sl) sl

/-- R482: the releases deferred since the context's last record take effect. -/
def applyDeferred (k : Core) (c : CtxNo) : Core :=
  let x := getCtx k c
  let k := if x.defMsg then dropSource k c else k
  let keep := fun (qn n : Nat) => (getCtx k c).src == .boom qn n
  let k := modUn k fun u => { u with queues := u.queues.map fun p =>
    (p.1, { p.2 with held := p.2.held.filter fun h => h.2 != c || keep p.1 h.1 }) }
  let k := modEng k fun e => (below 8).foldl (fun e i =>
    let e := if bit x.defTd i && tget none e.tdOwner i == some c then { e with tdOwner := setOwner e.tdOwner i none } else e
    if bit x.defAcc i && tget none e.accOwner i == some c then { e with accOwner := setOwner e.accOwner i none } else e) e
  modCtx k c fun x => { x with defTd := 0, defAcc := 0, defMsg := false }

/-- R480, R293: the records of a RING written: accumulators first, the context's last. -/
def ringSave (k : Core) (c : CtxNo) (ga : Word) : Core :=
  let k := applyDeferred k c
  let rseq := (k.ring.seq.toNat + 1) % 2 ^ 48
  let td := heldMask k.eng.tdOwner c
  let acc := heldMask k.eng.accOwner c
  let k := ((below 8).filter acc.testBit).foldl (fun k a => saveAcc k c rseq a) k
  let x := getCtx k c
  let ws := ctxRecWords k c x rseq ga x.pc td acc
  let n := nextCopy k.sp (ctxRec k c 0) (ctxRec k c 1)
  let k := modSp k fun sl => slPutWords sl (ctxRec k c n) ws
  freeKept { k with ring := { k.ring with seq := BitVec.ofNat 48 rseq, replaying := sDel k.ring.replaying c.toNat } } c

/-- RING_COMPLETE (R480): once everything has ended, the records are written and the context is READY. -/
def doRingComplete (l : Lcid) (c : CtxNo) (s : State) : State :=
  let k := getCore s l
  let x := getCtx k c
  if effSt x ≠ .waiting then s
  else match x.wait with
  | .ring ga =>
    if ringDrained k c then
      setCore s l (modCtx (ringSave k c ga) c fun x => { makeReady x with hasRec := true })
    else s
  | _ => s

/-! ### Queries (Tables 07.17 and 07.18) -/

/-- The equivalence key (Table 19.6). -/
def eqkey (s : State) (mode : Nat) : Word :=
  let cls := if (below 256).any fun d => (getGrove s (BitVec.ofNat 8 d)).fused then 2 else 1
  wd (2 ^ 56 + s.part.stepping.toNat * 2 ^ 48 + cls * 2 ^ 40 + 2 ^ 32 + s.live.fn.toNat * 2 ^ 24 + s.live.red.toNat * 2 ^ 16
    + mode * 2 ^ 8)

/-- The rate of a format pair (Table 04.3). -/
def millRate (fa fb : Nat) : Nat :=
  match fa, fb with
  | 0, 0 => 1024 | 1, 1 => 512 | 4, 4 => 1024 | 4, 3 => 2048 | 3, 4 => 2048 | 3, 3 => 4096 | 5, 5 => 256
  | _, _ => 0

/-- The element-wise rate of a width (Table 05.2). -/
def veRate (w : Nat) : Option Nat :=
  match w with
  | 4 | 8 => some 256
  | 12 | 16 => some 128
  | 32 => some 64
  | 64 => some 32
  | _ => none

/-- A selector with an index (Table 07.18). -/
def indexedSel (n : Nat) : Bool := n == 0x20 || n == 0x21 || n == 0x30 || n == 0x31

/-- A selector of Table 07.18. -/
def definedSel (n : Nat) : Bool :=
  decide (n ≤ 3) || (decide (0x10 ≤ n) && decide (n ≤ 0x22)) || (decide (0x30 ≤ n) && decide (n ≤ 0x32)) ||
  (decide (0x40 ≤ n) && decide (n ≤ 0x45)) || n == 0x50

/-- A map as a word: bit j for each j of n. -/
def bitMap (n : Nat) (f : Nat → Bool) : Word := wd ((below n).map fun j => bitAt (f j) j).sum

/-- The value of a selector, none for an index out of range (Table 07.18). `x` is the asking context. -/
def qryValue (s : State) (l : Lcid) (c : CtxNo) (x : Ctx) (sel : Nat) (ix : Nat) : Option Word :=
  match sel with
  | 0x00 => some 1
  | 0x01 => some (eqkey s 1)
  | 0x02 => some 1
  | 0x03 => some (wd s.live.fn.toNat)
  | 0x10 => some 4
  | 0x11 => some 8
  | 0x12 => some 8
  | 0x13 => some 16
  | 0x14 => some 512
  | 0x15 => some 0x200000
  | 0x16 => some 64
  | 0x17 => some 128
  | 0x18 => some 8
  | 0x19 => some 8
  | 0x1A => some 4096
  | 0x1B => some 16
  | 0x1C => some 16
  | 0x1D => some 512
  | 0x1E => some 64
  | 0x1F => some 16
  | 0x20 => if ix < 4 then some (bitMap 64 fun j => groveWorks s (BitVec.ofNat 8 (64 * ix + j))) else none
  | 0x21 => if ix < 256 then some (bitMap 16 fun n => occupied s (lcidOf (BitVec.ofNat 8 ix) n)) else none
  | 0x22 => some (bitMap 16 fun k => !portGone s k)
  | 0x30 => if ix < 256 then some (wd (millRate (ix / 16) (ix % 16))) else none
  | 0x31 => (veRate ix).map wd
  | 0x32 => some (wd (rangeSize s (corePart s l).toNat))
  | 0x40 => some (wd (if hasDid s then 2 ^ 63 + (ownDid s).toNat else 0))
  | 0x41 => some (wd l.toNat)
  | 0x42 => some (wd c.toNat)
  | 0x43 => some (getCore s l).role
  | 0x44 => some x.srSeed
  | 0x45 => some x.srCtr
  | _ => some (timeWord s)

/-- QRY (R210). -/
def doQry (l : Lcid) (c : CtxNo) (b : BitVec 54) (s : State) : State :=
  let sel := fld b 0 16
  issue s l c 0x340 b 0
    (onlyFields b [(46, 4), (42, 4), (0, 16)] && definedSel sel && (indexedSel sel || fld b 42 4 == 0)) anyRoom fun s =>
    let x := ctxOf s l c
    let ix := gAt x b 42
    match qryValue s l c x sel ix.toNat with
    | some v => finish s l c fun x => writeG x (fld b 46 4) v
    | none => precise s l c sBOUNDS 0 ix

/-- A query that writes `n` registers from GD up. -/
def doMulti (l : Lcid) (c : CtxNo) (op : Nat) (b : BitVec 54) (n : Nat) (vals : State → Ctx → List Word) (f : Ctx → Ctx)
    (s : State) : State :=
  let gd := fld b 46 4
  issue s l c op b 0 (onlyFields b [(46, 4)] && decide (1 ≤ gd) && decide (gd + n ≤ 16)) anyRoom fun s =>
    let vs := vals s (ctxOf s l c)
    finish s l c fun x => vs.zipIdx.foldl (fun x p => writeG x (gd + p.2) p.1) (f x)

/-- NSRD (R99, R210). -/
def doNsrd (l : Lcid) (c : CtxNo) (b : BitVec 54) (s : State) : State :=
  doMulti l c 0x341 b 2 (fun _ x => [x.ns0, x.ns1]) id s

/-- TLRD (R210). -/
def doTlrd (l : Lcid) (c : CtxNo) (b : BitVec 54) (s : State) : State :=
  doMulti l c 0x342 b 3 (fun _ x => [x.tl0, x.tl1, x.tl2]) id s

/-- TLCLR (R103). -/
def doTlclr (l : Lcid) (c : CtxNo) (b : BitVec 54) (s : State) : State :=
  doMulti l c 0x343 b 3 (fun _ x => [x.tl0, x.tl1, x.tl2]) clearTally s

/-- DISTRD (R39). -/
def doDistrd (l : Lcid) (c : CtxNo) (b : BitVec 54) (s : State) : State :=
  doMulti l c 0x344 b 3 (fun s _ => [distMem s (dgOf l), distGf s (dgOf l) false, distGf s (dgOf l) true]) id s

/-! ### Fault notices (R181) -/

/-- FAULT_NOTICE_START (R171, R181): the oldest notice takes the lowest FREE context; an invalid handler entry raises the
fault interrupt instead. -/
def doFaultNoticeStart (l : Lcid) (s : State) : State :=
  let k := getCore s l
  match k.notices, lowestFree k with
  | (f, r0, r1) :: r, some c =>
    if !occupied s l || !mayStart k then s
    else
      let hidx : BitVec 12 := BitVec.ofNat 12 (fld k.ctrl 16 12)
      let e := tget 0 k.ht hidx.toNat
      let k := { k with notices := r }
      if bit e 63 then setCore s l (startCtx k c (BitVec.ofNat 21 (fld e 0 21)) (wd f.toNat) r0 r1 1 hidx .none)
      else setCore s l { k with irqs := k.irqs + 1 }
  | _, _ => s

/-! ### Meanings -/

def execCtxEnd (l : Lcid) (c : CtxNo) (b : BitVec 54) (s : State) : Out := .next (doCtxEnd l c b s)
def execPark (l : Lcid) (c : CtxNo) (b : BitVec 54) (s : State) : Out := .next (doPark l c b s)
def execWake (l : Lcid) (c : CtxNo) (b : BitVec 54) (s : State) : Out := .next (doWake l c b s)
def execResume (l : Lcid) (c : CtxNo) (b : BitVec 54) (s : State) : Out := .next (doResume l c b s)
def execCfree (l : Lcid) (c : CtxNo) (b : BitVec 54) (s : State) : Out := .next (doCfree l c b s)
def execSleep (l : Lcid) (c : CtxNo) (b : BitVec 54) (s : State) : Out := .next (doSleep l c b s)
def execSrseed (l : Lcid) (c : CtxNo) (b : BitVec 54) (s : State) : Out := .next (doSrseed l c b s)
def execRing (l : Lcid) (c : CtxNo) (b : BitVec 54) (s : State) : Out := .next (doRing l c b s)
def execRingComplete (l : Lcid) (c : CtxNo) (s : State) : Out := .next (doRingComplete l c s)
def execQry (l : Lcid) (c : CtxNo) (b : BitVec 54) (s : State) : Out := .next (doQry l c b s)
def execNsrd (l : Lcid) (c : CtxNo) (b : BitVec 54) (s : State) : Out := .next (doNsrd l c b s)
def execTlrd (l : Lcid) (c : CtxNo) (b : BitVec 54) (s : State) : Out := .next (doTlrd l c b s)
def execTlclr (l : Lcid) (c : CtxNo) (b : BitVec 54) (s : State) : Out := .next (doTlclr l c b s)
def execDistrd (l : Lcid) (c : CtxNo) (b : BitVec 54) (s : State) : Out := .next (doDistrd l c b s)
def execParkTimerExpiry (l : Lcid) (c : CtxNo) (s : State) : Out := .next (doParkTimerExpiry l c s)
def execSleepExpiry (l : Lcid) (c : CtxNo) (s : State) : Out := .next (doSleepExpiry l c s)
def execFaultNoticeStart (l : Lcid) (s : State) : Out := .next (awake (doFaultNoticeStart l) s)

end Sys2Proof.Machine
end

