-- ==== Sys2Proof/Machine/Queues.lean ====
section
/-! DEFINITION. Class 7, QRD timeouts and the release of Boom rounds (07_tgx_encoding.md R206, 09_messages_and_queues.md,
10_spatial_layouts.md R281 to R283). -/

namespace Sys2Proof.Machine

/-- The queue number of formats Q and H. -/
def qnOf (b : BitVec 54) : Nat := fld b 0 6

/-- R281: whether a bound queue belongs to another context. -/
def notOwner (e : LinkEnd) (c : CtxNo) : Bool := fld e.reg 44 9 != c.toNat

/-- The predicate written by a queue instruction that completes. -/
def finishP (s : State) (l : Lcid) (c : CtxNo) (b : BitVec 54) (v : Bool) : State :=
  finish s l c fun x => writeP x (fld b 35 3) v

/-! ### QRD -/

/-- R254: a QRD that finds nothing waits, with pc on the QRD; its timeout runs from its first wait. -/
def qrdWait (s : State) (l : Lcid) (c : CtxNo) (b : BitVec 54) (link : Bool) (gt : Nat) : State :=
  let s := if link then s else modCore s l fun k =>
    let q := getQ k (qnOf b)
    setQ k (qnOf b) { q with waiters := q.waiters.filter (· != c) ++ [c] }
  modCtxOf s l c fun x =>
    makeWait x (.queue (qnOf b) (fld b 35 3) link)
      (match x.deadline with | some d => some d | none => if gt = 0 then none else some (deadlineAt s gt))

/-- The words at an endpoint in the order of their reading: those that a replay delivers again, then the skid queue (R293). -/
def linkHeads (e : LinkEnd) : List (BitVec 32 × List Byte × Bool) := e.again ++ e.words

/-- R293: the head entry removed from an inbound endpoint and retained; a word delivered again has its storage already. -/
def takeWord (e : LinkEnd) : LinkEnd :=
  match e.again, e.words with
  | w :: r, _ => { e with again := r, seq := w.1 + 1, kept := e.kept ++ [w] }
  | [], w :: r => { e with words := r, seq := w.1 + 1, kept := e.kept ++ [w] }
  | [], [] => e

/-- R293: an endpoint whose 256 retained words stop its deliveries. -/
def keptFull (e : LinkEnd) : Bool := e.again.isEmpty && decide (256 ≤ e.kept.length)

/-- R282: QRD on an inbound endpoint. -/
def qrdLink (s : State) (l : Lcid) (c : CtxNo) (b : BitVec 54) (d gt : Nat) : State :=
  let e := getLink (getCore s l) true d
  match linkHeads e with
  | [] => if e.broken then finishP s l c b false else qrdWait s l c b true gt
  | (_, bs, bad) :: _ =>
    if keptFull e then qrdWait s l c b true gt
    else if bad then
      let (s, v) := freshWord s
      precise s l c sPOISON 3 v
    else
      let w := wd (leNat ((bs.drop (8 * fld b 31 3)).take 8))
      let s := if bit b 34 then modCore s l fun k => setLink k true d (takeWord e) else s
      finish s l c fun x => writeP (writeG x (fld b 46 4) w) (fld b 35 3) true

/-- R482: the head entry leaves the queue; its storage stays occupied while the context has a record. -/
def popHead (q : Queue) (c : CtxNo) (keep : Bool) : Queue :=
  match q.ents with
  | [] => q
  | n :: r => { q with ents := r, held := if keep then q.held ++ [(n, c)] else q.held }

/-- QRD on a configured queue (R254). -/
def qrdRing (s : State) (l : Lcid) (c : CtxNo) (b : BitVec 54) (gt : Nat) : State :=
  let k := getCore s l
  let q := getQ k (qnOf b)
  match q.ents with
  | [] => qrdWait s l c b false gt
  | n :: _ =>
    let a := entAddr q n + 8 * fld b 31 3
    match poisonAt k.sp a 8 with
    | some p => precise s l c sPOISON 3 (wd p)
    | none =>
      let w := slWord k.sp a
      let s := if bit b 34 then setCore s l (setQ k (qnOf b) (popHead q c (getCtx k c).hasRec)) else s
      finish s l c fun x => writeP (writeG x (fld b 46 4) w) (fld b 35 3) true

/-- QRD (R206, R254, R282). -/
def doQrd (l : Lcid) (c : CtxNo) (b : BitVec 54) (s : State) : State :=
  issue s l c 0x1C0 b 3 (onlyFields b [(46, 4), (38, 4), (35, 3), (34, 1), (31, 3), (0, 6)]) anyRoom fun s =>
    let k := getCore s l
    let qn := qnOf b
    let w := fld b 31 3
    let gt := gAt (getCtx k c) b 38
    let word := insWord 0x1C0 b
    match boundSide k true qn, boundSide k false qn with
    | some d, _ =>
      if notOwner (getLink k true d) c then precise s l c sPERM 3 word
      else if 3 < w then precise s l c sBOUNDS 3 word
      else if 2 ^ 32 ≤ gt.toNat then precise s l c sBOUNDS 3 gt
      else qrdLink s l c b d gt.toNat
    | none, some _ => precise s l c sPERM 3 word
    | none, none =>
      let q := getQ k qn
      if !q.valid ∨ entBytes q ≤ 8 * w then precise s l c sBOUNDS 3 word
      else if 2 ^ 32 ≤ gt.toNat then precise s l c sBOUNDS 3 gt
      else qrdRing s l c b gt.toNat

/-- QRD_TIMEOUT (R254): the wait ends with PD false; GD and the queue are unchanged. -/
def doQrdTimeout (l : Lcid) (c : CtxNo) (s : State) : State :=
  let x := ctxOf s l c
  match x.wait with
  | .queue _ pd _ =>
    if effSt x = .waiting ∧ due s x = true then
      modCtxOf (abandonWait s l c) l c fun x => { writeP (makeReady x) pd false with pc := x.pc + 8 }
    else s
  | _ => s

/-! ### QPUT and QTEST -/

/-- R283: a QPUT to a full outbound skid queue of the issuing context is not eligible. -/
def qputRoom (b : BitVec 54) (c : CtxNo) (k : Core) : Bool :=
  match boundSide k false (qnOf b) with
  | some d =>
    let e := getLink k false d
    e.broken || notOwner e c || decide (e.words.length < fld e.reg 56 7)
  | none => true

/-- The address faults of QPUT for an entry of `n` bytes (R206). -/
def qputFault (sl : Slice) (a : Word) (n : Nat) : Option (Status × Word) :=
  match ownOff a with
  | none => some (sBOUNDS, a)
  | some o =>
    if sliceBytes < o + n then some (sBOUNDS, a)
    else if o % n ≠ 0 then some (sALIGN, a)
    else (poisonAt sl o n).map fun p => (sPOISON, wd p)

/-- R283: a word written to an outbound endpoint. -/
def putLink (k : Core) (d : Nat) (bs : List Byte) : Core :=
  let e := getLink k false d
  setLink k false d { e with words := e.words ++ [(e.seq, bs, false)], seq := e.seq + 1 }

/-- QPUT's entry given to a configured queue: the core, and PD or the chunk that R564 names. -/
def qputRing (k : Core) (qn : Nat) (bs : List Byte) (who : Word) : Core × Except Nat Bool :=
  let q := getQ k qn
  if q.kind = 2 then
    let r : BitVec 16 := BitVec.ofNat 16 (leNat ((bs.drop 62).take 2))
    if boomTakes q r then
      (feedQueue (setQ k qn (boomAdd q r (boomVals q (bs.take (boomLen q))))) qn who, .ok true)
    else (k, .ok false)
  else match qAppend k qn bs with
  | (k, .done _) => (feedQueue k qn who, .ok true)
  | (k, .full) => (k, .ok false)
  | (k, .poison a) => (k, .error a)

/-- QPUT (R206, R255, R256, R283, R564). -/
def doQput (l : Lcid) (c : CtxNo) (b : BitVec 54) (s : State) : State :=
  issue s l c 0x1C1 b 3 (onlyFields b [(42, 4), (35, 3), (0, 6)]) (qputRoom b c) fun s =>
    let k := getCore s l
    let qn := qnOf b
    let ga := gAt (getCtx k c) b 42
    let word := insWord 0x1C1 b
    match boundSide k false qn, boundSide k true qn with
    | some d, _ =>
      let e := getLink k false d
      if notOwner e c then precise s l c sPERM 3 word
      else match qputFault k.sp ga 32 with
      | some f => precise s l c f.1 3 f.2
      | none =>
        if e.broken then finishP s l c b false
        else finishP (setCore s l (putLink k d (slRead k.sp (fld ga 0 21) 32))) l c b true
    | none, some _ => precise s l c sPERM 3 word
    | none, none =>
      let q := getQ k qn
      if !q.valid then precise s l c sBOUNDS 3 word
      else match qputFault k.sp ga (entBytes q) with
      | some f => precise s l c f.1 3 f.2
      | none =>
        match qputRing k qn (slRead k.sp (fld ga 0 21) (entBytes q)) (senderWord s l c) with
        | (k, .ok v) => finishP (setCore s l k) l c b v
        | (_, .error a) => precise s l c sPOISON 3 (wd a)

/-- QTEST (R206, R282, R283). -/
def doQtest (l : Lcid) (c : CtxNo) (b : BitVec 54) (s : State) : State :=
  issue s l c 0x1C2 b 3 (onlyFields b [(35, 3), (0, 6)]) anyRoom fun s =>
    let k := getCore s l
    let qn := qnOf b
    let side := match boundSide k true qn with
      | some d => some (getLink k true d)
      | none => (boundSide k false qn).map (getLink k false)
    match side with
    | some e => if notOwner e c then precise s l c sPERM 3 (insWord 0x1C2 b) else finishP s l c b (!(linkHeads e).isEmpty)
    | none =>
      let q := getQ k qn
      if q.valid then finishP s l c b (!q.ents.isEmpty) else precise s l c sBOUNDS 3 (insWord 0x1C2 b)

/-! ### QCFG (R252, R253) -/

/-- The queue that an image describes; none for a reserved bit or value (Table 09.4). -/
def queueOf (qn : Nat) (w0 w1 w2 w3 : Word) : Option Queue :=
  if !bit w1 63 then
    if w0 = 0 ∧ w1 = 0 ∧ w2 = 0 ∧ w3 = 0 then some Queue.zero else none
  else
    let kind := fld w1 61 2
    let i64 := bit w2 63
    let width := fld w2 57 4
    let boomOk := decide (1 ≤ width) && decide (width ≤ if i64 then 7 else 14) && fld w2 37 16 != 0 &&
      (bit w2 36 || fld w2 24 12 == 0) && fld w2 16 8 == 0
    if fld w0 21 43 ≠ 0 ∨ fld w1 0 55 ≠ 0 ∨ w3 ≠ 0 ∨ kind = 3 ∨ fld w1 55 4 = 0 ∨ fld w1 55 4 = 15
        ∨ (kind ≠ 0 ∧ fld w1 59 2 ≠ 3) ∨ (kind ≠ 2 ∧ w2 ≠ 0) ∨ (kind = 2 ∧ !boomOk) ∨ (qn = 63 ∧ kind ≠ 1) then none
    else some { Queue.zero with
      valid := true, kind := BitVec.ofNat 2 kind, esz := BitVec.ofNat 2 (fld w1 59 2)
      lcap := BitVec.ofNat 4 (fld w1 55 4), base := BitVec.ofNat 21 (fld w0 0 21)
      boomW := w2, next := BitVec.ofNat 16 (fld w2 0 16) }

/-- R253 step 6: the queue is in use. -/
def queueBusy (q : Queue) : Bool := !q.ents.isEmpty || !q.held.isEmpty || !q.waiters.isEmpty || !q.slots.isEmpty

/-- QCFG (R253, R281). -/
def doQcfg (l : Lcid) (c : CtxNo) (b : BitVec 54) (s : State) : State :=
  issue s l c 0x1C3 b 3 (onlyFields b [(42, 4), (0, 6)]) anyRoom fun s =>
    let k := getCore s l
    let qn := qnOf b
    let ga := gAt (getCtx k c) b 42
    let word := insWord 0x1C3 b
    if (boundSide k true qn).isSome ∨ (boundSide k false qn).isSome then precise s l c sPERM 3 word
    else if fld ga 0 5 ≠ 0 then precise s l c sALIGN 3 ga
    else match ownOff ga with
    | none => precise s l c sBOUNDS 3 ga
    | some o =>
      match poisonAt k.sp o 32 with
      | some _ => precise s l c sPOISON 3 ga
      | none =>
        match queueOf qn (slWord k.sp o) (slWord k.sp (o + 8)) (slWord k.sp (o + 16)) (slWord k.sp (o + 24)) with
        | none => precise s l c sRSVD 3 word
        | some q =>
          if q.valid ∧ q.base.toNat % entBytes q ≠ 0 then precise s l c sALIGN 3 (wd q.base.toNat)
          else if q.valid ∧ sliceBytes < q.base.toNat + capOf q * entBytes q then precise s l c sBOUNDS 3 (wd q.base.toNat)
          else if q.valid ∧ q.kind = 2 ∧ 32 < boomSlotsUsed k qn + boomDepth q then
            let (s, v) := freshWord s
            precise s l c sBOUNDS 3 v
          else if queueBusy (getQ k qn) then precise s l c sPERM 3 word
          else advance (setCore s l (setQ k qn q)) l c

/-! ### Boom rounds -/

/-- BOOM_ROUND_RELEASE (R256 to R258): round NEXT, complete and with room in the ring, becomes an entry. -/
def doBoomRoundRelease (l : Lcid) (qn : BitVec 6) (s : State) : State :=
  let k := getCore s l
  let q := getQ k qn.toNat
  if !boomReady q then s
  else match qAppend k qn.toNat (wordBytes (boomEntry q)) with
  | (k, .done n) =>
    let v := getQ k qn.toNat
    let k := setQ k qn.toNat { v with next := v.next + 1, slots := tput BoomSlot.zero v.slots (boomIx q q.next) BoomSlot.zero }
    setCore s l (if boomStart q then modUn k fun u => { u with starts := u.starts ++ [.boom qn.toNat n (boomHidx q)] } else k)
  | _ => s

/-! ### Meanings -/

def execQrd (l : Lcid) (c : CtxNo) (b : BitVec 54) (s : State) : Out := .next (doQrd l c b s)
def execQput (l : Lcid) (c : CtxNo) (b : BitVec 54) (s : State) : Out := .next (doQput l c b s)
def execQtest (l : Lcid) (c : CtxNo) (b : BitVec 54) (s : State) : Out := .next (doQtest l c b s)
def execQcfg (l : Lcid) (c : CtxNo) (b : BitVec 54) (s : State) : Out := .next (doQcfg l c b s)
def execQrdTimeout (l : Lcid) (c : CtxNo) (s : State) : Out := .next (doQrdTimeout l c s)
def execBoomRoundRelease (l : Lcid) (qn : BitVec 6) (s : State) : Out := .next (awake (doBoomRoundRelease l qn) s)

end Sys2Proof.Machine
end

