-- ==== Sys2Proof/Machine/Messages.lean ====
section
/-! DEFINITION. Active messages: SEND and MSGREL, injection, arrival, placement, starts, the hold buffer
(09_messages_and_queues.md R240 to R248, 06_core_and_contexts.md R168 to R171). -/

namespace Sys2Proof.Machine

/-! ### SEND -/

/-- R242: the message queue has room. -/
def msgRoom (k : Core) : Bool := decide (k.un.msgq.length < 32)

/-- The header image with the fields that hardware sets (Table 09.1). -/
def sendHdr (s : State) (l : Lcid) (c : CtxNo) (w0 w1 w2 w3 : Word) : Hdr :=
  { w0 := w0, w1 := putFld (putFld w1 56 1 0) 0 36 (senderWord s l c).toNat, w2 := w2
    w3 := putFld (putFld w3 32 16 (fld (getCore s l).role 48 16)) 0 32 0 }

/-- R243 step 2: a reserved bit or value of the header. -/
def badHdr (h : Hdr) : Bool :=
  let c := hdrClass h
  fld h.w0 6 3 != 0 || fld h.w1 57 7 != 0 || fld h.w1 46 5 != 0 || c == 3 || decide (512 < hdrLen h) ||
  (bit h.w1 55 && fld h.w0 33 15 != 0) || (c != 0 && fld h.w0 9 12 != 0) || (c == 0 && hdrQn h != 0) ||
  (c != 2 && fld h.w3 48 16 != 0)

/-- The device that a header names, none for this one (R241). -/
def hdrFar (s : State) (h : Hdr) : Option Did :=
  let d : Did := BitVec.ofNat 15 (fld h.w0 33 15)
  if bit h.w1 55 || (hasDid s && d == ownDid s) then none else some d

/-- R243 step 5: no route to the destination. -/
def noRoute (s : State) (h : Hdr) : Bool := match hdrFar s h with | some d => !hasRoute s d | none => false

/-- R243: the first check that a SEND fails. -/
def sendFault (s : State) (sl : Slice) (gx gy : Nat) (h : Hdr) : Option Status :=
  if (poisonAt sl gx 32).isSome then some sPOISON
  else if badHdr h then some sRSVD
  else if sliceBytes < gy + hdrLen h then some sBOUNDS
  else if (poisonAt sl gy (hdrLen h)).isSome then some sPOISON
  else if noRoute s h then some sNOROUTE
  else none

/-- A header whose words are free: its image was poisoned (log entry 3, DESIGN CHOICE). -/
def freeHdr (s : State) (h : Hdr) : State × Hdr :=
  let (s, a) := freshWord s
  let (s, b) := freshWord s
  let (s, c) := freshWord s
  let (s, d) := freshWord s
  (s, { w0 := a, w1 := putFld (putFld b 56 1 0) 0 36 (fld h.w1 0 36), w2 := c, w3 := putFld d 0 48 (fld h.w3 0 48) })

/-- SEND (R242, R243). -/
def doSend (l : Lcid) (c : CtxNo) (b : BitVec 54) (s : State) : State :=
  issue s l c 0x200 b 4 (onlyFields b [(46, 4), (42, 4), (0, 6)]) msgRoom fun s =>
    let k := getCore s l
    let gx := gAt (getCtx k c) b 46
    let gy := gAt (getCtx k c) b 42
    let cq := qnOf b
    if fld gx 0 5 ≠ 0 then precise s l c sALIGN 4 gx
    else match ownOff gx, ownOff gy with
    | none, _ => precise s l c sBOUNDS 4 gx
    | _, none => precise s l c sBOUNDS 4 gy
    | some x, some y =>
      let h := sendHdr s l c (slWord k.sp x) (slWord k.sp (x + 8)) (slWord k.sp (x + 16)) (slWord k.sp (x + 24))
      let s := setCore s l (feedQueue k cq (senderWord s l c))
      match sendFault s k.sp x y h with
      | some st =>
        let (s, h) := if (poisonAt k.sp x 32).isSome then freeHdr s h else (s, h)
        postEntry (advance s l c) l cq (complWords s st 0 0 0 0 0 (some h))
      | none =>
        let o : SendOp := { ctx := c, cq := BitVec.ofNat 6 cq, iss := k.un.nid
                            msg := { h := h, data := slRead k.sp y (hdrLen h), bad := [], part := corePart s l, mid := k.un.nid, due := 0 , again := false} }
        advance (modCore s l fun k => modUn k fun u => { u with msgq := u.msgq ++ [o], nid := u.nid + 1 }) l c

/-- MSGREL (R207, R245, R482). -/
def doMsgrel (l : Lcid) (c : CtxNo) (b : BitVec 54) (s : State) : State :=
  issue s l c 0x201 b 4 (onlyFields b []) anyRoom fun s =>
    let x := ctxOf s l c
    if x.src = .none then advance s l c
    else if x.hasRec then finish s l c fun x => { x with defMsg := true }
    else advance (modCore s l fun k => dropSource k c) l c

/-! ### Injection -/

/-- R244: a FENCE message waits for the hauls that its context issued earlier. -/
def fenced (k : Core) (o : SendOp) : Bool :=
  bit o.msg.h.w1 52 && k.un.hauls.any fun h => h.ctx == o.ctx && decide (h.iss < o.iss)

/-- The first message of the queue that may be injected: no earlier one of its context waits (R244). -/
def nextSend (k : Core) : List CtxNo → List SendOp → Option SendOp
  | _, [] => none
  | bl, o :: r => if bl.contains o.ctx || fenced k o then nextSend k (o.ctx :: bl) r else some o

/-- A message packet. -/
def msgPkt (m : Msg) : Pkt := { Pkt.blank with kind := 4, msg := some m, len := hdrLen m.h, tag := m.mid, part := m.part }

/-- MESSAGE_INJECT (R242): the first message that may go is injected. -/
def doMessageInject (l : Lcid) (s : State) : State :=
  let k := getCore s l
  match nextSend k [] k.un.msgq with
  | none => s
  | some o =>
    if !occupied s l then s
    else
      let m := o.msg
      let s := modCore s l fun k => modUn k fun u => { u with msgq := u.msgq.filter fun q => q.iss != o.iss }
      let p := msgPkt m
      let sent : SentMsg := { ctx := o.ctx, cq := o.cq, msg := m, seq := nextSeq s (dgOf l) (4 + posOf l) p
                              retried := false, lost := false, tick := now s }
      let keep := fun s => modCore s l fun k => modUn k fun u => { u with sent := u.sent ++ [sent] }
      let s := match hdrFar s m.h with
        | some d =>
          if hasRoute s d then sendFar (keep s) (.pos l) p d l (some (hdrDst m.h))
          else postEntry s l o.cq.toNat (complWords s sLOST 0 0 0 0 0 (some m.h))
        | none =>
          let t := hdrDst m.h
          if (routeHops s (dgOf l) (dgOf t)).isNone then bounce (keep s) (.unit (dgOf l)) m sVACANT
          else sendFrom (keep s) l (p.toCore t)
      settle s l o.ctx

/-! ### Arrival -/

/-- The arrival slots of a core (Table 09.12). -/
def slotCount (k : Core) : Nat := fld k.un.area 21 11

/-- Address of arrival slot `i`. -/
def slotAddr (k : Core) (i : Nat) : Nat := fld k.un.area 0 21 + 640 * i

/-- The lowest free arrival slot. -/
def freeSlot (k : Core) : Option Nat := firstThat (fun i => !sHas k.un.slots i) (below (slotCount k))

/-- Table 09.2, checks 2 to 7: the first that a message fails. -/
def arrivalFault (s : State) (l : Lcid) (m : Msg) (part : BitVec 4) : Option Status :=
  let k := getCore s l
  let q := getQ k (hdrQn m.h)
  if fld k.role 28 16 = 0 ∨ !bit k.ctrl 0 then some sNOTLOADED
  else if partOf s (dgOf l) ≠ some part then some sPERM
  else if fld m.h.w0 48 16 ≠ fld k.role 48 16 then some sSTALE
  else match hdrClass m.h with
    | 0 => if bit (tget 0 k.ht (hdrHidx m.h).toNat) 63 then none else some sNOHANDLER
    | 1 => if q.valid ∧ q.kind = 0 ∧ hdrLen m.h = entBytes q then none else some sBOUNDS
    | _ => if q.valid ∧ q.kind = 2 ∧ hdrLen m.h = boomLen q ∧ boomTakes q (BitVec.ofNat 16 (fld m.h.w3 48 16)) = true then none
           else some sBOUNDS

/-- Two messages need the same room (R247). -/
def sameRoom (a b : Msg) : Bool :=
  hdrClass a.h == hdrClass b.h && (hdrClass a.h == 0 || (hdrClass a.h == 1 && hdrQn a.h == hdrQn b.h))

/-- The bytes of a header. -/
def hdrBytes (h : Hdr) : List Byte := wordBytes [h.w0, h.w1, h.w2, h.w3]

/-- R226: poisoned payload bytes that would reach only a part of a chunk. -/
def badTail (m : Msg) : Bool := m.bad.any fun j => decide (m.data.length < (j / 32 + 1) * 32)

/-- R246: a message placed if it can be: START into a free slot, DEPOSIT into its queue, BOOM into its round. A START whose payload would end within a
poisoned chunk is bounced as a DEPOSIT is (R225; log entry 106, DEDUCED). Payload bytes that a link has poisoned mark the chunks that they are
written to (R297, R226); a BOOM contribution with such bytes is bounced (log entry 110, DESIGN CHOICE). -/
def placeMsg (s : State) (l : Lcid) (m : Msg) : Option State :=
  let k := getCore s l
  let who := wd (fld m.h.w1 0 36)
  match hdrClass m.h with
  | 0 =>
    match freeSlot k with
    | none => none
    | some i =>
      let r := slWrite k.sp (slotAddr k i) (hdrBytes m.h ++ m.data)
      if r.2.isSome || badTail m then some (coreBounce s l m sPOISON) else
      let k := modSp k fun _ => markBytes r.1 (slotAddr k i + 32) m.bad
      let k := modUn k fun u => { u with slots := sIns u.slots i, starts := u.starts ++ [.msg i m] }
      some (acceptMsg (setCore s l k) l m)
  | 1 =>
    if badTail m && !qFull (getQ k (hdrQn m.h)) then some (coreBounce s l m sPOISON) else
    match qAppend k (hdrQn m.h) m.data with
    | (k, .done n) =>
      let k := modSp k fun sl => markBytes sl (entAddr (getQ k (hdrQn m.h)) n) m.bad
      some (acceptMsg (setCore s l (feedQueue k (hdrQn m.h) who)) l m)
    | (_, .full) => none
    | (_, .poison _) => some (coreBounce s l m sPOISON)
  | _ =>
    if m.bad ≠ [] then some (coreBounce s l m sPOISON) else
    let q := getQ k (hdrQn m.h)
    let k := setQ k (hdrQn m.h) (boomAdd q (BitVec.ofNat 16 (fld m.h.w3 48 16)) (boomVals q m.data))
    some (acceptMsg (setCore s l (feedQueue k (hdrQn m.h) who)) l m)

/-- The microseconds of ARR_TMO (Table 09.13). -/
def arrTmo (k : Core) : Nat := fld k.un.cfg 24 16

/-- R246, R247: a message at its core: bounced, placed or held. -/
def arriveMsg (s : State) (l : Lcid) (m : Msg) (part : BitVec 4) : State :=
  match arrivalFault s l m part with
  | some st => coreBounce s l m st
  | none =>
    let k := getCore s l
    let m := { m with due := deadlineAt s (arrTmo k) }
    let hold := modCore s l fun k => modUn k fun u => { u with hold := u.hold ++ [m] }
    if k.un.hold.any (sameRoom m) then hold
    else match placeMsg s l m with
      | some s => s
      | none => hold

/-- R500, R504: a position held for a Sounding of its site or the sweep of a spare, which answers NOT_LOADED. -/
def testHeld (s : State) (l : Lcid) : Bool := underSound s (corePsid s l 7) || sweptPos s l

/-- A MSG packet that its position can take now: the hold buffer has room and no recovery holds it (R247, R486). -/
def msgTakeable (s : State) (dg : Dg) (p : Pkt) : Bool :=
  let l := lcidOf dg p.dpos.toNat
  let k := getCore s l
  p.kind == 4 && p.exit == 0 && !earlier s p &&
    (!occupied s l || ((!k.recHold || testHeld s l) && !checkHeld s l && decide (k.un.hold.length < 8)))

/-- MESSAGE_ARRIVAL (R246): the first message that a position of the grove can take. -/
def doMessageArrival (dg : Dg) (s : State) : State :=
  match takeArrived s dg (msgTakeable s dg) with
  | none => s
  | some (p, s) =>
    match p.msg with
    | none => s
    | some m =>
      if takenBefore (getGrove s dg) p then s
      else
        let s := modGrove s dg fun g => noteTaken g p
        let l := lcidOf dg p.dpos.toNat
        if occupied s l then arriveMsg s l { m with again := p.retried } p.part else bounce s (.unit dg) m sVACANT

/-! ### Starts -/

/-- Contexts that a handler started and that are not FREE (R170). -/
def handlerBusy (k : Core) (h : BitVec 12) : Nat :=
  (k.ctxs.filter fun p => p.2.st ≠ .free ∧ p.2.handler = h ∧ p.2.origin ≠ 2).length

/-- The handler of a waiting start. -/
def startHidx : PendStart → BitVec 12
  | .msg _ m => hdrHidx m.h
  | .boom _ _ h => h

/-- R170: the first waiting start whose handler is below its LIMIT, with no earlier one of its handler; an entry that is
not VALID sets no limit. -/
def nextStart (k : Core) : List (BitVec 12) → List PendStart → Option PendStart
  | _, [] => none
  | seen, p :: r =>
    let h := startHidx p
    let e := tget 0 k.ht h.toNat
    if seen.contains h || (bit e 63 && fld e 48 8 != 0 && decide (fld e 48 8 ≤ handlerBusy k h)) then nextStart k (h :: seen) r
    else some p

/-- A waiting start removed. -/
def dropStart (k : Core) (p : PendStart) : Core := modUn k fun u => { u with starts := u.starts.erase p }

/-- An arrival slot freed. -/
def freeArrival (k : Core) (i : Nat) : Core := modUn k fun u => { u with slots := sDel u.slots i }

/-- MESSAGE_START (R169 to R171, R175, R258): the next waiting start takes the lowest FREE context. -/
def doMessageStart (l : Lcid) (s : State) : State :=
  let k := getCore s l
  match nextStart k [] k.un.starts, lowestFree k with
  | some p, some c =>
    if !occupied s l ∨ !mayStart k ∨ k.notices ≠ [] then s
    else
      let e := tget 0 k.ht (startHidx p).toNat
      let k' := dropStart k p
      let pc : BitVec 21 := BitVec.ofNat 21 (fld e 0 21)
      match p with
      | .msg i m =>
        if fld m.h.w0 48 16 ≠ fld k.role 48 16 then coreBounce (setCore s l (freeArrival k' i)) l m sSTALE
        else if !bit e 63 then coreBounce (setCore s l (freeArrival k' i)) l m sNOHANDLER
        else setCore s l (startCtx k' c pc (wd (slotAddr k i)) (wd (hdrLen m.h)) (wd (fld m.h.w1 0 36)) 0 (hdrHidx m.h) (.slot i))
      | .boom qn n h =>
        if !bit e 63 then setCore s l k'
        else
          let q := getQ k' qn
          let k' := setQ k' qn { q with held := q.held ++ [(n, c)] }
          setCore s l (startCtx k' c pc (wd (entAddr q n)) 64 0 0 h (.boom qn n))
  | _, _ => s

/-! ### The hold buffer -/

/-- R247: the first held message that can be placed; one that cannot keeps back those that need the same room. -/
def placeHeld (s : State) (l : Lcid) : List Msg → List Msg → Option (Msg × State)
  | _, [] => none
  | bl, m :: r =>
    if bl.any (sameRoom m) then placeHeld s l bl r
    else match placeMsg s l m with
      | some s => some (m, s)
      | none => placeHeld s l (m :: bl) r

/-- A message taken out of the hold buffer. -/
def dropHold (s : State) (l : Lcid) (m : Msg) : State := modCore s l fun k => modUn k fun u => { u with hold := u.hold.erase m }

/-- HELD_MESSAGE_PLACED (R247). -/
def doHeldMessagePlaced (l : Lcid) (s : State) : State :=
  match placeHeld s l [] (getCore s l).un.hold with
  | some (m, s) => dropHold s l m
  | none => s

/-- ARR_TMO_EXPIRY (R247). -/
def doArrTmoExpiry (l : Lcid) (s : State) : State :=
  match firstThat (fun (m : Msg) => decide (m.due ≤ now s)) (getCore s l).un.hold with
  | some m => coreBounce (dropHold s l m) l m sQTIMEOUT
  | none => s

/-! ### Meanings -/

def execSend (l : Lcid) (c : CtxNo) (b : BitVec 54) (s : State) : Out := .next (doSend l c b s)
def execMsgrel (l : Lcid) (c : CtxNo) (b : BitVec 54) (s : State) : Out := .next (doMsgrel l c b s)
def execMessageInject (l : Lcid) (s : State) : Out := .next (awake (doMessageInject l) s)
def execMessageArrival (dg : Dg) (s : State) : Out := .next (awake (doMessageArrival dg) s)
def execMessageStart (l : Lcid) (s : State) : Out := .next (awake (doMessageStart l) s)
def execHeldMessagePlaced (l : Lcid) (s : State) : Out := .next (awake (doHeldMessagePlaced l) s)
def execArrTmoExpiry (l : Lcid) (s : State) : Out := .next (awake (doArrTmoExpiry l) s)

end Sys2Proof.Machine
end

