-- ==== Sys2Proof/Machine/Hauls.lean ====
section
/-! DEFINITION. Hauls and split requests: checks, packets, completion (09_messages_and_queues.md R259 to R263). -/

namespace Sys2Proof.Machine

/-! ### Checks (R259) -/

/-- Whether two ranges of `n` bytes share a byte of one memory. -/
def placeClash (x y : Place) (n : Nat) : Bool :=
  let meet := fun (a b : Nat) => decide (a < b + n) && decide (b < a + n)
  match x, y with
  | .slice l a, .slice m b => l == m && meet a b
  | .hbm p a, .hbm q b => p == q && meet a b
  | .remote d l a, .remote e m b => d == e && l == m && meet a b
  | _, _ => false

/-- R237: whether an address names a fused grove of this device. -/
def fusedAddr (s : State) (a : Addr) : Bool :=
  match a with
  | .dev t _ => fusedCore s t
  | .far d t _ => hasDid s && d == ownDid s && fusedCore s t
  | _ => false

/-- R259: the first check that a haul fails, with the offending address. A haul of which one address lies in a fused grove never ends in PERM, for its
other address neither (R237; log entry 147, DEDUCED). -/
def haulFault (s : State) (l : Lcid) (dst src : Word) (count : Nat) : Option (Status × Word) :=
  let p := partOf s (dgOf l)
  let wrong := fun w => match addrOf w with
    | none => true
    | some a => !inSpace s p a count
  if wrong dst then some (sBOUNDS, dst)
  else if wrong src then some (sBOUNDS, src)
  else if 2 ^ 32 < count then some (sBOUNDS, dst)
  else match addrOf dst, addrOf src with
  | some d, some r =>
    let both := [(d, dst), (r, src)]
    match firstThat (fun x => !mayReach s p x.1) (if both.any fun x => fusedAddr s x.1 then [] else both) with
    | some x => some (sPERM, x.2)
    | none =>
    match firstThat (fun x => vacantAddr s x.1 || cutOff s (dgOf l) x.1) both with
    | some x => some (sVACANT, x.2)
    | none =>
    match firstThat (fun x => match farDid s x.1 with | some did => !hasRoute s did | none => false) both with
    | some x => some (sNOROUTE, x.2)
    | none =>
      if placeClash (place s l (corePart s l) d) (place s l (corePart s l) r) count then some (sBOUNDS, dst) else none
  | _, _ => some (sBOUNDS, dst)

/-! ### Parts -/

/-- A part as issued, ended at once by a failed check or by a count of 0 (R259). -/
def newPart (s : State) (l : Lcid) (dst src : Word) (count : Nat) : Xfer :=
  let x : Xfer := { dst := dst, src := src, count := count, conf := 0, phase := 0, tag := 0, data := [], bad := [], done := count == 0, status := sOK
                    detail := 0, retried := false, lost := false, tick := now s }
  match haulFault s l dst src count with
  | some e => { x with done := true, status := e.1, detail := e.2 }
  | none => x

/-- R260: packets that the destination range is cut into. -/
def partPackets (x : Xfer) : Nat := if x.count = 0 then 0 else (x.dst.toNat % 512 + x.count + 511) / 512

/-- Offset from the start of the range to packet `k`. -/
def packetAt (x : Xfer) (k : Nat) : Nat := if k = 0 then 0 else 512 * k - x.dst.toNat % 512

/-- Bytes of packet `k`. -/
def packetLen (x : Xfer) (k : Nat) : Nat := min x.count (packetAt x (k + 1)) - packetAt x k

/-- A part that ends with a status; DETAIL is the destination of the first unconfirmed packet (Table 09.3). -/
def endPart (x : Xfer) (st : Status) : Xfer :=
  { x with done := true, phase := 0, data := [], bad := [], status := st, detail := x.dst + wd (packetAt x x.conf) }

/-- Poison noted at a destination address (R260). -/
def notePoison (x : Xfer) (a : Word) : Xfer := if x.status = sOK then { x with status := sPOISON, detail := a } else x

/-- A packet confirmed (R260). -/
def confirmPacket (s : State) (x : Xfer) : Xfer :=
  { x with conf := x.conf + 1, phase := 0, data := [], bad := [], done := x.conf + 1 == partPackets x, tick := now s }

/-- The status that a part ends with (R260). -/
def partStatus (x : Xfer) : Status := if x.status = sOK && x.retried then sRETRIED else x.status

/-- R262: a committed part. -/
def committed (x : Xfer) : Bool := partStatus x == sOK || partStatus x == sRETRIED

/-! ### Completion -/

/-- The entry of a HAUL (Table 09.3). -/
def haulEntry (s : State) (o : HaulOp) (x : Xfer) : List Word :=
  complWords s (partStatus x) 1 o.tag.toNat x.conf 0 (if committed x then 0 else x.detail) none

/-- The entry of a HAULL (R262). -/
def haullEntry (s : State) (o : HaulOp) : List Word :=
  let good := o.parts.filter committed
  let mask := ((o.parts.zipIdx).map fun p => bitAt (committed p.1) p.2).sum
  let st := if good.length < o.parts.length then sPARTIAL
    else if o.parts.any fun x => partStatus x == sRETRIED then sRETRIED else sOK
  let detail := match firstThat (fun p : Xfer × Nat => !committed p.1) o.parts.zipIdx with
    | some p => wd ((partStatus p.1).toNat * 2 ^ 56 + p.2 * 2 ^ 50)
    | none => 0
  complWords s st 2 o.tag.toNat good.length (wd mask) detail none

/-- A haul of the core by its number. -/
def findHaul (k : Core) (id : Nat) : Option HaulOp := firstThat (fun o => o.id == id) k.un.hauls

/-- R259: a haul whose parts have all ended writes its completion and leaves the queue. -/
def closeHaul (s : State) (l : Lcid) (id : Nat) : State :=
  match findHaul (getCore s l) id with
  | none => s
  | some o =>
    if o.parts.all fun x => x.done then
      let s := modCore s l fun k => modUn k fun u => { u with hauls := u.hauls.filter fun h => h.id != id }
      let ws := if o.split then haullEntry s o else match o.parts with
        | x :: _ => haulEntry s o x
        | [] => haullEntry s o
      settle (postEntry s l o.cq.toNat ws) l o.ctx
    else s

/-- A part of a haul changed. -/
def modPart (s : State) (l : Lcid) (id i : Nat) (f : Xfer → Xfer) : State :=
  modCore s l fun k => modUn k fun u => { u with hauls := u.hauls.map fun o =>
    if o.id = id then { o with parts := o.parts.modify i f } else o }

/-- A part changed, and the haul closed if it was the last. -/
def stepPart (s : State) (l : Lcid) (id i : Nat) (f : Xfer → Xfer) : State := closeHaul (modPart s l id i f) l id

/-! ### HAUL and HAULL -/

/-- A haul that enters the queue (R259). -/
def startHaul (s : State) (l : Lcid) (c : CtxNo) (cq : Nat) (tag : Nat) (split : Bool) (parts : List Xfer) : State :=
  let id := (getCore s l).un.nid
  let o : HaulOp := { id := id, ctx := c, cq := BitVec.ofNat 6 cq, tag := BitVec.ofNat 16 tag, split := split, iss := id, parts := parts }
  let s := modCore s l fun k => modUn (feedQueue k cq (senderWord s l c)) fun u => { u with hauls := u.hauls ++ [o], nid := id + 1 }
  closeHaul s l id

/-- R259, R516: the haul queue, which brand operations share, has room. -/
def haulRoom (k : Core) : Bool := decide (k.un.hauls.length + k.eng.brandq.length < 16)

/-- HAUL (R259). -/
def doHaul (l : Lcid) (c : CtxNo) (b : BitVec 54) (s : State) : State :=
  issue s l c 0x240 b 5 (onlyFields b [(46, 4), (42, 4), (38, 4), (22, 16), (0, 6)]) haulRoom fun s =>
    let x := ctxOf s l c
    startHaul (advance s l c) l c (qnOf b) (fld b 22 16) false
      [newPart s l (gAt x b 46) (gAt x b 42) (gAt x b 38).toNat]

/-- R261: what a part list read at `a` gives: its parts, or the status that it completes with. -/
def readParts (s : State) (l : Lcid) (a : Nat) : Status ⊕ List Xfer :=
  let sl := (getCore s l).sp
  if sliceBytes < a + 8 then .inl sRSVD
  else if (poisonAt sl a 8).isSome then .inl sPOISON
  else
    let w := slWord sl a
    let n := fld w 0 7
    if fld w 7 57 ≠ 0 ∨ n = 0 ∨ 64 < n ∨ sliceBytes < a + 8 + 24 * n then .inl sRSVD
    else if (poisonAt sl a (8 + 24 * n)).isSome then .inl sPOISON
    else .inr ((below n).map fun i =>
      newPart s l (slWord sl (a + 8 + 24 * i)) (slWord sl (a + 16 + 24 * i)) (slWord sl (a + 24 + 24 * i)).toNat)

/-- HAULL (R261). -/
def doHaull (l : Lcid) (c : CtxNo) (b : BitVec 54) (s : State) : State :=
  issue s l c 0x241 b 5 (onlyFields b [(42, 4), (22, 16), (0, 6)]) haulRoom fun s =>
    let gy := gAt (ctxOf s l c) b 42
    if fld gy 0 3 ≠ 0 then precise s l c sALIGN 5 gy
    else match ownOff gy with
    | none => precise s l c sBOUNDS 5 gy
    | some a =>
      match readParts s l a with
      | .inr parts => startHaul (advance s l c) l c (qnOf b) (fld b 22 16) true parts
      | .inl st =>
        let s := modCore (advance s l c) l fun k => feedQueue k (qnOf b) (senderWord s l c)
        postEntry s l (qnOf b) (complWords s st 2 (fld b 22 16) 0 0 0 none)

/-! ### Packets -/

/-- The place of packet `k`'s bytes from an address of the part, none if it has no place any more. -/
def partPlace (s : State) (l : Lcid) (w : Word) : Option Place :=
  match addrOf w with
  | some a => if vacantAddr s a || cutOff s (dgOf l) a then none else some (place s l (corePart s l) a)
  | none => none

/-- The write request of a part's packet under way. -/
def haulWritePkt (pl : Place) (x : Xfer) : Pkt :=
  { Pkt.blank with kind := 1, addr := placeWord pl, tag := x.tag, len := x.data.length, data := x.data, bad := x.bad }

/-- The read request of a part's packet under way. -/
def haulReadPkt (pl : Place) (x : Xfer) : Pkt :=
  { Pkt.blank with kind := 0, addr := placeWord pl, tag := x.tag, len := packetLen x x.conf }

/-- Poisoned bytes that leave for another device go with their marks; the part ends with POISON, from the first of them (R226, R260; log entry 112,
DESIGN CHOICE). -/
def noteFar (pl : Place) (a : Word) (bad : NatSet) (x : Xfer) : Xfer :=
  match pl, bad with
  | .remote _ _ _, q :: _ => notePoison x (a + wd q)
  | _, _ => x

/-- The write request of a packet sent, its bytes held until it is acknowledged. -/
def haulWrite (s : State) (l : Lcid) (id i : Nat) (x : Xfer) (a : Word) (pl : Place) (bs : List Byte) (bad : NatSet) : State :=
  let x := noteFar pl a bad { x with phase := 2, tag := newTag (getCore s l), data := bs, bad := bad, tick := now s }
  sendTo (modCore (modPart s l id i fun _ => x) l bumpTag) l (haulWritePkt pl x) pl

/-- Packet data at hand: written to the own slice, or sent to its destination (R260). -/
def haulData (s : State) (l : Lcid) (id i : Nat) (x : Xfer) (bs : List Byte) (bad : NatSet) : State :=
  let a := x.dst + wd (packetAt x x.conf)
  match partPlace s l a with
  | none => stepPart s l id i fun x => endPart x sVACANT
  | some (.slice t off) =>
    if t = l then
      let r := slCopy (getCore s l).sp off bs bad
      let s := modCore s l fun k => { k with sp := r.1 }
      stepPart s l id i fun x =>
        confirmPacket s (match r.2 with | some q => notePoison x (a + wd (q - off)) | none => x)
    else haulWrite s l id i x a (.slice t off) bs bad
  | some pl => haulWrite s l id i x a pl bs bad

/-- The read request of a packet sent. -/
def haulRead (s : State) (l : Lcid) (id i : Nat) (x : Xfer) (pl : Place) : State :=
  let x := { x with phase := 1, tag := newTag (getCore s l), tick := now s }
  sendTo (modCore (modPart s l id i fun _ => x) l bumpTag) l (haulReadPkt pl x) pl

/-- HAUL_PACKET_INJECT (R260): the next packet of a part: its source is read, at once from the own slice and by a request
otherwise. -/
def doHaulPacketInject (l : Lcid) (op part : Nat) (s : State) : State :=
  match findHaul (getCore s l) op with
  | none => s
  | some o =>
    match o.parts[part]? with
    | none => s
    | some x =>
      if x.done || x.phase != 0 || x.lost || !occupied s l then s
      else
        match partPlace s l (x.src + wd (packetAt x x.conf)) with
        | none => stepPart s l op part fun x => endPart x sVACANT
        | some (.slice t off) =>
          if t = l then
            let r := slFetch (getCore s l).sp off (packetLen x x.conf)
            haulData s l op part x r.1 r.2
          else haulRead s l op part x (.slice t off)
        | some pl => haulRead s l op part x pl

/-- The part of a haul whose request carries a tag: the haul's number and the part's index. -/
def partByTag (k : Core) (ph : BitVec 2) (tag : Nat) : Option (Nat × Nat × Xfer) :=
  firstThat (fun q => q.2.2.phase == ph && q.2.2.tag % 65536 == tag % 65536 && !q.2.2.lost)
    (k.un.hauls.flatMap fun o => o.parts.zipIdx.map fun p => (o.id, p.2, p.1))

/-! ### Meanings -/

def execHaul (l : Lcid) (c : CtxNo) (b : BitVec 54) (s : State) : Out := .next (doHaul l c b s)
def execHaull (l : Lcid) (c : CtxNo) (b : BitVec 54) (s : State) : Out := .next (doHaull l c b s)
def execHaulPacketInject (l : Lcid) (op part : Nat) (s : State) : Out := .next (awake (doHaulPacketInject l op part) s)

end Sys2Proof.Machine
end

