-- ==== Sys2Proof/Machine/Signals.lean ====
section
/-! DEFINITION. MSI-X messages: vectors signalled, masked and pending; notify vectors (14_host_interface.md R381, R382). -/

namespace Sys2Proof.Machine

/-- A function of the host interface. -/
def getFn (s : State) (f : Nat) : Fn := tget Fn.zero s.host.fns f

/-- The state with a function changed. -/
def modFn (s : State) (f : Nat) (g : Fn → Fn) : State :=
  { s with host := { s.host with fns := tput Fn.zero s.host.fns f (g (getFn s f)) } }

/-- R381: a vector of a function signalled: its message is sent, or its pending bit is set while it is masked. -/
def signalFn (n : Fn) (v : Nat) : Fn :=
  if sHas n.unmasked v then { n with sent := tput 0 n.sent v (tget 0 n.sent v + 1) } else { n with pend := sIns n.pend v }

/-- A vector signalled. -/
def signalVec (s : State) (f v : Nat) : State := modFn s f fun n => signalFn n v

/-- R381, Table 14.6: a service event: PF0, and the VF of the partition that it concerns. -/
def serviceEvent (s : State) (vf : Option Nat) : State :=
  let s := signalVec s 0 131
  match vf with
  | some f => signalVec s f 131
  | none => s

/-- R395: the TDI of partition `n`'s virtual function is CONFIG_LOCKED or RUN. -/
def tdiLocked (s : State) (n : Nat) : Bool :=
  match (getFn s (n + 1)).tdi with
  | .locked | .run => true
  | _ => false

/-- An SPDM session that is established (R394). -/
def hasSession (s : State) (id : Option Nat) : Bool := match id with | some n => s.host.sess.any fun x => x.id == n | none => false

/-- R418: a report that names a partition, as its VF receives it: in full. -/
def tellVf (s : State) (n : BitVec 4) (ws : List Word) : State := modFn s (n.toNat + 1) fun f => { f with rpts := f.rpts ++ [ws] }

/-- R382: the functions whose notify vectors are bound to an event that an SSET has set. -/
def notifyEvent (s : State) (dg : Dg) (ix : Nat) : State :=
  (below 17).foldl (fun s f =>
    (below 28).foldl (fun s v =>
      let w := tget 0 (getFn s f).notify v
      if bit w 63 && fld w 0 15 == dg.toNat * 128 + ix then signalVec s f (132 + v) else s) s) s

end Sys2Proof.Machine
end

