-- ==== Sys2Proof/Machine/Sync.lean ====
section
/-! DEFINITION. Sync objects: the instructions of class 10, the operations at the routers, waiters, answers, cancels
(09_messages_and_queues.md R266 to R270, R565; 11_mesh_and_reduction.md R313). -/

namespace Sys2Proof.Machine

/-! ### Names (Table 09.5) -/

/-- A well-formed name. -/
def syncNameOk (w : Word) : Bool := fld w 15 33 == 0 && (bit w 48 || fld w 49 15 == 0)

/-- The grove that a name names. -/
def syncDg (w : Word) : Dg := BitVec.ofNat 8 (fld w 7 8)

/-- The object's index in its router. -/
def syncIx (w : Word) : Nat := fld w 0 7

/-- The other device that a name names, none for this one (R266). -/
def syncFar (s : State) (w : Word) : Option Did :=
  let d : Did := BitVec.ofNat 15 (fld w 49 15)
  if !bit w 48 || (hasDid s && d == ownDid s) then none else some d

/-- Operation codes in SYNC_OP packets; 14 is the one arrival that a reduction's router forwards, 15 a cancel
(log entry 26, DESIGN CHOICE). -/
def opAdd : BitVec 4 := 0
def opArrive : BitVec 4 := 1
def opSet : BitVec 4 := 2
def opClr : BitVec 4 := 3
def opWait : BitVec 4 := 4
def opAcq : BitVec 4 := 5
def opRel : BitVec 4 := 6
def opRd : BitVec 4 := 7
def opForward : BitVec 4 := 14
def opCancel : BitVec 4 := 15

/-! ### Armed reductions (R311) -/

/-- The anchor of an armed reduction. -/
def redAnchor (r : Red) : Word := r.image.getD 5 0

/-- The armed reduction whose anchor is an object of this device. -/
def redOf (s : State) (dg : Dg) (ix : Nat) : Option Red :=
  firstThat (fun r => syncDg (redAnchor r) == dg && syncIx (redAnchor r) == ix) s.reds

/-! ### The issuing core -/

/-- The entry of a failed sync operation (R267). -/
def syncFailed (s : State) (l : Lcid) (st : Status) (name : Word) : State :=
  postQ63 s l (complWords s st 4 0 0 0 name none)

/-- A context that waits for an operation goes on, with its predicate or register written. -/
def syncReady (s : State) (l : Lcid) (o : SyncOut) (f : Ctx → Ctx) : State :=
  modCtxOf s l o.ctx fun x => match x.wait with
    | .sync t => if t = o.tag then f (makeReady x) else x
    | _ => x

/-- R267: the outcome of an operation at its context: `st` and the value read. -/
def syncDone (s : State) (l : Lcid) (o : SyncOut) (st : Status) (v : Word) : State :=
  let ok := st == sOK || st == sRETRIED
  let s := if ok then s else syncFailed s l st o.name
  if o.op = opRd then syncReady s l o fun x => if ok then writeG x o.gd.toNat v else x
  else if o.waits then syncReady s l o fun x => writeP x o.pd.toNat ok
  else s

/-- R268: a wait that ended by its timeout. -/
def syncTimedOut (s : State) (l : Lcid) (o : SyncOut) : State := syncReady s l o fun x => writeP x o.pd.toNat false

/-- An outstanding operation removed. -/
def dropSync (s : State) (l : Lcid) (t : Nat) : State :=
  modCore s l fun k => modUn k fun u => { u with syncs := u.syncs.filter fun o => o.tag != t }

/-- The packet of an operation. -/
def syncPkt (o : SyncOut) : Pkt :=
  { Pkt.blank with kind := 6, addr := wd o.op.toNat, tag := o.tag, sctx := o.ctx, arg0 := o.name, arg1 := o.gv }

/-- R313: whether a core contributes to the armed reduction that an SARRIVE names. -/
def contributes (s : State) (l : Lcid) (o : SyncOut) : Bool :=
  o.op == opArrive && (syncFar s o.name).isNone &&
    match redOf s (syncDg o.name) (syncIx o.name) with
    | some r => r.members.contains l
    | none => false

/-- An operation's packet sent to its router; a contributor's SARRIVE goes to its own router (R313). -/
def sendSync (s : State) (l : Lcid) (o : SyncOut) : State :=
  match syncFar s o.name with
  | some d =>
    match (syncPkt o).toPort s (dgOf l) d l (some (lcidOf (syncDg o.name) 0)) with
    | some p => sendFrom s l p
    | none => s
  | none =>
    sendFrom s l ((syncPkt o).toUnit (if contributes s l o then dgOf l else syncDg o.name))

/-- R266: how an operation that cannot travel completes. -/
def syncStop (s : State) (l : Lcid) (name : Word) : Option Status :=
  match syncFar s name with
  | some d => if hasRoute s d then none else some sNOROUTE
  | none => if !groveWorks s (syncDg name) || (routeHops s (dgOf l) (syncDg name)).isNone then some sVACANT else none

/-- The count that the next REQ packet of a core takes. -/
def reqSeq (s : State) (l : Lcid) : Nat := nextSeq s (dgOf l) (4 + posOf l) { Pkt.blank with kind := 6 }

/-- A class 10 instruction after its checks: the operation sent, and the context waiting where it waits. -/
def startSync (s : State) (l : Lcid) (c : CtxNo) (op : BitVec 4) (name gv gt : Word) (gd pd : Nat) : State :=
  let waits := op == opWait || op == opAcq
  let t := newTag (getCore s l)
  let o : SyncOut := { tag := t, ctx := c, op := op, name := name, gv := gv, gd := BitVec.ofNat 4 gd, pd := BitVec.ofNat 3 pd
                       waits := waits, retry := false, cancel := false, dead := false, lost := false, seq := reqSeq s l
                       tick := now s }
  let s := modCore (advance s l c) l bumpTag
  let s := if waits || op == opRd then modCtxOf s l c fun x =>
      makeWait x (.sync t) (if waits && gt != 0 then some (deadlineAt s gt.toNat) else none) else s
  match syncStop s l name with
  | some st => syncDone s l o st 0
  | none => sendSync (modCore s l fun k => modUn k fun u => { u with syncs := u.syncs ++ [o] }) l o

/-- Class 10 (R208, R266): the encoding, the checks at issue, the operation. -/
def doSync (l : Lcid) (c : CtxNo) (op : Nat) (b : BitVec 54) (code : BitVec 4) (fs : List (Nat × Nat)) (s : State) : State :=
  issue s l c op b 0 (onlyFields b ((46, 4) :: fs)) anyRoom fun s =>
    let x := ctxOf s l c
    let name := gAt x b 46
    let waits := code == opWait || code == opAcq
    let gt := if waits then gAt x b 38 else 0
    if !syncNameOk name then precise s l c sBOUNDS 0 name
    else if 0xFFFFFFFF < gt.toNat then precise s l c sBOUNDS 0 gt
    else if !bit name 48 && !groveWorks s (syncDg name) then precise s l c sVACANT 0 name
    else startSync s l c code name (gAt x b 42) gt (fld b 34 4) (fld b 31 3)

/-! ### The router -/

/-- An object of a grove. -/
def getObj (g : Grove) (ix : Nat) : SyncObj := tget SyncObj.zero g.objs ix

/-- The grove with an object replaced. -/
def setObj (g : Grove) (ix : Nat) (o : SyncObj) : Grove := { g with objs := tput SyncObj.zero g.objs ix o }

/-- Fields of GRV_SYNC_CFGn (Table 09.7). -/
def objType (o : SyncObj) : Nat := fld o.cfg 60 3
def objPart (o : SyncObj) : BitVec 4 := BitVec.ofNat 4 (fld o.cfg 56 4)
def objParam (o : SyncObj) : Nat := fld o.cfg 0 32

/-- Table 09.6: whether an operation is defined for a type. -/
def opDefined (ty : Nat) (op : BitVec 4) : Bool :=
  match op.toNat with
  | 0 => ty == 0
  | 1 => ty == 1
  | 14 => ty == 1
  | 2 => ty == 2
  | 3 => ty == 0 || ty == 2
  | 4 => decide (ty ≤ 2)
  | 5 => ty == 3
  | 6 => ty == 3
  | 7 => true
  | _ => false

/-- Table 09.6: a value out of range for its operation. -/
def badValue (o : SyncObj) (op : BitVec 4) (gv : Word) : Bool :=
  let max := 2 ^ 63 - 1
  if op = opWait then (objType o == 1 && fld gv 32 32 != 0) || (objType o == 2 && gv != 0)
  else if op = opAcq then decide (max < gv.toNat)
  else if op = opRel then decide (max < o.val.toNat + gv.toNat)
  else false

/-- R267: the first check that an operation fails, from partition `part`. -/
def syncCheck (o : SyncObj) (part : BitVec 4) (op : BitVec 4) (gv : Word) : Option Status :=
  if !bit o.cfg 63 then some sBOUNDS
  else if objPart o ≠ part then some sPERM
  else if !opDefined (objType o) op then some sRSVD
  else if badValue o op gv then some sBOUNDS
  else none

/-- A barrier's arrival: at PARAM the phase advances (Table 09.6). -/
def barrierArrive (o : SyncObj) : Word :=
  let a := fld o.val 0 32 + 1
  if a = objParam o then wd ((fld o.val 32 32 + 1) % 2 ^ 32 * 2 ^ 32) else wd (fld o.val 32 32 * 2 ^ 32 + a % 2 ^ 32)

/-- An arrival that only counts: the anchor of an armed reduction (R313). -/
def anchorArrive (o : SyncObj) : Word := wd (fld o.val 32 32 * 2 ^ 32 + (fld o.val 0 32 + 1) % 2 ^ 32)

/-- The value that an operation leaves (Table 09.6). -/
def syncApply (o : SyncObj) (op : BitVec 4) (gv : Word) : Word :=
  match op.toNat with
  | 0 => o.val + gv
  | 1 => barrierArrive o
  | 14 => anchorArrive o
  | 2 => 1
  | 3 => 0
  | 5 => o.val - gv
  | 6 => o.val + gv
  | _ => o.val

/-- The condition of a waiting operation (Table 09.6). -/
def condHolds (o : SyncObj) (op : BitVec 4) (gv : Word) : Bool :=
  if op = opAcq then decide (gv.toNat ≤ o.val.toNat)
  else match objType o with
    | 0 => decide (gv.toInt ≤ o.val.toInt)
    | 1 => fld o.val 32 32 != fld gv 0 32
    | _ => bit o.val 0

/-- The context that issued an operation, in the layout of g3 (R473). -/
def feederOf (s : State) (p : Pkt) : Word :=
  match p.fab with
  | some r => wd (r.srcDid.toNat * 2 ^ 21 + r.srcLcid.toNat * 2 ^ 9 + p.sctx.toNat)
  | none => if p.addr = wd opForward.toNat then senderWord s (BitVec.ofNat 12 p.tag) p.sctx else senderWord s (lcidOf p.src p.spos.toNat) p.sctx

/-- The operations that make their issuer a feeder (R473). -/
def feeds (op : BitVec 4) : Bool := op == opAdd || op == opArrive || op == opSet || op == opRel || op == opAcq || op == opForward

/-- What an answer says beside its status: 0 answered, 1 withdrawn, 2 to be presented again (log entry 26, DESIGN CHOICE). -/
def syncAnswerBy (s : State) (f : Side) (p : Pkt) (st : Status) (code : Nat) (v : Word) : State :=
  let st := if st = sOK && p.retried then sRETRIED else st
  reply s f p { Pkt.blank with kind := 7, arg0 := wd (st.toNat * 2 ^ 56 + code), arg1 := v }

/-- An answer that a grove's own unit sends. -/
def syncAnswer (s : State) (dg : Dg) (p : Pkt) (st : Status) (code : Nat) (v : Word) : State :=
  syncAnswerBy s (.unit dg) p st code v

/-- One pass over the waiters of an object in their order: those that stay, the value left, and those answered. -/
def serveList (o : SyncObj) (ix : Nat) : Bool → List Waiter → Word → List Waiter × Word × List Waiter
  | _, [], v => ([], v, [])
  | blocked, w :: r, v =>
    if w.obj != ix then
      let q := serveList o ix blocked r v
      (w :: q.1, q.2.1, q.2.2)
    else
      let ob := { o with val := v }
      if condHolds ob w.op w.gv && !(w.op == opAcq && blocked) then
        let q := serveList o ix blocked r (if w.op = opAcq then v - w.gv else v)
        (q.1, q.2.1, w :: q.2.2)
      else
        let q := serveList o ix (blocked || w.op == opAcq) r v
        (w :: q.1, q.2.1, q.2.2)

/-- R268: the waiters of an object whose conditions hold are answered in their order; each SACQ is applied then, and joins the feeders (R473). -/
def serveWaiters (s : State) (dg : Dg) (ix : Nat) : State :=
  let g := getGrove s dg
  let o := getObj g ix
  let q := serveList o ix false g.waiters o.val
  let fs := (q.2.2.filter fun w => feeds w.op).foldl (fun t w => joinFeeder t (feederOf s w.pkt)) o.feeders
  let s := setGrove s dg (setObj { g with waiters := q.1 } ix { o with val := q.2.1, nops := o.nops + q.2.2.length, feeders := fs })
  q.2.2.foldl (fun s w => syncAnswer s dg w.pkt sOK 0 q.2.1) s

/-- An operation applied to its object: value and feeder list, then the waiters; an SSET that sets an event notifies the
host (R382). -/
def syncTake (s : State) (dg : Dg) (ix : Nat) (op : BitVec 4) (gv : Word) (feeder : Word) : State :=
  let sets := op == opSet && (getObj (getGrove s dg) ix).val == 0
  let s := if sets then notifyEvent s dg ix else s
  let s := modGrove s dg fun g =>
    let o := getObj g ix
    setObj g ix { o with val := syncApply o op gv, nops := o.nops + 1, feeders := if feeds op then joinFeeder o.feeders feeder else o.feeders }
  serveWaiters s dg ix

/-- Entries of a router's waiter table (R268). -/
def waiterMax : Nat := 4096

/-- R268: a waiting operation: answered at once, registered, or sent back while the table is full. -/
def syncWaitOp (s : State) (dg : Dg) (ix : Nat) (op : BitVec 4) (p : Pkt) : State :=
  let g := getGrove s dg
  let o := getObj g ix
  let behind := op == opAcq && g.waiters.any fun w => w.obj == ix && w.op == opAcq
  if condHolds o op p.arg1 && !behind then
    syncAnswer (if op = opAcq then syncTake s dg ix op p.arg1 (feederOf s p) else s) dg p sOK 0 o.val
  else if waiterMax ≤ g.waiters.length then syncAnswer s dg p sOK 2 0
  else modGrove s dg fun g => { g with waiters := g.waiters ++ [⟨ix, op, p.arg1, p⟩] }

/-- R267: an operation that reached its object's router. -/
def syncAt (s : State) (dg : Dg) (p : Pkt) : State :=
  let op : BitVec 4 := BitVec.ofNat 4 p.addr.toNat
  let ix := syncIx p.arg0
  let o := getObj (getGrove s dg) ix
  match syncCheck o p.part op p.arg1 with
  | some st => if op = opForward then s else syncAnswer s dg p st 0 0
  | none =>
    if op = opRd then syncAnswer s dg p sOK 0 o.val
    else if op = opWait ∨ op = opAcq then syncWaitOp s dg ix op p
    else if op = opArrive ∧ (redOf s dg ix).isSome then syncAnswer s dg p sPERM 0 0
    else
      let s := syncTake s dg ix op p.arg1 (feederOf s p)
      if op = opForward then s else syncAnswer s dg p sOK 0 0

/-- A cancel at the router (R268, R565): an operation still registered is withdrawn; an answered one stands. -/
def cancelAt (s : State) (dg : Dg) (p : Pkt) : State :=
  let g := getGrove s dg
  let same := fun (w : Waiter) => w.pkt.tag == p.tag && match w.pkt.fab, p.fab with
    | some a, some b => a.srcDid == b.srcDid && a.srcLcid == b.srcLcid
    | none, none => w.pkt.src == p.src && w.pkt.spos == p.spos
    | _, _ => false
  if g.waiters.any same then
    let s := setGrove s dg { g with waiters := g.waiters.filter fun w => !same w }
    let s := syncAnswer s dg p sOK 1 0
    serveWaiters s dg (syncIx p.arg0)
  else s

/-- A sync packet at a router's unit, in its turn (R305). -/
def syncTakeable (s : State) (cancel : Bool) (p : Pkt) : Bool :=
  p.kind == 6 && p.exit == 3 && (p.addr == 15) == cancel && !earlier s p

/-- SYNC_CANCEL (R268, R565). -/
def doSyncCancel (dg : Dg) (s : State) : State :=
  match takeArrived s dg (syncTakeable s true) with
  | none => s
  | some (p, s) =>
    if takenBefore (getGrove s dg) p then s else cancelAt (modGrove s dg fun g => noteTaken g p) dg p

/-! ### Answers at the core -/

/-- R565: the units that a discarded SACQ was granted go back to the semaphore. -/
def returnUnits (s : State) (l : Lcid) (o : SyncOut) : State :=
  let p : Pkt := { Pkt.blank with kind := 6, addr := wd opRel.toNat, tag := o.tag, sctx := o.ctx, arg0 := o.name, arg1 := o.gv }
  match syncFar s o.name with
  | some d =>
    match p.toPort s (dgOf l) d l (some (lcidOf (syncDg o.name) 0)) with
    | some q => sendFrom s l q
    | none => s
  | none => sendFrom s l (p.toUnit (syncDg o.name))

/-- The operation that an answer's tag names. -/
def syncByTag (k : Core) (t : Nat) : Option SyncOut := firstThat (fun o => o.tag % 65536 == t % 65536) k.un.syncs

/-- R268, R565: an answer reaches its core. One to an operation that is already marked lost is discarded, the units of a grant returned; `retry`
then says that nothing of it stands at the router any more. -/
def syncAnswered (s : State) (l : Lcid) (p : Pkt) : State :=
  match syncByTag (getCore s l) p.tag with
  | none => s
  | some o =>
    let st := pktStatus p
    let code := fld p.arg0 0 2
    if o.lost && !o.dead then
      let s := modCore s l fun k => modUn k fun u => { u with syncs := u.syncs.map fun q => if q.tag = o.tag then { q with retry := true } else q }
      if o.op = opAcq ∧ code = 0 ∧ (st = sOK ∨ st = sRETRIED) then returnUnits s l o else s
    else if code = 2 then
      if o.dead then dropSync s l o.tag
      else if o.cancel then syncTimedOut (dropSync s l o.tag) l o
      else modCore s l fun k => modUn k fun u => { u with syncs := u.syncs.map fun q =>
        if q.tag = o.tag then { q with retry := true, tick := now s } else q }
    else
      let s := dropSync s l o.tag
      if o.dead then
        if o.op = opAcq ∧ code = 0 ∧ (st = sOK ∨ st = sRETRIED) then returnUnits s l o else s
      else if code = 1 then syncTimedOut s l o
      else syncDone s l o st p.arg1

/-- SYNC_ANS: the first answer at a position of the grove; those to the grove's own unit are dropped. -/
def doSyncAns (e : Endpt) (s : State) : State :=
  match e with
  | .grove dg =>
    match takeArrived s dg (fun p => p.kind == 7) with
    | none => s
    | some (p, s) => if p.exit = 0 then syncAnswered s (lcidOf dg p.dpos.toNat) p else s
  | _ => s

/-- SYNC_REPRESENT (R268): at a later tick, an operation that a full waiter table refused is presented again. -/
def doSyncRepresent (l : Lcid) (c : CtxNo) (s : State) : State :=
  match firstThat (fun o => o.ctx == c && o.retry && !o.dead && !o.lost && decide (o.tick < now s)) (getCore s l).un.syncs with
  | none => s
  | some o =>
    match syncStop s l o.name with
    | some st => syncDone (dropSync s l o.tag) l o st 0
    | none =>
      let o' := { o with retry := false, seq := reqSeq s l, tick := now s }
      let s := modCore s l fun k => modUn k fun u => { u with syncs := u.syncs.map fun q => if q.tag = o.tag then o' else q }
      sendSync s l o'

/-- SYNC_WAIT_TIMEOUT (R268): GT has expired: a cancel is sent, and the context waits on for the router's word; an
operation that the router has not registered ends at once. -/
def doSyncWaitTimeout (l : Lcid) (c : CtxNo) (s : State) : State :=
  let x := ctxOf s l c
  match x.wait, x.deadline with
  | .sync t, some d =>
    if d ≤ now s ∧ effSt x = .waiting then
      match firstThat (fun o => o.tag == t) (getCore s l).un.syncs with
      | none => s
      | some o =>
        if o.lost then s
        else if o.retry then syncTimedOut (dropSync s l t) l o
        else
          let s := modCtxOf s l c fun x => { x with deadline := none }
          let s := modCore s l fun k => modUn k fun u => { u with syncs := u.syncs.map fun q =>
            if q.tag = t then { q with cancel := true } else q }
          sendCancel s l o
    else s
  | _, _ => s

/-! ### A router lost (R269) -/

/-- R269: every operation that waits at a router ends with a status; the answer to another device is sent from `f`. -/
def endWaiters (s : State) (dg : Dg) (f : Side) (st : Status) : State :=
  let ws := (getGrove s dg).waiters
  let s := modGrove s dg fun g => { g with waiters := [] }
  ws.foldl (fun s w =>
    match w.pkt.fab with
    | some _ => syncAnswerBy s f w.pkt st 0 0
    | none =>
      let l := lcidOf w.pkt.src w.pkt.spos.toNat
      match syncByTag (getCore s l) w.pkt.tag with
      | some o => if o.dead then dropSync s l o.tag else syncDone (dropSync s l o.tag) l o st 0
      | none => s) s

/-! ### Meanings -/

def execSadd (l : Lcid) (c : CtxNo) (b : BitVec 54) (s : State) : Out := .next (doSync l c 0x280 b opAdd [(42, 4)] s)
def execSarrive (l : Lcid) (c : CtxNo) (b : BitVec 54) (s : State) : Out := .next (doSync l c 0x281 b opArrive [] s)
def execSset (l : Lcid) (c : CtxNo) (b : BitVec 54) (s : State) : Out := .next (doSync l c 0x282 b opSet [] s)
def execSclr (l : Lcid) (c : CtxNo) (b : BitVec 54) (s : State) : Out := .next (doSync l c 0x283 b opClr [] s)
def execSwait (l : Lcid) (c : CtxNo) (b : BitVec 54) (s : State) : Out :=
  .next (doSync l c 0x284 b opWait [(42, 4), (38, 4), (31, 3)] s)
def execSacq (l : Lcid) (c : CtxNo) (b : BitVec 54) (s : State) : Out :=
  .next (doSync l c 0x285 b opAcq [(42, 4), (38, 4), (31, 3)] s)
def execSrel (l : Lcid) (c : CtxNo) (b : BitVec 54) (s : State) : Out := .next (doSync l c 0x286 b opRel [(42, 4)] s)
def execSrd (l : Lcid) (c : CtxNo) (b : BitVec 54) (s : State) : Out := .next (doSync l c 0x287 b opRd [(34, 4)] s)
def execSyncCancel (dg : Dg) (s : State) : Out := .next (awake (doSyncCancel dg) s)
def execSyncAns (e : Endpt) (s : State) : Out := .next (awake (doSyncAns e) s)
def execSyncRepresent (l : Lcid) (c : CtxNo) (s : State) : Out := .next (awake (doSyncRepresent l c) s)
def execSyncWaitTimeout (l : Lcid) (c : CtxNo) (s : State) : Out := .next (doSyncWaitTimeout l c s)

end Sys2Proof.Machine
end

