-- ==== Sys2Proof/Machine/Access.lean ====
section
/-! DEFINITION. Requests served at slices and at external memory, and their responses at the issuing core
(08_scratchpad.md, 09_messages_and_queues.md R250, R260; 11_mesh_and_reduction.md R300; 13_external_memory.md R357). -/

namespace Sys2Proof.Machine

/-- A response status: RETRIED_OK for a request that was resent (R308, R332). -/
def okOf (p : Pkt) (st : Status) : Status := if st = sOK && p.retried then sRETRIED else st

/-- The offset that a request's address names. -/
def reqOff (p : Pkt) : Nat :=
  match addrOf p.addr with
  | some (.own o) | some (.dev _ o) | some (.ext o) | some (.far _ _ o) | some (.farExt _ o) => o
  | none => 0

/-! ### Slices -/

/-- R237, R416, R235: why a request to a slice is refused at its destination. -/
def sliceReqFault (s : State) (l : Lcid) (p : Pkt) : Option Status :=
  if !occupied s l then some sVACANT
  else if p.fab.isSome && !samePart (some p.part) (partOf s (dgOf l)) then some sPERM
  else if sliceBytes < reqOff p + p.len then some sBOUNDS
  else none

/-- The side that answers for a position: the core, or its router when the position is vacant. -/
def posSide (s : State) (l : Lcid) : Side := if occupied s l then .pos l else .unit (dgOf l)

/-- A read request answered by a slice. -/
def sliceRead (s : State) (l : Lcid) (p : Pkt) : State :=
  match sliceReqFault s l p with
  | some st => reply s (posSide s l) p { Pkt.blank with kind := 2, arg0 := statusWord st }
  | none =>
    let r := slFetch (getCore s l).sp (reqOff p) p.len
    let st := okOf p (if r.2.isEmpty then sOK else sPOISON)
    reply s (.pos l) p { Pkt.blank with kind := 2, arg0 := statusWord st, data := r.1, bad := r.2, len := p.len }

/-- A write request applied to a slice, and acknowledged; ARG1 is the first poisoned address. -/
def sliceWrite (s : State) (l : Lcid) (p : Pkt) : State :=
  match sliceReqFault s l p with
  | some st => reply s (posSide s l) p { Pkt.blank with kind := 3, arg0 := statusWord st }
  | none =>
    let r := slCopy (getCore s l).sp (reqOff p) p.data p.bad
    let s := modCore s l fun k => { k with sp := r.1 }
    match r.2 with
    | none => reply s (.pos l) p { Pkt.blank with kind := 3, arg0 := statusWord (okOf p sOK) }
    | some q => reply s (.pos l) p { Pkt.blank with kind := 3, arg0 := statusWord sPOISON, arg1 := p.addr + wd (q - reqOff p) }

/-! ### External memory -/

/-- R235, R351: a request that leaves the range of its partition. -/
def extReqFault (s : State) (p : Pkt) : Option Status :=
  if rangeSize s p.part.toNat < reqOff p + p.len then some sBOUNDS else none

/-- R357: a read or write packet served by a controller. -/
def hbmServe (s : State) (t : BitVec 2) (p : Pkt) : State :=
  let side := Side.ep (epHbm t)
  if p.kind = 0 then
    match extReqFault s p with
    | some st => reply s side p { Pkt.blank with kind := 2, arg0 := statusWord st }
    | none =>
      let r := hbmFetch s p.part.toNat (reqOff p) p.len
      let st := okOf p (if r.2.isEmpty then sOK else sPOISON)
      reply s side p { Pkt.blank with kind := 2, arg0 := statusWord st, data := r.1, bad := r.2, len := p.len }
  else
    match extReqFault s p with
    | some st => reply s side p { Pkt.blank with kind := 3, arg0 := statusWord st }
    | none =>
      let r := hbmStore s p.part.toNat (reqOff p) p.data p.bad
      match r.2 with
      | none => reply r.1 side p { Pkt.blank with kind := 3, arg0 := statusWord (okOf p sOK) }
      | some q => reply r.1 side p { Pkt.blank with kind := 3, arg0 := statusWord sPOISON, arg1 := p.addr + wd (q - reqOff p) }

/-- A controller takes requests: its stack is not in self-refresh (R360). -/
def hbmServes (s : State) (t : BitVec 2) : Bool := !(getStack s t).selfRef

/-- HBM_ACCESS (R357): the next request at a controller, with the errors that its granules meet. -/
def doHbmAccess (t : BitVec 2) (upsets : List Upset) (s : State) : State :=
  if !hbmServes s t then s
  else match takeLanding s (epHbm t) (fun p => p.kind == 0 || p.kind == 1) with
  | none => s
  | some (p, s) => hbmServe (upsets.foldl (fun s u => hbmUpset s t u) s) t p

/-- The next request at a controller when it is of a kind. -/
def hbmTake (s : State) (t : BitVec 2) (kind : BitVec 4) : State :=
  match takeLanding s (epHbm t) (fun p => p.kind == 0 || p.kind == 1) with
  | none => s
  | some (p, s') => if p.kind = kind ∧ hbmServes s t = true then hbmServe s' t p else s

/-- The first packet of a kind at a grove's positions, with the position that it is for. -/
def takeAtPos (s : State) (dg : Dg) (kind : BitVec 4) : Option (Pkt × Lcid × State) :=
  (takeArrived s dg fun p => p.kind == kind && p.exit == 0).map fun q => (q.1, lcidOf dg q.1.dpos.toNat, q.2)

/-- The first request of a kind before which no other request for its slice has arrived (R233). -/
def firstReq (kind : BitVec 4) : List (BitVec 4) → List Pkt → Option Pkt
  | _, [] => none
  | seen, p :: r =>
    if 1 < p.kind.toNat ∨ p.exit ≠ 0 then firstReq kind seen r
    else if p.kind = kind ∧ !seen.contains p.dpos then some p
    else firstReq kind (p.dpos :: seen) r

/-- The next request of a kind at a grove's slices, each slice's requests served in their order of arrival (R233); those for a
position under the checking hold stay (R501). -/
def takeReq (s : State) (dg : Dg) (kind : BitVec 4) : Option (Pkt × Lcid × State) :=
  let g := getGrove s dg
  (firstReq kind [] (g.arrived.filter fun p => !checkHeld s (lcidOf dg p.dpos.toNat))).map fun p =>
    (p, lcidOf dg p.dpos.toNat, setGrove s dg { g with arrived := g.arrived.erase p })

/-- RD_REQ (R300). -/
def doRdReq (e : Endpt) (s : State) : State :=
  match e with
  | .grove dg => match takeReq s dg 0 with
    | none => s
    | some (p, l, s) => sliceRead s l p
  | .hbm t => hbmTake s t 0
  | _ => s

/-- WR_REQ (R260). -/
def doWrReq (e : Endpt) (s : State) : State :=
  match e with
  | .grove dg => match takeReq s dg 1 with
    | none => s
    | some (p, l, s) => sliceWrite s l p
  | .hbm t => hbmTake s t 1
  | _ => s

/-! ### Responses -/

/-- The outstanding narrow access of a tag. -/
def narrowByTag (k : Core) (load : Bool) (t : Nat) : Option NarrowOut :=
  firstThat (fun o => o.load == load && o.tag % 65536 == t % 65536 && !o.lost) k.un.narrows

/-- The poisoned bytes of a response; where one says POISON and marks none, all of them (log entry 27, DESIGN CHOICE). -/
def badOf (p : Pkt) : NatSet := if pktStatus p = sPOISON && p.bad.isEmpty then below p.data.length else p.bad

/-- The status of read data: POISON where a link has poisoned some of it (R297). -/
def readStatus (p : Pkt) : Status := if pktStatus p = sOK && !p.bad.isEmpty then sPOISON else pktStatus p

/-- A response that lets its packet go on. -/
def goes (st : Status) : Bool := st == sOK || st == sRETRIED || st == sPOISON

/-- Read data at the issuing core. -/
def readDone (s : State) (l : Lcid) (p : Pkt) : State :=
  let k := getCore s l
  let st := readStatus p
  match narrowByTag k true p.tag with
  | some o => narrowAnswer s l o st (leNat p.data)
  | none =>
    match partByTag k 1 p.tag with
    | none => s
    | some (id, i, x) =>
      if goes st then
        let x := { x with retried := x.retried || st == sRETRIED || p.retried }
        haulData (modPart s l id i fun _ => x) l id i x p.data (badOf p)
      else stepPart s l id i fun x => endPart x st

/-- An acknowledgement at the issuing core. -/
def writeDone (s : State) (l : Lcid) (p : Pkt) : State :=
  let k := getCore s l
  let st := pktStatus p
  match narrowByTag k false p.tag with
  | some o => narrowAnswer s l o st 0
  | none =>
    match partByTag k 2 p.tag with
    | none => s
    | some (id, i, _) =>
      stepPart s l id i fun x =>
        if goes st then
          let a := x.dst + wd (packetAt x x.conf) + (p.arg1 - p.addr)
          let x := if st = sPOISON then notePoison x a else { x with retried := x.retried || st == sRETRIED || p.retried }
          confirmPacket s x
        else endPart x st

/-- RD_RSP (R300). -/
def doRdRsp (e : Endpt) (s : State) : State :=
  match e with
  | .grove dg => match takeAtPos s dg 2 with
    | none => s
    | some (p, l, s) => readDone s l p
  | _ => s

/-- R389: the service arrives at a collective's DONE. -/
def collArrive (s : State) (c : Coll) : State :=
  let dg := syncDg c.done
  let ix := syncIx c.done
  match syncCheck (getObj (getGrove s dg) ix) c.part opArrive 0 with
  | some _ => s
  | none => serveWaiters (modGrove s dg fun g =>
      let o := getObj g ix; setObj g ix { o with val := barrierArrive o, nops := o.nops + 1 }) dg ix

/-- One acknowledgement of a collective's multicasts counted; after the last, DONE is arrived at. -/
def collCount (s : State) (ref : BitVec 4 × BitVec 16) : State :=
  match firstThat (fun (c : Coll) => (c.part, c.id) == ref && c.acks != 0) s.host.colls with
  | none => s
  | some c =>
    let s := { s with host := { s.host with colls := s.host.colls.map fun d => if d = c then { d with acks := d.acks - 1 } else d } }
    if c.acks = 1 then collArrive s c else s

/-- R310: an acknowledgement at the unit that sent a multicast: the first for its grove, which ARG1 names, is counted. -/
def mcastAcked (s : State) (dg : Dg) (p : Pkt) : State :=
  let g := getGrove s dg
  let d := p.arg1.toNat % 256
  match firstThat (fun (m : Mcast) => m.pkt.tag == p.tag && m.left.testBit d) g.mcasts with
  | none => s
  | some m =>
    let left := m.left - 2 ^ d
    collCount (setGrove s dg { g with mcasts := if left = 0 then g.mcasts.erase m else g.mcasts.replace m { m with left := left } }) m.coll

/-- WR_ACK (R260). One that acknowledges a multicast goes to the grove's unit, which counts it (R310). -/
def doWrAck (e : Endpt) (s : State) : State :=
  match e with
  | .grove dg => match takeArrived s dg (fun p => p.kind == 3) with
    | none => s
    | some (p, s) => if p.exit = 0 then writeDone s (lcidOf dg p.dpos.toNat) p else mcastAcked s dg p
  | .lookout => match takeLanding s epLookout (fun p => p.kind == 3) with
    | none => s
    | some (_, s) => s
  | _ => s

/-! ### Completion entries on the mesh (R248, R251) -/

/-- The words of a completion entry in a packet, with TIME as it is written now. -/
def entryWords (s : State) (p : Pkt) : List Word :=
  let ws := (below 8).map fun i => wd (leNat ((p.data.drop (8 * i)).take 8))
  ws.take 3 ++ [timeWord s] ++ ws.drop 4

/-- The SEND that an entry answers: by its number on this device, by its header from another (log entry 16, DESIGN CHOICE). -/
def sentOf (k : Core) (p : Pkt) (ws : List Word) : Option SentMsg :=
  match p.fab with
  | none => firstThat (fun o => o.msg.mid == p.tag) k.un.sent
  | some _ => firstThat (fun o => [o.msg.h.w0, o.msg.h.w1, o.msg.h.w2, o.msg.h.w3] == ws.drop 4) k.un.sent

/-- R297: the bytes of a completion entry that a link has poisoned mark the chunks of the entry that `t` has more than `s`. -/
def markEntry (s t : State) (l : Lcid) (cq : Nat) (bad : NatSet) : State :=
  let grown := fun (qn : Nat) => decide ((getQ (getCore s l) qn).tail < (getQ (getCore t l) qn).tail)
  match firstThat grown [cq, 63] with
  | some qn => modCore t l fun k => modSp k fun sl => markBytes sl (entAddr (getQ k qn) (getQ (getCore s l) qn).tail) bad
  | none => t

/-- R248, R250: the outcome of a SEND at its core: a bounce to q63, also of a message that had been accepted before or whose device was given up as
lost, an acceptance to CQ where NOTIFY asks for it. -/
def complAtCore (s : State) (l : Lcid) (p : Pkt) : State :=
  let ws := entryWords s p
  match sentOf (getCore s l) p ws with
  | none => if fld (ws.headD 0) 52 4 = 3 then markEntry s (postQ63 s l ws) l 63 p.bad else s
  | some o =>
    let w0 := ws.headD 0
    if o.lost then (if fld w0 52 4 = 3 then markEntry s (postQ63 s l ws) l 63 p.bad else s)
    else
      let s := dropSent s l o.msg.mid
      if fld w0 52 4 = 3 then markEntry s (postQ63 s l ws) l 63 p.bad
      else if hdrNotify o.msg.h then
        let ok := fld w0 56 8 == 0 && (o.retried || p.retried)
        markEntry s (postEntry s l o.cq.toNat (if ok then putFld w0 56 8 1 :: ws.tail else ws)) l o.cq.toNat p.bad
      else s

/-- The host MSG of a HOSTREF ended with a status. -/
def endHostMsg (s : State) (ref : Nat) (st : Status) : State :=
  (below 17).foldl (fun s f => modFn s f fun n => { n with cmds := n.cmds.map fun c =>
    if c.ref = ref ∧ c.begun = true ∧ c.fin = none then { c with fin := some (st, 0) } else c }) s

/-- R248: the outcome of a host MSG, matched to its command by HOSTREF. -/
def complAtHost (s : State) (p : Pkt) : State :=
  let ws := entryWords s p
  endHostMsg s (fld (ws.getD 7 0) 0 32) (BitVec.ofNat 8 (fld (ws.headD 0) 56 8))

/-- COMPL (R251). -/
def doCompl (e : Endpt) (s : State) : State :=
  match e with
  | .grove dg => match takeAtPos s dg 5 with
    | none => s
    | some (p, l, s) => complAtCore s l p
  | .pcie => match takeLanding s epPcie (fun p => p.kind == 5) with
    | none => s
    | some (p, s) => complAtHost s p
  | _ => s

/-! ### Meanings -/

def execHbmAccess (t : BitVec 2) (upsets : List Upset) (s : State) : Out := .next (awake (doHbmAccess t upsets) s)
def execRdReq (e : Endpt) (s : State) : Out := .next (awake (doRdReq e) s)
def execWrReq (e : Endpt) (s : State) : Out := .next (awake (doWrReq e) s)
def execRdRsp (e : Endpt) (s : State) : Out := .next (awake (doRdRsp e) s)
def execWrAck (e : Endpt) (s : State) : Out := .next (awake (doWrAck e) s)
def execCompl (e : Endpt) (s : State) : Out := .next (awake (doCompl e) s)

end Sys2Proof.Machine
end

