-- ==== Sys2Proof/Machine/Regs.lean ====
section
/-! DEFINITION. Register writes: who may write, what is rejected and where it is recorded (22_register_map.md R554 to R559,
06_core_and_contexts.md R183, 14_host_interface.md R370). -/

namespace Sys2Proof.Machine

/-- The Lookout's number as a writer (Table 22.3). -/
def lookoutWriter : Nat := 31

/-- The Lookout is the writer. -/
def byLookout (w : Nat) : Bool := w == lookoutWriter

/-- PF0 or the Lookout is the writer. -/
def byPf0 (w : Nat) : Bool := w == 0 || byLookout w

/-- The virtual function of the partition that owns a grove is the writer (R369, R370). -/
def byOwner (s : State) (w : Nat) (dg : Dg) : Bool :=
  decide (1 ≤ w) && decide (w ≤ 16) && partOf s dg == some (BitVec.ofNat 4 (w - 1))

/-- R367, R423: the PCIe link serves BAR accesses: the device is READY, and the link within its limits. -/
def linkServes (s : State) : Bool := s.cruise.ready && s.host.link.up && decide (16 ≤ s.host.link.gts) && decide (4 ≤ s.host.link.width)

/-- R366, R369: a function answers: the link serves, PF0 or an enabled VF, in D0. -/
def fnServes (s : State) (f : Nat) : Bool := linkServes s && decide (f ≤ s.host.link.cfg.vfs) && !s.host.link.cfg.d3.contains f

/-- R447: an access by the host wakes the device. -/
def hostAccess (s : State) (w : Nat) : State := if byLookout w || !fnServes s w then s else fireWake s 0

/-- R558, R559: a write judged in the order writer, fused or vacant block, reserved value, state condition; an accepted one
takes effect, a rejected one is recorded in the register that Table 22.2 names. `blk` is the target block's base and `gone`
the block that records REASON 5. -/
def guardWrite (s : State) (w blk off : Nat) (allowed : Bool) (gone : Option Nat) (reserved cond : Bool) (f : State → State) :
    State :=
  if !byLookout w && !fnServes s w then s
  else
  let s := hostAccess s w
  if !allowed then reject s (writerBlk w) 3 w off
  else match gone with
  | some b => reject s b 5 w off
  | none =>
    if reserved then reject s blk 1 w off
    else if !cond then reject s blk 2 w off
    else f s

/-- The block that records a write to a core that has no position: the writer's for a fused grove, the core's own for a
vacant position (Table 22.2). -/
def coreGone (s : State) (w : Nat) (l : Lcid) : Option Nat :=
  if fusedCore s l then some (writerBlk w) else if occupied s l then none else some (coreBlk l)

/-- The block that records a write to a fused grove's block. -/
def groveGone (s : State) (w : Nat) (dg : Dg) : Option Nat := if (getGrove s dg).fused then some (writerBlk w) else none

/-- A write of a core register at an offset of its block: the Lookout alone may write (R183). -/
def coreWrite (s : State) (l : Lcid) (w : Wr) (off : Nat) (reserved cond : Bool) (f : State → State) : State :=
  guardWrite s w.writer.toNat (coreBlk l) (coreBlk l + off) (byLookout w.writer.toNat) (coreGone s w.writer.toNat l) reserved cond f

/-- A write of a core register that sets a value or performs an action: the core's logic must have power (R445; log entry 61, DEDUCED). A read-only or
write-one-to-clear register follows Table 00.6 whatever the power. -/
def coreSet (s : State) (l : Lcid) (w : Wr) (off : Nat) (reserved cond : Bool) (f : State → State) : State :=
  coreWrite s l w off reserved (cond && !asleep s) f

/-- The bits of a word in the fields named, each as (low bit, length). -/
def keepFields (v : Word) (fs : List (Nat × Nat)) : Word := wd ((fs.map fun f => fld v f.1 f.2 * 2 ^ f.1).sum)

/-- R174: every context FREE and ACCEPT 0. -/
def roleIdle (k : Core) : Bool := allFree k && !bit k.ctrl 0

end Sys2Proof.Machine
end

