-- ==== Sys2Proof/Machine/Faults.lean ====
section
/-! DEFINITION. The report combiners and the error logs (17_faults.md R458 to R464, R471). -/

namespace Sys2Proof.Machine

/-- A Stand's combiner. -/
def getComb (s : State) (i : Nat) : Comb := tget Comb.zero s.errs.combs i

/-- The state with a combiner changed. -/
def modComb (s : State) (i : Nat) (f : Comb → Comb) : State :=
  { s with errs := { s.errs with combs := tput Comb.zero s.errs.combs i (f (getComb s i)) } }

/-- R458: the combiner of a suspect (Table 17.6). -/
def combOf (r : Rpt) : Nat :=
  match r.locus.toNat with
  | 0 | 1 => fld r.psid 22 2
  | 2 => fld r.psid 0 4 / 4
  | 7 => fld r.psid 0 6 / 16
  | _ => 0

/-- Entries on die, and slots of a spill ring (R461). -/
def dieMax : Nat := 1024
def ringMax : Nat := 262144

/-- R459: a report matches an open record. -/
def matchesRec (e : LogEnt) (r : Rpt) : Bool :=
  e.opened && e.r.locus == r.locus && e.r.psid == r.psid && e.r.cls == r.cls && (r.locus != 8 || fld e.r.d0 0 15 == fld r.d0 0 15)

/-- An entry written with the next SEQ (R461). -/
def addEntry (c : Comb) (e : LogEnt) : Comb := { c with die := c.die ++ [{ e with seq := c.tail }], tail := c.tail + 1 }

/-- The gap marker (R463). -/
def gapEntry (g : Gap) : LogEnt :=
  { r := { rpt 15 sOK 1 0 0 with d0 := wd g.n, d1 := wd g.mask, time := g.first }, count := g.n, last := g.last, opened := false
    lastTick := 0, openTick := 0, seq := 0, evs := [], sev0 := 1 }

/-- R463: the gap marker written once an entry is free. -/
def closeGap (c : Comb) : Comb :=
  match c.gap with
  | some g => if c.die.length < dieMax then { addEntry c (gapEntry g) with gap := none } else c
  | none => c

/-- R461: closed entries move to the ring in SEQ order while it has room; consumed ones leave the die. -/
def spillGo : Nat → Comb → Comb
  | 0, c => c
  | n + 1, c =>
    match c.die with
    | [] => c
    | e :: r =>
      if e.opened then c
      else if e.seq < c.head then spillGo n { c with die := r }
      else if e.seq - c.head < ringMax then spillGo n { c with die := r, spill := c.spill ++ [e] }
      else c

/-- Ring entries not consumed. -/
def ringUse (c : Comb) : Nat := c.spill.length

/-- ERR_CFG.WARN in entries. -/
def warnAt (s : State) : Nat := 16 * fld s.errs.cfg 16 16

/-- R464: vector 192 + s when the ring first passes its warning level. -/
def warnRing (s : State) (i : Nat) : State :=
  let c := getComb s i
  let on := decide (warnAt s ≤ ringUse c)
  let s := if on && !c.warned then signalVec s 0 (192 + i) else s
  modComb s i fun c => { c with warned := on }

/-- Spill, gap marker and warning of a combiner. -/
def settleComb (s : State) (i : Nat) : State :=
  let s := modComb s i fun c =>
    let c := closeGap (spillGo (c.die.length + 1) c)
    spillGo (c.die.length + 1) c
  warnRing s i

/-- An open record closed. -/
def closeRec (c : Comb) (seq : Nat) : Comb :=
  { c with die := c.die.map fun e => if e.seq = seq then { e with opened := false } else e }

/-- Open records. -/
def openRecs (c : Comb) : List LogEnt := c.die.filter fun e => e.opened

/-- R459: the open record with the oldest FIRST. -/
def oldestOpen (c : Comb) : Option LogEnt := ((sortBy (fun (e : LogEnt) => e.r.time.toNat) (openRecs c)).head?)

/-- Word 0 of an entry (Table 17.4). -/
def rptWord (r : Rpt) : Word :=
  wd (r.status.toNat * 2 ^ 56 + r.cls.toNat * 2 ^ 48 + r.sev.toNat * 2 ^ 46
      + (match r.part with | some n => 2 ^ 45 + n.toNat * 2 ^ 41 | none => 0)
      + (match r.lcid with | some l => 2 ^ 40 + l.toNat * 2 ^ 28 | none => 0) + r.locus.toNat * 2 ^ 24 + r.psid.toNat)

/-- R464: the vectors of a record-opening report, and the report in full for the VF whose partition it names (R418). -/
def recordSignals (s : State) (r : Rpt) : State :=
  let s := signalVec s 0 129
  match r.part with
  | some n => tellVf (signalVec (signalVec s (n.toNat + 1) 129) 0 (160 + n.toNat)) n [rptWord r, wd (r.action.toNat * 2 ^ 24), r.time, r.d0, r.d1]
  | none => s

/-- R463: a report lost. -/
def loseReport (s : State) (i : Nat) (r : Rpt) : State :=
  let c := getComb s i
  let s := if c.armed then signalVec s 0 (192 + i) else s
  let g : Gap := match c.gap with
    | some g => { g with n := g.n + 1, mask := g.mask ||| 2 ^ r.cls.toNat, last := r.time }
    | none => ⟨1, 2 ^ r.cls.toNat, r.time, r.time⟩
  modComb s i fun c => { c with
    gap := some g, lost := min (c.lost + 1) (2 ^ 64 - 1), armed := false
    ovf := tput 0 c.ovf r.cls.toNat (BitVec.ofNat 16 (satAdd 16 (tget 0 c.ovf r.cls.toNat).toNat 1)) }

/-- The counted event that a report stands for, with the time of its detection. -/
def rptEvs (r : Rpt) : List (Ev × Bool × Word) := r.ev.toList.map fun v => (v.1, v.2, r.time)

/-- R459: a report that matches no open record. -/
def openRecord (s : State) (i : Nat) (r : Rpt) : State :=
  let s := match oldestOpen (getComb s i) with
    | some e => if 64 ≤ (openRecs (getComb s i)).length then modComb s i fun c => closeRec c e.seq else s
    | none => s
  let s := settleComb s i
  if dieMax ≤ (getComb s i).die.length then loseReport s i r
  else
    let e : LogEnt := { r := r, count := 1, last := r.time, opened := true, lastTick := now s, openTick := now s, seq := 0
                        evs := rptEvs r, sev0 := r.sev }
    recordSignals (modComb s i fun c => addEntry c e) r

/-- R459: a record that a report matches; the event that it stands for is merged into it (R457). -/
def mergeReport (t : Nat) (r : Rpt) (e : LogEnt) : LogEnt :=
  if matchesRec e r then
    { e with count := min (e.count + 1) (2 ^ 32 - 1), last := r.time, lastTick := t
             r := { e.r with sev := if e.r.sev.toNat < r.sev.toNat then r.sev else e.r.sev }
             evs := if (rptEvs r).all fun v => e.evs.any fun w => w.1 == v.1 && w.2.1 == v.2.1 then e.evs else e.evs ++ rptEvs r }
  else e

/-- A report that matches an open record. -/
def matchRecord (s : State) (i : Nat) (r : Rpt) : State :=
  modComb s i fun c => { c with die := c.die.map (mergeReport (now s) r) }

/-- One report at its combiner. -/
def takeReport (s : State) (r : Rpt) : State :=
  let i := combOf r
  if (getComb s i).die.any fun e => matchesRec e r then matchRecord s i r else openRecord s i r

/-- R507: a report of a fault in the scope of a Sounding that runs: the Sounding's own outcome stands for it. -/
def absorbed (s : State) (r : Rpt) : Bool := r.locus == 0 && underSound s r.psid

/-- REPORT (R459): the next report reaches its combiner, unless a Sounding absorbs it. -/
def doReport (s : State) : State :=
  match s.errs.reports with
  | [] => s
  | r :: rest =>
    let s := { s with errs := { s.errs with reports := rest } }
    if absorbed s r then s else takeReport s r

/-- R459: a record that has had no match for QUIET µs, or has been open for 1 s. -/
def recordDue (s : State) (e : LogEnt) : Bool :=
  e.opened && (decide (e.lastTick + fld s.errs.cfg 0 16 + 1 ≤ now s) || decide (e.openTick + 1000001 ≤ now s))

/-- RECORD_CLOSE (R459). -/
def doRecordClose (i : BitVec 2) (seq : BitVec 32) (s : State) : State :=
  match firstThat (fun (e : LogEnt) => e.seq % 2 ^ 32 == seq.toNat && recordDue s e) (getComb s i.toNat).die with
  | some e => settleComb (modComb s i.toNat fun c => closeRec c e.seq) i.toNat
  | none => s

/-- Every open record of a Stand closed, and what can spill spilled (R461). -/
def closeAll (s : State) (i : Nat) : State :=
  settleComb (modComb s i fun c => { c with die := c.die.map fun e => { e with opened := false } }) i

/-- HEAD advanced (R461): consumed entries leave the ring. -/
def advanceHead (s : State) (i head : Nat) : State :=
  settleComb (modComb s i fun c => { c with head := head, spill := c.spill.filter fun e => head ≤ e.seq }) i

/-- How far a written HEAD lies beyond the present one, modulo 2^32. -/
def headStep (c : Comb) (v : Nat) : Nat := (v + 2 ^ 32 - c.head % 2 ^ 32) % 2 ^ 32

/-- Base of the ERR_ block. -/
def errBlk : Nat := 0x4000

/-- A write of an ERR_ register: PF0 and the Lookout reach the block (R471). -/
def errWrite (s : State) (w : Wr) (off : Nat) (reserved cond : Bool) (f : State → State) : State :=
  guardWrite s w.writer.toNat errBlk (errBlk + off) (byPf0 w.writer.toNat) none reserved cond f

/-- ERR_HEAD_WRITE (R471): PF0 writes HEAD only while it is the consumer; below the present HEAD or beyond TAIL is reserved. -/
def doErrHeadWrite (i : BitVec 2) (w : Wr) (s : State) : State :=
  let c := getComb s i.toNat
  let v := fld (mergeHalf w.half (wd c.head) w.value) 0 32
  let step := headStep c v
  errWrite s w (0x108 + 0x100 * i.toNat) (decide (c.tail - c.head < step))
    (byLookout w.writer.toNat || bit s.errs.cfg 32) fun s => advanceHead s i.toNat (c.head + step)

/-- A read of ERR_Ss_LOST (R463, R464): the count, and the signal armed again. The table has no row for a read of a register (log entry 76). -/
def errLostRead (i : BitVec 2) (s : State) : Word × State :=
  (wd (getComb s i.toNat).lost, modComb s i.toNat fun c => { c with armed := true })

/-! ### What the log reads -/

/-- R418, R462: an entry that names a locked partition hides its details. -/
def hides (s : State) (r : Rpt) : Bool := match r.part with | some n => tdiLocked s n.toNat | none => false

/-- The eight words of an entry (Table 17.4), as PF0 and the management interfaces read them. -/
def entryWords64 (s : State) (e : LogEnt) : List Word :=
  let r := e.r
  let d := fun (w : Word) => if hides s r then 0 else w
  [rptWord r, wd (e.count * 2 ^ 32 + r.action.toNat * 2 ^ 24 + bitAt e.opened 0), r.time, e.last, d r.d0, d r.d1, wd (e.seq % 2 ^ 32), 0]

/-- An entry by its SEQ, from the die or the ring. -/
def logEntry (c : Comb) (seq : Nat) : Option LogEnt :=
  if seq < c.head then none else firstThat (fun (e : LogEnt) => e.seq == seq) (c.spill ++ c.die)

/-- R464: ALERT_N is asserted while some log holds an entry of WARNING or above that is not consumed; the report that opened it decides (R460). -/
def alertN (s : State) : Bool :=
  (below 4).any fun i => let c := getComb s i; (c.spill ++ c.die).any fun e => decide (c.head ≤ e.seq) && decide (1 ≤ e.sev0.toNat)

/-- R464: a FATAL record asserts FAULT_N until it is consumed; other rules drive it too. -/
def faultN (s : State) : Bool :=
  s.errs.faultN || (below 4).any fun i => let c := getComb s i; (c.spill ++ c.die).any fun e => decide (c.head ≤ e.seq) && e.sev0 == 3

/-! ### Meanings -/

def execReport (s : State) : Out := .next (doReport s)
def execRecordClose (i : BitVec 2) (seq : BitVec 32) (s : State) : Out := .next (doRecordClose i seq s)
def execErrHeadWrite (i : BitVec 2) (w : Wr) (s : State) : Out := .next (doErrHeadWrite i w s)

end Sys2Proof.Machine
end

