-- ==== Sys2Proof/Machine/Mesh.lean ====
section
/-! DEFINITION. The routers: outputs, arbitration, forwarding, multicast, management packets (01_anatomy.md R42, R43;
11_mesh_and_reduction.md R295 to R310). -/

namespace Sys2Proof.Machine

/-! ### Outputs -/

/-- Outputs as numbers: 0 to 3 north, east, south, west; 4 to 19 positions; 20 and 21 Landing links; 22 the unit. -/
def outNo : OutPort → Nat
  | .north => 0
  | .east => 1
  | .south => 2
  | .west => 3
  | .pos n => 4 + n.toNat
  | .landing k => if k then 21 else 20
  | .unit => 22

/-- R306: the mesh output towards a router: first in X, then in Y. -/
def meshOut (r t : Dg) : Option Nat :=
  if xOf r < xOf t then some 1
  else if xOf t < xOf r then some 3
  else if yOf r < yOf t then some 2
  else if yOf t < yOf r then some 0
  else none

/-- The router in a mesh direction, none over the edge. -/
def neighbour (r : Dg) (d : Nat) : Option Dg :=
  match d with
  | 0 => if yOf r = 0 then none else some (dgAt (xOf r) (yOf r - 1))
  | 1 => if xOf r = 15 then none else some (dgAt (xOf r + 1) (yOf r))
  | 2 => if yOf r = 15 then none else some (dgAt (xOf r) (yOf r + 1))
  | _ => if xOf r = 0 then none else some (dgAt (xOf r - 1) (yOf r))

/-- R295: a mesh port with a working neighbour. -/
def portUp (s : State) (r : Dg) (d : Nat) : Bool :=
  match neighbour r d with
  | some n => !(getGrove s r).out && !(getGrove s n).out
  | none => false

/-- R306: at its waypoint a packet turns to its destination, in CLASS 1. -/
def atWay (r : Dg) (p : Pkt) : Pkt := if p.way = some r then { p with way := none, cls := true } else p

/-- The groves of a multicast mask. -/
def maskDgs (m : Nat) : List Dg := ((below 256).filter m.testBit).map (BitVec.ofNat 8)

/-- A multicast packet that its router splits (R309): one on its way to a waypoint goes there whole. -/
def splits (r : Dg) (p : Pkt) : Bool := p.kind == 9 && (atWay r p).way.isNone

/-- The one output that a packet takes at a router; none for a multicast packet, of which each output may take a part. -/
def nextOut (r : Dg) (p : Pkt) : Option Nat :=
  let p := atWay r p
  if p.kind = 9 ∧ p.way = none then none
  else match meshOut r (p.way.getD p.dst) with
  | some d => some d
  | none =>
    if p.exit = 0 then some (4 + p.dpos.toNat)
    else if p.exit = 1 then some 20
    else if p.exit = 2 then some 21
    else some 22

/-! ### Multicast: what leaves by an output (R309) -/

/-- The part of a mask whose groves satisfy `f`. -/
def maskPart (m : Nat) (f : Dg → Bool) : Nat := (((maskDgs m).filter f).map fun d => 2 ^ d.toNat).sum

/-- The waypoint of a multicast's unicast copy to a grove whose XY route from here is blocked; a copy that has passed its waypoint takes no
other. -/
def mcastWay (s : State) (r : Dg) (p : Pkt) (d : Dg) : Option Dg :=
  if p.cls then none
  else match detour s r d with
  | some w => if pathClear s r w && pathClear s w d then some w else none
  | none => none

/-- The groves of a multicast's mask that no route reaches from here. -/
def mcastDead (s : State) (r : Dg) (p : Pkt) : Nat := maskPart p.mask fun d => d != r && !pathClear s r d && (mcastWay s r p d).isNone

/-- R309: what a multicast sends on a mesh output: a copy with the groves whose XY next hop it is, or the unicast copy of the first grove that
is reached by a waypoint in that direction. -/
def mcastCopy (s : State) (r : Dg) (out : Nat) (p : Pkt) : Option Pkt :=
  let m := maskPart p.mask fun d => d != r && pathClear s r d && meshOut r d == some out
  if m ≠ 0 then some { p with mask := m }
  else (firstThat (fun d => d != r && !pathClear s r d && (mcastWay s r p d).any fun w => meshOut r w == some out) (maskDgs p.mask)).map fun d =>
    { p with mask := 2 ^ d.toNat, dst := d, way := mcastWay s r p d }

/-- What a packet sends on an output of its router. -/
def leaving (s : State) (r : Dg) (out : Nat) (p : Pkt) : Option Pkt :=
  if splits r p then (if out < 4 then mcastCopy s r out (atWay r p) else none)
  else if nextOut r p = some out then some (atWay r p) else none

/-- A router's waiting packets once a part of one, or all of it, has left by an output. -/
def without (r : Dg) (out : Nat) (l : List InPkt) (q : InPkt) (p : Pkt) : List InPkt :=
  if splits r q.pkt && (q.pkt.mask ^^^ p.mask) != 0 then
    l.replace q { q with passed := tput 0 q.passed out 0, pkt := { atWay r q.pkt with mask := q.pkt.mask ^^^ p.mask } }
  else l.erase q

/-! ### Arbitration (R43, R302, R303) -/

/-- The input port of the neighbour that an output leads to. -/
def inPortOf (d : Nat) : Nat := (d + 2) % 4

/-- R301, R302: the next buffer of the packet's VC and CLASS has room for all of it. -/
def hasRoom (s : State) (r : Dg) (out : Nat) (p : Pkt) : Bool :=
  if 4 ≤ out then true
  else match neighbour r out with
  | none => false
  | some n =>
    portUp s r out && bufRoom (getGrove s n).pkts ⟨inPortOf out, [], p⟩

/-- The heads of a router's input buffers: the first packet of each port, VC and CLASS. -/
def bufHeads : List (Nat × Nat × Bool) → List InPkt → List InPkt
  | _, [] => []
  | seen, q :: r =>
    let k := (q.port, vcOf q.pkt.kind, q.pkt.cls)
    if seen.contains k then bufHeads seen r else q :: bufHeads (k :: seen) r

/-- The packets that may take an output. -/
def candidates (s : State) (r : Dg) (out : Nat) : List InPkt :=
  (bufHeads [] (getGrove s r).pkts).filter fun q => (leaving s r out q.pkt).any (hasRoom s r out)

/-- R303: the virtual channel granted. -/
def grantVc (o : OutSt) (vcs : List Nat) : Option Nat :=
  match firstThat (fun v => vcs.contains v && decide (16 ≤ tget 0 o.passed v)) [3, 1, 0, 2] with
  | some v => some v
  | none =>
    if vcs.contains 3 then some 3
    else if vcs.contains 1 then some 1
    else if vcs.contains 0 && vcs.contains 2 then some (if o.reqLast then 2 else 0)
    else vcs.head?

/-- R43: the packet that an output grants within a virtual channel. An output that has granted nothing counts input port 0 as the one served
last (log entry 128, DESIGN CHOICE). -/
def grantPkt (out last : Nat) (l : List InPkt) : Option InPkt :=
  let late := l.filter fun q => decide (8 ≤ tget 0 q.passed out)
  let l := if late.isEmpty then l else late
  let top := (l.map fun q => q.pkt.hops.toNat).foldl max 0
  (leastOf ((l.filter fun q => q.pkt.hops.toNat == top).map fun q => ((q.port + 22 - last) % 23, q))).map Prod.snd

/-- The output's memory after a grant. -/
def noteGrant (o : OutSt) (vcs : List Nat) (v port : Nat) : OutSt :=
  { passed := (below 4).foldl (fun t w => tput 0 t w (if vcs.contains w && w != v then tget 0 t w + 1 else 0)) o.passed
    reqLast := if v = 0 then true else if v = 2 then false else o.reqLast
    lastIn := tput 0 o.lastIn v port }

/-! ### Forwarding -/

/-- A packet that leaves a router by an output. -/
def deliver (s : State) (r : Dg) (out : Nat) (p : Pkt) : State :=
  let p := atWay r p
  if out < 4 then
    match neighbour r out with
    | none => s
    | some n => modGrove s n fun g => { g with pkts := g.pkts ++
        [⟨inPortOf out, [], { p with hops := BitVec.ofNat 5 (satAdd 5 p.hops.toNat 1) }⟩] }
  else if out = 20 ∨ out = 21 then pushLanding s p.ep p
  else modGrove s r fun g => { g with arrived := g.arrived ++ [p] }

/-- The router that receives what another sends on an output, and the port that it comes in by; a Landing link or a crossbar port is the
sender's own (log entry 111, DESIGN CHOICE). -/
def receiver (r : Dg) (out : Nat) : Dg × Nat :=
  if out < 4 then ((neighbour r out).getD r, inPortOf out) else (r, out)

/-- 32-byte chunks of a packet's body before its data (R298, R309). -/
def headChunks (p : Pkt) : Nat := if p.kind = 9 then 2 else 1

/-- R297: a packet of which the given chunk of the body is uncorrectable: its data bytes there are poisoned. Where it is the route word, the
header or the mask, all of the data is (log entry 111, DESIGN CHOICE). -/
def poisonChunk (p : Pkt) (i : Nat) : Pkt :=
  let hit := fun (n : Nat) => if i < headChunks p then below n else (below n).filter fun j => j / 32 == i - headChunks p
  match p.msg with
  | some m => if p.kind = 4 then { p with msg := some { m with bad := (hit m.data.length).foldl sIns m.bad } }
    else { p with bad := (hit p.data.length).foldl sIns p.bad }
  | none => { p with bad := (hit p.data.length).foldl sIns p.bad }

/-- R297, R321: what SEC-DED finds in a packet on a link: a correction is counted and reported, an uncorrectable word reported, each against
the receiving router. -/
def linkCheck (s : State) (rx : Dg × Nat) (err : LinkErr) : State :=
  let r := { rpt 0 sOK 0 0 (psidOf rx.1 24 7 0xFF) with part := partOf s rx.1, d0 := wd rx.2 }
  match err with
  | .none => s
  | .fixed => raise (modGrove s rx.1 fun g => { g with corrected := BitVec.ofNat 16 (satAdd 16 g.corrected.toNat 1) }) r
  | .bad _ => raiseEv s { r with cls := 1, status := sECC, sev := 2 } (.meshLink rx.1 rx.2)

/-- The packet after its link. -/
def afterLink (p : Pkt) (err : LinkErr) : Pkt := match err with | .bad i => poisonChunk p i | .none | .fixed => p

/-- R297: everything that SEC-DED finds in a packet on a link. -/
def linkChecks (s : State) (rx : Dg × Nat) (errs : List LinkErr) : State := errs.foldl (fun s e => linkCheck s rx e) s

/-- What SEC-DED finds on the link by which a packet came from its source; a mesh link's errors were found when it was granted. -/
def comeErrs (q : InPkt) (h : Hop) : List LinkErr := if 4 ≤ q.port then h.come else []

/-- R299: a packet of a reserved kind, discarded with an INTERNAL report. -/
def dropKind (s : State) (r : Dg) (q : InPkt) : State :=
  raise (modGrove s r fun g => refill { g with pkts := g.pkts.erase q }) (rpt 3 sINTERNAL 1 0 (psidOf r 24 7 0xFF))

/-- The head of a buffer whose KIND is reserved. -/
def badHead (g : Grove) : Option InPkt := firstThat (fun q => decide (12 ≤ q.pkt.kind.toNat)) (bufHeads [] g.pkts)

/-- PACKET_FORWARD (R297, R299, R302, R303): one grant of an output, with what SEC-DED finds on the links. -/
def doPacketForward (x y : BitVec 4) (h : Hop) (s : State) : State :=
  let r := dgAt x.toNat y.toNat
  let o := outNo h.out
  let g := getGrove s r
  if g.out || asleep s then s
  else match badHead g with
  | some q => dropKind s r q
  | none =>
    let cs := candidates s r o
    let vcs := ([0, 1, 2, 3] : List Nat).filter fun v => cs.any fun q => vcOf q.pkt.kind == v
    let st := tget OutSt.zero g.outs o
    match grantVc st vcs with
    | none => s
    | some v =>
      let mine := cs.filter fun q => vcOf q.pkt.kind == v
      match grantPkt o (tget 0 st.lastIn v) mine with
      | none => s
      | some q =>
        match leaving s r o q.pkt with
        | none => s
        | some p =>
          let pkts := (without r o g.pkts q p).map fun w =>
            if w != q && mine.contains w then { w with passed := tput 0 w.passed o (tget 0 w.passed o + 1) } else w
          let g := refill { g with pkts := pkts, outs := tput OutSt.zero g.outs o (noteGrant st vcs v q.port) }
          let p := h.errs.foldl afterLink ((comeErrs q h).foldl afterLink p)
          linkChecks (linkChecks (deliver (setGrove s r g) r o p) (r, q.port) (comeErrs q h)) (receiver r o) h.errs

/-! ### Multicast: local writes and acknowledgements (R309, R310) -/

/-- R310, R341: an acknowledgement to the source on this device, for grove `d`, which ARG1 names. -/
def mcastAck (s : State) (r d : Dg) (p : Pkt) (st : Status) : State :=
  if p.fab.isSome then s else reply s (.unit r) p { Pkt.blank with kind := 3, arg0 := statusWord st, arg1 := wd d.toNat }

/-- The local write of a multicast packet, acknowledged. -/
def mcastLocal (s : State) (r : Dg) (p : Pkt) : State :=
  let l := lcidOf r p.dpos.toNat
  let off := fld p.addr 0 21
  match sliceReqFault s l { p with addr := wd off, len := p.data.length } with
  | some st => mcastAck s r r p st
  | none =>
    let w := slCopy (getCore s l).sp off p.data p.bad
    let s := modCore s l fun k => { k with sp := w.1 }
    mcastAck s r r p (if w.2.isSome then sPOISON else sOK)

/-- A multicast that its router can write or acknowledge now. -/
def mcastHere (s : State) (r : Dg) (q : InPkt) : Bool :=
  splits r q.pkt && (q.pkt.mask.testBit r.toNat || mcastDead s r (atWay r q.pkt) != 0 || q.pkt.mask == 0)

/-- MCAST_WR (R309, R310): a multicast packet at a router is written where its own bit is set, and acknowledged for the groves that no route
reaches; PACKET_FORWARD takes the parts that go on. -/
def doMcastWr (r : Dg) (s : State) : State :=
  let g := getGrove s r
  if g.out then s
  else match firstThat (mcastHere s r) (bufHeads [] g.pkts) with
  | none => s
  | some q =>
    let p := atWay r q.pkt
    let dead := mcastDead s r p
    let rest := maskPart p.mask fun d => d != r && !dead.testBit d.toNat
    let left := if rest = 0 then g.pkts.erase q else g.pkts.replace q { q with pkt := { p with mask := rest } }
    let s := modGrove s r fun g => refill { g with pkts := left }
    let s := if p.mask.testBit r.toNat then mcastLocal s r p else s
    (maskDgs dead).foldl (fun s d => mcastAck s r d p sVACANT) s

/-! ### Management packets -/

/-- MGT (R303, R304): a management packet is taken by the Lookout or by core control logic. Its body is not in the spec, so
nothing else changes (log entry 28, DESIGN CHOICE). -/
def doMgt (e : Endpt) (s : State) : State :=
  match e with
  | .grove dg => match takeArrived s dg (fun p => p.kind == 10) with
    | none => s
    | some (_, s) => s
  | .lookout => match takeLanding s epLookout (fun p => p.kind == 10) with
    | none => s
    | some (_, s) => s
  | _ => s

/-! ### Meanings -/

def execPacketForward (x y : BitVec 4) (out : Hop) (s : State) : Out := .next (doPacketForward x y out s)
def execMcastWr (dg : Dg) (s : State) : Out := .next (awake (doMcastWr dg) s)
def execMgt (e : Endpt) (s : State) : Out := .next (awake (doMgt e) s)

end Sys2Proof.Machine
end

