-- ==== Sys2Proof/Machine/Lost.lean ====
section
/-! DEFINITION. Operations that another device may never answer (09_messages_and_queues.md R264, R265; 12_gwynfold_links.md R334, R346). -/

namespace Sys2Proof.Machine

/-! ### The operations -/

/-- The device that an address word names, when it is another. -/
def wordFar (s : State) (w : Word) : Option Did := match addrOf w with | some a => farDid s a | none => none

/-- The other devices that a part of a haul involves. -/
def partFars (s : State) (x : Xfer) : List Did := (wordFar s x.dst).toList ++ (wordFar s x.src).toList

/-- The microseconds of REMOTE_TMO (Table 09.13). -/
def remoteTmo (k : Core) : Nat := fld k.un.cfg 40 24

/-- The narrow access that a context waits for. -/
def narrowOf (k : Core) (c : CtxNo) : Option NarrowOut := firstThat (fun o => o.ctx == c) k.un.narrows

/-- A part of a haul by its numbers. -/
def partOfHaul (k : Core) (op part : Nat) : Option Xfer := (findHaul k op).bind fun o => o.parts[part]?

/-- What an outstanding operation says of its loss: the devices involved, lost already, the tick of its last progress. -/
structure Loss where
  fars : List Did
  lost : Bool
  tick : Nat
deriving DecidableEq, Repr

/-- The state of an operation by its reference, none when it is not outstanding. -/
def lossOf (s : State) (l : Lcid) (o : OpRef) : Option Loss :=
  let k := getCore s l
  match o with
  | .narrow c => (narrowOf k c).map fun n => ⟨(wordFar s n.addr).toList, n.lost, n.tick⟩
  | .sync t => (firstThat (fun (n : SyncOut) => n.tag == t && !(n.dead && n.op == opAcq)) k.un.syncs).map fun n => ⟨(syncFar s n.name).toList, n.lost, n.tick⟩
  | .xfer op part => (partOfHaul k op part).bind fun x => if x.done then none else some ⟨partFars s x, x.lost, x.tick⟩
  | .send id => (firstThat (fun (n : SentMsg) => n.msg.mid == id) k.un.sent).map fun n => ⟨(hdrFar s n.msg.h).toList, n.lost, n.tick⟩

/-- An operation marked lost. -/
def markLost (s : State) (l : Lcid) (o : OpRef) : State :=
  match o with
  | .narrow c => modCore s l fun k => modUn k fun u => { u with narrows := u.narrows.map fun n =>
      if n.ctx = c then { n with lost := true } else n }
  | .sync t => modCore s l fun k => modUn k fun u => { u with syncs := u.syncs.map fun n =>
      if n.tag = t then { n with lost := true } else n }
  | .xfer op part => modPart s l op part fun x => { x with lost := true }
  | .send id => modCore s l fun k => modUn k fun u => { u with sent := u.sent.map fun n =>
      if n.msg.mid = id then { n with lost := true } else n }

/-- R565: a SACQ that ends without its answer: a cancel is sent, and the operation is kept to return units that an answer yet grants. -/
def keepAcq (s : State) (l : Lcid) (n : SyncOut) : State :=
  let s := modCore s l fun k => modUn k fun u => { u with syncs := u.syncs.map fun q =>
    if q.tag = n.tag then { q with dead := true, cancel := true, lost := false } else q }
  if n.cancel then s else sendCancel s l n

/-- R250, R260, R265, R267: an operation ended with a status that its peer never gave. -/
def endOp (s : State) (l : Lcid) (o : OpRef) (st : Status) : State :=
  let k := getCore s l
  match o with
  | .narrow c => match narrowOf k c with
    | some n => narrowAnswer s l n st 0
    | none => s
  | .sync t => match firstThat (fun (n : SyncOut) => n.tag == t) k.un.syncs with
    | some n =>
      if n.dead then dropSync s l t
      else syncDone (if n.op = opAcq ∧ n.retry = false then keepAcq s l n else dropSync s l t) l n st 0
    | none => s
  | .xfer op part => stepPart s l op part fun x => endPart x st
  | .send id => match firstThat (fun (n : SentMsg) => n.msg.mid == id) k.un.sent with
    | some n => postEntry (dropSent s l id) l n.cq.toNat (complWords s st 0 0 0 0 0 (some n.msg.h))
    | none => s

/-- The report of a lost device, by an operation that ends (Table 17.5, Table 17.6). -/
def reportLost (s : State) (l : Lcid) (d : Did) : State :=
  raise s { rpt 4 sLOST 2 8 0 with part := partOf s (dgOf l), d0 := wd d.toNat, action := 9 }

/-! ### Remote loss (R264) -/

/-- REMOTE_TMO_EXPIRY: no response within REMOTE_TMO of the last progress. -/
def doRemoteTmoExpiry (l : Lcid) (o : OpRef) (s : State) : State :=
  match lossOf s l o with
  | some x => if x.fars ≠ [] ∧ x.tick + remoteTmo (getCore s l) + 1 ≤ now s then markLost s l o else s
  | none => s

/-- REMOTE_LOST_COMPLETE: the completion, no sooner than 50 ms after the last packet. -/
def doRemoteLostComplete (l : Lcid) (o : OpRef) (s : State) : State :=
  match lossOf s l o with
  | some x =>
    if x.lost ∧ x.tick + 50001 ≤ now s then
      let s := endOp s l o sLOST
      match x.fars with
      | d :: _ => reportLost s l d
      | [] => s
    else s
  | none => s

/-- R334: the operations of one core towards devices that have no route are lost. -/
def loseCore (s : State) (k : Core) : Core :=
  let gone := fun (l : List Did) => l.any fun d => !hasRoute s d
  let losePart := fun (x : Xfer) => if !x.done && gone (partFars s x) then { x with lost := true } else x
  modUn k fun u => { u with
    narrows := u.narrows.map fun n => if gone (wordFar s n.addr).toList then { n with lost := true } else n
    syncs := u.syncs.map fun n => if gone (syncFar s n.name).toList then { n with lost := true } else n
    sent := u.sent.map fun n => if gone (hdrFar s n.msg.h).toList then { n with lost := true } else n
    hauls := u.hauls.map fun o => { o with parts := o.parts.map losePart } }

/-- The device that a host MSG under way goes to, when it is another. -/
def hostFar (c : HostCmd) : Option Did :=
  match c.wire with
  | some (p, _) => if c.fin.isNone then p.fab.map FabRef.dstDid else none
  | none => none

/-- R334: a host MSG towards a device that has no route is lost. -/
def loseCmd (s : State) (c : HostCmd) : HostCmd := if (hostFar c).any fun d => !hasRoute s d then { c with gone := true } else c

/-- R264: REMOTE_TMO of a host MSG, which has no core of its own: the reset value of Table 09.13 (log entry 129, DESIGN CHOICE). -/
def hostRemoteTmo : Nat := 200000

/-- R264: a host MSG at a tick: lost where no answer has come, ended 50 ms after its packet at the earliest. -/
def hostLoss (t : Nat) (c : HostCmd) : HostCmd :=
  match hostFar c, c.wire with
  | some _, some (_, w) =>
    if c.gone && decide (w + 50001 ≤ t) then { c with fin := some (sLOST, 0) }
    else if w + hostRemoteTmo + 1 ≤ t then { c with gone := true }
    else c
  | _, _ => c

/-- R264: the host MSGs towards other devices at a tick; those that end are reported. -/
def loseHost (s : State) : State :=
  let ended := s.host.fns.flatMap fun f => f.2.cmds.filter fun c => c.fin.isNone && (hostLoss (now s) c).fin.isSome
  let s := { s with host := { s.host with fns := tmap Fn.zero (fun n => { n with cmds := n.cmds.map (hostLoss (now s)) }) s.host.fns } }
  ended.foldl (fun s c => match hostFar c with | some d => raise s { rpt 4 sLOST 2 8 0 with d0 := wd d.toNat } | none => s) s

/-- A fabric packet's destination has no route here. -/
def unrouted (s : State) (p : FPkt) : Bool := !p.mcast && !hasRoute s p.dstDid && !(hasDid s && p.dstDid == ownDid s)

/-- The packets queued here whose destination has no route, those in transit. -/
def strayPkts (s : State) : List FPkt :=
  (s.gf.stored ++ s.gf.moved ++ (s.gf.egress.flatMap Prod.snd) ++ s.gf.shapers.flatMap fun p => p.2.queue.map Prod.fst).filter fun p => unrouted s p && p.arr.isSome

/-- A discarded packet counted in NOROUTE and reported. -/
def countStray (s : State) (p : FPkt) : State :=
  raise { s with gf := { s.gf with noroute := BitVec.ofNat 16 (satAdd 16 s.gf.noroute.toNat 1) } }
    { rpt 11 sNOROUTE 1 8 0 with d0 := wd p.dstDid.toNat }

/-- R334: devices that have ceased to have a route: outstanding operations are lost, queued packets discarded, those in transit counted and
reported. -/
def loseRoutes (s : State) : State :=
  let s := (strayPkts s).foldl countStray s
  let cores := tmap Core.zero (loseCore s) s.cores
  let keep := fun (p : FPkt) => !unrouted s p
  let fns := tmap Fn.zero (fun n => { n with cmds := n.cmds.map (loseCmd s) }) s.host.fns
  { s with cores := cores, host := { s.host with fns := fns }, gf := { s.gf with
    stored := s.gf.stored.filter keep, moved := s.gf.moved.filter keep
    shapers := tmap Shaper.zero (fun x => { x with queue := x.queue.filter fun q => keep q.1 }) s.gf.shapers
    egress := tmap [] (List.filter keep) s.gf.egress } }

/-! ### Meanings -/

def execRemoteTmoExpiry (l : Lcid) (o : OpRef) (s : State) : Out := .next (awake (doRemoteTmoExpiry l o) s)
def execRemoteLostComplete (l : Lcid) (o : OpRef) (s : State) : Out := .next (awake (doRemoteLostComplete l o) s)

end Sys2Proof.Machine
end

