-- ==== Sys2Proof/Machine/Reduction.lean ====
section
/-! DEFINITION. In-network reductions: arming, contributions, the tree, the two modes, results, faults; and SYNC_OP, which a
contributor's router absorbs (11_mesh_and_reduction.md R311 to R319). -/

namespace Sys2Proof.Machine

/-! ### The arming image (Table 11.4) -/

/-- Fields of an armed reduction's image. -/
def redWord (r : Red) (i : Nat) : Word := r.image.getD i 0
def redRepro (r : Red) : Bool := bit (redWord r 6) 63
def redN (r : Red) : Nat := fld (redWord r 6) 0 19
def redDest (r : Red) : Lcid := BitVec.ofNat 12 (fld (redWord r 0) 21 12)
def redRoot (r : Red) : Dg := dgOf (redDest r)

/-- Elements, data bytes and plane bytes of a chunk (R314). -/
def chunkElems (r : Red) : Nat := if redRepro r then 32 else 128
def chunkBytes (r : Red) : Nat := if redRepro r then 256 else 512
def planeLen (r : Red) : Nat := if redRepro r then 16 else 4

/-- Chunks of a reduction. -/
def redChunks (r : Red) : Nat := redN r / chunkElems r

/-- The contributors of an image: the occupied positions that it names (R311). -/
def imageMembers (s : State) (image : List Word) : List Lcid :=
  let pos := (below 16).filter fun n => bit (image.getD 6 0) (19 + n)
  (((below 256).filter fun d => bit (image.getD (7 + d / 64) 0) (d % 64)).flatMap fun d =>
    pos.map fun n => lcidOf (BitVec.ofNat 8 d) n).filter fun l => occupied s l

/-! ### The tree (R311) -/

/-- The tree nodes: the routers on the contributors' XY routes to the destination's router. -/
def treeNodes (r : Red) : List Dg := (r.members.flatMap fun l => xyPath (dgOf l) (redRoot r)).eraseDups

/-- The contributors whose route passes a node. -/
def through (r : Red) (v : Dg) : List Lcid := r.members.filter fun l => (xyPath (dgOf l) (redRoot r)).contains v

/-- The lowest of a list of LCIDs. -/
def lowestOf (l : List Lcid) : Nat := (l.map BitVec.toNat).foldl min 4096

/-- The node after `v` on the way to the destination. -/
def downstream (r : Red) (v : Dg) : Option Dg := ((xyPath v (redRoot r)).drop 1).head?

/-- A node's inputs, each with the lowest contributor LCID that it carries. -/
def nodeInputs (r : Red) (v : Dg) : List (Nat × Nat) :=
  ((r.members.filter fun l => dgOf l == v).map fun l => (l.toNat, l.toNat)) ++
  (((treeNodes r).filter fun u => downstream r u == some v).map fun u => (lowestOf (through r u), 4096 + u.toNat))

/-- The inputs in ascending order of the lowest contributor LCID (R318). -/
def foldOrder (r : Red) (v : Dg) : List Nat := (sortBy (fun p => p.1) (nodeInputs r v)).map Prod.snd

/-- R318: the working router where a node's adds are made. -/
def nodeAt (s : State) (r : Red) (v : Dg) : Dg :=
  (firstThat (fun d => !(getGrove s d).out) (xyPath v (redRoot r))).getD (redRoot r)

/-- The node that an input leads to. -/
def inputNode (r : Red) (key : Nat) : Dg :=
  if key < 4096 then dgOf (BitVec.ofNat 12 key)
  else (downstream r (BitVec.ofNat 8 (key - 4096))).getD (redRoot r)

/-- The router that sends on an input. -/
def inputFrom (s : State) (r : Red) (key : Nat) : Dg :=
  if key < 4096 then dgOf (BitVec.ofNat 12 key) else nodeAt s r (BitVec.ofNat 8 (key - 4096))

/-! ### Checks (R312) -/

/-- Chunk buffers that a reduction reserves in a router (R315). -/
def bufsAt (r : Red) (v : Dg) : Nat := if (treeNodes r).contains v then 2 * (nodeInputs r v).length else 0

/-- GRV_RED_STATUS: contexts armed at a router, and buffers free (Table 11.8). -/
def ctxUsed (s : State) (v : Dg) : Nat := (s.reds.filter fun r => (treeNodes r).contains v).length
def bufFree (s : State) (v : Dg) : Nat := 128 - (s.reds.map fun r => bufsAt r v).sum

/-- A reduction at rest, of an image and its contributors. -/
def freshRed (image : List Word) (members : List Lcid) (coll : Option (BitVec 4 × BitVec 16)) : Red :=
  { image := image, members := members, arrived := [], fwd := [], counted := [], next := [], busy := [], bufs := [], sums := [], out := []
    fl := 0, sat := 0, bad := false, retried := false, coll := coll }

/-- A space 0b01 address whose `n` bytes lie in its slice. -/
def devRange (w : Word) (n : Nat) : Bool := fld w 62 2 == 1 && fld w 33 29 == 0 && decide (fld w 0 21 + n ≤ sliceBytes)

/-- R312: the first check that an image fails. -/
def armFault (s : State) (image : List Word) : Option Status :=
  let r := freshRed image (imageMembers s image) none
  let w := redWord r
  let n := redN r
  let data := redChunks r * chunkBytes r
  let plane := redChunks r * planeLen r
  let groves := (redRoot r :: syncDg (redAnchor r) :: r.members.map dgOf).eraseDups
  let o := getObj (getGrove s (syncDg (redAnchor r))) (syncIx (redAnchor r))
  if image.length ≠ 11 ∨ fld (w 3) 21 43 ≠ 0 ∨ fld (w 4) 21 43 ≠ 0 ∨ fld (w 5) 15 49 ≠ 0 ∨ fld (w 6) 35 28 ≠ 0 ∨
      n = 0 ∨ 262144 < n ∨ n % chunkElems r ≠ 0 then some sRSVD
  else if !devRange (w 0) data || !devRange (w 1) plane || !devRange (w 2) 16 || fld (w 2) 0 4 != 0 ||
      fld (w 1) 21 12 != fld (w 0) 21 12 || fld (w 2) 21 12 != fld (w 0) 21 12 ||
      decide (sliceBytes < fld (w 3) 0 21 + data) || decide (sliceBytes < fld (w 4) 0 21 + plane) then some sBOUNDS
  else if !occupied s (redDest r) then some sVACANT
  else if !(groves.all fun d => samePart (partOf s (redRoot r)) (partOf s d)) ||
      partOf s (redRoot r) != some (objPart o) && bit o.cfg 63 then some sPERM
  else if syncDg (redAnchor r) ≠ redRoot r ∨ !bit o.cfg 63 ∨ objType o ≠ 1 ∨ objParam o ≠ r.members.length ∨
      (redOf s (redRoot r) (syncIx (redAnchor r))).isSome then some sBOUNDS
  else if (treeNodes r).any fun v => decide (16 ≤ ctxUsed s v) || decide (bufFree s v < bufsAt r v) then some sBOUNDS
  else none

/-- R312: the image armed if every check passes, and the status. -/
def armRed (s : State) (image : List Word) (coll : Option (BitVec 4 × BitVec 16)) : State × Status :=
  match armFault s image with
  | some st => (s, st)
  | none => ({ s with reds := s.reds ++ [freshRed image (imageMembers s image) coll] }, sOK)

/-- REDUCTION_ARM (R312), with the status that is returned. -/
def doReductionArm (image : List Word) (s : State) : State :=
  let q := armRed s image none
  { q.1 with host := { q.1.host with armSt := some q.2 } }

/-! ### Chunks -/

/-- The state with an armed reduction replaced, by its anchor. -/
def setRed (s : State) (r : Red) : State :=
  { s with reds := s.reds.map fun q => if redAnchor q = redAnchor r then r else q }

/-- The armed reduction of an anchor name. -/
def redByName (s : State) (name : Word) : Option Red := firstThat (fun r => redAnchor r == name) s.reds

/-- A chunk from its bytes: data, and its plane. -/
def chunkOf (repro : Bool) (data plane : List Byte) (bad : Bool) : RedChunk :=
  if repro then
    let t := wd (leNat (plane.drop 8))
    { exps := [signed 16 (leNat (plane.take 2))], spec := (below 32).map fun i => clsOf (fld t (2 * i) 2)
      sigs := (below 32).map fun i => signed 64 (leNat ((data.drop (8 * i)).take 8)), bad := bad }
  else
    { exps := (below 4).map fun k => ((leNat ((plane.drop k).take 1) : Nat) : Int), spec := []
      sigs := (below 128).map fun i => signed 32 (leNat ((data.drop (4 * i)).take 4)), bad := bad }

/-- The bytes of a chunk: data, and its plane. -/
def chunkData (repro : Bool) (c : RedChunk) : List Byte × List Byte :=
  if repro then
    (c.sigs.flatMap fun v => leBytes 8 (unsigned 64 v),
     leBytes 2 (unsigned 16 (c.exps.headD 0)) ++ leBytes 6 0 ++ leBytes 8 (tagWord1 c.spec))
  else (c.sigs.flatMap fun v => leBytes 4 (unsigned 32 v), c.exps.flatMap fun e => leBytes 1 e.toNat)

/-- Chunk `i` of a contribution, read from its slice (R313). -/
def readChunk (s : State) (r : Red) (l : Lcid) (i : Nat) : RedChunk :=
  let sl := (getCore s l).sp
  let a := fld (redWord r 3) 0 21 + chunkBytes r * i
  let p := fld (redWord r 4) 0 21 + planeLen r * i
  chunkOf (redRepro r) (slRead sl a (chunkBytes r)) (slRead sl p (planeLen r))
    ((poisonAt sl a (chunkBytes r)).isSome || (poisonAt sl p (planeLen r)).isSome)

/-- The RED packet of a chunk on an input. -/
def redPkt (r : Red) (key i : Nat) (c : RedChunk) : Pkt :=
  let q := chunkData (redRepro r) c
  { Pkt.blank with kind := 8, addr := wd (fld (redWord r 0) 0 21 + chunkBytes r * i), tag := key, arg0 := redAnchor r
                   arg1 := wd (i * 2 ^ 32 + if redRepro r then 0 else leNat q.2), data := if redRepro r then q.1 ++ q.2 else q.1
                   bad := if c.bad then [0] else [], len := if redRepro r then 272 else 512 }

/-- The chunk that a RED packet carries. -/
def pktChunk (r : Red) (p : Pkt) : RedChunk :=
  if redRepro r then chunkOf true (p.data.take 256) (p.data.drop 256) (!p.bad.isEmpty)
  else chunkOf false p.data (leBytes 4 (fld p.arg1 0 32)) (!p.bad.isEmpty)

/-! ### The adds -/

/-- A chunk sum with its counts. -/
structure ChunkSum where
  chunk : RedChunk
  fl    : Nat
  sat   : Nat
deriving DecidableEq, Repr

/-- One W32 block of an add (R317): exponent, significands, flushed, saturated. -/
structure BlockSum where
  e   : Int
  s   : List Int
  fl  : Nat
  sat : Nat
deriving DecidableEq, Repr

/-- `w32_add` (R317). -/
def w32Add (sa : List Int) (ea : Int) (sb : List Int) (eb : Int) : BlockSum :=
  if ea = 0xFF ∨ eb = 0xFF then ⟨0xFF, sa.map fun _ => 0, 0, 0⟩
  else
    let e := max ea eb
    let ta := sa.map fun v => trunc v (e - ea).toNat
    let tb := sb.map fun v => trunc v (e - eb).toNat
    let lost := fun (a b : List Int) => countP (fun p : Int × Int => p.1 != 0 && p.2 == 0) (a.zip b)
    let fl := lost sa ta + lost sb tb
    let t := List.zipWith (· + ·) ta tb
    let hi : Int := 2 ^ 31 - 1
    let lo : Int := -2 ^ 31
    let out := fun (v : Int) => decide (v < lo) || decide (hi < v)
    if !t.any out then ⟨e, t, fl, 0⟩
    else if e = 254 then ⟨e, t.map fun v => max lo (min hi v), fl, countP out t⟩
    else
      let u := t.map fun v => trunc v 1
      ⟨e + 1, u, fl + lost t u, 0⟩

/-- Fast mode (R317): four W32 blocks. -/
def fastAdd (a b : RedChunk) : ChunkSum :=
  let bs := (below 4).map fun k =>
    w32Add ((a.sigs.drop (32 * k)).take 32) (a.exps.getD k 0) ((b.sigs.drop (32 * k)).take 32) (b.exps.getD k 0)
  { chunk := { exps := bs.map BlockSum.e, spec := [], sigs := bs.flatMap BlockSum.s, bad := a.bad || b.bad }
    fl := (bs.map BlockSum.fl).sum, sat := (bs.map BlockSum.sat).sum }

/-- `w64_add` (R318). -/
def w64Add (a b : RedChunk) : ChunkSum :=
  let ea := a.exps.headD 0
  let eb := b.exps.headD 0
  let e := max ea eb
  let spec := List.zipWith addCls a.spec b.spec
  let part := fun (c : Cls) (v x : Int) => if c = .fin then shift v (x - e) else 0
  let ta := List.zipWith (fun c v => part c v ea) a.spec a.sigs
  let tb := List.zipWith (fun c v => part c v eb) b.spec b.sigs
  let lost := fun (cs : List Cls) (v t : List Int) =>
    countP (fun q : Cls × Int × Int => q.1 == .fin && q.2.1 != 0 && q.2.2 == 0) (cs.zip (v.zip t))
  let t := List.zipWith (fun (c : Cls) v => if c = .fin then v else 0) spec (List.zipWith (· + ·) ta tb)
  let r := renorm e t
  { chunk := { exps := [r.e], spec := spec, sigs := r.s, bad := a.bad || b.bad }
    fl := lost a.spec a.sigs ta + lost b.spec b.sigs tb + r.fl, sat := r.sat }

/-- The add of a reduction's mode. -/
def redAdd (r : Red) (a b : RedChunk) : ChunkSum := if redRepro r then w64Add a b else fastAdd a b

/-! ### Sending and credits (R315) -/

/-- Buffers reserved at an input that are free. -/
def creditOf (r : Red) (key : Nat) : Bool := decide (tget 0 r.busy key < 2)

/-- The partition of a reduction (R312), which its packets carry (R414). -/
def redPart (s : State) (r : Red) : BitVec 4 := (partOf s (redRoot r)).getD 0

/-- A chunk sent on an input. -/
def sendChunk (s : State) (r : Red) (key i : Nat) (c : RedChunk) : State :=
  let s := setRed s { r with next := tput 0 r.next key (tget 0 r.next key + 1), busy := tput 0 r.busy key (tget 0 r.busy key + 1) }
  sendUnit s (inputFrom s r key) ({ redPkt r key i c with part := redPart s r }.toUnit (nodeAt s r (inputNode r key)))

/-- R313: a contributor's next chunk, where its input has a free buffer. -/
def sendMember (s : State) (name : Word) (l : Lcid) : State :=
  match redByName s name with
  | none => s
  | some r =>
    let i := tget 0 r.next l.toNat
    if r.arrived.contains l && decide (i < redChunks r) && creditOf r l.toNat then sendChunk s r l.toNat i (readChunk s r l i) else s

/-- A freed buffer: RED_CREDIT to the sender of an input. -/
def giveCredit (s : State) (r : Red) (v : Dg) (key : Nat) : State :=
  sendUnit s (nodeAt s r v) ({ Pkt.blank with kind := 11, tag := key, arg0 := redAnchor r, part := redPart s r }.toUnit (inputFrom s r key))

/-- A node's sum that is complete. -/
def sumDone (r : Red) (x : RedSum) : Bool := x.got.length == (nodeInputs r x.node).length

/-- A complete sum of a node that is not the root goes on when its output has a free buffer. -/
def sendSum (s : State) (name : Word) (v : Dg) : State :=
  match redByName s name with
  | none => s
  | some r =>
    let key := 4096 + v.toNat
    match firstThat (fun x => x.node == v && x.idx == tget 0 r.next key && sumDone r x) r.sums with
    | none => s
    | some x =>
      if v = redRoot r || !creditOf r key then s
      else
        let r := { r with sums := r.sums.erase x }
        let s := sendChunk s r key x.idx x.chunk
        match x.got with
        | k :: _ => giveCredit s r v k
        | [] => s

/-! ### Results (R316) -/

/-- The status of a phase that ends with its result. -/
def redStatus (r : Red) : Status := if r.bad then sPOISON else if r.retried then sRETRIED else sOK

/-- A chunk that holds a special element. -/
def chunkSpecial (r : Red) (c : RedChunk) : Bool :=
  if redRepro r then c.spec.any (· != .fin) else c.exps.any (· == 0xFF)

/-- The result record (Table 11.5). -/
def redRecord (r : Red) (st : Status) : List Word :=
  let sp := (below (redChunks r)).filter fun i => match tget none r.out i with | some c => chunkSpecial r c | none => false
  [wd (min r.fl 0xFFFFFFFF * 2 ^ 32 + min r.sat 0xFFFFFFFF),
   wd (st.toNat * 2 ^ 56 + bitAt (!sp.isEmpty) 55 + sp.headD 0)]

/-- The anchor's phase advances and its waiters are answered (R316). -/
def advanceAnchor (s : State) (r : Red) : State :=
  let dg := redRoot r
  let ix := syncIx (redAnchor r)
  let s := modGrove s dg fun g =>
    let o := getObj g ix
    setObj g ix { o with val := wd ((fld o.val 32 32 + 1) % 2 ^ 32 * 2 ^ 32) }
  serveWaiters s dg ix

/-- One result chunk written into DEST and DEST_PLANE; a poisoned one marks what it would cover (R226, R319). -/
def writeChunk (r : Red) (sl : Slice) (i : Nat) : Slice :=
  match tget none r.out i with
  | none => sl
  | some c =>
    let q := chunkData (redRepro r) c
    let mark := fun (bs : List Byte) => if c.bad then below bs.length else []
    let sl := (slCopy sl (fld (redWord r 0) 0 21 + chunkBytes r * i) q.1 (mark q.1)).1
    (slCopy sl (fld (redWord r 1) 0 21 + planeLen r * i) q.2 (mark q.2)).1

/-- The collective that armed a reduction. -/
def redColl (s : State) (r : Red) : Option Coll :=
  r.coll.bind fun q => firstThat (fun (c : Coll) => c.part == q.1 && c.id == q.2) s.host.colls

/-- The other devices of a collective. -/
def peers (s : State) (c : Coll) : List Did := c.dids.filter fun d => !(hasDid s && d == ownDid s)

/-- R389: the result of a collective that other devices take part in is held for the exchange; DEST is written after it. -/
def heldResult (s : State) (r : Red) : Bool := match redColl s r with | some c => !(peers s c).isEmpty | none => false

/-- A chunk of a device's local result for a peer: a management packet with the body of a RED packet (log entry 28, DESIGN CHOICE). -/
def resultPkt (r : Red) (c : Coll) (i : Nat) (k : RedChunk) : Pkt :=
  { redPkt r 0 i k with kind := 10, tag := c.id.toNat, arg0 := wd (c.part.toNat * 65536 + c.id.toNat) }

/-- R320, R389: the local result sent to the other devices of a collective over Gwynfold. -/
def sendResult (s : State) (r : Red) (c : Coll) : State :=
  (peers s c).foldl (fun s d => (below (redChunks r)).foldl (fun s i =>
    match tget none r.out i with
    | some k => sendFar s (.ep epLookout) (resultPkt r c i k) d (redDest r) (some (redDest r))
    | none => s) s) s

/-- The collective of a reduction has its local result, which it holds while other devices take part (R389). -/
def collReady (s : State) (r : Red) : State :=
  match redColl s r with
  | none => s
  | some c =>
    let c' := { c with ready := true, since := now s, result := if (peers s c).isEmpty then none else some r }
    sendResult { s with host := { s.host with colls := s.host.colls.map fun d => if d = c then c' else d } } r c

/-- A reduction ready for its next phase; credits on their way count in it (R315). -/
def restRed (r : Red) : Red :=
  { r with arrived := [], fwd := [], counted := [], next := [], bufs := [], sums := [], out := [], fl := 0, sat := 0, bad := false, retried := false }

/-- R316: every chunk combined and every contributor counted: the result, the record, then the anchor. -/
def redFinish (s : State) (name : Word) : State :=
  match redByName s name with
  | none => s
  | some r =>
    let o := getObj (getGrove s (redRoot r)) (syncIx name)
    if (below (redChunks r)).all (fun i => (tget none r.out i).isSome) ∧ fld o.val 0 32 = objParam o then
      let held := heldResult s r
      let s := modCore s (redDest r) fun k => modSp k fun sl =>
        slPutWords (if held then sl else (below (redChunks r)).foldl (writeChunk r) sl) (fld (redWord r 2) 0 21) (redRecord r (redStatus r))
      collReady (setRed (advanceAnchor s r) (restRed r)) r
    else s

/-! ### Arrivals at a node -/

/-- One input's chunk taken into the node's sum of its index, with what its buffer frees. -/
def takeInput (s : State) (name : Word) (v : Dg) (key i : Nat) (c : RedChunk) : State :=
  match redByName s name with
  | none => s
  | some r =>
    let r := { r with bad := r.bad || c.bad }
    match firstThat (fun x => x.node == v && x.idx == i) r.sums with
    | none => setRed s { r with sums := r.sums ++ [⟨v, i, c, [key]⟩] }
    | some x =>
      let q := redAdd r x.chunk c
      let x' := { x with chunk := q.chunk, got := x.got ++ [key] }
      let r := { r with sums := r.sums.map (fun y => if y = x then x' else y), fl := r.fl + q.fl, sat := r.sat + q.sat }
      giveCredit (setRed s r) r v key

/-- R318: inputs held at a node are taken while the next in the fold order is there. -/
def takeHeld : Nat → State → Word → Dg → Nat → State
  | 0, s, _, _, _ => s
  | n + 1, s, name, v, i =>
    match redByName s name with
    | none => s
    | some r =>
      let got := ((firstThat (fun x => x.node == v && x.idx == i) r.sums).map RedSum.got).getD []
      match (foldOrder r v)[got.length]? with
      | none => s
      | some key =>
        match firstThat (fun b => b.node == v && b.input == key && b.idx == i) r.bufs with
        | none => s
        | some b => takeHeld n (takeInput (setRed s { r with bufs := r.bufs.erase b }) name v key i b.chunk) name v i

/-- A node's complete sum leaves it: into the result at the root, towards the next node elsewhere. -/
def closeSum (s : State) (name : Word) (v : Dg) (i : Nat) : State :=
  match redByName s name with
  | none => s
  | some r =>
    if v ≠ redRoot r then sendSum s name v
    else match firstThat (fun x => x.node == v && x.idx == i && sumDone r x) r.sums with
    | none => s
    | some x =>
      let r := { r with sums := r.sums.erase x, out := tput none r.out i (some x.chunk) }
      let s := match x.got with
        | k :: _ => giveCredit (setRed s r) r v k
        | [] => setRed s r
      redFinish s name

/-- RED_PACKET (R317, R318): the first chunk at a router's reduction unit. One that names no armed reduction is dropped. -/
def doRedPacket (dg : Dg) (s : State) : State :=
  match takeArrived s dg (fun p => p.kind == 8 && p.exit == 3) with
  | none => s
  | some (p, s) =>
    match redByName s p.arg0 with
    | none => s
    | some r =>
      let i := fld p.arg1 32 32
      let v := inputNode r p.tag
      let c := pktChunk r p
      if redRepro r then
        let s := setRed s { r with bufs := r.bufs ++ [⟨v, p.tag, i, c⟩] }
        closeSum (takeHeld (nodeInputs r v).length s p.arg0 v i) p.arg0 v i
      else closeSum (takeInput s p.arg0 v p.tag i c) p.arg0 v i

/-- RED_CREDIT (R315): a freed buffer lets the sender's next chunk go. -/
def doRedCredit (dg : Dg) (s : State) : State :=
  match takeArrived s dg (fun p => p.kind == 11) with
  | none => s
  | some (p, s) =>
    match redByName s p.arg0 with
    | none => s
    | some r =>
      let s := setRed s { r with busy := tput 0 r.busy p.tag (tget 0 r.busy p.tag - 1) }
      if p.tag < 4096 then sendMember s p.arg0 (BitVec.ofNat 12 p.tag) else sendSum s p.arg0 (BitVec.ofNat 8 (p.tag - 4096))

/-! ### SYNC_OP (R268, R313) -/

/-- R518: a fast-mode phase begun is counted against its partition. -/
def countFast (s : State) (part : Option (BitVec 4)) : State :=
  match part with
  | some n => { s with check := { s.check with fast := tput 0 s.check.fast n.toNat ((tget 0 s.check.fast n.toNat + 1) % 2 ^ 32) } }
  | none => s

/-- The arrival that a contributor's router forwards to the anchor; its tag is the contributor's LCID. -/
def forwardPkt (r : Red) (l : Lcid) (part : BitVec 4) (c : CtxNo) : Pkt :=
  { Pkt.blank with kind := 6, addr := wd opForward.toNat, arg0 := redAnchor r, tag := l.toNat, part := part, sctx := c }.toUnit (redRoot r)

/-- R313: a contributor's SARRIVE absorbed by its router: answered, forwarded once per phase, and its chunks begun. -/
def absorb (s : State) (dg : Dg) (p : Pkt) (r : Red) (l : Lcid) : State :=
  let s := syncAnswer s dg p sOK 0 0
  if r.arrived.contains l then s
  else
    let s := if r.arrived.isEmpty && !redRepro r then countFast s (partOf s (redRoot r)) else s
    let s := setRed s { r with arrived := r.arrived ++ [l], fwd := tput 0 r.fwd l.toNat (now s) }
    let s := sendUnit s dg (forwardPkt r l p.part p.sctx)
    sendMember (sendMember s (redAnchor r) l) (redAnchor r) l

/-- R313: an arrival forwarded to the anchor of a reduction, counted once for each contributor of a phase. -/
def anchorTake (s : State) (p : Pkt) (r : Red) : State :=
  let l : Lcid := BitVec.ofNat 12 p.tag
  if r.counted.contains l || !r.arrived.contains l then s
  else redFinish (setRed (syncAt s (syncDg p.arg0) p) { r with counted := r.counted ++ [l] }) (redAnchor r)

/-- A sync operation taken by a router. -/
def syncOpAt (s : State) (dg : Dg) (p : Pkt) : State :=
  let name := p.arg0
  if !groveWorks s dg then syncAnswer s dg p sVACANT 0 0
  else
    let l := lcidOf p.src p.spos.toNat
    match redOf s (syncDg name) (syncIx name) with
    | some r =>
      if p.addr = wd opArrive.toNat ∧ p.fab = none ∧ r.members.contains l = true then absorb s dg p r l
      else if p.addr = wd opForward.toNat then anchorTake s p r
      else syncAt s (syncDg name) p
    | none => syncAt s (syncDg name) p

/-- SYNC_OP (R268): the first sync operation at a router's unit, in the order of its source (R305). -/
def doSyncOp (dg : Dg) (s : State) : State :=
  match takeArrived s dg (syncTakeable s false) with
  | none => s
  | some (p, s) =>
    if takenBefore (getGrove s dg) p then s else syncOpAt (modGrove s dg fun g => noteTaken g p) dg p

/-! ### Faults (R319) -/

/-- A reduction disarmed. -/
def disarm (s : State) (name : Word) : State := { s with reds := s.reds.filter fun r => redAnchor r != name }

/-- RED and RED_CREDIT packets of a reduction, anywhere on the mesh. -/
def dropRedPkts (s : State) (name : Word) : State :=
  let mine := fun (p : Pkt) => (p.kind == 8 || p.kind == 11) && p.arg0 == name
  { s with groves := tmap Grove.zero (fun g =>
      refill { g with pkts := g.pkts.filter fun w => !mine w.pkt, wait := g.wait.filter fun w => !mine w.pkt, arrived := g.arrived.filter fun w => !mine w }) s.groves }

/-- R319, R494: a phase ended with LCID_VACANT: the record is written, the anchor advances and the reduction is disarmed.
No destination chunk has been written: they are written together at the end of a phase (R316). -/
def abortRed (s : State) (r : Red) : State :=
  let s := if occupied s (redDest r) then modCore s (redDest r) fun k => modSp k fun sl =>
      slPutWords sl (fld (redWord r 2) 0 21) (redRecord r sVACANT) else s
  let s := modGrove s (redRoot r) fun g => { g with aborts := BitVec.ofNat 16 (satAdd 16 g.aborts.toNat 1) }
  disarm (advanceAnchor (dropRedPkts s (redAnchor r)) r) (redAnchor r)

/-- R319: the reductions to which a position contributes, or that write to it, end. -/
def redVacant (s : State) (l : Lcid) : State :=
  (s.reds.filter fun r => r.members.contains l || redDest r == l).foldl abortRed s

/-- R319: a phase begun again from its sources on the new routes. -/
def restartRed (s : State) (r : Red) : State :=
  let s := dropRedPkts s (redAnchor r)
  let s := modGrove s (redRoot r) fun g => { g with restarts := BitVec.ofNat 16 (satAdd 16 g.restarts.toNat 1) }
  let s := setRed s { restRed r with arrived := r.arrived, fwd := r.fwd, counted := r.counted, busy := [], retried := true }
  r.arrived.foldl (fun s l => sendMember (sendMember s (redAnchor r) l) (redAnchor r) l) s

/-- R319: the reductions whose destination's router is blazed are gone with their anchors, as R269 has it. -/
def redRootLost (s : State) (dg : Dg) : State :=
  (s.reds.filter fun r => redRoot r == dg).foldl (fun s r => disarm (dropRedPkts s (redAnchor r)) (redAnchor r)) s

/-- R319: a blazed router's reductions whose phase has begun, and that had a node there or packets lost with it (`names`), start it again. -/
def redRouterLost (s : State) (dg : Dg) (names : List Word) : State :=
  (s.reds.filter fun r => ((treeNodes r).contains dg || names.contains (redAnchor r)) && !r.arrived.isEmpty).foldl restartRed s

/-! ### Meanings -/

def execReductionArm (image : List Word) (s : State) : Out := .next (awake (doReductionArm image) s)
def execRedPacket (dg : Dg) (s : State) : Out := .next (awake (doRedPacket dg) s)
def execRedCredit (dg : Dg) (s : State) : Out := .next (awake (doRedCredit dg) s)
def execSyncOp (dg : Dg) (s : State) : Out := .next (awake (doSyncOp dg) s)

end Sys2Proof.Machine
end

