-- ==== Sys2Proof/Machine/Spatial.lean ====
section
/-! DEFINITION. Spatial channels: paths, the link unit, link registers, broken channels (10_spatial_layouts.md). -/

namespace Sys2Proof.Machine

/-! ### The grid (R274) -/

/-- Link coordinates of a position. -/
def linkX (l : Lcid) : Nat := 4 * xOf (dgOf l) + posOf l % 4
def linkY (l : Lcid) : Nat := 4 * yOf (dgOf l) + posOf l / 4

/-- The position at link coordinates. -/
def posAt (x y : Nat) : Lcid := lcidOf (dgAt (x / 4) (y / 4)) (y % 4 * 4 + x % 4)

/-- The neighbour in a direction, none over the edge (Table 10.1). -/
def linkNext (l : Lcid) (d : Nat) : Option Lcid :=
  match d with
  | 0 => if linkY l = 0 then none else some (posAt (linkX l) (linkY l - 1))
  | 1 => if linkX l = 63 then none else some (posAt (linkX l + 1) (linkY l))
  | 2 => if linkY l = 63 then none else some (posAt (linkX l) (linkY l + 1))
  | _ => if linkX l = 0 then none else some (posAt (linkX l - 1) (linkY l))

/-- The directions of a route of `n` hops (Table 10.2). -/
def routeDirs (route n : Nat) : List Nat := (below n).map fun k => route / 4 ^ k % 4

/-- The positions that a route visits after its source; none if it leaves the grid. -/
def routePath : Lcid → List Nat → Option (List Lcid)
  | _, [] => some []
  | l, d :: r => match linkNext l d with
    | none => none
    | some m => (routePath m r).map fun p => m :: p

/-- Fields of CORE_LINK_OUTd and CORE_LINK_INd (Table 10.5). -/
def linkDepth (e : LinkEnd) : Nat := fld e.reg 56 7
def linkCtx (e : LinkEnd) : CtxNo := BitVec.ofNat 9 (fld e.reg 44 9)
def linkHops (e : LinkEnd) : Nat := fld e.reg 34 4
def linkRoute (e : LinkEnd) : Nat := fld e.reg 16 16
def linkValid (e : LinkEnd) : Bool := bit e.reg 63

/-- The side on which a channel enters its destination: opposite its last hop. -/
def enterSide (dirs : List Nat) : Nat := (dirs.getLastD 0 + 2) % 4

/-- The far end of an outbound endpoint: its position and side, with the positions on the way. -/
def channelEnd (l : Lcid) (e : LinkEnd) : Option (Lcid × Nat × List Lcid) :=
  let dirs := routeDirs (linkRoute e) (linkHops e)
  match routePath l dirs with
  | some p => some (p.getLastD l, enterSide dirs, p)
  | none => none

/-! ### The link unit (R279, R284, R293) -/

/-- The owner of an inbound endpoint wakes when a word comes or the channel breaks. -/
def wakeReader (k : Core) (d : Nat) : Core :=
  let c := linkCtx (getLink k true d)
  match (getCtx k c).wait with
  | .queue qn _ true => if qn = fld (getLink k true d).reg 38 6 then modCtx k c wakeQrd else k
  | _ => k

/-- A sequence lower than one already received (R293), modulo 2^32. -/
def seenBefore (n top : BitVec 32) : Bool := let d := (top - n).toNat; decide (1 ≤ d) && decide (d ≤ 2 ^ 31)

/-- R282, R563: what the storage of a skid word is found to hold, reported against the position's part of the crossbar (log entry 105, DESIGN
CHOICE). -/
def skidReport (s : State) (l : Lcid) (d : Nat) (err : WordErr) : State :=
  let base := rptCore s l { rpt 0 sOK 0 0 (psidOf (dgOf l) 31 7 0xFF) with d0 := wd d }
  match err with
  | .none => s
  | .fixed => raise s base
  | .bad => raise s { base with cls := 1, status := sECC, sev := 2 }

/-- CHANNEL_WORD_DELIVER (R279): the word at the head of an outbound skid queue moves to the inbound one, if there is room;
one that was received before is discarded. An error that SEC-DED cannot correct leaves the word poisoned (R282). -/
def doChannelWordDeliver (l : Lcid) (d : BitVec 2) (err : WordErr) (s : State) : State :=
  let e := getLink (getCore s l) false d.toNat
  match e.words, channelEnd l e with
  | (n, bs, bad) :: r, some (t, side, _) =>
    let f := getLink (getCore s t) true side
    let sent := modCore s l fun k => setLink k false d.toNat { e with words := r }
    if asleep s || !linkValid e || e.broken || !linkValid f || f.broken then s
    else if seenBefore n f.top then sent
    else if linkDepth f ≤ f.words.length then s
    else skidReport (modCore sent t fun k =>
      let f := getLink k true side
      wakeReader (setLink k true side { f with words := f.words ++ [(n, bs, bad || err == .bad)], top := n + 1 }) side) l d.toNat err
  | _, _ => s

/-! ### Registers (R287) -/

/-- The defined bits of a link register. -/
def linkBits (v : Word) : Word := keepFields v [(63, 1), (56, 7), (44, 9), (38, 6), (34, 4), (16, 16)]

/-- A reserved value of a link register (Table 10.5). -/
def linkReserved (v : Word) : Bool :=
  fld v 38 6 == 63 || (bit v 63 && (decide (fld v 56 7 < 2) || decide (64 < fld v 56 7) || fld v 34 4 == 0 || decide (8 < fld v 34 4)))

/-- An endpoint bound or unbound: its skid contents and sequences start afresh (R286, R287). -/
def bindLink (v : Word) : LinkEnd := { LinkEnd.zero with reg := v }

/-- LINK_REGISTER_WRITE (R287). -/
def doLinkRegisterWrite (l : Lcid) (inb : Bool) (d : BitVec 2) (w : Wr) (s : State) : State :=
  let k := getCore s l
  let v := linkBits (mergeHalf w.half (getLink k inb d.toNat).reg w.value)
  coreSet s l w ((if inb then 0x520 else 0x500) + 8 * d.toNat) (linkReserved v) (roleIdle k) fun s =>
    modCore s l fun k => setLink k inb d.toNat (bindLink v)

/-! ### Broken channels (R294) -/

/-- A channel broken: both endpoints, its reader woken, a report that names its source. -/
def breakChannel (s : State) (l : Lcid) (d : Nat) : State :=
  let e := getLink (getCore s l) false d
  match channelEnd l e with
  | none => s
  | some (t, side, _) =>
    let s := modCore s l fun k => setLink k false d { e with broken := true }
    let s := modCore s t fun k => wakeReader (setLink k true side { getLink k true side with broken := true }) side
    raise s (rptCore s l (rpt 10 sVACANT 2 0 (psidOf (dgOf l) 31 7 0xFF)))

/-- R294: every channel broken that ends at, or crosses, a position for which `gone` holds. -/
def breakChannels (s : State) (ends : Lcid → Bool) (crosses : Dg → Bool) : State :=
  s.cores.foldl (fun s p =>
    let l : Lcid := BitVec.ofNat 12 p.1
    (below 4).foldl (fun s d =>
      let e := getLink (getCore s l) false d
      match channelEnd l e with
      | some (t, _, path) =>
        if linkValid e && !e.broken && (ends l || ends t || (l :: path).any fun m => crosses (dgOf m)) then breakChannel s l d else s
      | none => s) s) s

/-! ### Meanings -/

def execChannelWordDeliver (l : Lcid) (d : SkidMove) (s : State) : Out := .next (doChannelWordDeliver l d.dir d.err s)
def execLinkRegisterWrite (l : Lcid) (inbound : Bool) (d : BitVec 2) (w : Wr) (s : State) : Out :=
  .next (doLinkRegisterWrite l inbound d w s)

end Sys2Proof.Machine
end

