-- ==== Sys2Proof/Machine/Repair.lean ====
section
/-! DEFINITION. Repair: replay, adoption, vacancy, substitution, blazes (17_faults.md R452 to R457, 18_hangs_rings_resets.md R485
to R490, 01_anatomy.md R16 to R23, R45, 11_mesh_and_reduction.md R307, R308). -/

namespace Sys2Proof.Machine

/-- The grove and the site of a PSID. -/
def psidDg (p : BitVec 24) : Dg := BitVec.ofNat 8 (fld p 16 8)
def psidSite (p : BitVec 24) : Nat := fld p 11 5
def psidLane (p : BitVec 24) : Nat := fld p 0 8

/-- The unit of a PSID, its engine and lane left out. -/
def unitOf (p : BitVec 24) : BitVec 24 := psidOf (psidDg p) (psidSite p) 7 0xFF

/-! ### Records of repairs (R465, Table 17.11) -/

/-- A CLASS 14 record about a unit of a grove. -/
def repairRpt (st : Status) (sev action : Nat) (psid : BitVec 24) : Rpt :=
  { rpt 14 st sev 0 psid with action := BitVec.ofNat 8 action }

/-- A unit entered in the blaze list (R436, R452). -/
def enterBlaze (s : State) (psid : BitVec 24) : State :=
  if s.cruise.blazed.contains psid then s else { s with cruise := { s.cruise with blazed := s.cruise.blazed ++ [psid] } }

/-! ### Replay (R487, R488) -/

/-- The poisoned chunk that keeps a context from being restored (R487). -/
def recPoison (k : Core) (c : CtxNo) : Option Nat :=
  match poisonAt k.sp (ctxRec k c 0) 128, poisonAt k.sp (ctxRec k c 1) 128 with
  | some a, _ => some a
  | none, some a => some a
  | none, none => match latestOf k.sp (ctxRec k c 0) (ctxRec k c 1) with
    | some (n, _) => poisonAt k.sp (ctxRec k c n) 512
    | none => none

/-- The copy of an accumulator's record that names a context and an RSEQ (R487). -/
def accCopy (k : Core) (c : CtxNo) (rseq a : Nat) : Option Nat :=
  firstThat (fun n =>
    let at' := accRec k a n
    bit (slWord k.sp at') 63 && fld (slWord k.sp at') 0 48 == rseq && fld (slWord k.sp (at' + 8)) 0 9 == c.toNat) (below 2)

/-- A row of an accumulator's record (Table 18.6); a poisoned one restores as a poisoned row. -/
def accRowFrom (sl : Slice) (at' m : Nat) : AccRow :=
  let r := at' + 128 + 256 * m
  let t := at' + 8320 + 16 * m
  { exp := BitVec.ofNat 16 (slWord sl t).toNat, spec := slWord sl (t + 8)
    sig := (below 32).foldl (fun x n => tput 0 x n (slWord sl (r + 8 * n))) []
    poison := (poisonAt sl r 256).isSome || (poisonAt sl t 16).isSome }

/-- An accumulator restored from its record. -/
def accFrom (sl : Slice) (at' : Nat) : Tbl AccRow := (below 32).foldl (fun t m => tput AccRow.zero t m (accRowFrom sl at' m)) []

/-- A tile descriptor from its image (Table 04.1). -/
def tdFrom (sl : Slice) (a : Nat) : TileDesc :=
  let w2 := slWord sl (a + 16)
  { data := slWord sl a, scale := slWord sl (a + 8), sstride := BitVec.ofNat 21 (fld w2 32 21), lstride := BitVec.ofNat 21 (fld w2 0 21)
    fmt := BitVec.ofNat 4 (fld (slWord sl (a + 24)) 0 4) }

/-- The registers of a context as its record holds them (Table 18.5). -/
def ctxFrom (x : Ctx) (sl : Slice) (a : Nat) : Ctx :=
  let w := fun i => slWord sl (a + 8 * i)
  { x with
    g := (upto 1 15).foldl (fun g i => tput 0 g i (w (3 + i))) [], p := BitVec.ofNat 8 (fld (w 2) 32 8), pc := BitVec.ofNat 21 (fld (w 2) 0 21)
    epoch := BitVec.ofNat 16 (fld (w 3) 32 16), origin := BitVec.ofNat 2 (fld (w 3) 30 2), handler := BitVec.ofNat 12 (fld (w 3) 16 12)
    ns0 := w 19, ns1 := w 20, tl0 := w 21, tl1 := w 22, tl2 := w 23, srSeed := w 24, srCtr := w 25, fr0 := w 26, fr1 := w 27
    st := .held, heldFrom := .ready, byRec := true, wait := .none, deadline := none, slot := none, freeing := false, hasRec := true
    defTd := 0, defAcc := 0, defMsg := false }

/-- A context that cannot be restored: FAULTED, held by recovery (R487). -/
def loseCtx (k : Core) (c : CtxNo) (cause : Status) (detail : Word) : Core :=
  bumpFaults (modCtx k c fun x => { x with
    st := .held, heldFrom := .faulted, byRec := true, wait := .none, deadline := none, freeing := false
    fr0 := fr0Of cause false 0 x.pc, fr1 := detail })

/-- An accumulator or a descriptor given back to a context. -/
def reclaim (k : Core) (c : CtxNo) (td acc : Nat) : Core :=
  modEng k fun e => (below 8).foldl (fun e i =>
    let e := if td.testBit i then { e with tdOwner := setOwner e.tdOwner i (some c) } else e
    if acc.testBit i then { e with accOwner := setOwner e.accOwner i (some c) } else e) e

/-- R487: a context with a latest valid record restored; its accumulators come from the copies that name it. -/
def restoreCtx (k : Core) (c : CtxNo) (a rseq : Nat) (psid : BitVec 24) : Core :=
  let td := fld (slWord k.sp (a + 16)) 48 8
  let accs := (below 8).filter fun i => bit (slWord k.sp (a + 16)) (40 + i)
  let k := reclaim k c td (accs.map fun i => 2 ^ i).sum
  let found := accs.map fun i => (i, accCopy k c rseq i)
  let hurt := (found.filterMap fun p => p.2.bind fun n => poisonAt k.sp (accRec k p.1 n) 128).head?
  match hurt with
  | some p => loseCtx k c sPOISON (wd p)
  | none =>
    if found.any fun p => p.2.isNone then loseCtx k c sRETIRED (wd psid.toNat)
    else
      let tds := (below 8).foldl (fun t i => if td.testBit i then tput TileDesc.zero t i (tdFrom k.sp (a + 256 + 32 * i)) else t) k.eng.td
      let ats := found.foldl (fun t p => tput [] t p.1 (accFrom k.sp (accRec k p.1 (p.2.getD 0)))) k.eng.acc
      let k := modEng k fun e => { e with td := tds, acc := ats }
      let k := modCtx k c fun x => ctxFrom x k.sp a
      { k with ring := { k.ring with replaying := sIns k.ring.replaying c.toNat } }

/-- R487: one context of a replayed position. -/
def replayCtx (k : Core) (c : CtxNo) (psid : BitVec 24) : Core :=
  let x := getCtx k c
  if x.st = .free then k
  else if !hasRecord k c then loseCtx k c sRETIRED (wd psid.toNat)
  else match recPoison k c with
    | some a => loseCtx k c sPOISON (wd a)
    | none => match latestOf k.sp (ctxRec k c 0) (ctxRec k c 1) with
      | some (n, rseq) => restoreCtx k c (ctxRec k c n) rseq psid
      | none => loseCtx k c sRETIRED (wd psid.toNat)

/-- R487: retained pops return to the head of their queue; a Boom entry that started a context stays as it is. -/
def unpop (q : Queue) : Queue :=
  let back := (q.held.filter fun h => !q.ents.contains h.1).map Prod.fst
  { q with ents := sortBy id (back ++ q.ents), held := q.held.filter fun h => q.ents.contains h.1, waiters := [] }

/-- R293: the endpoints of a replayed position return to their recorded sequences. -/
def rewindLinks (k : Core) : Core :=
  (below 4).foldl (fun k d =>
    let i := getLink k true d
    let k := setLink k true d { i with again := i.kept ++ i.again, kept := [], seq := i.recSeq }
    let o := getLink k false d
    setLink k false d { o with words := [], seq := o.recSeq }) k

/-- R485, R487: what is lost with a site: the engines' and units' queues, and every operation outstanding. Of an operation in progress no slot is
written (R232 allows any of them; log entry 145, DESIGN CHOICE). -/
def loseSite (k : Core) : Core :=
  let eng : Engines := { Engines.zero with issued := k.eng.issued, fallback := k.eng.fallback }
  { modUn k fun u => { u with
      msgq := [], sent := [], hauls := [], narrows := [], queues := u.queues.map fun p => (p.1, unpop p.2)
      syncs := u.syncs.map fun o => { o with dead := true, cancel := o.cancel || o.waits } } with
    eng := eng, notices := [] }

/-- R565: the cancels of what waited on sync objects, sent by the core or, where its site has failed (`gone`), by its grove's router; what was to
be presented again is forgotten. -/
def cancelAll (s : State) (l : Lcid) (gone : Bool) : State :=
  let outs := (getCore s l).un.syncs.filter fun o => o.waits && !o.retry && !o.cancel && !o.dead
  let s := modCore s l fun k => modUn k fun u => { u with syncs := u.syncs.filter fun o => !o.retry }
  outs.foldl (fun s o => if gone then unitCancel s l o else sendCancel s l o) s

/-- CORE_RING_STATUS and CORE_RING_GEN of a replay or an adoption (R487, R488). -/
def countReplay (r : RingRegs) (adopted : Bool) : RingRegs :=
  { r with replays := BitVec.ofNat 16 (satAdd 16 r.replays.toNat 1), gen := r.gen + 1
           adoptions := if adopted then BitVec.ofNat 16 (satAdd 16 r.adoptions.toNat 1) else r.adoptions }

/-- R181, R563: the entry of a context that replay could not restore: POISON as a program fault, CORE_RETIRED reported against the site
(log entry 102, DESIGN CHOICE). -/
def tellLost (l : Lcid) (s : State) (c : CtxNo) : State :=
  let x := ctxOf s l c
  if effSt x != .faulted then s
  else if fld x.fr0 56 8 = sPOISON.toNat then programFault s l c sPOISON x.fr0 x.fr1
  else raise s (rptCore s l { rpt 2 sRETIRED 1 0 (corePsid s l 7) with d0 := x.fr1, d1 := x.fr0 })

/-- R486 steps 5 to 7, R487: a position replayed, on the site that now serves it. A context that was being freed is not FREE at the fault and is
restored like the others. -/
def replayCore (s : State) (l : Lcid) (psid : BitVec 24) (adopted : Bool) : State :=
  let s := cancelAll s l adopted
  let s := modCore s l fun k => rewindLinks (loseSite k)
  let cs := (getCore s l).ctxs.map fun p => BitVec.ofNat 9 p.1
  let s := modCore s l fun k =>
    cs.foldl (fun k c => replayCtx k c psid) { k with ring := countReplay { k.ring with replaying := [] } adopted }
  modCore (cs.foldl (tellLost l) s) l recoveryRelease

/-- R488: the transient replay of a position on its own site, with its record. -/
def replaySame (s : State) (l : Lcid) : State :=
  if !occupied s l then s
  else
    let psid := corePsid s l 7
    raise (replayCore s l psid false) (rptCore s l (repairRpt sREPLAY 1 1 psid))

/-! ### Vacancy (R490) -/

/-- The site numbers of a grove. -/
def siteNos : List Nat := below 18

/-- A working site that serves no position, as lead or as twin. -/
def siteFree (g : Grove) (n : Nat) : Bool :=
  !g.fused && !(tget Site.zero g.sites n).blazed && !((g.siteOf ++ g.twinOf).any fun p => p.2 == n + 1)

/-- R23: the lowest free working site of a grove. -/
def freeSite (g : Grove) : Option Nat := firstThat (siteFree g) siteNos

/-- Free spare sites of a grove. -/
def spareSites (g : Grove) : Nat := (siteNos.filter (siteFree g)).length

/-- The position that a site serves, as lead or as twin. -/
def servedBy (g : Grove) (n : Nat) : Option Nat :=
  (firstThat (fun (p : Nat × Nat) => p.2 == n + 1) (g.siteOf ++ g.twinOf)).map Prod.fst

/-- R464: every grove of a Stand is vacant. -/
def standDead (s : State) (i : Nat) : Bool :=
  (below 64).all fun g => (below 16).all fun n => !occupied s (lcidOf (BitVec.ofNat 8 (64 * i + g)) n)

/-- A position's contexts and operations discarded; SACQ grants on their way are still returned (R490, R565). -/
def discardCore (s : State) (l : Lcid) (gone : Bool) : State :=
  let s := cancelAll s l gone
  modCore s l fun k =>
    let k := loseSite k
    { modUn k fun u => { u with hold := [], slots := [], starts := [] } with
      ctxs := [], recHold := false, irqs := 0, ring := { k.ring with replaying := [] } }

/-- R490: a position becomes vacant: its held messages are bounced, its channels break, its reductions end. -/
def vacate (s : State) (l : Lcid) (psid : BitVec 24) : State :=
  let held := (getCore s l).un.hold
  let s := discardCore s l true
  let s := modGrove s (dgOf l) fun g => { g with siteOf := tput 0 g.siteOf (posOf l) 0, twinOf := tput 0 g.twinOf (posOf l) 0 }
  let s := held.foldl (fun s m => bounce s (.unit (dgOf l)) m sVACANT) s
  let s := redVacant (breakChannels s (fun m => m == l) fun _ => false) l
  raise s (rptCore s l (repairRpt sVACANT (if standDead s (standOf (dgOf l)) then 3 else 2) 4 psid))

/-- R490, R38: a vacancy by itself, a remap of its grove. -/
def vacatePos (s : State) (l : Lcid) (psid : BitVec 24) : State := remap (vacate s l psid) (dgOf l)

/-! ### Sites (R18, R23, R486) -/

/-- R23, R512: the sites of a position after site `n` has left it: the lowest free spare takes its place; where the lead of a
pair has gone, its twin leads and the spare is the twin. -/
def newSeat (g : Grove) (pos n : Nat) : Option Grove :=
  match freeSite g with
  | none => none
  | some m =>
    let twin := tget 0 g.twinOf pos
    if twin = 0 then some { g with siteOf := tput 0 g.siteOf pos (m + 1) }
    else if twin = n + 1 then some { g with twinOf := tput 0 g.twinOf pos (m + 1) }
    else some { g with siteOf := tput 0 g.siteOf pos twin, twinOf := tput 0 g.twinOf pos (m + 1) }

/-- R512: the sites of a position after both have left it, or one. -/
def newSeats (g : Grove) (pos : Nat) (ns : List Nat) : Option Grove := ns.foldl (fun o n => o.bind fun g => newSeat g pos n) (some g)

/-- R474, R486: the pause of an adoption restarts the quiet time of every wait of the grove. -/
def restGrove (s : State) (dg : Dg) : State :=
  { s with quiets := s.quiets.map fun q => if dgOf q.1 == dg then (q.1, q.2.1, { q.2.2 with quiet := now s }) else q }

/-- R500: the scheduled sweep of a site that an adoption needs is abandoned, uncounted, and the position whose own site it held is released. -/
def dropSweep (s : State) (w : Sweep) : State :=
  let s := { s with check := { s.check with sweeps := s.check.sweeps.erase w } }
  match w.held with
  | some l => modCore s l recoveryRelease
  | none => s

/-- R500: the sweeps abandoned of sites that serve a position now. -/
def dropSweeps (s : State) (dg : Dg) (ns : List Nat) : State :=
  (s.check.sweeps.filter fun w => psidDg w.psid == dg && ns.contains (psidSite w.psid)).foldl dropSweep s

/-- The sites that serve a position, lead then twin. -/
def seatSites (g : Grove) (pos : Nat) : List Nat := ([tget 0 g.siteOf pos, tget 0 g.twinOf pos].filter (· ≠ 0)).map (· - 1)

/-- R486: a position that has lost sites `ns` is adopted by the lowest free spares, or becomes vacant. -/
def reseat (s : State) (l : Lcid) (ns : List Nat) (psid : BitVec 24) : State :=
  match newSeats (getGrove s (dgOf l)) (posOf l) ns with
  | some g =>
    let s := dropSweeps (setGrove s (dgOf l) g) (dgOf l) (seatSites g (posOf l))
    raise (replayCore (restGrove s (dgOf l)) l psid true) (rptCore s l (repairRpt sREPLAY 1 3 psid))
  | none => vacate s l psid

/-- R452: a site marked blazed and entered in the blaze list. -/
def markBlazed (dg : Dg) (s : State) (n : Nat) : State := enterBlaze (modSite s dg n fun t => { t with blazed := true }) (psidOf dg n 7 0xFF)

/-- R452, R18, R486: core sites of a grove blazed, and the positions that they served handled, with one remap for all. A fused grove has no site to
blaze (R1). -/
def blazeSites (s : State) (dg : Dg) (sites : List Nat) : State :=
  let g := getGrove s dg
  let ns := if g.fused then [] else sites.filter fun n => !(tget Site.zero g.sites n).blazed
  let seats := (below 16).filter fun p => ns.any fun n => servedBy g n == some p
  let s := ns.foldl (markBlazed dg) s
  let s := seats.foldl (fun s p =>
    let mine := ns.filter fun n => servedBy g n == some p
    reseat s (lcidOf dg p) mine (psidOf dg (mine.headD 31) 7 0xFF)) s
  if seats.isEmpty then s else remap s dg

/-- One core site blazed. -/
def blazeSite (s : State) (dg : Dg) (n : Nat) : State := blazeSites s dg [n]

/-- R452, R465: sites blazed by an action that no fault record of its own names, with the record of each blaze. -/
def spendSites (s : State) (dg : Dg) (sites : List Nat) : State :=
  let g := getGrove s dg
  let ns := if g.fused then [] else sites.filter fun n => !(tget Site.zero g.sites n).blazed
  blazeSites (ns.foldl (fun s n => raise s { repairRpt sRETIRED 2 5 (psidOf dg n 7 0xFF) with part := partOf s dg }) s) dg ns

/-- One site so blazed. -/
def spendSite (s : State) (dg : Dg) (n : Nat) : State := spendSites s dg [n]

/-- R18: a failed Mill column or VE lane substituted while spares last; then the site is blazed. The position that the site
serves is replayed. `most` is the number of spares. -/
def substitute (s : State) (psid : BitVec 24) (most : Nat) (get : Site → List Nat) (put : Site → List Nat → Site) : State :=
  let dg : Dg := BitVec.ofNat 8 (fld psid 16 8)
  let n := fld psid 11 5
  let lane := fld psid 0 8
  let t := tget Site.zero (getGrove s dg).sites n
  if t.blazed || (getGrove s dg).fused || (get t).contains lane then s
  else if most ≤ (get t).length then spendSite s dg n
  else
    let s := modSite s dg n fun t => put t (get t ++ [lane])
    let s := raise s (repairRpt sOK 1 2 psid)
    match servedBy (getGrove s dg) n with
    | some p => if (getCore s (lcidOf dg p)).recHold then replaySame s (lcidOf dg p) else s
    | none => s

/-- A Mill column substituted (R16). -/
def substColumn (s : State) (psid : BitVec 24) : State := substitute s psid 1 Site.cols fun t l => { t with cols := l }

/-- A VE lane substituted (R16). -/
def substLane (s : State) (psid : BitVec 24) : State := substitute s psid 2 Site.lanes fun t l => { t with lanes := l }

/-! ### Scratchpad (R228, R229) -/

/-- Spares used in a bank. -/
def bankSpares (sl : Slice) (b : Nat) : Nat := tget 0 sl.spares b

/-- R228: a row moved to a free spare of its bank; with none, NO_SPARE and a report (R229). -/
def spareRow (s : State) (l : Lcid) (b r : Nat) : State :=
  let sl := (getCore s l).sp
  if bankSpares sl b < 8 then
    let s := modCore s l fun k => modSp k fun sl => { sl with
      spares := tput 0 sl.spares b (bankSpares sl b + 1), rowMoved := tput 0 sl.rowMoved (512 * b + r) (bankSpares sl b + 1) }
    let s := forgetEv s fun e => e == .spRow l b r
    raise s (rptCore s l { repairRpt sOK 1 2 (psidOf (dgOf l) 31 7 0xFF) with d0 := wd (r * 256 + b) })
  else
    let s := modCore s l fun k => modSp k fun sl => { sl with noSpare := true }
    raise s (rptCore s l { repairRpt sOK 1 0 (psidOf (dgOf l) 31 7 0xFF) with d0 := wd (r * 256 + b) })

/-- R22, R436: a slice marked lost and entered in the blaze list, named by its position in the lane field of the whole grove (log
entry 89, DESIGN CHOICE). -/
def markLostSlice (s : State) (dg : Dg) (n : Nat) : State :=
  enterBlaze (modGrove s dg fun g => { g with lost := sIns g.lost n }) (psidOf dg 31 7 n)

/-- R229: a slice lost: its position is vacant, its site joins the spares. -/
def loseSlice (s : State) (l : Lcid) : State :=
  if sHas (getGrove s (dgOf l)).lost (posOf l) then s
  else
    let s := markLostSlice s (dgOf l) (posOf l)
    if occupied s l then vacatePos s l (psidOf (dgOf l) 31 7 0xFF) else s

/-! ### Routers and groves (R46, R307, R308, R453) -/

/-- R307: the detour entries of every working router written anew. -/
def rebuildDetours (s : State) : State :=
  let ds := (below 256).map (BitVec.ofNat 8)
  let row := fun (a : Dg) => ds.foldl (fun t b => if pathClear s a b then t else tput none t b.toNat (findWay s a b)) []
  ds.foldl (fun s a => modGrove s a fun g => { g with detours := if g.out then [] else row a }) s

/-- The routers of the route in force between two groves. -/
def routeOf (s : State) (a b : Dg) : List Dg :=
  match detour s a b with
  | some w => xyPath a w ++ xyPath w b
  | none => xyPath a b

/-- Every home router of an endpoint. -/
def allHomes : List Dg := (below 22).flatMap homeRouters

/-- R38: whether a grove's table is remapped when a router is blazed. -/
def remapped (s : State) (r a : Dg) : Bool := allHomes.contains r || allHomes.any fun h => (routeOf s a h).contains r

/-- R308: a packet that is inside a blazed router, or can go no further because of it; a multicast that has taken no detour can (R309). -/
def stuckAt (r here : Dg) (p : Pkt) : Bool :=
  here == r ||
  if p.kind = 9 ∧ p.way = none then p.cls && (maskDgs p.mask).any fun d => (xyPath here d).contains r
  else match p.way with
    | some w => (xyPath here w).contains r || (xyPath w p.dst).contains r
    | none => (xyPath here p.dst).contains r

/-- R301: the packets that wait in the Landing for room in a router's input buffers. -/
def landingWait (g : Grove) : List Pkt := (g.wait.filter fun q => q.port == 20 || q.port == 21).map InPkt.pkt

/-- Every packet on the mesh with the grove that holds it. -/
def allPkts (s : State) : List (Dg × Pkt) :=
  s.groves.flatMap fun q => (q.2.queued ++ q.2.arrived).map fun p => (BitVec.ofNat 8 q.1, p)

/-- The anchors of the reductions of which a RED or RED_CREDIT packet is lost with a router. -/
def lostReds (s : State) (r : Dg) : List Word :=
  ((allPkts s).filter fun q => (q.2.kind == 8 || q.2.kind == 11) && stuckAt r q.1 q.2).map fun q => q.2.arg0

/-- R308: packets lost with a router. -/
def dropPkts (s : State) (r : Dg) : State :=
  (below 256).foldl (fun s i =>
    let d : Dg := BitVec.ofNat 8 i
    modGrove s d fun g => refill { g with
      pkts := g.pkts.filter fun q => !stuckAt r d q.pkt, wait := g.wait.filter fun q => !stuckAt r d q.pkt
      arrived := if d = r then [] else g.arrived }) s

/-- R307, R308: a router leaves the mesh: what is inside it is lost, the tables go around it, the groves that this moves count it, waiting
packets and reductions are dealt with. `off` takes the grove out, `mid` is what else ends before the tables are written. -/
def routerAway (s : State) (dg : Dg) (off : Grove → Grove) (mid : State → State) : State :=
  let moved := ((below 256).map (BitVec.ofNat 8)).filter fun a => remapped s dg a || a == dg
  let wait := landingWait (getGrove s dg)
  let names := lostReds s dg
  let s := rebuildDetours (mid (dropPkts (modGrove s dg off) dg))
  let s := redRouterLost s dg names
  let s := moved.foldl remap (wait.foldl (fun s p => landAs s p.sep p) s)
  { s with notice := some (now s) }

/-- R504: a router comes back: its detours are removed, and the groves that this moves count it. -/
def routerBack (s : State) (dg : Dg) (on : Grove → Grove) : State :=
  let s := rebuildDetours (modGrove s dg on)
  (((below 256).map (BitVec.ofNat 8)).filter fun a => remapped s dg a || a == dg).foldl remap s

/-- R453: a grove's unit `site` blazed, which makes the grove vacant and takes its router out of the mesh. The answers of R269 to
operations of other devices come from the Lookout, since the router can send no more (log entry 90, DESIGN CHOICE). -/
def blazeRouter (s : State) (dg : Dg) (site : Nat) : State :=
  if (getGrove s dg).routerBad || ((getGrove s dg).fused && site != 24) then s
  else
    let psid := psidOf dg site 7 0xFF
    let seats := (below 16).filter fun n => occupied s (lcidOf dg n)
    let s := endWaiters (enterBlaze s psid) dg (.ep epLookout) sVACANT
    let s := redRootLost (seats.foldl (fun s n => discardCore s (lcidOf dg n) true) s) dg
    let off := fun (g : Grove) =>
      { g with routerBad := true, tested := false, siteOf := [], twinOf := [], objs := [], detours := [], mcasts := [] }
    let s := routerAway s dg off fun s =>
      seats.foldl (fun s n => redVacant s (lcidOf dg n)) (breakChannels s (fun l => dgOf l == dg) fun d => d == dg)
    let sev := if standDead s (standOf dg) then 3 else 2
    raise s { repairRpt sRETIRED sev 5 psid with part := partOf s dg }

/-- R453, R55, R433: a whole grove blazed; of a fused one only the router is there (R1). -/
def blazeGrove (s : State) (dg : Dg) : State := blazeRouter s dg (if (getGrove s dg).fused then 24 else 31)

/-- R455, R17: the reducer of a site marked bad (R155). -/
def badReducer (s : State) (psid : BitVec 24) : State :=
  let dg : Dg := BitVec.ofNat 8 (fld psid 16 8)
  if (tget Site.zero (getGrove s dg).sites (fld psid 11 5)).reducerBad || (getGrove s dg).fused then s
  else raise (modSite s dg (fld psid 11 5) fun t => { t with reducerBad := true }) (repairRpt sOK 1 7 psid)

/-- R453: a PSID that names a unit that can be blazed. -/
def canBlaze (psid : BitVec 24) : Bool :=
  let n := fld psid 11 5
  (decide (n < 18) && fld psid 8 3 == 7) || n == 24 || n == 25 || n == 26 || n == 31

/-! ### The order of the sites' faults (R23) -/

/-- The site that a counted event concerns. -/
def evSite (e : Ev) : Option (BitVec 24) :=
  match e with
  | .accWord p | .column p | .lane p | .internal p => some p
  | .spRow _ _ _ | .spBank _ _ _ | .region _ | .gfLane _ _ | .gfRate _ _ | .gfPort _ | .hbmRow _ _ _ | .hbmChan _ _ _ | .twin _ | .meshLink _ _ | .meshBurst _ _ => none

/-- Table 17.3: what a permanent fault of a site costs, and the ACTION of its record. -/
def actSite (s : State) (e : Ev) : State × Nat :=
  match e with
  | .accWord p | .internal p => (blazeSite s (psidDg p) (psidSite p), 5)
  | .column p => let s := substColumn s p; (s, if (tget Site.zero (getGrove s (psidDg p)).sites (psidSite p)).blazed then 5 else 2)
  | .lane p => let s := substLane s p; (s, if (tget Site.zero (getGrove s (psidDg p)).sites (psidSite p)).blazed then 5 else 2)
  | .spRow _ _ _ | .spBank _ _ _ | .region _ | .gfLane _ _ | .gfRate _ _ | .gfPort _ | .hbmRow _ _ _ | .hbmChan _ _ _ | .twin _ | .meshLink _ _ | .meshBurst _ _ => (s, 0)

/-- R23: the turn of a site's fault among those of its grove: the microsecond of its detection, then the L number of the position that
the site serves. -/
def faultTurn (s : State) (p : BitVec 24) (t : Word) : Nat :=
  t.toNat / 1000 * 32 + (servedBy (getGrove s (psidDg p)) (psidSite p)).getD 16

/-- The permanent faults of a grove's sites on which no action has been taken: those in the log, and those of which the report is on its way. -/
def unserved (s : State) (dg : Dg) : List (Ev × Word) :=
  let c := getComb s (standOf dg)
  let logged := (c.spill ++ c.die).flatMap fun e => e.evs.filterMap fun v => if v.2.1 then some (v.1, v.2.2) else none
  let sent := s.errs.reports.filterMap fun r => match r.ev with | some (e, true) => some (e, r.time) | _ => none
  (logged ++ sent).filter fun f => (evSite f.1).any fun p => psidDg p == dg

/-- A fault marked as acted on, in its record or in the report that is on its way. -/
def markServed (s : State) (dg : Dg) (f : Ev × Word) (action : Nat) : State :=
  let act := BitVec.ofNat 8 action
  let g := fun (e : LogEnt) => if e.evs.contains (f.1, true, f.2) then { e with evs := e.evs.erase (f.1, true, f.2), r := { e.r with action := act } } else e
  let s := modComb s (standOf dg) fun c => { c with die := c.die.map g, spill := c.spill.map g }
  let h := fun (r : Rpt) => if r.ev == some (f.1, true) && r.time == f.2 then { r with ev := none, action := act } else r
  { s with errs := { s.errs with reports := s.errs.reports.map h } }

/-- R23: the faults of a grove's sites that were detected earlier are served, in order, before an action that may take a spare site. -/
def serveEarlier (s : State) (dg : Dg) : State :=
  let turn := fun (f : Ev × Word) => match evSite f.1 with | some p => faultTurn s p f.2 | none => 0
  (sortBy turn (unserved s dg)).foldl (fun s f => let q := actSite s f.1; markServed q.1 dg f q.2) s

/-- R489: what several actions on the sites of one grove do is one recovery: one increment of its generation. -/
def oneRecovery (s : State) (dg : Dg) (f : State → State) : State :=
  let g := (getGrove s dg).gen
  modGrove (f s) dg fun t => { t with gen := if t.gen = g || g = 0 then g else bumpGen g }

/-- R452: a unit blazed by its PSID, after the faults that come before it. -/
def blazeUnit (s : State) (psid : BitVec 24) : State :=
  let dg : Dg := BitVec.ofNat 8 (fld psid 16 8)
  let n := fld psid 11 5
  if n < 18 then spendSite (serveEarlier s dg) dg n else blazeRouter s dg n

/-- The groves of a pace region (R55): device region 16 × Stand + r. -/
def regionGroves (r : Nat) : List Dg :=
  ((below 64).filter fun g => 4 * (g / 16) + g % 8 / 2 = r % 16).map fun g => BitVec.ofNat 8 (64 * (r / 16) + g)

end Sys2Proof.Machine
end

