-- ==== Sys2Proof/Machine/Sha256.lean ====
section
/-! DEFINITION. The hashes the spec names by their names alone, SHA-256 and SHA-384 (FIPS 180-4), as one machine
over words of either width, and the tree digest of a Brand (19_checking.md R517). -/

namespace Sys2Proof.Machine

/-- The largest number below `r + 2^bits` whose `k`-th power does not pass `n`, found from its top bit down. -/
def rootFrom (k n : Nat) : Nat → Nat → Nat
  | 0, r => r
  | b + 1, r => rootFrom k n b (if (r + 2 ^ b) ^ k ≤ n then r + 2 ^ b else r)

/-- The first `w` bits of the fraction of the `k`-th root of `p`. -/
def rootFrac (w k p : Nat) : BitVec w := BitVec.ofNat w (rootFrom k (p * 2 ^ (k * w)) (w + 5) 0)

/-- The primes up to 409, which are the first eighty. -/
def primes80 : List Nat := (below 410).filter fun n => 1 < n && (below n).all fun d => d < 2 || n % d != 0

/-- What tells one hash from the other: the amounts its four mixing functions turn a word right by (of the two that
build the schedule, the last amount is a shift), its rounds, and the primes its starting value comes from. -/
structure HashForm where
  early : List Nat × Nat
  late : List Nat × Nat
  fromA : List Nat
  fromE : List Nat
  rounds : Nat
  skip : Nat

/-- A word's turns added without carries. -/
def turns {w : Nat} (amounts : List Nat) (x : BitVec w) : BitVec w := (amounts.map x.rotateRight).foldr (· ^^^ ·) 0

/-- The turns of a word and one shift. -/
def turnsShift {w : Nat} (t : List Nat × Nat) (x : BitVec w) : BitVec w := turns t.1 x ^^^ x >>> t.2

/-- A block's words, newest first, made longer to one for each round. -/
def stretch {w : Nat} (f : HashForm) : Nat → List (BitVec w) → List (BitVec w)
  | 0, ws => ws
  | n + 1, ws =>
    stretch f n ((ws.getD 15 0 + turnsShift f.early (ws.getD 14 0) + ws.getD 6 0 + turnsShift f.late (ws.getD 1 0)) :: ws)

/-- The two chains a block works on, newest first: the words a and the words e of the rounds so far. -/
structure Chains (w : Nat) where
  as : List (BitVec w)
  es : List (BitVec w)

/-- One round puts one word on each chain. `x` is its constant plus its word of the schedule. -/
def hashRound {w : Nat} (f : HashForm) (c : Chains w) (x : BitVec w) : Chains w :=
  let a := fun i => c.as.getD i 0
  let e := fun i => c.es.getD i 0
  let pick := (e 0 &&& (e 1 ^^^ e 2)) ^^^ e 2
  let most := (a 0 &&& (a 1 ||| a 2)) ||| (a 1 &&& a 2)
  let add := e 3 + turns f.fromE (e 0) + pick + x
  { as := (add + turns f.fromA (a 0) + most) :: c.as, es := (a 3 + add) :: c.es }

/-- A block of sixteen words taken into the hash value. -/
def hashBlock {w : Nat} (f : HashForm) (ks : List (BitVec w)) (h ws : List (BitVec w)) : List (BitVec w) :=
  let xs := List.zipWith (· + ·) ks (stretch f (f.rounds - 16) ws.reverse).reverse
  let c := xs.foldl (hashRound f) { as := h.take 4, es := h.drop 4 }
  List.zipWith (· + ·) h (c.as.take 4 ++ c.es.take 4)

/-- `n` big-endian bytes of a number. -/
def beBytes (n v : Nat) : List Byte := (leBytes n v).reverse

/-- A message of whole bytes closed for words of `k` bytes: a one bit, zeros, and its length in bits. -/
def closed (k : Nat) (m : List Byte) : List Byte :=
  m ++ 0x80 :: List.replicate ((32 * k - 1 - 2 * k - m.length % (16 * k)) % (16 * k)) 0 ++ beBytes (2 * k) (8 * m.length)

/-- The hash value of a message, as words of `k` bytes. -/
def hashWords (k : Nat) (f : HashForm) (m : List Byte) : List (BitVec (8 * k)) :=
  let ks := (primes80.take f.rounds).map (rootFrac (8 * k) 3)
  let p := closed k m
  (pieces (16 * k) (p.length / (16 * k)) p).foldl
    (fun h b => hashBlock f ks h ((pieces k 16 b).map fun q => BitVec.ofNat (8 * k) (leNat q.reverse)))
    (((primes80.drop f.skip).take 8).map (rootFrac (8 * k) 2))

/-- The first `n` words of a hash value as bytes. -/
def hashBytes (k n : Nat) (f : HashForm) (m : List Byte) : List Byte :=
  ((hashWords k f m).take n).flatMap fun w => beBytes k w.toNat

/-- SHA-256 of a byte string: 32 bytes. -/
def sha256 (m : List Byte) : List Byte :=
  hashBytes 4 8 { early := ([7, 18], 3), late := ([17, 19], 10), fromA := [2, 13, 22], fromE := [6, 11, 25], rounds := 64, skip := 0 } m

/-- R517: the digest of a leaf. -/
def leafDigest (b : List Byte) : List Byte := sha256 (0x00 :: b)

/-- R517: the digest of a node. -/
def nodeDigest (a b : List Byte) : List Byte := sha256 (0x01 :: a ++ b)

/-- The digest of leaf number `n` put on the stack of whole subtrees, newest first: equal subtrees merge (R517). -/
def pushLeaf : Nat → Nat → List (List Byte) → List Byte → List (List Byte)
  | 0, _, st, d => d :: st
  | f + 1, n, st, d =>
    if n % 2 = 1 then
      match st with
      | a :: r => pushLeaf f (n / 2) r (nodeDigest a d)
      | [] => [d]
    else d :: st

/-- The digest of the whole stream from the stack of subtrees, newest first (R517). -/
def foldTree : List (List Byte) → List Byte
  | [] => leafDigest []
  | d :: r => r.foldl (fun acc a => nodeDigest a acc) d

end Sys2Proof.Machine
end

