-- ==== Sys2Proof/Machine/Sha384.lean ====
section
/-! DEFINITION. SHA-384, which the spec names for digests and key hashes (15_security.md R404, R409, R419): the hash
of `Sha256.lean` over words of eight bytes. -/

namespace Sys2Proof.Machine

/-- SHA-384 of a byte string: 48 bytes. -/
def sha384 (m : List Byte) : List Byte :=
  hashBytes 8 6 { early := ([1, 8], 7), late := ([19, 61], 6), fromA := [28, 34, 39], fromE := [14, 18, 41], rounds := 80, skip := 8 } m

end Sys2Proof.Machine
end

