-- ==== Sys2Proof/Machine/Tokens.lean ====
section
/-! DEFINITION. The fault-manager command interface: headers, checks, step tokens (17_faults.md R466 to R470). -/

namespace Sys2Proof.Machine

/-- R525: the gap of a firmware handoff, in which no Lookout runs. -/
def gapOpen (s : State) : Bool := s.live.last.isSome

/-- R423, R426, R439: the management interfaces answer: step 2 of Cruise has ended. -/
def lookoutUp (s : State) : Bool := decide (3 ≤ s.cruise.phase.toNat) && !gapOpen s

/-! ### Headers (Table 17.7) -/

/-- OPC of a command's word 1. -/
def mgmtOpc (m : Mgmt) : Nat := fld m.head 56 8

/-- DIGEST of a command: the first eight bytes of SHA-384 over word 1 and the arguments. A command whose word 2 holds anything else is no command of
this layout, and does not occur (log entry 41, DEDUCED). -/
def mgmtDigest (m : Mgmt) : Word := wd (leNat ((sha384 (wordBytes (m.head :: m.args))).take 8))

/-- A reserved bit of word 1, or a LEN that is not that of the arguments (log entry 41, DEDUCED). -/
def mgmtRsvd (m : Mgmt) : Bool := fld m.head 0 32 != 0 || fld m.head 48 8 != 0 || fld m.head 32 16 != 8 * m.args.length

/-- The header and the results of a response as it is sent. -/
def respWords (r : MgmtResp) : List Word :=
  [r.step, wd (r.status.toNat * 2 ^ 56 + r.state.toNat * 2 ^ 54 + 8 * r.words.length * 2 ^ 32), r.digest] ++ r.words

/-- A response sent (Table 17.7). -/
def answer (s : State) (m : Mgmt) (st : Status) (state : Nat) (ws : List Word) : State :=
  { s with errs := { s.errs with answers := s.errs.answers ++ [⟨m.step, st, BitVec.ofNat 2 state, ws, mgmtDigest m⟩] } }

/-- The entry of a token (R469). -/
def tokenOf (s : State) (step : Word) : Option Token := firstThat (fun (t : Token) => t.step == step) s.errs.tokens

/-- Entries that have been complete for 24 h leave (R469). -/
def freshTokens (s : State) : List Token := s.errs.tokens.filter fun t => t.done.isNone || now s < t.tick + 24 * hour

/-- Room for one more entry: the oldest completed one leaves a full table (R469). -/
def roomForToken (ts : List Token) : List Token :=
  if ts.length < 1024 then ts
  else match ts.findIdx? fun t => t.done.isSome with
    | some i => ts.eraseIdx i
    | none => ts

/-- A command accepted: its entry, in progress. -/
def openToken (s : State) (m : Mgmt) (opc : BitVec 8) : State :=
  { s with errs := { s.errs with tokens := roomForToken (freshTokens s) ++ [⟨m.step, opc, mgmtDigest m, none, now s, m.args, false, false⟩] } }

/-- The response of a command that is done, kept with its token and sent. -/
def finishToken (s : State) (step : Word) (st : Status) (ws : List Word) : State :=
  match tokenOf s step with
  | none => s
  | some t =>
    let r : MgmtResp := ⟨step, st, 0, ws, t.digest⟩
    { s with errs := { s.errs with
        tokens := s.errs.tokens.map fun u => if u.step == step then { u with done := some r, tick := now s } else u
        answers := s.errs.answers ++ [r] } }

/-- R470: a command whose token is in the table. -/
def repeatToken (s : State) (m : Mgmt) (opc : BitVec 8) (t : Token) : State :=
  if t.opc != opc || t.digest != mgmtDigest m then answer s m sPERM 0 []
  else match t.done with
    | some r => answer s m r.status 2 r.words
    | none => answer s m sOK 1 []

/-- R470: the entry of an abandoned command reused. -/
def reopenToken (s : State) (step : Word) : State :=
  { s with errs := { s.errs with tokens := s.errs.tokens.map fun t => if t.step == step then { t with left := false, begun := false, tick := now s } else t } }

/-- R466 to R470: a command that needs a token: RSVD, PERM, then a repetition of its token or its start. `bad` says that
a reserved value is in its arguments. A message with another OPC is not this row's. The body runs with the token's entry open and finishes it, now or later. -/
def withToken (s : State) (m : Mgmt) (opc : Nat) (bad : Bool) (body : State → State) : State :=
  if !lookoutUp s || mgmtOpc m != opc then s
  else if mgmtRsvd m || m.step == 0 || bad then answer s m sRSVD 0 []
  else if !hasSession s m.sess then answer s m sPERM 0 []
  else
    let s := { s with errs := { s.errs with tokens := freshTokens s } }
    match tokenOf s m.step with
    | some t =>
      if t.left && t.opc == BitVec.ofNat 8 opc && t.digest == mgmtDigest m then body (reopenToken s m.step)
      else repeatToken s m (BitVec.ofNat 8 opc) t
    | none => body (openToken s m (BitVec.ofNat 8 opc))

/-- A command without a token (R469): RSVD, then its answer at once. -/
def withoutToken (s : State) (m : Mgmt) (opc : Nat) (bad : Bool) (words : State → Status × List Word) : State :=
  if !lookoutUp s || mgmtOpc m != opc then s
  else if mgmtRsvd m || m.step != 0 || bad then answer s m sRSVD 0 []
  else
    let r := words s
    answer s m r.1 0 r.2

/-- UNDEFINED_COMMAND (R468). -/
def doMgmtUndefined (opc : BitVec 8) (m : Mgmt) (s : State) : State :=
  if (1 ≤ opc.toNat && opc.toNat ≤ 12) || opc = 0x10 || opc = 0x11 || !lookoutUp s || mgmtOpc m != opc.toNat then s else answer s m sUNDEF 0 []

def execMgmtUndefined (opc : BitVec 8) (m : Mgmt) (s : State) : Out := .next (doMgmtUndefined opc m s)

end Sys2Proof.Machine
end

