-- ==== Sys2Proof/Machine/Checking.lean ====
section
/-! DEFINITION. Known-answer kernels, Sounding, twin mismatches, the CHECK command (19_checking.md R497 to R512, R521, R522). -/

namespace Sys2Proof.Machine

/-- A kernel's family (Table 19.1). -/
def kernFam (k : BitVec 16) : Nat := k.toNat / 256

/-- The engine of a site that a family exercises (Tables 19.1, 01.5). -/
def famEngine (f : Nat) : Nat :=
  match f with
  | 1 => 1
  | 2 | 3 => 2
  | 4 => 0
  | 5 => 3
  | 6 => 4
  | 7 => 5
  | _ => 7

/-- Table 19.1: a kernel of a listed ID range on a target of its family: an engine of a site, the whole site, or the router's units. -/
def kernOk (r : KernelRun) : Bool :=
  let f := kernFam r.kernel
  let site := psidSite r.psid
  if f = 9 then decide (24 ≤ site) && decide (site ≤ 26)
  else decide (1 ≤ f) && decide (f ≤ 8) && !(f == 3 && decide (0x320 ≤ r.kernel.toNat)) && decide (site < 18) &&
    (fld r.psid 8 3 == famEngine f || fld r.psid 8 3 == 7)

/-- R497: a sweep's kernels, the families one after another. A kernel that the operand does not list passes (log entry 139, DESIGN CHOICE). -/
def inOrder (runs : List KernelRun) : List KernelRun := sortBy (fun r => kernFam r.kernel) (runs.filter kernOk)

/-! ### Counts (Table 19.10) -/

/-- A saturating field of a count register. -/
def bumpFld (w : Word) (lo len : Nat) : Word := putFld w lo len (satAdd len (fld w lo len) 1)

/-- A site sweep counted. -/
def countRun (s : State) (dg : Dg) : State :=
  let s := { s with check := { s.check with runs := BitVec.ofNat 16 (satAdd 16 s.check.runs.toNat 1) } }
  modGrove s dg fun g => { g with check := bumpFld g.check 48 16 }

/-- A kernel mismatch counted. -/
def countFail (s : State) (dg : Dg) : State :=
  let s := { s with check := { s.check with fails := BitVec.ofNat 16 (satAdd 16 s.check.fails.toNat 1) } }
  modGrove s dg fun g => { g with check := bumpFld g.check 32 16 }

/-- A Sounding counted. -/
def countSound (s : State) (dg : Dg) : State :=
  let s := { s with check := { s.check with sounds := BitVec.ofNat 16 (satAdd 16 s.check.sounds.toNat 1) } }
  modGrove s dg fun g => { g with check := bumpFld g.check 24 8 }

/-- A twin mismatch counted. -/
def countTwin (s : State) (dg : Dg) : State :=
  let s := { s with check := { s.check with twins := BitVec.ofNat 16 (satAdd 16 s.check.twins.toNat 1) } }
  modGrove s dg fun g => { g with check := bumpFld g.check 8 8 }

/-! ### Kernels (R497, R498, R502) -/

/-- One bit of rotation to the left. -/
def rotl1 (w : Word) : Word := w.rotateLeft 1

/-- R498: a kernel's signature: the fold of its output words, for a BRAND kernel the low word of its digest. -/
def kernSig (kernel : BitVec 16) (words : List Word) : Word :=
  if kernFam kernel = 7 then words.headD 0 else words.foldl (fun a w => rotl1 a ^^^ w) 0

/-- R528: the kernel set that a grove's sweeps use, by its measurement: the previous one until the grove is rolled. -/
def kernelSet (s : State) (dg : Dg) : List Byte := if s.live.roll.contains dg then s.live.kset else s.sec.meas4

/-- R498: an attempt that is a mismatch. -/
def attemptFails (s : State) (r : KernelRun) (words : List Word) (ended : Bool) : Bool :=
  !ended || kernSig r.kernel words != Config.kakExpected (kernelSet s (psidDg r.psid)) r.kernel s.part.stepping

/-- R498: a run that is a mismatch. -/
def kernFails (s : State) (r : KernelRun) : Bool := attemptFails s r r.words r.ended

/-- R455: the retest of a mismatch that is a mismatch again. -/
def kernFailsAgain (s : State) (r : KernelRun) : Bool := kernFails s r && attemptFails s r r.words2 r.ended2

/-- R502: the report of a mismatch, by attempt. -/
def kernReport (s : State) (r : KernelRun) (attempt : Nat) (words : List Word) : State :=
  let rp := { rpt 8 sKAK 1 0 r.psid with
    part := partOf s (psidDg r.psid), d0 := wd (attempt * 2 ^ 16 + r.kernel.toNat), d1 := kernSig r.kernel words }
  raise (countFail s (psidDg r.psid)) rp

/-- R133: an accumulator error that a kernel finds, reported, and counted where it is uncorrectable, against the site under test. -/
def kernAcc (p : BitVec 24) (s : State) (a : KernelAcc) : State :=
  let q := psidOf (psidDg p) (psidSite p) 1 0xFF
  let r := { rpt (if a.hard then 1 else 0) (if a.hard then sECC else sOK) (if a.hard then 2 else 0) 0 q with
    part := partOf s (psidDg p), d0 := wd (32 * a.acc.toNat + a.row.toNat) }
  if a.hard then raiseEv s r (.accWord (unitOf p)) else raise s r

/-- R455, R502: one kernel run, and its retest where it is a mismatch. -/
def runKernel (s : State) (r : KernelRun) : State :=
  let s := if kernFam r.kernel = 1 then r.accs.foldl (kernAcc r.psid) s else s
  if kernFails s r then
    let s := kernReport s r 1 r.words
    if kernFailsAgain s r then kernReport s r 2 r.words2 else s
  else s

/-- A core site's own test: the unit is worth 1 in KAK_RUNS. -/
def isSite (p : BitVec 24) : Bool := decide (psidSite p < 18)

/-- Distinct values, in order. -/
def distinctBy {α : Type} [DecidableEq α] (l : List α) : List α := l.foldl (fun r a => if r.contains a then r else r ++ [a]) []

/-- The site sweeps of the units tested, counted. -/
def countRuns (s : State) (units : List (BitVec 24)) : State := (units.filter isSite).foldl (fun s p => countRun s (psidDg p)) s

/-- The position whose slice a BANK run or segment concerns: that of the site named. -/
def bankSeat (s : State) (p : BitVec 24) : Option Lcid := (servedBy (getGrove s (psidDg p)) (psidSite p)).map (lcidOf (psidDg p))

/-- Table 17.3: the action of a permanent known-answer failure. -/
def actKernel (s : State) (r : KernelRun) : State :=
  let lane := psidLane r.psid
  match kernFam r.kernel with
  | 1 => if lane ≤ 32 then substColumn s r.psid else blazeUnit s r.psid
  | 2 => if lane ≤ 65 then substLane s r.psid else blazeUnit s r.psid
  | 3 => badReducer s r.psid
  | 8 => match bankSeat s r.psid with
    | some l => loseSlice s l
    | none => s
  | _ => blazeUnit s r.psid

/-- R23: failures that one set of runs finds, acted on in the order of the positions of their sites, after the faults detected earlier. -/
def actKernels (s : State) (bad : List KernelRun) : State :=
  (sortBy (fun (r : KernelRun) => (servedBy (getGrove s (psidDg r.psid)) (psidSite r.psid)).getD 16) bad).foldl
    (fun s r => actKernel (serveEarlier s (psidDg r.psid)) r) s

/-- Parts of a unit that have been blazed or substituted: what an action on it raises. -/
def spentParts (s : State) (p : BitVec 24) : Nat :=
  let g := getGrove s (psidDg p)
  let t := tget Site.zero g.sites (psidSite p)
  if isSite p then (if t.blazed then 64 else 0) + t.cols.length + t.lanes.length else if g.routerBad then 1 else 0

/-- Units tested: their sweeps counted, the kernels run and the permanent failures acted on; what that found. -/
def testUnits (s : State) (units : List (BitVec 24)) (runs : List KernelRun) : State × Tally :=
  let mine := inOrder (runs.filter fun r => units.contains (unitOf r.psid))
  let failed := units.filter fun u => mine.any fun r => unitOf r.psid == u && kernFails s r
  let t := actKernels (mine.foldl runKernel (countRuns s units)) (mine.filter (kernFailsAgain s))
  (t, ⟨units, failed, units.filter fun u => decide (spentParts s u < spentParts t u)⟩)

/-- A sweep's kernels on one unit, counted and acted on. -/
def sweep (s : State) (unit : BitVec 24) (runs : List KernelRun) : State := (testUnits s [unit] runs).1

/-! ### Idle units (R499) -/

/-- A position with PROGRAM 0 on which nothing but the resident image runs. -/
def idlePos (s : State) (l : Lcid) : Bool :=
  let k := getCore s l
  occupied s l && fld k.role 28 16 == 0 && k.ctxs.all fun p => p.2.st = .free || p.2.origin == 2

/-- A router whose grove has no program and no valid sync object. -/
def idleRouter (s : State) (dg : Dg) : Bool :=
  groveWorks s dg && ((below 16).all fun n => fld (getCore s (lcidOf dg n)).role 28 16 == 0) &&
    (getGrove s dg).objs.all fun p => !bit p.2.cfg 63

/-- A working site that is a spare. -/
def spareSite (s : State) (dg : Dg) (n : Nat) : Bool := groveWorks s dg && siteFree (getGrove s dg) n

/-- The lowest idle position of a grove, to whose slice a spare under test is connected. -/
def idleSeat (s : State) (dg : Dg) : Option Lcid := firstThat (idlePos s) ((below 16).map (lcidOf dg))

/-- The position whose slice a sweep of a unit uses. -/
def sweepSeat (s : State) (p : BitVec 24) : Option Lcid :=
  match servedBy (getGrove s (psidDg p)) (psidSite p) with
  | some n => some (lcidOf (psidDg p) n)
  | none => idleSeat s (psidDg p)

/-- R499: an idle unit that can be swept. -/
def unitIdle (s : State) (p : BitVec 24) : Bool :=
  if underSound s p then false
  else if isSite p then
    groveWorks s (psidDg p) && !(tget Site.zero (getGrove s (psidDg p)).sites (psidSite p)).blazed &&
      (sweepSeat s p).any (idlePos s)
  else decide (24 ≤ psidSite p) && decide (psidSite p ≤ 26) && idleRouter s (psidDg p)

/-- R499: the window of a slice that a scheduled sweep leaves zero. -/
def zeroWindow (s : State) (seat : Option Lcid) : State :=
  match seat with
  | some l => modCore s l fun k => modSp k fun sl => slPut sl 0x1F0000 (List.replicate 0x10000 0)
  | none => s

/-- R497, Table 19.1: how long a sweep takes in µs: its longest, and as long again where a kernel is retested (log entry 139, DESIGN CHOICE). -/
def sweepSpan (s : State) (w : Sweep) : Nat := (if isSite w.psid then 2200 else 500) * if w.runs.any (kernFails s) then 2 else 1

/-- R499: a scheduled sweep of an idle unit begins; where that is a spare, the own site of the position whose slice it uses is held. -/
def beginSweep (s : State) (p : BitVec 24) (runs : List KernelRun) : State :=
  let u := unitOf p
  let seat := if isSite u then sweepSeat s u else none
  let held := if spareSite s (psidDg u) (psidSite u) then seat else none
  let s := match held with | some l => modCore s l recoveryHold | none => s
  { s with check := { s.check with sweeps := s.check.sweeps ++ [⟨u, seat, held, now s, inOrder (runs.filter fun r => unitOf r.psid == u)⟩] } }

/-- A scheduled sweep at its end: what it held is released, its window left zero, its kernels counted and acted on. A unit blazed meanwhile has
none. -/
def endSweep (s : State) (w : Sweep) : State :=
  let s := dropSweep s w
  if isSite w.psid && (tget Site.zero (getGrove s (psidDg w.psid)).sites (psidSite w.psid)).blazed then s
  else sweep (zeroWindow s w.seat) w.psid w.runs

/-! ### The end of CHECK (R521) -/

/-- The result word: units tested, failed, blazed or substituted. -/
def checkResult (tested failed acted : Nat) : Word := wd (tested % 65536 * 2 ^ 32 + failed % 65536 * 2 ^ 16 + acted % 65536)

/-- The result word of a tally. -/
def tallyWord (t : Tally) : Word := checkResult t.tested.length t.failed.length t.acted.length

/-- Two tallies, one after the other. -/
def Tally.and (a b : Tally) : Tally := ⟨a.tested ++ b.tested, a.failed ++ b.failed, a.acted ++ b.acted⟩

/-- A position released from the checking hold, but for one that another holds. -/
def releasePos (s : State) (l : Lcid) : State := if checkHeld s l then s else modCore s l recoveryRelease

/-- A checking hold ended: its position released. -/
def releaseHold (s : State) (h : CheckHold) : State :=
  let s := { s with check := { s.check with hold := s.check.hold.erase h } }
  match h.lcids.head? with
  | some l => releasePos s l
  | none => s

/-- A known-answer CHECK answered. -/
def endKak (s : State) (step : Word) (t : Tally) : State :=
  finishToken s step (if t.failed.isEmpty then sOK else sKAK) [tallyWord t]

/-- The position under a checking hold is quiet (R164). -/
def holdQuiet (s : State) (h : CheckHold) : Bool :=
  match h.lcids.head? with
  | some l => quietCore (getCore s l)
  | none => true

/-- The units of a held position that a CHECK tests: the site that it names, or those that serve the position. -/
def heldUnits (s : State) (h : CheckHold) (l : Lcid) : List (BitVec 24) :=
  if isSite h.psid then [h.psid] else (seatSites (getGrove s (dgOf l)) (posOf l)).map fun n => psidOf (dgOf l) n 7 0xFF

/-- R501: the positions of a CHECK held one after another, each tested once it is quiet and released after its kernels; then the answer. The
window, the accumulators and the descriptors that step 4 saves are as step 6 restores them (log entry 139). -/
def heldRun (runs : List KernelRun) : List Lcid → CheckHold → State → State
  | [], h, s => endKak s h.step h.tally
  | l :: rest, h, s =>
    if !occupied s l then heldRun runs rest h s
    else
      let s := modCore s l recoveryHold
      let h : CheckHold := { h with lcids := l :: rest, tick := now s }
      if holdQuiet s h then
        let q := testUnits s (heldUnits s h l) runs
        heldRun runs rest { h with tally := h.tally.and q.2 } (releasePos q.1 l)
      else { s with check := { s.check with hold := s.check.hold ++ [h] } }

/-- R501 steps 5 and 6: the kernels of a checking hold, once its position is quiet. -/
def endHeld (s : State) (h : CheckHold) (runs : List KernelRun) : State :=
  heldRun runs h.lcids h { s with check := { s.check with hold := s.check.hold.erase h } }

/-- Table 17.3: a sweep that the fault agent owes a unit, done. -/
def endOwed (s : State) (psid : BitVec 24) (runs : List KernelRun) : State :=
  sweep { s with check := { s.check with owed := s.check.owed.filter (· != unitOf psid) } } (unitOf psid) runs

/-- KAK_SWEEP (R455, R499, R501): the sweep that the fault agent owes a unit, the beginning of a scheduled sweep of an idle unit, or the sweep
for which a checking hold waits. -/
def doKakSweep (psid : BitVec 24) (runs : List KernelRun) (s : State) : State :=
  match firstThat (fun (h : CheckHold) => h.psid == psid && holdQuiet s h) s.check.hold with
  | some h => endHeld s h runs
  | none =>
    if s.check.owed.contains (unitOf psid) then endOwed s psid runs
    else if s.check.period = 0 || dormBusy s || gapOpen s || underSweep s (unitOf psid) || !unitIdle s psid then s
    else beginSweep s psid runs

/-- CHECKING_HOLD_TIMEOUT (R501 step 3). -/
def doCheckingHoldTimeout (l : Lcid) (s : State) : State :=
  match firstThat (fun (h : CheckHold) => h.lcids.head? == some l && !holdQuiet s h && decide (h.tick + 100001 ≤ now s)) s.check.hold with
  | some h => finishToken (releaseHold s h) h.step sQTIMEOUT [tallyWord h.tally]
  | none => s

/-! ### Sounding (R503 to R507) -/

/-- R505: a segment whose signature differs. -/
def segFails (s : State) (r : SegmentRun) : Bool := r.sig != Config.soundingExpected r.psid s.part.stepping

/-- R505: a failed segment: its report, and its unit blazed. A segment whose PSID names the whole grove with a position in
its lane field is a bank segment of that position's slice. -/
def actSegment (s : State) (r : SegmentRun) : State :=
  let dg := psidDg r.psid
  let s := raise s { rpt 8 sSOUND 2 0 r.psid with part := partOf s dg }
  if psidSite r.psid < 18 then blazeUnit s (unitOf r.psid)
  else if psidSite r.psid = 31 then (if psidLane r.psid < 16 then loseSlice s (lcidOf dg (psidLane r.psid)) else blazeRouter s dg 31)
  else blazeRouter s dg (psidSite r.psid)

/-- R504: a site's engines and contexts initialised anew after a Sounding of the site. -/
def freshSite (s : State) (l : Lcid) : State :=
  modCore s l fun k => { k with eng := { Engines.zero with issued := k.eng.issued, fallback := k.eng.fallback }, ctxs := k.ctxs.filter fun p => p.2.st ≠ .free }

/-- A position with no program and every context FREE. -/
def emptyPos (s : State) (l : Lcid) : Bool := fld (getCore s l).role 28 16 == 0 && allFree (getCore s l)

/-- An armed reduction with a node or a contributor in a grove. -/
def redIn (s : State) (dg : Dg) : Bool :=
  s.reds.any fun r => syncDg (redAnchor r) == dg || (treeNodes r).contains dg || r.members.any fun l => dgOf l == dg

/-- Table 19.2: the condition of a scope. -/
def soundCond (s : State) (scope : Nat) (p : BitVec 24) : Bool :=
  let dg := psidDg p
  let seats := (below 16).map (lcidOf dg)
  match scope with
  | 0 => match servedBy (getGrove s dg) (psidSite p) with
    | some n => emptyPos s (lcidOf dg n)
    | none => true
  | 1 => (seats.all fun l => fld (getCore s l).role 28 16 == 0) && ((getGrove s dg).objs.all fun o => !bit o.2.cfg 63) && !redIn s dg
  | _ => (seats.all fun l => !bit (getCore s l).ctrl 0 && allFree (getCore s l) &&
      ((getCore s l).outL ++ (getCore s l).inL).all fun e => !bit e.2.reg 63) && !redIn s dg

/-- The position that the site of a site scope serves. -/
def soundSeat (s : State) (p : BitVec 24) : Option Lcid := (servedBy (getGrove s (psidDg p)) (psidSite p)).map (lcidOf (psidDg p))

/-- R506 step 1: what a grove scope saves into the firmware range: every slice and the copies of every core's registers, and the sync objects. -/
def saveGrove (s : State) (x : Sound) : Sound :=
  let dg := psidDg x.psid
  { x with saved := ((below 16).map (lcidOf dg)).map fun l => (l, getCore s l), objs := (getGrove s dg).objs }

/-- R506 step 3: a position that is still occupied restored: its slice with its poison marks, and its registers; an adoption meanwhile counts. -/
def restorePos (s : State) (p : Lcid × Core) : State :=
  if occupied s p.1 then modCore s p.1 fun k => { p.2 with ring := k.ring } else s

/-- R504: a Sounding begins: a served position is held; a router is left out of the mesh, and its grove answers LCID_VACANT. -/
def beginSound (s : State) (x : Sound) : State :=
  let x := if x.scope = 2 then saveGrove s x else x
  let s := { s with check := { s.check with sounding := s.check.sounding ++ [{ x with runs := true, tick := now s }] } }
  if x.scope = 0 then
    match soundSeat s x.psid with
    | some l => modCore s l recoveryHold
    | none => s
  else routerAway s (psidDg x.psid) (fun g => { g with tested := true, mcasts := [] }) fun s => s

/-- R504: what was under test comes back: a site's position released with its engines and contexts initialised anew, a router into the mesh,
its sync objects initialised anew after a router scope; after a grove scope they and the positions still occupied are restored (R506). -/
def afterSound (s : State) (x : Sound) : State :=
  if x.scope = 0 then
    match soundSeat s x.psid with
    | some l => modCore (freshSite s l) l recoveryRelease
    | none => s
  else if (getGrove s (psidDg x.psid)).tested then
    x.saved.foldl restorePos
      (routerBack s (psidDg x.psid) fun g => { g with tested := false, objs := if x.scope = 1 then [] else x.objs })
  else s

/-- The unit that a segment covers: a slice is named by its position under the whole grove. -/
def segUnit (p : BitVec 24) : BitVec 24 := if psidSite p = 31 then p else unitOf p

/-- A Sounding ended and answered (R505, R507): the reports that it absorbs, its segments, its failures acted on. -/
def endSound (s : State) (x : Sound) : State :=
  let s := { s with errs := { s.errs with reports := s.errs.reports.filter fun r => !absorbed s r } }
  let s := { s with check := { s.check with sounding := s.check.sounding.filter fun y => y.step != x.step } }
  let fails := x.segs.filter (segFails s)
  let s := afterSound (fails.foldl actSegment (countSound s (psidDg x.psid))) x
  let n := (distinctBy (fails.map fun r => segUnit r.psid)).length
  finishToken s x.step (if n = 0 then sOK else sSOUND) [checkResult (distinctBy (x.segs.map fun r => segUnit r.psid)).length n n]

/-- Table 19.2: the longest run of a scope in µs, which is how long the model's takes (log entry 124, DESIGN CHOICE). -/
def soundSpan (scope : Nat) : Nat := if scope = 2 then 150000 else 20000

/-- R506: a Sounding waits for another in its grove, and one at grove scope for any other at grove scope. -/
def soundWaits (s : State) (x : Sound) : Bool :=
  s.check.sounding.any fun y => y.runs && (psidDg y.psid == psidDg x.psid || (x.scope == 2 && y.scope == 2))

/-- An accepted Sounding begins, or waits. -/
def startSound (s : State) (x : Sound) : State :=
  if soundWaits s x then { s with check := { s.check with sounding := s.check.sounding ++ [{ x with runs := false }] } } else beginSound s x

/-- At a tick: Soundings whose time is over end, and the first that can begin does. -/
def soundStep (s : State) : State :=
  let s := (s.check.sounding.filter fun x => x.runs && decide (x.tick + soundSpan x.scope ≤ now s)).foldl endSound s
  match firstThat (fun (x : Sound) => !x.runs && !soundWaits s x) s.check.sounding with
  | some x => beginSound { s with check := { s.check with sounding := s.check.sounding.filter fun y => y.step != x.step } } x
  | none => s

/-! ### CHECK (R521) -/

/-- R521: a reserved value in CHECK's words. -/
def checkBad (ws : List Word) : Bool :=
  let w0 := ws.getD 0 0
  let w1 := ws.getD 1 0
  let kind := fld w0 0 2
  let scope := fld w0 8 2
  let p : BitVec 24 := BitVec.ofNat 24 (fld w1 0 24)
  ws.length != 2 || w0 != wd (kind + scope * 256) || decide (2 ≤ kind) || fld w1 24 40 != 0 ||
    match scope with
    | 0 => !isSite p || p != unitOf p
    | 1 => psidSite p != 24 || p != unitOf p
    | 2 => psidSite p != 31 || p != unitOf p
    | _ => kind != 0 || w1 != 0

/-- R521: a fused or blazed target. -/
def checkGone (s : State) (scope : Nat) (p : BitVec 24) : Bool :=
  scope != 3 && ((getGrove s (psidDg p)).fused || (getGrove s (psidDg p)).routerBad || (scope == 0 && (tget Site.zero (getGrove s (psidDg p)).sites (psidSite p)).blazed))

/-- R501, R503, R504: what a CHECK may not do. -/
def checkPerm (s : State) (kind scope : Nat) (p : BitVec 24) : Bool :=
  if kind = 0 then scope == 1 && !idleRouter s (psidDg p)
  else
    !(s.sec.life == .provisioned || s.sec.life == .service) ||
      (match partOf s (psidDg p) with | some n => tdiLocked s n.toNat | none => false) || !soundCond s scope p

/-- The working sites of a grove. -/
def workingSites (s : State) (dg : Dg) : List (BitVec 24) :=
  (siteNos.filter fun n => groveWorks s dg && !(tget Site.zero (getGrove s dg).sites n).blazed).map fun n => psidOf dg n 7 0xFF

/-- The router units of a grove, where they are idle (R499). -/
def routerUnits (s : State) (dg : Dg) : List (BitVec 24) := if idleRouter s dg then [24, 25, 26].map fun n => psidOf dg n 7 0xFF else []

/-- The units that a known-answer CHECK tests. -/
def checkUnits (s : State) (scope : Nat) (p : BitVec 24) : List (BitVec 24) :=
  match scope with
  | 0 => [p]
  | 1 => routerUnits s (psidDg p)
  | 2 => workingSites s (psidDg p) ++ routerUnits s (psidDg p)
  | _ => ((below 256).map (BitVec.ofNat 8)).flatMap fun dg => (workingSites s dg).filter (unitIdle s) ++ routerUnits s dg

/-- R501: the positions that a known-answer CHECK holds. -/
def checkSeats (s : State) (scope : Nat) (p : BitVec 24) : List Lcid :=
  let seats := match scope with
    | 0 => ((servedBy (getGrove s (psidDg p)) (psidSite p)).map (lcidOf (psidDg p))).toList
    | 2 => (below 16).map (lcidOf (psidDg p))
    | _ => []
  seats.filter fun l => occupied s l && !idlePos s l

/-- The units of a CHECK that no checking hold is needed for. -/
def freeUnits (s : State) (scope : Nat) (p : BitVec 24) : List (BitVec 24) :=
  (checkUnits s scope p).filter fun u =>
    !(isSite u && ((servedBy (getGrove s (psidDg u)) (psidSite u)).map (lcidOf (psidDg u))).any (checkSeats s scope p).contains)

/-- R500: a CHECK that names a unit under a scheduled sweep. -/
def checkSwept (s : State) (scope : Nat) (p : BitVec 24) : Bool :=
  s.check.sweeps.any fun w => match scope with
    | 0 => w.psid == p
    | 1 => psidDg w.psid == psidDg p && !isSite w.psid
    | 2 => psidDg w.psid == psidDg p
    | _ => false

/-- A CHECK that has been accepted (R521): BOUNDS, PERM, then its run; a Sounding takes its time, a known-answer sweep of a loaded position waits
for quiet, and either waits for a scheduled sweep of its target (R500). -/
def runCheck (s : State) (c : CheckWait) : State :=
  let w0 := c.args.getD 0 0
  let kind := fld w0 0 2
  let scope := fld w0 8 2
  let p : BitVec 24 := BitVec.ofNat 24 (fld (c.args.getD 1 0) 0 24)
  if checkGone s scope p then finishToken s c.step sBOUNDS []
  else if checkPerm s kind scope p then finishToken s c.step sPERM []
  else if checkSwept s scope p then { s with check := { s.check with waits := s.check.waits ++ [c] } }
  else if kind = 1 then
    let x : Sound := ⟨scope, p, c.step, now s, [], true, [], []⟩
    startSound s { x with segs := c.segs.filter fun r => soundsOver x r.psid }
  else
    let q := testUnits s (freeUnits s scope p) c.runs
    heldRun c.runs (checkSeats s scope p) ⟨[], p, c.step, now s, q.2⟩ q.1

/-- CHECK (R521). -/
def doMgmtCheck (m : Mgmt) (runs : List KernelRun) (segs : List SegmentRun) (s : State) : State :=
  withToken s m 5 (checkBad m.args) fun s => runCheck s ⟨m.step, m.args, runs, segs⟩

/-! ### Time (R500) -/

/-- A context start that waited for a sweep (R500). -/
def lateStart (s : State) (p : Lcid × CtxNo × BitVec 21) : State :=
  if (ctxOf s p.1 p.2.1).st = .free && p.2.2.toNat % 8 == 0 && mayStart (getCore s p.1) then
    setCore s p.1 (startCtx (getCore s p.1) p.2.1 p.2.2 0 0 0 2 0 .none)
  else modCore s p.1 fun k => { k with rejected := true }

/-- At a tick: the scheduled sweeps whose time is over end; then what waited for a sweep goes on. -/
def sweepStep (s : State) : State :=
  let s := (s.check.sweeps.filter fun w => decide (w.tick + sweepSpan s w ≤ now s)).foldl endSweep s
  if s.check.waits.isEmpty && s.check.starts.isEmpty then s
  else
    let late := s.check.starts.filter fun p => !sweptPos s p.1
    let waits := s.check.waits
    let s := { s with check := { s.check with waits := [], starts := s.check.starts.filter fun p => sweptPos s p.1 } }
    waits.foldl runCheck (late.foldl lateStart s)

/-! ### Twin mismatches (R511, R512) -/

/-- The twin site of a position, if it has one. -/
def twinSite (s : State) (l : Lcid) : Option Nat :=
  match tget 0 (getGrove s (dgOf l)).twinOf (posOf l) with
  | 0 => none
  | n + 1 => some n

/-- R511 step 1: the withheld output: its report, and hardware fault entry. -/
def withhold (s : State) (l : Lcid) (twin : Nat) : State :=
  let s := modCore (countTwin s (dgOf l)) l recoveryHold
  raise s (rptCore s l { rpt 8 sTWIN 2 0 (corePsid s l 7) with d0 := wd (psidOf (dgOf l) twin 7 0xFF).toNat })

/-- The sites of a pair whose own failure is confirmed: a RED-family failure is the reducer's (R155). -/
def badSites (s : State) (units : List (BitVec 24)) (runs : List KernelRun) : List Nat :=
  (units.filter fun u => runs.any fun r => unitOf r.psid == u && kernFam r.kernel != 3 && kernFam r.kernel != 8 && kernFailsAgain s r).map psidSite

/-- R512: an unexplained mismatch of a pair, counted; the second of the same pair within 1 h replaces the twin. -/
def oddTwin (s : State) (l : Lcid) (pair : BitVec 24 × BitVec 24) : State :=
  let before := s.check.odd.any fun p => p.1 == pair && now s < p.2 + hour
  let odd := (s.check.odd.filter fun p => now s < p.2 + hour && !(before && p.1 == pair)) ++ if before then [] else [(pair, now s)]
  let s := { s with check := { s.check with odd := odd } }
  if before then blazeUnit s pair.2 else replaySame s l

/-- TWIN_MISMATCH (R511, R512): the output withheld, both sites swept, then one site blazed, both with one replay, or the same pair replayed. -/
def doTwinMismatch (l : Lcid) (runs : List KernelRun) (s : State) : State :=
  match twinSite s l with
  | none => s
  | some twin =>
    if !occupied s l then s
    else
      let dg := dgOf l
      let pair := (psidOf dg (siteNo s l) 7 0xFF, psidOf dg twin 7 0xFF)
      let units := [pair.1, pair.2]
      let s := withhold s l twin
      let mine := inOrder (runs.filter fun r => units.contains (unitOf r.psid))
      let s := mine.foldl runKernel (countRuns s units)
      let red := mine.filter fun r => kernFam r.kernel == 3 && kernFailsAgain s r
      let s := red.foldl (fun s r => badReducer s r.psid) s
      match badSites s units mine with
      | [] => if red.isEmpty then oddTwin s l pair else replaySame s l
      | ns => spendSites (serveEarlier s dg) dg ns

/-! ### Meanings -/

def execKakSweep (psid : BitVec 24) (runs : List KernelRun) (s : State) : Out := .next (doKakSweep psid runs s)
def execCheckingHoldTimeout (l : Lcid) (s : State) : Out := .next (doCheckingHoldTimeout l s)
def execMgmtCheck (m : Mgmt) (runs : List KernelRun) (segments : List SegmentRun) (s : State) : Out :=
  .next (doMgmtCheck m runs segments s)
def execTwinMismatch (l : Lcid) (runs : List KernelRun) (s : State) : Out := .next (awake (doTwinMismatch l runs) s)

end Sys2Proof.Machine
end

