-- ==== Sys2Proof/Machine/Flits.lean ====
section
/-! DEFINITION. The flits of a Gwynfold port: lanes, images, acknowledgements, control flits, the packing of packets
(12_gwynfold_links.md R322, R325 to R327, R330, R336). -/

namespace Sys2Proof.Machine

/-! ### Lanes (R322, R336) -/

/-- The physical lane that carries a logical lane. -/
def physOf (p : Port) (i : Nat) : Nat :=
  match tget 0 p.lanes i with
  | 0 => i
  | n + 1 => n

/-- The logical lane map with one lane moved. -/
def setLane (p : Port) (i phys : Nat) : Port := { p with lanes := tput 0 p.lanes i (if phys = i then 0 else phys + 1) }

/-- The logical lane that a physical lane carries. -/
def logicalOf (p : Port) (phys : Nat) : Option Nat := firstThat (fun i => physOf p i == phys) (below 16)

/-- The lowest spare lane: neither active nor failed, and not on its way to carry a logical lane. -/
def spareLane (p : Port) : Option Nat :=
  firstThat (fun x => (logicalOf p x).isNone && !sHas p.failed x && !p.jobs.any fun j => j.new == x) (below 18)

/-- R336: the training of a spare takes no more than 5 ms, which is how long the model's takes (log entry 114, DESIGN CHOICE). -/
def spareTicks : Nat := 5000

/-- R336: how many data flits ahead LANE_MAP names the switch-over flit, so that traffic goes on meanwhile (log entry 114, DESIGN CHOICE). -/
def mapAhead : BitVec 12 := 1024

/-- R336: the move of the logical lane of a physical lane to the lowest spare, whose training begins at tick `t`; none without a spare or a logical
lane to move. -/
def moveLane (t : Nat) (p : Port) (phys : Nat) (retrain : Option Bool) : Option LaneJob :=
  if p.jobs.any fun j => j.old == phys then none
  else match logicalOf p phys, spareLane p with
  | some i, some x => some ⟨i, phys, x, t + spareTicks, none, false, retrain⟩
  | _, _ => none

/-- A lane move added to those of a port, which go one after another. -/
def addJob (p : Port) (j : LaneJob) : Port := { p with jobs := p.jobs ++ [j] }

/-- R336: the first lane move of a port that is UP, once its spare has trained: LANE_MAP names the switch-over flit, and is sent until the peer
answers. -/
def nameJob (t : Nat) (p : Port) : Port :=
  match p.jobs with
  | [] => p
  | j :: r =>
    if p.st = 3 ∧ j.seq = none ∧ j.ready ≤ t then
      { p with jobs := { j with seq := some (p.txSeq + mapAhead) } :: r, ctl := p.ctl ++ [.laneMap j.logical j.new (p.txSeq + mapAhead)] }
    else p

/-- A control flit that is no LANE_MAP. -/
def Ctl.noMap : Ctl → Bool
  | .laneMap _ _ _ => false
  | .ident | .retrain => true

/-- A port without the LANE_MAP flits that it repeats. -/
def dropMaps (p : Port) : Port := { p with ctl := p.ctl.filter Ctl.noMap }

/-- The first lane move done: the spare carries the logical lane, and a lane that was retrained is a spare again or failed (R338). -/
def endJob (p : Port) : Port :=
  match p.jobs with
  | [] => p
  | j :: r =>
    { setLane (dropMaps p) j.logical j.new with jobs := r, failed := if j.retrain = some false then sIns p.failed j.old else p.failed }

/-- The maps of a port that leaves service: what both ends have agreed takes force, and the port's other moves are named anew once it is UP again
(R322). -/
def settleMaps (p : Port) : Port :=
  let p := match p.jobs with
    | j :: _ => if j.agreed then endJob p else p
    | [] => p
  let p := match p.pendMap with
    | some (i, x, _) => { setLane p i x with pendMap := none }
    | none => p
  { dropMaps p with jobs := p.jobs.map fun j => { j with seq := none, agreed := false } }

/-- The data flits that a port may send before one that would use a lane map which its peer has not agreed. -/
def mapRoom (p : Port) : Nat :=
  match p.jobs with
  | j :: _ => match j.seq with
    | some n => if j.agreed then 2048 else (n - p.txSeq).toNat
    | none => 2048
  | [] => 2048

/-! ### Images (R325, Table 12.2) -/

/-- The flit header. -/
def flitHeader (f : Flit) : Word :=
  wd (f.seq.toNat * 2 ^ 52 + f.ack.toNat * 2 ^ 40 + bitAt f.nak 39 + f.typ.toNat * 2 ^ 37 + f.cvc.toNat * 2 ^ 33
    + f.credits.toNat * 2 ^ 24 + f.pad.toNat * 2 ^ 16 + f.rsvd.toNat)

/-- The 252 bytes that the CRC covers. -/
def flitBytes (f : Flit) : List Byte := leBytes 8 (flitHeader f).toNat ++ (below 244).map fun i => f.data.getD i 0

/-- The 256 bytes of a flit that is sent. -/
def flitImage (f : Flit) : List Byte := flitBytes f ++ leBytes 4 (crc32c (flitBytes f))

/-- R325: what each physical lane carries of a flit: logical lane `i` its bits [128i + 127 : 128i]. -/
def spread (p : Port) (bs : List Byte) : List (Nat × List Byte) := (below 16).map fun i => (physOf p i, (bs.drop (16 * i)).take 16)

/-! ### Sending -/

/-- The virtual channel whose credits the next flit returns: the lowest that is owed some. -/
def owedVc (p : Port) : Nat := (firstThat (fun v => tget 0 p.owed v != 0) (below 16)).getD 0

/-- The flit that a port sends now: with its ACK and NAK, and the credits of one virtual channel. -/
def nextFlit (p : Port) (typ : BitVec 2) (seq : BitVec 12) (pad : Nat) (data : List Byte) : Flit :=
  { seq := seq, ack := p.rxAck, nak := p.nak, typ := typ, cvc := BitVec.ofNat 4 (owedVc p)
    credits := BitVec.ofNat 9 (min 511 (tget 0 p.owed (owedVc p))), pad := BitVec.ofNat 8 pad, rsvd := 0, data := data, crc := 0, fec := []
    bad := [] }

/-- A flit put on the lanes. -/
def putFlit (p : Port) (f : Flit) : Port :=
  { p with wire := p.wire ++ [spread p (flitImage f)]
           owed := tput 0 p.owed f.cvc.toNat (tget 0 p.owed f.cvc.toNat - f.credits.toNat) }

/-- The data of a control flit: its code, then its operands (log entry 116, DESIGN CHOICE). -/
def ctlData (s : State) (k : Nat) : Ctl → List Byte
  | .ident => [1] ++ leBytes 2 (if hasDid s then (ownDid s).toNat else 0) ++ [if hasDid s then 1 else 0, BitVec.ofNat 8 k]
  | .retrain => [3]
  | .laneMap i x n => [2, BitVec.ofNat 8 i, BitVec.ofNat 8 x] ++ leBytes 2 n.toNat

/-- A control flit sent. -/
def sendCtl (p : Port) (data : List Byte) : Port := putFlit p (nextFlit p 2 0 0 data)

/-- The control flits that await an answer, sent again. -/
def sendCtls (s : State) (k : Nat) : State := modPort s k fun p => p.ctl.foldl (fun p c => sendCtl p (ctlData s k c)) p

/-- R326: at a tick: lane moves whose spare has trained are named, and what awaits an answer is sent again. -/
def portTick (s : State) (k : Nat) : State := sendCtls (modPort s k (nameJob (now s))) k

/-- The tick of every port. -/
def tickPorts (s : State) : State := (below 16).foldl portTick s

/-- What a port sends when it has something to acknowledge or to return: the control flits that it repeats, then an idle flit. -/
def sendAck (s : State) (k : Nat) : State := modPort (sendCtls s k) k fun p => putFlit p (nextFlit p 0 0 0 [])

/-- R327: the flits of the replay buffer from a number on, sent again with the same bytes. -/
def resendFrom (p : Port) (seq : BitVec 12) : Port :=
  { p with wire := p.wire ++ (p.replay.drop ((p.replay.findIdx? fun x => x.seq == seq).getD p.replay.length)).map fun x => spread p x.bytes }

/-! ### Packets into flits (R326) -/

/-- Packet bytes, with the fabric header (R329). -/
def fLength (p : FPkt) : Nat := 16 + p.body.length

/-- The two words of the fabric header (Table 12.3). -/
def fHeader (p : FPkt) : List Word :=
  [wd ((if p.mcast then 0 else p.dstDid.toNat * 2 ^ 49) + p.srcDid.toNat * 2 ^ 34 + p.part.toNat * 2 ^ 30 + p.cls.toNat * 2 ^ 28
      + p.level.toNat * 2 ^ 26 + bitAt p.mcast 25 + bitAt p.resent 24 + p.group.toNat * 2 ^ 12),
   wd (min p.age 0xFFFF * 2 ^ 48 + p.kind.toNat * 2 ^ 44 + fLength p % 1024 * 2 ^ 34 + p.srcLcid.toNat * 2 ^ 22
      + p.seq.toNat * 2 ^ 14 + (if p.ext then 2 else p.dstLcid.toNat * 4))]

/-- The bytes of a packet. -/
def fBytes (p : FPkt) : List Byte := wordBytes (fHeader p) ++ p.body

/-- Flits that a number of packet bytes takes. -/
def flitCount (n : Nat) : Nat := (n + 243) / 244

/-- The packets of a list packed back to back that have bytes in [`a`, `a` + 244); `at'` is where the list begins. -/
def pktsIn (a : Nat) : Nat → List FPkt → List FPkt
  | _, [] => []
  | at', q :: r =>
    let e := at' + fLength q
    if a < e ∧ at' < a + 244 then q :: pktsIn a e r else pktsIn a e r

/-- The poisoned bytes of packets packed back to back (R226). -/
def pktsBad : Nat → List FPkt → NatSet
  | _, [] => []
  | at', q :: r => q.bad.map (at' + 16 + ·) ++ pktsBad (at' + fLength q) r

/-- Those of a list of marks that lie in [`a`, `a` + `n`), from `a` on. -/
def marksIn (a n : Nat) (bad : NatSet) : NatSet := (bad.filter fun i => decide (a ≤ i ∧ i < a + n)).map (· - a)

/-- One data flit sent and kept in the replay buffer; the switch-over flit puts an agreed lane map in force. -/
def sendData (p : Port) (bs : List Byte) (bad : NatSet) (pkts : List FPkt) : Port :=
  let p := match p.jobs with
    | j :: _ => if j.agreed && j.seq == some p.txSeq then endJob p else p
    | [] => p
  let f := nextFlit p 1 p.txSeq (244 - bs.length) bs
  { putFlit p f with txSeq := p.txSeq + 1, replay := p.replay ++ [⟨p.txSeq, flitImage f, bad, 0, pkts⟩] }

/-- Packets packed back to back into data flits, the last one padded. -/
def sendPkts (p : Port) (qs : List FPkt) : Port :=
  let bs := qs.flatMap fBytes
  ((pieces 244 (flitCount bs.length) bs).zipIdx).foldl (fun p b => sendData p b.1 (marksIn (244 * b.2) 244 (pktsBad 0 qs)) (pktsIn (244 * b.2) 0 qs)) p

end Sys2Proof.Machine
end

