-- ==== Sys2Proof/Machine/Topo.lean ====
section
/-! DEFINITION. The topology check of each port against the assignment (16_bringup.md R441). -/

namespace Sys2Proof.Machine

/-- A bit of a 16-bit mask set or cleared. -/
def putBit {w : Nat} (m : BitVec w) (k : Nat) (b : Bool) : BitVec w := putFld m k 1 (if b then 1 else 0)

/-- What a port is found to be (Table 16.4). -/
inductive PortOutcome where
  | matched | isolated | missing | quiet
deriving DecidableEq, Repr

/-- The expected map entry of a port, unconnected where the assignment names none. -/
def expected (s : State) (k : Nat) : Expect := match s.errs.assign with | some a => tget none a.map k | none => none

/-- Table 16.4: the outcome of a port from its link and the expected map. -/
def portOutcome (s : State) (k : Nat) : PortOutcome :=
  let p := getPort s k
  if p.st = 3 then
    match expected s k with
    | some (d, n) => if p.known && p.peerOk && p.peerDid == d && p.peerPort == n then .matched else .isolated
    | none => .isolated
  else match expected s k with
    | some _ => .missing
    | none => .quiet

/-- A report about a port as a whole, with the peer that it has met. -/
def topoRpt (s : State) (k cls : Nat) (st : Status) (sev : Nat) (action : BitVec 8) : Rpt :=
  let p := getPort s k
  { rpt cls st sev 2 (BitVec.ofNat 24 (k + 0x1F0)) with d0 := wd p.peerDid.toNat, d1 := wd p.peerPort.toNat, action := action }

/-- The report of a port that does not fit the expected map (Tables 16.4 and 17.5; log entry 29). -/
def topoReport (s : State) (k : Nat) : State := raise s (topoRpt s k 12 sINTERNAL 1 0)

/-- The record of a port isolated (Table 17.11). -/
def isolateReport (s : State) (k : Nat) : State := raise s (topoRpt s k 14 sOK 2 8)

/-- R441: one port checked: its DEV_TOPO bits, and the mismatch with its report. A port that carries data and matches no
more is isolated after its drain. -/
def checkPort (s : State) (k : Nat) : State :=
  let o := portOutcome s k
  let c := s.cruise
  let bad := o == .isolated || o == .missing
  let later := o == .isolated && portUpFor s k
  let isolated := putBit c.isolated k (o == .isolated && !later)
  let missing := putBit c.missing k (o == .missing)
  let pend := putBit c.isoPend k later
  let s := { s with cruise := { c with
    matched := putBit c.matched k (o == .matched || later), isolated := isolated, missing := missing, isoPend := pend
    mismatch := isolated != 0 || missing != 0 || pend != 0 } }
  let s := if bad then topoReport s k else s
  if o == .isolated && !later then isolateReport s k else s

/-- R441: a port looked at again when its link or its peer's IDENT changes: an isolated one stays so until an assignment matches it. -/
def recheckPort (s : State) (k : Nat) : State :=
  if s.errs.assign.isNone || !s.cruise.ready || bit s.cruise.isolated k then s else checkPort s k

/-- R441: every port that is not fused checked, once there is an assignment. -/
def checkTopo (s : State) : State :=
  if s.errs.assign.isNone then s
  else (below 16).foldl (fun s k => if (getPort s k).st = 0 then s else checkPort s k) s

/-- R343, R441: a DID routed through a port that waits to be isolated. -/
def drainsFor (s : State) (d : Did) : Bool := (rtPorts (rtEntry s d)).any fun k => bit s.cruise.isoPend k

/-- R441: a drained port isolated. -/
def isolatePort (s : State) (k : Nat) : State :=
  let c := s.cruise
  isolateReport { s with cruise := { c with matched := putBit c.matched k false, isolated := putBit c.isolated k true
                                            isoPend := putBit c.isoPend k false } } k

end Sys2Proof.Machine
end

