-- ==== Sys2Proof/Machine/Fabric.lean ====
section
/-! DEFINITION. The fabric switch: packets to and from other devices, tables, holds, shapers, congestion maps
(12_gwynfold_links.md R329 to R334, R339 to R347). -/

namespace Sys2Proof.Machine

/-! ### Packets (Table 12.3) -/

/-- The 32-byte body header of a mesh packet (Table 11.3). -/
def bodyHeader (p : Pkt) (did : Did) (l : Lcid) (n : Nat) : List Byte :=
  wordBytes [p.addr, wd (p.tag % 65536 * 2 ^ 48 + did.toNat * 2 ^ 33 + l.toNat * 2 ^ 21 + p.sctx.toNat * 2 ^ 12 + n % 4096),
    p.arg0, p.arg1]

/-- The body of a mesh packet (Table 11.2). -/
def pktBody (p : Pkt) (did : Did) (l : Lcid) : List Byte :=
  if p.kind = 4 then
    match p.msg with
    | some m => wordBytes [m.h.w0, m.h.w1, m.h.w2, m.h.w3] ++ m.data
    | none => []
  else bodyHeader p did l (if p.data.isEmpty then p.len else p.data.length) ++
    (if p.kind = 9 then (below 32).map fun i => BitVec.ofNat 8 (p.mask / 256 ^ i) else []) ++ p.data

/-- Where in a body its data begins (Table 11.2). -/
def dataAt (kind : BitVec 4) : Nat := if kind = 9 then 64 else 32

/-- R329: the fabric packet of a mesh packet that leaves the device; it has aged since it was sent (R331). -/
def toFabric (p : Pkt) (r : FabRef) : FPkt :=
  { dstDid := r.dstDid, srcDid := r.srcDid, part := p.part, cls := BitVec.ofNat 2 (vcOf p.kind), level := 0, mcast := false
    resent := p.retried, group := 0, age := 0, kind := p.kind, srcLcid := r.srcLcid, seq := BitVec.ofNat 8 p.seq
    dstLcid := r.dstLcid.getD 0, ext := r.dstLcid.isNone, body := pktBody p r.srcDid r.srcLcid
    bad := (match p.msg with
      | some m => m.bad
      | none => p.bad).map (dataAt p.kind + ·)
    since := p.tick, arr := none }

/-- The fabric packet that bytes hold, with its arrival port and the poisoned ones among them. -/
def parseFabric (s : State) (k : BitVec 4) (bs : List Byte) (bad : NatSet) : FPkt :=
  let w0 := wd (leNat (bs.take 8))
  let w1 := wd (leNat ((bs.drop 8).take 8))
  { dstDid := BitVec.ofNat 15 (fld w0 49 15), srcDid := BitVec.ofNat 15 (fld w0 34 15), part := BitVec.ofNat 4 (fld w0 30 4)
    cls := BitVec.ofNat 2 (fld w0 28 2), level := BitVec.ofNat 2 (fld w0 26 2), mcast := bit w0 25, resent := bit w0 24
    group := BitVec.ofNat 12 (fld w0 12 12), age := fld w1 48 16, kind := BitVec.ofNat 4 (fld w1 44 4)
    srcLcid := BitVec.ofNat 12 (fld w1 22 12), seq := BitVec.ofNat 8 (fld w1 14 8), dstLcid := BitVec.ofNat 12 (fld w1 2 12)
    ext := bit w1 1, body := bs.drop 16, bad := marksIn 16 (bs.length - 16) bad, since := now s, arr := some k }

/-- The mesh packet that a fabric packet carries (R329). -/
def fromFabric (p : FPkt) : Pkt :=
  let w := fun i => wd (leNat ((p.body.drop (8 * i)).take 8))
  let base : Pkt := { Pkt.blank with
    kind := p.kind, srcl := true, part := p.part, retried := p.resent, seq := p.seq.toNat
    fab := some ⟨p.srcDid, p.dstDid, p.srcLcid, if p.ext then none else some p.dstLcid, p.age, p.resent⟩ }
  let data := p.body.drop (dataAt p.kind)
  let bad := marksIn (dataAt p.kind) data.length p.bad
  if p.kind = 4 then { base with msg := some ⟨⟨w 0, w 1, w 2, w 3⟩, data, bad, p.part, 0, 0, false⟩, len := data.length }
  else
    { base with addr := w 0, tag := fld (w 1) 48 16, sctx := BitVec.ofNat 9 (fld (w 1) 12 9), len := fld (w 1) 0 12, arg0 := w 2
                arg1 := w 3, data := data, bad := bad
                mask := if p.kind = 9 then leNat ((p.body.drop 32).take 32) else 0 }

/-! ### Age (R331) -/

/-- AGE after the residence in this device so far, rounded up to whole microseconds: the tick that has begun counts (log entry 118, DESIGN
CHOICE). -/
def ageNow (s : State) (p : FPkt) : Nat := p.age + (now s - p.since) + 1

/-- A packet whose age has reached the limit. -/
def aged (s : State) (p : FPkt) : Bool := decide (50000 ≤ ageNow s p)

/-- A discard of R331, R334 or R341 reported (Table 17.5, class 11; log entry 29). -/
def routeReport (s : State) (st : Status) (d : Did) : State := raise s { rpt 11 st 1 8 0 with d0 := wd d.toNat }

/-- A packet discarded for its age. -/
def discardAged (s : State) (p : FPkt) : State :=
  routeReport { s with gf := { s.gf with aged := BitVec.ofNat 16 (satAdd 16 s.gf.aged.toNat 1) } } sLOST p.dstDid

/-- `n` packets counted in NOROUTE. -/
def countNoRoute (s : State) (n : Nat) : State :=
  { s with gf := { s.gf with noroute := BitVec.ofNat 16 (satAdd 16 s.gf.noroute.toNat n) } }

/-! ### Holds (R343, R344) -/

/-- A DID in a held range, or one whose port drains before its isolation. -/
def heldDid (s : State) (d : Did) : Bool :=
  (s.cruise.isoPend != 0 && drainsFor s d) || (below 4).any fun i => let w := tget 0 s.gf.holds i; bit w 63 && decide (fld w 0 15 ≤ d.toNat) && decide (d.toNat ≤ fld w 32 15)

/-- Bytes of the hold store. -/
def holdStoreBytes : Nat := 4 * 2 ^ 20

/-- The hold store has room for a packet. -/
def holdRoom (s : State) (p : FPkt) : Bool := decide ((s.gf.stored.map fLength).sum + fLength p ≤ holdStoreBytes)

/-- A port's egress queue. -/
def egressOf (s : State) (k : Nat) : List FPkt := tget [] s.gf.egress k

/-- A shaper's bucket, by port and partition. -/
def shaperOf (s : State) (k p : Nat) : Shaper := tget Shaper.zero s.gf.shapers (16 * k + p)

/-- The state with a bucket changed. -/
def modShaper (s : State) (k p : Nat) (f : Shaper → Shaper) : State :=
  { s with gf := { s.gf with shapers := tput Shaper.zero s.gf.shapers (16 * k + p) (f (shaperOf s k p)) } }

/-- Packets of a replay buffer, each once. -/
def replayPkts (p : Port) : List FPkt := (p.replay.flatMap TxFlit.pkts).foldl (fun l q => if l.contains q then l else l ++ [q]) []

/-- R344: DRAIN_COUNT. -/
def drainCount (s : State) : Nat :=
  ((below 16).map fun k =>
    ((egressOf s k ++ replayPkts (getPort s k) ++
      (below 16).flatMap fun p => (shaperOf s k p).queue.map Prod.fst).filter fun q => !q.mcast && heldDid s q.dstDid).length).sum

/-! ### Egress (R332) -/

/-- The outcome of a lookup. -/
inductive Egress where
  | port (k : Nat) (level : BitVec 2)
  | wait
  | none
deriving DecidableEq, Repr

/-- R332 step 2: the egress port of a packet. -/
def egressPort (s : State) (p : FPkt) : Egress :=
  let e := rtEntry s p.dstDid
  if !hasDid s || !bit e 31 then .none
  else
    let ups := (rtPorts e).filter (portUpFor s)
    let h := p.srcLcid.toNat ^^^ p.dstLcid.toNat ^^^ (p.dstDid.toNat % 4096)
    match ups[h % ups.length]? with
    | some k => .port k (BitVec.ofNat 2 (fld e 18 2))
    | none => if (rtPorts e).any (portOpen s) then .wait else .none

/-- A packet given to a port: into its bucket when this device issued it, into the egress queue in transit (R345). -/
def toEgress (s : State) (k : Nat) (p : FPkt) : State :=
  if p.arr.isSome then { s with gf := { s.gf with egress := tput [] s.gf.egress k (egressOf s k ++ [p]) } }
  else modShaper s k p.part.toNat fun h => { h with queue := h.queue ++ [(p, now s)] }

/-! ### The replay buffer (R326, R327, R330) -/

/-- 64-byte units of the peer's buffer that a packet takes. -/
def unitsOf (p : FPkt) : Nat := (fLength p + 63) / 64

/-- R330: the virtual channel of a packet. -/
def fvc (p : FPkt) : Nat := 4 * p.level.toNat + p.cls.toNat

/-- R330: credits for a whole packet on its virtual channel: 128 units reserved to each, 6,144 shared. -/
def hasCredit (used : Tbl Nat) (q : FPkt) : Bool :=
  let u := tget 0 used (fvc q)
  let shared := ((below 16).map fun v => tget 0 used v - 128).sum
  decide (unitsOf q ≤ (128 - u) + (6144 - shared))

/-- What a pass over an egress queue finds: packets to send, packets that wait, packets whose age has reached the limit; the units used, the
bytes to send, the virtual channels in which a packet waits. -/
structure Pick where
  send : List FPkt
  keep : List FPkt
  old  : List FPkt
  used : Tbl Nat
  len  : Nat
  shut : List Nat
deriving DecidableEq, Repr

/-- One packet of an egress queue: the packets of a virtual channel go in order, those of different ones pass one another (R330). `room` is how
many flits the replay buffer takes. -/
def pickOne (s : State) (room : Nat) (a : Pick) (q : FPkt) : Pick :=
  if aged s q then { a with old := a.old ++ [q] }
  else if a.shut.contains (fvc q) || !hasCredit a.used q || decide (room < flitCount (a.len + fLength q)) then
    { a with keep := a.keep ++ [q], shut := fvc q :: a.shut }
  else { a with send := a.send ++ [q], used := tput 0 a.used (fvc q) (tget 0 a.used (fvc q) + unitsOf q), len := a.len + fLength q }

/-- What a port may send now. -/
def pick (s : State) (k : Nat) : Pick :=
  let p := getPort s k
  let room := if portUpFor s k then min (2048 - p.replay.length) (mapRoom p) else 0
  (egressOf s k).foldl (pickOne s room) ⟨[], [], [], p.used, 0, []⟩

/-- R326, R327, R330: every packet that an egress queue can send is sent, packed back to back. -/
def pump (s : State) (k : Nat) : State :=
  let a := pick s k
  let s := a.old.foldl discardAged { s with gf := { s.gf with egress := tput [] s.gf.egress k a.keep } }
  if a.send.isEmpty then s
  else modPort s k fun p => { sendPkts p (a.send.map fun q => { q with age := ageNow s q + 1, since := now s }) with
    used := a.used, progress := if p.replay.isEmpty then now s else p.progress }

/-! ### Delivery on this device -/

/-- A packet put into the mesh from a port, by the Landing link of a router that its destination gives (R30; log entry 92, DESIGN CHOICE). -/
def injectPort (s : State) (k : Nat) (r : Dg) (p : Pkt) : State := inject s r (landLink (epPort k) p) { p with srcl := true, sep := epPort k }

/-- R332 step 3: the home router of the destination grove's entry port; with both blazed, the router where the Landing ring leaves off (R31). -/
def deliverVia (s : State) (dg : Dg) : Option (Nat × Dg) :=
  match entryPort s dg with
  | none => none
  | some k => match leastOf (reachable s dg (homeRouters (epPort k))) with
    | some h => some (k, h.2)
    | none => if (homeRouters (epPort k)).all fun d => (getGrove s d).out then (ringExit s (epPort k)).map fun d => (k, d) else none

/-- R300, R237: the answer to a request that no grove of this device can take. -/
def refuseFar (s : State) (k : Nat) (p : Pkt) : State :=
  let side := Side.ep (epPort k)
  match p.kind.toNat with
  | 0 => reply s side p { Pkt.blank with kind := 2, arg0 := statusWord sVACANT }
  | 1 => reply s side p { Pkt.blank with kind := 3, arg0 := statusWord sVACANT }
  | 6 => reply s side p { Pkt.blank with kind := 7, arg0 := statusWord sVACANT }
  | 4 => match p.msg with
    | some m => bounce s side m sVACANT
    | none => s
  | _ => s

/-- A packet delivered to a grove of this device, at a position or at its unit. -/
def deliverGrove (s : State) (k : Nat) (dg : Dg) (p : Pkt) : State :=
  match deliverVia s dg with
  | none => refuseFar s k p
  | some (e, r) => if (routeHops s r dg).isNone then refuseFar s k p else injectPort s e r p

/-- The key of a fabric source in the list of sequences taken (R331). -/
def rxKey (p : FPkt) : Nat := (p.srcDid.toNat * 4096 + p.srcLcid.toNat) * 4 + p.cls.toNat

/-- R331: a MSG or SYNC_OP packet of which a copy was taken: this packet was sent again, or the one taken was, within the 50 ms that a packet may
last. Without either, the SEQ is that of a later packet (log entry 115, DEDUCED). -/
def taken (s : State) (p : FPkt) : Bool :=
  (p.kind == 4 || p.kind == 6) &&
    (tget [] s.gf.rxSeq (rxKey p)).any fun x => x.1 == p.seq && (p.resent || (x.2.1 && decide (now s ≤ x.2.2 + 50000)))

/-- R331: a sequence noted as taken. -/
def noteSeq (s : State) (p : FPkt) : State :=
  if p.kind = 4 ∨ p.kind = 6 then
    let l := tget [] s.gf.rxSeq (rxKey p) ++ [(p.seq, p.resent, now s)]
    { s with gf := { s.gf with rxSeq := tput [] s.gf.rxSeq (rxKey p) (l.drop (l.length - 256)) } }
  else s

/-- R299: a packet of a reserved kind, or on the wrong virtual channel, is discarded with an INTERNAL report. -/
def badKind (s : State) (k : Nat) : State :=
  raise s (rpt 3 sINTERNAL 1 0 (psidOf ((homeRouters (epPort k)).headD 0) 24 7 0xFF))

/-- The controller that serves a range offset of partition `n`. -/
def extEp (s : State) (p : Pkt) : Nat :=
  let off := match addrOf p.addr with
    | some (.farExt _ o) => o
    | _ => 0
  epHbm (hbmPlace s p.part.toNat off).1

/-- R332 step 3, R334: a packet for this device delivered; `k` is the port that it came by. -/
def deliverLocal (s : State) (k : Nat) (q : FPkt) : State :=
  let p := fromFabric { q with age := ageNow s q }
  if 12 ≤ q.kind.toNat ∨ vcOf q.kind ≠ q.cls.toNat then badKind s k
  else if taken s q then s
  else
    let s := noteSeq s q
    if q.ext then pushLanding s (extEp s p) { p with sep := epPort k }
    else match p.kind.toNat with
    | 6 => deliverGrove s k (syncDg p.arg0) (p.toUnit (syncDg p.arg0))
    | 5 =>
      if bit (wd (leNat ((p.data.drop 40).take 8))) 56 then pushLanding s epPcie { p with sep := epPort k }
      else deliverGrove s k (dgOf q.dstLcid) (p.toCore q.dstLcid)
    | 9 =>
      match firstThat (fun d => !(getGrove s d).out) (homeRouters (epPort k) ++ (ringExit s (epPort k)).toList) with
      | some r => injectPort s k r { p with dst := r, dpos := BitVec.ofNat 4 (posOf q.dstLcid), exit := 3 }
      | none => s
    | 10 => pushLanding s epLookout p
    | _ => deliverGrove s k (dgOf q.dstLcid) (p.toCore q.dstLcid)

/-! ### The switch -/

/-- R341: a multicast packet: one copy on each port of MASK but the arrival port, and one here with LOCAL. -/
def switchMcast (s : State) (k : Nat) (p : FPkt) : State :=
  let e := tget 0 s.gf.mc ((if s.gf.active then 4096 else 0) + p.group.toNat)
  let outs := (below 16).filter fun j => bit e j && p.arr != some (BitVec.ofNat 4 j)
  let s := (outs.filter (portOpen s)).foldl (fun s j => toEgress s j p) s
  let s := countNoRoute s (outs.filter fun j => !portOpen s j).length
  if bit e 16 then deliverLocal s k p else s

/-- A packet put into the hold store, if it has room. -/
def storePkt (s : State) (p : FPkt) : Option State :=
  if holdRoom s p then some { s with gf := { s.gf with stored := s.gf.stored ++ [p] } } else none

/-- R334: a packet without a route: one in transit is discarded and counted; the operation of an own one ends by its own rules. -/
def dropRouteless (s : State) (p : FPkt) : State :=
  if p.arr.isSome then routeReport (countNoRoute s 1) sNOROUTE p.dstDid else s

/-- R333: the flow of a packet. -/
def flowOf (p : FPkt) : Did × Lcid × Did × Lcid × Bool × BitVec 2 := (p.srcDid, p.srcLcid, p.dstDid, if p.ext then 0 else p.dstLcid, p.ext, p.cls)

/-- R305, R331: an earlier MSG or SYNC_OP packet of the same flow has come by another port and is not yet taken. -/
def early (s : State) (p : FPkt) : Bool :=
  (p.kind == 4 || p.kind == 6) && s.gf.inbox.any fun b => b.2.any fun q =>
    flowOf q == flowOf p && (q.kind == 4 || q.kind == 6) && q.seq != p.seq && decide ((p.seq - q.seq).toNat < 128)

/-- R332, R334, R344: one packet that no earlier one of its flow keeps back; none while it must wait. -/
def switchPkt (s : State) (k : Nat) (p : FPkt) : Option State :=
  if aged s p then some (discardAged s p)
  else if !hasDid s then some (dropRouteless s p)
  else if p.mcast then some (switchMcast s k p)
  else if p.dstDid == ownDid s then (if early s p then none else some (deliverLocal s k p))
  else if heldDid s p.dstDid then storePkt s p
  else match egressPort s p with
  | .port j lv => some (pump (toEgress s j { p with level := lv }) j)
  | .wait => none
  | .none => some (dropRouteless s p)

/-- R333: a packet switched in the order of its flow: behind one in the hold store it is stored too, and behind one that a port has given back it
waits. -/
def switchFlow (s : State) (k : Nat) (p : FPkt) : Option State :=
  if !aged s p && !p.mcast && s.gf.stored.any fun q => flowOf q == flowOf p then storePkt s p
  else if !aged s p && !p.mcast && s.gf.moved.any fun q => flowOf q == flowOf p then none
  else switchPkt s k p

/-- The first packet of a list that can be switched, none of its flow before it. `take` removes a packet from where it waits. -/
def switchFirst (take : FPkt → State) (k : Nat) : List FPkt → List FPkt → Option (FPkt × State)
  | _, [] => none
  | before, p :: r =>
    if before.any fun q => flowOf q == flowOf p then switchFirst take k before r
    else match switchFlow (take p) k p with
      | some t => some (p, t)
      | none => switchFirst take k (p :: before) r

/-- R330: the units of a packet that has left a port's buffer are owed to its peer, and returned with the next flit. -/
def freeBuffer (s : State) (k : Nat) (p : FPkt) : State :=
  sendAck (modPort s k fun t => { t with owed := tput 0 t.owed (fvc p) (tget 0 t.owed (fvc p) + unitsOf p) }) k

/-- The next packet of an arrival port. -/
def switchPort (s : State) (k : Nat) : State :=
  let l := tget [] s.gf.inbox k
  match switchFirst (fun p => { s with gf := { s.gf with inbox := tput [] s.gf.inbox k (l.erase p) } }) k [] l with
  | some (p, t) => freeBuffer t k p
  | none => s

/-- The device's own packets that wait at a port's Landing endpoint, as fabric packets. -/
def ownPkts (s : State) (k : Nat) : List (Pkt × FPkt) :=
  (tget [] s.landing (epPort k)).filterMap fun p => p.fab.map fun f => (p, toFabric p f)

/-- The device's own next packet: the first at a port's Landing endpoint that can be switched. -/
def switchOwn (s : State) : List Nat → State
  | [] => s
  | k :: r =>
    let l := ownPkts s k
    let take := fun (q : FPkt) => match firstThat (fun (x : Pkt × FPkt) => x.2 == q) l with
      | some x => { s with landing := tput [] s.landing (epPort k) ((tget [] s.landing (epPort k)).erase x.1) }
      | none => s
    match switchFirst take k [] (l.map Prod.snd) with
    | some (_, t) => t
    | none => switchOwn s r

/-- A packet taken from those that wait beside the switch, or from the hold store. -/
def unstore (s : State) (p : FPkt) : State :=
  if s.gf.moved.contains p then { s with gf := { s.gf with moved := s.gf.moved.erase p } }
  else { s with gf := { s.gf with stored := s.gf.stored.erase p } }

/-- The next of the packets that wait beside the switch or in the hold store that is held no more and can go. -/
def switchHeld (s : State) : List FPkt → List FPkt → State
  | _, [] => s
  | before, p :: r =>
    if (heldDid s p.dstDid && !aged s p) || before.any fun q => flowOf q == flowOf p then switchHeld s (p :: before) r
    else
      match switchPkt (unstore s p) ((p.arr.map BitVec.toNat).getD 0) p with
      | some t => t
      | none => switchHeld s (p :: before) r

/-- FABRIC_PACKET (R332): the next packet of an arrival port, of the device's own traffic, or of the hold store. -/
def doFabricPacket (src : FabSrc) (s : State) : State :=
  if asleep s then s
  else match src with
  | .port k => switchPort s k.toNat
  | .own => switchOwn s (below 16)
  | .held => switchHeld s [] (s.gf.moved ++ s.gf.stored)

/-! ### Shapers (R345, R346) -/

/-- SHAPER_SEND (R345): the head of a bucket's queue goes when TOKENS is positive and the bucket is not frozen. -/
def doShaperSend (port part : BitVec 4) (s : State) : State :=
  let h := shaperOf s port.toNat part.toNat
  match h.queue with
  | [] => s
  | (p, _) :: r =>
    if h.rate = 0 ∨ h.tokens ≤ 0 then s
    else
      let s := modShaper s port.toNat part.toNat fun h => { h with queue := r, tokens := h.tokens - fLength p }
      pump { s with gf := { s.gf with egress := tput [] s.gf.egress port.toNat (egressOf s port.toNat ++ [p]) } } port.toNat

/-- The operation of this device that a packet belongs to (R250, R260). -/
def opOf (s : State) (p : FPkt) : Option OpRef :=
  let k := getCore s p.srcLcid
  let q := fromFabric p
  match p.kind.toNat with
  | 0 | 1 =>
    match firstThat (fun o => o.tag % 65536 == q.tag && o.load == (p.kind == 0)) k.un.narrows with
    | some o => some (.narrow o.ctx)
    | none => (partByTag k (if p.kind = 0 then 1 else 2) q.tag).map fun x => .xfer x.1 x.2.1
  | 6 => (syncByTag k q.tag).map fun o => .sync o.tag
  | 4 => match q.msg with
    | some m => (firstThat (fun o => o.msg.h == m.h) k.un.sent).map fun o => .send o.msg.mid
    | none => none
  | _ => none

/-- The first packet of a frozen bucket that has waited GF_SHAPER_TMO, timed from the later of its arrival and the freeze. -/
def frozenDue (s : State) (h : Shaper) : Option FPkt :=
  match h.frozenAt with
  | none => none
  | some f => (firstThat (fun q => decide (max q.2 f + s.gf.shTmo.toNat + 1 ≤ now s)) h.queue).map Prod.fst

/-- SHAPER_FROZEN_TIMEOUT (R346): the packet fails, and its operation with it. -/
def doShaperFrozenTimeout (port part : BitVec 4) (s : State) : State :=
  let h := shaperOf s port.toNat part.toNat
  match frozenDue s h with
  | none => s
  | some p =>
    let s := modShaper s port.toNat part.toNat fun h => { h with
      queue := h.queue.filter fun q => q.1 != p, fails := BitVec.ofNat 16 (satAdd 16 h.fails.toNat 1) }
    match opOf s p with
    | some o => endOp s p.srcLcid o sFROZEN
    | none => match (fromFabric p).msg with
      | some m => if p.kind = 4 ∧ hdrHost m.h = true then endHostMsg s (hdrRef m.h) sFROZEN else s
      | none => s

/-- R345, R346: one bucket's tick: a written RATE takes effect, then the refill. -/
def shaperTick (t : Nat) (h : Shaper) : Shaper :=
  let h := if h.nextRate = h.rate then h
    else { h with rate := h.nextRate, frozenAt := if h.nextRate = 0 then some t else none }
  if h.rate = 0 then h else { h with tokens := min (h.tokens + h.rate) h.burst }

/-- Every bucket's tick. -/
def tickShapers (s : State) : State :=
  { s with gf := { s.gf with shapers := (below 256).foldl (fun m i => tput Shaper.zero m i (shaperTick (now s) (tget Shaper.zero m i))) s.gf.shapers } }

/-- Nothing is queued for or unacknowledged on a port. -/
def portDry (s : State) (k : Nat) : Bool :=
  (egressOf s k).isEmpty && (getPort s k).replay.isEmpty && (below 16).all fun p => (shaperOf s k p).queue.isEmpty

/-- R441, R334: the ports that have drained are isolated. -/
def isolateDry (s : State) : State :=
  if s.cruise.isoPend = 0 then s
  else (below 16).foldl (fun s k => if bit s.cruise.isoPend k && portDry s k then loseRoutes (isolatePort s k) else s) s

/-! ### Registers of the GF_ block (Table 12.8) -/

/-- Base of the GF_ block. -/
def gfBlk : Nat := 0x7000

/-- A write of a GF_ register: PF0 and the Lookout reach the block (R348). -/
def gfWrite (s : State) (w : Wr) (off : Nat) (reserved cond : Bool) (f : State → State) : State :=
  guardWrite s w.writer.toNat gfBlk (gfBlk + off) (byPf0 w.writer.toNat) none reserved cond f

/-- R340: a routing entry with a reserved bit or a port beyond its set. -/
def badEntry (e : BitVec 32) : Bool :=
  fld e 20 11 != 0 || (((below 4).drop (fld e 16 2 + 1)).any fun i => fld e (4 * i) 4 != 0)

/-- R340: an entry that names a fused port. -/
def namesFused (s : State) (ps : List Nat) : Bool := ps.any fun k => (getPort s k).st == 0

/-- Fused ports of a mask. -/
def maskPorts (m : Nat) : List Nat := (below 16).filter m.testBit

/-- ROUTING_ENTRY_WRITE (R340): GF_RT_DATA or GF_MC_DATA, the entry that the SEL register selects. -/
def doRoutingEntryWrite (multicast : Bool) (w : Wr) (s : State) : State :=
  if multicast then
    let i := (if bit s.gf.mcSel 15 then 4096 else 0) + fld s.gf.mcSel 0 12
    let e : BitVec 17 := BitVec.ofNat 17 (mergeHalf w.half (wd (tget 0 s.gf.mc i).toNat) w.value).toNat
    gfWrite s w 0x28 false (bit s.gf.mcSel 15 != s.gf.active && !namesFused s (maskPorts (fld e 0 16))) fun s =>
      { s with gf := { s.gf with mc := tput 0 s.gf.mc i e } }
  else
    let i := (if bit s.gf.rtSel 15 then 32768 else 0) + fld s.gf.rtSel 0 15
    let e : BitVec 32 := BitVec.ofNat 32 (mergeHalf w.half (wd (tget 0 s.gf.rt i).toNat) w.value).toNat
    gfWrite s w 0x18 (badEntry e) (bit s.gf.rtSel 15 != s.gf.active && !namesFused s (rtPorts e)) fun s =>
      { s with gf := { s.gf with rt := tput 0 s.gf.rt i e } }

/-- The active bank of both tables set (R343, R344). -/
def setActive (s : State) (b : Bool) : State :=
  if s.gf.active = b then s else loseRoutes { s with gf := { s.gf with active := b } }

/-- BANK_SWAP (R344): a write of GF_CTRL. -/
def doBankSwap (w : Wr) (s : State) : State :=
  let v := mergeHalf w.half (wd (bitAt s.gf.active 0)) w.value
  gfWrite s w 0 false true fun s => setActive s (bit v 0)

/-- The defined bits of GF_HOLDi. -/
def holdBits (v : Word) : Word := keepFields v [(63, 1), (32, 15), (0, 15)]

/-- DID_HOLD (R344): a write of GF_HOLDi. -/
def doDidHold (i : BitVec 2) (w : Wr) (s : State) : State :=
  let v := holdBits (mergeHalf w.half (tget 0 s.gf.holds i.toNat) w.value)
  gfWrite s w (0x30 + 8 * i.toNat) (bit v 63 && decide (fld v 32 15 < fld v 0 15)) true fun s =>
    { s with gf := { s.gf with holds := tput 0 s.gf.holds i.toNat v } }

/-- GF_SHAPER_CFG as it reads: RATE as written, BURST. -/
def shaperCfg (h : Shaper) : Word := wd (h.nextRate * 2 ^ 32 + h.burst)

/-- The bucket that GF_SHAPER_SEL selects. -/
def selShaper (s : State) : Nat × Nat := (fld s.gf.shSel 4 4, fld s.gf.shSel 0 4)

/-- A write of GF_SHAPER_CFG: RATE, BURST and RESET together (R346). -/
def shaperWrite (w : Wr) (s : State) : State :=
  let i := selShaper s
  let v := mergeHalf w.half (shaperCfg (shaperOf s i.1 i.2)) w.value
  gfWrite s w 0x58 (decide (400000 < fld v 32 20) || decide (fld v 0 24 < 1024)) ((getPort s i.1).st != 0) fun s =>
    modShaper s i.1 i.2 fun h => { h with
      nextRate := fld v 32 20, burst := fld v 0 24, tokens := if bit (halfBits w.half w.value) 63 then 0 else h.tokens }

/-- SHAPER_RATE_WRITE (R346). -/
def doShaperRateWrite (w : Wr) (s : State) : State := shaperWrite w s

/-- SHAPER_RESET (R346): a write that sets RESET; one that does not is a write of the same register. -/
def doShaperReset (w : Wr) (s : State) : State := shaperWrite w s

/-! ### Congestion maps (R347) -/

/-- Bytes that a virtual channel's egress buffer of a port holds. -/
def egressFill (s : State) (k v : Nat) : Nat := (((egressOf s k).filter fun q => fvc q == v).map fLength).sum

/-- The bin of an occupancy: the smallest b with 7·used ≤ b·size. -/
def congBin (used size : Nat) : Nat := if size = 0 then 0 else min 7 ((7 * used + size - 1) / size)

/-- One sample of every virtual channel of every port, 16 to a port. `bytes` is what one buffer holds, which the spec does not give (log entry
117, DESIGN CHOICE). -/
def addSample (s : State) (bytes : Nat) (m : Tbl (BitVec 16)) : Tbl (BitVec 16) :=
  (below 256).foldl (fun m q =>
    let i := q * 8 + congBin (egressFill s (q / 16) (q % 16)) bytes
    tput 0 m i (BitVec.ofNat 16 (satAdd 16 (tget 0 m i).toNat 1))) m

/-- The words of a closed map (Table 12.6). -/
def closedMap (epoch : BitVec 16) (n : Nat) (at' : Word) (m : Tbl (BitVec 16)) : Tbl Word :=
  let t := tput 0 (tput 0 [] 0 (wd (epoch.toNat * 2 ^ 48 + n % 2 ^ 32))) 1 at'
  m.foldl (fun t q => tput 0 t (2 + q.1 / 4) (tget 0 t (2 + q.1 / 4) ||| wd (q.2.toNat * 2 ^ (16 * (q.1 % 4))))) t

/-- CONGESTION_SAMPLE (R347): at every 100th tick; a full map is closed and exported. -/
def doCongestionSample (bytes : Nat) (s : State) : State :=
  if now s % 100 ≠ 0 then s
  else
    let g := s.gf
    let m := addSample s bytes g.openMap
    let at' := if g.openN = 0 then s.pace.ns else g.openAt
    if g.openN + 1 < g.samples.toNat then { s with gf := { g with openMap := m, openN := g.openN + 1, openAt := at' } }
    else
      let c := closedMap (g.epoch + 1) (g.openN + 1) at' m
      { s with gf := { g with openMap := [], openN := 0, openAt := 0, closed := c, epoch := g.epoch + 1 }
               host := { s.host with telem := { s.host.telem with maps := if s.host.telem.ivl = 0 then [] else s.host.telem.maps ++ [c] } } }

/-! ### Meanings -/

def execFabricPacket (src : FabSrc) (s : State) : Out := .next (doFabricPacket src s)
def execShaperSend (port part : BitVec 4) (s : State) : Out := .next (awake (doShaperSend port part) s)
def execShaperFrozenTimeout (port part : BitVec 4) (s : State) : Out := .next (awake (doShaperFrozenTimeout port part) s)
def execRoutingEntryWrite (multicast : Bool) (w : Wr) (s : State) : Out := .next (doRoutingEntryWrite multicast w s)
def execBankSwap (w : Wr) (s : State) : Out := .next (doBankSwap w s)
def execDidHold (i : BitVec 2) (w : Wr) (s : State) : Out := .next (doDidHold i w s)
def execShaperRateWrite (w : Wr) (s : State) : Out := .next (doShaperRateWrite w s)
def execShaperReset (w : Wr) (s : State) : Out := .next (doShaperReset w s)
def execCongestionSample (bytes : Nat) (s : State) : Out := .next (doCongestionSample bytes s)

end Sys2Proof.Machine
end

