-- ==== Sys2Proof/Machine/Ports.lean ====
section
/-! DEFINITION. The Gwynfold ports: flits and retry, training, lane and port retirement (12_gwynfold_links.md R322 to R328,
R336 to R338). -/

namespace Sys2Proof.Machine

/-! ### Reports (Tables 17.6 and 17.11) -/

/-- The index of a port's physical lane, 0x1F for the port. -/
def portIx (k lane : Nat) : BitVec 24 := BitVec.ofNat 24 (k % 16 + lane % 32 * 16)

/-- A report about a port or one of its lanes. -/
def portRpt (cls : Nat) (st : Status) (sev k lane : Nat) : Rpt := rpt cls st sev 2 (portIx k lane)

/-! ### Port states (R324, R328) -/

/-- Table 14.6: a port's state has changed. -/
def portSignal (s : State) (k : Nat) : State := signalVec s 0 (176 + k % 16)

/-- The port of a retrain begun: RETRAINS counts it, its replay buffer is kept. -/
def enterTraining (s : State) (k : Nat) : State :=
  let s := modPort s k fun p => { p with
    st := 2, retrains := BitVec.ofNat 16 (satAdd 16 p.retrains.toNat 1), attempts := 0, upFrom := none
    replay := p.replay.map fun f => { f with naks := 0 } }
  raise (portSignal s k) (portRpt 4 sINTERNAL 1 k 0x1F)

/-- A port that has trained and knows its peer enters UP, is checked against the assignment, and sends what it kept and what waits (R328), but no
data without a DID (R324). -/
def enterUp (s : State) (k : Nat) : State :=
  let s := modPort s k fun p =>
    let p := { p with st := 3, attempts := 0, progress := now s, nak := false }
    if hasDid s then { p with wire := p.wire ++ p.replay.map fun x => spread p x.bytes } else p
  let s := portSignal s k
  let s := recheckPort s k
  pump s k

/-- A SEND of this device whose packet is sent again is accepted with RETRIED_OK (R332). -/
def noteResent (s : State) (p : FPkt) : State :=
  if p.arr.isNone then
    match opOf s p with
    | some (.send id) => modCore s p.srcLcid fun k => modUn k fun u => { u with sent := u.sent.map fun o =>
        if o.msg.mid = id then { o with retried := true } else o }
    | _ => s
  else s

/-- R332: a packet of a port that has left service takes its new path; one that must wait does so beside the switch. A multicast's copy has no other
path (R341). -/
def movePkt (s : State) (k : Nat) (p : FPkt) : State :=
  if p.mcast then countNoRoute s 1
  else match switchPkt s k p with
  | some t => t
  | none => { s with gf := { s.gf with moved := s.gf.moved ++ [p] } }

/-- R332: everything queued for a port, and every unacknowledged packet with RESENT = 1, moves to the other ports. -/
def movePort (s : State) (k : Nat) : State :=
  let old := getPort s k
  let sent := (replayPkts old).map fun p => { p with resent := true }
  let bucket := (below 16).flatMap fun q => (shaperOf s k q).queue.map Prod.fst
  let wait := egressOf s k
  let s := modPort s k fun p => { settleMaps p with replay := [], used := [], owed := [], rxBuf := [], rxBad := [], nak := false, ctl := [] }
  let s := { s with gf := { s.gf with egress := tput [] s.gf.egress k [] } }
  let s := (below 16).foldl (fun s q => modShaper s k q fun h => { h with queue := [] }) s
  let s := sent.foldl noteResent s
  (sent ++ wait ++ bucket).foldl (fun s p => movePkt s k p) s

/-- R328: three failed attempts in a row put the port into DOWN. -/
def enterDown (s : State) (k : Nat) : State :=
  let s := modPort s k fun p => { p with
    st := 1, cause := sINTERNAL, attempts := 0, upFrom := none
    txSeq := 0, rxAck := 0xFFF }
  let s := raiseEv (portSignal s k) (portRpt 4 sINTERNAL 1 k 0x1F) (.gfPort (BitVec.ofNat 4 k))
  loseRoutes (movePort s k)

/-- R337: a port retired; a port already fused or retired is left alone (R457). -/
def retirePort (s : State) (k : Nat) : State :=
  if portGone s k then s
  else
    let p := getPort s k
    let s := modPort s k fun p => { p with st := 4, cause := sLINKRET, attempts := 0, upFrom := none }
    let s := loseRoutes (modPort (movePort (remapAll (portSignal s k)) k) k fun p => { p with jobs := [] })
    raise s { portRpt 14 sLINKRET 2 k 0x1F with d0 := wd p.peerDid.toNat, d1 := wd p.peerPort.toNat, action := 6 }

/-- R336: what becomes of a port whose lane has failed: one that carries nothing is only marked, a spare takes the place of one that carries a
logical lane or is on its way to; none without a spare. -/
def substituteLane (t : Nat) (p : Port) (phys : Nat) : Option Port :=
  let p := { p with failed := sIns p.failed phys }
  if p.jobs.any fun j => j.new == phys then
    match spareLane p with
    | some x =>
      some (dropMaps { p with jobs := p.jobs.map fun j =>
        if j.new = phys then { j with new := x, ready := t + spareTicks, seq := none, agreed := false } else j })
    | none => none
  else if p.jobs.any fun j => j.old == phys then some { p with jobs := p.jobs.map fun j => if j.old = phys then { j with retrain := none } else j }
  else if (logicalOf p phys).isNone then some p
  else (moveLane t p phys none).map (addJob p)

/-- Table 17.3, lane row: a spare lane for a failed one; none left, the port is retired. -/
def laneFailed (s : State) (k phys : Nat) : State :=
  if portGone s k || sHas (getPort s k).failed phys then s
  else match substituteLane (now s) (getPort s k) phys with
  | some p => raise (modPort s k fun _ => p) { portRpt 14 sOK 1 k phys with action := 2, d0 := wd phys }
  | none => retirePort s k

/-! ### Flits (R325 to R327) -/

/-- R323: a codeword with more than 15 symbol errors is uncorrectable. -/
def wordBad (c : FecWord) : Bool := decide (15 < c.errs)

/-- R323, R326, R327: a flit that is discarded as bad. -/
def flitBad (f : Flit) : Bool :=
  f.fec.any wordBad || f.typ == 3 || decide (crc32c (flitBytes f) ≠ f.crc.toNat) ||
    (f.typ == 2 && !(decide (1 ≤ (f.data.getD 0 0).toNat) && decide ((f.data.getD 0 0).toNat ≤ 3)))

/-- Corrected symbols of the last second on a lane above the rate of Table 17.3: 10^-5 of 21.25 × 10^9. -/
def fixRateLimit : Nat := 212500

/-- R323: one codeword with errors, counted and reported with the first flit that holds bits of it. -/
def fecOne (k : Nat) (s : State) (c : FecWord) : State :=
  let lane := c.lane.toNat
  if !c.first || c.errs = 0 then s
  else if wordBad c then
    let s := modPort s k fun p => { p with uncorr := BitVec.ofNat 16 (satAdd 16 p.uncorr.toNat 1) }
    raiseEv s { portRpt 4 sINTERNAL 1 k lane with d0 := wd lane } (.gfLane (BitVec.ofNat 4 k) lane)
  else
    let s := modPort s k fun p => { p with
      corrected := BitVec.ofNat 32 (satAdd 32 p.corrected.toNat c.errs)
      fixes := (p.fixes.filter fun x => now s < x.2.1 + 1000000) ++ [(lane, now s, c.errs)] }
    let s := raise s { portRpt 0 sOK 0 k lane with d0 := wd lane }
    let n := (((getPort s k).fixes.filter fun x => x.1 == lane).map fun x => x.2.2).sum
    if fixRateLimit < n then raiseEv s { portRpt 4 sINTERNAL 1 k lane with d0 := wd lane } (.gfRate (BitVec.ofNat 4 k) lane) else s

/-- R323: what FEC found in a flit. -/
def fecCount (s : State) (k : Nat) (f : Flit) : State := f.fec.foldl (fecOne k) s

/-- R327, R330: what a good flit's header returns: the flits up to ACK are released, credits come back, a NAK is counted and, where data may be
sent, the flits from ACK + 1 go again. -/
def takeAck (t : Nat) (data : Bool) (p : Port) (f : Flit) : Port :=
  let p := match p.replay.findIdx? fun x => x.seq == f.ack with
    | some i => { p with replay := p.replay.drop (i + 1), progress := t }
    | none => p
  let p := { p with used := tput 0 p.used f.cvc.toNat (tget 0 p.used f.cvc.toNat - f.credits.toNat) }
  if f.nak then
    { (if data then resendFrom p (f.ack + 1) else p) with
             retries := BitVec.ofNat 16 (satAdd 16 p.retries.toNat 1)
             replay := p.replay.map fun x => if x.seq = f.ack + 1 then { x with naks := x.naks + 1 } else x }
  else p

/-- R326: whole packets taken from the bytes received in order; a LENGTH outside 48 to 560 discards what is left. -/
def splitPkts : Nat → List Byte → List (List Byte) × List Byte
  | 0, b => ([], b)
  | n + 1, b =>
    if b.length < 16 then ([], b)
    else
      let len := fld (wd (leNat ((b.drop 8).take 8))) 34 10
      if len < 48 ∨ 560 < len then ([], [])
      else if b.length < len then ([], b)
      else
        let r := splitPkts n (b.drop len)
        (b.take len :: r.1, r.2)

/-- R336: an agreed lane map takes force with its switch-over flit. -/
def switchOver (p : Port) (seq : BitVec 12) : Port :=
  match p.pendMap with
  | some (i, x, n) => if n = seq then { setLane p i x with pendMap := none } else p
  | none => p

/-- The marks of packets that lie one after the other, each from its own first byte. -/
def splitMarks (bad : NatSet) : Nat → List (List Byte) → List (List Byte × NatSet)
  | _, [] => []
  | a, p :: r => (p, marksIn a p.length bad) :: splitMarks bad (a + p.length) r

/-- R327: a data flit in order is accepted: its packets reach the switch, poison with them (R226). -/
def acceptFlit (s : State) (k : Nat) (f : Flit) : State :=
  let p := switchOver (getPort s k) f.seq
  let got := (below (244 - f.pad.toNat)).map fun i => f.data.getD i 0
  let buf := p.rxBuf ++ got
  let bad := p.rxBad ++ (marksIn 0 got.length f.bad).map (p.rxBuf.length + ·)
  let r := splitPkts 16 buf
  let s := modPort s k fun _ => { p with rxAck := f.seq, rxBuf := r.2, rxBad := marksIn (buf.length - r.2.length) r.2.length bad, nak := false }
  let fs := (splitMarks bad 0 r.1).map fun q => parseFabric s (BitVec.ofNat 4 k) q.1 q.2
  { s with gf := { s.gf with inbox := tput [] s.gf.inbox k (tget [] s.gf.inbox k ++ fs) } }

/-- DATA_FLIT (R327): a flit received at a port that is UP. A port not released for data carries control flits only. A data flit, or a bad one, is
answered with the port's ACK or NAK; a data flit that is not the next one is discarded whole. -/
def doDataFlit (port : BitVec 4) (f : Flit) (s : State) : State :=
  let k := port.toNat
  if (getPort s k).st ≠ 3 then s
  else
    let s := if f.typ = 1 ∧ portUpFor s k = true then fireWake s 2 else s
    let s := fecCount s k f
    if flitBad f then sendAck (modPort s k fun p => { p with nak := true }) k
    else if f.typ = 1 then
      (if portUpFor s k = true then
        (if f.seq = (getPort s k).rxAck + 1 then pump (sendAck (acceptFlit (modPort s k fun p => takeAck (now s) true p f) k f) k) k
         else sendAck s k)
      else s)
    else pump (modPort s k fun p => takeAck (now s) (portUpFor s k) p f) k

/-- The port's own IDENT: it need not be repeated once the peer's has come, and answers one that comes after it (R326). -/
def answerIdent (s : State) (k : Nat) : State :=
  if (getPort s k).ctl.contains .ident then modPort s k fun p => { p with ctl := p.ctl.filter (· != .ident) }
  else modPort s k fun p => sendCtl p (ctlData s k .ident)

/-- IDENT (R326): the peer names itself; a trained port then enters UP. -/
def doIdent (port : BitVec 4) (did : Did) (valid : Bool) (peerPort : BitVec 4) (s : State) : State :=
  let k := port.toNat
  let p := getPort s k
  if p.st = 3 ∨ (p.st = 2 ∧ p.upFrom.isSome = true) then
    let s := answerIdent (modPort s k fun p => { p with known := true, peerOk := valid, peerDid := did, peerPort := peerPort }) k
    if p.st = 2 then enterUp s k
    else recheckPort s k
  else s

/-- A LANE_MAP at a port: the answer to its own first lane move, or a move of the peer's, which it answers (R326, R336; log entry 114, DESIGN
CHOICE). -/
def takeMap (s : State) (k i x : Nat) (seq : BitVec 12) : State :=
  let mine := match (getPort s k).jobs with | j :: _ => j.logical == i && j.new == x && j.seq == some seq | [] => false
  if mine then
    pump (modPort s k fun p => { dropMaps p with jobs := match p.jobs with | j :: r => { j with agreed := true } :: r | [] => [] }) k
  else modPort s k fun p => { sendCtl p (ctlData s k (.laneMap i x seq)) with pendMap := some (i, x, seq) }

/-- LANE_MAP (R336): the peer's new lane map, from the flit that it names, or its answer to one of this port. -/
def doLaneMap (port logical : BitVec 4) (physical : BitVec 5) (seq : BitVec 12) (s : State) : State :=
  let k := port.toNat
  if (getPort s k).st = 3 ∧ physical.toNat < 18 then takeMap s k logical.toNat physical.toNat seq else s

/-- The control flit RETRAIN sent, as a port leaves UP (R326): the port's own is repeated until the peer trains with it. -/
def sendRetrain (s : State) (k : Nat) (own : Bool) : State :=
  modPort s k fun p => sendCtl { p with ctl := if own then p.ctl ++ [.retrain] else p.ctl } (ctlData s k .retrain)

/-- RETRAIN (R328): at the peer's RETRAIN, or when a flit has been NAKed 16 times. -/
def doRetrain (port : BitVec 4) (byPeer : Bool) (s : State) : State :=
  let p := getPort s port.toNat
  if p.st = 3 ∧ (byPeer || p.replay.any fun f => decide (16 ≤ f.naks)) = true then enterTraining (sendRetrain s port.toNat !byPeer) port.toNat else s

/-- ACK_TIMEOUT (R328): flits outstanding for 100 µs with no advance of ACK. -/
def doAckTimeout (port : BitVec 4) (s : State) : State :=
  let p := getPort s port.toNat
  if p.st = 3 ∧ p.replay ≠ [] ∧ p.progress + 101 ≤ now s then enterTraining (sendRetrain s port.toNat true) port.toNat else s

/-- A port whose training has succeeded: the peer trains with it, which answers RETRAIN, and its IDENT goes out. -/
def trained (t : Nat) (p : Port) : Port := { p with upFrom := some t, ctl := p.ctl.filter (fun c => c != .ident && c != .retrain) ++ [.ident] }

/-- TRAINING_ATTEMPT_END (R328, R324): a trained port is UP once it knows its peer; an attempt that has not brought the port to UP within its 10 ms has
failed, and a third failure in a row ends in DOWN. -/
def doTrainingAttemptEnd (port : BitVec 4) (ok : Bool) (s : State) : State :=
  let k := port.toNat
  let p := getPort s k
  if p.st ≠ 2 then s
  else if ok then
    if p.upFrom.isSome then s
    else
      let s := sendCtls (modPort s k (trained (now s))) k
      if p.known then enterUp s k else s
  else if p.attempts < 2 then modPort s k fun p => { p with attempts := p.attempts + 1, upFrom := none, ctl := p.ctl.filter (· != .ident) }
  else enterDown s k

/-- PORT_TRAINING_RETRY (R553): each DOWN port trains again. -/
def doPortTrainingRetry (s : State) : State :=
  (below 16).foldl (fun s k =>
    if (getPort s k).st = 1 then modPort (portSignal s k) k fun p => { p with st := 2, attempts := 0, upFrom := none, known := false, txSeq := 0, rxAck := 0xFFF }
    else s) s

/-- R338: a retrain of a lane runs on a port. -/
def retrains (p : Port) : Bool := p.jobs.any fun j => j.retrain.isSome

/-- LANE_RETRAIN (R338): a write of GF_PORTk_LANES with RETRAIN = 1; `trained` is how the lane's own training will end. -/
def doLaneRetrain (port : BitVec 4) (w : Wr) (trained : Bool) (s : State) : State :=
  let k := port.toNat
  let v := halfBits w.half w.value
  let lane := fld v 56 5
  let go := bit v 63
  let job := moveLane (now s) (getPort s k) lane (some trained)
  gfWrite s w (0x108 + 0x20 * k) (decide (17 < lane))
    ((getPort s k).st != 0 && (!go || (job.isSome && !retrains (getPort s k)))) fun s =>
      match job with
      | some j => if go then modPort s k fun p => addJob p j else s
      | none => s

/-! ### Meanings -/

def execLaneRetrain (port : BitVec 4) (w : Wr) (trained : Bool) (s : State) : Out := .next (doLaneRetrain port w trained s)
def execDataFlit (port : BitVec 4) (f : Flit) (s : State) : Out := .next (doDataFlit port f s)
def execIdent (port : BitVec 4) (did : Did) (valid : Bool) (peerPort : BitVec 4) (s : State) : Out :=
  .next (doIdent port did valid peerPort s)
def execLaneMap (port logical : BitVec 4) (physical : BitVec 5) (seq : BitVec 12) (s : State) : Out :=
  .next (doLaneMap port logical physical seq s)
def execRetrain (port : BitVec 4) (byPeer : Bool) (s : State) : Out := .next (doRetrain port byPeer s)
def execAckTimeout (port : BitVec 4) (s : State) : Out := .next (doAckTimeout port s)
def execTrainingAttemptEnd (port : BitVec 4) (trained : Bool) (s : State) : Out := .next (doTrainingAttemptEnd port trained s)
def execPortTrainingRetry (s : State) : Out := .next (doPortTrainingRetry s)

end Sys2Proof.Machine
end

