-- ==== Sys2Proof/Machine/Xts.lean ====
section
/-! DEFINITION. AES-256-XTS, by which the stacks hold every data unit of 512 bytes (13_external_memory.md R355): the block cipher, the tweak of
a data unit, the ciphertext. The S-box is computed from its definition, so no table stands here. -/

namespace Sys2Proof.Machine

/-- A byte times x in the field of AES. -/
def timesX (b : Byte) : Byte := if b.toNat < 128 then b <<< 1 else (b <<< 1) ^^^ 0x1B

/-- The product of two bytes in the field of AES, over the bits of the second from the top. -/
def fieldMul (a b : Byte) : Byte :=
  (below 8).foldl (fun r i => timesX r ^^^ if bit (b.setWidth 64) (7 - i) then a else 0) 0

/-- The inverse of a byte in the field, zero's being zero: its power 254, the product of its powers 2, 4, …, 128. -/
def fieldInv (a : Byte) : Byte :=
  ((below 7).foldl (fun p _ => let sq := fieldMul p.1 p.1; (sq, fieldMul p.2 sq)) (a, (1 : Byte))).2

/-- SubBytes of one byte. -/
def subByte (a : Byte) : Byte :=
  let i := fieldInv a
  i ^^^ i.rotateLeft 1 ^^^ i.rotateLeft 2 ^^^ i.rotateLeft 3 ^^^ i.rotateLeft 4 ^^^ 0x63

/-- Bytes XORed pairwise. -/
def xorBytes (a b : List Byte) : List Byte := List.zipWith (· ^^^ ·) a b

/-- The next word of the key schedule, number `i` of a 256-bit key, from the words before it, newest first. -/
def nextKeyWord (i : Nat) (ws : List (List Byte)) : List Byte :=
  let last := ws.getD 0 []
  let mixed :=
    if i % 8 = 0 then xorBytes ((last.drop 1 ++ last.take 1).map subByte) [(below (i / 8 - 1)).foldl (fun r _ => timesX r) 1, 0, 0, 0]
    else if i % 8 = 4 then last.map subByte
    else last
  xorBytes (ws.getD 7 []) mixed

/-- The 15 round keys of a 32-byte key. -/
def roundKeys (key : List Byte) : List (List Byte) :=
  let first := ((below 8).map fun i => (key.drop (4 * i)).take 4).reverse
  let ws := ((upto 8 52).foldl (fun ws i => nextKeyWord i ws :: ws) first).reverse
  (below 15).map fun r => ((ws.drop (4 * r)).take 4).flatten

/-- ShiftRows: byte `r` of column `c` comes from column `c + r`. -/
def shiftRows (b : List Byte) : List Byte := (below 16).map fun n => b.getD ((n + 4 * (n % 4)) % 16) 0

/-- MixColumns: each byte from the four of its column. -/
def mixColumns (b : List Byte) : List Byte :=
  (below 16).map fun n =>
    let at' := fun k => b.getD (n / 4 * 4 + (n + k) % 4) 0
    timesX (at' 0) ^^^ timesX (at' 1) ^^^ at' 1 ^^^ at' 2 ^^^ at' 3

/-- AES-256 of one 16-byte block. -/
def aesBlock (keys : List (List Byte)) (block : List Byte) : List Byte :=
  let round := fun (b k : List Byte) => xorBytes (mixColumns (shiftRows (b.map subByte))) k
  let b := ((keys.drop 1).take 13).foldl round (xorBytes block (keys.getD 0 []))
  xorBytes (shiftRows (b.map subByte)) (keys.getD 14 [])

/-- The tweak of the next block of a data unit: times x in the field of 2^128 elements, little-endian. -/
def nextTweak (t : Nat) : Nat := if t < 2 ^ 127 then 2 * t else Nat.xor (2 * t % 2 ^ 128) 0x87

/-- XTS over the blocks of a data unit: the key of the data, the encrypted tweak, the blocks. -/
def xtsBlocks (keys : List (List Byte)) : Nat → Nat → List Byte → List Byte
  | 0, _, _ => []
  | n + 1, t, bs =>
    let tb := leBytes 16 t
    xorBytes (aesBlock keys (xorBytes (bs.take 16) tb)) tb ++ xtsBlocks keys n (nextTweak t) (bs.drop 16)

/-- R355: the tweak value of the data unit that holds an offset of a stack. -/
def unitTweak (t : BitVec 2) (off : Nat) : Nat := t.toNat * 2 ^ 27 + off / 512 % 2 ^ 27

/-- R355: the ciphertext of a data unit under a key of 64 bytes: the first half encrypts data, the second tweaks. -/
def xtsUnit (key : List Byte) (tweak : Nat) (plain : List Byte) : List Byte :=
  let t := leNat (aesBlock (roundKeys (key.drop 32)) (leBytes 16 tweak))
  xtsBlocks (roundKeys (key.take 32)) (plain.length / 16) t plain

end Sys2Proof.Machine
end

