-- ==== Sys2Proof/Machine/Ranges.lean ====
section
/-! DEFINITION. Partition ranges: creation, growth, removal, zero-fill; patrol scrub, row repair, pseudo-channel retirement
(13_external_memory.md R349 to R365). -/

namespace Sys2Proof.Machine

/-- Base of the HBM_ block. -/
def hbmBlk : Nat := 0x6000

/-- The RW bits of HBM_RANGEn (Table 13.3). -/
def rangeFields (v : Word) : Word := keepFields v [(63, 1), (57, 1), (55, 2), (40, 8), (32, 8)]

/-- The size that a range word stands for in units: that of a growth under way, if there is one. -/
def rangeUnits (s : State) (n : Nat) (w : Word) : Nat := max (fld w 40 8) (tget 0 s.hbm.grow n)

/-- HBM_RANGEn as it reads: SIZE as written, FILLING while a fill runs. -/
def rangeRead (s : State) (n : Nat) : Word :=
  let w := rangeWord s n
  putFld (putFld w 40 8 (rangeUnits s n w)) 61 1 (if (bit w 63 && !bit w 62) || tget 0 s.hbm.grow n != 0 then 1 else 0)

/-- The stacks that a range occupies (R351). -/
def rangeStacks (w : Word) : List Nat := if bit w 57 then [fld w 55 2] else below 4

/-- A range word that occupies a unit of another valid range (R354). -/
def overlaps (s : State) (n : Nat) (w : Word) : Bool :=
  (below 16).any fun m =>
    let v := rangeWord s m
    m != n && bit v 63 && ((rangeStacks w).any fun t => (rangeStacks v).contains t) &&
      decide (fld w 32 8 < fld v 32 8 + rangeUnits s m v) && decide (fld v 32 8 < fld w 32 8 + fld w 40 8)

/-- Table 13.3: a reserved value of HBM_RANGEn. -/
def rangeReserved (v : Word) : Bool :=
  (!bit v 57 && fld v 55 2 != 0) || (bit v 63 && (fld v 32 8 == 0 || fld v 40 8 == 0 || decide (191 < fld v 40 8)))

/-- R354: growth in place keeps VALID, MODE, STACK and BASE, and raises SIZE. -/
def growsFrom (s : State) (n : Nat) (v : Word) : Bool :=
  let w := rangeWord s n
  bit w 63 && bit v 63 && fld v 55 3 == fld w 55 3 && fld v 32 8 == fld w 32 8 && decide (rangeUnits s n w < fld v 40 8)

/-- R398: creation is rejected in BLANK, every range write in RETIRED; R412: no key is made while the TRNG fails. -/
def rangeAllowed (s : State) (creates : Bool) : Bool :=
  s.sec.life != .retired && (!creates || (s.sec.life != .blank && s.sec.trngOk))

/-- R354, R428: whether a write of HBM_RANGEn is a removal, a creation or a growth that can be. -/
def rangeCond (s : State) (n : Nat) (v : Word) : Bool :=
  let serve := (rangeStacks v).all fun t => (getStack s (BitVec.ofNat 2 t)).trained
  let fits := serve && decide (fld v 32 8 + fld v 40 8 ≤ 192) && !overlaps s n v
  let old := bit (rangeWord s n) 63
  if !bit v 63 then rangeAllowed s false
  else if !old then rangeAllowed s true && fits
  else rangeAllowed s false && growsFrom s n v && fits

/-- R354: a range removed: its key destroyed, its units free. -/
def removeRange (s : State) (n : Nat) (v : Word) : State :=
  { s with hbm := { s.hbm with
      ranges := tput 0 s.hbm.ranges n (wd (v.toNat % 2 ^ 63)), grow := tput 0 s.hbm.grow n 0, keys := tput [] s.hbm.keys n [] } }

/-- An accepted write of HBM_RANGEn (R354). -/
def applyRange (s : State) (n : Nat) (v : Word) : State :=
  if !bit v 63 then removeRange s n v
  else if !bit (rangeWord s n) 63 then
    let q := drawKey s
    { q.1 with hbm := { q.1.hbm with ranges := tput 0 s.hbm.ranges n v, keys := tput [] s.hbm.keys n q.2 } }
  else if bit (rangeWord s n) 62 then { s with hbm := { s.hbm with grow := tput 0 s.hbm.grow n (fld v 40 8) } }
  else { s with hbm := { s.hbm with ranges := tput 0 s.hbm.ranges n v } }

/-- R354, R396: who may write HBM_RANGEn: the Lookout, and PF0 unless the partition is locked against it. -/
def rangeWriter (s : State) (n w : Nat) : Bool := byPf0 w && (byLookout w || !tdiLocked s n)

/-- A write of HBM_RANGEn. A creation that arrives while the TRNG fails its health test raises a report as well (R412). -/
def rangeWrite (n : BitVec 4) (w : Wr) (s : State) : State :=
  let v := rangeFields (mergeHalf w.half (rangeRead s n.toNat) w.value)
  let starved := rangeWriter s n.toNat w.writer.toNat && !rangeReserved v && bit v 63 && !bit (rangeWord s n.toNat) 63 && !s.sec.trngOk
  let s := guardWrite s w.writer.toNat hbmBlk (hbmBlk + 8 * n.toNat) (rangeWriter s n.toNat w.writer.toNat) none
    (rangeReserved v) (rangeCond s n.toNat v) fun s => applyRange s n.toNat v
  if starved then raise s (rpt 13 sINTERNAL 2 5 0) else s

/-- R355, R356: the key under which a stack holds the data unit at an offset: the firmware key in unit 0, else that of the range that has the
unit; empty where no key is in force. -/
def unitKey (s : State) (t : BitVec 2) (off : Nat) : List Byte :=
  if off < 0x10000000 then s.hbm.fwKey
  else match firstThat (fun n =>
      let w := rangeWord s n
      bit w 63 && (rangeStacks w).contains t.toNat && decide (fld w 32 8 ≤ off / 0x10000000) &&
        decide (off / 0x10000000 < fld w 32 8 + rangeUnits s n w)) (below 16) with
    | some n => tget [] s.hbm.keys n
    | none => []

/-- R355: what a stack holds of the data unit at an offset; none where its key has been destroyed, since nothing then tells it. -/
def stackCipher (s : State) (t : BitVec 2) (off : Nat) : Option (List Byte) :=
  let k := unitKey s t off
  if k.isEmpty then none
  else some (xtsUnit k (unitTweak t off) (rdBytes (getStack s t).mem (off / 512 * 512) 512))

/-- RANGE_CREATION (R354): VALID written 1 from 0. -/
def doRangeCreation (n : BitVec 4) (w : Wr) (s : State) : State := rangeWrite n w s

/-- RANGE_REMOVAL (R354): VALID written 0. -/
def doRangeRemoval (n : BitVec 4) (w : Wr) (s : State) : State := rangeWrite n w s

/-- RANGE_GROWTH (R354): SIZE raised in place. -/
def doRangeGrowth (n : BitVec 4) (w : Wr) (s : State) : State := rangeWrite n w s

/-- Stack bytes of units `u` to `u + n - 1` written zero, which removes their poison marks (R354, R362). -/
def zeroUnits (k : Stack) (u n : Nat) : Stack :=
  let lo := u * 0x10000000
  let hi := (u + n) * 0x10000000
  { k with mem := k.mem.filter fun p => p.1 < lo || hi ≤ p.1, bad := k.bad.filter fun g => g * 64 < lo || hi ≤ g * 64 }

/-- Units of a range zero-filled on every stack that it occupies. -/
def fillUnits (s : State) (w : Word) (u n : Nat) : State :=
  (rangeStacks w).foldl (fun s t => modStack s (BitVec.ofNat 2 t) fun k => zeroUnits k u n) s

/-- RANGE_FILL_COMPLETE (R354): the fill of a creation sets READY; that of a growth raises the size in force. -/
def doRangeFillComplete (n : BitVec 4) (s : State) : State :=
  let w := rangeWord s n.toNat
  let g := tget 0 s.hbm.grow n.toNat
  if !bit w 63 then s
  else if !bit w 62 then
    let s := fillUnits s w (fld w 32 8) (fld w 40 8)
    { s with hbm := { s.hbm with ranges := tput 0 s.hbm.ranges n.toNat (putFld w 62 1 1) } }
  else if g = 0 then s
  else
    let s := fillUnits s w (fld w 32 8 + fld w 40 8) (g - fld w 40 8)
    { s with hbm := { s.hbm with ranges := tput 0 s.hbm.ranges n.toNat (putFld w 40 8 g), grow := tput 0 s.hbm.grow n.toNat 0 } }

/-- R363, R454: a row repaired with a spare of its pseudo-channel, its contents and marks kept and its counts begun again; with none
left, NO_SPARE and a report. Whether a repair was made is answered. -/
def repairRow (s : State) (t : BitVec 2) (ch row : Nat) : State × Bool :=
  let k := getStack s t
  let used := tget 0 k.repaired ch
  if used < Config.hbmSpareRows then
    let s := modStack s t fun k => { k with repaired := tput 0 k.repaired ch (used + 1), rows := BitVec.ofNat 16 (satAdd 16 k.rows.toNat 1) }
    (forgetEv s fun e => e == .hbmRow t ch row, true)
  else
    let s := modStack s t fun k => { k with noSpare := true }
    (raise s (rpt 14 sOK 1 1 (hbmPsid t ch row)), false)

/-- Whether a pseudo-channel holds one of `n` granules of a stack from granule `a` on. -/
def channelHolds (t : BitVec 2) (ch a : Nat) : Nat → Bool
  | 0 => false
  | n + 1 => (Config.hbmChannel t (a + n)).toNat == ch || channelHolds t ch a n

/-- Granules of a unit of 256 MiB. -/
def unitGranules : Nat := 0x400000

/-- The valid ranges with addresses in a pseudo-channel, as a mask; bit 16 is the firmware range, unit 0 of the stack (R356). -/
def rangesOn (s : State) (t : BitVec 2) (ch : Nat) : Nat :=
  let holds := fun (n : Nat) =>
    let w := rangeWord s n
    bit w 63 && (rangeStacks w).contains t.toNat && channelHolds t ch (fld w 32 8 * unitGranules) (rangeUnits s n w * unitGranules)
  ((below 16).map fun n => bitAt (holds n) n).sum + bitAt (channelHolds t ch 0 unitGranules) 16

/-- R364: a pseudo-channel retired; the report names the ranges with addresses in it, as a mask. -/
def retireChannel (s : State) (t : BitVec 2) (ch : Nat) : State :=
  if bit (getStack s t).retired ch then s
  else
    let s := modStack s t fun k => { k with retired := putFld k.retired ch 1 1 }
    raise s { rpt 14 sOK 2 1 (hbmPsid t ch 0) with action := 6, d0 := wd ch, d1 := wd (rangesOn s t ch) }

/-- PATROL_SCRUB (R363): the granules read, with the errors that they meet. -/
def doPatrolScrub (t : BitVec 2) (first granules : Nat) (upsets : List Upset) (s : State) : State :=
  if hbmServes s t then
    (upsets.filter fun u => first ≤ u.at' && u.at' < first + granules).foldl (fun s u => hbmUpset s t u) s
  else s

/-! ### Meanings -/

def execPatrolScrub (t : BitVec 2) (first granules : Nat) (upsets : List Upset) (s : State) : Out :=
  .next (doPatrolScrub t first granules upsets s)
def execRangeCreation (n : BitVec 4) (w : Wr) (s : State) : Out := .next (doRangeCreation n w s)
def execRangeRemoval (n : BitVec 4) (w : Wr) (s : State) : Out := .next (doRangeRemoval n w s)
def execRangeGrowth (n : BitVec 4) (w : Wr) (s : State) : Out := .next (doRangeGrowth n w s)
def execRangeFillComplete (n : BitVec 4) (s : State) : Out := .next (doRangeFillComplete n s)

end Sys2Proof.Machine
end

