-- ==== Sys2Proof/Machine/Agent.lean ====
section
/-! DEFINITION. The local fault agent, hardware faults of a site's units, the scratchpad scrubber (17_faults.md R454 to R457, R465,
01_anatomy.md R16 to R18, 08_scratchpad.md R227 to R229). -/

namespace Sys2Proof.Machine

/-- The ACTION of an open or closed record set. -/
def markAction (s : State) (i seq action : Nat) : State :=
  let f := fun (e : LogEnt) => if e.seq = seq then { e with r := { e.r with action := BitVec.ofNat 8 action } } else e
  modComb s i fun c => { c with die := c.die.map f, spill := c.spill.map f }

/-- The position that the site of a PSID serves is held for recovery. -/
def heldSeat (s : State) (p : BitVec 24) : Option Lcid :=
  match servedBy (getGrove s (psidDg p)) (psidSite p) with
  | some n => if (getCore s (lcidOf (psidDg p) n)).recHold then some (lcidOf (psidDg p) n) else none
  | none => none

/-- R488: a transient fault of a site: the position that waits for recovery replays on it. -/
def replayHeld (s : State) (p : BitVec 24) : State := match heldSeat s p with | some l => replaySame s l | none => s

/-- The routers at the ends of a mesh link, by the receiving router and its input port. -/
def linkEnds (dg : Dg) (port : Nat) : List Dg := if port < 4 then dg :: (neighbour dg port).toList else [dg]

/-- Table 17.3: a burst of uncorrectable words on a mesh link: both end routers are to be swept; the fourth burst within 24 h blazes the
receiving router. -/
def actBurst (s : State) (dg : Dg) (port : Nat) : State × Nat :=
  let s := countEv (forgetEv s fun e => e == .meshLink dg port) (.meshBurst dg port)
  if permanent s.errs.events (now s) (.meshBurst dg port) then (blazeRouter s dg 24, 5)
  else ({ s with check := { s.check with owed := s.check.owed ++ (linkEnds dg port).map fun d => psidOf d 24 7 0xFF } }, 0)

/-- Table 17.3: what the agent does for a counted event, and the ACTION that its record gets. -/
def actEvent (s : State) (e : Ev) (perm : Bool) : State × Nat :=
  match e, perm with
  | .spRow l b r, true => (spareRow s l b r, if bankSpares (getCore s l).sp b < 8 then 2 else 0)
  | .spBank l _ _, true => (loseSlice s l, 4)
  | .accWord p, true => actSite s (.accWord p)
  | .internal p, true => actSite s (.internal p)
  | .column p, true => actSite s (.column p)
  | .lane p, true => actSite s (.lane p)
  | .region r, true => ((regionGroves r).foldl blazeGrove s, 5)
  | .gfLane k n, true => let s := laneFailed s k.toNat n; (s, if portGone s k.toNat then 6 else 2)
  | .gfRate k n, true => let s := laneFailed s k.toNat n; (s, if portGone s k.toNat then 6 else 2)
  | .gfPort k, true => (retirePort s k.toNat, 6)
  | .hbmRow t ch row, true =>
    let q := repairRow s t ch row
    if q.2 then (raise q.1 { rpt 14 sOK 1 1 (hbmPsid t ch row) with action := 2 }, 2) else (q.1, 0)
  | .hbmChan t ch _, true => (retireChannel s t ch, 6)
  | .twin _, _ => (s, 0)
  | .meshLink dg port, true => actBurst s dg port
  | .meshBurst _ _, true => (s, 0)
  | .accWord p, false => (replayHeld s p, 0)
  | .internal p, false => (replayHeld s p, 1)
  | .column p, false => (replayHeld s p, 1)
  | .lane p, false => (replayHeld s p, 1)
  | _, false => (s, 0)

/-- One event of a record acted on. -/
def actOne (i seq : Nat) (s : State) (e : Ev × Bool × Word) : State :=
  let q := actEvent s e.1 e.2.1
  if q.2 = 0 then q.1 else markAction q.1 i seq q.2

/-- R23: a record whose site faults have their turn: none of the same grove comes before, in the log or on its way to it. -/
def inTurn (s : State) (e : LogEnt) : Bool :=
  e.evs.all fun v => match evSite v.1 with
    | some p => !v.2.1 || (unserved s (psidDg p)).all fun f => match evSite f.1 with
      | some q => decide (faultTurn s p v.2.2 ≤ faultTurn s q f.2)
      | none => true
    | none => true

/-- FAULT_AGENT_ACTION (R465): the events of a record, in order, once each (R457); one whose turn for a spare has not come waits (R23), and all
do in the gap of a handoff (R525). The recovery
of a site covers the grove's other sites that have failed by then (R489). -/
def doFaultAgentAction (i : BitVec 2) (seq : BitVec 32) (s : State) : State :=
  let c := getComb s i.toNat
  match firstThat (fun (e : LogEnt) => e.seq % 2 ^ 32 == seq.toNat && !e.evs.isEmpty) (c.spill ++ c.die) with
  | none => s
  | some e =>
    if !inTurn s e || gapOpen s then s else
    let clear := fun (x : LogEnt) => if x.seq = e.seq then { x with evs := [] } else x
    let s := modComb s i.toNat fun c => { c with die := c.die.map clear, spill := c.spill.map clear }
    let act := fun s => e.evs.foldl (actOne i.toNat e.seq) s
    match e.evs.filterMap (fun v => if v.2.1 then evSite v.1 else none) with
    | p :: _ => oneRecovery s (psidDg p) fun s => serveEarlier (act s) (psidDg p)
    | [] => act s

/-- The engine code of a PSID (Table 01.5). -/
def engineCode : SiteEngine → Nat
  | .scalar => 0
  | .queue => 3
  | .haul => 4
  | .brand => 5

/-- UNIT of a fault record (Table 06.6). -/
def engineUnit : SiteEngine → Nat
  | .scalar => 0
  | .queue => 3
  | .haul => 5
  | .brand => 6

/-- R179, R182: the fault entry of the context whose operation the fault met, if any, with the PSID of the site as DETAIL. Table 06.8 says so of the
scalar unit, the Mill and the VE; of the queue, haul and brand units the spec is silent, and theirs holds the same, IMPRECISE 0 and the pc as it
stands (log entry 140, DESIGN CHOICE). -/
def internalEntry (s : State) (l : Lcid) (engine : SiteEngine) (psid : BitVec 24) : Option CtxNo → State
  | some c => faultCtx s l c sINTERNAL false (engineUnit engine) (ctxOf s l c).pc (wd psid.toNat)
  | none => s

/-- CORE_INTERNAL_FAULT (R18, R181): the context concerned enters FAULTED, every context of the core is held for recovery; the fault is
reported and counted. -/
def doCoreInternalFault (l : Lcid) (f : SiteFault) (s : State) : State :=
  if !(occupied s l && siteThere s l f.twin) then s
  else
    let site := sitePsid s l f.twin 7
    let r := rptCore s l { rpt 2 sINTERNAL 1 0 (sitePsid s l f.twin (engineCode f.engine)) with d0 := wd site.toNat }
    raiseEv (modCore (internalEntry s l f.engine site f.ctx) l recoveryHold) r (.internal site)

/-- R20, R22: a position that has a slice at work: that of a vacant position works on. -/
def sliceWorks (s : State) (l : Lcid) : Bool := !fusedCore s l && !sHas (getGrove s (dgOf l)).lost (posOf l)

/-- SCRUB_STEP (R223, R227): the scrubber reads the slot that it is at and goes on to the next. The errors given are those that this read
meets, and those that other reads of the slice have met since the last step (log entry 104, DESIGN CHOICE). -/
def doScrubStep (l : Lcid) (upsets : List Upset) (s : State) : State :=
  if !sliceWorks s l || asleep s then s
  else
    let s := upsets.foldl (fun s u => slUpset s l u) s
    modCore s l fun k => modSp k fun sl => { sl with scrub := (sl.scrub % 16384 + 1) % 16384 }

/-! ### Meanings -/

def execFaultAgentAction (i : BitVec 2) (seq : BitVec 32) (s : State) : Out := .next (doFaultAgentAction i seq s)
def execCoreInternalFault (l : Lcid) (engine : SiteFault) (s : State) : Out :=
  .next (awake (doCoreInternalFault l engine) s)
def execScrubStep (l : Lcid) (upsets : List Upset) (s : State) : Out := .next (doScrubStep l upsets s)

end Sys2Proof.Machine
end

