-- ==== Sys2Proof/Machine/Brand.lean ====
section
/-! DEFINITION. Brands: BROPEN, BRHASH, BRSEAL and the brand unit's queue (19_checking.md R515 to R520). -/

namespace Sys2Proof.Machine

/-- Bytes of a Brand state (R515). -/
def brandBytes : Nat := 17024

/-- Codes of STATE (Table 19.7). -/
def brOpen : Nat := 1
def brSealing : Nat := 2
def brSealed : Nat := 3
def brFailed : Nat := 4

/-- Address of a part in a Brand state (Table 19.7). -/
def brandPart (a p : Nat) : Nat := a + 512 + 5504 * p

/-- R515: the fault that GX gives, with the state's address. -/
def brandAddr (gx : Word) : Status ⊕ Nat :=
  if fld gx 0 7 ≠ 0 then .inl sALIGN
  else match ownOff gx with
  | some a => if sliceBytes < a + brandBytes then .inl sBOUNDS else .inr a
  | none => .inl sBOUNDS

/-- STATE of a Brand. -/
def brandState (sl : Slice) (a : Nat) : Nat := (rdByte sl.mem a).toNat

/-- A Brand's STATE and STATUS written. -/
def setBrand (sl : Slice) (a st status : Nat) : Slice := slPut sl a [BitVec.ofNat 8 st, BitVec.ofNat 8 status]

/-- R516: the header of a new Brand before its CLAIM, which the program alone writes. -/
def brandHead (s : State) (l : Lcid) (c : CtxNo) : List Byte :=
  [BitVec.ofNat 8 brOpen, 0] ++ leBytes 2 c.toNat ++ leBytes 4 0 ++ leBytes 4 (tget 0 s.check.fast (corePart s l).toNat) ++
  leBytes 4 0 ++ leBytes 8 (timeWord s).toNat

/-- R516: the header of a new Brand written around its CLAIM, with the reserved bytes of Table 19.7; RECORD stays as it is. -/
def openBrand (s : State) (l : Lcid) (c : CtxNo) (sl : Slice) (a : Nat) : Slice :=
  let sl := slPut (slPut sl a (brandHead s l c)) (a + 56) (leBytes 8 (getCore s l).ring.gen.toNat ++ List.replicate 64 0)
  slPut sl (a + 464) (List.replicate 48 0)

/-- BROPEN (R516). -/
def doBropen (l : Lcid) (c : CtxNo) (b : BitVec 54) (s : State) : State :=
  issue s l c 0x308 b 6 (onlyFields b [(46, 4)]) anyRoom fun s =>
    let gx := gAt (ctxOf s l c) b 46
    match brandAddr gx with
    | .inl st => precise s l c st 6 gx
    | .inr a =>
      let s := modCore s l fun k => modSp k fun sl =>
        let sl := openBrand s l c sl a
        (below 3).foldl (fun sl p => slPut sl (brandPart a p) (List.replicate 5504 0)) sl
      advance s l c

/-- R515: a BRHASH or BRSEAL whose GX names a state that is neither OPEN nor FAILED. A state whose header is poisoned is found out by the unit,
not at issue (Table 07.14, Table 08.2). -/
def brandIssue (s : State) (l : Lcid) (c : CtxNo) (gx : Word) (go : Nat → State) : State :=
  match brandAddr gx with
  | .inl st => precise s l c st 6 gx
  | .inr a =>
    let sl := (getCore s l).sp
    if (poisonAt sl a 1).isSome ∨ brandState sl a = brOpen ∨ brandState sl a = brFailed then go a else precise s l c sBOUNDS 6 gx

/-! ### Hashing (R516, R517) -/

/-- R516, R259: the first check of a haul source that the data fails. -/
def brandFault (s : State) (l : Lcid) (w : Word) (n : Nat) : Option Status :=
  let p := partOf s (dgOf l)
  match addrOf w with
  | none => some sBOUNDS
  | some a =>
    if !inSpace s p a n || decide (2 ^ 32 < n) then some sBOUNDS
    else if !mayReach s p a then some sPERM
    else if vacantAddr s a || cutOff s (dgOf l) a then some sVACANT
    else match farDid s a with
      | some d => if hasRoute s d then none else some sNOROUTE
      | none => none

/-- What the data of a BRHASH turns out to be: not here yet, a failure, or its bytes. -/
inductive BrandData where
  | wait
  | fail (st : Status)
  | bytes (l : List Byte)
deriving DecidableEq, Repr

/-- The data that an address names; another device's is the command's operand. -/
def brandData (s : State) (l : Lcid) (w : Word) (n : Nat) (remote : RemoteRead) : BrandData :=
  match brandFault s l w n with
  | some st => .fail st
  | none =>
    let give := fun (r : List Byte × NatSet) => if r.2.isEmpty then BrandData.bytes r.1 else .fail sPOISON
    match addrOf w with
    | none => .fail sBOUNDS
    | some a => match place s l (corePart s l) a with
      | .slice t off => give (slFetch (getCore s t).sp off n)
      | .hbm p off => give (hbmFetch s p off n)
      | .remote _ _ _ => match remote with
        | .none => .wait
        | .lost => .fail sLOST
        | .bytes d bad => if d.length < n then .wait else give (d.take n, bad.filter (· < n))

/-- A part of a Brand: bytes so far, the digests of whole subtrees, newest first, and the partial leaf. -/
structure BrandPart where
  n     : Nat
  trees : List (List Byte)
  leaf  : List Byte
deriving DecidableEq, Repr

/-- A part read from its area (Table 19.7). -/
def readPart (sl : Slice) (a : Nat) : BrandPart :=
  let n := rdNum sl.mem a 8
  let d := rdNum sl.mem (a + 8) 8
  ⟨n, ((below (min d 40)).map fun i => rdBytes sl.mem (a + 128 + 32 * i) 32).reverse, rdBytes sl.mem (a + 1408) (n % 4096)⟩

/-- The bytes of a part's area. -/
def partBytes (p : BrandPart) : List Byte :=
  leBytes 8 p.n ++ leBytes 8 p.trees.length ++ List.replicate 112 0 ++ p.trees.reverse.flatten ++
  List.replicate (1280 - 32 * p.trees.length) 0 ++ p.leaf ++ List.replicate (4096 - p.leaf.length) 0

/-- R517: bytes appended; each whole leaf is hashed and takes its place in the tree. -/
def feedPart : Nat → BrandPart → List Byte → BrandPart
  | 0, p, _ => p
  | f + 1, p, bs =>
    let room := 4096 - p.leaf.length
    if bs.length < room then { p with n := p.n + bs.length, leaf := p.leaf ++ bs }
    else
      let leaf := p.leaf ++ bs.take room
      feedPart f ⟨p.n + room, pushLeaf 64 (p.n / 4096) p.trees (leafDigest leaf), []⟩ (bs.drop room)

/-- R517: the digest of a part's stream. -/
def partDigest (p : BrandPart) : List Byte :=
  if p.n = 0 then leafDigest []
  else if p.leaf.isEmpty then foldTree p.trees
  else foldTree (leafDigest p.leaf :: p.trees)

/-- A Brand state failed (R516). -/
def failBrand (s : State) (l : Lcid) (a : Nat) (st : Status) : State :=
  modCore s l fun k => modSp k fun sl => setBrand sl a brFailed st.toNat

/-! ### The record (R518, R519) -/

/-- R224, R225: what a seal reads, or writes only in part, meets a poisoned chunk: the parts, or the end of RECORD. -/
def sealPoison (sl : Slice) (a : Nat) : Bool :=
  ((below 3).any fun p => (poisonAt sl (brandPart a p) 5504).isSome) || (partFail sl (a + 128) 336).isSome

/-- R518: the status of a seal; POISON where it would read a poisoned chunk (Table 08.2). -/
def sealStatus (s : State) (l : Lcid) (a : Nat) : Status :=
  let k := getCore s l
  if (poisonAt k.sp a 128).isSome then sPOISON
  else if slWord k.sp (a + 56) ≠ k.ring.gen then sREPLAY
  else if brandState k.sp a = brFailed then rdByte k.sp.mem (a + 1)
  else if s.sec.life = .blank ∨ s.sec.life = .retired then sPERM
  else if sealPoison k.sp a then sPOISON
  else sOK

/-- The groves of a partition. -/
def partGroves (s : State) (n : BitVec 4) : List Dg := ((below 256).map (BitVec.ofNat 8)).filter fun d => partOf s d == some n

/-- A digest of 48 bytes, zero when there is none. -/
def digest48 (l : List Byte) : List Byte := (below 48).map fun i => l.getD i 0

/-- Bytes 0 to 239 of a Brand record (Table 19.8). -/
def brandRecord (s : State) (l : Lcid) (a : Nat) : List Byte :=
  let k := getCore s l
  let part := corePart s l
  let mode := if rdNum k.sp.mem (a + 8) 4 = tget 0 s.check.fast part.toNat then 1 else 0
  let twin := (partGroves s part).all fun d => sHas s.check.twinNow d.toNat
  let ps := (below 3).map fun p => readPart k.sp (brandPart a p)
  [0x42, 0x52, 0x56, 0x42, 0x01, BitVec.ofNat 8 mode, BitVec.ofNat 8 (bitAt twin 0 + bitAt (hasDid s) 1), BitVec.ofNat 8 part.toNat] ++
  leBytes 8 (eqkey s mode).toNat ++ leBytes 2 (if hasDid s then (ownDid s).toNat else 0) ++ leBytes 2 l.toNat ++ leBytes 4 0 ++
  rdBytes k.sp.mem (a + 16) 8 ++ leBytes 8 (timeWord s).toNat ++ (ps.flatMap fun p => leBytes 8 p.n) ++ ps.flatMap partDigest ++
  rdBytes k.sp.mem (a + 24) 32 ++ digest48 (tget [] s.sec.measP part.toNat)

/-- R518: a BRSEAL at the front of the queue, after every earlier BRHASH: one that succeeds sets STATE to SEALING and passes its record on. -/
def beginSeal (s : State) (l : Lcid) : State :=
  match (getCore s l).eng.brandq with
  | ⟨c, a, .seal tag cq none⟩ :: r =>
    if sealStatus s l a = sOK then
      let q : BrandOp := ⟨c, a, .seal tag cq (some (brandRecord s l a))⟩
      modCore s l fun k => modEng (modSp k fun sl => setBrand sl a brSealing 0) fun e => { e with brandq := q :: r }
    else s
  | _ => s

/-! ### The queue -/

/-- A brand operation that enters the queue (R516). -/
def pushBrand (s : State) (l : Lcid) (o : BrandOp) : State :=
  beginSeal (modCore s l fun k => modEng k fun e => { e with brandq := e.brandq ++ [o] }) l

/-- The front operation of the brand unit gone. -/
def popBrand (s : State) (l : Lcid) : State :=
  beginSeal (modCore s l fun k => modEng k fun e => { e with brandq := e.brandq.drop 1 }) l

/-- BRHASH (R516). -/
def doBrhash (l : Lcid) (c : CtxNo) (b : BitVec 54) (s : State) : State :=
  issue s l c 0x309 b 6 (onlyFields b [(46, 4), (42, 4), (38, 4), (20, 2)] && fld b 20 2 != 3) haulRoom fun s =>
    let x := ctxOf s l c
    brandIssue s l c (gAt x b 46) fun a =>
      pushBrand (advance s l c) l ⟨c, a, .hash (gAt x b 42) (gAt x b 38).toNat (fld b 20 2)⟩

/-- BRSEAL (R518). -/
def doBrseal (l : Lcid) (c : CtxNo) (b : BitVec 54) (s : State) : State :=
  issue s l c 0x30A b 6 (onlyFields b [(46, 4), (22, 16), (0, 6)]) haulRoom fun s =>
    brandIssue s l c (gAt (ctxOf s l c) b 46) fun a =>
      let s := modCore (advance s l c) l fun k => feedQueue k (fld b 0 6) (senderWord s l c)
      pushBrand s l ⟨c, a, .seal (BitVec.ofNat 16 (fld b 22 16)) (BitVec.ofNat 6 (fld b 0 6)) none⟩

/-- BRAND_HASH_COMPLETE (R516): the front BRHASH takes its data, or fails its state. -/
def doBrandHashComplete (l : Lcid) (remote : RemoteRead) (s : State) : State :=
  if !occupied s l then s
  else match (getCore s l).eng.brandq with
  | ⟨c, a, .hash w n p⟩ :: _ =>
    let sl := (getCore s l).sp
    let finish' := fun s => settle (popBrand s l) l c
    if (poisonAt sl a 1).isSome ∨ brandState sl a ≠ brOpen then finish' s
    else match brandData s l w n remote with
      | .wait => s
      | .fail st => finish' (failBrand s l a st)
      | .bytes bs =>
        if (poisonAt sl (brandPart a p) 5504).isSome then finish' (failBrand s l a sPOISON)
        else
          let q := feedPart (n / 4096 + 2) (readPart sl (brandPart a p)) bs
          finish' (modCore s l fun k => modSp k fun sl => slPut sl (brandPart a p) (partBytes q))
  | _ => s

/-- The attestation signature of a message, as 96 bytes. -/
def sig96 (s : State) (m : List Byte) : List Byte :=
  let r := Config.attestSign s.sec.secret Config.romHash s.sec.meas2 m
  (below 96).map fun i => r.getD i 0

/-- What a BRSEAL that completes writes: the record signed when it began; one that could not begin has its status (R518). A chunk that has become
poisoned since fails it (R225). -/
def sealOut (s : State) (l : Lcid) (a : Nat) (rec : Option (List Byte)) : Status × List Byte :=
  let sl := (getCore s l).sp
  match rec with
  | some r => (if (poisonAt sl a 128).isSome || (partFail sl (a + 128) 336).isSome then sPOISON else sOK, r)
  | none => (sealStatus s l a, brandRecord s l a)

/-- BRAND_SEAL_COMPLETE (R518): the front BRSEAL writes its signed record, or fails; its completion is written. -/
def doBrandSealComplete (l : Lcid) (s : State) : State :=
  if !occupied s l then s
  else match (getCore s l).eng.brandq with
  | ⟨c, a, .seal tag cq rec⟩ :: _ =>
    let (st, r) := sealOut s l a rec
    let s := if st = sOK then
        modCore s l fun k => modSp k fun sl => setBrand (slPut sl (a + 128) (r ++ sig96 s r)) a brSealed 0
      else failBrand s l a st
    settle (postEntry (popBrand s l) l cq.toNat (complWords s st 6 tag.toNat 0 0 (wd (a + 128)) none)) l c
  | _ => s

/-! ### Meanings -/

def execBropen (l : Lcid) (c : CtxNo) (b : BitVec 54) (s : State) : Out := .next (doBropen l c b s)
def execBrhash (l : Lcid) (c : CtxNo) (b : BitVec 54) (s : State) : Out := .next (doBrhash l c b s)
def execBrseal (l : Lcid) (c : CtxNo) (b : BitVec 54) (s : State) : Out := .next (doBrseal l c b s)
def execBrandHashComplete (l : Lcid) (remote : RemoteRead) (s : State) : Out := .next (awake (doBrandHashComplete l remote) s)
def execBrandSealComplete (l : Lcid) (s : State) : Out := .next (awake (doBrandSealComplete l) s)

end Sys2Proof.Machine
end

