-- ==== Sys2Proof/Machine/Control.lean ====
section
/-! DEFINITION. Core control: context commands, CORE_CTRL, roles, resets of cores, groves and Stands, sync object configuration,
partition assignment (06_core_and_contexts.md R174 to R186, 18_hangs_rings_resets.md R492 to R494, 09 R270, 15 R415, 22 R562). -/

namespace Sys2Proof.Machine

/-! ### CORE_CTX_CMD (R185) -/

/-- CMD_REJECTED set. -/
def rejectCmd (k : Core) : Core := { k with rejected := true }

/-- Table 06.13: whether a command is accepted in the conditions of its core; none is under the recovery hold (R489). -/
def cmdOk (k : Core) (code : Nat) (pc : Nat) : Bool :=
  let x := getCtx k k.ctxSel
  !k.recHold && match code with
  | 1 => x.st = .ready || x.st = .waiting || x.st = .parked || x.st = .faulted
  | 2 => x.st = .held && !x.byRec && !bit k.ctrl 1
  | 3 => x.st = .held || x.st = .faulted
  | 4 => x.st = .free && mayStart k && pc % 8 == 0
  | 5 => quietCore k
  | _ => true

/-- The contexts of a core that are HELD or FAULTED. -/
def heldOrFaulted (k : Core) : List CtxNo :=
  (k.ctxs.filter fun p => p.2.st = .held || p.2.st = .faulted).map fun p => BitVec.ofNat 9 p.1

/-- An accepted command. -/
def runCmd (s : State) (l : Lcid) (code pc : Nat) : State :=
  let k := getCore s l
  let c := k.ctxSel
  match code with
  | 1 => modCtxOf s l c fun x => holdCtx x false
  | 2 => modCtxOf s l c releaseCtx
  | 3 => freeCtx s l c
  | 4 => setCore s l (startCtx k c (BitVec.ofNat 21 pc) 0 0 0 2 0 .none)
  | 5 => (heldOrFaulted k).foldl (fun s c => freeCtx s l c) s
  | _ => s

/-- A write of CORE_CTX_CMD with a command code (Table 06.12); a START at a position that a scheduled sweep uses waits for its end (R500). -/
def ctxCmd (code : Nat) (l : Lcid) (w : Wr) (s : State) : State :=
  let pc := fld (mergeHalf w.half 0 w.value) 32 21
  coreSet s l w 0x58 (decide (6 ≤ code)) true fun s =>
    if code == 4 && sweptPos s l then
      { s with check := { s.check with starts := s.check.starts ++ [(l, (getCore s l).ctxSel, BitVec.ofNat 21 pc)] } }
    else if cmdOk (getCore s l) code pc then runCmd s l code pc else modCore s l rejectCmd

/-! ### CORE_CTRL and CORE_ROLE -/

/-- The bits of CORE_CTRL. -/
def ctrlBits (v : Word) : Word := keepFields v [(28, 1), (16, 12), (1, 1), (0, 1)]

/-- CORE_CTRL written: under the recovery hold no context changes (R486). -/
def setCtrl (k : Core) (v : Word) : Core :=
  let was := bit k.ctrl 1
  let k := { k with ctrl := v }
  if k.recHold then k
  else if bit v 1 then mapCtxs k fun x => holdCtx x false
  else if was then mapCtxs k fun x => if x.byRec then x else releaseCtx x
  else k

/-- HOLD_ALL (R164, Table 06.11). -/
def doHoldAll (l : Lcid) (w : Wr) (s : State) : State :=
  coreSet s l w 0 false true fun s => modCore s l fun k => setCtrl k (ctrlBits (mergeHalf w.half k.ctrl w.value))

/-- R174: the epoch after a role write. -/
def nextEpoch (e : Nat) : Nat := if e = 0xFFFF then 1 else e + 1

/-- Every message that waits at a core bounced (R175, R494): held, or placed and not started. -/
def bounceWaiting (s : State) (l : Lcid) (st : Status) : State :=
  let u := (getCore s l).un
  let placed := u.starts.filterMap fun p => match p with | .msg i m => some (i, m) | .boom _ _ _ => none
  let s := modCore s l fun k => modUn k fun u => { u with
    hold := [], starts := u.starts.filter fun p => match p with | .msg _ _ => false | .boom _ _ _ => true
    slots := placed.foldl (fun t p => sDel t p.1) u.slots }
  (placed.map Prod.snd ++ u.hold).foldl (fun s m => coreBounce s l m st) s

/-- R174, R175: the fields of CORE_ROLE set, EPOCH one higher, what waited bounced with ROLE_STALE. -/
def setRole (s : State) (l : Lcid) (v : Word) : State :=
  let s := modCore s l fun k => { k with
    role := wd (nextEpoch (fld k.role 48 16) * 2 ^ 48 + fld v 44 4 * 2 ^ 44 + fld v 28 16 * 2 ^ 28 + fld v 0 27) }
  bounceWaiting s l sSTALE

/-- CORE_ROLE_WRITE (R174, R414). -/
def doCoreRoleWrite (l : Lcid) (w : Wr) (s : State) : State :=
  let k := getCore s l
  let v := mergeHalf w.half k.role w.value
  coreSet s l w 0x10 false (roleIdle k && fld v 44 4 == (corePart s l).toNat) fun s => setRole s l v

/-! ### Resets (R492 to R494) -/

/-- Bytes of the resident image (R438). -/
def residentBytes : Nat := 0x40000

/-- R438: the resident image and its handler entries written to a position. -/
def writeResident (s : State) (l : Lcid) : State :=
  modCore s l fun k => { modSp k (fun sl => slPut sl 0 ((below residentBytes).map (Config.residentByte s.sec.meas4))) with
    ht := (below 4096).foldl (fun t i => tput 0 t i (Config.residentHandler s.sec.meas4 i)) [] }

/-- R493: VALID cleared in every record of a position. -/
def clearRecords (k : Core) : Core :=
  let k := (below (fld k.ring.area 32 10)).foldl (fun k c =>
    modSp k fun sl => (below 2).foldl (fun sl n =>
      let a := ctxRec k (BitVec.ofNat 9 c) n; slPut sl a (leBytes 8 ((slWord sl a).toNat % 2 ^ 63))) sl) k
  if fld k.ring.area 32 10 = 0 then k
  else modSp k fun sl => (below 16).foldl (fun sl i =>
    let a := accRec k (i / 2) (i % 2); slPut sl a (leBytes 8 ((slWord sl a).toNat % 2 ^ 63))) sl

/-- What a core reset clears, its contexts already gone; EPOCH and every field of the role are zero. -/
def clearCore (k : Core) : Core :=
  let un : Units := { k.un with
    qsel := 0, msgq := [], sent := [], hold := [], slots := [], starts := [], queues := [], hauls := [] }
  { clearRecords k with
    ctrl := 0, rejected := false, role := 0, ht := [], ctxs := [], notices := [], irqs := 0, recHold := false
    eng := { Engines.zero with issued := k.eng.issued }, un := un, outL := [], inL := [], ring := { k.ring with replaying := [] } }

/-- R492: a core reset: Table 06.7 steps 1 to 4 with every field zero, then the resident image. -/
def resetCore (s : State) (l : Lcid) : State :=
  let s := bounceWaiting s l sNOTLOADED
  let s := discardCore s l false
  writeResident (modCore s l clearCore) l

/-- R494: a grove's router: objects cleared, waiting operations ended with BOUNDS, reductions disarmed. -/
def resetRouter (s : State) (dg : Dg) : State :=
  let s := endWaiters s dg (.unit dg) sBOUNDS
  let s := (s.reds.filter fun r => (treeNodes r).contains dg || syncDg (redAnchor r) == dg).foldl abortRed s
  modGrove s dg fun g => { g with objs := [], waiters := [] }

/-- R492: a grove reset. -/
def resetGrove (s : State) (dg : Dg) : State :=
  if !groveWorks s dg then s
  else
    let s := resetRouter s dg
    ((below 16).map (lcidOf dg)).foldl (fun s l => if occupied s l then resetCore s l else s) s

/-- The groves of a Stand. -/
def groves (i : Nat) : List Dg := (below 64).map fun g => BitVec.ofNat 8 (64 * i + g)

/-- R492, Table 02.3: a region reset: VSET and the holds return to their reset values; what it measures and its calibration stay (log entry 141,
DESIGN CHOICE). -/
def resetRegion (s : State) (r : Nat) : State :=
  let g := tget Region.zero s.pace.regions r
  let g := { g with vset := Region.zero.vset, thermal := false, pwr := false, skew := false }
  { s with pace := { s.pace with regions := tput Region.zero s.pace.regions r g } }

/-- R492: a Stand reset: its groves, its 16 regions, its Snag detector but for the count since cold reset (R493), its combiner. -/
def resetStand (s : State) (i : Nat) : State :=
  let s := ((below 16).map fun j => 16 * i + j).foldl resetRegion ((groves i).foldl resetGrove s)
  let s := { s with quiets := s.quiets.filter fun q => standOf (dgOf q.1) != i
                    snags := s.snags.map fun p => if p.1 = i then (p.1, { Snag.zero with count := p.2.count }) else p }
  closeAll s i

/-! ### Sync objects (R270) -/

/-- The bits of GRV_SYNC_CFGn. -/
def syncCfgBits (v : Word) : Word := keepFields v [(63, 1), (60, 3), (56, 4), (0, 32)]

/-- A reserved value of GRV_SYNC_CFGn (Table 09.7). -/
def syncCfgBad (v : Word) : Bool :=
  let ty := fld v 60 3
  let p := fld v 0 32
  decide (4 ≤ ty) || (bit v 63 && ty == 1 && p == 0) || ((ty == 0 || ty == 2) && p != 0)

/-- The object that a write of its configuration leaves: its initial value, no feeders (R270, R473). -/
def freshObj (o : SyncObj) (v : Word) : SyncObj :=
  { cfg := v, val := if fld v 60 3 = 3 then wd (fld v 0 32) else 0, feeders := [], nops := o.nops + 1 }

/-- Who may write a grove's block: the Lookout, the owning function, PF0 for no register of it. -/
def groveWriter (s : State) (w : Nat) (dg : Dg) : Bool := byLookout w || byOwner s w dg

/-- SYNC_CFG_WRITE (R270). -/
def doSyncCfgWrite (dg : Dg) (n : BitVec 7) (w : Wr) (s : State) : State :=
  let g := getGrove s dg
  let o := getObj g n.toNat
  let v := syncCfgBits (mergeHalf w.half o.cfg w.value)
  guardWrite s w.writer.toNat (groveBlk dg) (groveBlk dg + 0x1000 + 16 * n.toNat) (groveWriter s w.writer.toNat dg)
    (groveGone s w.writer.toNat dg) (syncCfgBad v) (!g.waiters.any fun x => x.obj == n.toNat) fun s =>
    modGrove s dg fun g => setObj g n.toNat (freshObj (getObj g n.toNat) v)

/-! ### Partition assignment (R415, R562) -/

/-- Base of the PART_ block. -/
def partBlk : Nat := 0x2000

/-- R415: every core of a grove, those of vacated positions too, has PROGRAM 0 and no channel is bound in it. -/
def groveIdle (s : State) (dg : Dg) : Bool :=
  (below 16).all fun n =>
    let k := getCore s (lcidOf dg n)
    fld k.role 28 16 == 0 && (k.outL ++ k.inL).all fun e => !bit e.2.reg 63

/-- The TDI of a grove's present partition, or of the partition named, is locked. -/
def partLocked (s : State) (dg : Dg) (p : Nat) : Bool :=
  tdiLocked s p || match partOf s dg with | some n => tdiLocked s n.toNat | none => false

/-- A write of PART_GROVEk in the forms of R562. -/
def partGroveWrite (dg : Dg) (w : Wr) (s : State) : State :=
  let old := pgroveWord s dg
  let v := keepFields (mergeHalf w.half old w.value) [(4, 1), (0, 4)]
  let locked := partLocked s dg (fld v 0 4)
  let writer := w.writer.toNat
  let release := bit old 4 && !bit v 4 && groveIdle s dg
  let join := !bit old 4 && !bit old 63 && bit v 4
  guardWrite s writer partBlk (partBlk + 8 * dg.toNat) (byPf0 writer && (byLookout writer || !locked)) (groveGone s writer dg)
    false ((release || join) && !locked) fun s =>
    if join then { s with pgrove := tput 0x10 s.pgrove dg.toNat v }
    else { s with pgrove := tput 0x10 s.pgrove dg.toNat (wd (2 ^ 63 + fld v 0 4)), sanDue := tput 0 s.sanDue dg.toNat (now s + 51) }

/-- R415: a position's slice zeroed whole, with its marks; accumulators, descriptors and queues cleared. -/
def sanitiseCore (k : Core) : Core :=
  { modUn (modSp k fun sl => { sl with mem := [], bad := [] }) (fun u => { u with queues := [], area := 0 }) with
    eng := { Engines.zero with issued := k.eng.issued, fallback := k.eng.fallback } }

/-- R415: the work done on a grove. -/
def sanitiseGrove (s : State) (dg : Dg) : State :=
  let s := (below 16).foldl (fun s n => modCore s (lcidOf dg n) sanitiseCore) s
  let s := endWaiters s dg (.unit dg) sBOUNDS
  modGrove s dg fun g => { g with objs := [] }

/-- SANITISE_COMPLETE (R415). -/
def doSanitiseComplete (dg : Dg) (s : State) : State :=
  let w := pgroveWord s dg
  if bit w 63 then
    let s := sanitiseGrove s dg
    { s with pgrove := tput 0x10 s.pgrove dg.toNat (wd (w.toNat % 2 ^ 63)), sanDue := tput 0 s.sanDue dg.toNat 0 }
  else s

/-! ### Meanings -/

def execCtxHold (l : Lcid) (w : Wr) (s : State) : Out := .next (ctxCmd 1 l w s)
def execCtxRelease (l : Lcid) (w : Wr) (s : State) : Out := .next (ctxCmd 2 l w s)
def execCtxFree (l : Lcid) (w : Wr) (s : State) : Out := .next (ctxCmd 3 l w s)
def execCtxStart (l : Lcid) (w : Wr) (s : State) : Out := .next (ctxCmd 4 l w s)
def execFreeAll (l : Lcid) (w : Wr) (s : State) : Out := .next (ctxCmd 5 l w s)
def execHoldAll (l : Lcid) (w : Wr) (s : State) : Out := .next (doHoldAll l w s)
def execCoreRoleWrite (l : Lcid) (w : Wr) (s : State) : Out := .next (doCoreRoleWrite l w s)
def execSyncCfgWrite (dg : Dg) (n : BitVec 7) (w : Wr) (s : State) : Out := .next (doSyncCfgWrite dg n w s)
def execSanitiseComplete (dg : Dg) (s : State) : Out := .next (doSanitiseComplete dg s)

end Sys2Proof.Machine
end

