-- ==== Sys2Proof/Machine/HostBase.lean ====
section
/-! DEFINITION. The host interface: device memory as the Landing reaches it, queue pairs, doorbells, the fetch and the checks of
commands, completions (14_host_interface.md R366 to R380). -/

namespace Sys2Proof.Machine

/-! ### Functions -/

/-- The partition of a function: that of VFn is n − 1, PF0 stands for 0 (R369, Table 14.9). -/
def fnPart (f : HostFn) : BitVec 4 := BitVec.ofNat 4 (f.val - 1)

/-- Base of a function's CQ_ block. -/
def cqBlk (f : HostFn) : Nat := 0x10000 + 0x1000 * f.val

/-- The function as its number. -/
def fnNo (f : HostFn) : Nat := f.val

/-! ### Device memory -/

/-- Device bytes read for a function: a slice or a partition range, with the indices of poisoned ones. -/
def devFetch (s : State) (part : BitVec 4) (a : Word) (n : Nat) : List Byte × NatSet :=
  if fld a 62 2 = 1 then slFetch (getCore s (BitVec.ofNat 12 (fld a 21 12))).sp (fld a 0 21) n
  else hbmFetch s part.toNat (fld a 0 38) n

/-- Device bytes written for a function; the answer says whether poison was met. -/
def devStore (s : State) (part : BitVec 4) (a : Word) (bs : List Byte) (bad : NatSet) : State × Bool :=
  if fld a 62 2 = 1 then
    let l : Lcid := BitVec.ofNat 12 (fld a 21 12)
    let q := slCopy (getCore s l).sp (fld a 0 21) bs bad
    (modCore s l fun k => modSp k fun _ => q.1, q.2.isSome)
  else
    let q := hbmStore s part.toNat (fld a 0 38) bs bad
    (q.1, q.2.isSome)

/-- R307, R368: the PCIe controller reaches a grove: the router by which its traffic for an address enters the mesh leads there. -/
def hostReaches (s : State) (a : Word) (d : Dg) : Bool :=
  (landingRouter s epPcie { Pkt.blank with dst := d, addr := a }).any fun r => (routeHops s r d).isSome

/-- R383: the checks of a device address of a command, in the order BOUNDS, PERM, LCID_VACANT; only spaces 0b01 and 0b10 are
named. PF0 reaches every partition that is not locked against it. -/
def devFault (s : State) (f : HostFn) (a : Word) (n : Nat) : Option Status :=
  match addrOf a with
  | some (.dev l o) =>
    let p := partOf s (dgOf l)
    let locked := match p with | some q => f.val == 0 && tdiLocked s q.toNat | none => false
    if sliceBytes < o + n then some sBOUNDS
    else if locked || (f.val != 0 && !fusedCore s l && p != some (fnPart f)) then some sPERM
    else if !occupied s l || !hostReaches s a (dgOf l) then some sVACANT
    else none
  | some (.ext o) =>
    if rangeSize s (fnPart f).toNat < o + n then some sBOUNDS
    else if f.val == 0 && tdiLocked s 0 then some sPERM
    else none
  | _ => some sBOUNDS

/-! ### Host memory -/

/-- Bytes written to host memory; those in poisoned TLPs are marked and leave what the host held. -/
def hostWrite (s : State) (a : Nat) (bs : List Byte) (bad : NatSet) : State :=
  let h := (bs.zipIdx).foldl (fun (h : Memory × NatSet) p =>
    if sHas bad p.2 then (h.1, sIns h.2 (a + p.2)) else (wrByte h.1 (a + p.2) p.1, sDel h.2 (a + p.2))) (s.host.mem, s.host.hbad)
  { s with host := { s.host with mem := h.1, hbad := h.2 } }

/-! ### Queue pairs (R375, R376, R387) -/

/-- A pair of a function. -/
def getPair (n : Fn) (q : Nat) : Option Qp := tget none n.pairs q

/-- The function with a pair changed. -/
def setPair (n : Fn) (q : Nat) (v : Option Qp) : Fn := { n with pairs := tput none n.pairs q v }

/-- A pair of a function of the state. -/
def pairOf (s : State) (f : HostFn) (q : Nat) : Option Qp := getPair (getFn s f.val) q

/-- A new pair. -/
def newQp (sq cq : Word) (ien : Bool) (svc : Option (Word × Word × Word)) : Qp :=
  { sqBase := wd (sq.toNat / 4096 * 4096), sqSize := fld sq 0 12 + 1, cqBase := wd (cq.toNat / 4096 * 4096), cqSize := fld cq 0 12 + 1
    sqHead := 0, sqTail := 0, cqHead := 0, cqTail := 0, resv := 0, ien := ien, svc := svc, stop := false }

/-- How far an index is ahead of a running number, modulo a ring's size. -/
def ahead (size n ix : Nat) : Nat := (ix % size + size - n % size) % size

/-- R387: the SQ tail and CQ head of a service pair, from its counter and its partition word. -/
def servicePair (s : State) (f : HostFn) (p : Qp) : Qp :=
  match p.svc with
  | none => p
  | some (cnt, head, _) =>
    let v := (getObj (getGrove s (syncDg cnt)) (syncIx cnt)).val.toNat
    let h := leNat (hbmFetch s (fnPart f).toNat (fld head 0 38) 8).1
    let d := ahead p.cqSize p.cqHead h
    { p with sqTail := p.sqHead + ahead p.sqSize p.sqHead v, cqHead := if p.cqHead + d ≤ p.cqTail then p.cqHead + d else p.cqHead }

/-- R376: room to reserve a completion slot: the host has consumed the entry there, or it was never written (log entry 44, DEDUCED). -/
def cqRoom (p : Qp) : Bool := decide (p.cqTail + p.resv - p.cqHead < p.cqSize)

/-- Commands of a pair in flight; those that an FLR has cut off from their function are none of it (R371). -/
def pairBusy (n : Fn) (q : Nat) : Bool := n.cmds.any fun c => c.q.toNat == q && !c.dead

/-! ### Doorbells (R372) -/

/-- A doorbell discarded: DB_ERR, and vector 128. -/
def doorbellError (s : State) (f : HostFn) : State := signalVec (modFn s f.val fun n => { n with dbErr := true }) f.val 128

/-- R372: the pair whose doorbell lies at a BAR2 offset: its SQ tail at 16q (`at'` 0), its CQ head at 16q + 8 (`at'` 8); none elsewhere, where
writes are ignored. -/
def bellPair (off : BitVec 12) (at' : Nat) : Option Nat :=
  if off.toNat < 0x800 ∧ off.toNat % 16 = at' then some (off.toNat / 16) else none

/-- R372: what a BAR2 read returns: zero from offset 0x800; the doorbells below hold nothing that the spec lets a read return. While the link does
not serve the function it returns Unsupported Request (R367). -/
def bar2Read (s : State) (f : HostFn) (off : BitVec 12) : Option Word := if fnServes s f.val && decide (0x800 ≤ off.toNat) then some 0 else none

/-- An SQ tail moved (R372). -/
def ringSqTail (f : HostFn) (q index : Nat) (s : State) : State :=
  match pairOf s f q with
  | none => doorbellError s f
  | some p =>
    let d := ahead p.sqSize p.sqTail index
    if p.svc.isSome || p.sqSize ≤ index || p.sqSize - 1 < p.sqTail - p.sqHead + d then doorbellError s f
    else modFn s f.val fun n => setPair n q (some { p with sqTail := p.sqTail + d })

/-- A CQ head moved (R372). -/
def ringCqHead (f : HostFn) (q index : Nat) (s : State) : State :=
  match pairOf s f q with
  | none => doorbellError s f
  | some p =>
    let d := ahead p.cqSize p.cqHead index
    if p.svc.isSome || p.cqSize ≤ index || p.cqTail < p.cqHead + d then doorbellError s f
    else modFn s f.val fun n => setPair n q (some { p with cqHead := p.cqHead + d })

/-- A write of BAR2 (R372): of the 32 or 64 bits written, [11:0] are the index. -/
def bar2Write (f : HostFn) (off : BitVec 12) (at' : Nat) (v : Word) (ring : HostFn → Nat → Nat → State → State) (s : State) : State :=
  if !fnServes s f.val then s
  else match bellPair off at' with
  | some q => ring f q (fld v 0 12) (fireWake s 0)
  | none => fireWake s 0

/-- SQ_TAIL_DOORBELL (R372). -/
def doSqTailDoorbell (f : HostFn) (off : BitVec 12) (v : Word) (s : State) : State := bar2Write f off 0 v ringSqTail s

/-- CQ_HEAD_DOORBELL (R372). -/
def doCqHeadDoorbell (f : HostFn) (off : BitVec 12) (v : Word) (s : State) : State := bar2Write f off 8 v ringCqHead s

/-! ### The checks of a command (R378) -/

/-- Fields of a command. -/
def cmdOpc (ws : List Word) : Nat := fld (ws.getD 0 0) 0 8
def cmdList (ws : List Word) : Bool := bit (ws.getD 0 0) 32
def cmdFence (ws : List Word) : Bool := bit (ws.getD 0 0) 33
def cmdFua (ws : List Word) : Bool := bit (ws.getD 0 0) 34

/-- Operand fields of an opcode, as (word, low bit, length) (Table 14.5); none for an undefined one. -/
def cmdFields (ws : List Word) : Option (List (Nat × Nat × Nat)) :=
  match cmdOpc ws with
  | 0x01 => some ([(1, 0, 64), (2, 0, 64), (3, 0, 9)] ++ if bit (ws.getD 3 0) 8 then [(4, 0, 64), (5, 0, 64), (6, 0, 64)] else [])
  | 0x02 => some [(3, 0, 7)]
  | 0x03 => some [(1, 0, 64)]
  | 0x10 => some ([(0, 32, 1), (1, 0, 64), (2, 0, 64), (3, 0, 32)] ++ if cmdList ws then [(4, 0, 13)] else [])
  | 0x11 => some ([(0, 32, 1), (1, 0, 64), (2, 0, 64), (3, 0, 32)] ++ if cmdList ws then [(4, 0, 13)] else [])
  | 0x12 => some [(1, 0, 64)]
  | 0x20 => some [(1, 0, 64), (2, 0, 4)]
  | 0x21 => some [(2, 0, 4), (3, 0, 16), (4, 0, 64), (5, 0, 64), (6, 0, 64), (7, 0, 64)]
  | 0x30 => some [(1, 0, 64), (2, 0, 64), (3, 48, 16), (3, 32, 2), (3, 0, 16), (4, 0, 64), (5, 0, 4)]
  | 0x31 => some [(3, 48, 16), (5, 0, 4)]
  | 0x38 => some [(1, 0, 64), (2, 0, 64), (3, 48, 16), (3, 32, 12), (3, 0, 32), (4, 0, 64), (5, 0, 3)]
  | 0x39 => some [(5, 0, 3)]
  | 0x3A => some [(0, 34, 1), (1, 0, 64), (2, 0, 32), (3, 0, 64), (5, 0, 3)]
  | 0x3B => some [(1, 0, 64), (2, 0, 32), (3, 0, 64), (5, 0, 3)]
  | 0x40 => some [(1, 12, 52), (1, 0, 5), (2, 0, 64), (3, 0, 64)]
  | _ => none

/-- A command whose words hold nothing outside its fields. -/
def onlyNamed (ws : List Word) (fs : List (Nat × Nat × Nat)) : Bool :=
  let fs := (0, 48, 16) :: (0, 33, 1) :: (0, 0, 8) :: fs
  (below 8).all fun i => ws.getD i 0 == keepFields (ws.getD i 0) ((fs.filter fun f => f.1 == i).map Prod.snd)

/-- A reserved value in a command (Table 14.5, R387, R388, R390, R392). -/
def cmdBadValue (ws : List Word) : Bool :=
  let w := fun i => ws.getD i 0
  match cmdOpc ws with
  | 0x01 => fld (w 1) 0 12 == 0 || fld (w 2) 0 12 == 0 || fld (w 3) 0 7 == 0
  | 0x02 => fld (w 3) 0 7 == 0
  | 0x10 => cmdList ws && (fld (w 4) 0 13 == 0 || decide (4096 < fld (w 4) 0 13))
  | 0x11 => cmdList ws && (fld (w 4) 0 13 == 0 || decide (4096 < fld (w 4) 0 13))
  | 0x30 => fld (w 3) 32 2 == 3 || fld (w 3) 0 16 == 0
  | 0x38 =>
    let m := fld (w 4) 0 32
    (fld (w 4) 32 32 != 512 && fld (w 4) 32 32 != 4096) || m == 0 || m % 4096 != 0 || decide (0x200000 < m)
  | 0x40 => decide (fld (w 1) 0 5 < 16) || decide (30 < fld (w 1) 0 5) || ((w 2) != 0 && decide ((w 2).toNat < 1000))
  | _ => false

/-- Opcodes of the admin pair only. -/
def adminOnly (o : Nat) : Bool := o == 0x01 || o == 0x02 || o == 0x03 || o == 0x38 || o == 0x39

/-- Opcodes that a service pair takes (R387). -/
def serviceOk (o : Nat) : Bool := o == 0x12 || o == 0x30 || o == 0x31 || o == 0x3A || o == 0x3B

/-- The PART operand of an opcode that has one. -/
def cmdPartField (ws : List Word) : Option Nat :=
  match cmdOpc ws with
  | 0x20 => some (fld (ws.getD 2 0) 0 4)
  | 0x21 => some (fld (ws.getD 2 0) 0 4)
  | 0x30 => some (fld (ws.getD 5 0) 0 4)
  | 0x31 => some (fld (ws.getD 5 0) 0 4)
  | _ => none

/-- The partition that a command names: its PART for PF0, its own for a VF (R385). -/
def cmdPart (f : HostFn) (ws : List Word) : BitVec 4 :=
  if f.val = 0 then BitVec.ofNat 4 ((cmdPartField ws).getD 0) else fnPart f

/-- R369: a command that names a core: LOAD, UNLOAD with a position, MSG, a DMA of a slice, and COLL_DEFINE, whose image names them. -/
def namesCore (ws : List Word) : Bool :=
  match cmdOpc ws with
  | 0x10 | 0x11 => fld (ws.getD 2 0) 62 2 == 1
  | 0x12 | 0x20 | 0x30 => true
  | 0x21 => fld (ws.getD 3 0) 0 16 != 0 && (ws.drop 4).any (· != 0)
  | _ => false

/-- R369: no grove belongs to a partition. -/
def emptyPart (s : State) (p : BitVec 4) : Bool := ((below 256).map (BitVec.ofNat 8)).all fun d => partOf s d != some p

/-- R378: the first of its first three checks that a command fails; R405 closes the device to commands while it is sanitised, R398 closes
LOAD in RETIRED, and R369 closes a VF without a grove to commands that name a core. -/
def cmdFault (s : State) (f : HostFn) (q : Nat) (svc : Bool) (ws : List Word) : Option Status :=
  if s.sec.pending.isSome then some sPERM
  else match cmdFields ws with
  | none => some sUNDEF
  | some fs =>
    let o := cmdOpc ws
    if !onlyNamed ws fs || cmdBadValue ws || (if q = 0 then !adminOnly o else adminOnly o) || (svc && !serviceOk o) then some sRSVD
    else if f.val != 0 && (o == 0x40 || (cmdPartField ws).getD 0 != 0) then some sPERM
    else if f.val == 0 && (cmdPartField ws).isSome && tdiLocked s (cmdPart f ws).toNat then some sPERM
    else if o == 0x20 && s.sec.life == .retired then some sPERM
    else if f.val != 0 && namesCore ws && emptyPart s (fnPart f) then some sPERM
    else none

/-- A fetched command. -/
def newCmd (q : BitVec 7) (ws : List Word) (sqhd seq ref : Nat) (fin : Option (Status × Word)) : HostCmd :=
  { q := q, cid := BitVec.ofNat 16 (fld (ws.getD 0 0) 48 16), words := ws, sqhd := sqhd, seq := seq, begun := fin.isSome, fin := fin
    dead := false, nv := [], nvNext := 0, nvSf := 0, nvBad := none, ref := ref, cores := [], wire := none, gone := false }

/-- A number for HOSTREF that no other command of the device in flight has. -/
def freshRef (s : State) (f : HostFn) : Nat := (getFn s f.val).nseq * 17 + f.val

/-- COMMAND_FETCH (R376, R378): the next command of a pair, once a completion slot is reserved for it. `words` is what host memory
holds; a service pair's SQ lies in the partition range (R387). -/
def doCommandFetch (f : HostFn) (q : BitVec 7) (words : List Word) (s : State) : State :=
  match pairOf s f q.toNat with
  | none => s
  | some p =>
    let p := servicePair s f p
    if dormBusy s || gapOpen s || p.stop || (q.toNat == 0 && !(getFn s f.val).en) || (p.svc.isNone && !fnServes s f.val) || p.sqTail ≤ p.sqHead || !cqRoom p then s
    else
      let ws := if p.svc.isSome then
          let bs := (hbmFetch s (fnPart f).toNat (fld p.sqBase 0 38 + 64 * (p.sqHead % p.sqSize)) 64).1
          (below 8).map fun i => wd (leNat ((bs.drop (8 * i)).take 8))
        else words
      let fin := (cmdFault s f q.toNat p.svc.isSome ws).map fun st => (st, (0 : Word))
      let c := newCmd q ws ((p.sqHead + 1) % p.sqSize) (getFn s f.val).nseq (freshRef s f) fin
      modFn s f.val fun n =>
        { setPair n q.toNat (some { p with sqHead := p.sqHead + 1, resv := p.resv + 1 }) with
          cmds := n.cmds ++ [c], nseq := n.nseq + 1 }

/-! ### Commands in flight (R377) -/

/-- The command that a reference names; one that an FLR has cut off only where no other has its name (R371). -/
def cmdOf (s : State) (r : CmdRef) : Option HostCmd :=
  let named := (getFn s r.f.val).cmds.filter fun c => c.q == r.q && c.cid == r.cid
  (firstThat (fun (c : HostCmd) => !c.dead) named).orElse fun _ => named.head?

/-- The state with a command changed, by its number. -/
def modCmd (s : State) (f seq : Nat) (g : HostCmd → HostCmd) : State :=
  modFn s f fun n => { n with cmds := n.cmds.map fun c => if c.seq = seq then g c else c }

/-- R377: a command may start: those fetched before it from its SQ have started, and with FENCE they have completed. Those that an FLR has cut off
came from another SQ (R371). -/
def mayBegin (n : Fn) (c : HostCmd) : Bool :=
  n.cmds.all fun d => d.q != c.q || d.dead != c.dead || c.seq ≤ d.seq || (d.begun && !cmdFence c.words)

/-- The command of a reference, if it has the opcode, has no outcome yet, and has begun or may begin. -/
def running (s : State) (r : CmdRef) (opc : Nat) : Option HostCmd :=
  match cmdOf s r with
  | some c =>
    if cmdOpc c.words == opc && c.fin.isNone && (c.begun || mayBegin (getFn s r.f.val) c) then some c else none
  | none => none

/-- A command's outcome. -/
def endCmd (s : State) (r : CmdRef) (c : HostCmd) (st : Status) (res : Word) : State :=
  modCmd s r.f.val c.seq fun c => { c with begun := true, fin := some (st, res) }

/-- A command run whole: its new state, status and result. -/
def runCmdNow (s : State) (r : CmdRef) (opc : Nat) (body : HostCmd → State → State × Status × Word) : State :=
  match running s r opc with
  | none => s
  | some c =>
    let q := body c s
    endCmd q.1 r c q.2.1 q.2.2

/-! ### Completions (R376, R379, R387) -/

/-- The phase bit of a slot number. -/
def phaseOf (p : Qp) : Nat := if p.cqTail / p.cqSize % 2 = 0 then 1 else 0

/-- The two words of a completion (Table 14.4). -/
def cqeWords (p : Qp) (c : HostCmd) (st : Status) (res : Word) : List Word :=
  [wd (st.toNat * 2 ^ 56 + phaseOf p * 2 ^ 48 + c.sqhd * 2 ^ 32 + c.q.toNat * 2 ^ 16 + c.cid.toNat), res]

/-- R387: one added to a counter of the device. -/
def serviceAdd (s : State) (part : BitVec 4) (name : Word) : State :=
  let dg := syncDg name
  let ix := syncIx name
  match syncCheck (getObj (getGrove s dg) ix) part opAdd 1 with
  | some _ => s
  | none => serveWaiters (modGrove s dg fun g =>
      let o := getObj g ix; setObj g ix { o with val := o.val + 1, nops := o.nops + 1 }) dg ix

/-- A completion written into the next slot of its pair, and signalled. -/
def writeCqe (s : State) (f : HostFn) (p : Qp) (c : HostCmd) (st : Status) (res : Word) : State :=
  let bs := wordBytes (cqeWords p c st res)
  let at' := p.cqBase.toNat + 16 * (p.cqTail % p.cqSize)
  let s := if p.svc.isSome then (hbmStore s (fnPart f).toNat at' bs []).1 else hostWrite s at' bs []
  let s := modFn s f.val fun n => setPair n c.q.toNat (some { p with cqTail := p.cqTail + 1, resv := p.resv - 1 })
  match p.svc with
  | some (_, _, cnt) => serviceAdd s (fnPart f) cnt
  | none => if p.ien then signalVec s f.val c.q.toNat else s

/-- R380: a stopped pair whose last completion is written goes: RDY clears, or the DELETE_QP that named it completes. -/
def settlePair (s : State) (f : HostFn) (q : Nat) : State :=
  let n := getFn s f.val
  match getPair n q with
  | none => s
  | some p =>
    if !p.stop || pairBusy n q then s
    else modFn s f.val fun n =>
      { setPair n q none with
        rdy := if q = 0 then false else n.rdy
        cmds := n.cmds.map fun c =>
          if cmdOpc c.words = 2 ∧ c.begun = true ∧ c.fin = none ∧ fld (c.words.getD 3 0) 0 7 = q then { c with fin := some (sOK, 0) } else c }

/-- A finished command written out; one whose function was reset is only forgotten (R371). -/
def finishCmd (s : State) (f : HostFn) (c : HostCmd) (st : Status) (res : Word) : State :=
  let s := modFn s f.val fun n => { n with cmds := n.cmds.filter fun d => d.seq != c.seq }
  if c.dead then s
  else match pairOf s f c.q.toNat with
  | some p => settlePair (writeCqe s f p c st res) f c.q.toNat
  | none => s

/-! ### CQ_CTRL, CREATE_QP, DELETE_QP, IDENTIFY -/

/-- Who may write a function's CQ_ block: that function, PF0 and the Lookout (R370). -/
def cqWriter (w : Nat) (f : HostFn) : Bool := byPf0 w || w == f.val

/-- CQ_ENABLE (R375, R380). EN may rise only once the admin pair is at rest and its rings are set. -/
def doCqEnable (f : HostFn) (w : Wr) (s : State) : State :=
  let n := getFn s f.val
  let en := bit (mergeHalf w.half (wd (bitAt n.en 0)) w.value) 0
  guardWrite s w.writer.toNat (cqBlk f) (cqBlk f) (cqWriter w.writer.toNat f) none false
    (!en || n.en || (!n.rdy && fld n.asq 0 12 != 0 && fld n.acq 0 12 != 0)) fun s =>
    if en && !n.en then
      modFn s f.val fun n => { setPair n 0 (some (newQp n.asq n.acq true none)) with en := true, rdy := true }
    else if !en && n.en then
      settlePair (modFn s f.val fun n =>
        { setPair n 0 ((getPair n 0).map fun p => { p with stop := true }) with en := false }) f 0
    else s

/-- CREATE_QP (R375, R387). -/
def doCreateQp (r : CmdRef) (s : State) : State :=
  runCmdNow s r 0x01 fun c s =>
    let w := fun i => c.words.getD i 0
    let q := fld (w 3) 0 7
    if (pairOf s r.f q).isSome then (s, sPERM, 0)
    else
      let svc := if bit (w 3) 8 then some (w 4, w 5, w 6) else none
      (modFn s r.f.val fun n => setPair n q (some (newQp (w 1) (w 2) (bit (w 3) 7) svc)), sOK, 0)

/-- DELETE_QP (R380): it completes once the last completion of the pair is written. -/
def doDeleteQp (r : CmdRef) (s : State) : State :=
  match running s r 0x02 with
  | none => s
  | some c =>
    let q := fld (c.words.getD 3 0) 0 7
    match pairOf s r.f q with
    | none => endCmd s r c sBOUNDS 0
    | some p =>
      let s := modCmd s r.f.val c.seq fun c => { c with begun := true }
      settlePair (modFn s r.f.val fun n => setPair n q (some { p with stop := true })) r.f q

/-- CQ_INFO (Table 14.9). -/
def cqInfo (f : HostFn) : Word := wd ((fnPart f).toNat * 256 + f.val)

/-- Word `i` of the IDENTIFY buffer. -/
def identifyWord (s : State) (f : HostFn) (i : Nat) : Word :=
  if i < 0x40 then
    if i = 0x20 ∨ i = 0x21 ∨ i = 0x30 ∨ i = 0x31 ∨ (4 ≤ i ∧ i < 0x10) ∨ (0x23 ≤ i ∧ i < 0x32) ∨ 0x33 ≤ i then 0
    else if i = 0x32 then wd (rangeSize s (fnPart f).toNat)
    else (qryValue s 0 0 Ctx.zero i 0).getD 0
  else if i < 0x44 then (qryValue s 0 0 Ctx.zero 0x20 (i - 0x40)).getD 0
  else if i = 0x44 then cqInfo f
  else if 0x100 ≤ i ∧ i < 0x200 then (qryValue s 0 0 Ctx.zero 0x21 (i - 0x100)).getD 0
  else 0

/-- IDENTIFY (R378): the 4 KiB buffer of Table 14.5's note. -/
def doIdentify (r : CmdRef) (s : State) : State :=
  runCmdNow s r 0x03 fun c s =>
    let ws := (below 512).map (identifyWord s r.f)
    (if c.dead then s else hostWrite s (c.words.getD 1 0).toNat (wordBytes ws) [], sOK, 0)

/-! ### Vectors and windows -/

/-- The MSI-X vectors of a function (R381). -/
def vectors (f : HostFn) : Nat := if f.val = 0 then 2048 else 160

/-- MSIX_UNMASK (R381): a pending message is sent. -/
def doMsixUnmask (f : HostFn) (v : BitVec 11) (s : State) : State :=
  if v.toNat < vectors f then
    modFn s f.val fun n =>
      let n := { n with unmasked := sIns n.unmasked v.toNat }
      if sHas n.pend v.toNat then signalFn { n with pend := sDel n.pend v.toNat } v.toNat else n
  else s

/-- R373: the partition range and offset that a window offset reaches; none in the service aperture. -/
def windowPlace (s : State) (f : HostFn) (off : Nat) : Option (BitVec 4 × Nat) :=
  let w := (getFn s f.val).win
  if off < 2 ^ 34 then some (if f.val = 0 then BitVec.ofNat 4 (fld w 8 4) else fnPart f, fld w 0 8 * 2 ^ 30 + off) else none

/-- What a window access reaches: a place inside the range in force, not locked against the function (R374, R396). -/
def windowReach (s : State) (f : HostFn) (off len : Nat) : Option (BitVec 4 × Nat) :=
  match windowPlace s f off with
  | some (p, o) => if o + len ≤ rangeSize s p.toNat && !(f.val == 0 && tdiLocked s p.toNat) then some (p, o) else none
  | none => none

/-- R366: an error that AER notes, by its bit: 12 a poisoned TLP received, 20 an Unsupported Request. -/
def noteAer (s : State) (b : Nat) : State := { s with host := { s.host with link := { s.host.link with aer := sIns s.host.link.aer b } } }

/-- A read answered with Unsupported Request. -/
def refuseRead (s : State) : State := noteAer { s with host := { s.host with reads := s.host.reads ++ [none] } } 20

/-- R374: a window access done: a read returns its bytes and whether it is in a poisoned TLP, or Unsupported Request; what a poisoned write TLP brings
is stored as poisoned (log entry 135, DESIGN CHOICE). -/
def windowAccess (r : WinReq) (s : State) : State :=
  match r.wr, windowReach s r.f r.off r.len with
  | none, none => refuseRead s
  | none, some (p, o) =>
    let q := hbmFetch s p.toNat o r.len
    { s with host := { s.host with reads := s.host.reads ++ [some (q.1, !q.2.isEmpty)] } }
  | some w, some (p, o) => (hbmStore s p.toNat o w.data (if w.bad then below w.data.length else [])).1
  | some _, none =>
    if r.off < 2 ^ 34 then signalVec (modFn s r.f.val fun n => { n with winErr := true }) r.f.val 128 else s

/-- A window access received: it wakes the device, and waits while the stacks are in self-refresh (R360, R447). -/
def windowTake (r : WinReq) (s : State) : State :=
  let s := fireWake s 0
  if asleep s then { s with host := { s.host with winq := s.host.winq ++ [r] } } else windowAccess r s

/-- HOST_WINDOW_READ (R374). -/
def doHostWindowRead (f : HostFn) (off len : Nat) (s : State) : State :=
  if !fnServes s f.val then refuseRead s else windowTake ⟨f, off, len, none⟩ s

/-- HOST_WINDOW_WRITE (R374). -/
def doHostWindowWrite (f : HostFn) (off : Nat) (w : BarWrite) (s : State) : State :=
  let s := if w.bad then noteAer s 12 else s
  if !fnServes s f.val then noteAer s 20 else windowTake ⟨f, off, w.data.length, some w⟩ s

/-! ### Meanings -/

def execSqTailDoorbell (f : HostFn) (off : BitVec 12) (v : Word) (s : State) : Out := .next (doSqTailDoorbell f off v s)
def execCqHeadDoorbell (f : HostFn) (off : BitVec 12) (v : Word) (s : State) : Out := .next (doCqHeadDoorbell f off v s)
def execCommandFetch (f : HostFn) (q : BitVec 7) (words : List Word) (s : State) : Out := .next (doCommandFetch f q words s)
def execCqEnable (f : HostFn) (w : Wr) (s : State) : Out := .next (doCqEnable f w s)
def execCreateQp (r : CmdRef) (s : State) : Out := .next (doCreateQp r s)
def execDeleteQp (r : CmdRef) (s : State) : Out := .next (doDeleteQp r s)
def execIdentify (r : CmdRef) (s : State) : Out := .next (doIdentify r s)
def execMsixUnmask (f : HostFn) (v : BitVec 11) (s : State) : Out := .next (doMsixUnmask f v s)
def execHostWindowRead (f : HostFn) (off len : Nat) (s : State) : Out := .next (doHostWindowRead f off len s)
def execHostWindowWrite (f : HostFn) (off : Nat) (w : BarWrite) (s : State) : Out := .next (doHostWindowWrite f off w s)

end Sys2Proof.Machine
end

