-- ==== Sys2Proof/Machine/Ckpt.lean ====
section
/-! DEFINITION. Checkpoint streaming to peer NVMe SSDs (14_host_interface.md R390, R391). The NVMe commands have the form of the
NVM command set (log entry 40, PRESUMED). -/

namespace Sys2Proof.Machine

/-- A checkpoint slot of a function. -/
def slotOf (s : State) (f n : Nat) : Option Slot := tget none (getFn s f).slots n

/-- The state with a slot set. -/
def setSlot (s : State) (f n : Nat) (v : Option Slot) : State := modFn s f fun m => { m with slots := tput none m.slots n v }

/-- Fields of CKPT_ATTACH (R390). -/
def slotSize (v : Slot) : Nat := fld (v.words.getD 3 0) 32 12 + 1
def slotLba (v : Slot) : Nat := fld (v.words.getD 4 0) 32 32
def slotMax (v : Slot) : Nat := fld (v.words.getD 4 0) 0 32

/-- CKPT_ATTACH; a queue of one entry could hold no command. -/
def doCkptAttach (r : CmdRef) (s : State) : State :=
  runCmdNow s r 0x38 fun c s =>
    let n := fld (c.words.getD 5 0) 0 3
    if fld (c.words.getD 3 0) 32 12 = 0 then (s, sRSVD, 0)
    else if (slotOf s r.f.val n).isSome then (s, sPERM, 0)
    else (setSlot s r.f.val n (some ⟨c.words, 0, 0, 0, true⟩), sOK, 0)

/-- CKPT_DETACH; a slot that is not attached gives BOUNDS. -/
def doCkptDetach (r : CmdRef) (s : State) : State :=
  runCmdNow s r 0x39 fun c s =>
    let n := fld (c.words.getD 5 0) 0 3
    match slotOf s r.f.val n with
    | none => (s, sBOUNDS, 0)
    | some _ => (setSlot s r.f.val n none, sOK, 0)

/-! ### NVMe commands -/

/-- Bytes of the Landing memory behind a function's aperture. -/
def aperAt (f slot off : Nat) : Nat := f * 2 ^ 35 + 0x400000000 + slot * 0x200000 + off

/-- The first aperture page for data: the 16 MiB of the queues come before it (R390). -/
def dataPage : Nat := 0x400000000 / 4096 + 4096

/-- R390: the aperture page from which the service maps `n` pages of a transfer, one page below it for their PRP list: the spec does not say
which, so it is free (log entry 3). -/
def pickPage (w : Word) (n : Nat) : Nat := dataPage + 1 + w.toNat % (0x400000 - 4096 - n)

/-- The bus address of an aperture offset of a function. -/
def busOf (f off : Nat) : Word := wd ((Config.bar4Base f).toNat + off)

/-- A 64-byte submission entry. -/
def nvmeEntry (op id nsid : Nat) (prp1 prp2 : Word) (lba nlb : Nat) : List Byte :=
  leBytes 4 (op + id % 65536 * 65536) ++ leBytes 4 nsid ++ leBytes 16 0 ++ leBytes 8 prp1.toNat ++ leBytes 8 prp2.toNat ++
  leBytes 8 lba ++ leBytes 4 nlb ++ leBytes 12 0

/-- Fields of CKPT_WRITE and CKPT_READ. -/
def ckLen (c : HostCmd) : Nat := fld (c.words.getD 2 0) 0 32
def ckSlot (c : HostCmd) : Nat := fld (c.words.getD 5 0) 0 3
def ckOff (c : HostCmd) : Nat := fld (c.words.getD 1 0) 0 38
def ckWrite (c : HostCmd) : Bool := cmdOpc c.words == 0x3A

/-- R390: the PRPs of `n` aperture pages from page `b` on that begin `o` bytes into the first: the second page where there are two, else the page of the
list, whose bytes are answered. -/
def prps (f b n o : Nat) : Word × Word × List Byte :=
  (busOf f (4096 * b + o), if n ≤ 1 then 0 else if n = 2 then busOf f (4096 * (b + 1)) else busOf f (4096 * (b - 1)),
    if n ≤ 2 then [] else (upto (b + 1) (n - 1)).flatMap fun i => leBytes 8 (busOf f (4096 * i)).toNat)

/-- One NVMe command issued: its pages mapped, its entry in the SQ, the doorbell, the record of it. -/
def issueNvme (s : State) (f : HostFn) (c : HostCmd) (v : Slot) (off len : Nat) (flush : Bool) : State :=
  let n := ckSlot c
  let p := freshWord s
  let o := (ckOff c + off) % 4096
  let pages := if flush then 0 else (o + len + 4095) / 4096
  let page := pickPage p.2 pages
  let q := if flush then (0, 0, []) else prps f.val page pages o
  let op := if flush then 0 else if ckWrite c then 1 else 2
  let lba := if flush then 0 else (c.words.getD 3 0).toNat + off / slotLba v
  let bs := nvmeEntry op v.nextId (fld (v.words.getD 3 0) 0 32) q.1 q.2.1 lba (if flush then 0 else len / slotLba v - 1)
  let s := p.1
  let tail := (v.tail + 1) % slotSize v
  let s := { s with host := { s.host with
    aper := wrBytes (wrBytes s.host.aper (f.val * 2 ^ 35 + 4096 * (page - 1)) q.2.2) (aperAt f.val n (64 * v.tail)) bs
    bus := s.host.bus ++ [(v.words.getD 1 0, wd tail)] } }
  let s := setSlot s f.val n (some { v with tail := tail, nextId := v.nextId + 1 })
  modCmd s f.val c.seq fun c => { c with
    nv := c.nv ++ [⟨page, v.nextId, off, len, now s, flush, none⟩], nvNext := if flush then c.nvNext else off + len }

/-- NVMe commands outstanding on a slot. -/
def outstanding (s : State) (f n : Nat) : Nat :=
  ((getFn s f).cmds.map fun c => if ckSlot c = n then (c.nv.filter fun e => e.ok.isNone).length else 0).sum

/-- A source granule of a piece is poisoned. -/
def pieceBad (s : State) (f : HostFn) (c : HostCmd) (off len : Nat) : Bool :=
  ckWrite c && !(hbmFetch s (fnPart f).toNat (ckOff c + off) len).2.isEmpty

/-- A command in flight by its number. -/
def cmdBySeq (s : State) (f seq : Nat) : Option HostCmd := firstThat (fun (c : HostCmd) => c.seq == seq) (getFn s f).cmds

/-- Pieces issued while the queue has room (at most `n`). -/
def issueAll : Nat → State → HostFn → Nat → State
  | 0, s, _, _ => s
  | n + 1, s, f, seq =>
    match cmdBySeq s f.val seq with
    | none => s
    | some c => match slotOf s f.val (ckSlot c) with
      | none => s
      | some v =>
        if c.fin.isSome || c.nvBad.isSome || ckLen c ≤ c.nvNext || slotSize v - 1 ≤ outstanding s f.val (ckSlot c) then s
        else
          let len := min (slotMax v) (ckLen c - c.nvNext)
          if pieceBad s f c c.nvNext len then modCmd s f.val seq fun c => { c with nvBad := some sPOISON }
          else issueAll n (issueNvme s f c v c.nvNext len false) f seq

/-- The bytes of the longest prefix of commands that succeeded. -/
def goodPrefix : List Nvme → Nat
  | [] => 0
  | e :: r => if e.ok = some true ∧ e.flush = false then e.len + goodPrefix r else 0

/-- RESULT (R391). -/
def ckResult (c : HostCmd) : Word := wd (c.nvSf.toNat * 2 ^ 48 + goodPrefix c.nv)

/-- R391: the destination beyond the confirmed prefix of a failed CKPT_READ, left undefined: free bytes. -/
def spoilRest (s : State) (f : HostFn) (c : HostCmd) : State :=
  if ckWrite c then s
  else
    let n := goodPrefix c.nv
    let k := s.freeCtr
    let s := (hbmStore s (fnPart f).toNat (ckOff c + n) ((below (ckLen c - n)).map fun i => Config.ckptByte k (n + i)) []).1
    { s with freeCtr := k + 1 }

/-- R391: an NVMe command failed or was lost: the slot is detached, vector 131 is signalled, the command ends. -/
def ckFail (s : State) (f : HostFn) (c : HostCmd) (flush : Bool) : State :=
  let s := serviceEvent (setSlot s f.val (ckSlot c) none) (if f.val = 0 then none else some f.val)
  let s := spoilRest s f c
  modCmd s f.val c.seq fun c => { c with begun := true, fin := some (sLOST, if flush then 0 else ckResult c) }

/-- A transfer taken as far as it goes: pieces issued, a flush after the last write with FUA, its end. -/
def ckAdvance (s : State) (f : HostFn) (seq : Nat) : State :=
  let s := issueAll 4096 s f seq
  match cmdBySeq s f.val seq with
  | none => s
  | some c =>
    let idle := c.nv.all fun e => e.ok.isSome
    if c.fin.isSome || !idle then s
    else match c.nvBad with
    | some st => modCmd s f.val seq fun c => { c with fin := some (st, ckResult c) }
    | none =>
      match slotOf s f.val (ckSlot c) with
      | none =>
        if ckLen c ≤ c.nvNext && cmdFua c.words && ckWrite c && !c.nv.any fun e => e.flush then ckFail s f c true
        else if ckLen c ≤ c.nvNext then modCmd s f.val seq fun c => { c with fin := some (sOK, ckResult c) } else ckFail s f c false
      | some v =>
        if c.nvNext < ckLen c then s
        else if cmdFua c.words && !c.nv.any fun e => e.flush then
          (if slotSize v - 1 ≤ outstanding s f.val (ckSlot c) then s else issueNvme s f c v 0 0 true)
        else modCmd s f.val seq fun c => { c with fin := some (sOK, wd (ckLen c)) }

/-- The first check that a transfer fails. -/
def ckFault (s : State) (f : HostFn) (c : HostCmd) : Option Status :=
  match slotOf s f.val (ckSlot c) with
  | none => some sBOUNDS
  | some v =>
    if ckLen c % slotLba v ≠ 0 then some sRSVD
    else if ckLen c = 0 then some sOK
    else if fld (c.words.getD 1 0) 62 2 ≠ 2 then some sBOUNDS
    else devFault s f (c.words.getD 1 0) (ckLen c)

/-- CKPT_WRITE and CKPT_READ (R391). -/
def ckTransfer (opc : Nat) (r : CmdRef) (s : State) : State :=
  match running s r opc with
  | none => s
  | some c =>
    if c.begun then ckAdvance s r.f c.seq
    else match ckFault s r.f c with
    | some st => endCmd s r c st 0
    | none => ckAdvance (modCmd s r.f.val c.seq fun c => { c with begun := true }) r.f c.seq

/-- The command and the record of an NVMe command outstanding on a slot. -/
def nvmeOf (s : State) (f slot id : Nat) : Option (HostCmd × Nvme) :=
  firstThat (fun (_ : HostCmd × Nvme) => true) ((getFn s f).cmds.filterMap fun c =>
    if ckSlot c = slot ∧ c.fin.isNone = true then
      (firstThat (fun (e : Nvme) => e.id == id && e.ok.isNone) c.nv).map fun e => (c, e)
    else none)

/-- An NVMe command's outcome recorded. -/
def markNvme (s : State) (f seq id : Nat) (ok : Bool) (sf : BitVec 16) : State :=
  modCmd s f seq fun c => { c with
    nv := c.nv.map fun e => if e.id = id then { e with ok := some ok } else e, nvSf := if ok then c.nvSf else sf }

/-- The 16 bytes of a completion entry (log entry 40, PRESUMED): SQ head and queue, identifier, phase tag, status field. -/
def cqEntry (v : Slot) (id : Nat) (sf : BitVec 16) : List Byte :=
  leBytes 8 0 ++ leBytes 2 v.tail ++ leBytes 2 (fld (v.words.getD 3 0) 48 16) ++ leBytes 2 id ++
    leBytes 2 (2 * (sf.toNat % 2 ^ 15) + bitAt v.phase 0)

/-- R390: the SSD's entry in the Landing memory of a slot's CQ; the service, which polls for the phase tag, takes it and moves on. -/
def takeCqEntry (s : State) (f n : Nat) (v : Slot) (id : Nat) (sf : BitVec 16) : State :=
  let head := (v.head + 1) % slotSize v
  let s := setSlot s f n (some { v with head := head, phase := v.phase != (head == 0) })
  { s with host := { s.host with
    aper := wrBytes s.host.aper (aperAt f n (0x100000 + 16 * v.head)) (cqEntry v id sf), bus := s.host.bus ++ [(v.words.getD 2 0, wd head)] } }

/-- NVME_COMPLETION (R391): a completion of an attached slot; a Read's data has been written to the range. The CQ head doorbell
follows. -/
def doNvmeCompletion (f : HostFn) (slot : BitVec 3) (nvmeId : Nat) (sf : BitVec 16) (data : List Byte) (s : State) : State :=
  match nvmeOf s f.val slot.toNat nvmeId, slotOf s f.val slot.toNat with
  | some (c, e), some v =>
    let s := takeCqEntry s f.val slot.toNat v nvmeId sf
    let s := markNvme s f.val c.seq nvmeId (sf == 0) sf
    if sf = 0 then
      let s := if ckWrite c || e.flush then s else (hbmStore s (fnPart f).toNat (ckOff c + e.off) (data.take e.len) []).1
      ckAdvance s f c.seq
    else match cmdBySeq s f.val c.seq with
    | some c => ckFail s f c e.flush
    | none => s
  | _, _ => s

/-- NVME_TIMEOUT (R391): 5 s without a completion. -/
def doNvmeTimeout (f : HostFn) (slot : BitVec 3) (nvmeId : Nat) (s : State) : State :=
  match nvmeOf s f.val slot.toNat nvmeId with
  | none => s
  | some (c, e) =>
    if now s < e.tick + 5000001 then s
    else
      let s := markNvme s f.val c.seq nvmeId false 0
      match cmdBySeq s f.val c.seq with
      | some c => ckFail s f c e.flush
      | none => s

/-! ### Meanings -/

def execCkptAttach (r : CmdRef) (s : State) : Out := .next (doCkptAttach r s)
def execCkptDetach (r : CmdRef) (s : State) : Out := .next (doCkptDetach r s)
def execCkptWrite (r : CmdRef) (s : State) : Out := .next (ckTransfer 0x3A r s)
def execCkptRead (r : CmdRef) (s : State) : Out := .next (ckTransfer 0x3B r s)
def execNvmeCompletion (f : HostFn) (slot : BitVec 3) (nvmeId : Nat) (sf : BitVec 16) (data : List Byte) (s : State) : Out :=
  .next (doNvmeCompletion f slot nvmeId sf data s)
def execNvmeTimeout (f : HostFn) (slot : BitVec 3) (nvmeId : Nat) (s : State) : Out := .next (doNvmeTimeout f slot nvmeId s)

end Sys2Proof.Machine
end

