-- ==== Sys2Proof/Machine/HostData.lean ====
section
/-! DEFINITION. The data, message and load commands, the end of a command, and the reset of a function
(14_host_interface.md R371, R379, R383 to R386, R395, R397; 10_spatial_layouts.md R285, R286). -/

namespace Sys2Proof.Machine

/-! ### DMA (R383) -/

/-- The end of the last whole packet of a transfer of `len` bytes that `n` bytes complete: packets are cut at 512-byte boundaries
of the device address (R260). -/
def wholePackets (a n len : Nat) : Nat := if len ≤ n then len else (a + n) / 512 * 512 - min a ((a + n) / 512 * 512)

/-- The scatter list fits its command: its entries and counts. -/
def listOk (ws : List Word) (d : HostData) : Bool :=
  !cmdList ws || (d.counts.length == fld (ws.getD 4 0) 0 13 && d.addrs.length == d.counts.length && d.counts.sum == fld (ws.getD 3 0) 0 32)

/-- The checks common to both directions; a LEN of 0 completes OK at once. -/
def dmaFault (s : State) (f : HostFn) (ws : List Word) (d : HostData) : Option Status :=
  if cmdList ws && d.failed && d.counts.isEmpty then some sBOUNDS
  else if !listOk ws d then some sRSVD
  else if fld (ws.getD 3 0) 0 32 = 0 then some sOK
  else devFault s f (ws.getD 2 0) (fld (ws.getD 3 0) 0 32)

/-- R383: where a transfer ends that meets a poisoned host completion at its byte `i`: with the packet that holds it. -/
def poisonEnd (a i len : Nat) : Nat := min len (((a + i) / 512 + 1) * 512 - a)

/-- DMA_TO_DEV: a poisoned host completion marks its destination chunk and ends the command, whose packets up to it are written (log
entry 45). -/
def dmaToDev (f : HostFn) (d : HostData) (c : HostCmd) (s : State) : State × Status × Word :=
  let len := fld (c.words.getD 3 0) 0 32
  match dmaFault s f c.words d with
  | some st => (s, st, 0)
  | none =>
    let a := c.words.getD 2 0
    let off := if fld a 62 2 = 1 then fld a 0 21 else fld a 0 38
    let whole := wholePackets off d.bytes.length len
    let hurt := firstThat (fun i => d.bad.contains i) (below (min len d.bytes.length))
    let n := match hurt with
      | some i => min whole (poisonEnd off i len)
      | none => whole
    let q := devStore s (fnPart f) a (d.bytes.take n) (d.bad.filter fun i => decide (i < n))
    (q.1, if hurt.isSome then sPOISON else if n < len then sBOUNDS else if q.2 then sPOISON else sOK, wd n)

/-- The bytes of a transfer written to the places of a scatter list, or to one place. -/
def scatter (s : State) : List (Word × Nat) → List Byte → NatSet → State
  | [], _, _ => s
  | (a, n) :: r, bs, bad =>
    scatter (hostWrite s a.toNat (bs.take n) (bad.filter fun i => decide (i < n))) r (bs.drop n)
      ((bad.filter fun i => decide (n ≤ i)).map fun i => i - n)

/-- DMA_FROM_DEV: poisoned bytes leave in poisoned TLPs. -/
def dmaFromDev (f : HostFn) (d : HostData) (c : HostCmd) (s : State) : State × Status × Word :=
  let len := fld (c.words.getD 3 0) 0 32
  match dmaFault s f c.words d with
  | some st => (s, st, 0)
  | none =>
    let q := devFetch s (fnPart f) (c.words.getD 2 0) len
    let dests := if cmdList c.words then d.addrs.zip d.counts else [(c.words.getD 1 0, len)]
    (if c.dead then s else scatter s dests q.1 q.2, if q.2.isEmpty then sOK else sPOISON, wd len)

def doDmaToDev (r : CmdRef) (d : HostData) (s : State) : State := runCmdNow s r 0x10 (dmaToDev r.f d)
def doDmaFromDev (r : CmdRef) (d : HostData) (s : State) : State := runCmdNow s r 0x11 (dmaFromDev r.f d)

/-! ### MSG (R384) -/

/-- A word of the bytes that host memory returned. -/
def wordAt (bs : List Byte) (i : Nat) : Word := wd (leNat ((bs.drop (8 * i)).take 8))

/-- The header image with the fields that the device sets: SRC, HOST, HOSTREF, and an epoch of 0. -/
def hostHdr (s : State) (ref : Nat) (bs : List Byte) : Hdr :=
  { w0 := wordAt bs 0, w2 := wordAt bs 2, w3 := putFld (wordAt bs 3) 0 48 (ref % 2 ^ 32)
    w1 := putFld (putFld (wordAt bs 1) 56 1 1) 0 36 (senderWord s 0 0).toNat }

/-- The first check of R243 that a host message fails; a failing host completion gives BOUNDS. -/
def hostMsgFault (s : State) (f : HostFn) (d : HostData) (h : Hdr) : Option Status :=
  let n := hdrLen h
  if d.failed && decide (d.bytes.length < 32) then some sBOUNDS
  else if d.bad.any fun i => decide (i < 32) then some sPOISON
  else if badHdr h then some sRSVD
  else if decide (d.bytes.length < 32 + n) then some sBOUNDS
  else if d.bad.any fun i => decide (i < 32 + n) then some sPOISON
  else if noRoute s h then some sNOROUTE
  else match hdrFar s h with
  | some _ => none
  | none => match partOf s (dgOf (hdrDst h)) with
    | some p => if f.val == 0 && tdiLocked s p.toNat then some sPERM else none
    | none => none

/-- The partition that a host message carries (R414). -/
def hostMsgPart (s : State) (f : HostFn) (h : Hdr) : BitVec 4 :=
  if f.val = 0 then corePart s (hdrDst h) else fnPart f

/-- A host message that has passed its checks injected; one whose target no router reaches ends LCID_VACANT. -/
def injectHostMsg (s : State) (r : CmdRef) (c : HostCmd) (d : HostData) (h : Hdr) : State :=
  let m : Msg := { h := h, data := (d.bytes.drop 32).take (hdrLen h), bad := [], part := hostMsgPart s r.f h, mid := c.ref, due := 0, again := false }
  let s := modCmd s r.f.val c.seq fun c => { c with begun := true }
  let p := { msgPkt m with part := m.part }
  match hdrFar s h with
  | some did =>
    let q := { p with fab := some ⟨if hasDid s then ownDid s else 0, did, 0, some (hdrDst h), 0, false⟩ }
    sendFar (modCmd s r.f.val c.seq fun c => { c with wire := some (q, now s) }) (.ep epPcie) p did 0 (some (hdrDst h))
  | none =>
    let p := { p.toCore (hdrDst h) with srcl := true, sep := epPcie }
    if hostReaches s p.addr p.dst then
      let wire := { p with seq := nextSeq s p.dst 20 p }
      sendLanding (modCmd s r.f.val c.seq fun c => { c with wire := some (wire, now s) }) epPcie p
    else endCmd s r c sVACANT 0

/-- MSG: the message is injected, and its outcome ends the command. -/
def doHostMsg (r : CmdRef) (d : HostData) (s : State) : State :=
  match running s r 0x12 with
  | none => s
  | some c =>
    let h := hostHdr s c.ref d.bytes
    if c.begun then s
    else match hostMsgFault s r.f d h with
    | some st => endCmd s r c st 0
    | none => injectHostMsg s r c d h

/-! ### Channel lists (R285, R286) -/

/-- One channel record (Table 10.2). -/
abbrev ChanRec := Word × Word

def chSrc (c : ChanRec) : Lcid := BitVec.ofNat 12 (fld c.1 0 12)
def chHops (c : ChanRec) : Nat := fld c.2 0 4
def chDirs (c : ChanRec) : List Nat := routeDirs (fld c.1 48 16) (chHops c)
def chPath (c : ChanRec) : List Lcid := chSrc c :: (routePath (chSrc c) (chDirs c)).getD []
def chDst (c : ChanRec) : Lcid := (chPath c).getLastD 0
def chSrcQn (c : ChanRec) : Nat := fld c.1 21 6
def chDstQn (c : ChanRec) : Nat := fld c.2 14 6

/-- The directed links of a channel: each position it leaves, with the direction. -/
def chLinks (c : ChanRec) : List (Lcid × Nat) := (chPath c).zip (chDirs c)

/-- Table 10.3, check 1. -/
def chBad1 (c : ChanRec) : Bool :=
  let din := fld c.1 40 7
  let dout := fld c.1 32 7
  bit c.1 47 || bit c.1 39 || fld c.1 27 5 != 0 || fld c.2 20 44 != 0 || bit c.2 4 || chHops c == 0 || decide (8 < chHops c) ||
  decide (din < 2) || decide (64 < din) || decide (dout < 2) || decide (64 < dout) || chSrcQn c == 63 || chDstQn c == 63 ||
  fld c.1 48 16 / 4 ^ chHops c != 0

/-- Table 10.3, check 2. -/
def chBad2 (s : State) (c : ChanRec) : Bool :=
  (routePath (chSrc c) (chDirs c)).isNone || decide ((chPath c).eraseDups.length < (chPath c).length) ||
  (chPath c).any fun l => !groveWorks s (dgOf l)

/-- Table 10.3, check 5: what a record claims that an earlier one, or a channel of other cores, has claimed. -/
def chBad5 (taken qns : List (Lcid × Nat)) (before : List ChanRec) (c : ChanRec) : Bool :=
  let ends := fun (x : ChanRec) => [(chSrc x, chSrcQn x), (chDst x, chDstQn x)]
  (chLinks c).any (fun x => taken.contains x || before.any fun b => (chLinks b).contains x) ||
  (ends c).any (fun e => qns.contains e || before.any fun b => (ends b).contains e)

/-- Positions reachable from those of a list along channels, in `n` rounds. -/
def chReach (cs : List ChanRec) : Nat → List Lcid → List Lcid
  | 0, l => l
  | n + 1, l => chReach cs n (cs.foldl (fun l c => if l.contains (chSrc c) && !l.contains (chDst c) then chDst c :: l else l) l)

/-- Table 10.3, check 6: a record that closes a cycle with those before it. -/
def chBad6 (before : List ChanRec) (c : ChanRec) : Bool := (chReach before before.length [chDst c]).contains (chSrc c)

/-- The first record for which a condition on it and those before it holds. -/
def firstBad (p : List ChanRec → ChanRec → Bool) : List ChanRec → List ChanRec → Option Nat
  | _, [] => none
  | before, c :: r => if p before c then some before.length else firstBad p (before ++ [c]) r

/-- Every channel that begins or ends at a core unbound at both ends. -/
def unbindCore (s : State) (l : Lcid) : State :=
  let s := s.cores.foldl (fun s p =>
    let m : Lcid := BitVec.ofNat 12 p.1
    (below 4).foldl (fun s d =>
      let e := getLink (getCore s m) false d
      match channelEnd m e with
      | some (t, side, _) =>
        if linkValid e && (m == l || t == l) then
          modCore (modCore s m fun k => setLink k false d .zero) t fun k => setLink k true side .zero
        else s
      | none => s) s) s
  modCore s l fun k => { k with outL := [], inL := [] }

/-- The links of the channels that are bound (R278). -/
def boundLinks (s : State) : List (Lcid × Nat) :=
  s.cores.flatMap fun p =>
    let l : Lcid := BitVec.ofNat 12 p.1
    (below 4).flatMap fun d =>
      let e := getLink p.2 false d
      match channelEnd l e with
      | some (_, _, path) => if linkValid e then (l :: path).zip (routeDirs (linkRoute e) (linkHops e)) else []
      | none => []

/-- The pairs of core and QN that are bound, each endpoint by itself (Table 10.3, check 5). -/
def boundQns (s : State) : List (Lcid × Nat) :=
  s.cores.flatMap fun p => [false, true].flatMap fun inn => (below 4).filterMap fun d =>
    let e := getLink p.2 inn d
    if linkValid e then some (BitVec.ofNat 12 p.1, fld e.reg 38 6) else none

/-- The records of a channel list. -/
def chanRecs (ws : List Word) : List ChanRec := (pieces 2 (ws.length / 2 + 1) (ws.drop 2)).map fun p => (p.getD 0 0, p.getD 1 0)

/-- A channel list's header: N in range, every other bit zero, every record there. -/
def chanHeadOk (ws : List Word) : Bool :=
  let n := (ws.getD 0 0).toNat
  1 ≤ n && decide (n ≤ 16384) && ws.getD 1 0 == 0 && ws.length == 2 + 2 * n

/-- Table 10.3 in its order: the failing status and record. The channels of the load's own cores are unbound by it, and claim nothing. -/
def chanFault (s : State) (part : BitVec 4) (cores : List Lcid) (ws : List Word) : Option (Status × Nat) :=
  let cs := chanRecs ws
  let u := cores.foldl unbindCore s
  let at' := fun (st : Status) (p : List ChanRec → ChanRec → Bool) => (firstBad p [] cs).map fun i => (st, i)
  if !chanHeadOk ws then some (sRSVD, 0xFFFF)
  else (at' sRSVD fun _ c => chBad1 c).orElse fun _ => (at' sBOUNDS fun _ c => chBad2 s c).orElse fun _ =>
    (at' sVACANT fun _ c => !occupied s (chSrc c) || !occupied s (chDst c)).orElse fun _ =>
    (at' sPERM fun _ c => (chPath c).any fun l => partOf s (dgOf l) != some part).orElse fun _ =>
    (at' sRSVD (chBad5 (boundLinks u) (boundQns u))).orElse fun _ => at' sRSVD chBad6

/-- One channel bound at both ends (R286). -/
def bindChan (s : State) (c : ChanRec) : State :=
  let reg := fun (depth ctx qn : Nat) =>
    wd (2 ^ 63 + depth * 2 ^ 56 + ctx * 2 ^ 44 + qn * 2 ^ 38 + chHops c * 2 ^ 34 + fld c.1 48 16 * 2 ^ 16)
  let s := modCore s (chSrc c) fun k => setLink k false ((chDirs c).headD 0) (bindLink (reg (fld c.1 32 7) (fld c.1 12 9) (chSrcQn c)))
  modCore s (chDst c) fun k => setLink k true (enterSide (chDirs c)) (bindLink (reg (fld c.1 40 7) (fld c.2 5 9) (chDstQn c)))

/-! ### LOAD and UNLOAD (R386) -/

/-- The cores that masks name, in ascending LCID order. -/
def namedCores (pos : Nat) (masks : List Word) : List Lcid :=
  (below 256).flatMap fun g =>
    if bit (masks.getD (g / 64) 0) (g % 64) then
      (below 16).filterMap fun n => if pos.testBit n then some (lcidOf (BitVec.ofNat 8 g) n) else none
    else []

/-- Fields of the load descriptor (Table 14.7). -/
def ldWord (d : LoadData) (i : Nat) : Word := d.desc.getD i 0
def ldCores (d : LoadData) : List Lcid := namedCores (fld (ldWord d 0) 32 16) (d.desc.drop 1)
def ldOff (d : LoadData) : Nat := fld (ldWord d 6) 22 21
def ldLen (d : LoadData) : Nat := fld (ldWord d 6) 0 22
def ldCount (d : LoadData) : Nat := fld (ldWord d 9) 51 13

/-- A handler entry with a reserved bit or value (Table 06.10). -/
def badHandler (w : Word) : Bool := w != keepFields w [(63, 1), (48, 8), (0, 21)] || fld w 0 3 != 0

/-- A CORE_MSG_AREA value with a reserved bit or value (R273, Table 09.12). -/
def badMsgArea (w : Word) : Bool :=
  fld w 32 32 != 0 || fld w 0 7 != 0 || decide (1024 < fld w 21 11) || decide (sliceBytes < fld w 0 21 + 640 * fld w 21 11)

/-- R386 step 1, the first part. -/
def loadReserved (d : LoadData) : Bool :=
  let w := ldWord d
  d.unreadable || d.desc.length != 12 || fld (w 0) 27 5 != 0 || fld (w 0) 48 16 == 0 || fld (w 6) 43 21 != 0 || ldOff d % 128 != 0 ||
  ldLen d == 0 || decide (sliceBytes < ldLen d) || decide (4096 < ldCount d) || fld (w 9) 22 29 != 0 || fld (w 9) 0 3 != 0 ||
  badMsgArea (w 10) || (w 11) != keepFields (w 11) [(28, 1), (16, 12)] || d.image.length != ldLen d || d.handlers.length != ldCount d ||
  d.handlers.any badHandler || ((w 8) == 0 && !d.channels.isEmpty)

/-- Cores that a LOAD or UNLOAD in progress, other than this one, has taken. -/
def coreTaken (s : State) (f : HostFn) (seq : Nat) (l : Lcid) : Bool :=
  (below 17).any fun g => (getFn s g).cmds.any fun c => c.cores.contains l && c.fin.isNone && !(g == f.val && c.seq == seq)

/-- RESULT of a failed LOAD: the failing core and the failing channel record. -/
def loadResult (l : Option Lcid) (chan : Nat) : Word :=
  wd ((match l with | some x => 2 ^ 63 + x.toNat * 2 ^ 32 | none => 0) + chan % 2 ^ 16)

/-- R386 steps 1 and 2. -/
def loadFault (s : State) (f : HostFn) (seq : Nat) (part : BitVec 4) (d : LoadData) : Option (Status × Word) :=
  let cores := ldCores d
  let find := fun (p : Lcid → Bool) => firstThat p cores
  if loadReserved d then some (sRSVD, loadResult none 0xFFFF)
  else if sliceBytes < ldOff d + ldLen d then some (sBOUNDS, loadResult none 0xFFFF)
  else match find fun l => !occupied s l || !hostReaches s 0 (dgOf l) with
  | some l => some (sVACANT, loadResult (some l) 0xFFFF)
  | none => match find fun l => partOf s (dgOf l) != some part || coreTaken s f seq l with
    | some l => some (sPERM, loadResult (some l) 0xFFFF)
    | none =>
      if ldWord d 8 == 0 then none
      else match chanFault s part cores d.channels with
      | some (st, i) => some (st, loadResult none i)
      | none => none

/-- Table 06.7 steps 1 and 2 on one core. -/
def quiesce (k : Core) : Core := setCtrl k (wd (fld k.ctrl 2 62 * 4 + 2))

/-- Table 06.7 steps 3 and 4 on one core, its channels unbound. -/
def changeRole (s : State) (l : Lcid) (v : Word) : State :=
  let s := (heldOrFaulted (getCore s l)).foldl (fun s c => freeCtx s l c) s
  setRole (unbindCore s l) l v

/-- A core's role value: program, partition, logical ID (Table 06.5). -/
def roleValue (part : BitVec 4) (program logical : Nat) : Word :=
  wd (part.toNat * 2 ^ 44 + program * 2 ^ 28 + logical % 2 ^ 27)

/-- R386 step 4, R225: the image of a LOAD ends in part of a chunk that is poisoned, which a partial write leaves as it is. -/
def loadPoison (d : LoadData) (k : Core) : Bool := (slWrite k.sp (ldOff d) d.image).2.isSome

/-- R386 step 4: the handler table, the image and the arrival area of one core. -/
def loadCore (d : LoadData) (k : Core) : Core :=
  let k := { modSp k (fun sl => slPut sl (ldOff d) d.image) with ht := (d.handlers.zipIdx).foldl (fun t p => tput 0 t p.2 p.1) [] }
  modUn k fun u => { u with area := ldWord d 10, slots := [], starts := [] }

/-- R386 step 5 on one core. -/
def openCore (d : LoadData) (k : Core) : Core :=
  let k := setCtrl k (wd ((ldWord d 11).toNat + 1))
  if bit (ldWord d 9) 21 then startCtx k 0 (BitVec.ofNat 21 (fld (ldWord d 9) 0 21)) 0 0 0 2 0 .none else k

/-- An endpoint that cannot be bound: a core outside the load that is not at rest (R287). -/
def chanBlocked (s : State) (cores : List Lcid) (c : ChanRec) : Bool :=
  [chSrc c, chDst c].any fun l => !cores.contains l && !roleIdle (getCore s l)

/-- Steps 3 to 5 of R386 once every core is quiet. -/
def loadNow (s : State) (part : BitVec 4) (d : LoadData) (cores : List Lcid) : State :=
  let s := (cores.zipIdx).foldl (fun s p =>
    changeRole s p.1 (roleValue part (fld (ldWord d 0) 48 16) (fld (ldWord d 0) 0 27 + p.2))) s
  let s := cores.foldl (fun s l => modCore s l (loadCore d)) s
  let s := if ldWord d 8 == 0 then s else (chanRecs d.channels).foldl bindChan s
  let s := cores.foldl (fun s l => modCore s l (openCore d)) s
  let meas := sha384 (d.image ++ wordBytes d.handlers ++ wordBytes d.channels)
  { s with sec := { s.sec with measP := tput [] s.sec.measP part.toNat meas } }

/-- A core taken through steps 3 and 4 of Table 06.7 with PROGRAM 0, HOLD_ALL as step 2 left it; the resident image is written again
(R438). -/
def unloadCore (part : BitVec 4) (s : State) (l : Lcid) : State := writeResident (changeRole s l (roleValue part 0 0)) l

/-- LOAD (R386): its cores are taken and held at its first turn; it goes on once all are quiet. -/
def doHostLoad (r : CmdRef) (d : LoadData) (s : State) : State :=
  match running s r 0x20 with
  | none => s
  | some c =>
    let part := cmdPart r.f c.words
    match loadFault s r.f c.seq part d with
    | some (st, res) => endCmd (c.cores.foldl (unloadCore part) s) r c st res
    | none =>
      let cores := if c.begun then c.cores else ldCores d
      let s := if c.begun then s
        else modCmd (cores.foldl (fun s l => modCore s l quiesce) s) r.f.val c.seq fun c => { c with begun := true, cores := cores }
      if cores.any fun l => !quietCore (getCore s l) || groveSounds s (dgOf l) || sweptPos s l then s
      else if ldWord d 8 != 0 && (chanRecs d.channels).any (chanBlocked s cores) then
        endCmd (cores.foldl (unloadCore part) s) r c sPERM
          (loadResult none (((chanRecs d.channels).findIdx? (chanBlocked s cores)).getD 0xFFFF))
      else match firstThat (fun l => loadPoison d (getCore s l)) cores with
        | some l => endCmd (cores.foldl (unloadCore part) (loadNow s part d cores)) r c sPOISON (loadResult (some l) 0xFFFF)
        | none => endCmd (loadNow s part d cores) r c sOK (loadResult none 0xFFFF)

/-- A vacated position without a program: nothing but the number is left to take (R386, R415). -/
def clearProgram (s : State) (l : Lcid) : State :=
  modCore s l fun k => { k with role := wd (k.role.toNat - fld k.role 28 16 * 2 ^ 28) }

/-- UNLOAD (R386): the cores are those of occupied positions; of a vacant one only PROGRAM is cleared. -/
def doHostUnload (r : CmdRef) (s : State) : State :=
  match running s r 0x21 with
  | none => s
  | some c =>
    let part := cmdPart r.f c.words
    let all := namedCores (fld (c.words.getD 3 0) 0 16) (c.words.drop 4)
    let named := all.filter (occupied s)
    if !c.begun && all.any fun l => partOf s (dgOf l) != some part || coreTaken s r.f c.seq l then endCmd s r c sPERM 0
    else
      let cores := (if c.begun then c.cores else named).filter (occupied s)
      let s := if c.begun then s
        else modCmd (cores.foldl (fun s l => modCore s l quiesce) s) r.f.val c.seq fun c => { c with begun := true, cores := cores }
      if cores.any fun l => !quietCore (getCore s l) then s
      else endCmd ((all.filter fun l => !occupied s l).foldl clearProgram (cores.foldl (unloadCore part) s)) r c sOK 0

/-! ### FLR (R371, R395) -/

/-- A core unloaded at once, every context of it ended as at a core reset. -/
def forceUnload (part : BitVec 4) (s : State) (l : Lcid) : State :=
  let role := (getCore s l).role
  let s := resetCore (unbindCore s l) l
  modCore s l fun k => { k with role := wd (nextEpoch (fld role 48 16) * 2 ^ 48 + part.toNat * 2 ^ 44) }

/-- R395, R397: a locked TDI whose partition is unloaded, its range removed, its TDI unlocked; every context ends as at a core
reset. -/
def forceUnlock (s : State) (n : Nat) : State :=
  let cores := ((below 4096).map (BitVec.ofNat 12)).filter fun l => partOf s (dgOf l) == some (BitVec.ofNat 4 n) && occupied s l
  let s := cores.foldl (forceUnload (BitVec.ofNat 4 n)) s
  modFn (removeRange s n 0) (n + 1) fun m => { m with tdi := .unlocked }

/-- A function as after reset: its commands in flight run to their ends without effect on the host. -/
def flrFn (n : Fn) : Fn :=
  { Fn.zero with cmds := n.cmds.map fun c => { c with dead := true }, nseq := n.nseq, sent := n.sent, tdi := n.tdi }

/-- FLR. -/
def doFlr (f : HostFn) (s : State) : State :=
  let s := modFn s f.val flrFn
  let s := { s with wrej := tput 0 s.wrej (cqBlk f) 0 }
  let s := if 0 < f.val ∧ tdiLocked s (f.val - 1) = true then forceUnlock s (f.val - 1)
    else modFn s f.val fun n => { n with tdi := .unlocked }
  signalVec s f.val 128

/-! ### Meanings -/

def execDmaToDev (r : CmdRef) (d : HostData) (s : State) : Out := .next (doDmaToDev r d s)
def execDmaFromDev (r : CmdRef) (d : HostData) (s : State) : Out := .next (doDmaFromDev r d s)
def execHostMsg (r : CmdRef) (d : HostData) (s : State) : Out := .next (doHostMsg r d s)
def execHostLoad (r : CmdRef) (d : LoadData) (s : State) : Out := .next (doHostLoad r d s)
def execHostUnload (r : CmdRef) (s : State) : Out := .next (doHostUnload r s)
def execFlr (f : HostFn) (s : State) : Out := .next (doFlr f s)

end Sys2Proof.Machine
end

