-- ==== Sys2Proof/Machine/Collect.lean ====
section
/-! DEFINITION. Collectives: definition, deletion, the exchange with other devices (14_host_interface.md R388, R389;
11_mesh_and_reduction.md R320). -/

namespace Sys2Proof.Machine

/-- A collective of a partition. -/
def collOf (s : State) (part : BitVec 4) (id : BitVec 16) : Option Coll :=
  firstThat (fun c => c.part == part && c.id == id) s.host.colls

/-- The arming image as a reduction. -/
def collRed (c : Coll) : Red := freshRed c.image c.members none

/-- The data that a COLL_DEFINE reads: from the host, or from the partition range on a service pair (R387). -/
def collInput (s : State) (f : HostFn) (svc : Bool) (ws : List Word) (d : CollData) : CollData :=
  if svc then
    let word := fun (o : Nat) => wd (leNat (hbmFetch s (fnPart f).toNat o 8).1)
    { image := (below 11).map fun i => word (fld (ws.getD 1 0) 0 38 + 8 * i)
      dids := (below (fld (ws.getD 3 0) 0 16)).map fun i =>
        BitVec.ofNat 15 (leNat (hbmFetch s (fnPart f).toNat (fld (ws.getD 2 0) 0 38 + 2 * i) 2).1) }
  else d

/-- R388: DONE is a VALID barrier with PARAM 1 in the destination's grove. -/
def doneOk (s : State) (c : Coll) : Bool :=
  let o := getObj (getGrove s (syncDg c.done)) (syncIx c.done)
  syncDg c.done == redRoot (collRed c) && fld c.done 15 49 == 0 && bit o.cfg 63 && objType o == 1 && objParam o == 1 && objPart o == c.part

/-- The checks of COLL_DEFINE; an image or list that the host does not return whole gives BOUNDS. -/
def collFault (s : State) (c : Coll) (ndev : Nat) : Option Status :=
  if c.image.length ≠ 11 ∨ c.dids.length ≠ ndev then some sBOUNDS
  else if (collOf s c.part c.id).isSome || decide (64 ≤ (s.host.colls.filter fun d => d.part == c.part).length) then some sPERM
  else if ndev = 1 && c.dids != [ownDid s] then some sRSVD
  else match armFault s c.image with
  | some st => some st
  | none =>
    if partOf s (redRoot (collRed c)) ≠ some c.part then some sPERM else if !doneOk s c then some sBOUNDS else none

/-- COLL_DEFINE (R388): REDUCE and ALL_REDUCE arm a reduction, BROADCAST none. -/
def doCollDefine (r : CmdRef) (d : CollData) (s : State) : State :=
  runCmdNow s r 0x30 fun hc s =>
    let w := fun i => hc.words.getD i 0
    let svc := match pairOf s r.f hc.q.toNat with | some p => p.svc.isSome | none => false
    let d := collInput s r.f svc hc.words d
    let kind := fld (w 3) 32 2
    let id : BitVec 16 := BitVec.ofNat 16 (fld (w 3) 48 16)
    let c : Coll := { part := cmdPart r.f hc.words, id := id, kind := BitVec.ofNat 2 kind, image := d.image, dids := d.dids, done := w 4
                      fn := r.f, members := imageMembers s d.image, ready := false, since := 0, result := none, phase := 0, acks := 0 }
    let o := getObj (getGrove s (redRoot (collRed c))) (syncIx (d.image.getD 5 0))
    let c := { c with phase := fld o.val 32 32 }
    match collFault s c (fld (w 3) 0 16) with
    | some st => (s, st, 0)
    | none =>
      let s := if kind = 2 then s else (armRed s c.image (some (c.part, c.id))).1
      ({ s with host := { s.host with colls := s.host.colls ++ [c] } }, sOK, wd id.toNat)

/-- A collective gone, with its reduction. -/
def dropColl (s : State) (c : Coll) : State :=
  let s := (s.reds.filter fun r => r.coll == some (c.part, c.id)).foldl (fun s r => disarm (dropRedPkts s (redAnchor r)) (redAnchor r)) s
  let root := redRoot (collRed c)
  let s := modGrove s root fun g => { g with mcasts := g.mcasts.filter fun m => m.coll != (c.part, c.id) }
  { s with host := { s.host with colls := s.host.colls.filter fun d => !(d.part == c.part && d.id == c.id) } }

/-- COLL_DELETE; one that names no collective gives BOUNDS. -/
def doCollDelete (r : CmdRef) (s : State) : State :=
  runCmdNow s r 0x31 fun hc s =>
    match collOf s (cmdPart r.f hc.words) (BitVec.ofNat 16 (fld (hc.words.getD 3 0) 48 16)) with
    | none => (s, sBOUNDS, 0)
    | some c => (dropColl s c, sOK, 0)

/-! ### The exchange (R389) -/

/-- The local phase of a collective is complete: its reduction's, or for a BROADCAST the anchor's. -/
def phaseDone (s : State) (c : Coll) : Bool :=
  if c.kind = 2 then
    fld (getObj (getGrove s (redRoot (collRed c))) (syncIx (c.image.getD 5 0))).val 32 32 != c.phase
  else c.ready

/-- The chunks of a result from its data and its plane. -/
def resultChunks (r : Red) (data plane : List Byte) (bad : Nat → Bool) : List RedChunk :=
  (below (redChunks r)).map fun i => chunkOf (redRepro r) ((data.drop (chunkBytes r * i)).take (chunkBytes r))
    ((plane.drop (planeLen r * i)).take (planeLen r)) (bad i)

/-- The local result as DEST and DEST_PLANE hold it. -/
def destChunks (s : State) (r : Red) : List RedChunk :=
  let sl := (getCore s (redDest r)).sp
  let a := fld (redWord r 0) 0 21
  let p := fld (redWord r 1) 0 21
  resultChunks r (slRead sl a (redChunks r * chunkBytes r)) (slRead sl p (redChunks r * planeLen r)) fun i =>
    (poisonAt sl (a + chunkBytes r * i) (chunkBytes r)).isSome || (poisonAt sl (p + planeLen r * i) (planeLen r)).isSome

/-- The local result: the one held for an exchange, else what DEST holds. -/
def localChunks (s : State) (c : Coll) : List RedChunk :=
  match c.result with
  | some r => (below (redChunks r)).filterMap fun i => tget none r.out i
  | none => destChunks s (collRed c)

/-- One device's chunks added to those so far (R320). -/
def addChunks (r : Red) (acc : Red) (cs : List RedChunk) : Red :=
  (cs.zipIdx).foldl (fun acc p =>
    match tget none acc.out p.2 with
    | none => { acc with out := tput none acc.out p.2 (some p.1), bad := acc.bad || p.1.bad }
    | some c =>
      let q := redAdd r c p.1
      { acc with out := tput none acc.out p.2 (some q.chunk), bad := acc.bad || q.chunk.bad, fl := acc.fl + q.fl, sat := acc.sat + q.sat })
    acc

/-- The results folded in ascending DID order. -/
def foldDevices (s : State) (c : Coll) (x : CollExchange) : Red :=
  let r := collRed c
  let own : Nat × List RedChunk := (if hasDid s then (ownDid s).toNat else 0, localChunks s c)
  let far := x.remote.filterMap fun p => match p.2 with
    | some (d, pl, bad) => if c.dids.contains p.1 && p.1 != ownDid s then some (p.1.toNat, resultChunks r d pl fun i => bad.contains i) else none
    | none => none
  (sortBy (fun (p : Nat × List RedChunk) => p.1) (own :: far)).foldl (fun acc p => addChunks r acc p.2) r

/-- The collective record, at RECORD + 16. -/
def collRecord (s : State) (acc : Red) (st : Status) : State :=
  modCore s (redDest acc) fun k => modSp k fun sl => slPutWords sl (fld (redWord acc 2) 0 21 + 16) (redRecord acc st)

/-- The pieces of a multicast: the result's data to SRC and its plane to SRC_PLANE, 480 bytes at most each (R299). -/
def resultPieces (s : State) (r : Red) : List (Nat × List Byte × NatSet) :=
  let cut := fun (to' from' n : Nat) =>
    (below ((n + 479) / 480)).map fun i =>
      let q := slFetch (getCore s (redDest r)).sp (from' + 480 * i) (min 480 (n - 480 * i))
      (to' + 480 * i, q.1, q.2)
  cut (fld (redWord r 3) 0 21) (fld (redWord r 0) 0 21) (redChunks r * chunkBytes r) ++
  cut (fld (redWord r 4) 0 21) (fld (redWord r 1) 0 21) (redChunks r * planeLen r)

/-- R309, R310: a multicast sent by a grove's own unit, which keeps it until every grove of its mask has acknowledged; its tag is its count. -/
def sendMcast (s : State) (dg : Dg) (ref : BitVec 4 × BitVec 16) (p : Pkt) : State :=
  let q := nextSeq s dg 22 p
  let p := { p with tag := q, seq := q, sep := 22 }
  sendUnit (modGrove s dg fun g => { g with mcasts := g.mcasts ++ [⟨p, p.mask, now s, ref⟩] }) dg p

/-- R309, R389: the result written to every contributor by MCAST_WR, one packet per position number and piece. -/
def multicast (s : State) (c : Coll) : State :=
  let r := collRed c
  let poss := (r.members.map posOf).eraseDups
  let pkts := poss.flatMap fun n =>
    let groves := (r.members.filter fun l => posOf l == n).map fun l => 2 ^ (dgOf l).toNat
    (resultPieces s r).map fun q =>
      { Pkt.blank with kind := 9, dpos := BitVec.ofNat 4 n, exit := 0, part := c.part, addr := wd q.1, len := q.2.1.length, data := q.2.1
                       bad := q.2.2, mask := groves.sum, dst := redRoot r }
  let acks := ((poss.map fun n => (r.members.filter fun l => posOf l == n).length).sum) * (resultPieces s r).length
  let s := { s with host := { s.host with colls := s.host.colls.map fun d => if d.part = c.part ∧ d.id = c.id then { d with acks := acks } else d } }
  pkts.foldl (fun s p => sendMcast s (redRoot r) (c.part, c.id) p) s

/-- A collective ready for its next phase. -/
def restColl (s : State) (c : Coll) : State :=
  let ph := fld (getObj (getGrove s (redRoot (collRed c))) (syncIx (c.image.getD 5 0))).val 32 32
  { s with host := { s.host with colls := s.host.colls.map fun d => if d.part = c.part ∧ d.id = c.id then { d with ready := false, result := none, phase := ph } else d } }

/-- What another device of a collective has given: nothing yet, its loss, its result. REMOTE_TMO of the destination core after the local phase a
device that has given nothing is lost (R389). -/
def peerGone (s : State) (c : Coll) (x : CollExchange) (d : Did) : Option Bool :=
  match firstThat (fun (p : Did × Option (List Byte × List Byte × List Nat)) => p.1 == d) x.remote with
  | some (_, q) => some q.isNone
  | none => if c.ready ∧ c.since + remoteTmo (getCore s (redDest (collRed c))) + 1 ≤ now s then some true else none

/-- R389: a BROADCAST of which the contributors have arrived waits for the other devices from this tick on. -/
def tickColls (s : State) : State :=
  { s with host := { s.host with colls := s.host.colls.map fun c =>
      if c.kind == 2 && !c.ready && phaseDone s c then { c with ready := true, since := now s } else c } }

/-- COLLECTIVE_EXCHANGE (R389, R320): what follows the local phase; it waits until every listed device has answered or is lost,
and until the last multicast is acknowledged. -/
def doCollectiveExchange (part : BitVec 4) (coll : BitVec 16) (x : CollExchange) (s : State) : State :=
  match collOf s part coll with
  | none => s
  | some c =>
    if !phaseDone s c || c.acks != 0 || (peers s c).any fun d => (peerGone s c x d).isNone then s
    else
      let s := restColl (if redRepro (collRed c) then s else countFast s (some c.part)) c
      if (peers s c).any fun d => peerGone s c x d == some true then
        let s := collArrive (collRecord s (collRed c) sLOST) c
        dropColl (serviceEvent s (some (c.part.toNat + 1))) c
      else
        let acc := if c.kind = 2 then addChunks (collRed c) (collRed c) (localChunks s c) else foldDevices s c x
        let s := if c.kind = 2 || (peers s c).isEmpty then s
          else modCore s (redDest acc) fun k => modSp k fun sl => (below (redChunks acc)).foldl (writeChunk acc) sl
        let s := if c.kind = 0 then s else multicast s c
        let s := collRecord s acc (redStatus acc)
        if c.kind = 0 then collArrive s c else s

/-! ### Meanings -/

def execCollDefine (r : CmdRef) (d : CollData) (s : State) : Out := .next (doCollDefine r d s)
def execCollDelete (r : CmdRef) (s : State) : Out := .next (doCollDelete r s)
def execCollectiveExchange (part : BitVec 4) (coll : BitVec 16) (x : CollExchange) (s : State) : Out :=
  .next (awake (doCollectiveExchange part coll x) s)

end Sys2Proof.Machine
end

