-- ==== Sys2Proof/Machine/Snags.lean ====
section
/-! DEFINITION. Snags: wait-for edges, quiet times, the record of a cycle (18_hangs_rings_resets.md R472 to R478). -/

namespace Sys2Proof.Machine

/-- What a context waits on (Table 18.1). -/
inductive WaitOn where
  | inbound (d : Nat)
  | outbound (d : Nat)
  | queue (qn : Nat)
  | object (dg : Dg) (ix : Nat) (name : Word)
deriving DecidableEq, Repr

/-- A READY context held back by a QPUT at a full outbound endpoint (R283): its side, from the word at its pc. -/
def heldBack (k : Core) (c : CtxNo) : Option Nat :=
  let x := getCtx k c
  let w := slWord k.sp x.pc.toNat
  let b : BitVec 54 := BitVec.ofNat 54 w.toNat
  if x.st = .ready && fld w 54 10 == 0x1C1 && guardHolds x b && !qputRoom b c k then boundSide k false (qnOf b) else none

/-- The wait of a context that gives edges; HELD contexts give none (R472, R474). -/
def waitOn (s : State) (l : Lcid) (c : CtxNo) : Option WaitOn :=
  let k := getCore s l
  let x := getCtx k c
  if x.st = .waiting then
    match x.wait with
    | .queue qn _ true => (boundSide k true qn).map .inbound
    | .queue qn _ false => some (.queue qn)
    | .sync t => match firstThat (fun (o : SyncOut) => o.tag == t && o.waits) k.un.syncs with
      | some o => if (syncFar s o.name).isSome then none else some (.object (syncDg o.name) (syncIx o.name) o.name)
      | none => none
    | _ => none
  else (heldBack k c).map .outbound

/-- The outbound endpoint of the channel that ends at an inbound one. -/
def channelStart (s : State) (l : Lcid) (d : Nat) : Option (Lcid × Nat) :=
  firstThat (fun (p : Lcid × Nat) =>
    let e := getLink (getCore s p.1) false p.2
    linkValid e && match channelEnd p.1 e with | some (t, side, _) => t == l && side == d | none => false)
    (s.cores.flatMap fun p => (below 4).map fun d => (BitVec.ofNat 12 p.1, d))

/-- The targets of a wait, in the layout of g3 (Table 18.1). -/
def waitTargets (s : State) (l : Lcid) : WaitOn → List Word
  | .inbound d => match channelStart s l d with
    | some (m, e) => [senderWord s m (linkCtx (getLink (getCore s m) false e))]
    | none => []
  | .outbound d => match channelEnd l (getLink (getCore s l) false d) with
    | some (m, e, _) => [senderWord s m (linkCtx (getLink (getCore s m) true e))]
    | none => []
  | .queue qn => (getQ (getCore s l) qn).feeders
  | .object dg ix _ => (getObj (getGrove s dg) ix).feeders

/-- Operations applied so far to what is waited on. -/
def waitOps (s : State) (l : Lcid) : WaitOn → Nat
  | .inbound d => (getLink (getCore s l) true d).top.toNat
  | .outbound d => (getLink (getCore s l) false d).words.length
  | .queue qn => (getQ (getCore s l) qn).nops
  | .object dg ix _ => (getObj (getGrove s dg) ix).nops

/-- Packets anywhere in the mesh. -/
def meshPkts (s : State) : List Pkt := s.groves.flatMap fun g => g.2.queued ++ g.2.arrived

/-- R474: an operation on what is waited on is in flight. -/
def waitFlight (s : State) (l : Lcid) : WaitOn → Bool
  | .inbound d => match channelStart s l d with
    | some (m, e) => !(getLink (getCore s m) false e).words.isEmpty
    | none => false
  | .outbound d => match channelEnd l (getLink (getCore s l) false d) with
    | some (m, e, _) => let f := getLink (getCore s m) true e; decide (f.words.length < linkDepth f)
    | none => false
  | .queue qn =>
    let u := (getCore s l).un
    (u.hauls.any fun o => o.cq.toNat == qn) || (u.msgq.any fun o => o.cq.toNat == qn) || (u.sent.any fun o => o.cq.toNat == qn) ||
      (u.hold.any fun m => fld m.h.w0 0 6 == qn) ||
      (meshPkts s).any fun p => p.exit == 0 && lcidOf p.dst p.dpos.toNat == l && (p.kind == 4 || p.kind == 5)
  | .object dg _ name => (meshPkts s).any fun p => p.kind == 6 && p.exit == 3 && p.dst == dg && p.arg0 == name

/-- What tells a wait from the next: its number, or the pc of the QPUT that is held back with the words put so far at its endpoint. A HELD
context keeps the wait of its HELD_FROM. -/
def waitKey (k : Core) (x : Ctx) (w : Option WaitOn) : Nat :=
  match w with
  | some (.outbound d) => x.pc.toNat + 2 ^ 21 * (getLink k false d).seq.toNat
  | _ => x.waitNo

/-- The entry of a context in the table of waits. -/
def quietOf (s : State) (m : Lcid × CtxNo) : Option Quiet :=
  (firstThat (fun (q : Lcid × CtxNo × Quiet) => q.1 == m.1 && q.2.1 == m.2) s.quiets).map fun q => q.2.2

/-- The entry of a waiting context at this tick (R474): a new wait starts it; what disturbs it, a hold among it, restarts its quiet time, not the
wait. While the context is HELD its entry stays, and is not quiet. -/
def quietNow (s : State) (l : Lcid) (c : CtxNo) : Option Quiet :=
  let k := getCore s l
  let x := getCtx k c
  match waitOn s l c with
  | none => if x.st = .held then (quietOf s (l, c)).map fun q => { q with quiet := now s } else none
  | some w =>
    let key := waitKey k x (some w)
    let ops := waitOps s l w
    let calm := !busyCtx k c && !waitFlight s l w
    match quietOf s (l, c) with
    | some q =>
      if q.key = key then
        some { q with quiet := if calm && q.base == ops && q.holds == x.holds then q.quiet else now s, holds := x.holds }
      else some ⟨now s, now s, key, ops, x.holds⟩
    | none => some ⟨now s, now s, key, ops, x.holds⟩

/-- The waits of every context, kept up at each tick (R474). -/
def trackQuiets (s : State) : State :=
  let qs := s.cores.flatMap fun p =>
    let l : Lcid := BitVec.ofNat 12 p.1
    p.2.ctxs.filterMap fun q => let c : CtxNo := BitVec.ofNat 9 q.1; (quietNow s l c).map fun v => (l, c, v)
  let alive := fun (m : Lcid × CtxNo) => qs.any fun q => q.1 == m.1 && q.2.1 == m.2 && q.2.2.since < now s
  { s with quiets := qs, snags := s.snags.map fun p => (p.1, { p.2 with live := p.2.live.filter fun ms => ms.all alive }) }

/-- R474: a context's wait has an edge to another member, and has been quiet for SNAG_CFG.QUIET. -/
def quietEdge (s : State) (a b : Lcid × CtxNo) : Bool :=
  (match waitOn s a.1 a.2 with | some w => (waitTargets s a.1 w).contains (senderWord s b.1 b.2) | none => false) &&
    match quietOf s a with
    | some q => decide (q.quiet + 1000 * fld s.snagCfg 0 16 ≤ now s) && q.holds == (ctxOf s a.1 a.2).holds &&
      q.key == waitKey (getCore s a.1) (ctxOf s a.1 a.2) (waitOn s a.1 a.2)
    | none => false

/-- Each member paired with the next, the last with the first. -/
def cyclePairs {α : Type} (l : List α) : List (α × α) := match l with | [] => [] | a :: r => (a :: r).zip (r ++ [a])

/-- The key by which the closing context is the largest: its wait began last, then the lowest LCID and context (R475). -/
def closingKey (s : State) (m : Lcid × CtxNo) : Nat :=
  ((quietOf s m).map Quiet.since).getD 0 * 2 ^ 21 + (2 ^ 21 - 1 - (m.1.toNat * 512 + m.2.toNat))

/-- The member with the largest key. -/
def maxBy {α : Type} (f : α → Nat) : List α → Option α
  | [] => none
  | a :: r => match maxBy f r with
    | none => some a
    | some b => if f b ≤ f a then some a else some b

/-- A cycle turned so that the closing context comes first. -/
def fromClosing (s : State) (ms : List (Lcid × CtxNo)) : List (Lcid × CtxNo) :=
  match maxBy (closingKey s) ms with
  | some m => ms.dropWhile (· != m) ++ ms.takeWhile (· != m)
  | none => ms

/-- A member in the layout of a Snag record. -/
def memberWord (s : State) (m : Lcid × CtxNo) : Word :=
  let k := getCore s m.1
  let x := getCtx k m.2
  wd ((if x.st = .waiting then waitKind k m.2 x else 8) * 2 ^ 48 + (senderWord s m.1 m.2).toNat)

/-- A Stand's detector. -/
def getSnag (s : State) (i : Nat) : Snag := tget Snag.zero s.snags i

/-- The record of a Snag (Table 18.4). -/
def snagRecordWords (s : State) (count : Nat) (ms : List (Lcid × CtxNo)) : List Word :=
  let n := ms.length
  let listed := (ms.take 16).map (memberWord s)
  [wd (count * 2 ^ 32 + min n 255 * 256 + min n 16), timeWord s] ++ listed ++ List.replicate (16 - listed.length) 0

/-- R476: a Snag recorded by the detector of its closing context's Stand, reported and signalled. -/
def recordSnag (s : State) (m : Lcid × CtxNo) (ms : List (Lcid × CtxNo)) : State :=
  let i := standOf (dgOf m.1)
  let d := getSnag s i
  let count := satAdd 32 d.count.toNat 1
  let slot := d.next.toNat
  let ws := snagRecordWords s count ms
  let d : Snag := { d with count := BitVec.ofNat 32 count, next := d.next + 1, recs := tput [] d.recs slot ws, live := d.live ++ [ms] }
  let s := { s with snags := tput Snag.zero s.snags i d }
  let s := raise s (rptCore s m.1 { rpt 7 sSNAG 2 0 (corePsid s m.1 7) with
    d0 := senderWord s m.1 m.2, d1 := wd (slot * 256 + min ms.length 255) })
  let s := signalVec s 0 130
  match partOf s (dgOf m.1) with
  | some n => tellVf (signalVec s (n.toNat + 1) 130) n ws
  | none => s

/-- SNAG_RECORD (R474 to R476): a cycle whose every edge has been quiet long enough, not reported before. -/
def doSnagRecord (members : List (Lcid × CtxNo)) (s : State) : State :=
  let ms := fromClosing s members
  let known := s.snags.any fun p => p.2.live.contains ms
  match ms with
  | m :: _ :: _ => if !known && ms.Nodup && (cyclePairs ms).all fun p => quietEdge s p.1 p.2 then recordSnag s m ms else s
  | _ => s

def execSnagRecord (members : List (Lcid × CtxNo)) (s : State) : Out := .next (doSnagRecord members s)

end Sys2Proof.Machine
end

