-- ==== Sys2Proof/Machine/Reads.lean ====
section
/-! DEFINITION. What every BAR0 register reads as (22_register_map.md and the register tables of the chapters that it names). A
read is an observation: no command of the table makes one. -/

namespace Sys2Proof.Machine

/-! ### Fields -/

/-- A field's value at its place. -/
def at' (v lo : Nat) : Nat := v * 2 ^ lo

/-- A mask of `n` bits as a number. -/
def maskOf (n : Nat) (f : Nat → Bool) : Nat := ((below n).map fun i => bitAt (f i) i).sum

/-- The families of blocks in the order of DEV_STATUS.WREJ_SUM. -/
def famOf (blk : Nat) : Nat :=
  if blk < 0x8000 then blk / 0x1000
  else if blk < 0x10000 then 8
  else if blk < 0x100000 then 9
  else if blk < 0x400000 then 10
  else 11

/-- WREJ_SUM (Table 22.5). -/
def wrejSum (s : State) : Nat := maskOf 12 fun i => s.wrej.any fun p => famOf p.1 == i && bit p.2 63

/-! ### DEV_ (Tables 22.4, 16.8, 19.9) -/

/-- GRADE (Table 22.5). -/
def gradeCode : Grade → Nat
  | .f => 1
  | .h => 2
  | .p => 3

/-- GRADE_CLASS of the EQKEY. -/
def gradeClass (s : State) : Nat := fld (eqkey s 1) 40 8

/-- DEV_ID. -/
def devId (s : State) : Word :=
  wd (at' s.part.stepping.toNat 48 + at' (gradeCode s.part.grade) 40 + at' (gradeClass s) 32 + at' 0x0720 16)

/-- Codes of DEV_DORMANT_STATUS.STATE. -/
def dormCode : DormSt → Nat
  | .active => 0
  | .entering => 1
  | .dormant => 2
  | .waking => 3

/-- PACE_STATUS.THROTTLE. -/
def throttled (s : State) : Bool := s.pace.regions.any fun p => p.2.thermal

/-- R538, R53: THERM_N. -/
def thermN (s : State) : Bool := throttled s || s.pins.trip

/-- R464, R53, R422, R545: FAULT_N. -/
def faultPin (s : State) : Bool := faultN s || s.pins.trip || s.cruise.noClock || s.pins.osc

/-- DEV_STATUS. -/
def devStatus (s : State) : Word :=
  wd (bitAt s.cruise.ready 63 + at' (dormCode s.dorm.st) 61 + bitAt (faultPin s) 60 + bitAt (alertN s) 59 + bitAt (thermN s) 58
    + wrejSum s)

/-- DEV_CRUISE (Table 16.9). -/
def devCruise (s : State) : Word :=
  let c := s.cruise
  wd (at' c.phase.toNat 60 + bitAt c.ready 59 + bitAt c.pendDid 58 + bitAt c.mismatch 57 + bitAt c.badGrade 56
    + bitAt (c.margins != 0) 55 + bitAt c.prevTrip 54 + bitAt c.warm 53 + bitAt c.noClock 52 + at' c.nblazed.toNat 32 + c.duration.toNat)

/-- DEV_TOPO (Table 16.11). -/
def devTopo (s : State) : Word := wd (at' s.cruise.isolated.toNat 32 + at' s.cruise.missing.toNat 16 + s.cruise.matched.toNat)

/-- DEV_DORMANT_CTRL as it reads. -/
def dormCtrl (s : State) : Word := wd (at' s.dorm.wakeEn.toNat 32 + s.dorm.timer.toNat)

/-- DEV_DORMANT_STATUS (Table 16.12). -/
def dormStatus (s : State) : Word :=
  let d := s.dorm
  wd (at' (dormCode d.st) 62 + at' d.refusal.toNat 48 + at' d.src.toNat 40 + at' d.entries.toNat 16 + d.lastUs.toNat)

/-- DEV_CHECK_STATUS (Table 19.10). -/
def devCheck (s : State) : Word :=
  wd (at' s.check.runs.toNat 48 + at' s.check.fails.toNat 32 + at' s.check.sounds.toNat 16 + s.check.twins.toNat)

/-- Bit j of word i: DG 64i + j in a set. -/
def dgMask (t : NatSet) (i : Nat) : Word := wd (maskOf 64 fun j => sHas t (64 * i + j))

/-- The groves fused, as applied. -/
def fusedMask (s : State) (i : Nat) : Word := wd (maskOf 64 fun j => (getGrove s (BitVec.ofNat 8 (64 * i + j))).fused)

/-- The DEV_ block. -/
def devRead (s : State) (o : Nat) : Word :=
  if o = 0x00 then devId s
  else if o = 0x08 then Config.serial
  else if o = 0x10 then s.did
  else if o = 0x18 then wd Config.mac.toNat
  else if o = 0x20 then eqkey s 1
  else if o = 0x28 then wd s.cruise.fports.toNat
  else if 0x30 ≤ o ∧ o < 0x50 then fusedMask s ((o - 0x30) / 8)
  else if o = 0x80 then devStatus s
  else if o = 0x100 then devCruise s
  else if o = 0x108 then wd s.cruise.margins.toNat
  else if o = 0x110 then devTopo s
  else if o = 0x118 then dormCtrl s
  else if o = 0x120 then dormStatus s
  else if o = 0x180 then wd s.check.period.toNat
  else if o = 0x188 then devCheck s
  else if 0x1C0 ≤ o ∧ o < 0x1E0 then dgMask s.check.twinNext ((o - 0x1C0) / 8)
  else if 0x1E0 ≤ o ∧ o < 0x200 then dgMask s.check.twinNow ((o - 0x1E0) / 8)
  else 0

/-! ### PACE_ (Tables 02.3 to 02.9, 20.3) -/

/-- A pace region. -/
def getRegion (s : State) (n : Nat) : Region := tget Region.zero s.pace.regions n

/-- A region's trim has reached step 63 (R55). -/
def calLimit (r : Region) : Bool := decide (63 ≤ r.trim)

/-- PACE_STATUS. -/
def paceStatus (s : State) : Word :=
  let p := s.pace
  wd (at' p.pkgW.toNat 32 + bitAt p.skewSeen 7 + bitAt (p.regions.any fun r => calLimit r.2) 3 + bitAt p.capped 2
    + bitAt (throttled s) 1 + bitAt (p.regions.any fun r => r.2.skew) 0)

/-- V_RP of a Stand in mV above 600, 0xA0 until a fuse word says otherwise (log entry 21, DESIGN CHOICE). -/
def vrpOf (s : State) (i : Nat) : Nat := tget 0xA0 s.cruise.vrp i

/-- PACE_FUSE. -/
def paceFuse (s : State) : Word := wd (((below 4).map fun i => at' (vrpOf s i % 256) (8 * i)).sum)

/-- PACE_REGIONn. -/
def regionWord (s : State) (n : Nat) : Word :=
  let r := getRegion s n
  wd (at' r.temp.toNat 48 + at' r.pace.toNat 36 + at' (if asleep s then 0 else r.vnow % 256) 28 + at' (r.vset % 256) 20 + bitAt (calLimit r) 3
    + bitAt r.skew 2 + bitAt r.thermal 1 + bitAt r.pwr 0)

/-- PACE_TIME_STATUS. -/
def timeStatus (s : State) : Word :=
  wd (at' (unsigned 32 s.pace.offset) 32 + bitAt s.pace.holdover 1 + bitAt s.pace.locked 0)

/-- The PACE_ block. -/
def paceRead (s : State) (o : Nat) : Word :=
  if o = 0x00 then wd s.pace.mode.toNat
  else if o = 0x08 then wd s.pace.limit.toNat
  else if o = 0x10 then paceStatus s
  else if o = 0x18 then paceFuse s
  else if o = 0x20 then wd (bitAt s.pace.recalBusy 62)
  else if 0x100 ≤ o ∧ o < 0x300 then regionWord s ((o - 0x100) / 8)
  else if o = 0x300 then s.pace.ns
  else if o = 0x308 then wd s.pace.src.toNat
  else if o = 0x310 then timeStatus s
  else 0

/-! ### PART_, SEC_, ERR_, SNAG_, HBM_, STD_ -/

/-- PART_SUMMARYn (Table 22.8). -/
def partSummary (s : State) (n : Nat) : Word :=
  let gs := partGroves s (BitVec.ofNat 4 n)
  let cores := (gs.map fun d => ((below 16).filter fun i => occupied s (lcidOf d i)).length).sum
  wd (at' gs.length 32 + at' cores 16 + bitAt (bit (rangeWord s n) 63) 1 + bitAt (tdiLocked s n) 0)

/-- The PART_ block. -/
def partRead (s : State) (o : Nat) : Word :=
  if o < 0x800 then pgroveWord s (BitVec.ofNat 8 (o / 8))
  else if o < 0x880 then partSummary s ((o - 0x800) / 8)
  else 0

/-- Codes of Table 15.1. -/
def lifeCode : Life → Nat
  | .blank => 0
  | .provisioned => 1
  | .deployed => 2
  | .service => 3
  | .retired => 4

/-- R398: all JTAG instructions are permitted. -/
def jtagOpen (l : Life) : Bool := l == .blank || l == .provisioned || l == .service

/-- R398: Sounding is permitted. -/
def soundingOk (l : Life) : Bool := l == .provisioned || l == .service

/-- SEC_LC (Table 15.11). -/
def secLc (s : State) : Word :=
  let c := s.sec
  wd (at' (32 - c.entries) 34 + bitAt c.exitPend 9 + bitAt c.marginal 8 + bitAt (!c.owner.isEmpty) 5 + bitAt (soundingOk c.life) 4
    + bitAt (jtagOpen c.life) 3 + lifeCode c.life)

/-- SEC_FW (Table 15.12). -/
def secFw (s : State) : Word :=
  let c := s.sec
  wd (at' (c.svnFused % 256) 48 + at' (c.svnRun % 256) 40 + at' c.revoked.toNat 32 + bitAt c.recovery 4 + bitAt c.slotB.valid 3
    + bitAt c.slotA.valid 2 + bitAt c.run 0)

/-- SEC_STATUS (Table 15.13). -/
def secStatus (s : State) : Word :=
  let c := s.sec
  wd (at' c.result.toNat 56 + at' c.command.toNat 48 + at' c.rejected.toNat 32 + bitAt c.changed 2 + bitAt c.done 1 + bitAt c.busy 0)

/-- The SEC_ block: the mailbox is write-only. -/
def secRead (s : State) (o : Nat) : Word :=
  if o = 0x00 then secLc s
  else if o = 0x08 then secFw s
  else if o = 0x10 then secStatus s
  else if 0x20 ≤ o ∧ o < 0x40 then s.sec.nonce.getD ((o - 0x20) / 8) 0
  else 0

/-- ERR_Ss_STATUS (Table 17.10). -/
def errStatus (s : State) (i : Nat) : Word :=
  let c := getComb s i
  wd (at' (c.tail % 2 ^ 32) 32 + at' c.die.length 16 + at' (openRecs c).length 8 + bitAt c.gap.isSome 2
    + bitAt (decide (warnAt s ≤ ringUse c)) 1 + bitAt (decide (ringMax ≤ ringUse c)) 0)

/-- ERR_Ss_OVFi. -/
def errOvf (c : Comb) (i : Nat) : Word := wd (((below 4).map fun j => at' (tget 0 c.ovf (4 * i + j)).toNat (16 * j)).sum)

/-- ERR_Ss_LOG_DATA: the selected word of the selected entry (R462). -/
def errData (s : State) (i : Nat) : Word :=
  let c := getComb s i
  match firstThat (fun (e : LogEnt) => c.head ≤ e.seq && e.seq % 2 ^ 32 == fld c.sel 0 32) (c.spill ++ c.die) with
  | some e => (entryWords64 s e).getD (fld c.sel 32 3) 0
  | none => 0

/-- The ERR_ block. -/
def errRead (s : State) (o : Nat) : Word :=
  if o = 0 then s.errs.cfg
  else if 0x100 ≤ o ∧ o < 0x500 then
    let i := (o - 0x100) / 0x100
    let c := getComb s i
    match o % 0x100 with
    | 0x00 => errStatus s i
    | 0x08 => wd (c.head % 2 ^ 32)
    | 0x10 => wd c.lost
    | 0x18 => errOvf c 0
    | 0x20 => errOvf c 1
    | 0x28 => errOvf c 2
    | 0x30 => errOvf c 3
    | 0x38 => wd c.sel.toNat
    | 0x40 => errData s i
    | _ => 0
  else 0

/-- The SNAG_ block (Table 18.3). -/
def snagRead (s : State) (o : Nat) : Word :=
  if o = 0 then s.snagCfg
  else if 0x100 ≤ o ∧ o < 0x500 then
    let d := getSnag s ((o - 0x100) / 0x100)
    match o % 0x100 with
    | 0x00 => wd (at' d.count.toNat 32 + at' (min d.live.length 255) 8 + d.next.toNat)
    | 0x08 => wd d.sel.toNat
    | 0x10 => (tget [] d.recs (fld d.sel 5 4)).getD (fld d.sel 0 5) 0
    | _ => 0
  else 0

/-- HBM_STACKt_STATUS (Table 13.4). -/
def stackStatus (k : Stack) : Word :=
  wd (at' k.temp.toNat 48 + at' k.retired.toNat 32 + at' k.rows.toNat 16 + bitAt k.noSpare 3 + bitAt k.hot 2 + bitAt k.selfRef 1
    + bitAt k.trained 0)

/-- HBM_STACKt_ERR. -/
def stackErr (k : Stack) : Word := wd (at' k.corrected.toNat 32 + at' k.uncorr.toNat 16 + min k.bad.length 0xFFFF)

/-- The HBM_ block. -/
def hbmRead (s : State) (o : Nat) : Word :=
  if o < 0x80 then rangeRead s (o / 8)
  else if 0x100 ≤ o ∧ o < 0x140 then
    let k := getStack s (BitVec.ofNat 2 ((o - 0x100) / 0x10))
    if o % 0x10 = 0 then stackStatus k else stackErr k
  else 0

/-- STD_STATUS (Table 22.6): from step 6 of Cruise on. -/
def stdStatus (s : State) (i : Nat) : Word :=
  if s.cruise.phase.toNat < 6 then 0
  else
    let gs := groves i
    let occ := fun (d : Dg) => ((below 16).filter fun n => occupied s (lcidOf d n)).length
    let spares := (gs.map fun d => if groveWorks s d then spareSites (getGrove s d) else 0).sum
    let blazed := (gs.map fun d => (siteNos.filter fun n => (tget Site.zero (getGrove s d).sites n).blazed).length).sum
    wd (at' spares 48 + at' ((gs.map fun d => 16 - occ d).sum) 37 + at' blazed 26 + at' (gs.filter fun d => occ d == 0).length 19)

/-! ### GF_ (Tables 12.7 and 12.8) -/

/-- GF_PORTk registers by offset within the port's four. -/
def portRead (s : State) (k o : Nat) : Word :=
  let p := getPort s k
  if p.st = 0 then (if o = 8 then 0x3FFFC0000 else 0)
  else match o with
  | 0x00 => wd (at' p.cause.toNat 56 + at' p.retrains.toNat 16 + p.st.toNat)
  | 0x08 => wd (at' (maskOf 18 fun x => (logicalOf p x).isSome) 18 + maskOf 18 fun x => sHas p.failed x)
  | 0x10 => wd (at' p.corrected.toNat 32 + at' p.uncorr.toNat 16 + p.retries.toNat)
  | 0x18 =>
    if p.known then wd (bitAt true 63 + bitAt p.peerOk 62 + at' p.peerDid.toNat 47 + at' p.peerPort.toNat 43) else 0
  | _ => 0

/-- GF_SHAPER_STATE. -/
def shaperState (h : Shaper) : Word := wd (at' (unsigned 32 h.tokens) 32 + bitAt (h.rate == 0) 31 + h.fails.toNat)

/-- The GF_ block. -/
def gfRead (s : State) (o : Nat) : Word :=
  let g := s.gf
  let h := shaperOf s (selShaper s).1 (selShaper s).2
  if o = 0x00 then wd (bitAt g.active 0)
  else if o = 0x08 then wd (at' g.aged.toNat 48 + at' g.noroute.toNat 32 + drainCount s % 2 ^ 32)
  else if o = 0x10 then wd g.rtSel.toNat
  else if o = 0x18 then wd (tget 0 g.rt ((if bit g.rtSel 15 then 32768 else 0) + fld g.rtSel 0 15)).toNat
  else if o = 0x20 then wd g.mcSel.toNat
  else if o = 0x28 then wd (tget 0 g.mc ((if bit g.mcSel 15 then 4096 else 0) + fld g.mcSel 0 12)).toNat
  else if 0x30 ≤ o ∧ o < 0x50 then tget 0 g.holds ((o - 0x30) / 8)
  else if o = 0x50 then wd g.shSel.toNat
  else if o = 0x58 then shaperCfg h
  else if o = 0x60 then shaperState h
  else if o = 0x68 then wd g.shTmo.toNat
  else if o = 0x70 then wd (at' g.epoch.toNat 48 + g.samples.toNat)
  else if o = 0x78 then wd g.congSel.toNat
  else if o = 0x80 then tget 0 g.closed g.congSel.toNat
  else if 0x100 ≤ o ∧ o < 0x300 then portRead s ((o - 0x100) / 0x20) (o % 0x20)
  else 0

/-! ### CQ_ (Tables 14.8 and 14.9) -/

/-- CQ_STATUS. -/
def cqStatus (n : Fn) : Word := wd (at' n.lost.toNat 32 + bitAt n.winErr 2 + bitAt n.dbErr 1 + bitAt n.rdy 0)

/-- A function's CQ_ block; CQ_TELEM_HEAD exists on PF0 only. -/
def cqRead (s : State) (f : HostFn) (o : Nat) : Word :=
  let n := getFn s f.val
  if o = 0x00 then wd (bitAt n.en 0)
  else if o = 0x08 then cqStatus n
  else if o = 0x10 then n.asq
  else if o = 0x18 then n.acq
  else if o = 0x20 then n.win
  else if o = 0x28 then cqInfo f
  else if o = 0x30 then (if f.val = 0 then wd n.telHead.toNat else 0)
  else if 0x100 ≤ o ∧ o < 0x1E0 then tget 0 n.notify ((o - 0x100) / 8)
  else 0

/-! ### GRV_ (Tables 01.6, 09.7, 11.6, 19.9) -/

/-- The neighbour of a grove in a direction: north, east, south, west (Table 10.1). -/
def meshNext (dg : Dg) (d : Nat) : Option Dg :=
  match d with
  | 0 => if yOf dg = 0 then none else some (dgAt (xOf dg) (yOf dg - 1))
  | 1 => if xOf dg = 15 then none else some (dgAt (xOf dg + 1) (yOf dg))
  | 2 => if yOf dg = 15 then none else some (dgAt (xOf dg) (yOf dg + 1))
  | _ => if xOf dg = 0 then none else some (dgAt (xOf dg - 1) (yOf dg))

/-- A mesh port with no working neighbour. -/
def meshDown (s : State) (dg : Dg) (d : Nat) : Bool :=
  match meshNext dg d with
  | some n => (getGrove s n).out
  | none => true

/-- The mesh and its detours are set up from step 6 of the first Cruise on. -/
def meshUp (s : State) (dg : Dg) : Bool := (getGrove s dg).gen != 0

/-- A grove's block. -/
def groveRead (s : State) (dg : Dg) (o : Nat) : Word :=
  let g := getGrove s dg
  if g.fused then 0
  else if o = 0x200 then distMem s dg
  else if o = 0x208 then distGf s dg false
  else if o = 0x210 then distGf s dg true
  else if o = 0x220 then putFld g.check 16 1 (if sHas s.check.twinNow dg.toNat then 1 else 0)
  else if o = 0x300 then
    wd (at' g.corrected.toNat 48 + at' g.detours.length 32 + if meshUp s dg then maskOf 4 (meshDown s dg) else 0)
  else if o = 0x308 then wd (at' (bufFree s dg) 40 + at' (ctxUsed s dg) 32 + at' g.aborts.toNat 16 + g.restarts.toNat)
  else if 0x1000 ≤ o ∧ o < 0x1800 then
    let x := getObj g ((o - 0x1000) / 16)
    if o % 16 = 0 then x.cfg else x.val
  else 0

/-! ### CORE_ (Tables 06.9, 04.7, 05.6, 08.3, 09.11, 10.4, 18.7) -/

/-- CORE_STATUS (Table 06.14). -/
def coreStatus (k : Core) : Word :=
  wd (bitAt k.rejected 49 + bitAt (quietCore k) 48 + at' (countSt k .held) 32 + at' (countSt k .faulted) 16 + countSt k .free)

/-- A map of the contexts 64i to 64i + 63. -/
def ctxMask (k : Core) (i : Nat) (p : Ctx → Bool) : Word := wd (maskOf 64 fun j => p (getCtx k (BitVec.ofNat 9 (64 * i + j))))

/-- CORE_MILL_HEALTH (Table 04.8). -/
def millHealth (s : State) (l : Lcid) : Word :=
  if !occupied s l then 0
  else
    let k := getCore s l
    let t := siteOfCore s l
    let bad := (k.eng.acc.map fun a => (a.2.filter fun r => r.2.poison).length).sum
    let cols := t.cols.filter fun c => decide (c < 32)
    wd (at' t.residue.toNat 48 + at' bad 32 + bitAt (!cols.isEmpty) 16 + at' (cols.headD 0) 8 + k.eng.millq.length)

/-- R154, R504: CORE_VE_CTRL.FALLBACK: held at 1 while a restored context has not completed a RING, and while a Sounding runs that has the core
in its scope. -/
def fallbackOn (s : State) (l : Lcid) : Bool :=
  let k := getCore s l
  k.eng.fallback || !k.ring.replaying.isEmpty || underSound s (corePsid s l 7)

/-- CORE_VE_HEALTH (Table 05.7). -/
def veHealth (s : State) (l : Lcid) : Word :=
  if !occupied s l then 0x20000
  else
    let k := getCore s l
    let t := siteOfCore s l
    let gone := (veSpares t.lanes).2.2
    wd (at' k.eng.veq.length 32 + bitAt t.reducerBad 18 + bitAt (fallbackOn s l || t.reducerBad) 17 + at' gone.length 14
      + at' (gone.getD 1 0 % 64) 8 + gone.getD 0 0 % 64)

/-- CORE_SP_HEALTH (Table 08.4). SPARES_USED counts each spare taken, also one that has failed since (log entry 146, DESIGN CHOICE). -/
def spHealth (sl : Slice) : Word :=
  let used := (below 32).map (bankSpares sl)
  let left := used.foldl (fun m u => min m (8 - u)) 8
  wd (at' sl.corrected.toNat 48 + at' sl.uncorr.toNat 32 + at' (min sl.bad.length 255) 24 + bitAt sl.noSpare 15 + at' used.sum 4 + left)

/-- CORE_MSG_STATUS (Table 09.14). -/
def msgStatus (u : Units) : Word :=
  wd (at' u.q63Lost.toNat 48 + at' u.bounces.toNat 32 + at' u.slots.length 10 + u.hold.length)

/-- CORE_Q_STATE (Table 09.15). -/
def qState (q : Queue) : Word :=
  wd (bitAt q.valid 63 + at' q.kind.toNat 61 + at' q.esz.toNat 59 + at' q.lcap.toNat 55 + at' q.ents.length 40
    + at' (if q.kind = 2 then q.next.toNat else 0) 24 + at' q.waiters.length 10)

/-- CORE_LINK_STATUS (Table 10.6). -/
def linkStatus (k : Core) : Word :=
  let one := fun (e : LinkEnd) => bitAt e.broken 7 + e.words.length % 128
  wd (((below 4).map fun d => at' (one (getLink k true d)) (32 + 8 * d) + at' (one (getLink k false d)) (8 * d)).sum)

/-- CORE_RING_STATUS (Table 18.8). -/
def ringStatus (r : RingRegs) : Word := wd (at' r.replays.toNat 48 + at' r.adoptions.toNat 32 + bitAt (!r.replaying.isEmpty) 0)

/-- The CORE_CTX_* registers of the selected context. -/
def ctxRead (k : Core) (o : Nat) : Word :=
  let x := getCtx k k.ctxSel
  if o < 0x180 then readG x ((o - 0x100) / 8)
  else match o with
  | 0x180 => wd (x.p.toNat ||| 1)
  | 0x188 => wd x.pc.toNat
  | 0x190 => swOf k k.ctxSel x
  | 0x198 => x.ns0
  | 0x1A0 => x.ns1
  | 0x1A8 => x.tl0
  | 0x1B0 => x.tl1
  | 0x1B8 => x.tl2
  | 0x1C0 => x.srSeed
  | 0x1C8 => x.srCtr
  | 0x1D0 => x.fr0
  | 0x1D8 => x.fr1
  | _ => 0

/-- A core's block. -/
def coreRead (s : State) (l : Lcid) (o : Nat) : Word :=
  let k := getCore s l
  if fusedCore s l then 0
  else if o = 0x00 then k.ctrl
  else if o = 0x08 then coreStatus k
  else if o = 0x10 then k.role
  else if o = 0x18 then wd k.faults.toNat
  else if o = 0x40 then wd k.htSel.toNat
  else if o = 0x48 then tget 0 k.ht k.htSel.toNat
  else if o = 0x50 then wd k.ctxSel.toNat
  else if 0x80 ≤ o ∧ o < 0xC0 then ctxMask k ((o - 0x80) / 8) fun x => effSt x = .faulted
  else if 0xC0 ≤ o ∧ o < 0x100 then ctxMask k ((o - 0xC0) / 8) fun x => x.st ≠ .free
  else if 0x100 ≤ o ∧ o < 0x1E0 then ctxRead k o
  else if o = 0x400 then millHealth s l
  else if o = 0x408 then
    wd (at' (maskOf 8 fun i => (tget none k.eng.accOwner i).isSome) 8 + maskOf 8 fun i => (tget none k.eng.tdOwner i).isSome)
  else if o = 0x410 then veHealth s l
  else if o = 0x418 then wd (bitAt (fallbackOn s l) 0)
  else if o = 0x420 then spHealth k.sp
  else if o = 0x480 then k.un.area
  else if o = 0x488 then k.un.cfg
  else if o = 0x490 then msgStatus k.un
  else if o = 0x498 then wd k.un.qsel.toNat
  else if o = 0x4A0 then qState (getQ k k.un.qsel.toNat)
  else if 0x500 ≤ o ∧ o < 0x520 then (getLink k false ((o - 0x500) / 8)).reg
  else if 0x520 ≤ o ∧ o < 0x540 then (getLink k true ((o - 0x520) / 8)).reg
  else if o = 0x540 then linkStatus k
  else if o = 0x580 then k.ring.area
  else if o = 0x588 then wd k.ring.seq.toNat
  else if o = 0x590 then ringStatus k.ring
  else if o = 0x598 then k.ring.gen
  else 0

/-! ### The map (R554, R370, R418) -/

/-- R370, R418: the blocks of a partition's groves and cores that a reader sees. -/
def seesGrove (s : State) (reader : Nat) (dg : Dg) : Bool :=
  byLookout reader ||
    if reader = 0 then (match partOf s dg with | some n => !tdiLocked s n.toNat | none => true)
    else partOf s dg == some (BitVec.ofNat 4 (reader - 1))

/-- One register: the block that an offset lies in, and the offset within it. -/
def regAt (s : State) (reader off : Nat) : Word :=
  let pf := byPf0 reader
  let o := off % 0x1000
  if off < 0x1000 then (if o = 0xFF8 then (if pf then wrejWord s 0 else 0) else if pf || decide (o < 0x50) then devRead s o else 0)
  else if off < 0x8000 then
    if o = 0xFF8 then (if pf then wrejWord s (off / 0x1000 * 0x1000) else 0)
    else if off / 0x1000 = 6 then (if pf || decide (o = 8 * (reader - 1)) then hbmRead s o else 0)
    else if !pf then 0
    else match off / 0x1000 with
    | 1 => paceRead s o
    | 2 => partRead s o
    | 3 => secRead s o
    | 4 => errRead s o
    | 5 => snagRead s o
    | _ => gfRead s o
  else if off < 0xC000 then
    if !pf then 0
    else if o = 0xFF8 then wrejWord s (off / 0x1000 * 0x1000)
    else if o = 0 then stdStatus s ((off - 0x8000) / 0x1000) else 0
  else if 0x10000 ≤ off ∧ off < 0x21000 then
    let f := (off - 0x10000) / 0x1000
    if !(pf || reader == f) then 0
    else if o = 0xFF8 then wrejWord s (off / 0x1000 * 0x1000) else cqRead s (Fin.ofNat 17 f) o
  else if 0x100000 ≤ off ∧ off < 0x300000 then
    let dg : Dg := BitVec.ofNat 8 ((off - 0x100000) / 0x2000)
    let o := off % 0x2000
    if !seesGrove s reader dg || (getGrove s dg).fused then 0
    else if o = 0x1FF8 then wrejWord s (groveBlk dg) else groveRead s dg o
  else if 0x400000 ≤ off ∧ off < 0xC00000 then
    let l : Lcid := BitVec.ofNat 12 ((off - 0x400000) / 0x800)
    let o := off % 0x800
    if !seesGrove s reader (dgOf l) || fusedCore s l then 0
    else if o = 0x7F8 then wrejWord s (coreBlk l) else coreRead s l o
  else 0

/-- R555, R367: an aligned 8-byte read of BAR0 by a function or the Lookout (31); none is Unsupported Request. -/
def regRead (s : State) (reader off : Nat) : Option Word :=
  if (!byLookout reader && !fnServes s reader) || off % 8 != 0 then none else some (regAt s reader off)

end Sys2Proof.Machine
end

