-- ==== Sys2Proof/Machine/PaceGrid.lean ====
section
/-! DEFINITION. The 8 × 8 grid of pace regions and what R55 and R56 allow over it (02_pace.md). -/

namespace Sys2Proof.Machine

/-- Row and column of a device region in the 8 × 8 grid. -/
def regionRow (r : Nat) : Nat := 4 * (r / 32) + r % 16 / 4
def regionCol (r : Nat) : Nat := 4 * (r / 16 % 2) + r % 4

/-- Two regions share an edge. -/
def adjacent (a b : Nat) : Bool :=
  (regionRow a == regionRow b && (regionCol a == regionCol b + 1 || regionCol b == regionCol a + 1)) ||
  (regionCol a == regionCol b && (regionRow a == regionRow b + 1 || regionRow b == regionRow a + 1))

/-- The regions adjacent to one. -/
def neighbours (r : Nat) : List Nat := (below 64).filter (adjacent r)

/-- Every adjacent pair, the lower region first. -/
def regionPairs : List (Nat × Nat) := (below 64).flatMap fun a => ((below 64).filter fun b => a < b && adjacent a b).map fun b => (a, b)

/-- R51: a Stand's V_RP as the governor can set it, in 5 mV steps between 0.60 V and 0.85 V: rounded up to a step, since V_RP is the lowest
voltage that reaches RP (log entry 93, DESIGN CHOICE). -/
def vrpStep (s : State) (i : Nat) : Nat := min 250 (roundUp (vrpOf s i) 5)

/-- One round over the grid. -/
def gridStep (f : Nat → Nat → Nat) (t : List Nat) : List Nat :=
  (below 64).map fun r => (neighbours r).foldl (fun m n => f m (t.getD n 0)) (t.getD r 0)

/-- `n` rounds; 14 reach from any region to any other. -/
def gridRounds (f : Nat → Nat → Nat) : Nat → List Nat → List Nat
  | 0, t => t
  | n + 1, t => gridRounds f n (gridStep f t)

/-- R55, R56: the lowest voltage of each region: a region at CAL_LIMIT is not lowered, and no other ends more than 80 mV from its
neighbour. -/
def calFloors (s : State) : List Nat :=
  gridRounds (fun m n => max m (n - 80)) 14 ((below 64).map fun r => if calLimit (getRegion s r) then (getRegion s r).vnow else 0)

/-- R55, R56: the voltages set where `ask` is asked for: none below its floor, and whatever lies more than 80 mV above a neighbour pulled
down. -/
def settleVs (s : State) (ask : Nat → Nat) : List Nat :=
  let fl := calFloors s
  gridRounds (fun m n => min m (n + 80)) 14 ((below 64).map fun r => max (fl.getD r 0) (ask r))

/-- The regions at the voltages of a list. -/
def setVs (s : State) (vs : List Nat) : Tbl Region :=
  (below 64).foldl (fun t r => tput Region.zero t r { getRegion s r with vnow := vs.getD r 0 }) []

/-- R54: the trim that a smallest passing step needs: 12% more, rounded up (log entry 94, DESIGN CHOICE). -/
def guarded (step : Nat) : Nat := (step * 112 + 99) / 100

/-- R54, R55: a region calibrated at its voltage with the smallest passing step, with the directions of voltage change that have made the
trim longer. One trim stands for every line of a region: the spec does not give the number of lines (log entry 94, DESIGN CHOICE). -/
def calibrate (s : State) (g : Region) (step : Nat) (temp : Int) : Region :=
  let trim := min (guarded step) 63
  let longer := decide (g.trim < trim)
  let moved := g.vnow != g.calV
  { g with trim := trim, tooLong := decide (63 < guarded step), calV := g.vnow, calTemp := temp, calTick := now s
           longUp := if moved && decide (g.calV < g.vnow) then longer else g.longUp
           longDown := if moved && decide (g.vnow < g.calV) then longer else g.longDown }

/-- R54: a region that the Lookout must recalibrate: its voltage has moved 20 mV or its temperature 5 °C since its calibration, or that would
be more than 10 ms old at the next interval. -/
def calDue (s : State) (g : Region) : Bool :=
  decide (20 ≤ max g.vnow g.calV - min g.vnow g.calV) || decide (80 ≤ (signed 16 g.temp.toNat - g.calTemp).natAbs)
    || decide (g.calTick + 9900 ≤ now s)

end Sys2Proof.Machine
end

