-- ==== Sys2Proof/Machine/Telem.lean ====
section
/-! DEFINITION. Telemetry, link security, the PCIe link and its resets (14_host_interface.md R366, R367, R392 to R396,
15_security.md R418, R419, 18_hangs_rings_resets.md R492). -/

namespace Sys2Proof.Machine

/-- Bytes `i` to `i + n - 1` of a byte string, short where it ends. -/
def slice (bs : List Byte) (i n : Nat) : List Byte := (bs.drop i).take n

/-- Bytes given as numbers. -/
def ascii (l : List Nat) : List Byte := l.map (BitVec.ofNat 8)

/-! ### Telemetry (R392) -/

/-- TELEM: the ring begins empty, at the offset that CQ_TELEM_HEAD holds. -/
def doTelem (r : CmdRef) (s : State) : State :=
  runCmdNow s r 0x40 fun c s =>
    let w := fun i => c.words.getD i 0
    let ivl := (w 2).toNat
    let t : Telem :=
      { base := wd ((w 1).toNat / 4096 * 4096), log2 := fld (w 1) 0 5, ivl := ivl, mask := w 3
        tail := (getFn s 0).telHead.toNat % 2 ^ fld (w 1) 0 5, due := if ivl = 0 then 0 else now s + ivl + 1, maps := [] }
    ({ s with host := { s.host with telem := t } }, sOK, 0)

/-- The words of a closed congestion map (Table 12.6). -/
def mapWords (m : Tbl Word) : List Word := (below 514).map (tget 0 m)

/-- The register copies of a record. -/
def telemBody (s : State) (kind : Nat) : List Word :=
  match kind with
  | 1 => paceStatus s :: (below 64).map (regionWord s)
  | 2 => ((below 4).flatMap fun t => let k := getStack s (BitVec.ofNat 2 t); [stackStatus k, stackErr k]) ++
      (below 16).flatMap fun k => [portRead s k 0, portRead s k 0x10]
  | _ => s.host.telem.maps.flatMap mapWords

/-- A record: its header, the time base, the copies. -/
def telemRecord (s : State) (kind : Nat) : List Word :=
  let b := telemBody s kind
  wd (kind * 2 ^ 56 + (b.length + 2) % 2 ^ 16) :: timeWord s :: b

/-- Bytes written to the ring, which wraps at its end. -/
def ringWrite (s : State) (t : Telem) : Nat → List Byte → State
  | _, [] => s
  | at', b :: r => ringWrite (hostWrite s (t.base.toNat + at' % 2 ^ t.log2) [b] []) t (at' + 1) r

/-- One record appended, or counted as lost when it does not fit or the link serves nothing; where export there is configured (`eth`), it leaves
on the management Ethernet too. -/
def appendRecord (eth : Bool) (s : State) (kind : Nat) : State :=
  let t := s.host.telem
  let ws := telemRecord s kind
  let bs := wordBytes ws
  let s := if eth then { s with host := { s.host with eth := s.host.eth ++ [ws] } } else s
  let size := 2 ^ t.log2
  let used := (t.tail + size - (getFn s 0).telHead.toNat % size) % size
  if fnServes s 0 && decide (used + bs.length < size) then
    let s := ringWrite s t t.tail bs
    { s with host := { s.host with telem := { t with tail := (t.tail + bs.length) % size } } }
  else modFn s 0 fun n => { n with lost := BitVec.ofNat 32 (satAdd 32 n.lost.toNat 1) }

/-- TELEMETRY_INTERVAL: at each interval one record of each kind whose bit the mask sets; `eth` says whether the management interfaces have configured
export on their Ethernet, for which the table has no row (log entry 122, DESIGN CHOICE). -/
def doTelemetryInterval (eth : Bool) (s : State) : State :=
  let t := s.host.telem
  if t.ivl = 0 ∨ now s < t.due then s
  else
    let s := (([1, 2, 3] : List Nat).filter fun k => bit t.mask k).foldl (appendRecord eth) s
    { s with host := { s.host with telem := { s.host.telem with due := t.due + t.ivl, maps := [] } } }

/-! ### SPDM and IDE (R393, R394, R419) -/

/-- An answer to an SPDM or TDISP request: none for an error. It is the large answer that CHUNK_GET then takes pieces of. -/
def spdmAnswer (s : State) (a : Option (List Byte)) : State :=
  { s with host := { s.host with spdm := s.host.spdm ++ [a], large := a.getD [], chunks := 0 } }

/-- CHUNK_GET (R394): a piece of the last large answer, which stays. -/
def chunkGet (s : State) (i n : Nat) : State :=
  let bs := slice s.host.large (i * n) n
  { s with host := { s.host with spdm := s.host.spdm ++ [if bs.isEmpty then none else some bs] } }

/-- CHUNK_SEND (R394): the next piece of a large request, which is acknowledged; one out of order ends the request. -/
def chunkSend (s : State) (i : Nat) : State :=
  if i = s.host.chunks then { s with host := { s.host with spdm := s.host.spdm ++ [some []], chunks := i + 1 } } else spdmAnswer s none

/-- Table 15.1: full attestation. -/
def attests (l : Life) : Bool := l == .provisioned || l == .deployed || l == .service

/-- R419: the certificate chain of a slot; none where the slot holds none. -/
def certChain (s : State) (slot : Nat) : Option (List Byte) :=
  if slot = 0 then some (Config.deviceChain s.sec.secret s.sec.meas2)
  else if slot = 1 ∧ s.sec.chain ≠ [] then some s.sec.chain
  else none

/-- R394: the capability flags CERT, CHAL, MEAS with signature, ENCRYPT, MAC, KEY_EX, HBEAT, KEY_UPD and CHUNK, where SPDM puts them (log entry 121,
PRESUMED). -/
def spdmFlags : Nat := 2 ^ 1 + 2 ^ 2 + 2 ^ 4 + 2 ^ 6 + 2 ^ 7 + 2 ^ 9 + 2 ^ 13 + 2 ^ 14 + 2 ^ 17

/-- R394: the algorithms ECDSA P-384, SHA-384, secp384r1 and AES-256-GCM, as the bits that SPDM gives them (log entry 121, PRESUMED). -/
def spdmAlgorithms : List Nat := [2 ^ 7, 2 ^ 1, 2 ^ 4, 2 ^ 1]

/-- A session's key set anew (R394 KEY_UPD). -/
def rekey (s : State) (n : Nat) : State :=
  let q := drawKey s
  { q.1 with host := { q.1.host with sess := s.host.sess.map fun x => if x.id = n then { x with key := q.2.take 32 } else x } }

/-- KEY_EXCHANGE (R394): a session over a certificate slot that holds a chain, with its AES-256-GCM key. A failing TRNG makes no key (R412). -/
def openSession (path : SpdmPath) (slot : Nat) (owner : Option (BitVec 4)) (ok : Bool) (s : State) : State :=
  if ok && s.sec.trngOk && (certChain s slot).isSome then
    let n := s.host.nsess + 1
    let q := drawKey s
    spdmAnswer { q.1 with host := { q.1.host with sess := q.1.host.sess ++ [⟨n, path, slot, q.2.take 32, owner⟩], nsess := n } } (some (leBytes 4 n))
  else spdmAnswer s none

/-- The SPDM requests other than GET_MEASUREMENTS, where full attestation is served (R394). `ok` says that
the requester's own part of a key exchange or update checks. -/
def spdmServe (path : SpdmPath) (req : SpdmReq) (ok : Bool) (s : State) : State :=
  let live := fun (n : Nat) => s.host.sess.any fun x => x.id == n && x.path == path
  match req with
  | .getVersion => spdmAnswer s (some [0x13])
  | .getCapabilities => spdmAnswer s (some (leBytes 4 spdmFlags))
  | .negotiateAlgorithms => spdmAnswer s (some (spdmAlgorithms.flatMap (leBytes 4)))
  | .getDigests => spdmAnswer s (some ((below 2).flatMap fun i => match certChain s i with
    | some c => sha384 c
    | none => []))
  | .getCertificate slot off len => spdmAnswer s ((certChain s slot).map fun c => slice c off len)
  | .challenge slot nonce => spdmAnswer s ((certChain s slot).map fun c => sha384 c ++ sig96 s (sha384 c ++ nonce))
  | .keyExchange slot owner => openSession path slot owner ok s
  | .heartbeat n => spdmAnswer s (if live n then some [] else none)
  | .keyUpdate n => if live n && ok && s.sec.trngOk then spdmAnswer (rekey s n) (some []) else spdmAnswer s none
  | .endSession n =>
    if live n then spdmAnswer { s with host := { s.host with sess := s.host.sess.filter fun x => x.id != n } } (some []) else spdmAnswer s none
  | .chunkGet i n => chunkGet s i n
  | .chunkSend i => chunkSend s i

/-- KEY_EXCHANGE and the SPDM requests around it (R394): over DOE, a mailbox in the configuration space, while the link is up (R367), and over MCTP;
RETIRED answers GET_VERSION and GET_CAPABILITIES only, BLANK nothing (Table 15.1). -/
def doKeyExchange (path : SpdmPath) (req : SpdmReq) (ok : Bool) (s : State) : State :=
  let served := attests s.sec.life || (s.sec.life == .retired && (req == .getVersion || req == .getCapabilities))
  if served && (path == .mctp || s.host.link.up) then spdmServe path req ok s else spdmAnswer s none

/-- A measurement's value (Table 15.9); none for an index without a block. -/
def measValue (s : State) (i : Nat) : Option (List Byte) :=
  match i with
  | 1 => some Config.romHash
  | 2 => some (digest48 s.sec.meas2)
  | 3 => some (digest48 s.sec.meas3)
  | 4 => some (digest48 s.sec.meas4)
  | 5 => some (wordBytes [secLc s, secFw s, wd (gradeCode s.part.grade), wd s.part.stepping.toNat])
  | 6 => some (leBytes 8 (eqkey s 1).toNat)
  | 7 => some (digest48 s.sec.owner)
  | _ => if 0x10 ≤ i ∧ i < 0x20 then some (digest48 (tget [] s.sec.measP (i - 0x10))) else none

/-- A block in the DMTF measurement format: blocks 5 and 6 are raw bit streams. -/
def measBlock (i : Nat) (v : List Byte) : List Byte :=
  let kind := if i = 1 then 0 else if i = 5 ∨ i = 6 then 0x83 else 1
  [BitVec.ofNat 8 i, 1] ++ leBytes 2 (v.length + 3) ++ [BitVec.ofNat 8 kind] ++ leBytes 2 v.length ++ v

/-- R418: a session that the owner of partition `n`'s VF has established. -/
def ownerSession (s : State) (n : Nat) (id : Option Nat) : Bool :=
  match id with
  | some k => s.host.sess.any fun x => x.id == k && x.owner == some (BitVec.ofNat 4 n)
  | none => false

/-- R418: the block of a locked partition is returned within a session of the VF's owner only. -/
def measOpen (s : State) (i : Nat) (sess : Option Nat) : Bool :=
  decide (i < 0x10) || !tdiLocked s (i - 0x10) || ownerSession s (i - 0x10) sess

/-- The blocks that a request names: 0xFF names all. -/
def measIndices (index : Nat) : List Nat := if index = 0xFF then upto 1 7 ++ upto 0x10 16 else [index]

/-- GET_MEASUREMENTS (R394, R419): the blocks, or for index 0 their number, with a signature over them and the nonce when asked for. -/
def doGetMeasurements (index : BitVec 8) (sign : Bool) (nonce : List Byte) (sess : Option Nat) (s : State) : State :=
  if !attests s.sec.life || (sess.isSome && !hasSession s sess) then spdmAnswer s none
  else
    let blocks := (measIndices index.toNat).filterMap fun i =>
      if measOpen s i sess then (measValue s i).map (measBlock i) else none
    if index != 0 && blocks.isEmpty then spdmAnswer s none
    else
      let b := if index = 0 then [23] else blocks.flatten
      spdmAnswer s (some (if sign then b ++ sig96 s (b ++ nonce) else b))

/-- Streams: the link stream and 17 selective ones (R393). -/
def ideStreams : Nat := 18

/-- The state with a stream changed. -/
def putIde (s : State) (n : Nat) (v : IdeStream) : State := { s with host := { s.host with ide := tput .zero s.host.ide n v } }

/-- A stream. -/
def getIde (s : State) (n : Nat) : IdeStream := tget .zero s.host.ide n

/-- R393: what a stream can be programmed with: a 256-bit key, and two address-association blocks at most on a selective stream, none on the link
stream, number 0. -/
def ideFits (n : Nat) (key : List Byte) (assoc : List (Word × Word)) : Bool :=
  key.length == 32 && decide (assoc.length ≤ if n = 0 then 0 else 2)

/-- IDE_KM (R393): key programming and refresh over a secured session; a failed integrity check drops its TLP and makes the stream insecure. -/
def doIdeKm (stream : Nat) (sess : Option Nat) (op : IdeOp) (s : State) : State :=
  let v := getIde s stream
  if ideStreams ≤ stream then spdmAnswer s none
  else match op with
  | .integrityFailure => if v.st = 1 then putIde s stream { v with st := 2 } else s
  | .program key assoc =>
    if hasSession s sess && ideFits stream key assoc then spdmAnswer (putIde s stream ⟨1, key, assoc⟩) (some []) else spdmAnswer s none
  | .refresh key =>
    if hasSession s sess && v.st == 1 && ideFits stream key v.assoc then spdmAnswer (putIde s stream { v with key := key }) (some [])
    else spdmAnswer s none
  | .stop => if hasSession s sess then spdmAnswer (putIde s stream .zero) (some []) else spdmAnswer s none

/-! ### TDISP (R395); a VF is named by its partition -/

/-- The TDI of partition `n`'s function. -/
def tdiOf (s : State) (n : Nat) : Tdi := (getFn s (n + 1)).tdi

/-- The state with a TDI changed. -/
def setTdi (s : State) (n : Nat) (t : Tdi) : State := modFn s (n + 1) fun m => { m with tdi := t }

/-- LOCK_INTERFACE (R395, R398): accepted in DEPLOYED, from CONFIG_UNLOCKED. -/
def doLockInterface (vf : BitVec 4) (s : State) : State :=
  if s.sec.life = .deployed ∧ tdiOf s vf.toNat = .unlocked then spdmAnswer (setTdi s vf.toNat .locked) (some [])
  else spdmAnswer s none

/-- START_INTERFACE: from CONFIG_LOCKED. -/
def doStartInterface (vf : BitVec 4) (s : State) : State :=
  if tdiOf s vf.toNat = .locked then spdmAnswer (setTdi s vf.toNat .run) (some []) else spdmAnswer s none

/-- STOP_INTERFACE: the partition unloaded, its range removed, the TDI unlocked. -/
def doStopInterface (vf : BitVec 4) (s : State) : State :=
  if tdiLocked s vf.toNat then spdmAnswer (forceUnlock s vf.toNat) (some [])
  else spdmAnswer (setTdi s vf.toNat .unlocked) (some [])

/-- The report's three BAR ranges: their number and size (Table 14.2). -/
def reportBytes : List Byte :=
  ([(0, 0x4000000), (2, 0x1000), (4, 0x800000000)] : List (Nat × Nat)).flatMap fun p => leBytes 8 p.1 ++ leBytes 8 p.2

/-- The number of a TDI's state: 0 CONFIG_UNLOCKED, 1 CONFIG_LOCKED, 2 RUN, 3 ERROR (log entry 121, PRESUMED). -/
def tdiCode (t : Tdi) : Byte :=
  match t with
  | .unlocked => 0
  | .locked => 1
  | .run => 2
  | .error => 3

/-- GET_DEVICE_INTERFACE_REPORT: of a TDI that is locked or runs; and the other reading requests of R395: the version 1.0, the codes of the requests
supported, the state (log entry 121). -/
def doGetDeviceInterfaceReport (vf : BitVec 4) (what : TdispGet) (s : State) : State :=
  spdmAnswer s (match what with
    | .version => some [0x10]
    | .capabilities => some (ascii [0x81, 0x82, 0x83, 0x84, 0x85, 0x86, 0x87])
    | .state => some [tdiCode (tdiOf s vf.toNat)]
    | .report => if tdiLocked s vf.toNat then some reportBytes else none)

/-! ### The PCIe link (R366, R367, R492) -/

/-- Table 14.1: what a link can settle on. -/
def linkFits (gts width : Nat) (c : PcieCfg) : Bool :=
  ([2, 5, 8, 16, 32, 64] : List Nat).contains gts && ([1, 2, 4, 8, 16] : List Nat).contains width &&
  (gts != 64 || c.flit) && (!c.flit || decide (16 ≤ gts)) && ([128, 256, 512] : List Nat).contains c.mps &&
  ([128, 256, 512, 1024, 2048, 4096] : List Nat).contains c.mrrs && (!c.l0p || c.flit) && (!c.ecrc || !c.flit) && decide (c.vfs ≤ 16)

/-- PCIE_LINK_TRAINED (R366, R367): the lanes are enabled from READY on, while PERST_N is high (R423, R537); the link settles on nothing outside Table
14.1. What the host's configuration writes then change is given by the command again (log entry 120, DESIGN CHOICE). -/
def doPcieLinkTrained (gts width : Nat) (cfg : PcieCfg) (s : State) : State :=
  if s.cruise.ready && s.pins.perstN && linkFits gts width cfg then { s with host := { s.host with link := ⟨true, gts, width, cfg, false, s.host.link.aer⟩ } } else s

/-- The link down and every function as after an FLR. -/
def pcieReset (s : State) : State :=
  (List.finRange 17).foldl (fun s f => doFlr f s) { s with host := { s.host with link := .zero, winq := [] } }

/-- PCIE_RESET (R492). -/
def doPcieReset (cause : PcieResetCause) (s : State) : State :=
  pcieReset (if cause = .perstLow then { s with pins := { s.pins with perstN := false } } else s)

/-- PERST_N_RISE (R537). -/
def doPerstNRise (s : State) : State := { s with pins := { s.pins with perstN := true } }

/-! ### Meanings -/

def execTelem (r : CmdRef) (s : State) : Out := .next (doTelem r s)
def execTelemetryInterval (s : State) : Out := .next (doTelemetryInterval Config.telemExport s)
def execGetMeasurements (index : BitVec 8) (sign : Bool) (nonce : List Byte) (sess : Option Nat) (s : State) : Out :=
  .next (doGetMeasurements index sign nonce sess s)
def execKeyExchange (path : SpdmPath) (req : SpdmReq) (ok : Bool) (s : State) : Out := .next (doKeyExchange path req ok s)
def execIdeKm (stream : Nat) (sess : Option Nat) (op : IdeOp) (s : State) : Out := .next (doIdeKm stream sess op s)
def execLockInterface (vf : BitVec 4) (s : State) : Out := .next (doLockInterface vf s)
def execStartInterface (vf : BitVec 4) (s : State) : Out := .next (doStartInterface vf s)
def execStopInterface (vf : BitVec 4) (s : State) : Out := .next (doStopInterface vf s)
def execGetDeviceInterfaceReport (vf : TdispRead) (s : State) : Out := .next (doGetDeviceInterfaceReport vf.vf vf.what s)
def execPcieReset (cause : PcieResetCause) (s : State) : Out := .next (doPcieReset cause s)
def execPerstNRise (s : State) : Out := .next (doPerstNRise s)
def execPcieLinkTrained (gts : Nat) (width : PcieTrain) (s : State) : Out := .next (doPcieLinkTrained gts width.width width.cfg s)

end Sys2Proof.Machine
end

