-- ==== Sys2Proof/Machine/Security.lean ====
section
/-! DEFINITION. The Warden: owner tokens, the life cycle, the sanitising sequence, firmware slots, the random number
generator, and the completion of host commands that the sequence waits for (15_security.md, 14_host_interface.md R379). -/

namespace Sys2Proof.Machine

/-! ### Tokens (R403, R404) -/

/-- The bytes of a token that the mailbox holds (Table 15.10). -/
def mboxBytes (s : State) : List Byte := wordBytes ((below 35).map fun i => tget 0 s.sec.mbox i)

/-- COMMAND of a token. -/
def tokCmd (bs : List Byte) : Nat := (bs.getD 4 0).toNat

/-- R404 check 1. -/
def tokReserved (bs : List Byte) : Bool :=
  bs.length != 280 || slice bs 0 4 != ascii [0x42, 0x52, 0x56, 0x54] || tokCmd bs == 0 || decide (4 < tokCmd bs) ||
  (slice bs 5 3).any (· != 0) || (tokCmd bs != 1 && (slice bs 88 96).any (· != 0))

/-- Table 15.2: whether a token's COMMAND has a transition from a state. -/
def tokAllowed (l : Life) (c : Nat) : Bool :=
  match l, c with
  | .provisioned, 1 => true
  | .provisioned, 4 => true
  | .deployed, 2 => true
  | .deployed, 4 => true
  | .service, 3 => true
  | .service, 4 => true
  | _, _ => false

/-- A signer slot whose key may be used: not revoked, and its hash not marginal (R430). -/
def signerUsable (s : State) (i : Nat) : Bool := decide (i < 4) && !bit s.sec.revoked i && !sHas s.sec.badKeys i

/-- R404: who signs a token. -/
def tokSigned (s : State) (bs : List Byte) : Bool :=
  let msg := slice bs 0 184
  let sig := slice bs 184 96
  if tokCmd bs = 4 ∧ s.sec.life = .provisioned then
    (below 4).any fun i => signerUsable s i && Config.verifySig msg (Config.signerHash i) sig
  else if sHas s.sec.badKeys 4 then false
  else if tokCmd bs = 1 then Config.verifySig msg (slice bs 88 96) sig
  else Config.verifySig msg s.sec.owner sig

/-- R406, R430: the device can derive its identity: its secret stands, and its word does not read marginal. -/
def hasIdentity (s : State) : Bool := s.sec.secret && !sHas s.sec.badKeys 6

/-- R404 check 2. -/
def tokPermitted (s : State) (bs : List Byte) : Bool :=
  tokAllowed s.sec.life (tokCmd bs) && hasIdentity s && slice bs 8 48 == Config.deviceIdHash && slice bs 56 32 == wordBytes s.sec.nonce &&
  (tokCmd bs != 1 || Config.validPoint (slice bs 88 96)) && tokSigned s bs

/-- R404: the status of a token. -/
def tokStatus (s : State) (bs : List Byte) : Status :=
  if tokReserved bs then sRSVD
  else if !tokPermitted s bs then sPERM
  else if tokCmd bs = 2 ∧ 32 ≤ s.sec.entries then sBOUNDS
  else sOK

/-- A new nonce: four free words (R404; log entry 3). -/
def newNonce (s : State) : State :=
  let n := (below 4).map fun i => Config.freeWord (s.freeCtr + i)
  { s with freeCtr := s.freeCtr + 4, sec := { s.sec with nonce := n } }

/-- Vector 198 (Table 14.11). -/
def secSignal (s : State) : State := signalVec s 0 198

/-! ### The sanitising sequence (R405, R406) -/

/-- A command is still in flight on some function. -/
def cmdsInFlight (s : State) : Bool := (below 17).any fun f => (getFn s f).cmds.any fun c => c.fin.isNone

/-- Table 15.4 step 2. -/
def sanLinks (s : State) : State :=
  let s := (below 16).foldl (fun s n => if tdiLocked s n then forceUnlock s n else setTdi s n .unlocked) s
  { s with host := { s.host with sess := [], ide := (below ideStreams).foldl (fun t n => tput .zero t n { tget .zero t n with st := 2, key := [] }) s.host.ide } }

/-- Every core that has a program number, that of a vacated position too. -/
def loadedCores (s : State) : List Lcid :=
  ((below 4096).map (BitVec.ofNat 12)).filter fun l => fld (getCore s l).role 28 16 != 0

/-- Table 15.4 step 3. -/
def sanLoads (s : State) : State :=
  let s := (loadedCores s).foldl (fun s l => if occupied s l then forceUnload (corePart s l) s l else clearProgram s l) s
  let s := s.reds.foldl abortRed s
  { s with host := { s.host with colls := [] } }

/-- Table 15.4 step 4. -/
def sanKeys (s : State) : State := (below 16).foldl (fun s n => removeRange s n (rangeFields (rangeWord s n))) s

/-- Table 15.4 step 5. -/
def sanGroves (s : State) : State := (below 256).foldl (fun s d => sanitiseGrove s (BitVec.ofNat 8 d)) s

/-- Bits of a fuse word blown (`burnt` in State). -/
def burn (c : Sec) (word : Nat) (bits : Nat) : Sec := { c with burnt := tput 0 c.burnt word (tget 0 c.burnt word ||| wd bits) }

/-- Table 15.4 step 6, first fuses: the next SVC_ENTRY bit, or for RETIRE every bit of the device secret. -/
def sanFuse (s : State) (cmd : Nat) : State :=
  let c := s.sec
  if cmd = 4 then { s with sec := { c with secret := false } }
  else
    let n := min 32 (c.entries + 1)
    { s with sec := burn { c with entries := n } 1 (2 ^ n - 1) }

/-- Step 6, the RETIRED fuse, which is blown after the secret is destroyed (R406). -/
def sanRetire (s : State) (cmd : Nat) : State := if cmd = 4 then { s with sec := burn s.sec 0 4 } else s

/-- Step 7: the new state in force. -/
def sanForce (s : State) (cmd : Nat) : State :=
  secSignal { s with sec := { s.sec with
    life := if cmd = 4 then .retired else .service, changed := true, busy := false, pending := none, sanAt := 0 } }

/-- One step of the sequence: 1 waits for the commands in flight; 6 and 7 are the two fuses of step 6, 8 is step 7. -/
def sanDo (s : State) (cmd : Nat) : State :=
  let on := fun (s : State) => { s with sec := { s.sec with sanAt := s.sec.sanAt + 1 } }
  match s.sec.sanAt with
  | 1 => if cmdsInFlight s then s else on s
  | 2 => on (sanLinks s)
  | 3 => on (sanLoads s)
  | 4 => on (sanKeys s)
  | 5 => on (sanGroves s)
  | 6 => on (sanFuse s cmd)
  | 7 => on (sanRetire s cmd)
  | _ => sanForce s cmd

/-- R406: steps 4 to 7, which a warm reset completes. -/
def sanTail (s : State) (cmd : Nat) : State := sanForce (sanRetire (sanFuse (sanGroves (sanKeys s)) cmd) cmd) cmd

/-- A pending sequence goes on by a step at a tick (log entry 123, DESIGN CHOICE). -/
def sanStep (s : State) : State :=
  match s.sec.pending with
  | some cmd => sanDo s cmd.toNat
  | none => s

/-- R400, R401, R405, R407: what an accepted token does. -/
def applyToken (s : State) (bs : List Byte) : State :=
  match tokCmd bs with
  | 1 =>
    let h := sha384 (slice bs 88 96)
    secSignal { s with sec := burn { s.sec with owner := h, life := .deployed, changed := true } 0 2 }
  | 3 =>
    let n := min 32 (s.sec.exits + 1)
    { s with sec := burn { s.sec with exits := n, exitPend := true } 2 (2 ^ n - 1) }
  | c => { s with sec := { s.sec with busy := true, pending := some (BitVec.ofNat 8 c), sanAt := 1 } }

/-- A token checked and, if it passes, applied. -/
def runToken (s : State) (bs : List Byte) : State :=
  let st := tokStatus s bs
  let c := s.sec
  let s := { s with sec := { c with result := st, command := BitVec.ofNat 8 (tokCmd bs), done := true
                                    rejected := if st = sOK then c.rejected else BitVec.ofNat 16 (satAdd 16 c.rejected.toNat 1) } }
  let s := newNonce s
  if st = sOK then applyToken s bs else s

/-! ### SEC_MBOX_CTRL (R403, R410) -/

/-- Base of the SEC_ block. -/
def secBlk : Nat := 0x3000

/-- A write of a SEC_ register: PF0 and the Lookout (R420). -/
def secWrite (s : State) (w : Wr) (off : Nat) (reserved cond : Bool) (f : State → State) : State :=
  guardWrite s w.writer.toNat secBlk (secBlk + off) (byPf0 w.writer.toNat) none reserved cond f

/-- A little-endian field of an image header. -/
def hdrNum (i : FwImage) (at' n : Nat) : Nat := leNat (slice i.header at' n)

/-- The slot A or B of the flash. -/
def fwSlot (s : State) (b : Bool) : FwSlot := if b then s.sec.slotB else s.sec.slotA

/-- The state with a slot replaced. -/
def putSlot (s : State) (b : Bool) (v : FwSlot) : State :=
  if b then { s with sec := { s.sec with slotB := v } } else { s with sec := { s.sec with slotA := v } }

/-- R410: when COMMIT is accepted. -/
def mayCommit (s : State) : Bool :=
  decide (s.sec.svnFused < s.sec.svnRun) && !s.sec.recovery &&
  (s.sec.life == .provisioned || s.sec.life == .deployed || s.sec.life == .service)

/-- R410 step 3: a slot that may no longer be used. -/
def slotStale (s : State) (v : FwSlot) : Bool :=
  [v.warden, v.lookout].any fun i => decide (hdrNum i 6 2 < s.sec.svnFused) || bit s.sec.revoked (hdrNum i 5 1)

/-- R410: the anti-rollback count and the revocations of the running Lookout image. -/
def commit (s : State) : State :=
  let rv := hdrNum (fwSlot s s.sec.run).lookout 12 4
  let s := { s with sec := burn (burn { s.sec with svnFused := s.sec.svnRun, revoked := s.sec.revoked ||| BitVec.ofNat 4 rv } 3 (2 ^ s.sec.svnRun - 1)) 4 rv }
  [false, true].foldl (fun s b => let v := fwSlot s b; if slotStale s v then putSlot s b { v with valid := false } else s) s

/-- SUBMIT: the mailbox goes to the Warden and is cleared. -/
def submit (s : State) : State :=
  let bs := mboxBytes s
  runToken { s with sec := { s.sec with mbox := [] } } bs

/-- A write of SEC_MBOX_CTRL: COMMIT, then SUBMIT. -/
def mboxCtrl (w : Wr) (s : State) : State :=
  let v := halfBits w.half w.value
  secWrite s w 0x40 false (!s.sec.busy && (!bit v 1 || mayCommit s)) fun s =>
    let s := if bit v 1 then commit s else s
    if bit v 0 then submit s else s

/-- A token of one command delivered: through the mailbox, or whole as an MCTP message while the Warden is free. A token of
another command is not this row's. -/
def doToken (cmd : Nat) (t : TokenSrc) (s : State) : State :=
  let mine := fun (bs : List Byte) => tokCmd bs == cmd || tokCmd bs == 0 || decide (4 < tokCmd bs)
  match t with
  | .mailbox w => if bit (halfBits w.half w.value) 0 && mine (mboxBytes s) then mboxCtrl w s else s
  | .mctp bs => if lookoutUp s && !s.sec.busy && mine bs then runToken s bs else s

/-- DEPLOY (R400). -/
def doDeploy (t : TokenSrc) (s : State) : State := doToken 1 t s

/-- ENTER_SERVICE (R405). -/
def doEnterService (t : TokenSrc) (s : State) : State := doToken 2 t s

/-- EXIT_SERVICE (R407). -/
def doExitService (t : TokenSrc) (s : State) : State := doToken 3 t s

/-- RETIRE (R405). -/
def doRetire (t : TokenSrc) (s : State) : State := doToken 4 t s

/-- COMMIT (R410). -/
def doCommit (w : Wr) (s : State) : State := if bit (halfBits w.half w.value) 1 then mboxCtrl w s else s

/-! ### Firmware (R408, R409) and the owner chain (R419) -/

/-- R409: an image that the Warden accepts; `kind` is what its place asks for. -/
def imageOk (s : State) (kind : Nat) (i : FwImage) : Bool :=
  let h := i.header
  h.length == 512 && slice h 0 4 == ascii [0x42, 0x52, 0x56, 0x46] && hdrNum i 4 1 == kind && signerUsable s (hdrNum i 5 1) &&
  sha384 (slice h 92 96) == Config.signerHash (hdrNum i 5 1) && Config.verifySig (slice h 0 188 ++ i.cipher) (slice h 92 96) (slice h 188 96) &&
  decide (s.sec.svnFused ≤ hdrNum i 6 2) && decide (hdrNum i 6 2 ≤ 64) && hdrNum i 8 4 == i.cipher.length &&
  !(hdrNum i 12 4).testBit (hdrNum i 5 1) && !sHas s.sec.badKeys 5 &&
  match Config.decryptImage h i.cipher with
  | some p => sha384 p == slice h 44 48
  | none => false

/-- R409 for the images that the factory put into slot A, which the model holds without their bytes (log entry 21, DESIGN CHOICE): SVN 0,
signer slot 0. -/
def factoryOk (s : State) : Bool := s.sec.svnFused == 0 && signerUsable s 0 && !sHas s.sec.badKeys 5

/-- A slot whose two images the Warden accepts. -/
def slotBootable (s : State) (v : FwSlot) : Bool :=
  if v.warden.header.isEmpty && v.lookout.header.isEmpty then v.valid && factoryOk s
  else imageOk s 1 v.warden && imageOk s 2 v.lookout

/-- DIGEST of an image, that of the factory where it has no bytes. -/
def imageDigest (n : Nat) (i : FwImage) : List Byte := if i.header.isEmpty then Config.factoryDigest n else slice i.header 44 48

/-- Measurement 4 of a Lookout image. -/
def imageServices (i : FwImage) : List Byte :=
  if i.header.isEmpty then Config.factoryDigest 3
  else match Config.decryptImage i.header i.cipher with
    | some p => Config.serviceDigest p
    | none => []

/-- FIRMWARE_UPDATE (R409, R525): the slot that is not running is written; it is valid once both images pass. In recovery the
SMBus alone carries it, and the boot record then names the new slot. -/
def doFirmwareUpdate (overSmbus : Bool) (warden lookout : FwImage) (s : State) : State :=
  if !(lookoutUp s || s.sec.recovery) || (s.sec.recovery && !overSmbus) || s.sec.busy then s
  else
    let v : FwSlot := ⟨warden, lookout, false⟩
    let v := { v with valid := imageOk s 1 warden && imageOk s 2 lookout }
    let b := !s.sec.run
    let s := putSlot s b v
    if s.sec.recovery && v.valid then { s with sec := { s.sec with next := b } } else s

/-- OWNER_CHAIN_WRITE (R419): in DEPLOYED, a chain under the fused owner key. -/
def doOwnerChainWrite (chain : List Byte) (s : State) : State :=
  if lookoutUp s && s.sec.life == .deployed && !sHas s.sec.badKeys 4 && Config.chainCertifies chain s.sec.owner then
    { s with sec := { s.sec with chain := chain } }
  else s

/-- R411, R412: the firmware range key, drawn at a cold reset, or once the TRNG passes again. -/
def drawFwKey (s : State) : State :=
  if !s.sec.trngOk || !s.hbm.fwKey.isEmpty then s
  else
    let q := drawKey s
    { q.1 with hbm := { q.1.hbm with fwKey := q.2 } }

/-- TRNG_HEALTH_TEST (R412). -/
def doTrngHealthTest (pass : Bool) (s : State) : State :=
  let s := { s with sec := { s.sec with trngOk := pass } }
  if pass then (if s.cruise.phase = 0 then s else drawFwKey s) else raise s (rpt 13 sINTERNAL 2 5 0)

/-- HOST_COMMAND_COMPLETE (R379): a finished command leaves. -/
def doHostCommandComplete (r : CmdRef) (s : State) : State :=
  if asleep s then s
  else match cmdOf s r with
  | none => s
  | some c => match c.fin with
    | some (st, res) => finishCmd s r.f c st res
    | none => s

/-! ### Meanings -/

def execDeploy (tok : TokenSrc) (s : State) : Out := .next (doDeploy tok s)
def execEnterService (tok : TokenSrc) (s : State) : Out := .next (doEnterService tok s)
def execExitService (tok : TokenSrc) (s : State) : Out := .next (doExitService tok s)
def execRetire (tok : TokenSrc) (s : State) : Out := .next (doRetire tok s)
def execCommit (w : Wr) (s : State) : Out := .next (doCommit w s)
def execOwnerChainWrite (chain : List Byte) (s : State) : Out := .next (doOwnerChainWrite chain s)
def execFirmwareUpdate (overSmbus : Bool) (warden lookout : FwImage) (s : State) : Out := .next (doFirmwareUpdate overSmbus warden lookout s)
def execTrngHealthTest (pass : Bool) (s : State) : Out := .next (doTrngHealthTest pass s)
def execHostCommandComplete (r : CmdRef) (s : State) : Out := .next (doHostCommandComplete r s)

end Sys2Proof.Machine
end

