-- ==== Sys2Proof/Machine/Resets.lean ====
section
/-! DEFINITION. What a device warm reset and a device cold reset clear and keep (18_hangs_rings_resets.md R492, R493, Table 18.11).
What the table does not name, a warm reset keeps, since it is no part of the scope that R492 gives it; but the registers of cores and
groves without a row of their own return to reset, since Cruise powers their logic anew (log entry 60, DEDUCED). -/

namespace Sys2Proof.Machine

/-! ### Warm -/

/-- A slice zeroed, its repairs and counts kept. -/
def warmSlice (sl : Slice) : Slice := { sl with mem := [], bad := [] }

/-- A core as a warm reset leaves it: the counts since cold reset and the repairs of its slice stay. -/
def warmCore (k : Core) : Core :=
  { Core.zero with
    faults := k.faults, sp := warmSlice k.sp
    un := { Units.zero with q63Lost := k.un.q63Lost, bounces := k.un.bounces }
    ring := { Core.zero.ring with replays := k.ring.replays, adoptions := k.ring.adoptions, gen := k.ring.gen } }

/-- A grove as a warm reset leaves it: what has been fused, blazed, substituted and counted stays. -/
def warmGrove (g : Grove) : Grove :=
  { Grove.zero with
    fused := g.fused, routerBad := g.routerBad, sites := g.sites, lost := g.lost, corrected := g.corrected
    aborts := g.aborts, restarts := g.restarts, check := g.check }

/-- R322: the lane map of a Cruise: every logical lane on the physical lane of its number, but for those that have failed, which the lowest spares
carry (R336). -/
def cruiseLanes (failed : NatSet) : Tbl Nat :=
  ((((below 16).filter fun i => sHas failed i).zip ((upto 16 2).filter fun x => !sHas failed x))).foldl (fun t p => tput 0 t p.1 (p.2 + 1)) []

/-- A port as a warm reset leaves it before it trains again: its counts and failed lanes stay, and it stays FUSED or RETIRED. -/
def warmPort (p : Port) : Port :=
  { Port.zero with
    st := if p.st = 0 ∨ p.st = 4 then p.st else 1, cause := if p.st = 4 then p.cause else 0, retrains := p.retrains, lanes := cruiseLanes p.failed
    failed := p.failed, corrected := p.corrected, uncorr := p.uncorr, retries := p.retries }

/-- Tables, ACTIVE bank, shapers, holds and counts stay; packets are lost. -/
def warmGf (g : Gf) : Gf :=
  { g with ports := tmap Port.zero warmPort g.ports
           shapers := tmap Shaper.zero (fun x => { x with queue := [] }) g.shapers
           stored := [], moved := [], egress := [], inbox := [], rxSeq := [], lost := [] }

/-- A function cleared; what it has signalled stays sent. -/
def warmFn (n : Fn) : Fn := { Fn.zero with nseq := n.nseq, sent := n.sent }

/-- The host side: every function cleared, the link down; what the host has received stays with it. -/
def warmHost (h : HostSide) : HostSide :=
  { h with fns := tmap Fn.zero warmFn h.fns, link := .zero, winq := [], aper := [], colls := []
           telem := HostSide.zero.telem, sess := [], ide := [] }

/-- The write-reject registers without those of the CQ_ blocks, which go with their functions (R493, R559). -/
def dropCqWrej (t : Tbl Word) : Tbl Word := t.filter fun p => !(decide (0x10000 ≤ p.1) && decide (p.1 < 0x100000))

/-- R461: entries that cannot spill lost and counted, with a gap that covers them. -/
def loseDie (c : Comb) : Comb :=
  let lose := fun (c : Comb) (e : LogEnt) =>
    let g : Gap := match c.gap with
      | some g => { g with n := g.n + 1, mask := g.mask ||| 2 ^ e.r.cls.toNat, last := e.r.time }
      | none => ⟨1, 2 ^ e.r.cls.toNat, e.r.time, e.r.time⟩
    { c with gap := some g, lost := min (c.lost + 1) (2 ^ 64 - 1)
             ovf := tput 0 c.ovf e.r.cls.toNat (BitVec.ofNat 16 (satAdd 16 (tget 0 c.ovf e.r.cls.toNat).toNat 1)) }
  c.die.foldl lose { c with die := [] }

/-- R461: the four logs at a device warm reset. -/
def warmLogs (s : State) : State := (below 4).foldl (fun s i => modComb (closeAll s i) i loseDie) s

/-- The regions: settings stay, readings and holds begin again. -/
def warmPace (p : Pace) : Pace :=
  { p with regions := p.regions.map fun r => (r.1, { r.2 with vnow := 0, pace := 0, thermal := false, pwr := false, skew := false })
           recal := 0, recalBusy := false, recalLeft := [], rails := [], avsBad := [], skewPairs := [], capped := false, locked := false
           goodFrom := none, holdover := false, heard := p.ticks }

/-- Cruise before its first step, with what a warm reset keeps: the fuses as applied, the blaze list, the cause of the last cold
reset. -/
def warmCruise (c : Cruise) : Cruise :=
  { Cruise.zero with
    fused := c.fused, margins := c.margins, fgroves := c.fgroves, fports := c.fports, vrp := c.vrp, blazed := c.blazed
    wasReady := c.wasReady, cold := c.cold, cause := c.cause, prevTrip := c.prevTrip, differs := c.differs }

/-- R470: commands in progress that the restart of the Lookout abandons. -/
def leaveTokens (s : State) : State :=
  let f := fun (t : Token) => if t.done.isNone then { t with left := true } else t
  { s with errs := { s.errs with tokens := s.errs.tokens.map f } }

/-- A device warm reset (Table 18.10), up to the start of its Cruise. -/
def warmReset (s : State) : State :=
  let s := leaveTokens (warmLogs s)
  { s with
    cores := tmap Core.zero warmCore s.cores
    groves := tmap Grove.zero warmGrove s.groves
    reds := [], landing := [], gf := warmGf s.gf, host := warmHost s.host, pace := warmPace s.pace
    hbm := { s.hbm with stk := tmap Stack.zero (fun k => { k with selfRef := k.trained, trained := false }) s.hbm.stk }
    sec := { s.sec with mbox := [], busy := s.sec.pending.isSome }
    cruise := warmCruise s.cruise
    dorm := { s.dorm with st := .active, saved := [], dueTick := none, held := [], slept := false, portsIdle := false }
    snags := tmap Snag.zero (fun g => { g with live := [] }) s.snags
    quiets := [], check := { s.check with twinNow := [], hold := [], owed := [], sounding := [], sweeps := [], waits := [], starts := [] }
    live := { s.live with last := none, waiting := [], roll := [], freed := [], rolling := false, kset := [], moves := [] }
    pins := { s.pins with wake := false }, notice := none, wrej := dropCqWrej s.wrej }

/-! ### Cold -/

/-- What outlives the loss of power: fuses, flash, and what the host holds. -/
def coldSec (c : Sec) : Sec :=
  { Sec.zero with
    life := c.life, marginal := c.marginal, entries := c.entries, exits := c.exits, owner := c.owner, badKeys := c.badKeys
    secret := c.secret, svnFused := c.svnFused, revoked := c.revoked, slotA := c.slotA, slotB := c.slotB, run := c.run
    next := c.next, chain := c.chain, trngOk := c.trngOk, burnt := c.burnt }

/-- The host's own memory and what it has been sent. -/
def coldHost (h : HostSide) : HostSide :=
  { HostSide.zero with
    fns := tmap Fn.zero warmFn h.fns, mem := h.mem, hbad := h.hbad, bus := h.bus, reads := h.reads
    nsess := h.nsess, spdm := h.spdm }

/-- The stacks without power: soft repairs used up stay used up (R363). -/
def coldHbm (h : Hbm) : Hbm :=
  { Hbm.zero with stk := tmap Stack.zero (fun k => { Stack.zero with repaired := k.repaired }) h.stk }

/-- A device cold reset with its cause (Table 18.10). The model's own clock and free-value counter go on. -/
def coldReset (s : State) (cause : Nat) : State :=
  { State.reset with
    part := s.part, host := coldHost s.host, hbm := coldHbm s.hbm, sec := coldSec s.sec
    pace := { Pace.zero with ticks := s.pace.ticks, heard := s.pace.ticks }
    cruise := { Cruise.zero with fused := s.cruise.fused, margins := s.cruise.margins, fgroves := s.cruise.fgroves
                                 fports := s.cruise.fports, vrp := s.cruise.vrp, cause := cause, prevTrip := cause == 3 }
    errs := { Errs.zero with answers := s.errs.answers }
    live := { Live.zero with fn := s.live.fn, red := s.live.red, answers := s.live.answers }
    pins := { s.pins with wake := false, osc := false }
    freeCtr := s.freeCtr, pending := s.pending }

end Sys2Proof.Machine
end

