-- ==== Sys2Proof/Machine/Cruise.lean ====
section
/-! DEFINITION. Cruise: fuses, boot, training, power-up, the initial test, numbering, the resident image, the topology check,
READY (16_bringup.md R421 to R443). -/

namespace Sys2Proof.Machine

/-! ### Fuses (R429 to R431) -/

/-- R429: the value that a bit of a fuse word takes: that which two stable copies read. -/
def voteBit (copies : List (Word × Word)) (i : Nat) : Option Bool :=
  let st := (copies.take 3).filterMap fun c => if bit c.1 i == bit c.2 i then some (bit c.1 i) else none
  if 2 ≤ (st.filter fun b => b).length then some true
  else if 2 ≤ (st.filter fun b => !b).length then some false
  else none

/-- A fuse word voted: the decided bits that are 1, and the undecided bits. -/
def voteWord (copies : List (Word × Word)) : Word × Word :=
  (wd (maskOf 64 fun i => voteBit copies i == some true), wd (maskOf 64 fun i => voteBit copies i == none))

/-- Every unit that a word of the repair map names. -/
def repairAll (w : RepairWord) : Word :=
  match w with
  | .sites _ => 0x3FFFF
  | .cols _ _ => 0x1FFFFFFFF
  | .lanes _ _ hi => if hi then 3 else 0xFFFFFFFFFFFFFFFF
  | .rows _ _ _ => 0xFFFFFFFFFFFFFFFF

/-- R430, Table 16.3: a word as applied: in the safe interpretation of its class if it is marginal. A count or a life-cycle word
takes its undecided bits as blown; a set of units takes every unit. -/
def applyFuse (r : FuseRead) : FuseOut :=
  let v := voteWord r.copies
  let bad := v.2 != 0
  let safe : Word := match r.cls with
    | .groves _ => 0
    | .ports => 0
    | .repair w => repairAll w
    | .vrp _ => 0xA0
    | .revoke => 0xF
    | .signerHash _ => 0
    | .ownerHash => 0
    | .secret => 0
    | .imageKey => 0
    | .svn => v.1 ||| v.2
    | .svcEntry => v.2
    | .svcExit => v.2
    | .lifeCycle => v.2
  ⟨r.cls, if bad then safe else v.1, bad⟩

/-- The bit of DEV_FUSE_MARGINAL of a class (Table 16.3). -/
def marginBit (c : FuseClass) : Nat :=
  match c with
  | .groves _ => 0
  | .ports => 1
  | .repair _ => 2
  | .vrp _ => 3
  | .revoke => 4
  | .svn => 5
  | .svcEntry => 6
  | .svcExit => 6
  | .lifeCycle => 6
  | .secret => 7
  | .imageKey => 7
  | .signerHash _ => 7
  | .ownerHash => 7

/-- Bits blown in a word. -/
def blown (v : Word) : Nat := (below 64).countP fun i => bit v i

/-- The slot of `badKeys` of a key word. -/
def keySlot (c : FuseClass) : Option Nat :=
  match c with
  | .signerHash i => some i.toNat
  | .ownerHash => some 4
  | .imageKey => some 5
  | .secret => some 6
  | _ => none

/-- The life cycle that its word gives: bits 0, 1 and 2 are PROVISIONED, DEPLOYED and RETIRED (log entry 21, DESIGN CHOICE). -/
def lifeOf (v : Word) : Life :=
  if bit v 2 then .retired else if bit v 1 then .deployed else if bit v 0 then .provisioned else .blank

/-- One word latched (R430). -/
def latchFuse (s : State) (o : FuseOut) : State :=
  let c := s.cruise
  let sec := s.sec
  let s := match o.cls with
    | .groves i => { s with cruise := { c with fgroves := (below 64).foldl (fun t j =>
        if bit o.val j then sDel t (64 * i.toNat + j) else sIns t (64 * i.toNat + j)) c.fgroves } }
    | .ports => { s with cruise := { c with fports := ~~~(BitVec.ofNat 16 o.val.toNat) } }
    | .vrp i => { s with cruise := { c with vrp := tput 0xA0 c.vrp i.toNat (fld o.val 0 8) } }
    | .revoke => { s with sec := { sec with revoked := BitVec.ofNat 4 (fld o.val 0 4) } }
    | .svn => { s with sec := { sec with svnFused := blown o.val } }
    | .svcEntry => { s with sec := { sec with entries := blown (wd (fld o.val 0 32)) } }
    | .svcExit => { s with sec := { sec with exits := blown (wd (fld o.val 0 32)) } }
    | .lifeCycle => { s with sec := { sec with life := lifeOf o.val } }
    | _ => s
  let s := match keySlot o.cls with
    | some i => { s with sec := { s.sec with badKeys := if o.marginal then sIns s.sec.badKeys i else sDel s.sec.badKeys i } }
    | none => s
  { s with cruise := { s.cruise with fused := (s.cruise.fused.filter fun p => p.cls != o.cls) ++ [o] } }

/-- The number of a word among those of `burnt`. -/
def burntKey (c : FuseClass) : Option Nat :=
  match c with
  | .lifeCycle => some 0
  | .svcEntry => some 1
  | .svcExit => some 2
  | .svn => some 3
  | .revoke => some 4
  | _ => none

/-- R400: a word with the bits that are known to be blown. Of the life-cycle and SERVICE words nothing else can be: their bits are blown by the
transitions of Table 15.2 alone, and what a marginal word leaves undecided is taken as R402 has it. The one transition that no command makes is
BLANK to PROVISIONED, which the word of a blank part shows (log entry 126, DESIGN CHOICE). -/
def withBurnt (s : State) (o : FuseOut) : FuseOut :=
  let known := match burntKey o.cls with | some k => tget 0 s.sec.burnt k | none => 0
  match o.cls with
  | .lifeCycle => { o with val := known ||| if o.marginal then o.val else if known == 0 then wd (fld o.val 0 1) else 0 }
  | .svcEntry | .svcExit => { o with val := known ||| if o.marginal then o.val else 0 }
  | _ => { o with val := o.val ||| known }

/-- The bits that a word which is not marginal shows to be blown. -/
def noteBurnt (s : State) (o : FuseOut) : State :=
  match burntKey o.cls with
  | some k => if o.marginal then s else { s with sec := burn s.sec k o.val.toNat }
  | none => s

/-- R401, R402: the state latched from the counts; DEPLOYED in place of SERVICE where a life-cycle word is marginal. -/
def latchLife (s : State) : State :=
  let bad := s.cruise.fused.any fun p => p.marginal && marginBit p.cls == 6
  let serving := decide (s.sec.exits < s.sec.entries)
  let life := match s.sec.life with
    | .deployed => if serving && !bad then .service else .deployed
    | .service => if serving && !bad then .service else .deployed
    | l => l
  let s := { s with sec := { s.sec with life := life, marginal := bad } }
  if bad then secSignal s else s

/-- The report of a Cruise finding (Table 17.5 class 12; log entry 29). -/
def cruiseReport (s : State) (d0 : Word) : State := raise s { rpt 12 sINTERNAL 1 4 0 with d0 := d0 }

/-- R431: words that this cold Cruise takes differently from the one before. -/
def fuseDiffs (old : List FuseOut) (new : List FuseOut) : List FuseClass :=
  (new.filter fun o => old.any fun p => p.cls == o.cls && p != o).map FuseOut.cls

/-- A column or lane of a site failed: a spare of the site carries it; a site without one has failed itself (R16, R18). -/
def failIn (most : Nat) (get : Site → List Nat) (put : Site → List Nat → Site) (lane : Nat) (t : Site) : Site :=
  if t.blazed || (get t).contains lane then t
  else if most ≤ (get t).length then { t with blazed := true }
  else put t (get t ++ [lane])

/-- A row failed: it lies in a spare of its bank, or stays in service where there is none (R228, R229). -/
def failRow (b r : Nat) (sl : Slice) : Slice :=
  if bankSpares sl b < 8 then
    { sl with spares := tput 0 sl.spares b (bankSpares sl b + 1), rowMoved := tput 0 sl.rowMoved (512 * b + r) (bankSpares sl b + 1) }
  else { sl with noSpare := true }

/-- One unit that the repair map names as failed. -/
def failPart (w : RepairWord) (s : State) (n : Nat) : State :=
  match w with
  | .sites dg => if n < 18 then modSite s dg n fun t => { t with blazed := true } else s
  | .cols dg i => if n < 33 then modSite s dg i.toNat (failIn 1 Site.cols (fun t l => { t with cols := l }) n) else s
  | .lanes dg i hi =>
    let lane := if hi then 64 + n else n
    if lane < 66 then modSite s dg i.toNat (failIn 2 Site.lanes (fun t l => { t with lanes := l }) lane) else s
  | .rows l b p => modCore s l fun k => modSp k (failRow b.toNat (64 * p.toNat + n))

/-- Step 1 of a cold Cruise. -/
def latchFuses (s : State) (i : CruiseIn) : State :=
  let outs := i.fuses.map fun r => withBurnt s (applyFuse r)
  let old := s.cruise.fused
  let s := latchLife (outs.foldl (fun s o => noteBurnt (latchFuse s o) o) s)
  let s := (outs.filter FuseOut.marginal).foldl (fun s o =>
    let r := if marginBit o.cls = 6 then rpt 13 sINTERNAL 1 5 0 else rpt 12 sINTERNAL 1 5 0
    raise s { r with d0 := wd (marginBit o.cls) }) s
  let s := { s with
    pins := { s.pins with smbAddr := BitVec.ofNat 7 (0x48 + i.straps.toNat) }
    cruise := { s.cruise with
      margins := BitVec.ofNat 8 (maskOf 8 fun b => s.cruise.fused.any fun p => p.marginal && marginBit p.cls == b)
      differs := fuseDiffs old outs } }
  let s := (below 256).foldl (fun s d => modGrove s (BitVec.ofNat 8 d) fun g => { g with fused := sHas s.cruise.fgroves d }) s
  let s := (below 16).foldl (fun s k => modPort s k fun p => if bit s.cruise.fports k then { p with st := 0 } else p) s
  s.cruise.fused.foldl (fun s o => match o.cls with
    | .repair w => ((below 64).filter (bit o.val)).foldl (failPart w) s
    | _ => s) s

/-! ### Boot (R409, Table 15.7) -/

/-- Measurements and versions of the slot that boots. -/
def bootSlot (s : State) (b : Bool) : State :=
  let v := fwSlot s b
  newNonce { s with sec := { s.sec with
    run := b, recovery := false, svnRun := hdrNum v.lookout 6 2, meas2 := imageDigest 1 v.warden, meas3 := imageDigest 2 v.lookout
    meas4 := imageServices v.lookout } }

/-- Step 2: the slot of the boot record, else the other one, else recovery. -/
def boot (s : State) : State :=
  let mark := fun (s : State) (b : Bool) => let v := fwSlot s b; putSlot s b { v with valid := slotBootable s v }
  let s := mark (mark s false) true
  let keyless := sHas s.sec.badKeys 5 || sHas s.sec.badKeys 6
  let first := s.sec.next
  if !keyless && (fwSlot s first).valid then bootSlot s first
  else if !keyless && (fwSlot s (!first)).valid then bootSlot s (!first)
  else newNonce { s with sec := { s.sec with recovery := true } }

/-! ### Training and power (R428, R432, R433) -/

/-- A stack's interface trained, or marked failed (R428, R464). -/
def trainStack (s : State) (t : Nat) (ok : Bool) : State :=
  let s := modStack s (BitVec.ofNat 2 t) fun k => { k with trained := ok, selfRef := false }
  if ok then s
  else raise { s with cruise := { s.cruise with hbmFail := putBit s.cruise.hbmFail t true } } (rpt 12 sINTERNAL 3 1 (hbmPsid (BitVec.ofNat 2 t) 0x3F 0))

/-- A port trained: UP, both ends having sent their IDENT, or DOWN after its third failed attempt, which is reported and counted (R424, R328). -/
def trainPort (s : State) (k : Nat) (t : PortTrain) : State :=
  if portGone s k then s
  else if t.up then
    portSignal (modPort s k fun p => sendCtl
      { p with st := 3, known := true, peerOk := t.didValid, peerDid := t.did, peerPort := t.peerPort, progress := now s } (ctlData s k .ident)) k
  else
    let s := portSignal (modPort s k fun p => { p with st := 1, cause := sINTERNAL }) k
    raiseEv s (portRpt 4 sINTERNAL 1 k 0x1F) (.gfPort (BitVec.ofNat 4 k))

/-- Step 3, once REFCLK runs: HBM and ports. An interface or port of which nothing is given has failed to train. -/
def landingUp (s : State) (i : CruiseIn) : State :=
  let s := (below 4).foldl (fun s t => trainStack s t (i.hbmOk.getD t false)) s
  (below 16).foldl (fun s k => trainPort s k (i.ports.getD k ⟨false, 0, false, 0⟩)) s

/-- A step that may blaze units: those newly on the blaze list are counted and named in the report with the step and the test: 1 a known-answer
kernel, 2 Sounding, 3 the supply current, 4 the delay lines, 5 the image write (R435, R443). -/
def blazing (step test : Nat) (f : State → State) (s : State) : State :=
  let old := s.cruise.blazed
  let t := f s
  let new := t.cruise.blazed.filter fun p => !old.contains p
  { t with cruise := { t.cruise with
      unit := t.cruise.unit ++ new.map fun p => (p, step, test), nblazed := BitVec.ofNat 16 (satAdd 16 t.cruise.nblazed.toNat new.length) } }

/-- R55, R56: the highest voltage that Cruise may give a region: 0.85 V, and no more than 80 mV above the V_RP of a neighbour. -/
def highestV (s : State) (r : Nat) : Nat := (neighbours r).foldl (fun m n => min m (vrpStep s (n / 16) + 80)) 250

/-- Step 4 for a region: its lines are calibrated at V_RP (R54), or at the lowest permitted voltage above it that gives a trim of 63 or less. Where
none does, the groves of the region are blazed (R55; log entry 130, DESIGN CHOICE). -/
def powerRegion (s : State) (r : Nat) (steps : List Nat) : State :=
  let v := vrpStep s (r / 16)
  let reg := getRegion s r
  let fit := steps.zipIdx.find? fun p => decide (guarded p.1 ≤ 63) && (p.2 == 0 || decide (v + 5 * p.2 ≤ highestV s r))
  let (step, u) := match fit with | some p => (p.1, v + 5 * p.2) | none => (steps.headD 0, v)
  let reg := calibrate s { reg with vnow := u, calV := u } step (signed 16 reg.temp.toNat)
  let s := { s with pace := { s.pace with regions := tput Region.zero s.pace.regions r reg } }
  if fit.isNone && !steps.isEmpty then (regionGroves r).foldl blazeGrove s else s

/-- R540: a Stand's rail in mV: 50 mV above the highest voltage of its regions. -/
def railFor (s : State) (i : Nat) : Nat := 650 + (below 16).foldl (fun m j => max m (getRegion s (16 * i + j)).vnow) 0

/-- The rails set; a Stand whose AVSBus does not answer keeps its own (R541). -/
def setRails (s : State) (f : Nat → Nat) : State :=
  { s with pace := { s.pace with rails := (below 4).foldl (fun t i =>
      if sHas s.pace.avsBad i then t else tput 800 t i (f i)) s.pace.rails } }

/-- Step 4 (R432, R433): the delay lines of every region, then the groves whose supply current is outside its window. -/
def powerUp (s : State) (i : CruiseIn) : State :=
  let s := blazing 4 4 (fun s => (below 64).foldl (fun s r => powerRegion s r (i.trims.getD r [])) s) s
  let s := blazing 4 3 (fun s => i.supplyBad.foldl blazeGrove s) s
  setRails s (railFor s)

/-! ### The initial test (R434, R435) -/

/-- One failure of the initial test, of Sounding in PROVISIONED and SERVICE and of a known-answer kernel elsewhere (R434): reported, and acted on if
it is permanent. A slice is named by its position in the lane
field of the whole grove. -/
def testFail (s : State) (f : TestFail) : State :=
  let dg := psidDg f.psid
  let n := psidSite f.psid
  let lane := psidLane f.psid
  let engine := fld f.psid 8 3
  if f.sounding != soundingOk s.sec.life || ((getGrove s dg).fused && n != 24) then s
  else
  let s := raise s { rpt 8 (if f.sounding then sSOUND else sKAK) (if f.sounding || f.again then 2 else 1) 0 f.psid with part := partOf s dg }
  if !f.sounding && !f.again then s
  else if n < 18 ∧ engine = 1 ∧ lane ≤ 32 then substColumn s f.psid
  else if n < 18 ∧ engine = 2 ∧ lane ≤ 65 then substLane s f.psid
  else if n < 18 then spendSite s dg n
  else if n = 31 ∧ lane < 16 then markLostSlice s dg lane
  else blazeRouter s dg n

/-- Step 5: units on the blaze list are not tested; every slice reads zero afterwards. -/
def initialTest (s : State) (i : CruiseIn) : State :=
  let s := (i.fails.filter fun f => !s.cruise.blazed.contains (unitOf f.psid) && !s.cruise.blazed.contains f.psid).foldl testFail s
  let s := i.reducerBad.foldl badReducer s
  { s with cores := tmap Core.zero (fun k => { k with sp := warmSlice k.sp }) s.cores }

/-! ### Numbering (R437, R22, R508) and the resident image (R438) -/

/-- Sites taken in pairs; one left over is a spare. -/
def pairUp : List Nat → List (Nat × Nat)
  | a :: b :: r => (a, b) :: pairUp r
  | _ => []

/-- The numbering of a grove: working sites, or pairs of them in a twin grove, take the positions whose slices work. -/
def numberGrove (s : State) (dg : Dg) : State :=
  let twin := sHas s.check.twinNow dg.toNat
  modGrove s dg fun g =>
    if g.fused || g.routerBad then { g with siteOf := [], twinOf := [], gen := 1 }
    else
      let sites := siteNos.filter fun n => !(tget Site.zero g.sites n).blazed
      let seats := (below (if twin then 8 else 16)).filter fun n => !sHas g.lost n
      let rows := if twin then (pairUp sites).zip seats else (sites.map fun n => (n, 0)).zip seats
      { g with gen := 1
               siteOf := rows.foldl (fun t r => tput 0 t r.2 (r.1.1 + 1)) []
               twinOf := if twin then rows.foldl (fun t r => tput 0 t r.2 (r.1.2 + 1)) [] else [] }

/-- Step 6. -/
def numberAll (s : State) : State :=
  let s := { s with check := { s.check with twinNow := s.check.twinNext } }
  rebuildDetours ((below 256).foldl (fun s d => numberGrove s (BitVec.ofNat 8 d)) s)

/-- The resident image of every occupied position of a grove. -/
def imageGrove (s : State) (dg : Dg) : State :=
  ((below 16).map (lcidOf dg)).foldl (fun s l => if occupied s l then writeResident s l else s) s

/-- A position whose image write is not acknowledged: its site is blazed, and its grove numbered again (R438). -/
def imageLost (s : State) (l : Lcid) : State :=
  if !occupied s l then s
  else
    let dg := dgOf l
    let n := siteNo s l
    let s := modGrove s dg fun g => { g with siteOf := [], twinOf := [] }
    numberGrove (spendSite s dg n) dg

/-- Step 7. -/
def imageAll (s : State) (i : CruiseIn) : State :=
  (below 256).foldl (fun s d => imageGrove s (BitVec.ofNat 8 d)) (i.imageFail.foldl imageLost s)

/-! ### READY (R439 to R443) -/

/-- R440: the fused groves of a 4 × 4 quadrant of a Stand. -/
def fusedIn (s : State) (i q : Nat) : Nat :=
  (below 64).countP fun g => 2 * (g / 32) + g % 8 / 4 == q && (getGrove s (BitVec.ofNat 8 (64 * i + g))).fused

/-- R440: the fuses as applied are those of the grade. -/
def gradeFits (s : State) : Bool :=
  let none := (below 256).all fun d => !(getGrove s (BitVec.ofNat 8 d)).fused
  match s.part.grade with
  | .f => none && s.cruise.fports == 0
  | .h => ((below 4).all fun i => (below 4).all fun q => fusedIn s i q == 2) && s.cruise.fports == 0
  | .p => none && s.cruise.fports == 0xF000

/-- The code of a fuse word's class and index in the Cruise report. -/
def fuseCode (c : FuseClass) : Nat :=
  match c with
  | .groves i => i.toNat
  | .ports => 0x100
  | .repair (.sites dg) => 0x200 + dg.toNat
  | .repair (.cols dg i) => 0x10000 + 32 * dg.toNat + i.toNat
  | .repair (.lanes dg i hi) => 0x20000 + 64 * dg.toNat + 2 * i.toNat + bitAt hi 0
  | .repair (.rows l b p) => 0x100000 + 256 * l.toNat + 8 * b.toNat + p.toNat
  | .vrp i => 0x300 + i.toNat
  | .revoke => 0x400
  | .svn => 0x500
  | .svcEntry => 0x600
  | .svcExit => 0x601
  | .lifeCycle => 0x602
  | .secret => 0x700
  | .imageKey => 0x701
  | .signerHash i => 0x710 + i.toNat
  | .ownerHash => 0x720

/-- The site map of a grove in PSID form (R24): the PSID of the site that serves each position, all ones where none does. -/
def siteMapWords (s : State) (dg : Dg) : List Word :=
  let one := fun n => if occupied s (lcidOf dg n) then (corePsid s (lcidOf dg n) 7).toNat else 0xFFFFFF
  (below 8).map fun i => wd (one (2 * i + 1) * 2 ^ 32 + one (2 * i))

/-- The Cruise report (R443): its kind, the cause of the last cold reset and the lengths of the lists; failed HBM interfaces and the
internal check; the ports' outcomes as in DEV_TOPO; the duration of each step; the marginal fuse words; the blazed units with their steps and tests;
the site maps. -/
def cruiseWords (s : State) : List Word :=
  let c := s.cruise
  let marg := c.fused.filter FuseOut.marginal
  [wd (bitAt c.warm 0 + c.cause * 2 ^ 8 + marg.length * 2 ^ 16 + c.unit.length * 2 ^ 32),
   wd (c.hbmFail.toNat + bitAt c.badGrade 8 + bitAt c.prevTrip 9 + c.duration.toNat * 2 ^ 16 + c.differs.length * 2 ^ 32), devTopo s] ++
  (below 9).map (fun i => wd (c.stepMs.getD i 0)) ++
  marg.map (fun o => wd (fuseCode o.cls)) ++ c.differs.map (fun d => wd (fuseCode d)) ++
  c.unit.map (fun p => wd (p.2.2 * 2 ^ 40 + p.2.1 * 2 ^ 32 + p.1.toNat)) ++
  (below 256).flatMap fun d => siteMapWords s (BitVec.ofNat 8 d)

/-- R443: the Cruise report published: kept for STATUS until the next Cruise, and sent on the management Ethernet. -/
def publish (s : State) : State :=
  let ws := cruiseWords s
  { s with cruise := { s.cruise with report := ws }, host := { s.host with eth := s.host.eth ++ [ws] } }

/-- Step 9 (R442). -/
def enterReady (s : State) (i : ReadyIn) : State :=
  let c := s.cruise
  let s := { s with cruise := { c with
    phase := 9, ready := true, wasReady := true, running := false, duration := BitVec.ofNat 14 (min i.durationMs 16383)
    stepMs := c.stepMs.take 7 ++ List.replicate (7 - c.stepMs.length) 0 ++ i.stepMs } }
  let s := (below 4096).foldl (fun s l => modCore s (BitVec.ofNat 12 l) fun k => { k with eng := { k.eng with fallback := false } }) s
  publish ((below 16).foldl pump s)

/-- Steps 8 and 9: the internal check, the assignment and the topology check, READY. Without an assignment the device has no DID
(R439). -/
def finishCruise (s : State) (i : ReadyIn) : State :=
  let s := if gradeFits s then s else cruiseReport { s with cruise := { s.cruise with badGrade := true } } 0
  let s := match s.errs.assign with
    | some a => checkTopo { s with did := wd (2 ^ 63 + a.did.toNat) }
    | none => { s with did := 0, cruise := { s.cruise with pendDid := true } }
  enterReady s i

/-- Steps 4 to 8; an assignment that is already in force lets step 8 end at once. -/
def cruiseFrom4 (s : State) (i : CruiseIn) : State :=
  let s := blazing 5 (if soundingOk s.sec.life then 2 else 1) (fun s => initialTest s i) (powerUp s i)
  let s := blazing 7 5 (fun s => imageAll s i) (numberAll s)
  let s := { s with cruise := { s.cruise with phase := 8, stepMs := i.stepMs } }
  if s.errs.assign.isSome then finishCruise s ⟨i.durationMs, i.stepMs.drop 7⟩ else s

/-- Step 3 on: it halts without REFCLK (R422). -/
def cruiseFrom3 (s : State) (i : CruiseIn) : State :=
  if i.refclk && s.pins.refclk then cruiseFrom4 (landingUp { s with cruise := { s.cruise with phase := 3, noClock := false } } i) i
  else cruiseReport { s with cruise := { s.cruise with phase := 3, noClock := true }, pins := { s.pins with refclk := false } } 1

/-- Step 1 on: a cold Cruise latches the fuses and boots; a warm one keeps both (R431), unless the Warden is in recovery, and first
completes a pending sanitising sequence (R406). It waits for MCLK25 (R545). -/
def cruise (s : State) (cold : Bool) (i : CruiseIn) : State :=
  let s := { s with
    cruise := { s.cruise with phase := 1, running := true, warm := !cold, startTick := now s, unit := [], report := [], nblazed := 0 }
    pins := { s.pins with ioOut := false } }
  if !s.pins.mclk then s
  else
    let s := if cold then drawFwKey (latchFuses s i) else s
    let s := { s with cruise := { s.cruise with phase := 2, cold := false } }
    let s := if cold || s.sec.recovery then boot s else s
    if s.sec.recovery then s
    else
      let s := match s.sec.pending with
        | some c => sanTail s c.toNat
        | none => s
      cruiseFrom3 s i

/-- A Cruise that waits for MCLK25, or is halted for REFCLK, goes on. -/
def resumeCruise (s : State) (i : CruiseIn) : State :=
  if s.cruise.running && s.cruise.phase == 1 then cruise s (!s.cruise.warm) i
  else if s.cruise.running && s.cruise.noClock then cruiseFrom3 s { i with refclk := true }
  else s

end Sys2Proof.Machine
end

