-- ==== Sys2Proof/Machine/Pins.lean ====
section
/-! DEFINITION. Pins, rails and clocks, and the resets and Cruises that they start; the levels of the outputs
(21_signals_and_electrical.md R536 to R545, R552; 16_bringup.md R421, R422, R439; 02_pace.md R53; 18_hangs_rings_resets.md R492). -/

namespace Sys2Proof.Machine

/-! ### Outputs (R423, R536 to R538, R552) -/

/-- The level of an output ball: driven high, driven low, or floating. -/
inductive Level where
  | high | low | floats
deriving DecidableEq, Repr

/-- R536: every output floats. -/
def outputsFloat (s : State) : Bool := !s.pins.pwrOk || s.pins.rstLow || s.pins.ioOut

/-- An open-drain output: low while asserted. -/
def openDrain (s : State) (b : Bool) : Level := if outputsFloat s || !b then .floats else .low

/-- READY (R423, R442, R446). -/
def readyPin (s : State) : Level := if outputsFloat s || !s.cruise.ready then .floats else .high

/-- FAULT_N, ALERT_N, THERM_N and WAKE_N (Table 21.2). -/
def faultNPin (s : State) : Level := openDrain s (faultPin s)
def alertNPin (s : State) : Level := openDrain s (alertN s)
def thermNPin (s : State) : Level := openDrain s (thermN s)
def wakeNPin (s : State) : Level := openDrain s (s.pins.wake && s.cruise.ready)

/-- An output of the management interfaces (SMBus, management Ethernet, AVSBus, JTAG) that its function would drive at a level (Tables 21.5 and
21.6). -/
def mgmtOutput (s : State) (v : Level) : Level := if outputsFloat s then .floats else v

/-- R423, R536, R537: the PCIe transmit lanes are driven: from READY on, while PERST_N is high. -/
def pcieLanesDriven (s : State) : Bool := !outputsFloat s && s.cruise.ready && s.pins.perstN

/-- R552: the lasers of a port are lit. -/
def laserOn (s : State) (k : Nat) : Bool := !outputsFloat s && !portGone s k && s.dorm.st != .dormant

/-- Table 15.1: the private JTAG instructions work. -/
def jtagAll (s : State) : Bool := jtagOpen s.sec.life

/-! ### Resets -/

/-- The device runs or could: powered, and not off after a thermal trip. -/
def alive (s : State) : Bool := s.pins.pwrOk && !s.pace.tripped

/-- A Cruise starts, cold when the rails have been lost since the last one (R421). -/
def startCruise (s : State) (i : CruiseIn) : State := if alive s && !s.pins.rstLow then cruise s s.cruise.cold i else s

/-- PWR_OK_RISE (R421): while DEV_RST_N is low, Cruise waits for it (R537). -/
def doPwrOkRise (i : CruiseIn) (s : State) : State :=
  if s.pins.pwrOk then s else startCruise { s with pins := { s.pins with pwrOk := true, upTick := now s } } i

/-- PWR_OK_FALL (R492, R537): a device cold reset; a trip is over, and its cause is held for the next Cruise report (R53). -/
def doPwrOkFall (s : State) : State :=
  if !s.pins.pwrOk then s
  else
    let cause := if s.pins.trip then 3 else if s.cruise.cold && s.cruise.cause != 0 && s.cruise.phase == 0 then s.cruise.cause else 1
    let t := coldReset s cause
    { t with pins := { t.pins with pwrOk := false, trip := false } }

/-- DEV_RST_N_FALL (R492, R537): a low of less than 10 µs has no effect. -/
def doDevRstNFall (heldUs : Nat) (s : State) : State :=
  if s.pins.rstLow || heldUs < 10 then s
  else
    let s := { s with pins := { s.pins with rstLow := true } }
    if alive s then warmReset s else s

/-- DEV_RST_N_RISE (R421). -/
def doDevRstNRise (i : CruiseIn) (s : State) : State :=
  if s.pins.rstLow then startCruise { s with pins := { s.pins with rstLow := false } } i else s

/-- RAIL_LOSS (R539): a rail lost for 10 µs while PWR_OK is high. A trip is over with it, and its cause is held for the next Cruise report (R53)
unless VDD_AON is lost too. VDD_AON and VDD_IO are back in range when the next Cruise starts, since no row says so before (R536; log entry 132,
DESIGN CHOICE). -/
def doRailLoss (rail : Rail) (lostUs : Nat) (s : State) : State :=
  if !s.pins.pwrOk || lostUs < 10 then s
  else
    let cause := if rail = .vddAon then 4 else if s.pins.trip then 3 else 2
    let t := coldReset s cause
    { t with pins := { t.pins with trip := false, aonLost := t.pins.aonLost || rail == .vddAon, ioOut := rail == .vddAon || rail == .vddIo } }

/-- R53: the compute dies lose their power: what the cores and the mesh held is gone, and the device serves nothing. -/
def switchOff (s : State) : State :=
  { s with
    cores := [], reds := [], landing := [], quiets := []
    groves := tmap Grove.zero warmGrove s.groves
    pace := { s.pace with tripped := true, regions := s.pace.regions.map fun r => (r.1, { r.2 with vnow := 0, pace := 0 }) }
    cruise := { s.cruise with phase := 0, ready := false, running := false, cold := true }
    dorm := { s.dorm with st := .active, saved := [], dueTick := none, held := [], slept := false, portsIdle := false }
    host := { s.host with link := .zero }, pins := { s.pins with trip := true, wake := false } }

/-- THERMAL_TRIP (R53): a sensor reads 110 °C or more. -/
def doThermalTrip (region : BitVec 6) (temp : Int) (s : State) : State :=
  if !alive s || temp < 1760 then s
  else
    let r := getRegion s region.toNat
    switchOff { s with pace := { s.pace with
      regions := tput Region.zero s.pace.regions region.toNat { r with temp := BitVec.ofInt 16 temp } } }

/-- WARDEN_WATCHDOG (R492): a device warm reset while the Lookout's firmware runs. -/
def doWardenWatchdog (i : CruiseIn) (s : State) : State :=
  if alive s && !s.pins.rstLow && decide (3 ≤ s.cruise.phase.toNat) then cruise (warmReset s) false i else s

/-! ### Clocks (R422, R545) -/

/-- The report of a lost clock. -/
def clockReport (s : State) (d : Word) : State := raise s { rpt 6 sINTERNAL 1 6 0 with d0 := d }

/-- REFCLK_LOSS (R545). -/
def doRefclkLoss (s : State) : State :=
  if !s.pins.refclk then s
  else
    let s := { s with pins := { s.pins with refclk := false } }
    if s.cruise.ready then clockReport (pcieReset s) 1 else s

/-- REFCLK_RETURN (R422, R545): a Cruise halted for it goes on. -/
def doRefclkReturn (i : CruiseIn) (s : State) : State :=
  if s.pins.refclk then s else resumeCruise { s with pins := { s.pins with refclk := true } } i

/-- MCLK25_LOSS (R545). -/
def doMclk25Loss (s : State) : State :=
  if !s.pins.mclk then s
  else
    let s := { s with pins := { s.pins with mclk := false } }
    if decide (2 ≤ s.cruise.phase.toNat) then clockReport s 2 else s

/-- MCLK25_START (R545): step 1 of a waiting Cruise proceeds; the oscillator's hold of FAULT_N ends. -/
def doMclk25Start (i : CruiseIn) (s : State) : State :=
  if s.pins.mclk then s
  else
    let s := { s with pins := { s.pins with mclk := true, osc := false } }
    if s.cruise.running && s.cruise.phase == 1 then resumeCruise s i else s

/-- R545: MCLK25 has not run within 10 ms of PWR_OK rising: the always-on oscillator holds FAULT_N. -/
def oscHold (s : State) : State :=
  if s.pins.pwrOk && !s.pins.mclk && s.cruise.running && s.cruise.phase == 1 && decide (s.pins.upTick + 10001 ≤ now s) then
    { s with pins := { s.pins with osc := true } }
  else s

/-- ASSIGNMENT_DEADLINE (R439): step 8 ends without an assignment. -/
def doAssignmentDeadline (i : ReadyIn) (s : State) : State :=
  if s.cruise.running && s.cruise.phase == 8 && s.errs.assign.isNone then finishCruise s i else s

/-! ### Meanings -/

def execPwrOkRise (i : CruiseIn) (s : State) : Out := .next (doPwrOkRise i s)
def execPwrOkFall (s : State) : Out := .next (doPwrOkFall s)
def execDevRstNFall (heldUs : Nat) (s : State) : Out := .next (doDevRstNFall heldUs s)
def execDevRstNRise (i : CruiseIn) (s : State) : Out := .next (doDevRstNRise i s)
def execRailLoss (rail : Rail) (lostUs : Nat) (s : State) : Out := .next (doRailLoss rail lostUs s)
def execThermalTrip (region : BitVec 6) (temp : Int) (s : State) : Out := .next (doThermalTrip region temp s)
def execWardenWatchdog (i : CruiseIn) (s : State) : Out := .next (doWardenWatchdog i s)
def execRefclkLoss (s : State) : Out := .next (doRefclkLoss s)
def execRefclkReturn (i : CruiseIn) (s : State) : Out := .next (doRefclkReturn i s)
def execMclk25Loss (s : State) : Out := .next (doMclk25Loss s)
def execMclk25Start (i : CruiseIn) (s : State) : Out := .next (doMclk25Start i s)
def execAssignmentDeadline (i : ReadyIn) (s : State) : Out := .next (doAssignmentDeadline i s)

end Sys2Proof.Machine
end

