-- ==== Sys2Proof/Machine/Dormant.lean ====
section
/-! DEFINITION. Dormant: request and refusal, entry, wake sources, wake (16_bringup.md R444 to R449). -/

namespace Sys2Proof.Machine

/-- Every occupied position. -/
def allCores (s : State) : List Lcid := ((below 4096).map (BitVec.ofNat 12)).filter (occupied s)

/-! ### Refusals (Table 16.5) -/

/-- A LOAD, UNLOAD or DORMANT-excluded command of the host is in progress. -/
def loadRuns (s : State) : Bool :=
  (below 17).any fun f => (getFn s f).cmds.any fun c => c.fin.isNone && c.begun && (cmdOpc c.words == 0x20 || cmdOpc c.words == 0x21)

/-- A live-service procedure, a check, a recovery or a grove's sanitising is in progress. -/
def serviceRuns (s : State) : Bool :=
  !s.live.waiting.isEmpty || gapOpen s || !s.live.roll.isEmpty || s.pace.recalBusy || !s.check.hold.isEmpty || !s.check.sounding.isEmpty || s.sec.pending.isSome ||
  s.pgrove.any (fun p => bit p.2 63) || s.errs.tokens.any (fun t => t.done.isNone && !t.left && t.opc == 9) ||
  s.cores.any fun p => p.2.recHold

/-- R444: a context that is not FREE and has no save area, other than those that the Lookout frees first. -/
def unsaved (s : State) : Bool :=
  (allCores s).any fun l =>
    let k := getCore s l
    k.ctxs.any fun p => p.2.st ≠ .free && !(fld k.role 28 16 == 0 && p.2.origin == 2) && !hasRecord k (BitVec.ofNat 9 p.1)

/-- A context still waits on a sync object of another device. -/
def waitsFar (s : State) (l : Lcid) : Bool :=
  (getCore s l).un.syncs.any fun o => o.waits && !o.dead && bit o.name 48 && !(hasDid s && fld o.name 49 15 == (ownDid s).toNat)

/-- Table 16.6 step 2 is complete. -/
def allQuiet (s : State) : Bool := (allCores s).all fun l => quietCore (getCore s l) && !waitsFar s l

/-- The first condition of Table 16.5 that holds whatever the time. -/
def dormFault (s : State) : Option Status :=
  if !s.cruise.ready || loadRuns s || serviceRuns s then some sPERM
  else if unsaved s then some sBOUNDS
  else none

/-! ### Entry (Table 16.6) -/

/-- HOLD_ALL of a core written. -/
def setHoldAll (s : State) (l : Lcid) (on : Bool) : State := modCore s l fun k => setCtrl k (putFld k.ctrl 1 1 (bitAt on 0))

/-- Table 16.6 step 2: HOLD_ALL set in every core, with what it sets noted. -/
def holdAllCores (s : State) : State :=
  (allCores s).foldl (fun s l =>
    if bit (getCore s l).ctrl 1 then s
    else { setHoldAll s l true with dorm := { s.dorm with held := sIns s.dorm.held l.toNat } }) s

/-- Step 2 undone: the HOLD_ALL that it has set cleared, and no other. -/
def undoHolds (s : State) : State :=
  let s' := s.dorm.held.foldl (fun s n => setHoldAll s (BitVec.ofNat 12 n) false) s
  { s' with dorm := { s'.dorm with held := [] } }

/-- Table 16.7 step 4: HOLD_ALL cleared in every core. -/
def releaseAllCores (s : State) : State :=
  let s' := (allCores s).foldl (fun s l => setHoldAll s l false) s
  { s' with dorm := { s'.dorm with held := [] } }

/-- A refusal: recorded, and every step taken undone (R444). -/
def refuseDormant (s : State) (st : Status) : State :=
  let s := undoHolds s
  { s with dorm := { s.dorm with st := .active, refusal := st } }

/-- R444: contexts that run the resident image freed. -/
def freeResident (s : State) : State :=
  (allCores s).foldl (fun s l =>
    let k := getCore s l
    if fld k.role 28 16 = 0 then
      ((k.ctxs.filter fun p => p.2.st ≠ .free && p.2.origin == 2).map fun p => BitVec.ofNat 9 p.1).foldl (fun s c => freeCtx s l c) s
    else s) s

/-- Table 16.6 step 3: the save of a context with its state code, and of the accumulators that it holds, in the layouts of Tables 18.5 and 18.6. It
goes to the copies that hold no latest valid Ring record, with VALID 0, so that a replay takes none of it; word 1 holds the state code and that of HELD_FROM
(log entry 134, DESIGN CHOICE). -/
def saveCtx (k : Core) (c : CtxNo) : Core :=
  let x := getCtx k c
  let acc := heldMask k.eng.accOwner c
  let inval := fun (sl : Slice) (a : Nat) => slPut sl a (leBytes 8 ((slWord sl a).toNat % 2 ^ 63))
  let k := ((below 8).filter acc.testBit).foldl (fun k a =>
    let at' := accRec k a (nextCopy k.sp (accRec k a 0) (accRec k a 1))
    modSp (saveAcc k c 0 a) fun sl => inval sl at') k
  let at' := ctxRec k c (nextCopy k.sp (ctxRec k c 0) (ctxRec k c 1))
  let ws := ctxRecWords k c x 0 (wd (stCode x.heldFrom * 8 + stCode x.st)) x.pc (heldMask k.eng.tdOwner c) acc
  modSp k fun sl => inval (slPutWords sl at' ws) at'

/-- Every context of a core that is not FREE saved. -/
def saveCore (s : State) (l : Lcid) : State :=
  modCore s l fun k => ((k.ctxs.filter fun q => q.2.st ≠ .free).map fun q => BitVec.ofNat 9 q.1).foldl saveCtx k

/-- Table 16.6 steps 3 to 5: every context saved, the ports in low-power idle, the stacks in self-refresh with the requests that their controllers
have not accepted discarded (R360), the logic without power. -/
def sleepNow (s : State) : State :=
  let s := (allCores s).foldl saveCore s
  let saved := s.cores.flatMap fun p => (p.2.ctxs.filter fun q => q.2.st ≠ .free).map fun q => (p.1, q.1, q.2)
  let s := (below 4).foldl (fun s t => modStack s (BitVec.ofNat 2 t) fun k => { k with selfRef := k.trained }) s
  let s := { s with host := { s.host with link := { s.host.link with inL1 := s.host.link.up && s.host.link.cfg.l1 } } }
  let s := { s with landing := (below 4).foldl (fun t e => tput [] t e []) s.landing }
  let s := saved.foldl (fun s p => modCore s (BitVec.ofNat 12 p.1) fun k => { k with ctxs := [] }) s
  let s := setRails s fun _ => 550
  let d := s.dorm
  { s with dorm := { d with
      st := .dormant, saved := saved, slept := true, portsIdle := true, entries := BitVec.ofNat 16 (satAdd 16 d.entries.toNat 1)
      dueTick := if d.timer = 0 then none else some (deadlineAt s (1000 * d.timer.toNat)) } }

/-- Entry goes on: it waits for commands in flight, holds every core, and sleeps once all are quiet. A refusal condition that
arises meanwhile ends it. -/
def dormStep (s : State) : State :=
  if s.dorm.st ≠ .entering then s
  else match dormFault s with
  | some st => refuseDormant s st
  | none =>
    if (below 17).any fun f => !(getFn s f).cmds.isEmpty then s
    else
      let s := holdAllCores s
      if allQuiet s then sleepNow s else s

/-- R444: a request accepted, or refused with its status. -/
def requestDormant (s : State) : State × Status :=
  match dormFault s with
  | some st => (refuseDormant s st, st)
  | none =>
    let s := freeResident s
    (dormStep { s with dorm := { s.dorm with st := .entering, reqTick := now s, held := [], slept := false } }, sOK)

/-! ### The request -/

/-- A write of DEV_DORMANT_CTRL (Table 16.12): WAKE_EN and TIMER take effect, then REQ; a request while entry or wake is running is
rejected (R449). -/
def dormCtrlWrite (w : Wr) (s : State) : State :=
  let v := mergeHalf w.half (dormCtrl s) w.value
  let req := bit (halfBits w.half w.value) 63
  guardWrite s w.writer.toNat 0 0x118 (byPf0 w.writer.toNat) none (!bit v 33) (!req || s.dorm.st == .active) fun s =>
    let s := { s with dorm := { s.dorm with wakeEn := BitVec.ofNat 4 (fld v 32 4), timer := BitVec.ofNat 32 (fld v 0 32) } }
    if req then (requestDormant s).1 else s

/-- The DORMANT command's words: TIMER, then WAKE_EN; bit 1 of WAKE_EN written 0 is a reserved value (log entry 61, DEDUCED). -/
def dormArgsBad (ws : List Word) : Bool :=
  ws.length != 2 || fld (ws.getD 0 0) 32 32 != 0 || fld (ws.getD 1 0) 4 60 != 0 || !bit (ws.getD 1 0) 1

/-- DORMANT (R444): by register, or by command, which is answered when the request is accepted or refused. -/
def doDormant (src : DormantSrc) (s : State) : State :=
  match src with
  | .reg w => if bit (halfBits w.half w.value) 63 then dormCtrlWrite w s else s
  | .cmd m => withToken s m 0x0B (dormArgsBad m.args) fun s =>
    if s.dorm.st ≠ .active then finishToken s m.step sPERM []
    else
      let q := requestDormant { s with dorm := { s.dorm with
        wakeEn := BitVec.ofNat 4 (fld (m.args.getD 1 0) 0 4), timer := BitVec.ofNat 32 (fld (m.args.getD 0 0) 0 32) } }
      finishToken q.1 m.step q.2 []

/-- DORMANT_QUIET_TIMEOUT (Table 16.5): not quiet 100 ms after the request. -/
def doDormantQuietTimeout (s : State) : State :=
  if s.dorm.st = .entering ∧ s.dorm.reqTick + 100001 ≤ now s ∧ allQuiet s = false then refuseDormant s sQTIMEOUT else s

/-- DORMANT_TIMER_EXPIRY (R447). -/
def doDormantTimerExpiry (s : State) : State :=
  match s.dorm.dueTick with
  | some t =>
    if s.dorm.st = .dormant ∧ t ≤ now s then fireWake { s with dorm := { s.dorm with dueTick := none } } 3 else s
  | none => s

/-! ### Wake (R448, R449) -/

/-- The bytes of the save area that hold a context: its records, and those of the accumulators that it holds. -/
def savedAt (k : Core) (c : CtxNo) (a : Nat) : Bool :=
  (decide (ctxRec k c 0 ≤ a) && decide (a < ctxRec k c 0 + 1024)) ||
  (below 8).any fun i => tget none k.eng.accOwner i == some c && decide (accRec k i 0 ≤ a) && decide (a < accRec k i 0 + 17664)

/-- R449: the poisoned address in a context's saved state, from the errors that its reading meets. -/
def savedPoison (s : State) (l : Lcid) (c : CtxNo) (upsets : List (Lcid × Upset)) : Option Nat :=
  ((upsets.filter fun u => u.1 == l && !u.2.correctable && savedAt (getCore s l) c (u.2.at' % 65536 * 32)).head?).map fun u => u.2.at' % 65536 * 32

/-- A saved context restored, FAULTED if its saved state reads poisoned. -/
def wakeCtx (upsets : List (Lcid × Upset)) (s : State) (p : Nat × Nat × Ctx) : State :=
  let l : Lcid := BitVec.ofNat 12 p.1
  let c : CtxNo := BitVec.ofNat 9 p.2.1
  let s := modCtxOf s l c fun _ => p.2.2
  match savedPoison s l c upsets with
  | some a => precise s l c sPOISON 0 (wd a)
  | none => s

/-- R449: an entry that a wake source has interrupted undoes the steps that it has taken. -/
def undoEntry (lastUs : Nat) (s : State) : State :=
  let s := undoHolds s
  { s with dorm := { s.dorm with st := .active, lastUs := BitVec.ofNat 16 (min lastUs 65535) }, pins := { s.pins with wake := false } }

/-- R374, R447: the window accesses that have waited for the stacks to leave self-refresh served, in the order received. -/
def serveWindow (s : State) : State :=
  let q := s.host.winq
  q.foldl (fun s r => windowAccess r s) { s with host := { s.host with winq := [] } }

/-- WAKE_FROM_DORMANT (Table 16.7), also out of an entry that a source has interrupted. -/
def doWakeFromDormant (lastUs : Nat) (upsets : List (Lcid × Upset)) (s : State) : State :=
  if s.dorm.st ≠ .waking then s
  else if !s.dorm.slept then undoEntry lastUs s
  else
    let s := (below 4).foldl (fun s t => modStack s (BitVec.ofNat 2 t) fun k => { k with selfRef := false }) s
    let saved := s.dorm.saved
    let s := { s with host := { s.host with link := { s.host.link with inL1 := false } } }
    let s := { s with dorm := { s.dorm with saved := [], dueTick := none } }
    let s := upsets.foldl (fun s u => if occupied s u.1 then slUpset s u.1 u.2 else s) s
    let s := saved.foldl (wakeCtx upsets) s
    let s := setRails (releaseAllCores s) (railFor s)
    serveWindow { s with
      quiets := s.quiets.map fun q => (q.1, q.2.1, { q.2.2 with quiet := now s })
      dorm := { s.dorm with st := .active, slept := false, portsIdle := false, lastUs := BitVec.ofNat 16 (min lastUs 65535) }
      pins := { s.pins with wake := false } }

/-- WAKE (R447): the management interfaces' wake source. -/
def doMgmtWake (m : Mgmt) (s : State) : State :=
  withToken s m 0x0C (!m.args.isEmpty) fun s => finishToken (fireWake s 1) m.step sOK []

/-! ### Meanings -/

def execDormant (src : DormantSrc) (s : State) : Out := .next (doDormant src s)
def execDormantQuietTimeout (s : State) : Out := .next (doDormantQuietTimeout s)
def execDormantTimerExpiry (s : State) : Out := .next (doDormantTimerExpiry s)
def execWakeFromDormant (lastUs : Nat) (upsets : List (Lcid × Upset)) (s : State) : Out := .next (doWakeFromDormant lastUs upsets s)
def execMgmtWake (m : Mgmt) (s : State) : Out := .next (doMgmtWake m s)

end Sys2Proof.Machine
end

