-- ==== Sys2Proof/Machine/Mgmt.lean ====
section
/-! DEFINITION. The fault-manager commands of Table 17.8, but for CHECK, DORMANT and WAKE, which stand with what they start
(17_faults.md R467 to R471, 16_bringup.md R439, R443, 18_hangs_rings_resets.md R495, 12_gwynfold_links.md R343). The spec names the
arguments; the words that hold them are the model's (log entry 62, DEDUCED), but for CHECK's and RESET's. -/

namespace Sys2Proof.Machine

/-- A word with a bit above the lowest `n`. -/
def above (w : Word) (n : Nat) : Bool := decide (2 ^ n ≤ w.toNat)

/-! ### ASSIGN (R439, R441) -/

/-- ASSIGN's words: DID and VALID, then CONNECTED, peer port and peer DID of each port. -/
def assignBad (ws : List Word) : Bool :=
  ws.length != 17 || above (ws.getD 0 0) 16 || (ws.drop 1).any fun w => w != keepFields w [(63, 1), (16, 4), (0, 15)]

/-- The assignment that ASSIGN's words hold; none with VALID 0. -/
def assignOf (ws : List Word) : Option Assign :=
  if bit (ws.getD 0 0) 15 then
    some ⟨BitVec.ofNat 15 (fld (ws.getD 0 0) 0 15), (below 16).foldl (fun t k =>
      let w := ws.getD (k + 1) 0
      if bit w 63 then tput none t k (some (BitVec.ofNat 15 (fld w 0 15), BitVec.ofNat 4 (fld w 16 4))) else t) []⟩
  else none

/-- An assignment in force: it ends step 8 of a Cruise, or after READY sets the DID and runs the check again. DID_PENDING says that the device is
READY without an assignment (Table 16.8), so a later one clears it (log entry 62, DESIGN CHOICE). -/
def applyAssign (s : State) (a : Option Assign) (i : ReadyIn) : State :=
  let s := { s with errs := { s.errs with assign := a }, cruise := { s.cruise with pendDid := s.cruise.ready && a.isNone } }
  match a with
  | none => if s.cruise.ready then loseRoutes { s with did := 0 } else s
  | some x =>
    if s.cruise.running && s.cruise.phase == 8 then finishCruise s i
    else if s.cruise.ready then (below 16).foldl pump (checkTopo { s with did := wd (2 ^ 63 + x.did.toNat) })
    else s

/-- ASSIGN (R439). -/
def doMgmtAssign (m : Mgmt) (i : ReadyIn) (s : State) : State :=
  withToken s m 1 (assignBad m.args) fun s => finishToken (applyAssign s (assignOf m.args) i) m.step sOK []

/-! ### ACK, RETIRE_PORT, RT_WRITE, HOLD, RELEASE -/

/-- ACK (R468, R471). -/
def doMgmtAck (m : Mgmt) (s : State) : State :=
  let w0 := m.args.getD 0 0
  let w1 := m.args.getD 1 0
  withToken s m 2 (m.args.length != 2 || above w0 2 || above w1 32) fun s =>
    let c := getComb s w0.toNat
    let step := headStep c w1.toNat
    if bit s.errs.cfg 32 then finishToken s m.step sPERM []
    else if step ≤ c.tail - c.head then finishToken (advanceHead s w0.toNat (c.head + step)) m.step sOK []
    else finishToken s m.step (if 2 ^ 31 ≤ step then sOK else sBOUNDS) []

/-- RETIRE_PORT (R337): a retired port completes with OK, a fused one with BOUNDS. -/
def doMgmtRetirePort (m : Mgmt) (s : State) : State :=
  let w0 := m.args.getD 0 0
  withToken s m 4 (m.args.length != 1 || above w0 4) fun s =>
    if (getPort s w0.toNat).st = 0 then finishToken s m.step sBOUNDS []
    else finishToken (retirePort s w0.toNat) m.step sOK []

/-- An entry of RT_WRITE with a reserved value: bits that no field takes, or R340's own. -/
def rtWordBad (multicast : Bool) (w : Word) : Bool :=
  if multicast then w != keepFields w [(32, 12), (0, 17)] else w != keepFields w [(32, 15), (0, 32)] || badEntry (BitVec.ofNat 32 (fld w 0 32))

/-- An entry of RT_WRITE that names a fused port. -/
def rtWordFused (s : State) (multicast : Bool) (w : Word) : Bool :=
  namesFused s (if multicast then maskPorts (fld w 0 16) else rtPorts (BitVec.ofNat 32 (fld w 0 32)))

/-- One entry written into the inactive bank. -/
def rtPut (multicast : Bool) (bank : Nat) (g : Gf) (w : Word) : Gf :=
  if multicast then { g with mc := tput 0 g.mc (4096 * bank + fld w 32 12) (BitVec.ofNat 17 (fld w 0 17)) }
  else { g with rt := tput 0 g.rt (32768 * bank + fld w 32 15) (BitVec.ofNat 32 (fld w 0 32)) }

/-- RT_WRITE (Table 12.5 step 1): word 0 holds the bank and the table, the rest the entries with their index above. The active bank answers PERM, an
entry that names a fused port BOUNDS with no GF_WREJ record: R4 gives only the register write's rejection (log entry 62, DESIGN CHOICE). -/
def doMgmtRtWrite (m : Mgmt) (s : State) : State :=
  let w0 := m.args.getD 0 0
  let mc := bit w0 1
  let es := m.args.drop 1
  withToken s m 7 (above w0 2 || es.isEmpty || decide (64 < es.length) || es.any (rtWordBad mc)) fun s =>
    if bit w0 0 == s.gf.active then finishToken s m.step sPERM []
    else if es.any (rtWordFused s mc) then finishToken s m.step sBOUNDS []
    else finishToken { s with gf := es.foldl (rtPut mc (fld w0 0 1)) s.gf } m.step sOK []

/-- A held range that GF_HOLDi cannot hold. -/
def holdBad (w : Word) : Bool := w != holdBits w || !bit w 63 || decide (fld w 32 15 < fld w 0 15)

/-- HOLD (Table 12.5 step 2): the ranges given are those held. -/
def doMgmtHold (m : Mgmt) (s : State) : State :=
  withToken s m 8 (decide (4 < m.args.length) || m.args.any holdBad) fun s =>
    finishToken { s with gf := { s.gf with holds := m.args.zipIdx.foldl (fun t p => tput 0 t p.2 p.1) [] } } m.step sOK []

/-- RELEASE (Table 12.5 step 6). -/
def doMgmtRelease (m : Mgmt) (s : State) : State :=
  withToken s m 0x0A (!m.args.isEmpty) fun s => finishToken { s with gf := { s.gf with holds := [] } } m.step sOK []

/-! ### BLAZE, RESET and SWAP: the commands that may wait (R524, R185, R343) -/

/-- A grove is under recovery or a Sounding (R507), or its logic is without power. -/
def groveBusy (s : State) (dg : Dg) : Bool := asleep s || groveSounds s dg || (below 16).any fun n => (getCore s (lcidOf dg n)).recHold

/-- R524: a live-service procedure runs in a grove: its roll, the commanded recalibration of its region, its sanitising. -/
def groveServed (s : State) (dg : Dg) : Bool :=
  (s.live.rolling && s.live.roll.head? == some dg) || bit (pgroveWord s dg) 63 ||
    (s.pace.recalBusy && s.pace.recalLeft.head?.any fun r => (regionGroves r).contains dg)

/-- BLAZE (R452): it waits while the grove is under recovery or another procedure (R524). -/
def tryBlaze (s : State) (t : Token) : State :=
  let p : BitVec 24 := BitVec.ofNat 24 (fld (t.args.getD 1 0) 0 24)
  if groveBusy s (psidDg p) || groveServed s (psidDg p) then s else finishToken (blazeUnit s p) t.step sOK []

/-- The token of a RESET of a context marked: its freeing has begun. -/
def beginToken (s : State) (step : Word) : State :=
  { s with errs := { s.errs with tokens := s.errs.tokens.map fun t => if t.step == step then { t with begun := true } else t } }

/-- RESET of a context, a core, a grove or a Stand (R495). A context's reset ends once the context is FREE. -/
def tryReset (s : State) (t : Token) : State :=
  let w := t.args.getD 1 0
  match fld (t.args.getD 0 0) 0 3 with
  | 0 =>
    let l : Lcid := BitVec.ofNat 12 (fld w 9 12)
    let c : CtxNo := BitVec.ofNat 9 (fld w 0 9)
    if (t.begun && (ctxOf s l c).freeing) || groveBusy s (dgOf l) then s
    else if (ctxOf s l c).st = .free || (t.begun && !sHas (getCore s l).ring.replaying c.toNat) then finishToken s t.step sOK []
    else
      let s := beginToken (freeCtx s l c) t.step
      if (ctxOf s l c).freeing then s else finishToken s t.step sOK []
  | 1 =>
    let l : Lcid := BitVec.ofNat 12 (fld w 0 12)
    if groveBusy s (dgOf l) then s else finishToken (resetCore s l) t.step sOK []
  | 2 =>
    let dg : Dg := BitVec.ofNat 8 (fld w 0 8)
    if groveBusy s dg then s else finishToken (resetGrove s dg) t.step sOK []
  | _ => if (groves (fld w 0 2)).any (groveBusy s) then s else finishToken (resetStand s (fld w 0 2)) t.step sOK []

/-- SWAP (Table 12.5 steps 4 and 5): ACTIVE is written once DRAIN_COUNT is 0. -/
def trySwap (s : State) (t : Token) : State :=
  let b := bit (t.args.getD 0 0) 0
  if s.gf.active == b then finishToken s t.step sOK []
  else if drainCount s = 0 then finishToken (setActive s b) t.step sOK []
  else s

/-- A command in progress, from where it waits. -/
def tryToken (s : State) (t : Token) : State :=
  if t.done.isSome || t.left then s
  else match t.opc.toNat with
  | 3 => tryBlaze s t
  | 6 => tryReset s t
  | 9 => trySwap s t
  | _ => s

/-- The commands in progress, in the order of their tokens. -/
def pollTokens (s : State) : State := s.errs.tokens.foldl (fun s t => match tokenOf s t.step with | some u => tryToken s u | none => s) s

/-- A command begun. -/
def startToken (s : State) (step : Word) : State := match tokenOf s step with | some t => tryToken s t | none => s

/-- A unit that a BLAZE names on a fused grove, other than its router. -/
def blazeGone (s : State) (p : BitVec 24) : Bool := (getGrove s (psidDg p)).fused && psidSite p != 24

/-- BLAZE: LOCUS 0 and the PSID of a unit that can be blazed (R453). -/
def doMgmtBlaze (m : Mgmt) (s : State) : State :=
  let w1 := m.args.getD 1 0
  let p : BitVec 24 := BitVec.ofNat 24 (fld w1 0 24)
  withToken s m 3 (m.args.length != 2 || m.args.getD 0 0 != 0 || above w1 24 || !canBlaze p || p != unitOf p) fun s =>
    if blazeGone s p then finishToken s m.step sBOUNDS [] else startToken s m.step

/-- R495: a reserved value in RESET's words. -/
def resetBad (ws : List Word) : Bool :=
  let w0 := ws.getD 0 0
  let w1 := ws.getD 1 0
  ws.length != 2 || decide (4 < w0.toNat) ||
    match w0.toNat with
    | 0 => above w1 21
    | 1 => above w1 12
    | 2 => above w1 8
    | 3 => above w1 2
    | _ => w1 != 0

/-- The groves that a RESET names. -/
def resetGroves (dom : Nat) (w : Word) : List Dg :=
  match dom with
  | 0 => [dgOf (BitVec.ofNat 12 (fld w 9 12))]
  | 1 => [dgOf (BitVec.ofNat 12 (fld w 0 12))]
  | 2 => [BitVec.ofNat 8 (fld w 0 8)]
  | 3 => groves (fld w 0 2)
  | _ => []

/-- A grove that is neither fused nor blazed, whether or not a Sounding runs in it. -/
def stands (s : State) (dg : Dg) : Bool := !(getGrove s dg).fused && !(getGrove s dg).routerBad

/-- A position that a site serves, whether or not a Sounding runs in its grove. -/
def standsAt (s : State) (l : Lcid) : Bool := stands s (dgOf l) && tget 0 (getGrove s (dgOf l)).siteOf (posOf l) != 0

/-- R495: a vacant or fused target. -/
def resetGone (s : State) (dom : Nat) (w : Word) : Bool :=
  match dom with
  | 0 => !standsAt s (BitVec.ofNat 12 (fld w 9 12))
  | 1 => !standsAt s (BitVec.ofNat 12 (fld w 0 12))
  | 2 => !stands s (BitVec.ofNat 8 (fld w 0 8))
  | 3 => (groves (fld w 0 2)).all fun d => !stands s d
  | _ => false

/-- R495: a target in a partition whose TDI is locked. -/
def resetLocked (s : State) (dom : Nat) (w : Word) : Bool :=
  (resetGroves dom w).any fun d => match partOf s d with | some n => tdiLocked s n.toNat | none => false

/-- RESET (R495); a device warm reset answers before it restarts the Lookout. -/
def doMgmtReset (m : Mgmt) (i : CruiseIn) (s : State) : State :=
  let dom := fld (m.args.getD 0 0) 0 3
  let w := m.args.getD 1 0
  withToken s m 6 (resetBad m.args) fun s =>
    if resetGone s dom w then finishToken s m.step sVACANT []
    else if resetLocked s dom w then finishToken s m.step sPERM []
    else if dom = 4 then cruise (warmReset (finishToken s m.step sOK [])) false i
    else startToken s m.step

/-- SWAP (R343). -/
def doMgmtSwap (m : Mgmt) (s : State) : State :=
  withToken s m 9 (m.args.length != 1 || above (m.args.getD 0 0) 1) fun s => startToken s m.step

/-! ### STATUS and READ_LOG -/

/-- STATUS (R468). -/
def doMgmtStatus (m : Mgmt) (s : State) : State :=
  withoutToken s m 0x10 (!m.args.isEmpty) fun s => (sOK, [devCruise s, devTopo s] ++ (below 4).map (errStatus s) ++ s.cruise.report)

/-- READ_LOG (R462, R468): the entries that the log or the ring still holds, of those asked for. -/
def doMgmtReadLog (m : Mgmt) (s : State) : State :=
  let w0 := m.args.getD 0 0
  let w1 := m.args.getD 1 0
  let w2 := m.args.getD 2 0
  withoutToken s m 0x11 (m.args.length != 3 || above w0 2 || above w1 32 || decide (64 < w2.toNat)) fun s =>
    let c := getComb s w0.toNat
    let es := (below w2.toNat).filterMap fun i =>
      firstThat (fun (e : LogEnt) => c.head ≤ e.seq && e.seq % 2 ^ 32 == (w1.toNat + i) % 2 ^ 32) (c.spill ++ c.die)
    (sOK, es.flatMap (entryWords64 s))

/-! ### Meanings -/

def execMgmtAssign (m : Mgmt) (i : ReadyIn) (s : State) : Out := .next (doMgmtAssign m i s)
def execMgmtAck (m : Mgmt) (s : State) : Out := .next (doMgmtAck m s)
def execMgmtBlaze (m : Mgmt) (s : State) : Out := .next (doMgmtBlaze m s)
def execMgmtRetirePort (m : Mgmt) (s : State) : Out := .next (doMgmtRetirePort m s)
def execMgmtReset (m : Mgmt) (i : CruiseIn) (s : State) : Out := .next (doMgmtReset m i s)
def execMgmtRtWrite (m : Mgmt) (s : State) : Out := .next (doMgmtRtWrite m s)
def execMgmtHold (m : Mgmt) (s : State) : Out := .next (doMgmtHold m s)
def execMgmtSwap (m : Mgmt) (s : State) : Out := .next (doMgmtSwap m s)
def execMgmtRelease (m : Mgmt) (s : State) : Out := .next (doMgmtRelease m s)
def execMgmtStatus (m : Mgmt) (s : State) : Out := .next (doMgmtStatus m s)
def execMgmtReadLog (m : Mgmt) (s : State) : Out := .next (doMgmtReadLog m s)

end Sys2Proof.Machine
end

