-- ==== Sys2Proof/Machine/Live.lean ====
section
/-! DEFINITION. Live service: firmware handoff and its fallback, the resident-image roll (20_live_service.md R523 to R528). The
gap of a handoff is open from ACTIVATE_FIRMWARE to a tick (log entry 63, DESIGN CHOICE). -/

namespace Sys2Proof.Machine

/-! ### Handoff (R525, R526) -/

/-- R526: a collective exchange with another device is in flight. -/
def exchanging (s : State) : Bool := s.host.colls.any fun c => phaseDone s c && !(peers s c).isEmpty

/-- A recovery other than a checking hold or a site's test. -/
def adopting (s : State) : Bool :=
  s.cores.any fun p => let l : Lcid := BitVec.ofNat 12 p.1; p.2.recHold && !checkHeld s l && !testHeld s l

/-- R526: what refuses an activation with PERM; also a request that is not self-contained, and a slot that step 1 does not pass. -/
def activateRefused (s : State) (a : ActivateIn) : Bool :=
  !a.selfContained || adopting s || !s.check.sounding.isEmpty || s.sec.pending.isSome || dormBusy s || loadRuns s ||
  ((a.fn != s.live.fn || a.reduce != s.live.red) && !(loadedCores s).isEmpty) || !slotBootable s (fwSlot s (!s.sec.run))

/-- R524: another procedure runs on the device: a roll, a recalibration, a grove's move, a change of routing tables. -/
def procedureRuns (s : State) : Bool :=
  !s.live.roll.isEmpty || s.pace.recalBusy || s.pgrove.any (fun p => bit p.2 63) || s.errs.tokens.any fun t => t.done.isNone && !t.left && t.opc == 9

/-- The answer to an ActivateFirmware; with OK it estimates 50 ms (R525). -/
def activateAnswer (s : State) (st : Status) : State :=
  { s with live := { s.live with answers := s.live.answers ++ [(st, if st = sOK then 50 else 0)] } }

/-- The working groves in ascending order. -/
def workingGroves (s : State) : List Dg := ((below 256).map (BitVec.ofNat 8)).filter (groveWorks s)

/-- Table 20.2 step 2: every region no higher than its Stand's V_RP, so far as R55 and R56 let it down. -/
def paceCapped (s : State) : Tbl Region := setVs s (settleVs s fun r => min (getRegion s r).vnow (vrpStep s (r / 16)))

/-- Table 20.1: a handoff rolls the resident image where it changes measurement 4, and where the image that it starts is the one that ran, which is
how the fault manager asks for a roll. -/
def rollsAfter (s : State) (v : FwSlot) : Bool := imageServices v.lookout != s.sec.meas4 || imageDigest 2 v.lookout == s.sec.meas3

/-- Table 20.2 steps 1 to 3: the Lookout image of the other slot starts; the gap is open. -/
def handoff (s : State) (a : ActivateIn) : State :=
  let c := s.sec
  let v := fwSlot s (!c.run)
  let old : Handoff := ⟨now s, c.run, c.svnRun, c.meas3, c.meas4, s.live.fn, s.live.red, s.live.roll, s.live.kset, false⟩
  { s with
    sec := { c with run := !c.run, next := !c.run, svnRun := hdrNum v.lookout 6 2, meas3 := imageDigest 2 v.lookout
                    meas4 := imageServices v.lookout }
    pace := { s.pace with regions := paceCapped s }
    live := { s.live with
      fn := a.fn, red := a.reduce, last := some old, roll := if rollsAfter s v then workingGroves s else s.live.roll
      kset := if rollsAfter s v then c.meas4 else s.live.kset } }

/-- Table 20.2 step 4: the new Lookout resumes, and ActivateFirmware is answered. -/
def endHandoff (s : State) : State := activateAnswer { s with live := { s.live with last := none } } sOK

/-- An activation put among those that wait. -/
def waitActivation (s : State) (a : ActivateIn) (since : Nat) : State :=
  { s with live := { s.live with waiting := s.live.waiting ++ [(a, since)] } }

/-- An activation decided: refused, waiting for a collective exchange (R526) or another procedure (R524), or run. `since` is the tick of its
request. -/
def decideActivation (s : State) (a : ActivateIn) (since : Nat) : State :=
  if activateRefused s a then activateAnswer s sPERM
  else if exchanging s || procedureRuns s then waitActivation s a since
  else handoff s a

/-- ACTIVATE_FIRMWARE (R525): one at a time; a second one waits for the first to end (R524). -/
def doActivateFirmware (a : ActivateIn) (s : State) : State :=
  if s.cruise.phase.toNat < 3 then s
  else if gapOpen s || !s.live.waiting.isEmpty then waitActivation s a (now s)
  else decideActivation s a (now s)

/-- The longest that steps 2 to 4 may take, in µs, which is how long the model's take (log entry 63, DESIGN CHOICE). -/
def gapSpan : Nat := 50000

/-- At a tick: a gap ends, or a waiting activation goes on once nothing that it waits for is in flight. -/
def activationStep (s : State) : State :=
  match s.live.last, s.live.waiting with
  | some h, _ => if !h.down && decide (h.tick + gapSpan ≤ now s) then endHandoff s else s
  | none, (a, t) :: r => if exchanging s || procedureRuns s then s else decideActivation { s with live := { s.live with waiting := r } } a t
  | none, [] => s

/-- ACTIVATION_EXCHANGE_TIMEOUT (R526): 100 ms. -/
def doActivationExchangeTimeout (s : State) : State :=
  match s.live.waiting with
  | (_, t) :: r =>
    if t + 100001 ≤ now s ∧ exchanging s = true then activateAnswer { s with live := { s.live with waiting := r } } sQTIMEOUT else s
  | [] => s

/-- R527: the image before the handoff runs again; the answer that the new one owed is INTERNAL (log entry 63, DEDUCED). -/
def fallBack (s : State) (h : Handoff) : State :=
  activateAnswer { s with
    sec := { s.sec with run := h.slot, next := h.slot, svnRun := h.svn, meas3 := h.m3, meas4 := h.m4 }
    live := { s.live with fn := h.fn, red := h.red, last := none, roll := h.roll, kset := h.kset } } sINTERNAL

/-- HANDOFF_FALLBACK (R527): the new image has not completed step 4 within 40 ms. If the restart of the old image fails too, no Lookout runs until
the Warden's watchdog (R492). -/
def doHandoffFallback (restarted : Bool) (s : State) : State :=
  match s.live.last with
  | some h =>
    if h.down || decide (now s < h.tick + 40000) then s
    else if restarted then raise (fallBack s h) (rpt 4 sINTERNAL 1 4 0)
    else { s with live := { s.live with last := some { h with down := true } } }
  | none => s

/-! ### Partition moves that wait (R524) -/

/-- A release or a join of a grove: while a roll or a recalibration runs there it waits. -/
def doGroveMove (dg : Dg) (w : Wr) (s : State) : State :=
  if (groveServed s dg && !bit (pgroveWord s dg) 63) || s.live.moves.any fun m => m.1 == dg then
    { s with live := { s.live with moves := s.live.moves ++ [(dg, w)] } }
  else partGroveWrite dg w s

/-- At a tick: the moves of groves in which nothing runs any more. -/
def moveStep (s : State) : State :=
  if s.live.moves.isEmpty then s
  else
    let ms := s.live.moves
    ms.foldl (fun s m => doGroveMove m.1 m.2 s) { s with live := { s.live with moves := [] } }

/-! ### Resident-image roll (R528) -/

/-- The positions of a grove that the roll rewrites: occupied, with PROGRAM 0. -/
def rollSeats (s : State) (dg : Dg) : List Lcid :=
  ((below 16).map (lcidOf dg)).filter fun l => occupied s l && fld (getCore s l).role 28 16 == 0

/-- The roll of a grove is deferred: recovery or sanitising (Table 20.1). -/
def rollDeferred (s : State) (dg : Dg) : Bool := groveBusy s dg || bit (pgroveWord s dg) 63

/-- R528 step 2: the contexts that run the resident image freed. -/
def freeSeat (s : State) (l : Lcid) : State :=
  (((getCore s l).ctxs.filter fun p => p.2.st ≠ .free && !p.2.freeing).map fun p => BitVec.ofNat 9 p.1).foldl (fun s c => freeCtx s l c) s

/-- The contexts that run the resident image on a position, which the roll restarts. -/
def serviceCtxs (s : State) (l : Lcid) : List (Lcid × CtxNo) :=
  ((getCore s l).ctxs.filter fun p => p.2.st ≠ .free && !p.2.freeing && p.2.origin == 2).map fun p => (l, BitVec.ofNat 9 p.1)

/-- R528 step 4: a service started again, in the new image. -/
def restartService (s : State) (p : Lcid × CtxNo) : State :=
  let k := getCore s p.1
  if (getCtx k p.2).st = .free && mayStart k then
    setCore s p.1 (startCtx k p.2 (BitVec.ofNat 21 (8 * Config.residentEntry s.sec.meas4 p.2.toNat)) 0 0 0 2 0 .none)
  else s

/-- RESIDENT_IMAGE_ROLL (R528): the next grove in ascending order. Its scheduled sweeps are abandoned and its contexts freed; once it is quiet its
image is written and its services start again. -/
def doResidentImageRoll (dg : Dg) (s : State) : State :=
  if s.live.roll.head? ≠ some dg ∨ rollDeferred s dg = true ∨ gapOpen s = true then s
  else
    let s := (s.check.sweeps.filter fun w => psidDg w.psid == dg).foldl dropSweep s
    let seats := rollSeats s dg
    let freed := s.live.freed ++ seats.flatMap (serviceCtxs s)
    let s := seats.foldl freeSeat { s with live := { s.live with freed := freed, rolling := true } }
    if seats.all fun l => quietCore (getCore s l) && allFree (getCore s l) then
      let s := freed.foldl restartService (seats.foldl writeResident s)
      { s with live := { s.live with roll := s.live.roll.drop 1, freed := [], rolling := false } }
    else s

/-- GROVE_RELEASE (R415, R524, R562). -/
def doGroveRelease (dg : Dg) (w : Wr) (s : State) : State := doGroveMove dg w s

/-- GROVE_JOIN (R524, R562). -/
def doGroveJoin (dg : Dg) (w : Wr) (s : State) : State := doGroveMove dg w s

/-! ### Meanings -/

def execGroveRelease (dg : Dg) (w : Wr) (s : State) : Out := .next (doGroveRelease dg w s)
def execGroveJoin (dg : Dg) (w : Wr) (s : State) : Out := .next (doGroveJoin dg w s)
def execActivateFirmware (a : ActivateIn) (s : State) : Out := .next (doActivateFirmware a s)
def execHandoffFallback (restarted : Bool) (s : State) : Out := .next (doHandoffFallback restarted s)
def execResidentImageRoll (dg : Dg) (s : State) : Out := .next (doResidentImageRoll dg s)
def execActivationExchangeTimeout (s : State) : Out := .next (doActivationExchangeTimeout s)

end Sys2Proof.Machine
end

