-- ==== Sys2Proof/Machine/Pace.lean ====
section
/-! DEFINITION. The pace governor, delay-line recalibration, the time base and the tick (02_pace.md R54 to R66,
20_live_service.md R529, R530, 21_signals_and_electrical.md R540, R541). -/

namespace Sys2Proof.Machine

/-! ### Registers -/

/-- Base of the PACE_ block. -/
def paceBlk : Nat := 0x1000

/-- A write of a PACE_ register: PF0 and the Lookout. -/
def paceWrite (s : State) (w : Wr) (off : Nat) (reserved cond : Bool) (f : State → State) : State :=
  guardWrite s w.writer.toNat paceBlk (paceBlk + off) (byPf0 w.writer.toNat) none reserved cond f

/-- A report about a pace region. -/
def paceRpt (st : Status) (r : Nat) : Rpt := rpt 5 st 1 7 (BitVec.ofNat 24 (r % 64))

/-! ### Regions (R56, R57) -/

/-- A region's temperature in 1/16 °C. -/
def tempOf (s : State) (r : Nat) : Int := signed 16 (getRegion s r).temp.toNat

/-- How far a pair's temperatures lie apart. -/
def tempGap (s : State) (p : Nat × Nat) : Nat := (tempOf s p.1 - tempOf s p.2).natAbs

/-- R57: SKEW of a pair: set above 45 °C, cleared below 40 °C. -/
def skewNow (s : State) (p : Nat × Nat) : Bool :=
  decide (720 < tempGap s p) || (sHas s.pace.skewPairs (64 * p.1 + p.2) && decide (640 ≤ tempGap s p))

/-- Every region changed. -/
def mapRegions (s : State) (f : Nat → Region → Region) : State :=
  { s with pace := { s.pace with regions := (below 64).foldl (fun t r => tput Region.zero t r (f r (getRegion s r))) [] } }

/-- R57: the SKEW bits; the first that sets after all were clear is reported, with status OK, the lower region of the first pair as the suspect
and the other in DETAIL0 (log entry 97, DESIGN CHOICE). -/
def skewStep (s : State) : State :=
  let on := regionPairs.filter (skewNow s)
  let was := !s.pace.skewPairs.isEmpty
  let s := mapRegions s fun r g => { g with skew := on.any fun p => p.1 == r || p.2 == r }
  let s := { s with pace := { s.pace with skewPairs := on.foldl (fun t p => sIns t (64 * p.1 + p.2)) [] } }
  match on.head? with
  | some p =>
    if was then s
    else signalVec (raise { s with pace := { s.pace with skewSeen := true } } { paceRpt sOK p.1 with d0 := wd p.2 }) 0 196
  | none => s

/-! ### The governor (R58 to R61) -/

/-- A region whose sensors are being recalibrated (R530). -/
def sensing (s : State) (r : Nat) : Bool := s.pace.recalBusy && bit s.pace.recal 61 && s.pace.recalLeft.head? == some r

/-- The readings of an interval: a region under sensor recalibration keeps its last one. -/
def takeReadings (s : State) (q : GovReadings) : State :=
  let s := mapRegions s fun r g =>
    let temp := match q.temps[r]? with | some t => if sensing s r then g.temp else BitVec.ofInt 16 t | none => g.temp
    let hot := decide (1600 ≤ signed 16 temp.toNat) || (g.thermal && decide (1520 < signed 16 temp.toNat))
    { g with temp := temp, thermal := hot, pace := match q.paces[r]? with | some v => BitVec.ofNat 12 (min v 4095) | none => g.pace }
  (below 4).foldl (fun s t => match q.hbmTemps[t]? with
    | some v => modStack s (BitVec.ofNat 2 t) fun k => { k with temp := BitVec.ofInt 16 v, hot := decide (1360 < v) }
    | none => s) { s with pace := { s.pace with
      pkgW := BitVec.ofNat 16 (min q.watts 65535), peakW := q.peak, amps := (below 4).foldl (fun t i => tput 0 t i (q.amps.getD i 0)) [] } }

/-- R541: the Stands whose AVSBus does not answer, each reported. -/
def takeAvs (s : State) (q : GovReadings) : State :=
  let bad := (below 4).filter fun i => q.avsOk[i]? == some false
  let s := { s with pace := { s.pace with avsBad := bad } }
  bad.foldl (fun s i => raise s (paceRpt sINTERNAL (16 * i))) s

/-- R60: a region's target in mV above 600. -/
def targetV (s : State) (r : Nat) : Nat :=
  match s.pace.mode.toNat with
  | 0 => vrpStep s (r / 16)
  | 1 => 250
  | _ => (getRegion s r).vset

/-- R58: a bound on short-window power or on the current of a region's rail is passed. -/
def overPeak (s : State) (r : Nat) : Bool :=
  decide (110 * s.pace.limit.toNat < 100 * s.pace.peakW) || decide (220 < tget 0 s.pace.amps (r / 16))

/-- R58, R60: no bound is reached, so that a region may be raised. -/
def mayRise (s : State) (r : Nat) : Bool :=
  decide (100 * s.pace.pkgW.toNat < 95 * s.pace.limit.toNat) && decide (100 * s.pace.peakW < 110 * s.pace.limit.toNat)
    && decide (tget 0 s.pace.amps (r / 16) < 220)

/-- R61: the lowest voltage that steps 1 to 3 ask for: 10 mV down for heat, 5 mV down for power or for a target below, 5 mV up for
one above, unless the region is at CAL_LIMIT and raising has made its trim longer (R55). A bound of R58 that is passed asks for 5 mV less, and
one that is reached holds the region (log entry 95, DESIGN CHOICE). A region whose required trim lies above 63 goes up in search of a voltage that
gives less (R55; log entry 130, DESIGN CHOICE). -/
def askedV (s : State) (r : Nat) : Nat :=
  let g := getRegion s r
  let v := g.vnow
  if 1600 ≤ signed 16 g.temp.toNat then v - 10
  else if 98 * s.pace.limit.toNat < 100 * s.pace.pkgW.toNat ∨ overPeak s r = true then v - 5
  else if g.tooLong ∧ mayRise s r = true ∧ sHas s.pace.avsBad (r / 16) = false ∧ g.longUp = false then min 250 (v + 5)
  else if targetV s r < v then max (targetV s r) (v - 5)
  else if v < targetV s r ∧ g.thermal = false ∧ mayRise s r = true ∧ sHas s.pace.avsBad (r / 16) = false ∧ sensing s r = false ∧
      (calLimit g && g.longUp) = false then
    min (targetV s r) (v + 5)
  else v

/-- R61: the voltages that an interval leaves: step 4 pulls down whatever lies more than 80 mV above a neighbour. -/
def nextVs (s : State) : List Nat := settleVs s (askedV s)

/-- Regions newly held back for heat: each reported (Table 17.5), the vector of Table 14.11 signalled. -/
def throttleReports (s : State) (old : List Nat) : State :=
  let new := (below 64).filter fun r => (getRegion s r).thermal && !old.contains r
  let s := new.foldl (fun s r => raise s (paceRpt sOK r)) s
  if new.isEmpty then s else signalVec s 0 196

/-- The regulators are on: powered, past step 4 of Cruise, awake. -/
def regionsOn (s : State) : Bool := alive s && decide (4 ≤ s.cruise.phase.toNat) && !asleep s

/-! ### Recalibration (R54, R55, R529, R530) -/

/-- R529: the commanded recalibration goes on to the next region. -/
def recalDone (p : Pace) (r : Nat) : Pace :=
  if p.recalLeft.head? = some r then
    let left := p.recalLeft.drop 1
    { p with recalLeft := left, recalBusy := !left.isEmpty }
  else p

/-- R55: no permitted voltage gives a region a trim of 63 or less: CAL_LIMIT lets it go no lower, and it can go no higher, or raising has made the trim
longer (log entry 130, DESIGN CHOICE). -/
def noVoltage (g : Region) : Bool := g.tooLong && (decide (250 ≤ g.vnow) || g.longUp)

/-- R54, R55: a region recalibrated with the smallest step that its shadow line passes with; one for which no permitted voltage is left has a fault. -/
def recalRegion (s : State) (r step : Nat) (temp : Int) : State :=
  let g := getRegion s r
  let h := calibrate s g step temp
  let s := { s with pace := recalDone { s.pace with regions := tput Region.zero s.pace.regions r h } r }
  let s := if calLimit h && !calLimit g then signalVec (raise s (paceRpt sOK r)) 0 196 else s
  if noVoltage h then raiseEv s (paceRpt sINTERNAL r) (.region r) else s

/-- R524: the commanded recalibration of a region waits for a roll, a sanitising or a recovery in one of its groves. -/
def recalWaits (s : State) (r : Nat) : Bool :=
  s.pace.recalBusy && s.pace.recalLeft.head? == some r && (regionGroves r).any fun dg =>
    (s.live.rolling && s.live.roll.head? == some dg) || bit (pgroveWord s dg) 63 || groveBusy s dg

/-- REGION_RECALIBRATION (R54, R529, R530). -/
def doRegionRecalibration (region : BitVec 6) (step : Nat) (temp : Int) (s : State) : State :=
  if regionsOn s && !gapOpen s && !recalWaits s region.toNat then recalRegion s region.toNat step temp else s

/-- R54: the regions that are due recalibrated, with the steps that their shadow lines pass with. -/
def recalStep (s : State) (q : GovReadings) : State :=
  ((below 64).filter fun r => calDue s (getRegion s r)).foldl (fun s r => match q.steps[r]? with
    | some n => recalRegion s r n (tempOf s r)
    | none => s) s

/-- GOVERNOR_INTERVAL (R61, R538, R540, R541), with the recalibrations that have become due (R54). -/
def doGovernorInterval (q : GovReadings) (s : State) : State :=
  if !regionsOn s || gapOpen s then s
  else
    let old := (below 64).filter fun r => (getRegion s r).thermal
    let s := skewStep (takeAvs (takeReadings s q) q)
    let s := throttleReports s old
    let capped := decide (98 * s.pace.limit.toNat < 100 * s.pace.pkgW.toNat)
    let vs := nextVs s
    let s := mapRegions s fun r g => { g with vnow := vs.getD r 0, pwr := capped && decide (vs.getD r 0 < g.vnow) }
    let s := setRails { s with pace := { s.pace with capped := capped } } (railFor s)
    recalStep s q

/-- PACE_RECAL (R529): a write with GO while BUSY is rejected. -/
def doPaceRecal (w : Wr) (s : State) : State :=
  let v := halfBits w.half w.value
  paceWrite s w 0x20 false (!(bit v 63 && s.pace.recalBusy)) fun s =>
    if bit v 63 then
      { s with pace := { s.pace with
          recal := keepFields v [(61, 1), (6, 1), (0, 6)], recalBusy := true
          recalLeft := if bit v 6 then below 64 else [fld v 0 6] } }
    else s

/-! ### The time base (R62 to R65) -/

/-- R62, R63: the correction that slews a measured offset out: against its sign, of a size within 200 ppm that the discipline chooses (log entry 131,
DESIGN CHOICE). -/
def newCorr (s : State) (offset : Int) : State :=
  let q := freshWord s
  { q.1 with pace := { q.1.pace with corr := -(offset.sign * (q.2.toNat % 8589934 + 1 : Nat)) } }

/-- Lock lost, or holdover: the report and the vector. -/
def timeWarning (s : State) : State := signalVec (raise s (rpt 6 sINTERNAL 1 6 0)) 0 197

/-- R63: the source heard with an offset. LOCKED is lost, with the warning of a lock lost, at the first offset beyond ±500 ns, and HOLDOVER
clears once the offset is back within it, that is, slewed out (log entry 96, DESIGN CHOICE). -/
def hearSource (s : State) (offset : Int) : State :=
  let p := s.pace
  let good := decide (offset.natAbs ≤ 500)
  let s := newCorr { s with pace := { p with
    offset := offset, heard := now s, holdover := p.holdover && !good, locked := p.locked && good
    goodFrom := if good then some (p.goodFrom.getD (now s)) else none } } offset
  if p.locked && !good then timeWarning s else s

/-- R62, R65: the time base runs from step 3 of a cold Cruise on, and through warm resets. It counts on through a loss of REFCLK, also while a cold
Cruise is halted in step 3 for it, where there is no reference cycle (log entry 133, DESIGN CHOICE). -/
def timeRuns (s : State) : Bool :=
  let c := s.cruise
  alive s && (decide (3 ≤ c.phase.toNat) || c.warm || (c.phase == 0 && !c.cold))

/-- PPS_EDGE (R63). -/
def doPpsEdge (offset : Int) (s : State) : State := if timeRuns s && s.pace.src == 1 then hearSource s offset else s

/-- PTP_SYNC (R63, R64). -/
def doPtpSync (domain : Nat) (offset : Int) (s : State) : State :=
  if timeRuns s && s.pace.src == 2 && decide (domain ≤ 127) then hearSource s offset else s

/-- How long the source may stay silent, in µs (R63). -/
def silence (src : BitVec 2) : Nat := if src = 1 then 1500000 else 3000000

/-- HOLDOVER (R63). -/
def doHoldover (s : State) : State :=
  let p := s.pace
  if timeRuns s && (p.src == 1 || p.src == 2) && !p.holdover && decide (p.heard + silence p.src + 1 ≤ now s) then
    timeWarning { s with pace := { p with holdover := true, locked := false, goodFrom := none } }
  else s

/-- PACE_TIME_SET (R62): before the first READY after a cold reset. -/
def doPaceTimeSet (w : Wr) (s : State) : State :=
  paceWrite s w 0x318 false (!s.cruise.wasReady) fun s => { s with pace := { s.pace with ns := mergeHalf w.half s.pace.ns w.value } }

/-- R63: LOCKED sets after 4 s within ±500 ns. -/
def lockStep (p : Pace) : Pace :=
  match p.goodFrom with
  | some t => if t + 4000001 ≤ p.ticks then { p with locked := true } else p
  | none => p

/-- R62: what a reference cycle adds, in 2^-32 ns: 10 ns and the correction, which is limited to ±200 ppm. -/
def cycleStep (corr : Int) : Nat := (42949672960 + max (-8589934) (min 8589934 corr)).toNat

/-- The counter with its fraction, in 2^-32 ns. -/
def fullCount (p : Pace) : Nat := p.ns.toNat * 2 ^ 32 + p.frac

/-- R62, R65: the counter at the first reference cycle that reaches the next multiple of 1,000 ns. -/
def nextCount (p : Pace) : Nat :=
  let step := cycleStep p.corr
  let goal := (p.ns.toNat / 1000 + 1) * 1000 * 2 ^ 32
  fullCount p + (goal - fullCount p + step - 1) / step * step

/-- The time base moved on to its next tick. -/
def countOn (p : Pace) : Pace := { p with ns := wd (nextCount p / 2 ^ 32), frac := nextCount p % 2 ^ 32 }

/-- What goes on at a tick: shapers refill, drained ports are isolated, quiet waits are watched, waiting procedures look again. -/
def tickWork (s : State) : State :=
  let s := { s with pace := lockStep (countOn s.pace) }
  let s := awake (fun s => trackQuiets (loseHost (isolateDry (tickPorts (tickShapers (tickColls s)))))) s
  activationStep (if gapOpen s then s else moveStep (pollTokens (dormStep (sweepStep (soundStep (sanStep s))))))

/-- TIME_TICK (R65). The model's own clock counts on while the time base stands. -/
def doTimeTick (s : State) : State :=
  let s := oscHold { s with pace := { s.pace with ticks := s.pace.ticks + 1 } }
  if timeRuns s then tickWork s else s

/-! ### Meanings -/

def execTimeTick (s : State) : Out := .next (doTimeTick s)
def execPpsEdge (offset : Int) (s : State) : Out := .next (doPpsEdge offset s)
def execPtpSync (domain : Nat) (offset : Int) (s : State) : Out := .next (doPtpSync domain offset s)
def execHoldover (s : State) : Out := .next (doHoldover s)
def execPaceTimeSet (w : Wr) (s : State) : Out := .next (doPaceTimeSet w s)
def execGovernorInterval (r : GovReadings) (s : State) : Out := .next (doGovernorInterval r s)
def execRegionRecalibration (region : BitVec 6) (step : Nat) (temp : Int) (s : State) : Out :=
  .next (doRegionRecalibration region step temp s)
def execPaceRecal (w : Wr) (s : State) : Out := .next (doPaceRecal w s)

end Sys2Proof.Machine
end

