-- ==== Sys2Proof/Machine/Resend.lean ====
section
/-! DEFINITION. Resends after a blazed router: cores, the groves' own units, the PCIe controller (11_mesh_and_reduction.md R308). -/

namespace Sys2Proof.Machine

/-- An operation last sent before a notice that is 100 µs old. -/
def stale (s : State) (n tick : Nat) : Bool := decide (tick ≤ n) && decide (n + 101 ≤ now s)

/-- A narrow access sent again. -/
def resendNarrow (s : State) (l : Lcid) (o : NarrowOut) : State :=
  match addrOf o.addr with
  | none => s
  | some a =>
    if vacantAddr s a || cutOff s (dgOf l) a then narrowAnswer s l o sVACANT 0
    else
      let pl := place s l (corePart s l) a
      let s := modCore s l fun k => modUn k fun u => { u with narrows := u.narrows.map fun q =>
        if q.tag = o.tag then { q with tick := now s } else q }
      let p : Pkt := { Pkt.blank with kind := if o.load then 0 else 1, addr := placeWord pl, tag := o.tag, sctx := o.ctx
                                      len := o.size, retried := true
                                      data := if o.load then [] else leBytes o.size o.value.toNat }
      sendTo s l p pl

/-- A packet sent again from a core with the count that it had. -/
def resendAs (s : State) (l : Lcid) (p : Pkt) (q : Nat) : State :=
  injectAs s (dgOf l) (4 + posOf l) { p with spos := BitVec.ofNat 4 (posOf l), part := corePart s l, retried := true } q

/-- A sync operation sent again. -/
def resendSync (s : State) (l : Lcid) (o : SyncOut) : State :=
  match syncStop s l o.name with
  | some st => if o.dead then dropSync s l o.tag else syncDone (dropSync s l o.tag) l o st 0
  | none =>
    let s := modCore s l fun k => modUn k fun u => { u with syncs := u.syncs.map fun q =>
      if q.tag = o.tag then { q with tick := now s } else q }
    match syncFar s o.name with
    | some d => match (syncPkt o).toPort s (dgOf l) d l (some (lcidOf (syncDg o.name) 0)) with
      | some p => resendAs s l p o.seq
      | none => s
    | none => resendAs s l ((syncPkt o).toUnit (if contributes s l o then dgOf l else syncDg o.name)) o.seq

/-- A message sent again. -/
def resendMsg (s : State) (l : Lcid) (o : SentMsg) : State :=
  let s := modCore s l fun k => modUn k fun u => { u with sent := u.sent.map fun q =>
    if q.msg.mid = o.msg.mid then { q with tick := now s, retried := true } else q }
  match hdrFar s o.msg.h with
  | some d => match (msgPkt o.msg).toPort s (dgOf l) d l (some (hdrDst o.msg.h)) with
    | some p => resendAs s l p o.seq
    | none => s
  | none =>
    let t := hdrDst o.msg.h
    if (routeHops s (dgOf l) (dgOf t)).isNone then bounce s (.unit (dgOf l)) o.msg sVACANT
    else resendAs s l ((msgPkt o.msg).toCore t) o.seq

/-- A part of a haul whose packet is under way: the same request again, a write with the bytes that it had. -/
def resendPart (s : State) (l : Lcid) (id i : Nat) (x : Xfer) : State :=
  let w := if x.phase = 1 then x.src else x.dst
  match partPlace s l (w + wd (packetAt x x.conf)) with
  | none => stepPart s l id i fun x => endPart x sVACANT
  | some pl =>
    let x := { x with retried := true, tick := now s }
    sendTo (modPart s l id i fun _ => x) l { (if x.phase = 1 then haulReadPkt pl x else haulWritePkt pl x) with retried := true } pl

/-- The parts of a core's hauls whose request is stale. -/
def staleParts (s : State) (n : Nat) (k : Core) : List (Nat × Nat × Xfer) :=
  (k.un.hauls.flatMap fun o => o.parts.zipIdx.map fun p => (o.id, p.2, p.1)).filter fun q =>
    !q.2.2.done && q.2.2.phase != 0 && !q.2.2.lost && stale s n q.2.2.tick

/-- What a core still waits for. -/
def resendCore (n : Nat) (l : Lcid) (s : State) : State :=
  let k := getCore s l
  let s := (staleParts s n k).foldl (fun s q => resendPart s l q.1 q.2.1 q.2.2) s
  let s := (k.un.narrows.filter fun o => stale s n o.tick && !o.lost).foldl (fun s o => resendNarrow s l o) s
  let s := (k.un.syncs.filter fun o => stale s n o.tick && !o.lost && !o.retry).foldl (fun s o => resendSync s l o) s
  (k.un.sent.filter fun o => stale s n o.tick && !o.lost).foldl (fun s o => resendMsg s l o) s

/-- A multicast sent again to the groves that have not acknowledged it, with its count and its tag. -/
def resendMcast (dg : Dg) (s : State) (m : Mcast) : State :=
  let s := modGrove s dg fun g => { g with mcasts := g.mcasts.replace m { m with tick := now s } }
  injectAs s dg 22 { m.pkt with mask := m.left, retried := true } m.pkt.seq

/-- An arrival forwarded again that the anchor of a reduction has not counted. -/
def resendArrival (dg : Dg) (s : State) (q : Red × Lcid) : State :=
  let s := setRed s { q.1 with fwd := tput 0 q.1.fwd q.2.toNat (now s) }
  sendUnit s dg { forwardPkt q.1 q.2 (corePart s q.2) 0 with retried := true }

/-- The arrivals of a grove's contributors that are stale and not counted. -/
def staleArrivals (s : State) (n : Nat) (dg : Dg) : List (Red × Lcid) :=
  s.reds.flatMap fun r => (r.arrived.filter fun l => dgOf l == dg && !r.counted.contains l && stale s n (tget 0 r.fwd l.toNat)).map fun l => (r, l)

/-- What a grove's own unit still waits for: multicasts and forwarded arrivals. -/
def resendUnit (n : Nat) (dg : Dg) (s : State) : State :=
  let s := ((getGrove s dg).mcasts.filter fun m => stale s n m.tick).foldl (resendMcast dg) s
  (staleArrivals s n dg).foldl (resendArrival dg) s

/-- A host message on this device sent again, with its count, unless no router reaches its target any more. -/
def resendHost (n : Nat) (f : Nat) (s : State) (c : HostCmd) : State :=
  match c.wire with
  | some (p, t) =>
    if c.fin.isSome || p.fab.isSome || !stale s n t then s
    else
      let s := modCmd s f c.seq fun c => { c with wire := some (p, now s) }
      landAs s epPcie { p with retried := true }
  | none => s

/-- The unit is at work: a core serves its position, a router works. -/
def senderWorks (s : State) : Sender → Bool
  | .core l => occupied s l
  | .unit dg => !(getGrove s dg).out
  | .pcie => true

/-- DETOUR_RESEND (R308): what a unit still waits for 100 µs after the last blaze notice is sent again. -/
def doDetourResend (f : Sender) (s : State) : State :=
  match s.notice with
  | none => s
  | some n =>
    if n + 101 ≤ now s ∧ senderWorks s f = true then
      match f with
      | .core l => resendCore n l s
      | .unit dg => resendUnit n dg s
      | .pcie => (below 17).foldl (fun s f => (getFn s f).cmds.foldl (resendHost n f) s) s
    else s

/-! ### Meanings -/

def execDetourResend (f : Sender) (s : State) : Out := .next (awake (doDetourResend f) s)

end Sys2Proof.Machine
end

