-- ==== Sys2Proof/Machine/Scalar.lean ====
section
/-! DEFINITION. Classes 0 to 3: scalar, compare, predicate, branch and narrow memory instructions, and the undefined
opcodes (07_tgx_encoding.md R191, R196 to R200). -/

namespace Sys2Proof.Machine

/-! ### Shared operations -/

/-- Format RR: GD from GA and GB (Table 07.4). -/
def doRR (l : Lcid) (c : CtxNo) (op : Nat) (b : BitVec 54) (f : Word → Word → Word) (s : State) : State :=
  issue s l c op b 0 (onlyFields b [(46, 4), (42, 4), (38, 4)]) anyRoom fun s =>
    finish s l c fun x => writeG x (fld b 46 4) (f (gAt x b 42) (gAt x b 38))

/-- Format RI: GD from GA and the sign-extended immediate. -/
def doRI (l : Lcid) (c : CtxNo) (op : Nat) (b : BitVec 54) (f : Word → Word → Word) (s : State) : State :=
  issue s l c op b 0 (onlyFields b [(46, 4), (42, 4), (0, 32)]) anyRoom fun s =>
    finish s l c fun x => writeG x (fld b 46 4) (f (gAt x b 42) (imm32 b))

/-- Format RI with a shift amount: IMM[31:6] is reserved (R196). -/
def doShI (l : Lcid) (c : CtxNo) (op : Nat) (b : BitVec 54) (f : Word → Nat → Word) (s : State) : State :=
  issue s l c op b 0 (onlyFields b [(46, 4), (42, 4), (0, 6)]) anyRoom fun s =>
    finish s l c fun x => writeG x (fld b 46 4) (f (gAt x b 42) (fld b 0 6))

/-- LI and LIH: GA is unused; `f` takes GD's old value and the immediate's 32 bits. -/
def doConst (l : Lcid) (c : CtxNo) (op : Nat) (b : BitVec 54) (f : Word → BitVec 32 → Word) (s : State) : State :=
  issue s l c op b 0 (onlyFields b [(46, 4), (0, 32)]) anyRoom fun s =>
    finish s l c fun x => writeG x (fld b 46 4) (f (gAt x b 46) (b.extractLsb' 0 32))

/-- Format PR: PD from GA and GB (Table 07.5). -/
def doPR (l : Lcid) (c : CtxNo) (op : Nat) (b : BitVec 54) (f : Word → Word → Bool) (s : State) : State :=
  issue s l c op b 0 (onlyFields b [(47, 3), (42, 4), (38, 4)]) anyRoom fun s =>
    finish s l c fun x => writeP x (fld b 47 3) (f (gAt x b 42) (gAt x b 38))

/-- Format PI: PD from GA and the sign-extended immediate. -/
def doPI (l : Lcid) (c : CtxNo) (op : Nat) (b : BitVec 54) (f : Word → Word → Bool) (s : State) : State :=
  issue s l c op b 0 (onlyFields b [(47, 3), (42, 4), (0, 32)]) anyRoom fun s =>
    finish s l c fun x => writeP x (fld b 47 3) (f (gAt x b 42) (imm32 b))

/-- Format PL: PD from two predicates, each inverted where its bit says so. -/
def doPL (l : Lcid) (c : CtxNo) (op : Nat) (b : BitVec 54) (f : Bool → Bool → Bool) (s : State) : State :=
  issue s l c op b 0 (onlyFields b [(47, 3), (44, 3), (43, 1), (40, 3), (39, 1)]) anyRoom fun s =>
    finish s l c fun x =>
      writeP x (fld b 47 3) (f (readP x (fld b 44 3) != bit b 43) (readP x (fld b 40 3) != bit b 39))

/-- High half of the signed product. -/
def mulHighS (a b : Word) : Word := BitVec.ofInt 64 (a.toInt * b.toInt / 2 ^ 64)

/-- High half of the unsigned product. -/
def mulHighU (a b : Word) : Word := wd (a.toNat * b.toNat / 2 ^ 64)

/-- A register shift amount: bits [5:0] (R196). -/
def shAmt (b : Word) : Nat := fld b 0 6

/-- A taken branch: the link where there is one, the target pc, and the slot given up (R161, R198). -/
def jump (s : State) (l : Lcid) (c : CtxNo) (gd : Nat) (target : BitVec 21) : State :=
  modCtxOf s l c fun x =>
    { writeG x gd (wd (x.pc + 8).toNat) with pc := target, slot := none, deadline := none }

/-- BR and BL: relative branches. -/
def doBranch (l : Lcid) (c : CtxNo) (op : Nat) (b : BitVec 54) (link : Bool) (s : State) : State :=
  issue s l c op b 0 (onlyFields b (if link then [(46, 4), (0, 19)] else [(0, 19)])) anyRoom fun s =>
    jump s l c (if link then fld b 46 4 else 0) ((ctxOf s l c).pc + off19 b)

/-- BRI and BLI: BOUNDS, then ALIGN, then the branch to GA[20:0] (R198). -/
def doBranchTo (l : Lcid) (c : CtxNo) (op : Nat) (b : BitVec 54) (link : Bool) (s : State) : State :=
  issue s l c op b 0 (onlyFields b (if link then [(46, 4), (42, 4)] else [(42, 4)])) anyRoom fun s =>
    let t := gAt (ctxOf s l c) b 42
    if fld t 21 43 ≠ 0 then precise s l c sBOUNDS 0 t
    else if fld t 0 3 ≠ 0 then precise s l c sALIGN 0 t
    else jump s l c (if link then fld b 46 4 else 0) (BitVec.ofNat 21 t.toNat)

/-! ### Narrow accesses (R199, R250) -/

/-- R199: the first check that a narrow access of `size` bytes fails. -/
def narrowFault (s : State) (l : Lcid) (a : Word) (size : Nat) : Option Status :=
  let p := partOf s (dgOf l)
  match addrOf a with
  | none => some sBOUNDS
  | some x =>
    if !inSpace s p x size then some sBOUNDS
    else if !mayReach s p x then some sPERM
    else if a.toNat % size ≠ 0 then some sALIGN
    else if vacantAddr s x || cutOff s (dgOf l) x then some sVACANT
    else none

/-- A narrow access to the own slice: at once, POISON precise (R177, R225). -/
def narrowOwn (s : State) (l : Lcid) (c : CtxNo) (a : Word) (off size gs : Nat) (load sext : Bool) : State :=
  let sl := (getCore s l).sp
  if (poisonAt sl off size).isSome then precise s l c sPOISON 0 a
  else if load then finish s l c fun x => writeG x gs (loadValue size sext (rdNum sl.mem off size))
  else
    let v := readG (ctxOf s l c) gs
    advance (modCore s l fun k => modSp k fun sl => slPut sl off (leBytes size v.toNat)) l c

/-- A narrow access to another slice, external memory or a remote device: a request, and the context waits (R167). -/
def narrowSend (s : State) (l : Lcid) (c : CtxNo) (a : Word) (pl : Place) (size gs : Nat) (load sext : Bool) : State :=
  let k := getCore s l
  let t := newTag k
  let v := readG (getCtx k c) gs
  let o : NarrowOut := { tag := t, ctx := c, addr := a, size := size, gs := BitVec.ofNat 4 gs, load := load, sext := sext
                         value := v, dead := false, lost := false, tick := now s }
  let s := setCore s l (modUn (bumpTag k) fun u => { u with narrows := u.narrows ++ [o] })
  let s := modCtxOf s l c fun x => makeWait x (.narrow t) none
  let p : Pkt := { Pkt.blank with kind := if load then 0 else 1, addr := placeWord pl, tag := t, sctx := c, len := size
                                  data := if load then [] else leBytes size v.toNat }
  sendTo s l p pl

/-- Class 3 accesses: `load` with `sext`, or a store, of `size` bytes. -/
def doNarrow (l : Lcid) (c : CtxNo) (op : Nat) (b : BitVec 54) (size : Nat) (load sext : Bool) (s : State) : State :=
  issue s l c op b 0 (onlyFields b [(46, 4), (42, 4), (0, 32)]) anyRoom fun s =>
    let x := ctxOf s l c
    let gs := fld b 46 4
    let a := gAt x b 42 + imm32 b
    match narrowFault s l a size, addrOf a with
    | some st, _ => precise s l c st 0 (if st = sPERM then insWord op b else a)
    | none, none => precise s l c sBOUNDS 0 a
    | none, some q =>
      match place s l (corePart s l) q with
      | .slice t off => if t = l then narrowOwn s l c a off size gs load sext
                        else narrowSend s l c a (.slice t off) size gs load sext
      | .hbm n off => narrowSend s l c a (.hbm n off) size gs load sext
      | .remote d t off =>
        if hasRoute s d then narrowSend s l c a (.remote d t off) size gs load sext
        else advance (narrowNoEffect s l sNOROUTE a) l c

/-! ### Meanings -/

def execAdd (l : Lcid) (c : CtxNo) (b : BitVec 54) (s : State) : Out := .next (doRR l c 0x001 b (fun x y => x + y) s)
def execSub (l : Lcid) (c : CtxNo) (b : BitVec 54) (s : State) : Out := .next (doRR l c 0x002 b (fun x y => x - y) s)
def execMul (l : Lcid) (c : CtxNo) (b : BitVec 54) (s : State) : Out := .next (doRR l c 0x003 b (fun x y => x * y) s)
def execMulhs (l : Lcid) (c : CtxNo) (b : BitVec 54) (s : State) : Out := .next (doRR l c 0x004 b mulHighS s)
def execMulhu (l : Lcid) (c : CtxNo) (b : BitVec 54) (s : State) : Out := .next (doRR l c 0x005 b mulHighU s)
def execAndR (l : Lcid) (c : CtxNo) (b : BitVec 54) (s : State) : Out := .next (doRR l c 0x006 b (fun x y => x &&& y) s)
def execOrR (l : Lcid) (c : CtxNo) (b : BitVec 54) (s : State) : Out := .next (doRR l c 0x007 b (fun x y => x ||| y) s)
def execXorR (l : Lcid) (c : CtxNo) (b : BitVec 54) (s : State) : Out := .next (doRR l c 0x008 b (fun x y => x ^^^ y) s)
def execShl (l : Lcid) (c : CtxNo) (b : BitVec 54) (s : State) : Out :=
  .next (doRR l c 0x009 b (fun x y => x <<< shAmt y) s)
def execShrl (l : Lcid) (c : CtxNo) (b : BitVec 54) (s : State) : Out :=
  .next (doRR l c 0x00A b (fun x y => x >>> shAmt y) s)
def execShra (l : Lcid) (c : CtxNo) (b : BitVec 54) (s : State) : Out :=
  .next (doRR l c 0x00B b (fun x y => x.sshiftRight (shAmt y)) s)
def execMins (l : Lcid) (c : CtxNo) (b : BitVec 54) (s : State) : Out :=
  .next (doRR l c 0x00C b (fun x y => if y.slt x then y else x) s)
def execMaxs (l : Lcid) (c : CtxNo) (b : BitVec 54) (s : State) : Out :=
  .next (doRR l c 0x00D b (fun x y => if x.slt y then y else x) s)
def execMinu (l : Lcid) (c : CtxNo) (b : BitVec 54) (s : State) : Out :=
  .next (doRR l c 0x00E b (fun x y => if y < x then y else x) s)
def execMaxu (l : Lcid) (c : CtxNo) (b : BitVec 54) (s : State) : Out :=
  .next (doRR l c 0x00F b (fun x y => if x < y then y else x) s)
def execAddi (l : Lcid) (c : CtxNo) (b : BitVec 54) (s : State) : Out := .next (doRI l c 0x011 b (fun x y => x + y) s)
def execAndi (l : Lcid) (c : CtxNo) (b : BitVec 54) (s : State) : Out := .next (doRI l c 0x016 b (fun x y => x &&& y) s)
def execOri (l : Lcid) (c : CtxNo) (b : BitVec 54) (s : State) : Out := .next (doRI l c 0x017 b (fun x y => x ||| y) s)
def execXori (l : Lcid) (c : CtxNo) (b : BitVec 54) (s : State) : Out := .next (doRI l c 0x018 b (fun x y => x ^^^ y) s)
def execShli (l : Lcid) (c : CtxNo) (b : BitVec 54) (s : State) : Out := .next (doShI l c 0x019 b (fun x n => x <<< n) s)
def execShrli (l : Lcid) (c : CtxNo) (b : BitVec 54) (s : State) : Out := .next (doShI l c 0x01A b (fun x n => x >>> n) s)
def execShrai (l : Lcid) (c : CtxNo) (b : BitVec 54) (s : State) : Out :=
  .next (doShI l c 0x01B b (fun x n => x.sshiftRight n) s)
def execLi (l : Lcid) (c : CtxNo) (b : BitVec 54) (s : State) : Out :=
  .next (doConst l c 0x020 b (fun _ i => i.signExtend 64) s)
def execLih (l : Lcid) (c : CtxNo) (b : BitVec 54) (s : State) : Out :=
  .next (doConst l c 0x021 b (fun g i => wd (i.toNat * 2 ^ 32 + g.toNat % 2 ^ 32)) s)
def execCeq (l : Lcid) (c : CtxNo) (b : BitVec 54) (s : State) : Out := .next (doPR l c 0x040 b (fun x y => x == y) s)
def execCne (l : Lcid) (c : CtxNo) (b : BitVec 54) (s : State) : Out := .next (doPR l c 0x041 b (fun x y => x != y) s)
def execClt (l : Lcid) (c : CtxNo) (b : BitVec 54) (s : State) : Out := .next (doPR l c 0x042 b BitVec.slt s)
def execCle (l : Lcid) (c : CtxNo) (b : BitVec 54) (s : State) : Out := .next (doPR l c 0x043 b BitVec.sle s)
def execCltu (l : Lcid) (c : CtxNo) (b : BitVec 54) (s : State) : Out := .next (doPR l c 0x044 b BitVec.ult s)
def execCleu (l : Lcid) (c : CtxNo) (b : BitVec 54) (s : State) : Out := .next (doPR l c 0x045 b BitVec.ule s)
def execCeqi (l : Lcid) (c : CtxNo) (b : BitVec 54) (s : State) : Out := .next (doPI l c 0x050 b (fun x y => x == y) s)
def execCnei (l : Lcid) (c : CtxNo) (b : BitVec 54) (s : State) : Out := .next (doPI l c 0x051 b (fun x y => x != y) s)
def execClti (l : Lcid) (c : CtxNo) (b : BitVec 54) (s : State) : Out := .next (doPI l c 0x052 b BitVec.slt s)
def execClei (l : Lcid) (c : CtxNo) (b : BitVec 54) (s : State) : Out := .next (doPI l c 0x053 b BitVec.sle s)
def execCltui (l : Lcid) (c : CtxNo) (b : BitVec 54) (s : State) : Out := .next (doPI l c 0x054 b BitVec.ult s)
def execCleui (l : Lcid) (c : CtxNo) (b : BitVec 54) (s : State) : Out := .next (doPI l c 0x055 b BitVec.ule s)
def execPand (l : Lcid) (c : CtxNo) (b : BitVec 54) (s : State) : Out := .next (doPL l c 0x048 b (fun x y => x && y) s)
def execPor (l : Lcid) (c : CtxNo) (b : BitVec 54) (s : State) : Out := .next (doPL l c 0x049 b (fun x y => x || y) s)
def execPxor (l : Lcid) (c : CtxNo) (b : BitVec 54) (s : State) : Out := .next (doPL l c 0x04A b (fun x y => x != y) s)
def execBr (l : Lcid) (c : CtxNo) (b : BitVec 54) (s : State) : Out := .next (doBranch l c 0x080 b false s)
def execBl (l : Lcid) (c : CtxNo) (b : BitVec 54) (s : State) : Out := .next (doBranch l c 0x081 b true s)
def execBri (l : Lcid) (c : CtxNo) (b : BitVec 54) (s : State) : Out := .next (doBranchTo l c 0x082 b false s)
def execBli (l : Lcid) (c : CtxNo) (b : BitVec 54) (s : State) : Out := .next (doBranchTo l c 0x083 b true s)
def execLdb (l : Lcid) (c : CtxNo) (b : BitVec 54) (s : State) : Out := .next (doNarrow l c 0x0C0 b 1 true false s)
def execLdh (l : Lcid) (c : CtxNo) (b : BitVec 54) (s : State) : Out := .next (doNarrow l c 0x0C1 b 2 true false s)
def execLdw (l : Lcid) (c : CtxNo) (b : BitVec 54) (s : State) : Out := .next (doNarrow l c 0x0C2 b 4 true false s)
def execLdd (l : Lcid) (c : CtxNo) (b : BitVec 54) (s : State) : Out := .next (doNarrow l c 0x0C3 b 8 true false s)
def execLdbs (l : Lcid) (c : CtxNo) (b : BitVec 54) (s : State) : Out := .next (doNarrow l c 0x0C4 b 1 true true s)
def execLdhs (l : Lcid) (c : CtxNo) (b : BitVec 54) (s : State) : Out := .next (doNarrow l c 0x0C5 b 2 true true s)
def execLdws (l : Lcid) (c : CtxNo) (b : BitVec 54) (s : State) : Out := .next (doNarrow l c 0x0C6 b 4 true true s)
def execStb (l : Lcid) (c : CtxNo) (b : BitVec 54) (s : State) : Out := .next (doNarrow l c 0x0C8 b 1 false false s)
def execSth (l : Lcid) (c : CtxNo) (b : BitVec 54) (s : State) : Out := .next (doNarrow l c 0x0C9 b 2 false false s)
def execStw (l : Lcid) (c : CtxNo) (b : BitVec 54) (s : State) : Out := .next (doNarrow l c 0x0CA b 4 false false s)
def execStd (l : Lcid) (c : CtxNo) (b : BitVec 54) (s : State) : Out := .next (doNarrow l c 0x0CB b 8 false false s)

/-- FFENCE: every slot fetched by the context is discarded (R199, R200). -/
def execFfence (l : Lcid) (c : CtxNo) (b : BitVec 54) (s : State) : Out :=
  .next (issue s l c 0x0D0 b 0 (onlyFields b []) anyRoom fun s => finish s l c fun x => { x with slot := none })

/-- The operations that each class defines at TGX-1 (Tables 07.4 to 07.17). -/
def definedOps (op : Nat) : List Nat :=
  match op / 64 with
  | 0 => upto 0x01 15 ++ [0x11] ++ upto 0x16 6 ++ [0x20, 0x21]
  | 1 => upto 0x00 6 ++ upto 0x08 3 ++ upto 0x10 6
  | 2 => upto 0x00 4
  | 3 => upto 0x00 7 ++ upto 0x08 4 ++ [0x10]
  | 4 => upto 0x00 6
  | 5 => upto 0x00 9 ++ upto 0x10 6 ++ [0x18] ++ upto 0x20 7
  | 6 => upto 0x00 6 ++ [0x0F]
  | 7 => upto 0x00 4
  | 8 => upto 0x00 2
  | 9 => upto 0x00 2
  | 10 => upto 0x00 8
  | 11 => upto 0x00 7
  | 12 => [0x00, 0x08, 0x09, 0x0A]
  | 13 => upto 0x00 5
  | _ => []

/-- R191: an opcode that the spec lists. -/
def opcodeDefined (op : Nat) : Bool := (definedOps op).contains (op % 64)

/-- R161, R187: the command of the instruction word at the pc of a context. -/
def commandAtPc (s : State) (l : Lcid) (c : CtxNo) : Option Instr := decodeTgx l c (slWord (getCore s l).sp (ctxOf s l c).pc.toNat)

/-- The unit in whose class an opcode lies, as fr0 UNIT names it (Table 06.6, R194); the sync, context, Ring and query
classes are the scalar unit's. -/
def classUnit (op : Nat) : Nat :=
  match op / 64 with
  | 4 => 1
  | 5 | 6 => 2
  | 7 => 3
  | 8 => 4
  | 9 => 5
  | _ => 0

/-- UNDEFINED_OPCODE: a precise UNDEF whose DETAIL is the word (R190, R191); a word whose opcode is defined is some other
command's and changes nothing here. -/
def execUndefinedOpcode (l : Lcid) (c : CtxNo) (word : Word) (s : State) : Out :=
  .next (if !mayIssue s l c || opcodeDefined (fld word 54 10) then s
    else if fetchPoisoned s l c then precise s l c sPOISON 0 (wd (ctxOf s l c).pc.toNat)
    else precise (fetched s l c) l c sUNDEF (classUnit (fld word 54 10)) word)

end Sys2Proof.Machine
end

