-- ==== Sys2Proof/Machine/Writes.lean ====
section
/-! DEFINITION. REGISTER_WRITE: a write of any BAR0 register by its offset. A register with a row of its own goes to that row's shared
operation (22_register_map.md R554 to R559 and the register tables of the chapters that it names). -/

namespace Sys2Proof.Machine

/-! ### What every block has -/

/-- A write that no register takes: the offset is not assigned (R554). -/
def ignoreWrite (s : State) (w : Wr) : State := hostAccess s w.writer.toNat

/-- The write-reject register of a block (R559): WRITE_REJECTED is W1C. -/
def wrejWrite (s : State) (w : Wr) (blk off : Nat) (allowed : Bool) (gone : Option Nat) : State :=
  guardWrite s w.writer.toNat blk off allowed gone false true fun s =>
    if bit (halfBits w.half w.value) 63 then { s with wrej := tput 0 s.wrej blk (putFld (wrejWord s blk) 63 1 0) } else s

/-- A write of a block that PF0 and the Lookout reach. -/
def pfWrite (s : State) (w : Wr) (blk o : Nat) (reserved cond : Bool) (f : State → State) : State :=
  guardWrite s w.writer.toNat blk (blk + o) (byPf0 w.writer.toNat) none reserved cond f

/-- A register of such a block whose every field is RO. -/
def pfRo (s : State) (w : Wr) (blk o : Nat) : State := pfWrite s w blk o false true fun s => s

/-! ### DEV_ (Tables 16.8, 19.9, 22.4) -/

/-- DEV_TWIN_NEXTi. -/
def twinNextWrite (i : Nat) (w : Wr) (s : State) : State :=
  let v := mergeHalf w.half (dgMask s.check.twinNext i) w.value
  pfWrite s w 0 (0x1C0 + 8 * i) (v &&& fusedMask s i != 0) true fun s =>
    { s with check := { s.check with twinNext := (below 64).foldl (fun t j =>
        if bit v j then sIns t (64 * i + j) else sDel t (64 * i + j)) s.check.twinNext } }

/-- DEV_KAK_CFG. -/
def kakCfgWrite (w : Wr) (s : State) : State :=
  pfWrite s w 0 0x180 false true fun s =>
    { s with check := { s.check with period := BitVec.ofNat 32 (mergeHalf w.half (wd s.check.period.toNat) w.value).toNat } }

/-- The RO registers of the DEV_ block. -/
def devRo (o : Nat) : Bool :=
  decide (o < 0x50) || o == 0x80 || o == 0x100 || o == 0x108 || o == 0x110 || o == 0x120 || o == 0x188 || (decide (0x1E0 ≤ o) && decide (o < 0x200))

/-- The DEV_ block. -/
def devWrite (w : Wr) (o : Nat) (s : State) : State :=
  if o = 0x118 then dormCtrlWrite w s
  else if o = 0x180 then kakCfgWrite w s
  else if 0x1C0 ≤ o ∧ o < 0x1E0 then twinNextWrite ((o - 0x1C0) / 8) w s
  else if o = 0xFF8 then wrejWrite s w 0 0xFF8 (byPf0 w.writer.toNat) none
  else if devRo o then pfRo s w 0 o
  else ignoreWrite s w

/-! ### PACE_ (Table 02.3) -/

/-- PACE_CTRL: MODE 3 is reserved, and so is 2 outside PROVISIONED and SERVICE (R60). -/
def paceModeWrite (w : Wr) (s : State) : State :=
  let v := fld (mergeHalf w.half (wd s.pace.mode.toNat) w.value) 0 2
  paceWrite s w 0 (v == 3 || (v == 2 && !soundingOk s.sec.life)) true fun s =>
    { s with pace := { s.pace with mode := BitVec.ofNat 2 v } }

/-- PACE_PWR_LIMIT. -/
def paceLimitWrite (w : Wr) (s : State) : State :=
  let v := fld (mergeHalf w.half (wd s.pace.limit.toNat) w.value) 0 16
  paceWrite s w 8 (decide (v < 300) || decide (600 < v)) true fun s => { s with pace := { s.pace with limit := BitVec.ofNat 16 v } }

/-- PACE_STATUS: SKEW_SEEN is W1C. -/
def paceStatusWrite (w : Wr) (s : State) : State :=
  paceWrite s w 0x10 false true fun s =>
    if bit (halfBits w.half w.value) 7 then { s with pace := { s.pace with skewSeen := false } } else s

/-- PACE_REGIONn: VSET. -/
def regionWrite (n : Nat) (w : Wr) (s : State) : State :=
  let v := fld (mergeHalf w.half (regionWord s n) w.value) 20 8
  paceWrite s w (0x100 + 8 * n) (decide (250 < v) || v % 5 != 0) true fun s =>
    { s with pace := { s.pace with regions := tput Region.zero s.pace.regions n { getRegion s n with vset := v } } }

/-- PACE_TIME_CTRL: a new source has not been heard, and nothing is locked to it (R63). -/
def timeCtrlWrite (w : Wr) (s : State) : State :=
  let v := fld (mergeHalf w.half (wd s.pace.src.toNat) w.value) 0 2
  paceWrite s w 0x308 (v == 3) true fun s =>
    if v = s.pace.src.toNat then s
    else { s with pace := { s.pace with src := BitVec.ofNat 2 v, holdover := false, locked := false, goodFrom := none, heard := now s } }

/-- The PACE_ block. -/
def paceBlockWrite (w : Wr) (o : Nat) (s : State) : State :=
  if o = 0x00 then paceModeWrite w s
  else if o = 0x08 then paceLimitWrite w s
  else if o = 0x10 then paceStatusWrite w s
  else if o = 0x20 then doPaceRecal w s
  else if 0x100 ≤ o ∧ o < 0x300 then regionWrite ((o - 0x100) / 8) w s
  else if o = 0x308 then timeCtrlWrite w s
  else if o = 0x318 then doPaceTimeSet w s
  else if o = 0xFF8 then wrejWrite s w paceBlk (paceBlk + o) (byPf0 w.writer.toNat) none
  else if o = 0x18 ∨ o = 0x300 ∨ o = 0x310 then pfRo s w paceBlk o
  else ignoreWrite s w

/-! ### PART_, SEC_, ERR_, SNAG_, HBM_, STD_ -/

/-- The PART_ block. -/
def partBlockWrite (w : Wr) (o : Nat) (s : State) : State :=
  if o < 0x800 then doGroveMove (BitVec.ofNat 8 (o / 8)) w s
  else if o < 0x880 then pfRo s w partBlk o
  else if o = 0xFF8 then wrejWrite s w partBlk (partBlk + o) (byPf0 w.writer.toNat) none
  else ignoreWrite s w

/-- SEC_STATUS: LC_CHANGED and DONE are W1C. -/
def secStatusWrite (w : Wr) (s : State) : State :=
  let v := halfBits w.half w.value
  secWrite s w 0x10 false true fun s =>
    { s with sec := { s.sec with changed := s.sec.changed && !bit v 2, done := s.sec.done && !bit v 1 } }

/-- SEC_MBOX_Dw, while the Warden is free (R403). -/
def mboxWrite (i : Nat) (w : Wr) (s : State) : State :=
  secWrite s w (0x100 + 8 * i) false (!s.sec.busy) fun s =>
    { s with sec := { s.sec with mbox := tput 0 s.sec.mbox i (mergeHalf w.half (tget 0 s.sec.mbox i) w.value) } }

/-- The SEC_ block. -/
def secBlockWrite (w : Wr) (o : Nat) (s : State) : State :=
  if o = 0x10 then secStatusWrite w s
  else if o = 0x40 then mboxCtrl w s
  else if 0x100 ≤ o ∧ o < 0x218 then mboxWrite ((o - 0x100) / 8) w s
  else if o = 0xFF8 then wrejWrite s w secBlk (secBlk + o) (byPf0 w.writer.toNat) none
  else if o = 0 ∨ o = 8 ∨ (0x20 ≤ o ∧ o < 0x40) then pfRo s w secBlk o
  else ignoreWrite s w

/-- ERR_CFG. -/
def errCfgWrite (w : Wr) (s : State) : State :=
  let v := keepFields (mergeHalf w.half s.errs.cfg w.value) [(32, 1), (16, 16), (0, 16)]
  errWrite s w 0 (fld v 16 16 == 0 || decide (fld v 0 16 < 100)) true fun s => { s with errs := { s.errs with cfg := v } }

/-- ERR_Ss_LOG_SEL. -/
def logSelWrite (i : Nat) (w : Wr) (s : State) : State :=
  errWrite s w (0x138 + 0x100 * i) false true fun s =>
    modComb s i fun c => { c with sel := BitVec.ofNat 35 (mergeHalf w.half (wd c.sel.toNat) w.value).toNat }

/-- The ERR_ block. -/
def errBlockWrite (w : Wr) (o : Nat) (s : State) : State :=
  if o = 0 then errCfgWrite w s
  else if o = 0xFF8 then wrejWrite s w errBlk (errBlk + o) (byPf0 w.writer.toNat) none
  else if 0x100 ≤ o ∧ o < 0x500 then
    let i := (o - 0x100) / 0x100
    if o % 0x100 = 0x08 then doErrHeadWrite (BitVec.ofNat 2 i) w s
    else if o % 0x100 = 0x38 then logSelWrite i w s
    else if o % 0x100 ≤ 0x40 then pfRo s w errBlk o
    else ignoreWrite s w
  else ignoreWrite s w

/-- Base of the SNAG_ block. -/
def snagBlk : Nat := 0x5000

/-- SNAG_CFG. -/
def snagCfgWrite (w : Wr) (s : State) : State :=
  let v := fld (mergeHalf w.half s.snagCfg w.value) 0 16
  pfWrite s w snagBlk 0 (decide (v < 5) || decide (10000 < v)) true fun s => { s with snagCfg := wd v }

/-- SNAG_Ss_SEL: words above 17 are reserved. -/
def snagSelWrite (i : Nat) (w : Wr) (s : State) : State :=
  let v := mergeHalf w.half (wd (getSnag s i).sel.toNat) w.value
  pfWrite s w snagBlk (0x108 + 0x100 * i) (decide (17 < fld v 0 5)) true fun s =>
    { s with snags := tput Snag.zero s.snags i { getSnag s i with sel := BitVec.ofNat 9 (fld v 0 9) } }

/-- The SNAG_ block. -/
def snagBlockWrite (w : Wr) (o : Nat) (s : State) : State :=
  if o = 0 then snagCfgWrite w s
  else if o = 0xFF8 then wrejWrite s w snagBlk (snagBlk + o) (byPf0 w.writer.toNat) none
  else if 0x100 ≤ o ∧ o < 0x500 then
    if o % 0x100 = 0x08 then snagSelWrite ((o - 0x100) / 0x100) w s
    else if o % 0x100 = 0x00 ∨ o % 0x100 = 0x10 then pfRo s w snagBlk o
    else ignoreWrite s w
  else ignoreWrite s w

/-- The HBM_ block. -/
def hbmBlockWrite (w : Wr) (o : Nat) (s : State) : State :=
  if o < 0x80 then rangeWrite (BitVec.ofNat 4 (o / 8)) w s
  else if o = 0xFF8 then wrejWrite s w hbmBlk (hbmBlk + o) (byPf0 w.writer.toNat) none
  else if 0x100 ≤ o ∧ o < 0x140 then pfRo s w hbmBlk o
  else ignoreWrite s w

/-- The STD_ block of a Stand. -/
def stdBlockWrite (i : Nat) (w : Wr) (o : Nat) (s : State) : State :=
  let blk := 0x8000 + 0x1000 * i
  if o = 0 then pfRo s w blk o
  else if o = 0xFF8 then wrejWrite s w blk (blk + o) (byPf0 w.writer.toNat) none
  else ignoreWrite s w

/-! ### GF_ (Table 12.7) -/

/-- GF_RT_SEL, GF_MC_SEL, GF_SHAPER_SEL and GF_CONG_SEL. -/
def gfSelWrite (w : Wr) (o : Nat) (s : State) : State :=
  let new := fun (old : Nat) => mergeHalf w.half (wd old) w.value
  match o with
  | 0x10 => gfWrite s w o false true fun s => { s with gf := { s.gf with rtSel := BitVec.ofNat 16 (fld (new s.gf.rtSel.toNat) 0 16) } }
  | 0x20 => gfWrite s w o false true fun s =>
      { s with gf := { s.gf with mcSel := BitVec.ofNat 16 (keepFields (new s.gf.mcSel.toNat) [(15, 1), (0, 12)]).toNat } }
  | 0x50 => gfWrite s w o false true fun s => { s with gf := { s.gf with shSel := BitVec.ofNat 8 (fld (new s.gf.shSel.toNat) 0 8) } }
  | _ =>
    let v := fld (new s.gf.congSel.toNat) 0 10
    gfWrite s w o (decide (513 < v)) true fun s => { s with gf := { s.gf with congSel := BitVec.ofNat 10 v } }

/-- GF_SHAPER_TMO and GF_CONG_CTRL: zero is reserved. -/
def gfCountWrite (w : Wr) (o : Nat) (s : State) : State :=
  if o = 0x68 then
    let v := fld (mergeHalf w.half (wd s.gf.shTmo.toNat) w.value) 0 32
    gfWrite s w o (v == 0) true fun s => { s with gf := { s.gf with shTmo := BitVec.ofNat 32 v } }
  else
    let v := fld (mergeHalf w.half (wd s.gf.samples.toNat) w.value) 0 32
    gfWrite s w o (v == 0) true fun s => { s with gf := { s.gf with samples := BitVec.ofNat 32 v } }

/-- GF_PORTk registers: whether a lane that a write of LANES retrains comes back is a free value here (log entry 3, DESIGN CHOICE); every write to a fused
port is rejected (R348). -/
def portWrite (k : Nat) (w : Wr) (o : Nat) (s : State) : State :=
  if o % 0x20 = 8 then
    let t := doLaneRetrain (BitVec.ofNat 4 k) w (bit (Config.freeWord s.freeCtr) 0) s
    if t.gf = s.gf then t else { t with freeCtr := s.freeCtr + 1 }
  else gfWrite s w o false ((getPort s k).st != 0) fun s => s

/-- The GF_ block. -/
def gfBlockWrite (w : Wr) (o : Nat) (s : State) : State :=
  if o = 0x00 then doBankSwap w s
  else if o = 0x18 then doRoutingEntryWrite false w s
  else if o = 0x28 then doRoutingEntryWrite true w s
  else if 0x30 ≤ o ∧ o < 0x50 then doDidHold (BitVec.ofNat 2 ((o - 0x30) / 8)) w s
  else if o = 0x58 then shaperWrite w s
  else if o = 0x10 ∨ o = 0x20 ∨ o = 0x50 ∨ o = 0x78 then gfSelWrite w o s
  else if o = 0x68 ∨ o = 0x70 then gfCountWrite w o s
  else if 0x100 ≤ o ∧ o < 0x300 then portWrite ((o - 0x100) / 0x20) w o s
  else if o = 0xFF8 then wrejWrite s w gfBlk (gfBlk + o) (byPf0 w.writer.toNat) none
  else if o = 0x08 ∨ o = 0x60 ∨ o = 0x80 then gfWrite s w o false true fun s => s
  else ignoreWrite s w

/-! ### CQ_ (Table 14.8) -/

/-- A write of a function's CQ_ block: by that function, PF0 or the Lookout. -/
def cqWrite (s : State) (f : HostFn) (w : Wr) (o : Nat) (reserved cond : Bool) (g : Fn → Fn) : State :=
  guardWrite s w.writer.toNat (cqBlk f) (cqBlk f + o) (cqWriter w.writer.toNat f) none reserved cond fun s => modFn s f.val g

/-- CQ_STATUS: WIN_ERR and DB_ERR are W1C. -/
def cqStatusWrite (f : HostFn) (w : Wr) (s : State) : State :=
  let v := halfBits w.half w.value
  cqWrite s f w 8 false true fun n => { n with winErr := n.winErr && !bit v 2, dbErr := n.dbErr && !bit v 1 }

/-- CQ_ASQ and CQ_ACQ: accepted only while EN and RDY are 0 (R380), which decides before a reserved SIZEM1. -/
def cqRingWrite (f : HostFn) (acq : Bool) (w : Wr) (s : State) : State :=
  let n := getFn s f.val
  let v := mergeHalf w.half (if acq then n.acq else n.asq) w.value
  let rest := !n.en && !n.rdy
  cqWrite s f w (if acq then 0x18 else 0x10) (rest && fld v 0 12 == 0) rest fun n => if acq then { n with acq := v } else { n with asq := v }

/-- CQ_WIN: a VF names its own partition by 0; the window of a locked partition is closed to PF0 (R396). -/
def cqWinWrite (f : HostFn) (w : Wr) (s : State) : State :=
  let v := keepFields (mergeHalf w.half (getFn s f.val).win w.value) [(8, 4), (0, 8)]
  let shut := f.val == 0 && !byLookout w.writer.toNat && tdiLocked s (fld v 8 4)
  guardWrite s w.writer.toNat (cqBlk f) (cqBlk f + 0x20) (cqWriter w.writer.toNat f && !shut) none
    (decide (192 ≤ fld v 0 8) || (f.val != 0 && fld v 8 4 != 0)) true fun s => modFn s f.val fun n => { n with win := v }

/-- CQ_TELEM_HEAD, on PF0 only. -/
def telHeadWrite (f : HostFn) (w : Wr) (s : State) : State :=
  guardWrite s w.writer.toNat (cqBlk f) (cqBlk f + 0x30) (cqWriter w.writer.toNat f && f.val == 0) none false true fun s =>
    modFn s f.val fun n => { n with telHead := BitVec.ofNat 31 (fld (mergeHalf w.half (wd n.telHead.toNat) w.value) 0 31) }

/-- R382: an object that a notify vector may be bound to: an event in the function's partition. -/
def notifyObject (s : State) (f : HostFn) (ix : Nat) : Bool :=
  let dg : Dg := BitVec.ofNat 8 (ix / 128)
  let c := (getObj (getGrove s dg) (ix % 128)).cfg
  partOf s dg == some (fnPart f) && bit c 63 && fld c 60 3 == 2

/-- CQ_NOTIFYv. -/
def notifyWrite (f : HostFn) (i : Nat) (w : Wr) (s : State) : State :=
  let v := keepFields (mergeHalf w.half (tget 0 (getFn s f.val).notify i) w.value) [(63, 1), (0, 15)]
  cqWrite s f w (0x100 + 8 * i) (bit v 63 && !notifyObject s f (fld v 0 15)) true fun n => { n with notify := tput 0 n.notify i v }

/-- A function's CQ_ block. -/
def cqBlockWrite (f : HostFn) (w : Wr) (o : Nat) (s : State) : State :=
  if o = 0x00 then doCqEnable f w s
  else if o = 0x08 then cqStatusWrite f w s
  else if o = 0x10 then cqRingWrite f false w s
  else if o = 0x18 then cqRingWrite f true w s
  else if o = 0x20 then cqWinWrite f w s
  else if o = 0x28 then cqWrite s f w o false true fun n => n
  else if o = 0x30 then telHeadWrite f w s
  else if 0x100 ≤ o ∧ o < 0x1E0 then notifyWrite f ((o - 0x100) / 8) w s
  else if o = 0xFF8 then wrejWrite s w (cqBlk f) (cqBlk f + o) (cqWriter w.writer.toNat f) none
  else ignoreWrite s w

/-! ### GRV_ and CORE_ -/

/-- R370, R396: who reaches a grove's block and the blocks of its cores: the Lookout, PF0 unless the partition is locked, the
owning function. -/
def groveReach (s : State) (w : Nat) (dg : Dg) : Bool :=
  byLookout w || byOwner s w dg || (w == 0 && !(match partOf s dg with | some n => tdiLocked s n.toNat | none => false))

/-- The RO registers of a grove's block. -/
def groveRo (o : Nat) : Bool :=
  o == 0x200 || o == 0x208 || o == 0x210 || o == 0x220 || o == 0x300 || o == 0x308 || (decide (0x1000 ≤ o) && decide (o < 0x1800))

/-- A grove's block. -/
def groveBlockWrite (dg : Dg) (w : Wr) (o : Nat) (s : State) : State :=
  let gone := groveGone s w.writer.toNat dg
  if 0x1000 ≤ o ∧ o < 0x1800 ∧ o % 16 = 0 then doSyncCfgWrite dg (BitVec.ofNat 7 ((o - 0x1000) / 16)) w s
  else if o = 0x1FF8 then wrejWrite s w (groveBlk dg) (groveBlk dg + o) (groveReach s w.writer.toNat dg) gone
  else if groveRo o then
    guardWrite s w.writer.toNat (groveBlk dg) (groveBlk dg + o) (groveReach s w.writer.toNat dg) gone false true fun s => s
  else ignoreWrite s w

/-- CORE_STATUS: CMD_REJECTED is W1C. -/
def coreStatusWrite (l : Lcid) (w : Wr) (s : State) : State :=
  coreWrite s l w 8 false true fun s =>
    if bit (halfBits w.half w.value) 49 then modCore s l fun k => { k with rejected := false } else s

/-- CORE_HT_SEL and CORE_CTX_SEL (R186). -/
def coreSelWrite (l : Lcid) (ht : Bool) (w : Wr) (s : State) : State :=
  coreSet s l w (if ht then 0x40 else 0x50) false true fun s => modCore s l fun k =>
    if ht then { k with htSel := BitVec.ofNat 12 (mergeHalf w.half (wd k.htSel.toNat) w.value).toNat }
    else { k with ctxSel := BitVec.ofNat 9 (mergeHalf w.half (wd k.ctxSel.toNat) w.value).toNat }

/-- CORE_HT_DATA (Table 06.10). -/
def htDataWrite (l : Lcid) (w : Wr) (s : State) : State :=
  let k := getCore s l
  let v := keepFields (mergeHalf w.half (tget 0 k.ht k.htSel.toNat) w.value) [(63, 1), (48, 8), (0, 21)]
  coreSet s l w 0x48 (fld v 0 21 % 8 != 0) true fun s => modCore s l fun k => { k with ht := tput 0 k.ht k.htSel.toNat v }

/-- R184, R489: the selected context may be written: HELD or FAULTED, and its core not under the recovery hold. -/
def ctxWritable (k : Core) : Bool :=
  let st := (getCtx k k.ctxSel).st
  !k.recHold && (st = .held || st = .faulted)

/-- A CORE_CTX_* register of the selected context written. -/
def ctxPut (x : Ctx) (o : Nat) (v : Word) : Ctx :=
  if o < 0x180 then writeG x ((o - 0x100) / 8) v
  else match o with
  | 0x180 => { x with p := BitVec.ofNat 8 (fld v 0 8 ||| 1) }
  | 0x188 => { x with pc := BitVec.ofNat 21 (fld v 0 21) }
  | 0x1C0 => { x with srSeed := v }
  | 0x1C8 => { x with srCtr := v }
  | _ => x

/-- A write of a CORE_CTX_* register marked RW. -/
def ctxRegWrite (l : Lcid) (o : Nat) (w : Wr) (s : State) : State :=
  let k := getCore s l
  let v := mergeHalf w.half (ctxRead k o) w.value
  coreSet s l w o (o == 0x188 && fld v 0 21 % 8 != 0) (ctxWritable k) fun s => modCore s l fun k => modCtx k k.ctxSel fun x => ctxPut x o v

/-- CORE_VE_CTRL (R159). -/
def veCtrlWrite (l : Lcid) (w : Wr) (s : State) : State :=
  coreSet s l w 0x418 false true fun s => modCore s l fun k => modEng k fun e =>
    { e with fallback := bit (mergeHalf w.half (wd (bitAt e.fallback 0)) w.value) 0 }

/-- CORE_MSG_AREA (R273): ACCEPT 0 and no slot occupied. -/
def msgAreaWrite (l : Lcid) (w : Wr) (s : State) : State :=
  let k := getCore s l
  let v := keepFields (mergeHalf w.half k.un.area w.value) [(21, 11), (0, 21)]
  let n := fld v 21 11
  coreSet s l w 0x480 (fld v 0 21 % 128 != 0 || decide (1024 < n) || decide (0x200000 < fld v 0 21 + 640 * n))
    (!bit k.ctrl 0 && k.un.slots.isEmpty) fun s => modCore s l fun k => modUn k fun u => { u with area := v }

/-- CORE_MSG_CFG (Table 09.13). -/
def msgCfgWrite (l : Lcid) (w : Wr) (s : State) : State :=
  let v := keepFields (mergeHalf w.half (getCore s l).un.cfg w.value) [(40, 24), (24, 16)]
  coreSet s l w 0x488 (decide (fld v 40 24 < 100000) || fld v 24 16 == 0) true fun s =>
    modCore s l fun k => modUn k fun u => { u with cfg := v }

/-- CORE_Q_SEL. -/
def qSelWrite (l : Lcid) (w : Wr) (s : State) : State :=
  coreSet s l w 0x498 false true fun s => modCore s l fun k => modUn k fun u =>
    { u with qsel := BitVec.ofNat 6 (mergeHalf w.half (wd u.qsel.toNat) w.value).toNat }

/-- Bytes of a save area (R479). -/
def areaSpan (n : Nat) : Nat := if n = 0 then 0 else 1024 * n + 141312

/-- CORE_RING_AREA (R484). -/
def ringAreaWrite (l : Lcid) (w : Wr) (s : State) : State :=
  let k := getCore s l
  let v := keepFields (mergeHalf w.half k.ring.area w.value) [(32, 10), (0, 21)]
  let n := fld v 32 10
  coreSet s l w 0x580 (decide (512 < n) || fld v 0 21 % 128 != 0 || decide (0x200000 < fld v 0 21 + areaSpan n)) (roleIdle k)
    fun s => modCore s l fun k => { k with ring := { k.ring with area := v } }

/-- CORE_CTX_CMD by the code that the write holds; code 0 does nothing (Table 06.12). -/
def ctxCmdWrite (l : Lcid) (w : Wr) (s : State) : State := ctxCmd (fld (halfBits w.half w.value) 0 3) l w s

/-- The RO registers of a core's block. -/
def coreRo (o : Nat) : Bool :=
  o == 0x18 || (decide (0x80 ≤ o) && decide (o < 0x100)) || (decide (0x190 ≤ o) && decide (o < 0x1C0)) || o == 0x1D0 || o == 0x1D8 ||
  o == 0x400 || o == 0x408 || o == 0x410 || o == 0x420 || o == 0x490 || o == 0x4A0 || o == 0x540 || o == 0x588 || o == 0x590 || o == 0x598

/-- A core's block. -/
def coreBlockWrite (l : Lcid) (w : Wr) (o : Nat) (s : State) : State :=
  if o = 0x00 then doHoldAll l w s
  else if o = 0x08 then coreStatusWrite l w s
  else if o = 0x10 then doCoreRoleWrite l w s
  else if o = 0x40 then coreSelWrite l true w s
  else if o = 0x48 then htDataWrite l w s
  else if o = 0x50 then coreSelWrite l false w s
  else if o = 0x58 then ctxCmdWrite l w s
  else if coreRo o then coreWrite s l w o false true fun s => s
  else if 0x100 ≤ o ∧ o < 0x1D0 then ctxRegWrite l o w s
  else if o = 0x418 then veCtrlWrite l w s
  else if o = 0x480 then msgAreaWrite l w s
  else if o = 0x488 then msgCfgWrite l w s
  else if o = 0x498 then qSelWrite l w s
  else if 0x500 ≤ o ∧ o < 0x540 then doLinkRegisterWrite l (decide (0x520 ≤ o)) (BitVec.ofNat 2 (o / 8)) w s
  else if o = 0x580 then ringAreaWrite l w s
  else if o = 0x7F8 then
    wrejWrite s w (coreBlk l) (coreBlk l + o) (groveReach s w.writer.toNat (dgOf l)) (coreGone s w.writer.toNat l)
  else ignoreWrite s w

/-! ### The map (R554, R555) -/

/-- A write of the 8-byte register at an offset (Table 22.1). -/
def writeAt (w : Wr) (off : Nat) (s : State) : State :=
  let o := off % 0x1000
  if off < 0x8000 then
    match off / 0x1000 with
    | 0 => devWrite w o s
    | 1 => paceBlockWrite w o s
    | 2 => partBlockWrite w o s
    | 3 => secBlockWrite w o s
    | 4 => errBlockWrite w o s
    | 5 => snagBlockWrite w o s
    | 6 => hbmBlockWrite w o s
    | _ => gfBlockWrite w o s
  else if off < 0xC000 then stdBlockWrite ((off - 0x8000) / 0x1000) w o s
  else if 0x10000 ≤ off ∧ off < 0x21000 then cqBlockWrite (Fin.ofNat 17 ((off - 0x10000) / 0x1000)) w o s
  else if 0x100000 ≤ off ∧ off < 0x300000 then groveBlockWrite (BitVec.ofNat 8 ((off - 0x100000) / 0x2000)) w (off % 0x2000) s
  else if 0x400000 ≤ off ∧ off < 0xC00000 then coreBlockWrite (BitVec.ofNat 12 ((off - 0x400000) / 0x800)) w (off % 0x800) s
  else ignoreWrite s w

/-- R555: a write that is not of 4 or 8 aligned bytes is rejected. -/
def badAccess (s : State) (w off : Nat) : State :=
  if !byLookout w && !fnServes s w then s else reject (hostAccess s w) (writerBlk w) 4 w off

/-- REGISTER_WRITE (R554 to R559). -/
def doRegisterWrite (writer : BitVec 5) (offset : BitVec 26) (size : Nat) (value : Word) (s : State) : State :=
  let off := offset.toNat
  if size = 8 ∧ off % 8 = 0 then writeAt ⟨writer, .full, value⟩ off s
  else if size = 4 ∧ off % 4 = 0 then writeAt ⟨writer, if off % 8 = 0 then .low else .high, value⟩ (off / 8 * 8) s
  else badAccess s writer.toNat off

/-! ### Meaning -/

def execRegisterWrite (writer : BitVec 5) (offset : BitVec 26) (size : Nat) (value : Word) (s : State) : Out :=
  .next (doRegisterWrite writer offset size value s)

end Sys2Proof.Machine
end

