-- ==== Sys2Proof/Machine/Dispatch.lean ====
section
/-! DEFINITION. What each command does to everything but the queue: one meaning per constructor. -/

namespace Sys2Proof.Machine

def exec (i : Instr) (s : State) : Host.Outcome State Fault Refusal :=
  match i with
  | .add l c b => Sys2Proof.Machine.execAdd l c b s
  | .sub l c b => Sys2Proof.Machine.execSub l c b s
  | .mul l c b => Sys2Proof.Machine.execMul l c b s
  | .mulhs l c b => Sys2Proof.Machine.execMulhs l c b s
  | .mulhu l c b => Sys2Proof.Machine.execMulhu l c b s
  | .andR l c b => Sys2Proof.Machine.execAndR l c b s
  | .orR l c b => Sys2Proof.Machine.execOrR l c b s
  | .xorR l c b => Sys2Proof.Machine.execXorR l c b s
  | .shl l c b => Sys2Proof.Machine.execShl l c b s
  | .shrl l c b => Sys2Proof.Machine.execShrl l c b s
  | .shra l c b => Sys2Proof.Machine.execShra l c b s
  | .mins l c b => Sys2Proof.Machine.execMins l c b s
  | .maxs l c b => Sys2Proof.Machine.execMaxs l c b s
  | .minu l c b => Sys2Proof.Machine.execMinu l c b s
  | .maxu l c b => Sys2Proof.Machine.execMaxu l c b s
  | .addi l c b => Sys2Proof.Machine.execAddi l c b s
  | .andi l c b => Sys2Proof.Machine.execAndi l c b s
  | .ori l c b => Sys2Proof.Machine.execOri l c b s
  | .xori l c b => Sys2Proof.Machine.execXori l c b s
  | .shli l c b => Sys2Proof.Machine.execShli l c b s
  | .shrli l c b => Sys2Proof.Machine.execShrli l c b s
  | .shrai l c b => Sys2Proof.Machine.execShrai l c b s
  | .li l c b => Sys2Proof.Machine.execLi l c b s
  | .lih l c b => Sys2Proof.Machine.execLih l c b s
  | .ceq l c b => Sys2Proof.Machine.execCeq l c b s
  | .cne l c b => Sys2Proof.Machine.execCne l c b s
  | .clt l c b => Sys2Proof.Machine.execClt l c b s
  | .cle l c b => Sys2Proof.Machine.execCle l c b s
  | .cltu l c b => Sys2Proof.Machine.execCltu l c b s
  | .cleu l c b => Sys2Proof.Machine.execCleu l c b s
  | .ceqi l c b => Sys2Proof.Machine.execCeqi l c b s
  | .cnei l c b => Sys2Proof.Machine.execCnei l c b s
  | .clti l c b => Sys2Proof.Machine.execClti l c b s
  | .clei l c b => Sys2Proof.Machine.execClei l c b s
  | .cltui l c b => Sys2Proof.Machine.execCltui l c b s
  | .cleui l c b => Sys2Proof.Machine.execCleui l c b s
  | .pand l c b => Sys2Proof.Machine.execPand l c b s
  | .por l c b => Sys2Proof.Machine.execPor l c b s
  | .pxor l c b => Sys2Proof.Machine.execPxor l c b s
  | .br l c b => Sys2Proof.Machine.execBr l c b s
  | .bl l c b => Sys2Proof.Machine.execBl l c b s
  | .bri l c b => Sys2Proof.Machine.execBri l c b s
  | .bli l c b => Sys2Proof.Machine.execBli l c b s
  | .ldb l c b => Sys2Proof.Machine.execLdb l c b s
  | .ldh l c b => Sys2Proof.Machine.execLdh l c b s
  | .ldw l c b => Sys2Proof.Machine.execLdw l c b s
  | .ldd l c b => Sys2Proof.Machine.execLdd l c b s
  | .ldbs l c b => Sys2Proof.Machine.execLdbs l c b s
  | .ldhs l c b => Sys2Proof.Machine.execLdhs l c b s
  | .ldws l c b => Sys2Proof.Machine.execLdws l c b s
  | .stb l c b => Sys2Proof.Machine.execStb l c b s
  | .sth l c b => Sys2Proof.Machine.execSth l c b s
  | .stw l c b => Sys2Proof.Machine.execStw l c b s
  | .std l c b => Sys2Proof.Machine.execStd l c b s
  | .ffence l c b => Sys2Proof.Machine.execFfence l c b s
  | .mclaim l c b => Sys2Proof.Machine.execMclaim l c b s
  | .mrel l c b => Sys2Proof.Machine.execMrel l c b s
  | .tdld l c b => Sys2Proof.Machine.execTdld l c b s
  | .mzero l c b => Sys2Proof.Machine.execMzero l c b s
  | .mma l c b => Sys2Proof.Machine.execMma l c b s
  | .mwait l c b => Sys2Proof.Machine.execMwait l c b s
  | .millOpComplete l => Sys2Proof.Machine.execMillOpComplete l s
  | .millOpFault l src => Sys2Proof.Machine.execMillOpFault l src s
  | .veAdd l c b => Sys2Proof.Machine.execVeAdd l c b s
  | .veSub l c b => Sys2Proof.Machine.execVeSub l c b s
  | .veMul l c b => Sys2Proof.Machine.execVeMul l c b s
  | .veMad l c b => Sys2Proof.Machine.execVeMad l c b s
  | .veNeg l c b => Sys2Proof.Machine.execVeNeg l c b s
  | .veAbs l c b => Sys2Proof.Machine.execVeAbs l c b s
  | .veMax l c b => Sys2Proof.Machine.execVeMax l c b s
  | .veMin l c b => Sys2Proof.Machine.execVeMin l c b s
  | .veScl l c b => Sys2Proof.Machine.execVeScl l c b s
  | .veEq l c b => Sys2Proof.Machine.execVeEq l c b s
  | .veNe l c b => Sys2Proof.Machine.execVeNe l c b s
  | .veLt l c b => Sys2Proof.Machine.execVeLt l c b s
  | .veLe l c b => Sys2Proof.Machine.execVeLe l c b s
  | .veGt l c b => Sys2Proof.Machine.execVeGt l c b s
  | .veGe l c b => Sys2Proof.Machine.execVeGe l c b s
  | .veSel l c b => Sys2Proof.Machine.execVeSel l c b s
  | .veAnd l c b => Sys2Proof.Machine.execVeAnd l c b s
  | .veOr l c b => Sys2Proof.Machine.execVeOr l c b s
  | .veXor l c b => Sys2Proof.Machine.execVeXor l c b s
  | .veNot l c b => Sys2Proof.Machine.execVeNot l c b s
  | .veShl l c b => Sys2Proof.Machine.execVeShl l c b s
  | .veShrl l c b => Sys2Proof.Machine.execVeShrl l c b s
  | .veShra l c b => Sys2Proof.Machine.execVeShra l c b s
  | .veCvt l c b => Sys2Proof.Machine.execVeCvt l c b s
  | .veShf l c b => Sys2Proof.Machine.execVeShf l c b s
  | .veScan l c b => Sys2Proof.Machine.execVeScan l c b s
  | .veSscan l c b => Sys2Proof.Machine.execVeSscan l c b s
  | .veRed l c b => Sys2Proof.Machine.execVeRed l c b s
  | .veFn l c b => Sys2Proof.Machine.execVeFn l c b s
  | .vwait l c b => Sys2Proof.Machine.execVwait l c b s
  | .veOpComplete l => Sys2Proof.Machine.execVeOpComplete l s
  | .veOpFault l src => Sys2Proof.Machine.execVeOpFault l src s
  | .qrd l c b => Sys2Proof.Machine.execQrd l c b s
  | .qput l c b => Sys2Proof.Machine.execQput l c b s
  | .qtest l c b => Sys2Proof.Machine.execQtest l c b s
  | .qcfg l c b => Sys2Proof.Machine.execQcfg l c b s
  | .send l c b => Sys2Proof.Machine.execSend l c b s
  | .msgrel l c b => Sys2Proof.Machine.execMsgrel l c b s
  | .haul l c b => Sys2Proof.Machine.execHaul l c b s
  | .haull l c b => Sys2Proof.Machine.execHaull l c b s
  | .bropen l c b => Sys2Proof.Machine.execBropen l c b s
  | .brhash l c b => Sys2Proof.Machine.execBrhash l c b s
  | .brseal l c b => Sys2Proof.Machine.execBrseal l c b s
  | .brandHashComplete l remote => Sys2Proof.Machine.execBrandHashComplete l remote s
  | .brandSealComplete l => Sys2Proof.Machine.execBrandSealComplete l s
  | .sadd l c b => Sys2Proof.Machine.execSadd l c b s
  | .sarrive l c b => Sys2Proof.Machine.execSarrive l c b s
  | .sset l c b => Sys2Proof.Machine.execSset l c b s
  | .sclr l c b => Sys2Proof.Machine.execSclr l c b s
  | .swait l c b => Sys2Proof.Machine.execSwait l c b s
  | .sacq l c b => Sys2Proof.Machine.execSacq l c b s
  | .srel l c b => Sys2Proof.Machine.execSrel l c b s
  | .srd l c b => Sys2Proof.Machine.execSrd l c b s
  | .ctxEnd l c b => Sys2Proof.Machine.execCtxEnd l c b s
  | .park l c b => Sys2Proof.Machine.execPark l c b s
  | .wake l c b => Sys2Proof.Machine.execWake l c b s
  | .resume l c b => Sys2Proof.Machine.execResume l c b s
  | .cfree l c b => Sys2Proof.Machine.execCfree l c b s
  | .sleep l c b => Sys2Proof.Machine.execSleep l c b s
  | .srseed l c b => Sys2Proof.Machine.execSrseed l c b s
  | .ring l c b => Sys2Proof.Machine.execRing l c b s
  | .ringComplete l c => Sys2Proof.Machine.execRingComplete l c s
  | .qry l c b => Sys2Proof.Machine.execQry l c b s
  | .nsrd l c b => Sys2Proof.Machine.execNsrd l c b s
  | .tlrd l c b => Sys2Proof.Machine.execTlrd l c b s
  | .tlclr l c b => Sys2Proof.Machine.execTlclr l c b s
  | .distrd l c b => Sys2Proof.Machine.execDistrd l c b s
  | .faultNoticeStart l => Sys2Proof.Machine.execFaultNoticeStart l s
  | .messageInject l => Sys2Proof.Machine.execMessageInject l s
  | .messageArrival dg => Sys2Proof.Machine.execMessageArrival dg s
  | .messageStart l => Sys2Proof.Machine.execMessageStart l s
  | .heldMessagePlaced l => Sys2Proof.Machine.execHeldMessagePlaced l s
  | .arrTmoExpiry l => Sys2Proof.Machine.execArrTmoExpiry l s
  | .boomRoundRelease l qn => Sys2Proof.Machine.execBoomRoundRelease l qn s
  | .haulPacketInject l op part => Sys2Proof.Machine.execHaulPacketInject l op part s
  | .packetForward x y out => Sys2Proof.Machine.execPacketForward x y out s
  | .rdReq e => Sys2Proof.Machine.execRdReq e s
  | .wrReq e => Sys2Proof.Machine.execWrReq e s
  | .rdRsp e => Sys2Proof.Machine.execRdRsp e s
  | .wrAck e => Sys2Proof.Machine.execWrAck e s
  | .compl e => Sys2Proof.Machine.execCompl e s
  | .syncOp dg => Sys2Proof.Machine.execSyncOp dg s
  | .syncAns e => Sys2Proof.Machine.execSyncAns e s
  | .syncRepresent l c => Sys2Proof.Machine.execSyncRepresent l c s
  | .syncWaitTimeout l c => Sys2Proof.Machine.execSyncWaitTimeout l c s
  | .syncCancel dg => Sys2Proof.Machine.execSyncCancel dg s
  | .qrdTimeout l c => Sys2Proof.Machine.execQrdTimeout l c s
  | .parkTimerExpiry l c => Sys2Proof.Machine.execParkTimerExpiry l c s
  | .sleepExpiry l c => Sys2Proof.Machine.execSleepExpiry l c s
  | .remoteTmoExpiry l o => Sys2Proof.Machine.execRemoteTmoExpiry l o s
  | .remoteLostComplete l o => Sys2Proof.Machine.execRemoteLostComplete l o s
  | .mcastWr dg => Sys2Proof.Machine.execMcastWr dg s
  | .mgt e => Sys2Proof.Machine.execMgt e s
  | .redPacket dg => Sys2Proof.Machine.execRedPacket dg s
  | .redCredit dg => Sys2Proof.Machine.execRedCredit dg s
  | .reductionArm image => Sys2Proof.Machine.execReductionArm image s
  | .detourResend f => Sys2Proof.Machine.execDetourResend f s
  | .channelWordDeliver l d => Sys2Proof.Machine.execChannelWordDeliver l d s
  | .timeTick => Sys2Proof.Machine.execTimeTick s
  | .ppsEdge offset => Sys2Proof.Machine.execPpsEdge offset s
  | .ptpSync domain offset => Sys2Proof.Machine.execPtpSync domain offset s
  | .holdover => Sys2Proof.Machine.execHoldover s
  | .paceTimeSet w => Sys2Proof.Machine.execPaceTimeSet w s
  | .governorInterval r => Sys2Proof.Machine.execGovernorInterval r s
  | .thermalTrip region temp => Sys2Proof.Machine.execThermalTrip region temp s
  | .regionRecalibration region trim temp => Sys2Proof.Machine.execRegionRecalibration region trim temp s
  | .paceRecal w => Sys2Proof.Machine.execPaceRecal w s
  | .scrubStep l upsets => Sys2Proof.Machine.execScrubStep l upsets s
  | .ctxHold l w => Sys2Proof.Machine.execCtxHold l w s
  | .ctxRelease l w => Sys2Proof.Machine.execCtxRelease l w s
  | .ctxFree l w => Sys2Proof.Machine.execCtxFree l w s
  | .ctxStart l w => Sys2Proof.Machine.execCtxStart l w s
  | .freeAll l w => Sys2Proof.Machine.execFreeAll l w s
  | .holdAll l w => Sys2Proof.Machine.execHoldAll l w s
  | .coreRoleWrite l w => Sys2Proof.Machine.execCoreRoleWrite l w s
  | .syncCfgWrite dg n w => Sys2Proof.Machine.execSyncCfgWrite dg n w s
  | .linkRegisterWrite l inbound d w => Sys2Proof.Machine.execLinkRegisterWrite l inbound d w s
  | .registerWrite writer offset size value => Sys2Proof.Machine.execRegisterWrite writer offset size value s
  | .routingEntryWrite multicast w => Sys2Proof.Machine.execRoutingEntryWrite multicast w s
  | .bankSwap w => Sys2Proof.Machine.execBankSwap w s
  | .didHold x w => Sys2Proof.Machine.execDidHold x w s
  | .shaperRateWrite w => Sys2Proof.Machine.execShaperRateWrite w s
  | .shaperReset w => Sys2Proof.Machine.execShaperReset w s
  | .shaperSend port part => Sys2Proof.Machine.execShaperSend port part s
  | .shaperFrozenTimeout port part => Sys2Proof.Machine.execShaperFrozenTimeout port part s
  | .congestionSample bytes => Sys2Proof.Machine.execCongestionSample bytes s
  | .laneRetrain port w trained => Sys2Proof.Machine.execLaneRetrain port w trained s
  | .dataFlit port f => Sys2Proof.Machine.execDataFlit port f s
  | .ident port did valid peerPort => Sys2Proof.Machine.execIdent port did valid peerPort s
  | .laneMap port logical physical seq => Sys2Proof.Machine.execLaneMap port logical physical seq s
  | .retrain port byPeer => Sys2Proof.Machine.execRetrain port byPeer s
  | .ackTimeout port => Sys2Proof.Machine.execAckTimeout port s
  | .trainingAttemptEnd port trained => Sys2Proof.Machine.execTrainingAttemptEnd port trained s
  | .portTrainingRetry => Sys2Proof.Machine.execPortTrainingRetry s
  | .fabricPacket src => Sys2Proof.Machine.execFabricPacket src s
  | .hbmAccess t upsets => Sys2Proof.Machine.execHbmAccess t upsets s
  | .patrolScrub t first granules upsets => Sys2Proof.Machine.execPatrolScrub t first granules upsets s
  | .rangeCreation n w => Sys2Proof.Machine.execRangeCreation n w s
  | .rangeRemoval n w => Sys2Proof.Machine.execRangeRemoval n w s
  | .rangeGrowth n w => Sys2Proof.Machine.execRangeGrowth n w s
  | .rangeFillComplete n => Sys2Proof.Machine.execRangeFillComplete n s
  | .sqTailDoorbell f off v => Sys2Proof.Machine.execSqTailDoorbell f off v s
  | .cqHeadDoorbell f off v => Sys2Proof.Machine.execCqHeadDoorbell f off v s
  | .commandFetch f q words => Sys2Proof.Machine.execCommandFetch f q words s
  | .createQp r => Sys2Proof.Machine.execCreateQp r s
  | .deleteQp r => Sys2Proof.Machine.execDeleteQp r s
  | .identify r => Sys2Proof.Machine.execIdentify r s
  | .dmaToDev r d => Sys2Proof.Machine.execDmaToDev r d s
  | .dmaFromDev r d => Sys2Proof.Machine.execDmaFromDev r d s
  | .hostMsg r d => Sys2Proof.Machine.execHostMsg r d s
  | .hostLoad r d => Sys2Proof.Machine.execHostLoad r d s
  | .hostUnload r => Sys2Proof.Machine.execHostUnload r s
  | .collDefine r d => Sys2Proof.Machine.execCollDefine r d s
  | .collDelete r => Sys2Proof.Machine.execCollDelete r s
  | .collectiveExchange part coll x => Sys2Proof.Machine.execCollectiveExchange part coll x s
  | .ckptAttach r => Sys2Proof.Machine.execCkptAttach r s
  | .ckptDetach r => Sys2Proof.Machine.execCkptDetach r s
  | .ckptWrite r => Sys2Proof.Machine.execCkptWrite r s
  | .ckptRead r => Sys2Proof.Machine.execCkptRead r s
  | .nvmeCompletion f slot nvmeId sf data => Sys2Proof.Machine.execNvmeCompletion f slot nvmeId sf data s
  | .nvmeTimeout f slot nvmeId => Sys2Proof.Machine.execNvmeTimeout f slot nvmeId s
  | .telem r => Sys2Proof.Machine.execTelem r s
  | .telemetryInterval => Sys2Proof.Machine.execTelemetryInterval s
  | .hostCommandComplete r => Sys2Proof.Machine.execHostCommandComplete r s
  | .cqEnable f w => Sys2Proof.Machine.execCqEnable f w s
  | .hostWindowRead f off len => Sys2Proof.Machine.execHostWindowRead f off len s
  | .hostWindowWrite f off data => Sys2Proof.Machine.execHostWindowWrite f off data s
  | .flr f => Sys2Proof.Machine.execFlr f s
  | .msixUnmask f v => Sys2Proof.Machine.execMsixUnmask f v s
  | .getMeasurements index sign nonce sess => Sys2Proof.Machine.execGetMeasurements index sign nonce sess s
  | .keyExchange path req ok => Sys2Proof.Machine.execKeyExchange path req ok s
  | .ideKm stream sess op => Sys2Proof.Machine.execIdeKm stream sess op s
  | .lockInterface vf => Sys2Proof.Machine.execLockInterface vf s
  | .startInterface vf => Sys2Proof.Machine.execStartInterface vf s
  | .stopInterface vf => Sys2Proof.Machine.execStopInterface vf s
  | .getDeviceInterfaceReport vf => Sys2Proof.Machine.execGetDeviceInterfaceReport vf s
  | .deploy tok => Sys2Proof.Machine.execDeploy tok s
  | .enterService tok => Sys2Proof.Machine.execEnterService tok s
  | .exitService tok => Sys2Proof.Machine.execExitService tok s
  | .retire tok => Sys2Proof.Machine.execRetire tok s
  | .commit w => Sys2Proof.Machine.execCommit w s
  | .ownerChainWrite chain => Sys2Proof.Machine.execOwnerChainWrite chain s
  | .firmwareUpdate overSmbus warden lookout => Sys2Proof.Machine.execFirmwareUpdate overSmbus warden lookout s
  | .activateFirmware a => Sys2Proof.Machine.execActivateFirmware a s
  | .handoffFallback restarted => Sys2Proof.Machine.execHandoffFallback restarted s
  | .residentImageRoll dg => Sys2Proof.Machine.execResidentImageRoll dg s
  | .pwrOkRise x => Sys2Proof.Machine.execPwrOkRise x s
  | .pwrOkFall => Sys2Proof.Machine.execPwrOkFall s
  | .devRstNFall heldUs => Sys2Proof.Machine.execDevRstNFall heldUs s
  | .devRstNRise x => Sys2Proof.Machine.execDevRstNRise x s
  | .pcieReset cause => Sys2Proof.Machine.execPcieReset cause s
  | .perstNRise => Sys2Proof.Machine.execPerstNRise s
  | .railLoss rail lostUs => Sys2Proof.Machine.execRailLoss rail lostUs s
  | .refclkLoss => Sys2Proof.Machine.execRefclkLoss s
  | .refclkReturn x => Sys2Proof.Machine.execRefclkReturn x s
  | .mclk25Loss => Sys2Proof.Machine.execMclk25Loss s
  | .assignmentDeadline x => Sys2Proof.Machine.execAssignmentDeadline x s
  | .wardenWatchdog x => Sys2Proof.Machine.execWardenWatchdog x s
  | .dormant src => Sys2Proof.Machine.execDormant src s
  | .dormantQuietTimeout => Sys2Proof.Machine.execDormantQuietTimeout s
  | .dormantTimerExpiry => Sys2Proof.Machine.execDormantTimerExpiry s
  | .wakeFromDormant lastUs upsets => Sys2Proof.Machine.execWakeFromDormant lastUs upsets s
  | .report => Sys2Proof.Machine.execReport s
  | .recordClose ix seq => Sys2Proof.Machine.execRecordClose ix seq s
  | .errHeadWrite ix w => Sys2Proof.Machine.execErrHeadWrite ix w s
  | .faultAgentAction ix seq => Sys2Proof.Machine.execFaultAgentAction ix seq s
  | .snagRecord members => Sys2Proof.Machine.execSnagRecord members s
  | .kakSweep psid runs => Sys2Proof.Machine.execKakSweep psid runs s
  | .twinMismatch l runs => Sys2Proof.Machine.execTwinMismatch l runs s
  | .mgmtAssign m x => Sys2Proof.Machine.execMgmtAssign m x s
  | .mgmtAck m => Sys2Proof.Machine.execMgmtAck m s
  | .mgmtBlaze m => Sys2Proof.Machine.execMgmtBlaze m s
  | .mgmtRetirePort m => Sys2Proof.Machine.execMgmtRetirePort m s
  | .mgmtCheck m runs segments => Sys2Proof.Machine.execMgmtCheck m runs segments s
  | .mgmtReset m x => Sys2Proof.Machine.execMgmtReset m x s
  | .mgmtRtWrite m => Sys2Proof.Machine.execMgmtRtWrite m s
  | .mgmtHold m => Sys2Proof.Machine.execMgmtHold m s
  | .mgmtSwap m => Sys2Proof.Machine.execMgmtSwap m s
  | .mgmtRelease m => Sys2Proof.Machine.execMgmtRelease m s
  | .mgmtWake m => Sys2Proof.Machine.execMgmtWake m s
  | .mgmtStatus m => Sys2Proof.Machine.execMgmtStatus m s
  | .mgmtReadLog m => Sys2Proof.Machine.execMgmtReadLog m s
  | .groveRelease dg w => Sys2Proof.Machine.execGroveRelease dg w s
  | .groveJoin dg w => Sys2Proof.Machine.execGroveJoin dg w s
  | .sanitiseComplete dg => Sys2Proof.Machine.execSanitiseComplete dg s
  | .coreInternalFault l engine => Sys2Proof.Machine.execCoreInternalFault l engine s
  | .undefinedOpcode l c word => Sys2Proof.Machine.execUndefinedOpcode l c word s
  | .mgmtUndefined opc m => Sys2Proof.Machine.execMgmtUndefined opc m s
  | .trngHealthTest pass => Sys2Proof.Machine.execTrngHealthTest pass s
  | .pcieLinkTrained gts width => Sys2Proof.Machine.execPcieLinkTrained gts width s
  | .mclk25Start x => Sys2Proof.Machine.execMclk25Start x s
  | .checkingHoldTimeout l => Sys2Proof.Machine.execCheckingHoldTimeout l s
  | .activationExchangeTimeout => Sys2Proof.Machine.execActivationExchangeTimeout s

end Sys2Proof.Machine
end

