-- ==== Sys2Proof/WellFormed.lean ====
section
/-! DEFINITION. Which commands are well formed: operands that the spec or the type of what they stand for admits. A meaning does not
rely on it; it says which terms stand for something that can happen. -/

namespace Sys2Proof

/-- A register writer of Table 22.3: PF0, VF1 to VF16, or the Lookout. -/
def Wr.wf (w : Wr) : Bool := decide (w.writer.toNat ≤ 16) || w.writer == 31

/-- A write of CORE_CTX_CMD with a command code (Table 06.12). -/
def Wr.isCmd (w : Wr) (code : Nat) : Bool := w.wf && w.half != .high && w.value.toNat % 8 == code

/-- A flit of 256 bytes over 18 physical lanes (R322, R325). -/
def Flit.wf (f : Flit) : Bool :=
  f.data.length == 244 && (f.fec.all fun c => decide (c.lane.toNat < 18)) && f.bad.all fun i => decide (i < 244)

/-- Readings of 64 regions, 4 AVSBus rails and 4 stacks (R61, R540). -/
def GovReadings.wf (r : GovReadings) : Bool :=
  r.temps.length == 64 && r.paces.length == 64 && r.avsOk.length == 4 && r.hbmTemps.length == 4 && r.amps.length == 4 &&
    r.steps.length == 64

/-- What a Cruise meets: three copies of each fuse word, four stacks, sixteen ports, 64 regions (R428 to R433). -/
def CruiseIn.wf (i : CruiseIn) : Bool :=
  i.fuses.all (fun f => f.copies.length == 3) && i.hbmOk.length == 4 && i.ports.length == 16 && i.trims.length == 64

/-- A load's descriptor is 96 bytes, if the host returned it (Table 14.7). -/
def LoadData.wf (d : LoadData) : Bool := d.unreadable || d.desc.length == 12

/-- An owner token as delivered: 280 bytes through the mailbox or in one message (R403). -/
def TokenSrc.wf : TokenSrc → Bool
  | .mailbox w => w.wf
  | .mctp bs => bs.length == 280

/-- A Dormant request (R444). -/
def DormantSrc.wf : DormantSrc → Bool
  | .reg w => w.wf
  | .cmd _ => true

/-- Well-formed commands. -/
def Instr.wf : Instr → Bool
  | .millOpFault _ src => match src with | .residue _ col _ => decide (col.toNat ≤ 32) | .poison | .accWord .. | .accFixed .. | .accSaved .. => true
  | .veOpFault _ src => match src with | .lane n _ _ => decide (n.toNat ≤ 65) | .poison | .accWord .. => true
  | .registerWrite w _ _ _ => decide (w.toNat ≤ 16) || w == 31
  | .governorInterval r => r.wf
  | .dataFlit _ f => f.wf
  | .laneMap _ _ p _ => decide (p.toNat < 18)
  | .commandFetch _ _ ws => ws.length == 8
  | .hostLoad _ d => d.wf
  | .snagRecord ms => decide (2 ≤ ms.length)
  | .pwrOkRise i | .devRstNRise i | .refclkReturn i | .wardenWatchdog i | .mclk25Start i => i.wf
  | .mgmtReset _ i => i.wf
  | .msixUnmask f v => f.val == 0 || decide (v.toNat < 160)
  | .ctxHold _ w => w.isCmd 1
  | .ctxRelease _ w => w.isCmd 2
  | .ctxFree _ w => w.isCmd 3
  | .ctxStart _ w => w.isCmd 4
  | .freeAll _ w => w.isCmd 5
  | .holdAll _ w | .coreRoleWrite _ w => w.wf
  | .syncCfgWrite _ _ w => w.wf
  | .linkRegisterWrite _ _ _ w => w.wf
  | .paceTimeSet w | .paceRecal w | .bankSwap w | .shaperRateWrite w | .shaperReset w | .commit w => w.wf
  | .routingEntryWrite _ w => w.wf
  | .didHold _ w => w.wf
  | .laneRetrain _ w _ => w.wf
  | .rangeCreation _ w | .rangeRemoval _ w | .rangeGrowth _ w | .errHeadWrite _ w | .groveRelease _ w | .groveJoin _ w => w.wf
  | .cqEnable _ w => w.wf
  | .deploy t | .enterService t | .exitService t | .retire t => t.wf
  | .dormant d => d.wf
  | .getMeasurements _ sign nonce _ => !sign || nonce.length == 32
  | .undefinedOpcode .. => true
  | .add .. | .sub .. | .mul .. | .mulhs .. | .mulhu .. | .andR .. | .orR .. | .xorR .. | .shl .. | .shrl .. | .shra ..
  | .mins .. | .maxs .. | .minu .. | .maxu .. | .addi .. | .andi .. | .ori .. | .xori .. | .shli .. | .shrli .. | .shrai ..
  | .li .. | .lih .. | .ceq .. | .cne .. | .clt .. | .cle .. | .cltu .. | .cleu .. | .ceqi .. | .cnei .. | .clti .. | .clei ..
  | .cltui .. | .cleui .. | .pand .. | .por .. | .pxor .. | .br .. | .bl .. | .bri .. | .bli .. | .ldb .. | .ldh .. | .ldw ..
  | .ldd .. | .ldbs .. | .ldhs .. | .ldws .. | .stb .. | .sth .. | .stw .. | .std .. | .ffence .. | .mclaim .. | .mrel ..
  | .tdld .. | .mzero .. | .mma .. | .mwait .. | .millOpComplete .. | .veAdd .. | .veSub .. | .veMul .. | .veMad .. | .veNeg ..
  | .veAbs .. | .veMax .. | .veMin .. | .veScl .. | .veEq .. | .veNe .. | .veLt .. | .veLe .. | .veGt .. | .veGe .. | .veSel ..
  | .veAnd .. | .veOr .. | .veXor .. | .veNot .. | .veShl .. | .veShrl .. | .veShra .. | .veCvt .. | .veShf .. | .veScan ..
  | .veSscan .. | .veRed .. | .veFn .. | .vwait .. | .veOpComplete .. | .qrd .. | .qput .. | .qtest .. | .qcfg .. | .send ..
  | .msgrel .. | .haul .. | .haull .. | .bropen .. | .brhash .. | .brseal .. | .brandHashComplete .. | .brandSealComplete ..
  | .sadd .. | .sarrive .. | .sset .. | .sclr .. | .swait .. | .sacq .. | .srel .. | .srd .. | .ctxEnd .. | .park .. | .wake ..
  | .resume .. | .cfree .. | .sleep .. | .srseed .. | .ring .. | .ringComplete .. | .qry .. | .nsrd .. | .tlrd .. | .tlclr ..
  | .distrd .. | .faultNoticeStart .. | .messageInject .. | .messageArrival .. | .messageStart .. | .heldMessagePlaced ..
  | .arrTmoExpiry .. | .boomRoundRelease .. | .haulPacketInject .. | .packetForward .. | .rdReq .. | .wrReq .. | .rdRsp ..
  | .wrAck .. | .compl .. | .syncOp .. | .syncAns .. | .syncRepresent .. | .syncWaitTimeout .. | .syncCancel ..
  | .qrdTimeout .. | .parkTimerExpiry .. | .sleepExpiry .. | .remoteTmoExpiry .. | .remoteLostComplete .. | .mcastWr ..
  | .mgt .. | .redPacket .. | .redCredit .. | .reductionArm .. | .congestionSample .. | .detourResend .. | .channelWordDeliver .. | .timeTick ..
  | .ppsEdge .. | .ptpSync .. | .holdover .. | .thermalTrip .. | .regionRecalibration .. | .scrubStep .. | .shaperSend ..
  | .shaperFrozenTimeout .. | .ident .. | .retrain .. | .ackTimeout .. | .trainingAttemptEnd .. | .portTrainingRetry ..
  | .fabricPacket .. | .hbmAccess .. | .patrolScrub .. | .rangeFillComplete .. | .sqTailDoorbell .. | .cqHeadDoorbell ..
  | .createQp .. | .deleteQp .. | .identify .. | .dmaToDev .. | .dmaFromDev .. | .hostMsg .. | .hostUnload .. | .collDefine ..
  | .collDelete .. | .collectiveExchange .. | .ckptAttach .. | .ckptDetach .. | .ckptWrite .. | .ckptRead ..
  | .nvmeCompletion .. | .nvmeTimeout .. | .telem .. | .telemetryInterval | .hostCommandComplete .. | .hostWindowRead ..
  | .hostWindowWrite .. | .flr .. | .keyExchange .. | .ideKm .. | .lockInterface .. | .startInterface .. | .stopInterface ..
  | .getDeviceInterfaceReport .. | .ownerChainWrite .. | .firmwareUpdate .. | .activateFirmware .. | .handoffFallback ..
  | .residentImageRoll .. | .pwrOkFall .. | .devRstNFall .. | .pcieReset .. | .perstNRise .. | .railLoss .. | .refclkLoss ..
  | .mclk25Loss .. | .assignmentDeadline .. | .dormantQuietTimeout .. | .dormantTimerExpiry .. | .wakeFromDormant ..
  | .report .. | .recordClose .. | .faultAgentAction .. | .twinMismatch .. | .kakSweep .. | .mgmtAssign .. | .mgmtAck .. | .mgmtBlaze ..
  | .mgmtRetirePort .. | .mgmtCheck .. | .mgmtRtWrite .. | .mgmtHold .. | .mgmtSwap .. | .mgmtRelease .. | .mgmtWake ..
  | .mgmtStatus .. | .mgmtReadLog .. | .sanitiseComplete .. | .coreInternalFault .. | .mgmtUndefined .. | .trngHealthTest ..
  | .pcieLinkTrained .. | .checkingHoldTimeout .. | .activationExchangeTimeout .. => true

end Sys2Proof
end

