-- ==== Sys2Proof/Safety.lean ====
section
/-! DEFINITION. What counts as a safe step, in the terms that statements use: a command answers a next state; a context may
issue an instruction; and the frames, which say what of the state is as before. -/

namespace Sys2Proof

open Machine

/-- A step of `s` answers a next state that satisfies `P`. -/
def stepGives (s : State) (P : State → Prop) : Prop := ∃ t, step s = .next t ∧ P t

/-- The command answers a next state, and `P` holds of it. -/
def answers (i : Instr) (s : State) (P : State → Prop) : Prop := ∃ t, exec i s = .next t ∧ P t

/-- R163, R165, R188, R190: the context may issue, its fetch meets no poison, the word holds no reserved value (`enc`), the
guard holds, and the queue that the instruction enters has room. -/
def issues (s : State) (l : Lcid) (c : CtxNo) (b : BitVec 54) (enc : Bool) (room : Core → Bool) : Prop :=
  mayIssue s l c = true ∧ fetchPoisoned s l c = false ∧ enc = true ∧ guardHolds (ctxOf s l c) b = true ∧
    room (getCore s l) = true

/-- The context after an instruction that completes: changed by `f`, its pc at the next word, the slot of the instruction
fetched (R161). -/
def completed (x : Ctx) (f : Ctx → Ctx) : Ctx :=
  { f x with pc := x.pc + 8, slot := some (x.pc.toNat / 128), deadline := none }

/-- All of a core but its contexts. -/
def coreRest (k : Core) : Core := { k with ctxs := [] }

/-- All of the state but its cores. -/
def stateRest (s : State) : State := { s with cores := [] }

/-- The frame of an instruction that changes its own context, into `x`, and the rest of its core, into that of `k`: every other
context and core, and all the rest of the state, are as before. -/
def onlyCore (s t : State) (l : Lcid) (c : CtxNo) (x : Ctx) (k : Core) : Prop :=
  ctxOf t l c = x ∧ (∀ c', c' ≠ c → ctxOf t l c' = ctxOf s l c') ∧ coreRest (getCore t l) = coreRest k ∧
    (∀ l', l' ≠ l → getCore t l' = getCore s l') ∧ stateRest t = stateRest s

/-- The frame of an instruction that changes nothing but its own context, into `x`. -/
def onlyCtx (s t : State) (l : Lcid) (c : CtxNo) (x : Ctx) : Prop := onlyCore s t l c x (getCore s l)

/-- R379: a host command has its outcome, and the commands of its function are otherwise as before. -/
def ended (s t : State) (r : CmdRef) (c : HostCmd) (st : Status) (res : Word) : Prop :=
  (getFn t r.f.val).cmds = (getFn s r.f.val).cmds.map fun d => if d.seq = c.seq then { d with begun := true, fin := some (st, res) } else d

/-- R466 to R470: a fault-manager command of an OPC that is accepted: the interfaces answer, its header holds nothing reserved and comes within a
secured session, and its token names no entry. -/
def accepted (s : State) (m : Mgmt) (opc : Nat) (bad : Bool) : Prop :=
  lookoutUp s = true ∧ mgmtOpc m = opc ∧ mgmtRsvd m = false ∧ m.step ≠ 0 ∧ bad = false ∧ hasSession s m.sess = true ∧
    ∀ t ∈ s.errs.tokens, t.step ≠ m.step

/-- The state with the accepted command's entry open (R469). -/
def opened (s : State) (m : Mgmt) (opc : Nat) : State :=
  openToken { s with errs := { s.errs with tokens := freshTokens s } } m (BitVec.ofNat 8 opc)

/-- The response of a fault-manager command is sent (Table 17.7). -/
def responded (s t : State) (m : Mgmt) (st : Status) (ws : List Word) : Prop :=
  t.errs.answers = s.errs.answers ++ [⟨m.step, st, 0, ws, mgmtDigest m⟩]

/-- Register fields that hold what the spec lets them hold: SNAG_CFG.QUIET from 5 to 10,000 (R475) and nothing beside it, no
reserved bit in any PART_GROVEk (Table 22.7) or in DEV_DID (R557). -/
def regsOk (s : State) : Prop :=
  5 ≤ s.snagCfg.toNat ∧ s.snagCfg.toNat ≤ 10000 ∧ (∀ k, fld (tget 0x10 s.pgrove k) 5 58 = 0) ∧ fld s.did 15 48 = 0

/-- The invariant of every step: well-formed commands wait, and the registers of `regsOk` hold what they may. -/
def Inv (s : State) : Prop := (∀ c ∈ s.pending, c.wf = true) ∧ regsOk s

end Sys2Proof
end

