-- ==== Sys2Proof/Certificates/Slice0/Obligations.lean ====
section
/-! DEFINITION. The statements for the provers, family by family. `answers i s P` says that `exec i s` is a next state and that
`P` holds of it; `issues`, `completed`, `onlyCtx` and `onlyCore` are those of Sys2Proof/Safety.lean. -/

open Sys2Proof Sys2Proof.Machine

/-! ### Steps -/

/-- A step takes the command at the front of the queue and is that command on the state with the rest of the queue; on an
empty queue the block idles (log entry 1, the model's own form). -/
def Obligations.StepRunsFrontCommand : Prop :=
  ∀ s : State, (s.pending = [] → step s = .next s) ∧
    ∀ (i : Instr) (r : List Instr), s.pending = i :: r → step s = exec i { s with pending := r }

/-- Every command answers a next state: no command of this block faults or is refused. -/
def Obligations.EveryCommandAnswers : Prop :=
  ∀ (i : Instr) (s : State), ∃ t, exec i s = .next t

/-! ### Scalar instructions (R196 to R200) -/

/-- R196: the register forms of class 0 write their result in GD, and change nothing else but the pc; a write of g0 is discarded
(R189). R196: the immediate forms of class 0 and the two constants. So ADD, SUB, MUL, MULHS, MULHU, AND, OR, XOR, SHL, SHRL,
SHRA, MINS, MAXS, MINU, MAXU, ADDI, ANDI, ORI, XORI, SHLI, SHRLI, SHRAI, LI and LIH complete wherever they may issue. -/
def Obligations.ScalarForms : Prop :=
  (∀ (s : State) (l : Lcid) (c : CtxNo) (b : BitVec 54), issues s l c b (onlyFields b [(46, 4), (42, 4), (38, 4)]) anyRoom →
    let x := ctxOf s l c
    let ga := readG x (fld b 42 4)
    let gb := readG x (fld b 38 4)
    let n := gb.toNat % 64
    let W := fun (i : Instr) (v : Word) =>
      answers i s fun t => onlyCtx s t l c (completed x fun x => writeG x (fld b 46 4) v)
    W (.add l c b) (ga + gb) ∧ W (.sub l c b) (ga - gb) ∧ W (.mul l c b) (ga * gb) ∧
    W (.mulhs l c b) (BitVec.ofInt 64 (ga.toInt * gb.toInt / 2 ^ 64)) ∧
    W (.mulhu l c b) (BitVec.ofNat 64 (ga.toNat * gb.toNat / 2 ^ 64)) ∧
    W (.andR l c b) (ga &&& gb) ∧ W (.orR l c b) (ga ||| gb) ∧ W (.xorR l c b) (ga ^^^ gb) ∧
    W (.shl l c b) (ga <<< n) ∧ W (.shrl l c b) (ga >>> n) ∧ W (.shra l c b) (ga.sshiftRight n) ∧
    W (.mins l c b) (if gb.slt ga then gb else ga) ∧ W (.maxs l c b) (if ga.slt gb then gb else ga) ∧
    W (.minu l c b) (if gb < ga then gb else ga) ∧ W (.maxu l c b) (if ga < gb then gb else ga)) ∧
  (∀ (s : State) (l : Lcid) (c : CtxNo) (b : BitVec 54),
    let x := ctxOf s l c
    let ga := readG x (fld b 42 4)
    let imm := (b.extractLsb' 0 32).signExtend 64
    let n := fld b 0 6
    let W := fun (i : Instr) (v : Word) =>
      answers i s fun t => onlyCtx s t l c (completed x fun x => writeG x (fld b 46 4) v)
    (issues s l c b (onlyFields b [(46, 4), (42, 4), (0, 32)]) anyRoom →
      W (.addi l c b) (ga + imm) ∧ W (.andi l c b) (ga &&& imm) ∧ W (.ori l c b) (ga ||| imm) ∧ W (.xori l c b) (ga ^^^ imm)) ∧
    (issues s l c b (onlyFields b [(46, 4), (42, 4), (0, 6)]) anyRoom →
      W (.shli l c b) (ga <<< n) ∧ W (.shrli l c b) (ga >>> n) ∧ W (.shrai l c b) (ga.sshiftRight n)) ∧
    (issues s l c b (onlyFields b [(46, 4), (0, 32)]) anyRoom →
      W (.li l c b) imm ∧
      W (.lih l c b) (BitVec.ofNat 64 (fld b 0 32 * 2 ^ 32 + (readG x (fld b 46 4)).toNat % 2 ^ 32))))

/-- R197: compares and predicate operations write PD, and change nothing else but the pc; a write of p0 is discarded (R189). So
CEQ, CNE, CLT, CLE, CLTU, CLEU, CEQI, CNEI, CLTI, CLEI, CLTUI, CLEUI, PAND, POR and PXOR complete wherever they may issue. -/
def Obligations.ComparesAndPredicates : Prop :=
  ∀ (s : State) (l : Lcid) (c : CtxNo) (b : BitVec 54),
    let x := ctxOf s l c
    let ga := readG x (fld b 42 4)
    let gb := readG x (fld b 38 4)
    let imm := (b.extractLsb' 0 32).signExtend 64
    let pa := Bool.xor (readP x (fld b 44 3)) (b.getLsbD 43)
    let pb := Bool.xor (readP x (fld b 40 3)) (b.getLsbD 39)
    let W := fun (i : Instr) (v : Bool) =>
      answers i s fun t => onlyCtx s t l c (completed x fun x => writeP x (fld b 47 3) v)
    (issues s l c b (onlyFields b [(47, 3), (42, 4), (38, 4)]) anyRoom →
      W (.ceq l c b) (decide (ga = gb)) ∧ W (.cne l c b) (decide (ga ≠ gb)) ∧ W (.clt l c b) (decide (ga.toInt < gb.toInt)) ∧
      W (.cle l c b) (decide (ga.toInt ≤ gb.toInt)) ∧ W (.cltu l c b) (decide (ga.toNat < gb.toNat)) ∧
      W (.cleu l c b) (decide (ga.toNat ≤ gb.toNat))) ∧
    (issues s l c b (onlyFields b [(47, 3), (42, 4), (0, 32)]) anyRoom →
      W (.ceqi l c b) (decide (ga = imm)) ∧ W (.cnei l c b) (decide (ga ≠ imm)) ∧
      W (.clti l c b) (decide (ga.toInt < imm.toInt)) ∧ W (.clei l c b) (decide (ga.toInt ≤ imm.toInt)) ∧
      W (.cltui l c b) (decide (ga.toNat < imm.toNat)) ∧ W (.cleui l c b) (decide (ga.toNat ≤ imm.toNat))) ∧
    (issues s l c b (onlyFields b [(47, 3), (44, 3), (43, 1), (40, 3), (39, 1)]) anyRoom →
      W (.pand l c b) (pa && pb) ∧ W (.por l c b) (pa || pb) ∧ W (.pxor l c b) (Bool.xor pa pb))

/-- R198: a branch whose guard holds goes to its target, and BL and BLI write pc + 8 in GD; an indirect target past the
scratchpad raises BOUNDS, one that is not a multiple of 8 raises ALIGN, and the pc stays (R177). So BR, BL, BRI and BLI
complete wherever they may issue, the last two with a target that passes. -/
def Obligations.Branches : Prop :=
  ∀ (s : State) (l : Lcid) (c : CtxNo) (b : BitVec 54),
    let x := ctxOf s l c
    let ga := readG x (fld b 42 4)
    let next := x.pc + 8
    let rel := x.pc + 8#21 * (b.extractLsb' 0 19).signExtend 21
    let J := fun (i : Instr) (x' : Ctx) (target : BitVec 21) =>
      answers i s fun t => onlyCtx s t l c { x' with pc := target, slot := none, deadline := none }
    let F := fun (i : Instr) (st : Status) =>
      answers i s fun t => t = precise (fetched s l c) l c st 0 ga
    let link := writeG x (fld b 46 4) (BitVec.ofNat 64 next.toNat)
    (issues s l c b (onlyFields b [(0, 19)]) anyRoom → J (.br l c b) x rel) ∧
    (issues s l c b (onlyFields b [(46, 4), (0, 19)]) anyRoom → J (.bl l c b) link rel) ∧
    (issues s l c b (onlyFields b [(42, 4)]) anyRoom →
      (2 ^ 21 ≤ ga.toNat → F (.bri l c b) sBOUNDS) ∧
      (ga.toNat < 2 ^ 21 → ga.toNat % 8 ≠ 0 → F (.bri l c b) sALIGN) ∧
      (ga.toNat < 2 ^ 21 → ga.toNat % 8 = 0 → J (.bri l c b) x (BitVec.ofNat 21 ga.toNat))) ∧
    (issues s l c b (onlyFields b [(46, 4), (42, 4)]) anyRoom →
      (2 ^ 21 ≤ ga.toNat → F (.bli l c b) sBOUNDS) ∧
      (ga.toNat < 2 ^ 21 → ga.toNat % 8 ≠ 0 → F (.bli l c b) sALIGN) ∧
      (ga.toNat < 2 ^ 21 → ga.toNat % 8 = 0 → J (.bli l c b) link (BitVec.ofNat 21 ga.toNat)))

/-- R199: a narrow load from the own scratchpad writes GS with the bytes at GA + OFF, zero-extended or sign-extended, and
changes nothing else but the pc. R199: a narrow store to the own scratchpad writes the low bytes of GS at GA + OFF,
little-endian (R10); every other byte of every slice, every register and all the rest are as before but for the pc. R199,
R225: a narrow access to the own scratchpad past its end raises BOUNDS, one that is not aligned to its size ALIGN, one that
meets a poisoned chunk POISON, in this order, with the address in DETAIL; the pc stays and memory is as before. A narrow access
to anywhere else sends its request and waits for the answer (LDB, LDH, LDW, LDD, LDBS, LDHS, LDWS, STB, STH, STW and STD, each
complete on the own scratchpad); one that fails its checks raises its fault, with the word in DETAIL for PERM and the address
for the others (Table 06.8); one to a device without a route has no effect but its report, and completes. -/
def Obligations.NarrowOwn : Prop :=
  (∀ (s : State) (l : Lcid) (c : CtxNo) (b : BitVec 54), issues s l c b (onlyFields b [(46, 4), (42, 4), (0, 32)]) anyRoom →
    let x := ctxOf s l c
    let a := (readG x (fld b 42 4) + (b.extractLsb' 0 32).signExtend 64).toNat
    let sp := (getCore s l).sp
    let L := fun (i : Instr) (n : Nat) (f : Nat → Word) => a + n ≤ 2 ^ 21 → a % n = 0 → poisonAt sp a n = none →
      answers i s fun t => onlyCtx s t l c (completed x fun x => writeG x (fld b 46 4) (f (rdNum sp.mem a n)))
    let Z := BitVec.ofNat 64
    L (.ldb l c b) 1 Z ∧ L (.ldh l c b) 2 Z ∧ L (.ldw l c b) 4 Z ∧ L (.ldd l c b) 8 Z ∧
    L (.ldbs l c b) 1 (fun v => (BitVec.ofNat 8 v).signExtend 64) ∧
    L (.ldhs l c b) 2 (fun v => (BitVec.ofNat 16 v).signExtend 64) ∧
    L (.ldws l c b) 4 (fun v => (BitVec.ofNat 32 v).signExtend 64)) ∧
  (∀ (s : State) (l : Lcid) (c : CtxNo) (b : BitVec 54), issues s l c b (onlyFields b [(46, 4), (42, 4), (0, 32)]) anyRoom →
    let x := ctxOf s l c
    let a := (readG x (fld b 42 4) + (b.extractLsb' 0 32).signExtend 64).toNat
    let k := getCore s l
    let v := (readG x (fld b 46 4)).toNat
    let S := fun (i : Instr) (n : Nat) => a + n ≤ 2 ^ 21 → a % n = 0 → poisonAt k.sp a n = none →
      answers i s fun t => ∃ m : Memory, onlyCore s t l c (completed x id) { k with sp := { k.sp with mem := m } } ∧
        (∀ j, j < n → rdByte m (a + j) = BitVec.ofNat 8 (v / 256 ^ j)) ∧
        (∀ i, i < a ∨ a + n ≤ i → rdByte m i = rdByte k.sp.mem i)
    S (.stb l c b) 1 ∧ S (.sth l c b) 2 ∧ S (.stw l c b) 4 ∧ S (.std l c b) 8) ∧
  (∀ (s : State) (l : Lcid) (c : CtxNo) (b : BitVec 54), issues s l c b (onlyFields b [(46, 4), (42, 4), (0, 32)]) anyRoom →
    let w := readG (ctxOf s l c) (fld b 42 4) + (b.extractLsb' 0 32).signExtend 64
    let a := w.toNat
    let F := fun (i : Instr) (n : Nat) => a < 2 ^ 62 →
      (2 ^ 21 < a + n → answers i s fun t => t = precise (fetched s l c) l c sBOUNDS 0 w) ∧
      (a + n ≤ 2 ^ 21 → a % n ≠ 0 → answers i s fun t => t = precise (fetched s l c) l c sALIGN 0 w) ∧
      (a + n ≤ 2 ^ 21 → a % n = 0 → (poisonAt (getCore s l).sp a n).isSome →
        answers i s fun t => t = precise (fetched s l c) l c sPOISON 0 w)
    F (.ldb l c b) 1 ∧ F (.ldh l c b) 2 ∧ F (.ldw l c b) 4 ∧ F (.ldd l c b) 8 ∧ F (.ldbs l c b) 1 ∧ F (.ldhs l c b) 2 ∧
    F (.ldws l c b) 4 ∧ F (.stb l c b) 1 ∧ F (.sth l c b) 2 ∧ F (.stw l c b) 4 ∧ F (.std l c b) 8) ∧
  (∀ (s : State) (l : Lcid) (c : CtxNo) (b : BitVec 54), issues s l c b (onlyFields b [(46, 4), (42, 4), (0, 32)]) anyRoom →
    let w := readG (ctxOf s l c) (fld b 42 4) + (b.extractLsb' 0 32).signExtend 64
    let s1 := fetched s l c
    let N := fun (i : Instr) (op n : Nat) (load sext : Bool) =>
      (∀ st, narrowFault s l w n = some st →
        answers i s fun t => t = precise s1 l c st 0 (if st = sPERM then insWord op b else w)) ∧
      (narrowFault s l w n = none → ∀ q, addrOf w = some q →
        let pl := place s l (corePart s l) q
        let away := match pl with
          | .slice t _ => t ≠ l
          | .hbm _ _ => True
          | .remote d _ _ => hasRoute s d = true
        (∀ o, pl = .slice l o → answers i s fun t => t = narrowOwn s1 l c w o n (fld b 46 4) load sext) ∧
        (away → answers i s fun t => t = narrowSend s1 l c w pl n (fld b 46 4) load sext) ∧
        (∀ d t o, pl = .remote d t o → hasRoute s d = false →
          answers i s fun t => t = advance (narrowNoEffect s1 l sNOROUTE w) l c))
    N (.ldb l c b) 0x0C0 1 true false ∧ N (.ldh l c b) 0x0C1 2 true false ∧ N (.ldw l c b) 0x0C2 4 true false ∧
    N (.ldd l c b) 0x0C3 8 true false ∧ N (.ldbs l c b) 0x0C4 1 true true ∧ N (.ldhs l c b) 0x0C5 2 true true ∧
    N (.ldws l c b) 0x0C6 4 true true ∧ N (.stb l c b) 0x0C8 1 false false ∧ N (.sth l c b) 0x0C9 2 false false ∧
    N (.stw l c b) 0x0CA 4 false false ∧ N (.std l c b) 0x0CB 8 false false)

/-- R200: FFENCE discards the slot that the context fetched, so that its next instruction is fetched anew; it changes nothing
else but the pc. R190, R191, R193: an instruction word whose opcode is not defined raises UNDEF with the word in DETAIL,
whatever its guard; a word of a defined opcode that holds a reserved bit raises RSVD; an instruction whose guard does not
hold only advances the pc. The three as ADD shows them. R177, R179, R181: a precise program fault of a READY context, in a
core without fault notices: the context is FAULTED, fr0 holds the cause, the unit and the pc, fr1 the detail, the pc stays,
CORE_FAULT_COUNT rises by one and saturates, and the fault interrupt is raised; every other context is as before. So FFENCE
completes wherever it may issue, and UNDEFINED_OPCODE takes its fault. -/
def Obligations.IssueChecksAndFaultEntry : Prop :=
  ((∀ (s : State) (l : Lcid) (c : CtxNo) (b : BitVec 54), issues s l c b (onlyFields b []) anyRoom →
    answers (.ffence l c b) s fun t =>
      onlyCtx s t l c { ctxOf s l c with pc := (ctxOf s l c).pc + 8, slot := none, deadline := none }) ∧
  (∀ (s : State) (l : Lcid) (c : CtxNo), mayIssue s l c = true → fetchPoisoned s l c = false →
    (∀ w : Word, opcodeDefined (w.toNat / 2 ^ 54) = false →
      answers (.undefinedOpcode l c w) s fun t =>
        t = precise (fetched s l c) l c sUNDEF (classUnit (w.toNat / 2 ^ 54)) w) ∧
    (∀ b : BitVec 54, onlyFields b [(46, 4), (42, 4), (38, 4)] = false →
      answers (.add l c b) s fun t => t = precise (fetched s l c) l c sRSVD 0 (insWord 0x001 b)) ∧
    (∀ b : BitVec 54, onlyFields b [(46, 4), (42, 4), (38, 4)] = true → guardHolds (ctxOf s l c) b = false →
      answers (.add l c b) s fun t => onlyCtx s t l c (completed (ctxOf s l c) id)))) ∧
  (∀ (s : State) (l : Lcid) (c : CtxNo) (st : Status) (u : Nat) (d : Word),
    let x := ctxOf s l c
    let t := precise s l c st u d
    x.st = .ready → x.wait = .none → hardware st = false → bit (getCore s l).ctrl 28 = false →
      ctxOf t l c = { x with st := .faulted, wait := .none, deadline := none, fr1 := d
                             fr0 := BitVec.ofNat 64 (st.toNat * 2 ^ 56 + u % 8 * 2 ^ 51 + x.pc.toNat) } ∧
      (∀ c', c' ≠ c → ctxOf t l c' = ctxOf s l c') ∧
      (getCore t l).faults.toNat = min ((getCore s l).faults.toNat + 1) (2 ^ 32 - 1) ∧
      (getCore t l).irqs = (getCore s l).irqs + 1 ∧ (getCore t l).sp = (getCore s l).sp ∧
      (∀ l', l' ≠ l → getCore t l' = getCore s l'))

/-! ### The Mill (04_mill.md) -/

/-- R107, R108: MCLAIM claims every named resource, or none. If any is held by another context, PD is false and nothing else
changes; otherwise PD is true, each named descriptor and accumulator is the context's, one that it did not hold before is
cleared (a descriptor of zeros, an accumulator as MZERO leaves it), and no other resource changes. R109, R108: MREL, TDLD,
MZERO and MMA of a resource that the context does not hold raise PERM with the word in DETAIL; a MREL completes, and each
resource that it names is free at once unless an earlier Mill operation of the context still uses it, when it stays claimed
until that operation has ended; in a context with a record the release waits for its next RING (R482). So MCLAIM and MREL
complete wherever they may issue, MREL with every named resource its own. -/
def Obligations.MillClaimsAndRelease : Prop :=
  (∀ (s : State) (l : Lcid) (c : CtxNo) (b : BitVec 54),
    issues s l c b (onlyFields b [(47, 3), (8, 8), (0, 8)]) anyRoom →
    let e := (getCore s l).eng
    let free := fun (t : Tbl (Option CtxNo)) (i : Nat) => tget none t i = none ∨ tget none t i = some c
    let all := (∀ i, i < 8 → b.getLsbD (8 + i) = true → free e.tdOwner i) ∧ ∀ i, i < 8 → b.getLsbD i = true → free e.accOwner i
    (¬ all → answers (.mclaim l c b) s fun t =>
      onlyCtx s t l c (completed (ctxOf s l c) fun x => writeP x (fld b 47 3) false)) ∧
    (all → answers (.mclaim l c b) s fun t => ∃ e', onlyCore s t l c
          (completed (ctxOf s l c) fun x =>
            writeP { x with defTd := x.defTd &&& ~~~(b.extractLsb' 8 8), defAcc := x.defAcc &&& ~~~(b.extractLsb' 0 8) }
              (fld b 47 3) true) { getCore s l with eng := e' } ∧
        (∀ i, i < 8 →
          (b.getLsbD (8 + i) = true → tget none e'.tdOwner i = some c ∧
            (tget none e.tdOwner i = none → tget TileDesc.zero e'.td i = TileDesc.zero)) ∧
          (b.getLsbD (8 + i) = false ∨ tget none e.tdOwner i = some c → tget none e'.tdOwner i = tget none e.tdOwner i ∧
            tget TileDesc.zero e'.td i = tget TileDesc.zero e.td i) ∧
          (b.getLsbD i = true → tget none e'.accOwner i = some c ∧ (tget none e.accOwner i = none → tget [] e'.acc i = [])) ∧
          (b.getLsbD i = false ∨ tget none e.accOwner i = some c →
            tget none e'.accOwner i = tget none e.accOwner i ∧ tget [] e'.acc i = tget [] e.acc i)))) ∧
  (∀ (s : State) (l : Lcid) (c : CtxNo) (b : BitVec 54), issues s l c b (onlyFields b [(8, 8), (0, 8)]) anyRoom →
    let e := (getCore s l).eng
    let mine := (∀ i, i < 8 → b.getLsbD (8 + i) = true → tget none e.tdOwner i = some c) ∧
      ∀ i, i < 8 → b.getLsbD i = true → tget none e.accOwner i = some c
    (¬ mine → answers (.mrel l c b) s fun t => t = precise (fetched s l c) l c sPERM 1 (insWord 0x101 b)) ∧
    (mine → (ctxOf s l c).hasRec = true → answers (.mrel l c b) s fun t =>
      onlyCtx s t l c (completed (ctxOf s l c) fun x =>
        { x with defTd := x.defTd ||| b.extractLsb' 8 8, defAcc := x.defAcc ||| b.extractLsb' 0 8 })) ∧
    (mine → (ctxOf s l c).hasRec = false → answers (.mrel l c b) s fun t =>
      ∃ e', onlyCore s t l c (completed (ctxOf s l c) id) { getCore s l with eng := e' } ∧
        e'.td = e.td ∧ e'.acc = e.acc ∧ e'.millq = e.millq ∧ e'.veq = e.veq ∧ e'.issued = e.issued ∧ ∀ i, i < 8 →
          let usesTd := e.millq.any fun o => o.ctx == c && decide (o.iss < e.issued) && o.tds.contains i
          let usesAcc := e.millq.any fun o => o.ctx == c && decide (o.iss < e.issued) && o.acc.toNat == i
          (b.getLsbD (8 + i) = true → tget none e'.tdOwner i = if usesTd then some c else none) ∧
          (b.getLsbD (8 + i) = false → tget 0 e.relTd i = 0 → tget none e'.tdOwner i = tget none e.tdOwner i) ∧
          (b.getLsbD i = true → tget none e'.accOwner i = if usesAcc then some c else none) ∧
          (b.getLsbD i = false → tget 0 e.relAcc i = 0 → tget none e'.accOwner i = tget none e.accOwner i)))

/-- R109, R110: TDLD of a descriptor that the context holds, from an aligned, readable image with no reserved value, loads it;
each failing check raises its fault and leaves the descriptor as it was. R110, Table 04.1: what a descriptor image loads,
field by field, and the images that raise RSVD. -/
def Obligations.TileDescriptors : Prop :=
  (∀ (s : State) (l : Lcid) (c : CtxNo) (b : BitVec 54), issues s l c b (onlyFields b [(47, 3), (43, 4)]) anyRoom →
    let k := getCore s l
    let i := fld b 47 3
    let a := readG (ctxOf s l c) (fld b 43 4)
    let w := fun n => rdWord k.sp.mem (a.toNat + 8 * n)
    let F := fun (st : Status) (d : Word) => answers (.tdld l c b) s fun t => t = precise (fetched s l c) l c st 1 d
    let word := insWord 0x102 b
    (tget none k.eng.tdOwner i ≠ some c → F sPERM word) ∧
    (tget none k.eng.tdOwner i = some c →
      (2 ^ 21 ≤ a.toNat → F sBOUNDS a) ∧
      (a.toNat < 2 ^ 21 →
        (a.toNat % 32 ≠ 0 → F sALIGN a) ∧
        (a.toNat % 32 = 0 →
          ((poisonAt k.sp a.toNat 32).isSome → F sPOISON a) ∧
          (poisonAt k.sp a.toNat 32 = none →
            (∀ st, tdOf (w 0) (w 1) (w 2) (w 3) = .error st → F st (if st = sRSVD then word else a)) ∧
            ∀ d, tdOf (w 0) (w 1) (w 2) (w 3) = .ok d → answers (.tdld l c b) s fun t =>
              onlyCore s t l c (completed (ctxOf s l c) id)
                { k with eng := { k.eng with td := tput TileDesc.zero k.eng.td i d } }))))) ∧
  (∀ w0 w1 w2 w3 : Word,
    (w0.toNat < 2 ^ 21 → w1.toNat < 2 ^ 21 → w2.extractLsb' 53 11 = 0 → w2.extractLsb' 21 11 = 0 →
      w3.toNat = 0 ∨ w3.toNat = 1 ∨ w3.toNat = 3 ∨ w3.toNat = 4 ∨ w3.toNat = 5 →
      (w0.toNat % 16 = 0 → w2.toNat % 16 = 0 →
        tdOf w0 w1 w2 w3 = .ok ⟨w0, w1, w2.extractLsb' 32 21, w2.extractLsb' 0 21, w3.extractLsb' 0 4⟩) ∧
      (w0.toNat % 16 ≠ 0 ∨ w2.toNat % 16 ≠ 0 → tdOf w0 w1 w2 w3 = .error sALIGN)) ∧
    (2 ^ 21 ≤ w0.toNat ∨ 2 ^ 21 ≤ w1.toNat ∨ w2.extractLsb' 53 11 ≠ 0 ∨ w2.extractLsb' 21 11 ≠ 0 ∨ w3.toNat = 2 ∨
      6 ≤ w3.toNat → tdOf w0 w1 w2 w3 = .error sRSVD))

/-- R109, R112, R114, R120: MZERO and MMA enter their operation at the tail of the Mill queue, MMA with its descriptors as
they are at issue; an MMA then advances each flagged descriptor once; nothing else changes but the pc. R129, R157: MWAIT and
VWAIT complete at once when the context has no operation in the engine, and otherwise put the context in WAITING, its pc
already at the next instruction. -/
def Obligations.EngineOperationsWait : Prop :=
  (∀ (s : State) (l : Lcid) (c : CtxNo) (b : BitVec 54),
    let k := getCore s l
    let e := k.eng
    let x := ctxOf s l c
    let own := fun (t : Tbl (Option CtxNo)) (i : Nat) => tget none t i = some c
    let enter := fun (o : MillOp) (e : Engines) => { e with millq := e.millq ++ [{ o with iss := e.issued }], issued := e.issued + 1 }
    (issues s l c b (onlyFields b [(47, 3)]) millRoom → own e.accOwner (fld b 47 3) →
      answers (.mzero l c b) s fun t => onlyCore s t l c (completed x id)
        { k with eng := enter ⟨c, x.pc, 0, b.extractLsb' 47 3, [], none⟩ e }) ∧
    (issues s l c b (onlyFields b [(47, 3), (44, 3), (41, 3), (33, 8), (32, 1), (31, 1)]) millRoom →
      let ia := fld b 44 3
      let ib := fld b 41 3
      let g := fld b 33 8 + 1
      let ta := tget TileDesc.zero e.td ia
      let tb := tget TileDesc.zero e.td ib
      let adv := fun (t : TileDesc) (f : Bool) => if f then advanceTd t g else t
      own e.tdOwner ia → own e.tdOwner ib → own e.accOwner (fld b 47 3) →
      (pairOk ta.fmt.toNat tb.fmt.toNat = false →
        answers (.mma l c b) s fun t => t = precise (fetched s l c) l c sRSVD 1 (insWord 0x104 b)) ∧
      (pairOk ta.fmt.toNat tb.fmt.toNat = true →
        (∀ w, mmaBounds ta tb g = some w → answers (.mma l c b) s fun t => t = precise (fetched s l c) l c sBOUNDS 1 w) ∧
        (mmaBounds ta tb g = none → answers (.mma l c b) s fun t => ∃ td, onlyCore s t l c (completed x id)
            { k with eng := { enter ⟨c, x.pc, 0, b.extractLsb' 47 3, [ia, ib], some (ta, tb, g)⟩ e with td := td } } ∧
          ∀ i, tget TileDesc.zero td i =
            adv (tget TileDesc.zero e.td i) ((i == ia && b.getLsbD 32) || (i == ib && b.getLsbD 31)))))) ∧
  (∀ (s : State) (l : Lcid) (c : CtxNo) (b : BitVec 54), issues s l c b (onlyFields b []) anyRoom →
    let k := getCore s l
    let x := ctxOf s l c
    let W := fun (i : Instr) (busy : Bool) (w : Wait) => answers i s fun t =>
      onlyCtx s t l c (completed x fun x => if busy then { x with st := .waiting, wait := w, waitNo := x.waitNo + 1 } else x)
    W (.mwait l c b) (k.eng.millq.any fun o => o.ctx == c) .mill ∧ W (.vwait l c b) (k.eng.veq.any fun o => o.ctx == c) .ve)

/-- R116, R120, R98, R99: MILL_OP_COMPLETE carries out the front Mill operation when no earlier VE operation of its context is
queued. An MZERO leaves the accumulator with every significand 0 and no special code, an MMA that meets no poison leaves the
tile and the record of its groups in order; the record is written in ns0 and ns1 of the context that issued it, the operation
leaves the queue, and a context that waited for its operations goes on (`settle`, R129, R185). MILL_OP_FAULT: R131, R134, R178, R179: an MMA that meets poison, or a residue mismatch, at group `j` ends there: the tile keeps
the groups before it, the context is FAULTED with IMPRECISE 1, the pc of the MMA and `j` in fr1, and its later Mill operations
leave the queue; those of other contexts stay. The site of a column or a word is the lead or the twin of the position (R509). R133: an accumulator
word corrected at a read changes no core and is reported; one that a save cannot correct is poisoned. -/
def Obligations.MillOperationEnds : Prop :=
  (∀ (s : State) (l : Lcid) (o : MillOp) (r : List MillOp), asleep s = false →
    let e := (getCore s l).eng
    e.millq = o :: r → veBefore e o.ctx o.iss = false →
    let C := fun (t : State) (tile : Tbl AccRow) (rec' : Rec) => ∃ u, t = settle u l o.ctx ∧
      ((ctxOf s l o.ctx).freeing = false → effSt (ctxOf s l o.ctx) ≠ .waiting → t = u) ∧
      tget [] (getCore u l).eng.acc o.acc.toNat = tile ∧ (getCore u l).eng.millq = r ∧
      (∀ a, a ≠ o.acc.toNat → tget [] (getCore u l).eng.acc a = tget [] e.acc a) ∧
      (ctxOf u l o.ctx).ns0 = ns0Of rec' ∧ (ctxOf u l o.ctx).ns1 = ns1Of rec' 0 7 ∧
      (getCore u l).sp = (getCore s l).sp ∧ (∀ c', c' ≠ o.ctx → ctxOf u l c' = ctxOf s l c') ∧
      ∀ l', l' ≠ l → getCore u l' = getCore s l'
    (o.mma = none → answers (.millOpComplete l) s fun t => C t [] rec0) ∧
    ∀ ta tb g tile rec', o.mma = some (ta, tb, g) →
      mmaRun (getCore s l).sp ta tb g 0 (tget [] e.acc o.acc.toNat) rec0 = (tile, rec', none) →
      answers (.millOpComplete l) s fun t => C t tile rec') ∧
  (∀ (s : State) (l : Lcid) (o : MillOp) (r : List MillOp) (ta tb : TileDesc) (g : Nat), asleep s = false →
    let e := (getCore s l).eng
    let x := ctxOf s l o.ctx
    e.millq = o :: r → o.mma = some (ta, tb, g) → veBefore e o.ctx o.iss = false → effSt x = .ready ∨ effSt x = .waiting →
    let F := fun (t : State) (cause : Status) (tile : Tbl AccRow) (j : Nat) => ∃ u, t = settle u l o.ctx ∧ (x.freeing = false → t = u) ∧
      tget [] (getCore u l).eng.acc o.acc.toNat = tile ∧ (getCore u l).eng.millq = r.filter (fun y => y.ctx != o.ctx) ∧
      (effSt (ctxOf u l o.ctx)) = .faulted ∧ (ctxOf u l o.ctx).fr0 = fr0Of cause true 1 o.pc ∧
      (ctxOf u l o.ctx).fr1 = BitVec.ofNat 64 j
    (∀ tile rec' j, mmaRun (getCore s l).sp ta tb g 0 (tget [] e.acc o.acc.toNat) rec0 = (tile, rec', some j) →
      answers (.millOpFault l .poison) s fun t => F t sPOISON tile j) ∧
    ∀ tile rec' (j : BitVec 8), j.toNat < g →
      mmaRun (getCore s l).sp ta tb j.toNat 0 (tget [] e.acc o.acc.toNat) rec0 = (tile, rec', none) →
      (∀ (col : BitVec 6) (twin : Bool), siteThere s l twin = true →
        colWorks (tget Site.zero (getGrove s (dgOf l)).sites (siteAt s l twin)) col.toNat = true →
        answers (.millOpFault l (.residue j col twin)) s fun t => F t sINTERNAL tile j.toNat) ∧
      ∀ (row : BitVec 5) (twin : Bool), siteThere s l twin = true → answers (.millOpFault l (.accWord j row twin)) s fun t =>
        let w := tget AccRow.zero tile row.toNat
        F t sPOISON (if w.poison then tile else tput AccRow.zero tile row.toNat { w with poison := true }) j.toNat) ∧
  ∀ (s : State) (l : Lcid) (a : BitVec 3) (row : BitVec 5) (twin : Bool), asleep s = false → occupied s l = true → siteThere s l twin = true →
    (accRead s l a.toNat row.toNat = true → answers (.millOpFault l (.accFixed a row twin)) s fun t =>
      t.cores = s.cores ∧ t.errs.reports.length = s.errs.reports.length + 1) ∧
    (saveReads s l a.toNat = true → answers (.millOpFault l (.accSaved a row twin)) s fun t =>
      (tget AccRow.zero (tget [] (getCore t l).eng.acc a.toNat) row.toNat).poison = true ∧
      (getCore t l).eng.millq = (getCore s l).eng.millq)

/-! ### The vector engine (05_vector_engine.md) -/

/-- R137, R139, R141, R202 to R205: each VE instruction whose word and operands pass their checks enters one operation at the
tail of the VE queue: its kind, formats, rounding, count and operands as the registers hold them at issue, with the SR
counter value it takes; nothing else changes but the pc and, under SR, the counter. So VE_ADD, VE_SUB, VE_MUL, MAD, NEG,
ABS, MAX, MIN, SCL, EQ, NE, LT, LE, GT, GE, SEL, VE_AND, VE_OR, VE_XOR, NOT, VE_SHL, VE_SHRL, VE_SHRA, CVT, SHF, SCAN,
SSCAN, RED and FN complete their issue. -/
def Obligations.VectorOperationsIssue : Prop :=
  ∀ (s : State) (l : Lcid) (c : CtxNo) (b : BitVec 54),
    let k := getCore s l
    let x := ctxOf s l c
    let V := fun (i : Instr) (op : Nat) (m : VeForm) (kind : VeKind) =>
      let o := veOpOf x c b m kind
      issues s l c b (veEnc b m) veRoom →
      (∀ n ∈ accsOf [o.d, o.a, o.b, o.c], tget none k.eng.accOwner n = some c) → veFaultAt b m op o = none →
      answers i s fun t => onlyCore s t l c (completed x fun x => veDraws x o)
        { k with eng := { k.eng with veq := k.eng.veq ++ [{ o with iss := k.eng.issued, seed := x.srSeed, ctr := x.srCtr }]
                                     issued := k.eng.issued + 1 } }
    V (.veAdd l c b) 0x140 formBin (.arith .add 0) ∧ V (.veSub l c b) 0x141 formBin (.arith .sub 0) ∧
    V (.veMul l c b) 0x142 formBin (.arith .mul 0) ∧ V (.veMad l c b) 0x143 formMad (.arith .mad 0) ∧
    V (.veNeg l c b) 0x144 formUn (.arith .neg 0) ∧ V (.veAbs l c b) 0x145 formUn (.arith .abs 0) ∧
    V (.veMax l c b) 0x146 formBin (.arith .max 0) ∧ V (.veMin l c b) 0x147 formBin (.arith .min 0) ∧
    V (.veScl l c b) 0x148 formScl (.arith .scl (signed 32 (readG x (fld b 10 4)).toNat)) ∧
    V (.veEq l c b) 0x150 formCmp (.cmp .eq) ∧ V (.veNe l c b) 0x151 formCmp (.cmp .ne) ∧
    V (.veLt l c b) 0x152 formCmp (.cmp .lt) ∧ V (.veLe l c b) 0x153 formCmp (.cmp .le) ∧
    V (.veGt l c b) 0x154 formCmp (.cmp .gt) ∧ V (.veGe l c b) 0x155 formCmp (.cmp .ge) ∧
    V (.veSel l c b) 0x158 formSel .sel ∧ V (.veAnd l c b) 0x160 formLogic (.logic .and) ∧
    V (.veOr l c b) 0x161 formLogic (.logic .or) ∧ V (.veXor l c b) 0x162 formLogic (.logic .xor) ∧
    V (.veNot l c b) 0x163 formNot (.logic .not) ∧ V (.veShl l c b) 0x164 formLogic (.logic .shl) ∧
    V (.veShrl l c b) 0x165 formLogic (.logic .shrl) ∧ V (.veShra l c b) 0x166 formLogic (.logic .shra) ∧
    V (.veCvt l c b) 0x180 formCvt .cvt ∧ V (.veShf l c b) 0x181 formShf (.shf (fld b 14 2) (fld b 8 5)) ∧
    V (.veScan l c b) 0x182 formScan (scanKind false b x) ∧ V (.veSscan l c b) 0x183 formSscan (scanKind true b x) ∧
    V (.veRed l c b) 0x184 formRed (redKind b) ∧ V (.veFn l c b) 0x185 formFn (.fn (fld b 0 3) s.live.fn)


/-- R98, R157: VE_OP_COMPLETE carries out the front VE operation, met by no fault and with no earlier Mill operation of its
context queued: it writes its whole image, its carry where a scan has one, and its record in ns0 and ns1, and leaves the queue;
a context that waited for its operations goes on. An operation of no elements writes only the record. VE_OP_FAULT: R158, R178, R179: the front VE operation that meets poison at element `i`, or a lane residue mismatch
there, writes what stands before the slot of that element, and its context is FAULTED with IMPRECISE 1, the operation's pc,
and the first element not written in fr1; its later VE operations leave the queue, those of other contexts stay. A poisoned
accumulator word ends it in the same way. -/
def Obligations.VectorOperationEnds : Prop :=
  (∀ (s : State) (l : Lcid) (o : VeOp) (r : List VeOp), asleep s = false →
    let k := getCore s l
    let im := (veImage k.eng k.sp o).1
    let some1 := fun (b : Slice) (f : Slice → Slice) => if o.n = 0 then b else f b
    let dest := some1 k.sp fun sl => match o.d with | .mem a p => putImage sl a p im.data im.plane | _ => sl
    k.eng.veq = o :: r → millBefore k.eng o.ctx o.iss = false → veHit k.eng k.sp o im = none →
    answers (.veOpComplete l) s fun v => ∃ t, v = settle t l o.ctx ∧
      ((ctxOf s l o.ctx).freeing = false → effSt (ctxOf s l o.ctx) ≠ .waiting → v = t) ∧ (getCore t l).eng.veq = r ∧
      (getCore t l).sp = (some1 dest fun sl => match o.kind, (veImage k.eng k.sp o).2 with
        | .scan _ _ _ (some q), some cy => slPutWords sl q (carryWords cy)
        | _, _ => sl) ∧
      (∀ a, tget [] (getCore t l).eng.acc a = match o.d with
        | .acc n _ => if a = n.toNat ∧ o.n ≠ 0 then putRows (tget [] k.eng.acc a) im.rows else tget [] k.eng.acc a
        | _ => tget [] k.eng.acc a) ∧
      (ctxOf t l o.ctx).ns0 = ns0Of (if o.n = 0 then rec0 else im.rcd) ∧
      (ctxOf t l o.ctx).ns1 = ns1Of (if o.n = 0 then rec0 else im.rcd) 1 (veDfmt o) ∧
      (ctxOf t l o.ctx).g = (ctxOf s l o.ctx).g ∧ (∀ c', c' ≠ o.ctx → ctxOf t l c' = ctxOf s l c') ∧
      ∀ l', l' ≠ l → getCore t l' = getCore s l') ∧
  (∀ (s : State) (l : Lcid) (o : VeOp) (r : List VeOp), asleep s = false →
    let k := getCore s l
    let x := ctxOf s l o.ctx
    let im := (veImage k.eng k.sp o).1
    k.eng.veq = o :: r → millBefore k.eng o.ctx o.iss = false → effSt x = .ready ∨ effSt x = .waiting →
    let F := fun (v : State) (cause : Status) (i : Nat) => ∃ t, v = settle t l o.ctx ∧ (x.freeing = false → v = t) ∧
      (getCore t l).eng.veq = r.filter (fun y => y.ctx != o.ctx) ∧ effSt (ctxOf t l o.ctx) = .faulted ∧
      (ctxOf t l o.ctx).fr0 = fr0Of cause true 2 o.pc ∧
      (∀ a p, o.d = .mem a p →
        let w := prefixOf o a i
        (getCore t l).sp = putImage k.sp a p (im.data.take w.1) (im.plane.take w.2.1) ∧
        (ctxOf t l o.ctx).fr1 = BitVec.ofNat 64 w.2.2)
    (∀ i, veHit k.eng k.sp o im = some (.elem i) → answers (.veOpFault l .poison) s fun t => F t sPOISON i) ∧
    (∀ (lane : BitVec 7) (i : Nat) (twin : Bool), i < o.n → siteThere s l twin = true →
      laneWorks (tget Site.zero (getGrove s (dgOf l)).sites (siteAt s l twin)) lane.toNat = true → veHit k.eng k.sp o im = none →
      answers (.veOpFault l (.lane lane i twin)) s fun t => F t sINTERNAL i) ∧
    ∀ (a : BitVec 3) (row : BitVec 5) (twin : Bool), row.toNat < rowsRead o a.toNat → siteThere s l twin = true →
      answers (.veOpFault l (.accWord a row twin)) s fun t => t = veStep (accUncorr s l a.toNat row.toNat twin) l o)

/-! ### Queues (09_messages_and_queues.md) -/

/-- R206, R254: QRD of a configured queue. With an entry at its head it writes word W of that entry in GD and true in PD, and
with POP the entry leaves the queue; on an empty queue the context waits, its pc still at the QRD. R206, R254, R255: QPUT of
an aligned, readable entry. A configured queue that is not full takes it at its tail, and the contexts that wait on it become
READY (log entry 107); one that is full leaves PD false and changes nothing else; a Boom takes a contribution of a round in its window; a queue that is not configured raises BOUNDS. -/
def Obligations.QueueReadsAndWrites : Prop :=
  (∀ (s : State) (l : Lcid) (c : CtxNo) (b : BitVec 54),
    issues s l c b (onlyFields b [(46, 4), (38, 4), (35, 3), (34, 1), (31, 3), (0, 6)]) anyRoom →
    let k := getCore s l
    let x := ctxOf s l c
    let qn := fld b 0 6
    let q := getQ k qn
    let gt := (readG x (fld b 38 4)).toNat
    boundSide k true qn = none → boundSide k false qn = none →
    (q.valid = false ∨ entBytes q ≤ 8 * fld b 31 3 → answers (.qrd l c b) s fun t =>
      t = precise (fetched s l c) l c sBOUNDS 3 (insWord 0x1C0 b)) ∧
    (q.valid = true → 8 * fld b 31 3 < entBytes q → 2 ^ 32 ≤ gt → answers (.qrd l c b) s fun t =>
      t = precise (fetched s l c) l c sBOUNDS 3 (readG x (fld b 38 4))) ∧
    (q.valid = true → 8 * fld b 31 3 < entBytes q → gt < 2 ^ 32 →
      (∀ n r, q.ents = n :: r → poisonAt k.sp (entAddr q n + 8 * fld b 31 3) 8 = none → answers (.qrd l c b) s fun t =>
        onlyCore s t l c
          (completed x fun x => writeP (writeG x (fld b 46 4) (rdWord k.sp.mem (entAddr q n + 8 * fld b 31 3))) (fld b 35 3) true)
          (if b.getLsbD 34 then
            setQ k qn { q with ents := r, held := if x.hasRec then q.held ++ [(n, c)] else q.held } else k)) ∧
      (∀ n r p, q.ents = n :: r → poisonAt k.sp (entAddr q n + 8 * fld b 31 3) 8 = some p → answers (.qrd l c b) s fun t =>
        t = precise (fetched s l c) l c sPOISON 3 (BitVec.ofNat 64 p)) ∧
      (q.ents = [] → answers (.qrd l c b) s fun t =>
        onlyCore s t l c
          { x with st := .waiting, slot := some (x.pc.toNat / 128), wait := .queue qn (fld b 35 3) false, waitNo := x.waitNo + 1
                   deadline := match x.deadline with | some d => some d | none => if gt = 0 then none else some (now s + gt + 1) }
          (setQ k qn { q with waiters := q.waiters.filter (· != c) ++ [c] })))) ∧
  (∀ (s : State) (l : Lcid) (c : CtxNo) (b : BitVec 54), issues s l c b (onlyFields b [(42, 4), (35, 3), (0, 6)]) anyRoom →
    let k := getCore s l
    let x := ctxOf s l c
    let qn := fld b 0 6
    let q := getQ k qn
    let a := (readG x (fld b 42 4)).toNat
    let n := entBytes q
    let put := fun (v : Bool) => completed x fun x => writeP x (fld b 35 3) v
    boundSide k true qn = none → boundSide k false qn = none →
    (q.valid = false → answers (.qput l c b) s fun t => t = precise (fetched s l c) l c sBOUNDS 3 (insWord 0x1C1 b)) ∧
    (q.valid = true → a + n ≤ 2 ^ 21 → a % n = 0 → poisonAt k.sp a n = none →
      (q.kind ≠ 2 → qFull q = true → answers (.qput l c b) s fun t => onlyCtx s t l c (put false)) ∧
      (q.kind ≠ 2 → qFull q = false → q.waiters = [] → (n < 32 → poisonAt k.sp (entAddr q q.tail) n = none) → answers (.qput l c b) s fun t =>
        onlyCore s t l c (put true) { setQ k qn
            { q with ents := q.ents ++ [q.tail], tail := q.tail + 1, nops := q.nops + 1
                     feeders := joinFeeder q.feeders (senderWord s l c) } with
          sp := slPut k.sp (entAddr q q.tail) (rdBytes k.sp.mem a n) }) ∧
      (q.kind ≠ 2 → qFull q = false → c ∉ q.waiters →
        (n < 32 → poisonAt k.sp (entAddr q q.tail) n = none) → answers (.qput l c b) s fun t =>
          ctxOf t l c = put true ∧ (getQ (getCore t l) qn).waiters = [] ∧
          (∀ w ∈ q.waiters, (∃ j p lk, (ctxOf s l w).wait = .queue j p lk) → effSt (ctxOf t l w) = .ready) ∧
          (∀ w, w ≠ c → w ∉ q.waiters → ctxOf t l w = ctxOf s l w) ∧
          (getQ (getCore t l) qn).ents = q.ents ++ [q.tail] ∧
          (getCore t l).sp = slPut k.sp (entAddr q q.tail) (rdBytes k.sp.mem a n)) ∧
      (q.kind = 2 →
        let bs := rdBytes k.sp.mem a 64
        let rnd := BitVec.ofNat 16 (leNat (bs.drop 62))
        (boomTakes q rnd = false → answers (.qput l c b) s fun t => onlyCtx s t l c (put false)) ∧
        (boomTakes q rnd = true → answers (.qput l c b) s fun t => onlyCore s t l c (put true)
          (setQ k qn { boomAdd q rnd (boomVals q (bs.take (boomLen q))) with
            feeders := joinFeeder q.feeders (senderWord s l c) })))))

/-- R206: QTEST writes whether the queue holds an entry, and changes nothing else but the pc. R253: QCFG of an aligned image
with no reserved value, whose ring lies aligned in the slice, configures a queue that is not in use, and answers PERM for
one that is. R254: a QRD whose timeout has passed ends with PD false and the pc at the next instruction; GD and the queue's
entries are as before. R256 to R258: round NEXT of a Boom, complete and with room in the ring, becomes an entry at the tail,
and NEXT goes on by one. So QTEST, QCFG, QRD_TIMEOUT and BOOM_ROUND_RELEASE complete. -/
def Obligations.QueueTestsAndEvents : Prop :=
  (∀ (s : State) (l : Lcid) (c : CtxNo) (b : BitVec 54),
    let k := getCore s l
    let x := ctxOf s l c
    let qn := fld b 0 6
    let q := getQ k qn
    boundSide k true qn = none → boundSide k false qn = none →
    (issues s l c b (onlyFields b [(35, 3), (0, 6)]) anyRoom →
      (q.valid = true → answers (.qtest l c b) s fun t =>
        onlyCtx s t l c (completed x fun x => writeP x (fld b 35 3) (!q.ents.isEmpty))) ∧
      (q.valid = false → answers (.qtest l c b) s fun t => t = precise (fetched s l c) l c sBOUNDS 3 (insWord 0x1C2 b))) ∧
    (issues s l c b (onlyFields b [(42, 4), (0, 6)]) anyRoom →
      let a := (readG x (fld b 42 4)).toNat
      let w := fun n => rdWord k.sp.mem (a + 8 * n)
      a < 2 ^ 21 → a % 32 = 0 → poisonAt k.sp a 32 = none →
      (queueOf qn (w 0) (w 1) (w 2) (w 3) = none →
        answers (.qcfg l c b) s fun t => t = precise (fetched s l c) l c sRSVD 3 (insWord 0x1C3 b)) ∧
      ∀ v, queueOf qn (w 0) (w 1) (w 2) (w 3) = some v →
        (v.valid = true → v.base.toNat % entBytes v = 0 ∧ v.base.toNat + capOf v * entBytes v ≤ 2 ^ 21) →
        (v.valid = true → v.kind = 2 → boomSlotsUsed k qn + boomDepth v ≤ 32) →
        (queueBusy q = true → answers (.qcfg l c b) s fun t => t = precise (fetched s l c) l c sPERM 3 (insWord 0x1C3 b)) ∧
        (queueBusy q = false → answers (.qcfg l c b) s fun t => onlyCore s t l c (completed x id) (setQ k qn v)))) ∧
  ((∀ (s : State) (l : Lcid) (c : CtxNo) (qn pd : Nat) (link : Bool) (d : Nat),
    let x := ctxOf s l c
    x.st = .waiting → x.wait = .queue qn pd link → x.deadline = some d → d ≤ now s →
    answers (.qrdTimeout l c) s fun t =>
      ctxOf t l c = writeP { x with st := .ready, wait := .none, deadline := none, pc := x.pc + 8 } pd false ∧
      (getQ (getCore t l) qn).ents = (getQ (getCore s l) qn).ents ∧ (getCore t l).sp = (getCore s l).sp ∧
      (∀ c', c' ≠ c → ctxOf t l c' = ctxOf s l c') ∧ ∀ l', l' ≠ l → getCore t l' = getCore s l') ∧
  ∀ (s : State) (l : Lcid) (qn : BitVec 6), asleep s = false →
    let k := getCore s l
    let q := getQ k qn.toNat
    boomReady q = true → qFull q = false →
    answers (.boomRoundRelease l qn) s fun t =>
      let k' := getCore t l
      (getQ k' qn.toNat).ents = q.ents ++ [q.tail] ∧ (getQ k' qn.toNat).next = q.next + 1 ∧
      k'.sp = slPut k.sp (entAddr q q.tail) (wordBytes (boomEntry q)) ∧
      k'.un.starts = k.un.starts ++ (if boomStart q then [.boom qn.toNat q.tail (boomHidx q)] else []) ∧
      ∀ l', l' ≠ l → getCore t l' = getCore s l')

/-- R282, R283: the bound queues of channel endpoints that the issuing context owns. QRD reads word W of the oldest word at an
inbound endpoint, those that a replay delivers again first, and with POP retains it; on a broken, empty one it writes false; QPUT gives an outbound endpoint with room 32 bytes and the next sequence; QTEST
tells whether a word waits; another context's QRD, QPUT and QTEST raise PERM. R279, R293: the word at the head of an outbound
skid queue moves to the inbound queue at the channel's end, if there is room; a word whose sequence was received before is
discarded, and one that finds no room stays; CHANNEL_WORD_DELIVER so completes on a working, unbroken channel with a word to
move, and what its storage is found to hold is reported (log entry 105). -/
def Obligations.Channels : Prop :=
  (∀ (s : State) (l : Lcid) (c : CtxNo) (b : BitVec 54) (d : Nat),
    let k := getCore s l
    let x := ctxOf s l c
    let qn := fld b 0 6
    (issues s l c b (onlyFields b [(46, 4), (38, 4), (35, 3), (34, 1), (31, 3), (0, 6)]) anyRoom → boundSide k true qn = some d →
      let e := getLink k true d
      (fld e.reg 44 9 ≠ c.toNat → answers (.qrd l c b) s fun t => t = precise (fetched s l c) l c sPERM 3 (insWord 0x1C0 b)) ∧
      (fld e.reg 44 9 = c.toNat → fld b 31 3 ≤ 3 → (readG x (fld b 38 4)).toNat < 2 ^ 32 →
        let R := fun (n : BitVec 32) (bs : List Byte) (e' : LinkEnd) => answers (.qrd l c b) s fun t =>
          onlyCore s t l c (completed x fun x => writeP (writeG x (fld b 46 4)
              (BitVec.ofNat 64 (leNat ((bs.drop (8 * fld b 31 3)).take 8)))) (fld b 35 3) true)
            (if b.getLsbD 34 then setLink k true d { e' with seq := n + 1, kept := e.kept ++ [(n, bs, false)] } else k)
        (∀ n bs r, e.again = (n, bs, false) :: r → R n bs { e with again := r }) ∧
        (∀ n bs r, e.again = [] → e.words = (n, bs, false) :: r → e.kept.length < 256 → R n bs { e with words := r }) ∧
        (e.again = [] → e.words = [] → e.broken = true → answers (.qrd l c b) s fun t =>
          onlyCtx s t l c (completed x fun x => writeP x (fld b 35 3) false)))) ∧
    (boundSide k false qn = some d →
      let e := getLink k false d
      let a := (readG x (fld b 42 4)).toNat
      issues s l c b (onlyFields b [(42, 4), (35, 3), (0, 6)]) anyRoom →
      (fld e.reg 44 9 ≠ c.toNat → answers (.qput l c b) s fun t => t = precise (fetched s l c) l c sPERM 3 (insWord 0x1C1 b)) ∧
      (fld e.reg 44 9 = c.toNat → e.broken = false → e.words.length < fld e.reg 56 7 → a + 32 ≤ 2 ^ 21 → a % 32 = 0 →
        poisonAt k.sp a 32 = none → answers (.qput l c b) s fun t =>
          onlyCore s t l c (completed x fun x => writeP x (fld b 35 3) true)
            (setLink k false d { e with words := e.words ++ [(e.seq, rdBytes k.sp.mem a 32, false)], seq := e.seq + 1 }))) ∧
    (issues s l c b (onlyFields b [(35, 3), (0, 6)]) anyRoom →
      ∀ inb, boundSide k inb qn = some d → (inb = false → boundSide k true qn = none) →
        let e := getLink k inb d
        (fld e.reg 44 9 ≠ c.toNat → answers (.qtest l c b) s fun t => t = precise (fetched s l c) l c sPERM 3 (insWord 0x1C2 b)) ∧
        (fld e.reg 44 9 = c.toNat → answers (.qtest l c b) s fun t =>
          onlyCtx s t l c (completed x fun x => writeP x (fld b 35 3) (!(e.again ++ e.words).isEmpty))))) ∧
  (∀ (s : State) (l m : Lcid) (d : BitVec 2) (err : WordErr) (side : Nat) (path : List Lcid) (n : BitVec 32) (bs : List Byte) (bad : Bool)
    (r : List (BitVec 32 × List Byte × Bool)),
    let e := getLink (getCore s l) false d.toNat
    let f := getLink (getCore s m) true side
    e.words = (n, bs, bad) :: r → channelEnd l e = some (m, side, path) → asleep s = false → linkValid e = true → e.broken = false →
    linkValid f = true → f.broken = false →
    (seenBefore n f.top = true → answers (.channelWordDeliver l ⟨d, err⟩) s fun t =>
      t = modCore s l fun k => setLink k false d.toNat { e with words := r }) ∧
    (seenBefore n f.top = false → linkDepth f ≤ f.words.length → answers (.channelWordDeliver l ⟨d, err⟩) s fun t => t = s) ∧
    (seenBefore n f.top = false → f.words.length < linkDepth f → answers (.channelWordDeliver l ⟨d, err⟩) s fun v => ∃ t, v = skidReport t l d.toNat err ∧
      (getLink (getCore t l) false d.toNat).words = r ∧
      getLink (getCore t m) true side = { f with words := f.words ++ [(n, bs, bad || err == .bad)], top := n + 1 } ∧
      stateRest t = stateRest s ∧ ∀ l', l' ≠ l → l' ≠ m → getCore t l' = getCore s l')) ∧
  ∀ (s : State) (l : Lcid) (d : Nat), skidReport s l d .none = s ∧ ∀ e : WordErr, (skidReport s l d e).cores = s.cores

/-! ### Messages (09_messages_and_queues.md R240 to R248) -/

/-- R242, R243: SEND of an aligned header and payload enters the message queue with the header that hardware completes and the
payload as they are at issue; a check that fails gives the completion queue an entry with its status instead, and the
context goes on. R207, R245: MSGREL frees the arrival slot of the message that started the context, at once or, in a context
with a record, at its next RING. R242, R244, R246, R247, R250: the steps of a message. An injected message leaves the queue
for the mesh and is remembered until its outcome; one that arrives is placed, held or bounced with the status of the first
check that it fails, a start needing a free arrival slot; a held one is placed when it can be, or bounced when its time is
up. R169, R172, R258: a waiting START whose handler entry is valid takes the lowest FREE context: READY at the handler's
address with the message's slot, length and sender in g1 to g3, every other register 0. R181: a fault notice starts the
fault handler in the same way, with the faulted context, fr0 and fr1 in g1 to g3. So SEND, MSGREL, MESSAGE_INJECT,
MESSAGE_ARRIVAL, HELD_MESSAGE_PLACED, ARR_TMO_EXPIRY, MESSAGE_START and FAULT_NOTICE_START complete. -/
def Obligations.Messages : Prop :=
  (∀ (s : State) (l : Lcid) (c : CtxNo) (b : BitVec 54),
    let k := getCore s l
    let x := ctxOf s l c
    (issues s l c b (onlyFields b [(46, 4), (42, 4), (0, 6)]) msgRoom →
      let a := (readG x (fld b 46 4)).toNat
      let y := (readG x (fld b 42 4)).toNat
      let w := fun n => rdWord k.sp.mem (a + 8 * n)
      let h := sendHdr s l c (w 0) (w 1) (w 2) (w 3)
      let cq := fld b 0 6
      (a % 32 ≠ 0 → answers (.send l c b) s fun t => t = precise (fetched s l c) l c sALIGN 4 (readG x (fld b 46 4))) ∧
      (a % 32 = 0 → a < 2 ^ 21 → y < 2 ^ 21 →
        (sendFault s k.sp a y h = none → answers (.send l c b) s fun t => onlyCore s t l c (completed x id)
          (modUn (feedQueue k cq (senderWord s l c)) fun u =>
            { u with nid := u.nid + 1
                     msgq := u.msgq ++ [⟨c, BitVec.ofNat 6 cq, ⟨h, rdBytes k.sp.mem y (hdrLen h), [], corePart s l, k.un.nid, 0, false⟩, k.un.nid⟩] })) ∧
        ∀ st, sendFault s k.sp a y h = some st → poisonAt k.sp a 32 = none → answers (.send l c b) s fun t =>
          ∃ u, onlyCore s u l c (completed x id) (feedQueue k cq (senderWord s l c)) ∧
            t = postEntry u l cq (complWords s st 0 0 0 0 0 (some h)))) ∧
    (issues s l c b (onlyFields b []) anyRoom →
      (x.src = .none → answers (.msgrel l c b) s fun t => onlyCtx s t l c (completed x id)) ∧
      (x.src ≠ .none → x.hasRec = true →
        answers (.msgrel l c b) s fun t => onlyCtx s t l c (completed x fun x => { x with defMsg := true })) ∧
      ∀ i, x.src = .slot i → x.hasRec = false → answers (.msgrel l c b) s fun t =>
        onlyCore s t l c (completed x fun x => { x with src := .none }) (modUn k fun u => { u with slots := sDel u.slots i })) ∧
    (issues s l c b (onlyFields b []) anyRoom → ∀ q n, x.src = .boom q n → x.hasRec = false → answers (.msgrel l c b) s fun t =>
      let v := getQ k q
      onlyCore s t l c (completed x fun x => { x with src := .none }) (setQ k q
        { v with held := v.held.filter (fun h => !(h.1 == n && h.2 == c)), ents := v.ents.filter (· != n) }))) ∧
  (((∀ (s : State) (l : Lcid) (o : SendOp), asleep s = false → occupied s l = true → nextSend (getCore s l) [] (getCore s l).un.msgq = some o →
    let J := fun (go : State → State) => answers (.messageInject l) s fun t => ∃ u, t = settle (go u) l o.ctx ∧
      (getCore u l).un.msgq = (getCore s l).un.msgq.filter (fun q => q.iss != o.iss) ∧
      (getCore u l).un.sent.map SentMsg.msg = (getCore s l).un.sent.map SentMsg.msg ++ [o.msg]
    (hdrFar s o.msg.h = none → (routeHops s (dgOf l) (dgOf (hdrDst o.msg.h))).isSome →
      J fun u => sendFrom u l ((msgPkt o.msg).toCore (hdrDst o.msg.h))) ∧
    ∀ d, hdrFar s o.msg.h = some d → hasRoute s d = true →
      J fun u => sendFar u (.pos l) (msgPkt o.msg) d l (some (hdrDst o.msg.h))) ∧
  (∀ (s u : State) (dg : Dg) (p : Pkt) (m0 : Msg), asleep s = false → takeArrived s dg (msgTakeable s dg) = some (p, u) →
    p.msg = some m0 → takenBefore (getGrove u dg) p = false →
    let m := { m0 with again := p.retried }
    let l := lcidOf dg p.dpos.toNat
    let v := modGrove u dg fun g => noteTaken g p
    occupied v l = true →
    (∀ st, arrivalFault v l m p.part = some st → answers (.messageArrival dg) s fun t => t = coreBounce v l m st) ∧
    (arrivalFault v l m p.part = none →
      let m' := { m with due := now v + arrTmo (getCore v l) + 1 }
      let held := modCore v l fun k => modUn k fun u => { u with hold := u.hold ++ [m'] }
      ((getCore v l).un.hold.any (sameRoom m') = true ∨ placeMsg v l m' = none → answers (.messageArrival dg) s fun t => t = held) ∧
      (∀ w, (getCore v l).un.hold.any (sameRoom m') = false → placeMsg v l m' = some w → answers (.messageArrival dg) s fun t => t = w) ∧
      ∀ i, (getCore v l).un.hold.any (sameRoom m') = false → hdrClass m.h = 0 → freeSlot (getCore v l) = some i →
        (slWrite (getCore v l).sp (slotAddr (getCore v l) i) (hdrBytes m.h ++ m.data)).2 = none → m.bad = [] →
        answers (.messageArrival dg) s fun t => t = acceptMsg (modCore v l fun k =>
          modUn (modSp k fun sl => slPut sl (slotAddr k i) (hdrBytes m.h ++ m.data)) fun u =>
            { u with slots := sIns u.slots i, starts := u.starts ++ [.msg i m'] }) l m')) ∧
  (∀ (s u : State) (l : Lcid) (m : Msg), asleep s = false → placeHeld s l [] (getCore s l).un.hold = some (m, u) →
    answers (.heldMessagePlaced l) s fun t => t = modCore u l fun k => modUn k fun v => { v with hold := v.hold.erase m }) ∧
  ∀ (s : State) (l : Lcid) (m : Msg) (p r : List Msg), asleep s = false → (getCore s l).un.hold = p ++ m :: r → m.due ≤ now s →
    (∀ x ∈ p, now s < x.due) →
    answers (.arrTmoExpiry l) s fun t => ∃ u, (getCore u l).un.hold = p ++ r ∧ t = coreBounce u l m sQTIMEOUT) ∧
  (∀ (s : State) (l : Lcid) (c : CtxNo), asleep s = false →
    let k := getCore s l
    lowestFree k = some c → occupied s l = true → mayStart k = true →
    let G := fun (t : State) (g1 g2 g3 : Word) (e : Word) => (ctxOf t l c).st = .ready ∧
      (ctxOf t l c).pc = BitVec.ofNat 21 (fld e 0 21) ∧ (ctxOf t l c).p = 0 ∧ (ctxOf t l c).ns0 = 0 ∧ (ctxOf t l c).tl0 = 0 ∧
      (∀ i, i < 16 → readG (ctxOf t l c) i = if i = 1 then g1 else if i = 2 then g2 else if i = 3 then g3 else 0) ∧
      (∀ c', c' ≠ c → ctxOf t l c' = ctxOf s l c') ∧ ∀ l', l' ≠ l → getCore t l' = getCore s l'
    (∀ i m, k.notices = [] → nextStart k [] k.un.starts = some (.msg i m) →
      let e := tget 0 k.ht (hdrHidx m.h).toNat
      fld m.h.w0 48 16 = fld k.role 48 16 → e.getLsbD 63 = true → answers (.messageStart l) s fun t =>
        G t (BitVec.ofNat 64 (slotAddr k i)) (BitVec.ofNat 64 (hdrLen m.h)) (BitVec.ofNat 64 (fld m.h.w1 0 36)) e ∧
        (getCore t l).un.starts = k.un.starts.erase (.msg i m) ∧ (ctxOf t l c).src = .slot i) ∧
    (∀ qn n h, k.notices = [] → nextStart k [] k.un.starts = some (.boom qn n h) →
      let e := tget 0 k.ht h.toNat
      e.getLsbD 63 = true → answers (.messageStart l) s fun t =>
        G t (BitVec.ofNat 64 (entAddr (getQ k qn) n)) 64 0 e ∧ (ctxOf t l c).src = .boom qn n) ∧
    ∀ f r0 r1 r, k.notices = (f, r0, r1) :: r →
      let e := tget 0 k.ht (fld k.ctrl 16 12)
      (e.getLsbD 63 = true → answers (.faultNoticeStart l) s fun t =>
        G t (BitVec.ofNat 64 f.toNat) r0 r1 e ∧ (getCore t l).notices = r ∧ (ctxOf t l c).origin = 1) ∧
      (e.getLsbD 63 = false → answers (.faultNoticeStart l) s fun t => t = setCore s l { k with notices := r, irqs := k.irqs + 1 })))

/-! ### Hauls and remote accesses (R250, R259 to R265) -/

/-- R259, R261, R262: HAUL and HAULL enter the haul queue with their parts, each as its checks leave it, and the context goes
on; a part of no bytes, or one that fails a check, has ended, and a haul whose parts have all ended gives its completion queue
its entry at once; a part list that cannot be read gives HAULL's entry its status. R260, R226: HAUL_PACKET_INJECT takes the
next packet of a part that waits for none. Between two places of the own slice its bytes move at once: chunks of the
destination that poison would reach are marked or left, the others hold the source's bytes; the packet is confirmed. From the
own slice to another place the bytes go out with a write request, from another place a request for them is sent, and the part
waits; a part whose packet has no place any more ends with LCID_VACANT. -/
def Obligations.Hauls : Prop :=
  (∀ (s : State) (l : Lcid) (c : CtxNo) (b : BitVec 54),
    let k := getCore s l
    let x := ctxOf s l c
    let cq := fld b 0 6
    let E := fun (i : Instr) (split : Bool) (parts : List Xfer) => answers i s fun t =>
      let o : HaulOp := ⟨k.un.nid, c, BitVec.ofNat 6 cq, BitVec.ofNat 16 (fld b 22 16), split, k.un.nid, parts⟩
      ∃ u, onlyCore s u l c (completed x id)
          (modUn (feedQueue k cq (senderWord s l c)) fun u => { u with hauls := u.hauls ++ [o], nid := u.nid + 1 }) ∧
        t = closeHaul u l k.un.nid ∧ ((∃ y ∈ parts, y.done = false) → (∀ h ∈ k.un.hauls, h.id ≠ k.un.nid) → t = u)
    (issues s l c b (onlyFields b [(46, 4), (42, 4), (38, 4), (22, 16), (0, 6)]) haulRoom →
      E (.haul l c b) false [newPart s l (readG x (fld b 46 4)) (readG x (fld b 42 4)) (readG x (fld b 38 4)).toNat]) ∧
    (issues s l c b (onlyFields b [(42, 4), (22, 16), (0, 6)]) haulRoom →
      let gy := readG x (fld b 42 4)
      (gy.toNat % 8 ≠ 0 → answers (.haull l c b) s fun t => t = precise (fetched s l c) l c sALIGN 5 gy) ∧
      (gy.toNat % 8 = 0 → 2 ^ 21 ≤ gy.toNat → answers (.haull l c b) s fun t => t = precise (fetched s l c) l c sBOUNDS 5 gy) ∧
      (gy.toNat % 8 = 0 → gy.toNat < 2 ^ 21 →
        (∀ parts, readParts s l gy.toNat = .inr parts → E (.haull l c b) true parts) ∧
        ∀ st, readParts s l gy.toNat = .inl st → answers (.haull l c b) s fun t =>
          ∃ u, onlyCore s u l c (completed x id) (feedQueue k cq (senderWord s l c)) ∧
            t = postEntry u l cq (complWords u st 2 (fld b 22 16) 0 0 0 none)))) ∧
  (∀ (s : State) (l : Lcid) (op part : Nat) (o : HaulOp) (x : Xfer), asleep s = false → occupied s l = true →
    findHaul (getCore s l) op = some o → o.parts[part]? = some x → x.done = false → x.phase = 0 → x.lost = false →
    let n := packetLen x x.conf
    let at' := BitVec.ofNat 64 (packetAt x x.conf)
    (∀ so do', partPlace s l (x.src + at') = some (.slice l so) → partPlace s l (x.dst + at') = some (.slice l do') →
      let f := slFetch (getCore s l).sp so n
      let r := slCopy (getCore s l).sp do' f.1 f.2
      answers (.haulPacketInject l op part) s fun t =>
        let u := modCore s l fun k => { k with sp := r.1 }
        t = stepPart u l op part fun x => confirmPacket u (match r.2 with
          | some q => notePoison x (x.dst + at' + BitVec.ofNat 64 (q - do')) | none => x)) ∧
    (∀ so pl, partPlace s l (x.src + at') = some (.slice l so) → partPlace s l (x.dst + at') = some pl → (∀ do', pl ≠ .slice l do') →
      let f := slFetch (getCore s l).sp so n
      answers (.haulPacketInject l op part) s fun t => t = haulWrite s l op part x (x.dst + at') pl f.1 f.2) ∧
    (∀ so, partPlace s l (x.src + at') = some (.slice l so) → partPlace s l (x.dst + at') = none →
      answers (.haulPacketInject l op part) s fun t => t = stepPart s l op part fun x => endPart x sVACANT) ∧
    (partPlace s l (x.src + at') = none →
      answers (.haulPacketInject l op part) s fun t => t = stepPart s l op part fun x => endPart x sVACANT) ∧
    ∀ pl, partPlace s l (x.src + at') = some pl → (∀ so, pl ≠ .slice l so) →
      let tag := (getCore s l).un.tag
      answers (.haulPacketInject l op part) s fun t =>
        t = sendTo (modCore (modPart s l op part fun _ => { x with phase := 1, tag := tag, tick := now s }) l bumpTag) l
          { Pkt.blank with kind := 0, addr := placeWord pl, tag := tag, len := n } pl)

/-- R237, R300, R357, R416: requests that have arrived. A read of a slice or of a partition's range is answered with the bytes
and their poison, a write is applied and acknowledged, and a request that its place refuses is answered with the status; a
request beyond the range of its partition gets BOUNDS. R250, R260, R248: responses at the issuing core. Data or an
acknowledgement ends the narrow access that asked for it: with OK the context is READY at its next instruction with the loaded
value; a packet of a haul goes on, or its part ends with the status. An entry that answers a SEND takes it off the outstanding
list; a bounce goes to q63, an acceptance to the SEND's queue where NOTIFY asks for it; of a SEND that is not outstanding any more, or is
marked lost, a bounce still goes to q63. So RD_REQ, WR_REQ and HBM_ACCESS
complete on the next request of their place, RD_RSP, WR_ACK and COMPL on the next response for a position of their grove. -/
def Obligations.RequestsAndResponses : Prop :=
  ((∀ (s u : State) (dg : Dg) (p : Pkt) (l : Lcid), asleep s = false →
    (takeReq s dg 0 = some (p, l, u) →
      (∀ st, sliceReqFault u l p = some st →
        answers (.rdReq (.grove dg)) s fun t => t = reply u (posSide u l) p { Pkt.blank with kind := 2, arg0 := statusWord st }) ∧
      (sliceReqFault u l p = none →
        let r := slFetch (getCore u l).sp (reqOff p) p.len
        answers (.rdReq (.grove dg)) s fun t => t = reply u (.pos l) p
          { Pkt.blank with kind := 2, data := r.1, bad := r.2, len := p.len
                           arg0 := statusWord (okOf p (if r.2.isEmpty then sOK else sPOISON)) })) ∧
    (takeReq s dg 1 = some (p, l, u) →
      (∀ st, sliceReqFault u l p = some st →
        answers (.wrReq (.grove dg)) s fun t => t = reply u (posSide u l) p { Pkt.blank with kind := 3, arg0 := statusWord st }) ∧
      (sliceReqFault u l p = none →
        let r := slCopy (getCore u l).sp (reqOff p) p.data p.bad
        let v := modCore u l fun k => { k with sp := r.1 }
        answers (.wrReq (.grove dg)) s fun t => t = reply v (.pos l) p (match r.2 with
          | none => { Pkt.blank with kind := 3, arg0 := statusWord (okOf p sOK) }
          | some q => { Pkt.blank with kind := 3, arg0 := statusWord sPOISON, arg1 := p.addr + BitVec.ofNat 64 (q - reqOff p) })))) ∧
  ∀ (s u : State) (t : BitVec 2) (ups : List Upset) (p : Pkt), asleep s = false → hbmServes s t = true →
    takeLanding s (epHbm t) (fun p => p.kind == 0 || p.kind == 1) = some (p, u) →
    let v := ups.foldl (fun s w => hbmUpset s t w) u
    (p.kind = 0 → rangeSize v p.part.toNat < reqOff p + p.len →
      answers (.hbmAccess t ups) s fun z => z = reply v (.ep (epHbm t)) p { Pkt.blank with kind := 2, arg0 := statusWord sBOUNDS }) ∧
    (p.kind = 0 → reqOff p + p.len ≤ rangeSize v p.part.toNat →
      let r := hbmFetch v p.part.toNat (reqOff p) p.len
      answers (.hbmAccess t ups) s fun z => z = reply v (.ep (epHbm t)) p
        { Pkt.blank with kind := 2, data := r.1, bad := r.2, len := p.len
                         arg0 := statusWord (okOf p (if r.2.isEmpty then sOK else sPOISON)) }) ∧
    (p.kind = 1 → rangeSize v p.part.toNat < reqOff p + p.len →
      answers (.hbmAccess t ups) s fun z => z = reply v (.ep (epHbm t)) p { Pkt.blank with kind := 3, arg0 := statusWord sBOUNDS }) ∧
    (p.kind = 1 → reqOff p + p.len ≤ rangeSize v p.part.toNat →
      let r := hbmStore v p.part.toNat (reqOff p) p.data p.bad
      answers (.hbmAccess t ups) s fun z => z = reply r.1 (.ep (epHbm t)) p (match r.2 with
        | none => { Pkt.blank with kind := 3, arg0 := statusWord (okOf p sOK) }
        | some q => { Pkt.blank with kind := 3, arg0 := statusWord sPOISON, arg1 := p.addr + BitVec.ofNat 64 (q - reqOff p) })) ∧
    (p.kind = 0 → ups = [] → answers (.rdReq (.hbm t)) s fun z => exec (.hbmAccess t []) s = .next z) ∧
    (p.kind = 1 → ups = [] → answers (.wrReq (.hbm t)) s fun z => exec (.hbmAccess t []) s = .next z)) ∧
  (∀ (s u : State) (dg : Dg) (p : Pkt) (l : Lcid), asleep s = false →
    let C := fun (o : NarrowOut) (st : Status) (t : State) => (getCore t l).un.narrows = (getCore u l).un.narrows.filter (fun n => n.tag != o.tag) ∧
      (o.dead = false → st = sOK ∨ st = sRETRIED → (ctxOf u l o.ctx).st = .waiting →
        (ctxOf t l o.ctx).st = .ready ∧ (ctxOf t l o.ctx).wait = .none ∧ (ctxOf t l o.ctx).pc = (ctxOf u l o.ctx).pc + 8)
    (takeAtPos s dg 2 = some (p, l, u) →
      let st := readStatus p
      (∀ o, narrowByTag (getCore u l) true p.tag = some o → st = sOK ∨ st = sRETRIED → answers (.rdRsp (.grove dg)) s fun t => C o st t ∧
        (o.dead = false → o.load = true → o.gs ≠ 0 →
          readG (ctxOf t l o.ctx) o.gs.toNat = loadValue o.size o.sext (leNat p.data))) ∧
      ∀ id i x, narrowByTag (getCore u l) true p.tag = none → partByTag (getCore u l) 1 p.tag = some (id, i, x) →
        (goes st = false → answers (.rdRsp (.grove dg)) s fun t => t = stepPart u l id i fun x => endPart x st) ∧
        (goes st = true → answers (.rdRsp (.grove dg)) s fun t =>
          let x' := { x with retried := x.retried || st == sRETRIED || p.retried }
          t = haulData (modPart u l id i fun _ => x') l id i x' p.data (badOf p))) ∧
    (takeArrived s dg (fun p => p.kind == 3) = some (p, u) → p.exit = 0 → l = lcidOf dg p.dpos.toNat →
      let st := pktStatus p
      (∀ o, narrowByTag (getCore u l) false p.tag = some o → st = sOK ∨ st = sRETRIED → answers (.wrAck (.grove dg)) s fun t => C o st t) ∧
      ∀ id i x, narrowByTag (getCore u l) false p.tag = none → partByTag (getCore u l) 2 p.tag = some (id, i, x) →
        (goes st = false → answers (.wrAck (.grove dg)) s fun t => t = stepPart u l id i fun x => endPart x st) ∧
        (goes st = true → st ≠ sPOISON → answers (.wrAck (.grove dg)) s fun t =>
          t = stepPart u l id i fun x => confirmPacket u { x with retried := x.retried || st == sRETRIED || p.retried }) ∧
        (st = sPOISON → answers (.wrAck (.grove dg)) s fun t => t = stepPart u l id i fun x =>
          confirmPacket u (notePoison x (x.dst + BitVec.ofNat 64 (packetAt x x.conf) + (p.arg1 - p.addr))))) ∧
    (takeAtPos s dg 5 = some (p, l, u) → ∀ o, sentOf (getCore u l) p (entryWords u p) = some o → o.lost = false →
      let ws := entryWords u p
      let v := dropSent u l o.msg.mid
      (fld (ws.headD 0) 52 4 = 3 →
        answers (.compl (.grove dg)) s fun t => t = markEntry v (postQ63 v l ws) l 63 p.bad) ∧
      (fld (ws.headD 0) 52 4 ≠ 3 → hdrNotify o.msg.h = false → answers (.compl (.grove dg)) s fun t => t = v) ∧
      (fld (ws.headD 0) 52 4 ≠ 3 → hdrNotify o.msg.h = true → o.retried = false → p.retried = false →
        answers (.compl (.grove dg)) s fun t => t = markEntry v (postEntry v l o.cq.toNat ws) l o.cq.toNat p.bad)) ∧
    (takeAtPos s dg 5 = some (p, l, u) → (∀ o, sentOf (getCore u l) p (entryWords u p) = some o → o.lost = true) →
      let ws := entryWords u p
      answers (.compl (.grove dg)) s fun t =>
        t = if fld (ws.headD 0) 52 4 = 3 then markEntry u (postQ63 u l ws) l 63 p.bad else u))

/-- R264, R265, R308, R334: REMOTE_TMO_EXPIRY marks an overdue operation towards another device as lost, and REMOTE_LOST_COMPLETE
ends a lost one with REMOTE_LOST, 50 ms after its last packet. DETOUR_RESEND: what a core, a grove's own unit or the PCIe
controller still awaits 100 µs after a blaze notice is sent again with RESENT set: a narrow access as the same request, a
haul's packet as the same read or the same bytes written; what has no place any more ends with LCID_VACANT. -/
def Obligations.LossesAndResends : Prop :=
  (∀ (s : State) (l : Lcid) (o : OpRef) (x : Loss), asleep s = false → lossOf s l o = some x →
    (x.fars ≠ [] → x.tick + remoteTmo (getCore s l) + 1 ≤ now s →
      answers (.remoteTmoExpiry l o) s fun t => t = markLost s l o ∧ lossOf t l o = some { x with lost := true }) ∧
    (x.lost = true → x.tick + 50001 ≤ now s → answers (.remoteLostComplete l o) s fun t =>
      t = match x.fars with | d :: _ => reportLost (endOp s l o sLOST) l d | [] => endOp s l o sLOST)) ∧
  (∀ (s : State) (f : Sender) (n : Nat), asleep s = false → s.notice = some n → n + 101 ≤ now s → senderWorks s f = true →
    answers (.detourResend f) s fun t => t = match f with
      | .core l => resendCore n l s
      | .unit dg => resendUnit n dg s
      | .pcie => (below 17).foldl (fun s f => (getFn s f).cmds.foldl (resendHost n f) s) s) ∧
  (∀ (s : State) (l : Lcid) (n : Nat) (o : NarrowOut) (a : Addr), n + 101 ≤ now s →
    let k := getCore s l
    staleParts s n k = [] → k.un.syncs = [] → k.un.sent = [] → k.un.narrows = [o] → o.lost = false →
    (n < o.tick → resendCore n l s = s) ∧
    (o.tick ≤ n → addrOf o.addr = some a → vacantAddr s a = false → cutOff s (dgOf l) a = false →
      let pl := place s l (corePart s l) a
      resendCore n l s = sendTo (modCore s l fun k => modUn k fun u => { u with narrows := [{ o with tick := now s }] }) l
        { Pkt.blank with kind := if o.load then 0 else 1, addr := placeWord pl, tag := o.tag, sctx := o.ctx, len := o.size
                         retried := true, data := if o.load then [] else leBytes o.size o.value.toNat } pl)) ∧
  ∀ (s : State) (l : Lcid) (id i : Nat) (x : Xfer),
    let w := if x.phase = 1 then x.src else x.dst
    let at' := w + BitVec.ofNat 64 (packetAt x x.conf)
    (partPlace s l at' = none → resendPart s l id i x = stepPart s l id i fun x => endPart x sVACANT) ∧
    ∀ pl, partPlace s l at' = some pl → ∃ p : Pkt, p.retried = true ∧ p.tag = x.tag ∧ p.addr = placeWord pl ∧
      (x.phase = 1 → p.kind = 0 ∧ p.len = packetLen x x.conf) ∧ (x.phase ≠ 1 → p.kind = 1 ∧ p.data = x.data ∧ p.bad = x.bad) ∧
      resendPart s l id i x = sendTo (modPart s l id i fun _ => { x with retried := true, tick := now s }) l p pl

/-! ### The mesh (11_mesh_and_reduction.md) -/

/-- R298, R302, R303: PACKET_FORWARD on an output of a working router that a waiting packet may take completes: one such packet,
or the part of a multicast that leaves by this output (R309), goes. It is in the neighbour's buffer with one more hop, at the
Landing endpoint that it is for, or among the router's arrivals; nothing else of it stays, and packets that waited for room may enter (R301).
R297: all that SEC-DED finds in its words on the links is counted or reported against the receiving router, and each uncorrectable error poisons
data bytes. R299: a waiting packet of a
reserved kind is discarded with an INTERNAL report. R309, R310: MCAST_WR takes the head of a buffer that has this router's own
grove in its mask, or groves that no route reaches: it writes the own slice, acknowledges those groves with LCID_VACANT, and
leaves the rest of the mask waiting. R303, R304: MGT: a management packet is taken, and nothing else changes (log entry 28, the
model's choice). -/
def Obligations.MeshPackets : Prop :=
  (∀ (s : State) (x y : BitVec 4) (h : Hop), asleep s = false →
    let r := dgAt x.toNat y.toNat
    let o := outNo h.out
    let g := getGrove s r
    g.out = false →
    (∀ q, badHead g = some q → answers (.packetForward x y h) s fun t =>
      (getGrove t r).pkts = (refill { g with pkts := g.pkts.erase q }).pkts ∧ t.errs.reports.length = s.errs.reports.length + 1 ∧
      t.cores = s.cores) ∧
    (badHead g = none → candidates s r o ≠ [] → answers (.packetForward x y h) s fun t => ∃ u q p,
      t = linkChecks (linkChecks u (r, q.port) (comeErrs q h)) (receiver r o) h.errs ∧ (h.errs = [] → h.come = [] → t = u) ∧
      t.cores = s.cores ∧ t.hbm = s.hbm ∧ q ∈ candidates s r o ∧ leaving s r o q.pkt = some p ∧
      let p' := atWay r (h.errs.foldl afterLink ((comeErrs q h).foldl afterLink p))
      let stays := ∃ ws : List InPkt, (∀ w ∈ ws, w ∈ g.wait) ∧
        (getGrove u r).pkts.map InPkt.pkt = (without r o g.pkts q p).map InPkt.pkt ++ ws.map InPkt.pkt
      (∀ n, o < 4 → neighbour r o = some n → n ≠ r → stays ∧
        (getGrove u n).pkts = (getGrove s n).pkts ++ [⟨inPortOf o, [], { p' with hops := BitVec.ofNat 5 (min (p'.hops.toNat + 1) 31) }⟩] ∧
        u.landing = s.landing) ∧
      (o = 20 ∨ o = 21 → (getGrove u r).arrived = g.arrived ∧ tget [] u.landing p'.ep = tget [] s.landing p'.ep ++ [p']) ∧
      (4 ≤ o → o < 20 ∨ 21 < o → (getGrove u r).arrived = g.arrived ++ [p'] ∧ u.landing = s.landing) ∧
      (4 ≤ o → stays))) ∧
  ((∀ (s : State) (r : Dg) (q : InPkt), asleep s = false → (getGrove s r).out = false →
    firstThat (mcastHere s r) (bufHeads [] (getGrove s r).pkts) = some q →
    let p := atWay r q.pkt
    let dead := mcastDead s r p
    answers (.mcastWr r) s fun t => ∃ u,
      t = (maskDgs dead).foldl (fun v d => mcastAck v r d p sVACANT) (if p.mask.testBit r.toNat then mcastLocal u r p else u) ∧
      u.cores = s.cores ∧ ((∀ d ∈ maskDgs p.mask, d = r ∨ dead.testBit d.toNat = true) →
        (getGrove u r).pkts = (refill { getGrove s r with pkts := (getGrove s r).pkts.erase q }).pkts) ∧
      (∀ d ∈ maskDgs p.mask, d ≠ r → dead.testBit d.toNat = false → ∃ w ∈ (getGrove u r).pkts, w.pkt.mask.testBit d.toNat = true)) ∧
  (∀ (s : State) (r : Dg) (p : Pkt), let l := lcidOf r p.dpos.toNat
    sliceReqFault s l { p with addr := BitVec.ofNat 64 (fld p.addr 0 21), len := p.data.length } = none → p.fab.isSome →
    (getCore (mcastLocal s r p) l).sp = (slCopy (getCore s l).sp (fld p.addr 0 21) p.data p.bad).1) ∧
  ∀ (s u : State) (dg : Dg) (p : Pkt), asleep s = false →
    (takeArrived s dg (fun p => p.kind == 10) = some (p, u) → answers (.mgt (.grove dg)) s fun t => t = u) ∧
    (takeLanding s epLookout (fun p => p.kind == 10) = some (p, u) → answers (.mgt .lookout) s fun t => t = u))

/-! ### Sync objects (09_messages_and_queues.md R266 to R270, R565) -/

/-- R208, R266: each sync instruction of a well-formed name, on a reachable working grove, sends its operation to the object's
router; SWAIT, SACQ and SRD wait for the answer, the others go on at once. A malformed name or a timeout above 32 bits
raises BOUNDS, a name of a grove that does not work VACANT. So SWAIT, SACQ, SRD, SADD, SARRIVE, SSET, SCLR and SREL complete
their issue. -/
def Obligations.SyncInstructions : Prop :=
  ∀ (s : State) (l : Lcid) (c : CtxNo) (b : BitVec 54),
    let k := getCore s l
    let x := ctxOf s l c
    let name := readG x (fld b 46 4)
    let S := fun (i : Instr) (fs : List (Nat × Nat)) (op : BitVec 4) (waits timed : Bool) =>
      issues s l c b (onlyFields b ((46, 4) :: fs)) anyRoom →
      let gt := if timed then readG x (fld b 38 4) else 0
      (syncNameOk name = false → answers i s fun t => t = precise (fetched s l c) l c sBOUNDS 0 name) ∧
      (syncNameOk name = true → 0xFFFFFFFF < gt.toNat → answers i s fun t => t = precise (fetched s l c) l c sBOUNDS 0 gt) ∧
      (syncNameOk name = true → gt.toNat ≤ 0xFFFFFFFF →
        (name.getLsbD 48 = false → groveWorks s (syncDg name) = false →
          answers i s fun t => t = precise (fetched s l c) l c sVACANT 0 name) ∧
        (name.getLsbD 48 = true ∨ groveWorks s (syncDg name) = true → syncStop s l name = none → answers i s fun t => ∃ u o,
          t = sendSync u l o ∧ o.tag = k.un.tag ∧ o.ctx = c ∧ o.op = op ∧ o.name = name ∧ o.gv = readG x (fld b 42 4) ∧
          onlyCore s u l c
            (if waits then { completed x id with st := .waiting, wait := .sync k.un.tag, waitNo := x.waitNo + 1
                                                 deadline := if timed && gt != 0 then some (now s + gt.toNat + 1) else none }
             else completed x id)
            (modUn k fun v => { v with tag := v.tag + 1, syncs := v.syncs ++ [o] })))
    S (.sadd l c b) [(42, 4)] 0 false false ∧ S (.sarrive l c b) [] 1 false false ∧ S (.sset l c b) [] 2 false false ∧
    S (.sclr l c b) [] 3 false false ∧ S (.swait l c b) [(42, 4), (38, 4), (31, 3)] 4 true true ∧
    S (.sacq l c b) [(42, 4), (38, 4), (31, 3)] 5 true true ∧ S (.srel l c b) [(42, 4)] 6 false false ∧
    S (.srd l c b) [(34, 4)] 7 true false

/-- R267, R268, Table 09.6: a sync operation at its object, which anchors no reduction. A failed check is answered with its
status and changes nothing; otherwise a counter adds, an arrival counts and at PARAM begins the next phase, an event is set
or cleared, a semaphore's units are taken or return, and a read answers the value; the object's waiters are served after it.
A wait whose condition holds is answered, one that does not is registered, or sent back while the table is full. R267, R268,
R565: SYNC_ANS at the core. OK lets a waiting context go on with PD true, or with the value read; a withdrawn wait goes on
with PD false; an operation without a wait is done, and gives an entry if it failed; the answer to one that is marked lost is discarded, and units
that it grants go back. SYNC_REPRESENT presents an operation
that a full table refused again at a later tick. SYNC_WAIT_TIMEOUT: a wait whose time is up sends its cancel and waits on,
or ends where no router has it; SYNC_CANCEL at the router withdraws an operation that is still registered. So SYNC_OP
completes on the next operation for an object of its grove. -/
def Obligations.SyncOperationsAnswered : Prop :=
  (∀ (s u : State) (dg : Dg) (p : Pkt) (op : BitVec 4), asleep s = false →
    takeArrived s dg (syncTakeable s false) = some (p, u) → takenBefore (getGrove u dg) p = false →
    let v := modGrove u dg fun g => noteTaken g p
    let ix := syncIx p.arg0
    let o := getObj (getGrove v dg) ix
    groveWorks v dg = true → syncDg p.arg0 = dg → redOf v dg ix = none → p.addr = BitVec.ofNat 64 op.toNat → op.toNat < 8 →
    let A := fun (P : State → Prop) => answers (.syncOp dg) s P
    (∀ st, syncCheck o p.part op p.arg1 = some st → A fun t => t = syncAnswer v dg p st 0 0) ∧
    (syncCheck o p.part op p.arg1 = none →
      (op = 7 → A fun t => t = syncAnswer v dg p sOK 0 o.val) ∧
      (op = 4 → condHolds o op p.arg1 = true → A fun t => t = syncAnswer v dg p sOK 0 o.val) ∧
      (op = 4 → condHolds o op p.arg1 = false → (getGrove v dg).waiters.length < 4096 → A fun t =>
        t = modGrove v dg fun g => { g with waiters := g.waiters ++ [⟨ix, op, p.arg1, p⟩] }) ∧
      (op = 4 ∨ op = 5 → condHolds o op p.arg1 = false → 4096 ≤ (getGrove v dg).waiters.length → A fun t => t = syncAnswer v dg p sOK 2 0) ∧
      (op = 5 →
        let behind := (getGrove v dg).waiters.any fun w => w.obj == ix && w.op == 5
        (condHolds o op p.arg1 = true → behind = false → A fun t => ∃ w, t = syncAnswer (serveWaiters w dg ix) dg p sOK 0 o.val ∧
          (getObj (getGrove w dg) ix).val = o.val - p.arg1) ∧
        (condHolds o op p.arg1 = false ∨ behind = true → (getGrove v dg).waiters.length < 4096 → A fun t =>
          (getGrove t dg).waiters = (getGrove v dg).waiters ++ [⟨ix, op, p.arg1, p⟩] ∧ (getObj (getGrove t dg) ix).val = o.val)) ∧
      (op = 6 ∨ op.toNat < 4 → A fun t => ∃ w, t = syncAnswer (serveWaiters w dg ix) dg p sOK 0 0 ∧
        (getObj (getGrove w dg) ix).cfg = o.cfg ∧ (getGrove w dg).waiters = (getGrove v dg).waiters ∧
        (getObj (getGrove w dg) ix).val =
          if op = 0 ∨ op = 6 then o.val + p.arg1 else if op = 2 then 1 else if op = 3 then 0
          else if fld o.val 0 32 + 1 = objParam o then BitVec.ofNat 64 ((fld o.val 32 32 + 1) % 2 ^ 32 * 2 ^ 32)
          else BitVec.ofNat 64 (fld o.val 32 32 * 2 ^ 32 + (fld o.val 0 32 + 1) % 2 ^ 32)))) ∧
  ((∀ (s u : State) (dg : Dg) (p : Pkt) (o : SyncOut), asleep s = false →
    takeArrived s dg (fun p => p.kind == 7) = some (p, u) → p.exit = 0 →
    let l := lcidOf dg p.dpos.toNat
    let x := ctxOf u l o.ctx
    let code := fld p.arg0 0 2
    let R := fun (P : Ctx → Prop) => answers (.syncAns (.grove dg)) s fun t =>
      (getCore t l).un.syncs = (getCore u l).un.syncs.filter (fun q => q.tag != o.tag) ∧ P (ctxOf t l o.ctx)
    syncByTag (getCore u l) p.tag = some o → o.lost = false → o.dead = false → x.st = .waiting → x.wait = .sync o.tag →
    let go := { x with st := .ready, wait := .none, deadline := none }
    let fine := pktStatus p = sOK ∨ pktStatus p = sRETRIED
    (code = 0 → fine → o.op = 4 ∨ o.op = 5 → o.waits = true → R fun y => y = writeP go o.pd.toNat true) ∧
    (code = 0 → fine → o.op = 7 → R fun y => y = writeG go o.gd.toNat p.arg1) ∧
    (code = 1 → R fun y => y = writeP go o.pd.toNat false)) ∧
  (∀ (s u : State) (dg : Dg) (p : Pkt) (o : SyncOut), asleep s = false →
    takeArrived s dg (fun p => p.kind == 7) = some (p, u) → p.exit = 0 →
    let l := lcidOf dg p.dpos.toNat
    syncByTag (getCore u l) p.tag = some o → o.lost = false → o.dead = false → o.waits = false → o.op ≠ 7 → fld p.arg0 0 2 = 0 →
    (pktStatus p = sOK ∨ pktStatus p = sRETRIED → answers (.syncAns (.grove dg)) s fun t => t = dropSync u l o.tag) ∧
    (pktStatus p ≠ sOK → pktStatus p ≠ sRETRIED → answers (.syncAns (.grove dg)) s fun t =>
      t = syncFailed (dropSync u l o.tag) l (pktStatus p) o.name)) ∧
  (∀ (s u : State) (dg : Dg) (p : Pkt) (o : SyncOut), asleep s = false →
    takeArrived s dg (fun p => p.kind == 7) = some (p, u) → p.exit = 0 →
    let l := lcidOf dg p.dpos.toNat
    syncByTag (getCore u l) p.tag = some o → o.lost = true → o.dead = false →
    let v := modCore u l fun k => modUn k fun w => { w with syncs := w.syncs.map fun q => if q.tag = o.tag then { q with retry := true } else q }
    answers (.syncAns (.grove dg)) s fun t =>
      t = if o.op = 5 ∧ fld p.arg0 0 2 = 0 ∧ (pktStatus p = sOK ∨ pktStatus p = sRETRIED) then returnUnits v l o else v) ∧
  (∀ (s : State) (l : Lcid) (c : CtxNo) (o : SyncOut), asleep s = false →
    firstThat (fun o => o.ctx == c && o.retry && !o.dead && !o.lost && decide (o.tick < now s)) (getCore s l).un.syncs = some o →
    syncStop s l o.name = none → answers (.syncRepresent l c) s fun t =>
      let o' := { o with retry := false, seq := reqSeq s l, tick := now s }
      t = sendSync (modCore s l fun k => modUn k fun u => { u with syncs := u.syncs.map fun q => if q.tag = o.tag then o' else q }) l o') ∧
  (∀ (s : State) (l : Lcid) (c : CtxNo) (t d : Nat) (o : SyncOut),
    (ctxOf s l c).st = .waiting → (ctxOf s l c).wait = .sync t → (ctxOf s l c).deadline = some d → d ≤ now s →
    firstThat (fun o => o.tag == t) (getCore s l).un.syncs = some o →
    (o.lost = true → answers (.syncWaitTimeout l c) s fun z => z = s) ∧
    (o.lost = false → o.retry = true → answers (.syncWaitTimeout l c) s fun z => z = syncTimedOut (dropSync s l t) l o) ∧
    (o.lost = false → o.retry = false → answers (.syncWaitTimeout l c) s fun z => ∃ u, z = sendCancel u l o ∧
      ctxOf u l c = { ctxOf s l c with deadline := none } ∧
      (getCore u l).un.syncs = (getCore s l).un.syncs.map fun q => if q.tag = t then { q with cancel := true } else q)) ∧
  ∀ (s u : State) (dg : Dg) (p : Pkt), asleep s = false →
    takeArrived s dg (syncTakeable s true) = some (p, u) → takenBefore (getGrove u dg) p = false →
    let same := fun (w : Waiter) => w.pkt.tag == p.tag && match w.pkt.fab, p.fab with
      | some a, some b => a.srcDid == b.srcDid && a.srcLcid == b.srcLcid
      | none, none => w.pkt.src == p.src && w.pkt.spos == p.spos
      | _, _ => false
    ((getGrove u dg).waiters.any same = true → answers (.syncCancel dg) s fun t =>
      ∃ v, t = serveWaiters (syncAnswer v dg p sOK 1 0) dg (syncIx p.arg0) ∧
        (getGrove v dg).waiters = (getGrove u dg).waiters.filter fun w => !same w) ∧
    ((getGrove u dg).waiters.any same = false → answers (.syncCancel dg) s fun t => t = modGrove u dg fun g => noteTaken g p))

/-! ### Reductions (R311 to R319) -/

/-- R312: REDUCTION_ARM: an image that passes its checks is armed, at rest, with the occupied positions that it names as
contributors; one that does not is not; the status is returned. R317, R318: RED_PACKET at the router of an armed reduction: a
chunk in fast mode is combined into its node's sum of that index, whole sums going on towards the root; in reproducible mode
chunks are combined in ascending order of the lowest contributor. R315: RED_CREDIT frees a buffer of its sender, and what waits
for one goes. R317: the fast-mode
add of two W32 blocks of one exponent that is not 0xFF, with no sum outside 32 bits, keeps the exponent, adds the
significands, and counts nothing; a block of exponent 0xFF makes the sum one, with significands 0. -/
def Obligations.Reductions : Prop :=
  ((∀ (s : State) (image : List Word), asleep s = false →
    (armFault s image = none → answers (.reductionArm image) s fun t =>
      t = { s with reds := s.reds ++ [freshRed image (imageMembers s image) none], host := { s.host with armSt := some sOK } }) ∧
    (∀ st, armFault s image = some st → answers (.reductionArm image) s fun t => t = { s with host := { s.host with armSt := some st } })) ∧
  (∀ (s u : State) (dg : Dg) (p : Pkt) (r : Red), asleep s = false →
    takeArrived s dg (fun p => p.kind == 8 && p.exit == 3) = some (p, u) → redByName u p.arg0 = some r →
    let i := fld p.arg1 32 32
    let v := inputNode r p.tag
    let c := pktChunk r p
    (redRepro r = false → answers (.redPacket dg) s fun t => t = closeSum (takeInput u p.arg0 v p.tag i c) p.arg0 v i) ∧
    (redRepro r = true → answers (.redPacket dg) s fun t => t = closeSum
      (takeHeld (nodeInputs r v).length (setRed u { r with bufs := r.bufs ++ [⟨v, p.tag, i, c⟩] }) p.arg0 v i) p.arg0 v i)) ∧
  (∀ (s u : State) (dg : Dg) (p : Pkt) (r : Red), asleep s = false →
    takeArrived s dg (fun p => p.kind == 11) = some (p, u) → redByName u p.arg0 = some r →
    answers (.redCredit dg) s fun t =>
      let v := setRed u { r with busy := tput 0 r.busy p.tag (tget 0 r.busy p.tag - 1) }
      t = if p.tag < 4096 then sendMember v p.arg0 (BitVec.ofNat 12 p.tag) else sendSum v p.arg0 (BitVec.ofNat 8 (p.tag - 4096))) ∧
  (∀ (s : State) (name : Word) (v : Dg) (key i : Nat) (r : Red) (c : RedChunk), redByName s name = some r → redAnchor r = name →
    (∀ x ∈ r.sums, x.node ≠ v ∨ x.idx ≠ i) →
    redByName (takeInput s name v key i c) name = some { r with bad := r.bad || c.bad, sums := r.sums ++ [⟨v, i, c, [key]⟩] })) ∧
  (∀ (sa sb : List Int) (e : Int), sa.length = sb.length → e ≠ 0xFF →
    (∀ i : Nat, -2 ^ 31 ≤ sa.getD i 0 + sb.getD i 0 ∧ sa.getD i 0 + sb.getD i 0 < 2 ^ 31) →
    w32Add sa e sb e = ⟨e, List.zipWith (· + ·) sa sb, 0, 0⟩ ∧
    ∀ f, w32Add sa 0xFF sb f = ⟨0xFF, sa.map fun _ => 0, 0, 0⟩)

/-! ### Context control, Rings and queries (06, 07, 18) -/

/-- R209, R185: END frees a context with no engine operation outstanding and otherwise waits for them; PARK and SLEEP set the
state and the deadline that GT names; SRSEED sets the seed and zeroes the counter. WAKE readies a PARKED context, RESUME a
FAULTED one at the address in GA, CFREE frees a FAULTED one, at once where nothing of it is outstanding, each with PD true;
where the target is in no such state PD is false and nothing else changes. R65, R209: a PARKED context whose timer has
passed, and a sleeping one, become READY at their next instruction. So PARK_TIMER_EXPIRY and SLEEP_EXPIRY complete. -/
def Obligations.ContextControlAndTimers : Prop :=
  (∀ (s : State) (l : Lcid) (c : CtxNo) (b : BitVec 54),
    let k := getCore s l
    let x := ctxOf s l c
    let ga := readG x (fld b 42 4)
    let gt := (readG x (fld b 38 4)).toNat
    let gc := readG x (fld b 46 4)
    let tgt : CtxNo := BitVec.ofNat 9 gc.toNat
    let y := ctxOf s l tgt
    let due := if gt = 0 then none else some (now s + gt + 1)
    (issues s l c b (onlyFields b []) anyRoom →
      (millPend k c = true ∨ vePend k c = true → x.freeing = false → answers (.ctxEnd l c b) s fun t =>
        onlyCtx s t l c (completed x fun x => { x with st := .waiting, wait := .ending, waitNo := x.waitNo + 1 })) ∧
      (millPend k c = false → vePend k c = false → x.freeing = false → answers (.ctxEnd l c b) s fun t =>
        (ctxOf t l c).st = .free ∧ (∀ c', c' ≠ c → ctxOf t l c' = ctxOf s l c') ∧ ∀ l', l' ≠ l → getCore t l' = getCore s l')) ∧
    (issues s l c b (onlyFields b [(38, 4)]) anyRoom →
      (answers (.park l c b) s fun t => onlyCtx s t l c { completed x id with st := .parked, deadline := due }) ∧
      (answers (.sleep l c b) s fun t => onlyCtx s t l c (if gt = 0 then completed x id else
        { completed x id with st := .waiting, wait := .timer, waitNo := x.waitNo + 1, deadline := due }))) ∧
    (issues s l c b (onlyFields b [(42, 4)]) anyRoom → answers (.srseed l c b) s fun t =>
      onlyCtx s t l c (completed x fun x => { x with srSeed := ga, srCtr := 0 })) ∧
    let T := fun (i : Instr) (applies : Prop) (y' : Ctx → Prop) =>
      (512 ≤ gc.toNat → answers i s fun t => t = precise (fetched s l c) l c sBOUNDS 0 gc) ∧
      (gc.toNat < 512 → tgt ≠ c →
        (applies → answers i s fun t => ctxOf t l c = completed x (fun x => writeP x (fld b 35 3) true) ∧ y' (ctxOf t l tgt)) ∧
        (¬ applies → answers i s fun t => onlyCtx s t l c (completed x fun x => writeP x (fld b 35 3) false)))
    (issues s l c b (onlyFields b [(46, 4), (35, 3)]) anyRoom →
      T (.wake l c b) (effSt y = .parked) (fun z => z = makeReady y) ∧
      T (.cfree l c b) (y.st = .faulted ∧ y.freeing = false)
        (fun z => z.st = .free ∨ (z.st = .faulted ∧ z.freeing = true)) ∧
      (busyCtx k tgt = false → y.wait = .none → T (.cfree l c b) (y.st = .faulted ∧ y.freeing = false) (fun z => z.st = .free))) ∧
    (issues s l c b (onlyFields b [(46, 4), (35, 3), (42, 4)]) anyRoom → ga.toNat < 2 ^ 21 → ga.toNat % 8 = 0 →
      T (.resume l c b) (y.st = .faulted ∧ y.freeing = false)
        (fun z => z = { makeReady y with pc := BitVec.ofNat 21 ga.toNat, slot := none }))) ∧
  (∀ (s : State) (l : Lcid) (c : CtxNo) (d : Nat),
    let x := ctxOf s l c
    x.deadline = some d → d ≤ now s →
    let ready := if x.st = .held then { x with heldFrom := .ready, wait := .none, deadline := none }
      else { x with st := .ready, wait := .none, deadline := none }
    (effSt x = .parked → answers (.parkTimerExpiry l c) s fun t => onlyCtx s t l c ready) ∧
    (effSt x = .waiting → x.wait = .timer → answers (.sleepExpiry l c) s fun t => onlyCtx s t l c ready))

/-- R480: RING completes its issue in a context with a record: it waits, its pc at the next instruction; without a record it
raises BOUNDS. RING_COMPLETE completes it once everything that it waits for has ended: the deferred releases take effect, the
accumulators' records and then the context's are written with the next RSEQ in the copy that is not the latest, and the context
is READY. -/
def Obligations.Rings : Prop :=
  (∀ (s : State) (l : Lcid) (c : CtxNo) (b : BitVec 54), issues s l c b (onlyFields b [(42, 4)]) anyRoom →
    let x := ctxOf s l c
    (hasRecord (getCore s l) c = true → answers (.ring l c b) s fun t => onlyCtx s t l c (completed x fun x =>
      { x with st := .waiting, wait := .ring (readG x (fld b 42 4)), waitNo := x.waitNo + 1 })) ∧
    (hasRecord (getCore s l) c = false → answers (.ring l c b) s fun t =>
      t = precise (fetched s l c) l c sBOUNDS 0 (insWord 0x300 b))) ∧
  ∀ (s : State) (l : Lcid) (c : CtxNo) (ga : Word),
    let k := getCore s l
    let x := ctxOf s l c
    effSt x = .waiting → x.wait = .ring ga → ringDrained k c = true → answers (.ringComplete l c) s fun t =>
      let rseq := (k.ring.seq.toNat + 1) % 2 ^ 48
      let d := applyDeferred k c
      let td := heldMask d.eng.tdOwner c
      let acc := heldMask d.eng.accOwner c
      let k1 := ((below 8).filter acc.testBit).foldl (fun k a => saveAcc k c rseq a) d
      (getCore t l).sp = slPutWords k1.sp (ctxRec k1 c (nextCopy k1.sp (ctxRec k1 c 0) (ctxRec k1 c 1)))
        (ctxRecWords k1 c (getCtx k1 c) rseq ga x.pc td acc) ∧
      effSt (ctxOf t l c) = .ready ∧ (ctxOf t l c).wait = .none ∧ (ctxOf t l c).hasRec = true ∧ (ctxOf t l c).pc = x.pc ∧ (ctxOf t l c).g = x.g ∧
      (ctxOf t l c).defTd = 0 ∧ (ctxOf t l c).defAcc = 0 ∧ (getCore t l).ring.seq.toNat = rseq ∧
      (∀ c', c' ≠ c → ctxOf t l c' = ctxOf s l c') ∧ ∀ l', l' ≠ l → getCore t l' = getCore s l'

/-- R210, R103, R39: the queries write their values in GD and the registers after it and change nothing else but the pc, except
that TLCLR clears the tally; a selector's index out of its range raises BOUNDS. The values of Table 07.18 that name the
architecture's sizes, and those that name the asking context. So QRY, NSRD, TLRD, TLCLR and DISTRD complete wherever they
may issue. -/
def Obligations.Queries : Prop :=
  ∀ (s : State) (l : Lcid) (c : CtxNo) (b : BitVec 54),
    let x := ctxOf s l c
    let gd := fld b 46 4
    let sel := fld b 0 16
    let ix := readG x (fld b 42 4)
    (issues s l c b (onlyFields b [(46, 4), (42, 4), (0, 16)] && definedSel sel && (indexedSel sel || fld b 42 4 == 0)) anyRoom →
      (∀ v, qryValue s l c x sel ix.toNat = some v → answers (.qry l c b) s fun t => onlyCtx s t l c (completed x fun x => writeG x gd v)) ∧
      (qryValue s l c x sel ix.toNat = none → answers (.qry l c b) s fun t => t = precise (fetched s l c) l c sBOUNDS 0 ix)) ∧
    (issues s l c b (onlyFields b [(46, 4)] && decide (1 ≤ gd) && decide (gd + 2 ≤ 16)) anyRoom → answers (.nsrd l c b) s fun t =>
      onlyCtx s t l c (completed x fun x => writeG (writeG x gd x.ns0) (gd + 1) x.ns1)) ∧
    (issues s l c b (onlyFields b [(46, 4)] && decide (1 ≤ gd) && decide (gd + 3 ≤ 16)) anyRoom →
      let three := fun (x : Ctx) (u v w : Word) => writeG (writeG (writeG x gd u) (gd + 1) v) (gd + 2) w
      (answers (.tlrd l c b) s fun t => onlyCtx s t l c (completed x fun x => three x x.tl0 x.tl1 x.tl2)) ∧
      (answers (.tlclr l c b) s fun t =>
        onlyCtx s t l c (completed x fun x => three { x with tl0 := 0, tl1 := 0, tl2 := 0 } x.tl0 x.tl1 x.tl2)) ∧
      (answers (.distrd l c b) s fun t => onlyCtx s t l c (completed x fun x =>
        three x (distMem s (dgOf l)) (distGf s (dgOf l) false) (distGf s (dgOf l) true)))) ∧
    (let Q := fun (n : Nat) (v : Word) => qryValue s l c x n 0 = some v
     Q 0x10 4 ∧ Q 0x11 8 ∧ Q 0x12 8 ∧ Q 0x13 16 ∧ Q 0x14 512 ∧ Q 0x15 0x200000 ∧ Q 0x16 64 ∧ Q 0x17 128 ∧ Q 0x18 8 ∧ Q 0x19 8 ∧
     Q 0x1A 4096 ∧ Q 0x1B 16 ∧ Q 0x1C 16 ∧ Q 0x1D 512 ∧ Q 0x1E 64 ∧ Q 0x1F 16 ∧ Q 0x41 (BitVec.ofNat 64 l.toNat) ∧
     Q 0x42 (BitVec.ofNat 64 c.toNat) ∧ Q 0x43 (getCore s l).role ∧ Q 0x44 x.srSeed ∧ Q 0x45 x.srCtr)

/-! ### Brands (19_checking.md R515 to R519) -/

/-- R515 to R518: BROPEN of an aligned state writes its header around CLAIM, OPEN, and empties its three parts; BRHASH and
BRSEAL of an OPEN or FAILED state enter the brand unit's queue and raise BOUNDS for any other; a state that is not aligned, or
past the slice, raises ALIGN or BOUNDS. A BRSEAL that is at the front of the queue and would succeed begins at once: STATE
becomes SEALING and its record is taken; any other front stays. BRAND_HASH_COMPLETE takes the data into the part, or fails
the state; BRAND_SEAL_COMPLETE writes the signed record and SEALED, or the failure, and its completion. -/
def Obligations.Brands : Prop :=
  (∀ (s : State) (l : Lcid) (c : CtxNo) (b : BitVec 54),
    let k := getCore s l
    let x := ctxOf s l c
    let gx := readG x (fld b 46 4)
    let a := gx.toNat
    let R := fun (i : Instr) => (a % 128 ≠ 0 → answers i s fun t => t = precise (fetched s l c) l c sALIGN 6 gx) ∧
      (a % 128 = 0 → 2 ^ 21 < a + 17024 → answers i s fun t => t = precise (fetched s l c) l c sBOUNDS 6 gx)
    (issues s l c b (onlyFields b [(46, 4)]) anyRoom → R (.bropen l c b) ∧
      (a % 128 = 0 → a + 17024 ≤ 2 ^ 21 → answers (.bropen l c b) s fun t =>
        onlyCore s t l c (completed x id) (modSp k fun sl =>
          (below 3).foldl (fun sl p => slPut sl (brandPart a p) (List.replicate 5504 0)) (openBrand s l c sl a)))) ∧
    (issues s l c b (onlyFields b [(46, 4), (42, 4), (38, 4), (20, 2)] && fld b 20 2 != 3) haulRoom → R (.brhash l c b)) ∧
    (issues s l c b (onlyFields b [(46, 4), (22, 16), (0, 6)]) haulRoom → R (.brseal l c b)) ∧
    (a % 128 = 0 → a + 17024 ≤ 2 ^ 21 →
      let ok := (poisonAt k.sp a 1).isSome ∨ brandState k.sp a = brOpen ∨ brandState k.sp a = brFailed
      (issues s l c b (onlyFields b [(46, 4), (42, 4), (38, 4), (20, 2)] && fld b 20 2 != 3) haulRoom →
        (ok → answers (.brhash l c b) s fun t => ∃ u, t = beginSeal u l ∧ onlyCore s u l c (completed x id) (modEng k fun e => { e with
          brandq := e.brandq ++ [⟨c, a, .hash (readG x (fld b 42 4)) (readG x (fld b 38 4)).toNat (fld b 20 2)⟩] })) ∧
        (¬ ok → answers (.brhash l c b) s fun t => t = precise (fetched s l c) l c sBOUNDS 6 gx)) ∧
      (issues s l c b (onlyFields b [(46, 4), (22, 16), (0, 6)]) haulRoom →
        (ok → answers (.brseal l c b) s fun t => ∃ u, t = beginSeal u l ∧ onlyCore s u l c (completed x id)
          (modEng (feedQueue k (fld b 0 6) (senderWord s l c)) fun e => { e with
            brandq := e.brandq ++ [⟨c, a, .seal (BitVec.ofNat 16 (fld b 22 16)) (BitVec.ofNat 6 (fld b 0 6)) none⟩] })) ∧
        (¬ ok → answers (.brseal l c b) s fun t => t = precise (fetched s l c) l c sBOUNDS 6 gx)))) ∧
  (∀ (u : State) (l : Lcid) (c : CtxNo) (a : Nat) (tag : BitVec 16) (cq : BitVec 6) (r : List BrandOp) (o : BrandOp),
    ((getCore u l).eng.brandq = ⟨c, a, .seal tag cq none⟩ :: r → sealStatus u l a = sOK →
      onlyCore u (beginSeal u l) l c (ctxOf u l c) { getCore u l with
        sp := setBrand (getCore u l).sp a brSealing 0
        eng := { (getCore u l).eng with brandq := ⟨c, a, .seal tag cq (some (brandRecord u l a))⟩ :: r } }) ∧
    ((getCore u l).eng.brandq = ⟨c, a, .seal tag cq none⟩ :: r → sealStatus u l a ≠ sOK → beginSeal u l = u) ∧
    ((getCore u l).eng.brandq = [] → beginSeal u l = u) ∧
    ((getCore u l).eng.brandq = o :: r → (∀ tag cq, o.work ≠ .seal tag cq none) → beginSeal u l = u)) ∧
  (∀ (s : State) (l : Lcid) (c : CtxNo) (a : Nat) (w : Word) (n p : Nat) (r : List BrandOp) (rr : RemoteRead),
    asleep s = false → occupied s l = true →
    let sl := (getCore s l).sp
    let E := fun (sl' : Slice) => answers (.brandHashComplete l rr) s fun t => ∃ u, t = settle (beginSeal u l) l c ∧
      (getCore u l).sp = sl' ∧ (getCore u l).eng.brandq = r
    (getCore s l).eng.brandq = ⟨c, a, .hash w n p⟩ :: r →
    ((poisonAt sl a 1).isSome ∨ brandState sl a ≠ brOpen → E sl) ∧
    (poisonAt sl a 1 = none → brandState sl a = brOpen →
      (brandData s l w n rr = .wait → answers (.brandHashComplete l rr) s fun t => t = s) ∧
      (∀ st, brandData s l w n rr = .fail st → E (setBrand sl a brFailed st.toNat)) ∧
      (∀ bs, brandData s l w n rr = .bytes bs → (poisonAt sl (brandPart a p) 5504).isSome → E (setBrand sl a brFailed sPOISON.toNat)) ∧
      (∀ bs, brandData s l w n rr = .bytes bs → poisonAt sl (brandPart a p) 5504 = none →
        E (slPut sl (brandPart a p) (partBytes (feedPart (n / 4096 + 2) (readPart sl (brandPart a p)) bs)))))) ∧
  ∀ (s : State) (l : Lcid) (c : CtxNo) (a : Nat) (tag : BitVec 16) (cq : BitVec 6) (r : List BrandOp) (held : Option (List Byte)),
    asleep s = false → occupied s l = true →
    let spoilt := (poisonAt (getCore s l).sp a 128).isSome || (partFail (getCore s l).sp (a + 128) 336).isSome
    let st := if held.isSome then if spoilt then sPOISON else sOK else sealStatus s l a
    let rec' := held.getD (brandRecord s l a)
    (getCore s l).eng.brandq = ⟨c, a, .seal tag cq held⟩ :: r → answers (.brandSealComplete l) s fun t => ∃ u,
      t = settle (postEntry (beginSeal u l) l cq.toNat (complWords u st 6 tag.toNat 0 0 (BitVec.ofNat 64 (a + 128)) none)) l c ∧
      (getCore u l).eng.brandq = r ∧
      (getCore u l).sp = if st = sOK then setBrand (slPut (getCore s l).sp (a + 128) (rec' ++ sig96 s rec')) a brSealed 0
        else setBrand (getCore s l).sp a brFailed st.toNat

/-! ### Register writes and core control (06, 09, 15, 22) -/

/-- R558, R559: a rejected write changes nothing but the write-reject register of the block that Table 22.2 names: VALID, the
reason, the writer, one more in the saturating count, the offset. A core register written by another than the Lookout is
rejected with reason 3, one of a vacant position with 5, a reserved value with 1, a write out of its state with 2, in this
order; as the role register and the link registers show it. So CORE_ROLE_WRITE and LINK_REGISTER_WRITE, which can be
rejected, complete with the rejection. -/
def Obligations.RejectedWrites : Prop :=
  (∀ (s : State) (blk reason writer off : Nat), blk < 2 ^ 26 → reason < 16 → writer < 32 → off < 2 ^ 26 →
    let t := reject s blk reason writer off
    let v := wrejWord t blk
    v.getLsbD 63 = true ∧ fld v 56 4 = reason ∧ fld v 48 5 = writer ∧ fld v 0 26 = off ∧
      fld v 32 16 = min (fld (wrejWord s blk) 32 16 + 1) 0xFFFF ∧ (∀ b, b ≠ blk → wrejWord t b = wrejWord s b) ∧
      { t with wrej := [] } = { s with wrej := [] }) ∧
  ∀ (s : State) (l : Lcid) (w : Wr) (inb : Bool) (d : BitVec 2),
    let n := w.writer.toNat
    let v := linkBits (mergeHalf w.half (getLink (getCore s l) inb d.toNat).reg w.value)
    let off := coreBlk l + (if inb then 0x520 else 0x500) + 8 * d.toNat
    (n ≠ 31 → fnServes s n = false → answers (.coreRoleWrite l w) s fun t => t = s) ∧
    (n ≠ 31 → fnServes s n = true → answers (.coreRoleWrite l w) s fun t =>
      t = reject (hostAccess s n) (writerBlk n) 3 n (coreBlk l + 0x10)) ∧
    (n = 31 → fusedCore s l = false →
      (occupied s l = false → answers (.coreRoleWrite l w) s fun t => t = reject s (coreBlk l) 5 n (coreBlk l + 0x10)) ∧
      (occupied s l = true →
        (linkReserved v = true → answers (.linkRegisterWrite l inb d w) s fun t => t = reject s (coreBlk l) 1 n off) ∧
        (linkReserved v = false → roleIdle (getCore s l) = false ∨ asleep s = true →
          answers (.linkRegisterWrite l inb d w) s fun t => t = reject s (coreBlk l) 2 n off) ∧
        (linkReserved v = false → roleIdle (getCore s l) = true → asleep s = false →
          answers (.linkRegisterWrite l inb d w) s fun t => getLink (getCore t l) inb d.toNat = { LinkEnd.zero with reg := v } ∧
            stateRest t = stateRest s ∧ ∀ l', l' ≠ l → getCore t l' = getCore s l')))

/-- R185, R164, Tables 06.11 to 06.13: the Lookout's context commands on the selected context: HOLD of a READY, WAITING, PARKED
or FAULTED one makes it HELD and remembers its state, RELEASE returns it there, FREE frees one at once, or when what it has
outstanding completes, START makes a FREE one READY at the address, FREE_ALL frees every context of a quiet core. A command
outside its conditions sets CMD_REJECTED and changes nothing else; a START at a position that a scheduled sweep uses waits
for its end (R500). HOLD_ALL written 1 holds every context that is not FREE.
So CTX_HOLD, CTX_RELEASE, CTX_FREE and CTX_START complete. -/
def Obligations.ContextCommands : Prop :=
  ∀ (s : State) (l : Lcid) (w : Wr), w.writer.toNat = 31 → fusedCore s l = false → occupied s l = true → asleep s = false →
    let k := getCore s l
    let c := k.ctxSel
    let x := ctxOf s l c
    let v := mergeHalf w.half 0 w.value
    let pc := fld v 32 21
    let others := fun (t : State) => (∀ c', c' ≠ c → ctxOf t l c' = ctxOf s l c') ∧ ∀ l', l' ≠ l → getCore t l' = getCore s l'
    let rejected := fun (i : Instr) (code : Nat) => cmdOk k code pc = false → answers i s fun t => t = setCore s l { k with rejected := true }
    rejected (.ctxHold l w) 1 ∧ rejected (.ctxRelease l w) 2 ∧ rejected (.ctxFree l w) 3 ∧
    (sweptPos s l = false → rejected (.ctxStart l w) 4) ∧
    (sweptPos s l = true → answers (.ctxStart l w) s fun t =>
      t = { s with check := { s.check with starts := s.check.starts ++ [(l, c, BitVec.ofNat 21 pc)] } }) ∧
    rejected (.freeAll l w) 5 ∧
    (k.recHold = false → x.st = .ready ∨ x.st = .waiting ∨ x.st = .parked ∨ x.st = .faulted →
      answers (.ctxHold l w) s fun t => onlyCtx s t l c { x with st := .held, heldFrom := x.st, byRec := false, holds := x.holds + 1 }) ∧
    (k.recHold = false → x.st = .held → x.byRec = false → k.ctrl.getLsbD 1 = false →
      answers (.ctxRelease l w) s fun t => onlyCtx s t l c { x with st := x.heldFrom, heldFrom := .free, byRec := false }) ∧
    (k.recHold = false → x.st = .held ∨ x.st = .faulted → answers (.ctxFree l w) s fun t => others t ∧
      (busyCtx k c = false → (ctxOf t l c).st = .free) ∧ (busyCtx k c = true → (ctxOf t l c).freeing = true ∧ (ctxOf t l c).st = x.st)) ∧
    (k.recHold = false → sweptPos s l = false → x.st = .free → k.ctrl.getLsbD 1 = false → pc % 8 = 0 → answers (.ctxStart l w) s fun t =>
      (ctxOf t l c).st = .ready ∧ (ctxOf t l c).pc = BitVec.ofNat 21 pc ∧ (ctxOf t l c).origin = 2 ∧
      (∀ i, readG (ctxOf t l c) i = 0) ∧ others t) ∧
    (k.recHold = false → quietCore k = true → answers (.freeAll l w) s fun t => (∀ c, (ctxOf t l c).st = .free) ∧ ∀ l', l' ≠ l → getCore t l' = getCore s l') ∧
    (let u := ctrlBits (mergeHalf w.half k.ctrl w.value)
     k.recHold = false → u.getLsbD 1 = true → answers (.holdAll l w) s fun t => stateRest t = stateRest s ∧
       getCore t l = mapCtxs { k with ctrl := u } (fun x => holdCtx x false) ∧ ∀ l', l' ≠ l → getCore t l' = getCore s l')

/-- R174, R175: a role written to a core whose contexts are FREE, with ACCEPT 0 and the partition that the grove is in: the
fields stand, EPOCH is one higher (1 after 0xFFFF), and every message that waits is bounced with ROLE_STALE; in any other
state the write is rejected. R270: a sync object that no operation waits on takes its configuration and its initial value.
R415, R562: an unassigned grove joins a partition, an idle one of a partition is released into SANITISING, and its
sanitising zeroes every slice and clears claims, queues and sync objects before it is unassigned; a locked partition and a
grove that is not idle keep their assignment, and a grove in which a roll or a recalibration runs takes the write at its end
(R524). So CORE_ROLE_WRITE, SYNC_CFG_WRITE, GROVE_RELEASE, GROVE_JOIN and
SANITISE_COMPLETE complete. -/
def Obligations.RolesObjectsAndGroves : Prop :=
  ((∀ (s : State) (l : Lcid) (w : Wr), w.writer.toNat = 31 → fusedCore s l = false → occupied s l = true → asleep s = false →
    let k := getCore s l
    let v := mergeHalf w.half k.role w.value
    let e := fld k.role 48 16
    (roleIdle k = false ∨ fld v 44 4 ≠ (corePart s l).toNat →
      answers (.coreRoleWrite l w) s fun t => t = reject s (coreBlk l) 2 31 (coreBlk l + 0x10)) ∧
    (roleIdle k = true → fld v 44 4 = (corePart s l).toNat →
      answers (.coreRoleWrite l w) s fun z => ∃ t, z = bounceWaiting t l sSTALE ∧ (k.un.hold = [] → k.un.starts = [] → getCore z l = getCore t l) ∧
        stateRest t = stateRest s ∧ (getCore t l).sp = k.sp ∧ (∀ l', l' ≠ l → getCore t l' = getCore s l') ∧
        (getCore t l).role = BitVec.ofNat 64 ((if e = 0xFFFF then 1 else e + 1) * 2 ^ 48 + fld v 44 4 * 2 ^ 44 +
          fld v 28 16 * 2 ^ 28 + fld v 0 27))) ∧
  ∀ (s : State) (dg : Dg) (n : BitVec 7) (w : Wr), w.writer.toNat = 31 → (getGrove s dg).fused = false →
    let g := getGrove s dg
    let v := syncCfgBits (mergeHalf w.half (getObj g n.toNat).cfg w.value)
    let blk := groveBlk dg
    (syncCfgBad v = true → answers (.syncCfgWrite dg n w) s fun t => t = reject s blk 1 31 (blk + 0x1000 + 16 * n.toNat)) ∧
    (syncCfgBad v = false → (∃ x ∈ g.waiters, x.obj = n.toNat) →
      answers (.syncCfgWrite dg n w) s fun t => t = reject s blk 2 31 (blk + 0x1000 + 16 * n.toNat)) ∧
    (syncCfgBad v = false → (∀ x ∈ g.waiters, x.obj ≠ n.toNat) → answers (.syncCfgWrite dg n w) s fun t =>
      let o := getObj (getGrove t dg) n.toNat
      o.cfg = v ∧ o.val = (if fld v 60 3 = 3 then BitVec.ofNat 64 (fld v 0 32) else 0) ∧ o.feeders = [] ∧
      (∀ m, m ≠ n.toNat → getObj (getGrove t dg) m = getObj g m) ∧ t.cores = s.cores ∧ t.hbm = s.hbm)) ∧
  (∀ (s : State) (dg : Dg) (w : Wr), w.writer.toNat = 31 → (getGrove s dg).fused = false →
    let old := pgroveWord s dg
    let v := keepFields (mergeHalf w.half old w.value) [(4, 1), (0, 4)]
    let P := fun (i : Instr) (word : Word) => answers i s fun t => pgroveWord t dg = word ∧ t.cores = s.cores ∧ t.groves = s.groves ∧
      ∀ d, d ≠ dg → pgroveWord t d = pgroveWord s d
    let waits := (groveServed s dg && !old.getLsbD 63) || s.live.moves.any fun m => m.1 == dg
    (waits = true →
      (answers (.groveRelease dg w) s fun t => t = { s with live := { s.live with moves := s.live.moves ++ [(dg, w)] } }) ∧
      (answers (.groveJoin dg w) s fun t => t = { s with live := { s.live with moves := s.live.moves ++ [(dg, w)] } })) ∧
    (waits = false → partLocked s dg (fld v 0 4) = true →
      (answers (.groveRelease dg w) s fun t => t = reject s 0x2000 2 31 (0x2000 + 8 * dg.toNat)) ∧
      (answers (.groveJoin dg w) s fun t => t = reject s 0x2000 2 31 (0x2000 + 8 * dg.toNat))) ∧
    (waits = false → partLocked s dg (fld v 0 4) = false →
      (old.getLsbD 4 = false → old.getLsbD 63 = false → v.getLsbD 4 = true → P (.groveJoin dg w) v) ∧
      (old.getLsbD 4 = true → v.getLsbD 4 = false → groveIdle s dg = true →
        P (.groveRelease dg w) (BitVec.ofNat 64 (2 ^ 63 + fld v 0 4)))) ∧
    (old.getLsbD 63 = true → answers (.sanitiseComplete dg) s fun t =>
      pgroveWord t dg = BitVec.ofNat 64 (old.toNat % 2 ^ 63) ∧ (getGrove t dg).objs = [] ∧
      ∀ l, dgOf l = dg → (getCore t l).sp.mem = [] ∧ (getCore t l).sp.bad = [] ∧ (getCore t l).eng.acc = [] ∧
        (getCore t l).eng.tdOwner = [] ∧ (getCore t l).un.queues = []))

/-! ### Pace and the time base (02_pace.md) -/

/-- R62 to R65: a tick moves the model's clock on by one and, while the time base runs, the counter by whole reference cycles,
each of 10 ns and the correction, to the first that reaches the next multiple of 1,000 ns, before anything else of the tick;
a PPS edge or PTP sync of the selected source stores its offset, keeps LOCKED only within 500 ns and HOLDOVER only beyond
(the model's choice, log entry 96), and picks a correction against the offset's sign of at most 200 ppm (its size is a free
value, log entry 131); a source silent
for too long puts the base in holdover; PACE_TIME sets the counter before the first READY and is rejected after it. So
TIME_TICK, PPS_EDGE, PTP_SYNC, HOLDOVER and PACE_TIME_SET complete. -/
def Obligations.TimeBase : Prop :=
  (∀ s : State,
    (timeRuns s = false → answers .timeTick s fun t => now t = now s + 1 ∧ t.pace.ns = s.pace.ns ∧ t.cores = s.cores) ∧
    (timeRuns s = true → s.pace.frac < 2 ^ 32 → answers .timeTick s fun t => ∃ u,
      t = activationStep (if gapOpen u then u else moveStep (pollTokens (dormStep (sweepStep (soundStep (sanStep u)))))) ∧ now u = now s + 1 ∧ u.groves = s.groves ∧ u.hbm = s.hbm ∧ ∃ n : Nat,
        let v := s.pace.ns.toNat * 2 ^ 32 + s.pace.frac + n * cycleStep s.pace.corr
        let goal := (s.pace.ns.toNat / 1000 + 1) * 1000 * 2 ^ 32
        goal ≤ v ∧ v < goal + cycleStep s.pace.corr ∧ u.pace.ns = BitVec.ofNat 64 (v / 2 ^ 32) ∧ u.pace.frac = v % 2 ^ 32)) ∧
  (∀ c : Int, -8589934 ≤ c → c ≤ 8589934 → (cycleStep c : Int) = 10 * 2 ^ 32 + c) ∧
  (∀ (s : State) (off : Int), timeRuns s = true →
    let H := fun (i : Instr) => answers i s fun t => t.pace.offset = off ∧ t.pace.heard = now s ∧
      t.pace.holdover = (s.pace.holdover && !decide (off.natAbs ≤ 500)) ∧
      t.pace.locked = (s.pace.locked && decide (off.natAbs ≤ 500)) ∧ -8589934 ≤ t.pace.corr ∧ t.pace.corr ≤ 8589934 ∧
      t.pace.corr.sign = -off.sign ∧ t.pace.ns = s.pace.ns ∧ now t = now s ∧ t.cores = s.cores
    (s.pace.src = 1 → H (.ppsEdge off)) ∧ ∀ d, s.pace.src = 2 → d ≤ 127 → H (.ptpSync d off)) ∧
  (∀ s : State, timeRuns s = true → s.pace.holdover = false →
    (s.pace.src = 1 ∧ s.pace.heard + 1500001 ≤ now s) ∨ (s.pace.src = 2 ∧ s.pace.heard + 3000001 ≤ now s) →
    answers .holdover s fun t => t.pace.holdover = true ∧ t.pace.locked = false ∧ t.pace.ns = s.pace.ns) ∧
  ∀ (s : State) (w : Wr), w.writer.toNat = 31 →
    (s.cruise.wasReady = false → answers (.paceTimeSet w) s fun t => t = { s with pace := { s.pace with ns := mergeHalf w.half s.pace.ns w.value } }) ∧
    (s.cruise.wasReady = true → answers (.paceTimeSet w) s fun t => t = reject s 0x1000 2 31 0x1318)

/-- R57 to R61, R54, R55, R529, R53: a governor interval takes the readings, throttles a region from 100 °C until it is at most
95 °C, and reports the package power and its cap; a recalibration stores the region's trim, the smallest passing step and
12% (rounded up, the model's choice, log entry 94), whether that is above 63, its voltage and temperature, and which direction
of voltage change made the trim longer; it waits for a roll, a sanitising or a recovery in the region (R524); a commanded one takes its regions in turn and is rejected while one runs; 110 °C in any region turns the
compute dies off. So GOVERNOR_INTERVAL, REGION_RECALIBRATION, PACE_RECAL and THERMAL_TRIP complete. -/
def Obligations.PaceAndThermal : Prop :=
  (∀ (s : State) (q : GovReadings), regionsOn s = true → gapOpen s = false → answers (.governorInterval q) s fun t =>
    t.pace.pkgW = BitVec.ofNat 16 (min q.watts 65535) ∧
    t.pace.capped = decide (98 * s.pace.limit.toNat < 100 * t.pace.pkgW.toNat) ∧ t.pace.ns = s.pace.ns ∧ t.cores = s.cores ∧
    ∀ (r : Nat) (v : Int), r < 64 → q.temps[r]? = some v → s.pace.recalBusy = false →
      (getRegion t r).temp = BitVec.ofInt 16 v ∧
      (getRegion t r).thermal = (decide (1600 ≤ (BitVec.ofInt 16 v).toInt) ||
        ((getRegion s r).thermal && decide (1520 < (BitVec.ofInt 16 v).toInt)))) ∧
  (∀ (s : State) (r : BitVec 6) (step : Nat) (temp : Int), regionsOn s = true → gapOpen s = false →
    (recalWaits s r.toNat = true → answers (.regionRecalibration r step temp) s fun t => t = s) ∧
    (recalWaits s r.toNat = false → answers (.regionRecalibration r step temp) s fun t =>
    let g := getRegion s r.toNat
    let need := (step * 112 + 99) / 100
    let trim := min need 63
    getRegion t r.toNat = { g with
      trim := trim, tooLong := decide (63 < need), calV := g.vnow, calTemp := temp, calTick := now s
      longUp := if g.calV < g.vnow then decide (g.trim < trim) else g.longUp
      longDown := if g.vnow < g.calV then decide (g.trim < trim) else g.longDown } ∧ t.cores = s.cores)) ∧
  (∀ (s : State) (w : Wr), w.writer.toNat = 31 →
    let v := halfBits w.half w.value
    (v.getLsbD 63 = true → s.pace.recalBusy = true → answers (.paceRecal w) s fun t => t = reject s 0x1000 2 31 0x1020) ∧
    (v.getLsbD 63 = true → s.pace.recalBusy = false → answers (.paceRecal w) s fun t => t.pace.recalBusy = true ∧
      t.pace.recalLeft = (if v.getLsbD 6 then below 64 else [fld v 0 6]) ∧ t.cores = s.cores)) ∧
  ∀ (s : State) (r : BitVec 6) (temp : Int), alive s = true →
    (temp < 1760 → answers (.thermalTrip r temp) s fun t => t = s) ∧
    (1760 ≤ temp → answers (.thermalTrip r temp) s fun t => t.pace.tripped = true ∧ t.pins.trip = true ∧ t.cores = [] ∧
      t.cruise.ready = false ∧ t.host.link.up = false ∧ alive t = false)

/-! ### Pins and resets (16_bringup.md, 18_hangs_rings_resets.md, 21_signals_and_electrical.md) -/

/-- R421, R492, R493, R537, R539, R545: what the pins do. A fall of PWR_OK, and a rail lost for 10 µs, is a cold reset with its
cause, in which the fuses, the clock and what the host holds stay; DEV_RST_N low for 10 µs, and the Warden's watchdog, is a
warm reset, in which every context, queue and slice is cleared and the counts since cold reset stay; a shorter low has no
effect; a rise of PWR_OK or DEV_RST_N starts Cruise. So PWR_OK_RISE, PWR_OK_FALL, RAIL_LOSS, DEV_RST_N_RISE, DEV_RST_N_FALL
and WARDEN_WATCHDOG complete. -/
def Obligations.PowerAndReset : Prop :=
  (∀ (s : State) (x : CruiseIn), s.pins.pwrOk = false →
    let u := { s with pins := { s.pins with pwrOk := true, upTick := now s } }
    (s.pace.tripped = false → s.pins.rstLow = false → answers (.pwrOkRise x) s fun t => t = cruise u u.cruise.cold x) ∧
    (s.pace.tripped = true ∨ s.pins.rstLow = true → answers (.pwrOkRise x) s fun t => t = u)) ∧
  (∀ (s : State) (x : CruiseIn), s.pins.rstLow = true →
    let u := { s with pins := { s.pins with rstLow := false } }
    (alive s = true → answers (.devRstNRise x) s fun t => t = cruise u u.cruise.cold x) ∧
    (alive s = false → answers (.devRstNRise x) s fun t => t = u)) ∧
  (∀ s : State, s.pins.pwrOk = true → answers .pwrOkFall s fun t =>
    t.cores = [] ∧ t.reds = [] ∧ t.landing = [] ∧ t.errs.reports = [] ∧ t.cruise.ready = false ∧ t.did = 0 ∧ t.pgrove = [] ∧
    t.pins.pwrOk = false ∧ t.part = s.part ∧ t.sec.life = s.sec.life ∧ t.sec.owner = s.sec.owner ∧ t.host.mem = s.host.mem ∧
    now t = now s ∧ t.pace.ns = 0 ∧ t.pending = s.pending) ∧
  (∀ (s : State) (rail : Rail) (us : Nat), s.pins.pwrOk = true →
    (us < 10 → answers (.railLoss rail us) s fun t => t = s) ∧
    (10 ≤ us → answers (.railLoss rail us) s fun t => t.cores = [] ∧ t.cruise.ready = false ∧ t.part = s.part ∧ now t = now s ∧
      t.pins.trip = false ∧ t.pins.ioOut = decide (rail = .vddAon ∨ rail = .vddIo) ∧
      t.cruise.cause = (if rail = .vddAon then 4 else if s.pins.trip then 3 else 2))) ∧
  (∀ (s : State) (us : Nat), s.pins.rstLow = false → alive s = true →
    (us < 10 → answers (.devRstNFall us) s fun t => t = s) ∧
    (10 ≤ us → answers (.devRstNFall us) s fun t => t.pins.rstLow = true ∧ t.reds = [] ∧ t.landing = [] ∧ t.cruise.ready = false ∧
      t.pace.ns = s.pace.ns ∧ now t = now s ∧ t.gf.active = s.gf.active ∧ t.sec.life = s.sec.life)) ∧
  (∀ (s : State) (x : CruiseIn), alive s = true → s.pins.rstLow = false → lookoutUp s = true →
    answers (.wardenWatchdog x) s fun t => t = cruise (warmReset s) false x) ∧
  (∀ k : Core, let w := warmCore k
    w.ctxs = [] ∧ w.sp.mem = [] ∧ w.sp.bad = [] ∧ w.eng = Engines.zero ∧ w.un.queues = [] ∧ w.role = 0 ∧ w.faults = k.faults ∧
    w.sp.corrected = k.sp.corrected ∧ w.sp.uncorr = k.sp.uncorr ∧ w.sp.rowMoved = k.sp.rowMoved ∧ w.un.bounces = k.un.bounces ∧
    w.ring.replays = k.ring.replays)

/-- R422, R545: the clocks. The loss of REFCLK after READY resets the PCIe link and is reported, and its return goes on with a
Cruise that waits for it; the loss of MCLK25 is reported from step 2 on, and its start ends the oscillator's hold and lets
step 1 of a Cruise go on. R439: a Cruise in step 8 whose assignment has not come by the deadline ends without one. So
REFCLK_LOSS, REFCLK_RETURN, MCLK25_LOSS, MCLK25_START and ASSIGNMENT_DEADLINE complete. -/
def Obligations.ClocksAndDeadline : Prop :=
  (∀ s : State, s.pins.refclk = true → answers .refclkLoss s fun t =>
    let u := { s with pins := { s.pins with refclk := false } }
    t = if s.cruise.ready then clockReport (pcieReset u) 1 else u) ∧
  (∀ (s : State) (x : CruiseIn), s.pins.refclk = false →
    answers (.refclkReturn x) s fun t => t = resumeCruise { s with pins := { s.pins with refclk := true } } x) ∧
  (∀ s : State, s.pins.mclk = true → answers .mclk25Loss s fun t => t.pins.mclk = false ∧ t.cores = s.cores ∧
    t.errs.reports.length = s.errs.reports.length + if 2 ≤ s.cruise.phase.toNat then 1 else 0) ∧
  (∀ (s : State) (x : CruiseIn), s.pins.mclk = false →
    let u := { s with pins := { s.pins with mclk := true, osc := false } }
    answers (.mclk25Start x) s fun t => t = if s.cruise.running && s.cruise.phase == 1 then resumeCruise u x else u) ∧
  ∀ (s : State) (x : ReadyIn), s.cruise.running = true → s.cruise.phase = 8 → s.errs.assign = none →
    answers (.assignmentDeadline x) s fun t => t = finishCruise s x

/-! ### The Gwynfold links (12_gwynfold_links.md) -/

/-- R323 to R328, R336, R338: events at a port. DATA_FLIT, IDENT, LANE_MAP, RETRAIN, ACK_TIMEOUT, TRAINING_ATTEMPT_END, PORT_TRAINING_RETRY
and LANE_RETRAIN complete: a flit that FEC or the CRC rejects is NAKed and nothing of it is taken; a good one releases the
flits up to its ACK, and a data flit in order is accepted, any other data flit discarded whole and acknowledged; IDENT names the peer, is
answered, and brings a trained port UP; a lane map waits for its flit and is answered, or is the answer to the port's own; a
RETRAIN, 16 NAKs of one flit, or 100 µs without an ACK put the port in TRAINING with its replay buffer kept; a third failed
attempt in a row ends in DOWN; a retry puts DOWN ports back in TRAINING; a lane retrain takes the lowest spare lane, and one
without a spare, or beside another, is rejected. -/
def Obligations.PortEvents : Prop :=
  ∀ (s : State) (k : BitVec 4),
    let p := getPort s k.toNat
    let data := portUpFor s k.toNat
    (∀ f, p.st ≠ 3 → answers (.dataFlit k f) s fun t => t = s) ∧
    (∀ f, p.st = 3 → (f.typ = 1 → data = true → s.dorm.st = .active) →
      let c := fecCount s k.toNat f
      let u := fun (resend : Bool) => modPort c k.toNat fun p => takeAck (now s) resend p f
      (flitBad f = true → answers (.dataFlit k f) s fun t => t = sendAck (modPort c k.toNat fun p => { p with nak := true }) k.toNat) ∧
      (flitBad f = false → f.typ ≠ 1 → answers (.dataFlit k f) s fun t => t = pump (u data) k.toNat) ∧
      (flitBad f = false → f.typ = 1 → data = false → answers (.dataFlit k f) s fun t => t = c) ∧
      (flitBad f = false → f.typ = 1 → data = true → answers (.dataFlit k f) s fun t =>
        t = if f.seq = p.rxAck + 1 then pump (sendAck (acceptFlit (u true) k.toNat f) k.toNat) k.toNat else sendAck c k.toNat)) ∧
    (∀ did v n,
      let u := answerIdent (modPort s k.toNat fun p => { p with known := true, peerOk := v, peerDid := did, peerPort := n }) k.toNat
      (p.st = 2 → p.upFrom.isSome → answers (.ident k did v n) s fun t => t = enterUp u k.toNat) ∧
      (p.st = 3 → answers (.ident k did v n) s fun t =>
        t = recheckPort u k.toNat) ∧
      (p.st ≠ 3 → p.st ≠ 2 ∨ p.upFrom = none → answers (.ident k did v n) s fun t => t = s)) ∧
    (∀ lg ph sq, p.st = 3 → ph.toNat < 18 →
      (∀ j r, p.jobs = j :: r → j.logical = lg.toNat → j.new = ph.toNat → j.seq = some sq → answers (.laneMap k lg ph sq) s fun t =>
        t = pump (modPort s k.toNat fun p => { dropMaps p with jobs := { j with agreed := true } :: r }) k.toNat) ∧
      ((∀ j r, p.jobs = j :: r → ¬(j.logical = lg.toNat ∧ j.new = ph.toNat ∧ j.seq = some sq)) → answers (.laneMap k lg ph sq) s fun t =>
        t = modPort s k.toNat fun p =>
          { sendCtl p (ctlData s k.toNat (.laneMap lg.toNat ph.toNat sq)) with pendMap := some (lg.toNat, ph.toNat, sq) })) ∧
    (let T := fun (i : Instr) => answers i s fun t => (getPort t k.toNat).st = 2 ∧
       (getPort t k.toNat).retrains.toNat = min (p.retrains.toNat + 1) 0xFFFF ∧
       (getPort t k.toNat).replay.map TxFlit.seq = p.replay.map TxFlit.seq ∧ t.cores = s.cores
     p.st = 3 → T (.retrain k true) ∧ (∀ f ∈ p.replay, 16 ≤ f.naks → T (.retrain k false)) ∧
       (p.replay ≠ [] → p.progress + 101 ≤ now s → T (.ackTimeout k))) ∧
    (p.st = 2 →
      (p.upFrom.isSome → answers (.trainingAttemptEnd k true) s fun t => t = s) ∧
      (p.upFrom = none → answers (.trainingAttemptEnd k true) s fun t =>
        let u := sendCtls (modPort s k.toNat fun p => { p with
          upFrom := some (now s), ctl := p.ctl.filter (fun c => c != .ident && c != .retrain) ++ [.ident] }) k.toNat
        t = if p.known then enterUp u k.toNat else u) ∧
      (p.attempts < 2 → answers (.trainingAttemptEnd k false) s fun t => getPort t k.toNat = { p with
        attempts := p.attempts + 1, upFrom := none, ctl := p.ctl.filter (· != .ident) }) ∧
      (2 ≤ p.attempts → answers (.trainingAttemptEnd k false) s fun t => t = enterDown s k.toNat)) ∧
    (answers .portTrainingRetry s fun t => (getPort t k.toNat).st = (if p.st = 1 then 2 else p.st) ∧ t.cores = s.cores) ∧
    ∀ (w : Wr) (ok : Bool), w.writer.toNat = 31 →
      let v := halfBits w.half w.value
      let reg := 0x7108 + 0x20 * k.toNat
      (18 ≤ fld v 56 5 → answers (.laneRetrain k w ok) s fun t => t = reject s 0x7000 1 31 reg) ∧
      (p.st ≠ 0 →
        (v.getLsbD 63 = false → fld v 56 5 < 18 → answers (.laneRetrain k w ok) s fun t => t = s) ∧
        (v.getLsbD 63 = true → fld v 56 5 < 18 →
          (moveLane (now s) p (fld v 56 5) (some ok) = none ∨ retrains p = true →
            answers (.laneRetrain k w ok) s fun t => t = reject s 0x7000 2 31 reg) ∧
          ∀ j, moveLane (now s) p (fld v 56 5) (some ok) = some j → retrains p = false → answers (.laneRetrain k w ok) s fun t =>
            t = modPort s k.toNat fun p => addJob p j))

/-- R331 to R334, R341, R344: FABRIC_PACKET completes. The next packet that came by a port, and that no packet of its flow in the
hold store, or beside the switch from a port that left service, keeps back: one aged 50 ms is discarded, counted and reported; a multicast one goes to its group's ports and here;
one for this device is delivered, unless an earlier MSG or SYNC_OP of its flow waits at another port; one of a held DID waits in the store, as does one behind such a packet of its flow; one with
a route goes to its egress port; one with none is discarded, counted and reported; what leaves the port's buffer is returned
to the peer. A packet that must wait lets one of another flow pass. The device's own packets, those of the hold store and
those beside the switch go the same way. -/
def Obligations.FabricPackets : Prop :=
  (∀ (s : State) (k : BitVec 4) (p : FPkt) (r : List FPkt), asleep s = false → tget [] s.gf.inbox k.toNat = p :: r →
    let u := { s with gf := { s.gf with inbox := tput [] s.gf.inbox k.toNat r } }
    let F := fun (v : State) => answers (.fabricPacket (.port k)) s fun t => t = freeBuffer v k.toNat p
    let kept := s.gf.stored.any fun q => flowOf q == flowOf p
    let beside := s.gf.moved.any fun q => flowOf q == flowOf p
    (aged u p = true → F (discardAged u p)) ∧
    (aged u p = false →
      (p.mcast = false → kept = true → holdRoom u p = true → F { u with gf := { u.gf with stored := u.gf.stored ++ [p] } }) ∧
      (p.mcast = true ∨ (kept = false ∧ beside = false) →
        (hasDid s = false → p.arr.isSome → F (routeReport (countNoRoute u 1) sNOROUTE p.dstDid)) ∧
        (hasDid s = true →
          (p.mcast = true → F (switchMcast u k.toNat p)) ∧
          (p.mcast = false → p.dstDid = ownDid s → early u p = false → F (deliverLocal u k.toNat p)) ∧
          (p.mcast = false → p.dstDid ≠ ownDid s →
            (heldDid u p.dstDid = true → holdRoom u p = true → F { u with gf := { u.gf with stored := u.gf.stored ++ [p] } }) ∧
            (heldDid u p.dstDid = false →
              (∀ j lv, egressPort u p = .port j lv → F (pump (toEgress u j { p with level := lv }) j)) ∧
              (egressPort u p = .none → p.arr.isSome → F (routeReport (countNoRoute u 1) sNOROUTE p.dstDid))))))) ∧
    (switchFlow u k.toNat p = none →
      (r = [] → answers (.fabricPacket (.port k)) s fun t => t = s) ∧
      ∀ q r', r = q :: r' → flowOf q ≠ flowOf p →
        ∀ v, switchFlow { s with gf := { s.gf with inbox := tput [] s.gf.inbox k.toNat (p :: r') } } k.toNat q = some v →
          answers (.fabricPacket (.port k)) s fun t => t = freeBuffer v k.toNat q)) ∧
  (∀ (s : State) (k : BitVec 4) (p : Pkt) (f : FabRef) (r : List Pkt), asleep s = false →
    (∀ j < k.toNat, ownPkts s j = []) → tget [] s.landing (epPort k.toNat) = p :: r → p.fab = some f →
    ∀ v, switchFlow { s with landing := tput [] s.landing (epPort k.toNat) r } k.toNat (toFabric p f) = some v →
      answers (.fabricPacket .own) s fun t => t = v) ∧
  ∀ (s : State) (p : FPkt) (r : List FPkt), asleep s = false → heldDid s p.dstDid = false ∨ aged s p = true →
    let H := fun (u : State) => ∀ v, switchPkt u ((p.arr.map BitVec.toNat).getD 0) p = some v →
      answers (.fabricPacket .held) s fun t => t = v
    (s.gf.moved = [] → s.gf.stored = p :: r → H { s with gf := { s.gf with stored := r } }) ∧
    (s.gf.moved = p :: r → H { s with gf := { s.gf with moved := r } })

/-- R340, R343 to R347: the fabric's registers and shapers: ROUTING_ENTRY_WRITE, BANK_SWAP, DID_HOLD, SHAPER_RATE_WRITE, SHAPER_RESET,
SHAPER_SEND, SHAPER_FROZEN_TIMEOUT and CONGESTION_SAMPLE complete. A routing or multicast entry of the bank that is not active
is written, one of the active bank or one that names a fused port is rejected; ACTIVE and the hold ranges are set; a shaper
with tokens sends its first packet and pays its bytes, RESET zeroes its tokens, a written RATE waits for the tick; a packet
that a frozen bucket has kept too long fails. A sample counts the bin of every egress buffer's fill, and a full map is closed. -/
def Obligations.FabricControl : Prop :=
  (∀ (s : State) (w : Wr), w.writer.toNat = 31 →
    let i := (if s.gf.rtSel.getLsbD 15 then 32768 else 0) + fld s.gf.rtSel 0 15
    let e : BitVec 32 := BitVec.ofNat 32 (mergeHalf w.half (BitVec.ofNat 64 (tget 0 s.gf.rt i).toNat) w.value).toNat
    let j := (if s.gf.mcSel.getLsbD 15 then 4096 else 0) + fld s.gf.mcSel 0 12
    let m : BitVec 17 := BitVec.ofNat 17 (mergeHalf w.half (BitVec.ofNat 64 (tget 0 s.gf.mc j).toNat) w.value).toNat
    (badEntry e = false → s.gf.rtSel.getLsbD 15 ≠ s.gf.active → namesFused s (rtPorts e) = false →
      answers (.routingEntryWrite false w) s fun t => t = { s with gf := { s.gf with rt := tput 0 s.gf.rt i e } }) ∧
    (badEntry e = true → answers (.routingEntryWrite false w) s fun t => t = reject s 0x7000 1 31 0x7018) ∧
    (badEntry e = false → s.gf.rtSel.getLsbD 15 = s.gf.active ∨ namesFused s (rtPorts e) = true →
      answers (.routingEntryWrite false w) s fun t => t = reject s 0x7000 2 31 0x7018) ∧
    (s.gf.mcSel.getLsbD 15 ≠ s.gf.active → namesFused s (maskPorts (fld m 0 16)) = false →
      answers (.routingEntryWrite true w) s fun t => t = { s with gf := { s.gf with mc := tput 0 s.gf.mc j m } }) ∧
    (answers (.bankSwap w) s fun t => t.gf.active = (mergeHalf w.half (BitVec.ofNat 64 (if s.gf.active then 1 else 0)) w.value).getLsbD 0) ∧
    (∀ h : BitVec 2,
      let v := holdBits (mergeHalf w.half (tget 0 s.gf.holds h.toNat) w.value)
      (v.getLsbD 63 = true → fld v 32 15 < fld v 0 15 →
        answers (.didHold h w) s fun t => t = reject s 0x7000 1 31 (0x7030 + 8 * h.toNat)) ∧
      (v.getLsbD 63 = false ∨ fld v 0 15 ≤ fld v 32 15 →
        answers (.didHold h w) s fun t => t = { s with gf := { s.gf with holds := tput 0 s.gf.holds h.toNat v } })) ∧
    (let b := selShaper s
     let h := shaperOf s b.1 b.2
     let v := mergeHalf w.half (shaperCfg h) w.value
     fld v 32 20 ≤ 400000 → 1024 ≤ fld v 0 24 → (getPort s b.1).st ≠ 0 →
     let h' := { h with nextRate := fld v 32 20, burst := fld v 0 24
                        tokens := if (halfBits w.half w.value).getLsbD 63 then 0 else h.tokens }
     (answers (.shaperRateWrite w) s fun t => shaperOf t b.1 b.2 = h') ∧ (answers (.shaperReset w) s fun t => shaperOf t b.1 b.2 = h'))) ∧
  (∀ (s : State) (k n : BitVec 4) (p : FPkt) (at' : Nat) (r : List (FPkt × Nat)), asleep s = false →
    let h := shaperOf s k.toNat n.toNat
    h.queue = (p, at') :: r →
    (h.rate = 0 ∨ h.tokens ≤ 0 → answers (.shaperSend k n) s fun t => t = s) ∧
    (h.rate ≠ 0 → 0 < h.tokens → answers (.shaperSend k n) s fun t => ∃ u, t = pump u k.toNat ∧
      shaperOf u k.toNat n.toNat = { h with queue := r, tokens := h.tokens - fLength p } ∧
      egressOf u k.toNat = egressOf s k.toNat ++ [p] ∧ u.cores = s.cores) ∧
    (∀ q, frozenDue s h = some q → answers (.shaperFrozenTimeout k n) s fun t => ∃ u, (∀ j, getCore u j = getCore s j) ∧
      shaperOf u k.toNat n.toNat = { h with queue := h.queue.filter fun x => x.1 != q
                                            fails := BitVec.ofNat 16 (min (h.fails.toNat + 1) 0xFFFF) } ∧
      t = match opOf u q with
        | some o => endOp u q.srcLcid o sFROZEN
        | none => match (fromFabric q).msg with
          | some m => if q.kind = 4 ∧ hdrHost m.h = true then endHostMsg u (hdrRef m.h) sFROZEN else u
          | none => u)) ∧
  ∀ (s : State) (n : Nat),
    (now s % 100 ≠ 0 → answers (.congestionSample n) s fun t => t = s) ∧
    (now s % 100 = 0 → s.gf.openN + 1 < s.gf.samples.toNat → answers (.congestionSample n) s fun t =>
      t.gf.openMap = addSample s n s.gf.openMap ∧ t.gf.openN = s.gf.openN + 1 ∧ t.gf.closed = s.gf.closed ∧ t.cores = s.cores) ∧
    (now s % 100 = 0 → s.gf.samples.toNat ≤ s.gf.openN + 1 → answers (.congestionSample n) s fun t =>
      t.gf.openMap = [] ∧ t.gf.openN = 0 ∧ t.gf.epoch = s.gf.epoch + 1 ∧ t.cores = s.cores ∧
      t.gf.closed = closedMap (s.gf.epoch + 1) (s.gf.openN + 1) (if s.gf.openN = 0 then s.pace.ns else s.gf.openAt)
        (addSample s n s.gf.openMap))

/-! ### The scratchpad (08_scratchpad.md) -/

/-- R217: every pair of a bank and a row holds exactly one slot: the bank and row numbers of the 16,384 slots (R216) are a
one-to-one map onto the 32 banks of 512 rows. -/
def Obligations.SlotMapping : Prop :=
  ∀ b w : Nat, b < 32 → w < 512 → ∃ n, n < 16384 ∧ bankOf n = b ∧ rowOf n = w ∧
    ∀ m, m < 16384 → bankOf m = b → rowOf m = w → m = n

/-! ### External memory and the scrubbers (13_external_memory.md, 08_scratchpad.md) -/

/-- R354, R356, R362, R363, R227: RANGE_CREATION, RANGE_REMOVAL, RANGE_GROWTH, RANGE_FILL_COMPLETE, PATROL_SCRUB and SCRUB_STEP complete.
A write of HBM_RANGEn creates, removes or grows the range where it can, and is rejected where it cannot or is reserved; a range
created has a key drawn for it, one removed has none; a completed fill leaves every byte and mark of the units zero and clears
nothing else. A patrol whose granules meet no error changes nothing; each error that they meet has its effect in turn: a
correctable one is counted, an uncorrectable one marks its granule and is counted. The scratchpad's scrubber goes on to the
next slot and wraps. -/
def Obligations.ExternalMemory : Prop :=
  (∀ (s : State) (n : BitVec 4) (w : Wr), w.writer.toNat = 31 → s.sec.trngOk = true →
    let old := rangeWord s n.toNat
    let v := rangeFields (mergeHalf w.half (rangeRead s n.toNat) w.value)
    let W := fun (P : State → Prop) => answers (.rangeCreation n w) s P ∧ answers (.rangeRemoval n w) s P ∧ answers (.rangeGrowth n w) s P
    (rangeReserved v = true → W fun t => t = reject s 0x6000 1 31 (0x6000 + 8 * n.toNat)) ∧
    (rangeReserved v = false → rangeCond s n.toNat v = false → W fun t => t = reject s 0x6000 2 31 (0x6000 + 8 * n.toNat)) ∧
    (rangeReserved v = false → rangeCond s n.toNat v = true → W fun t =>
      (∀ m, m ≠ n.toNat → rangeWord t m = rangeWord s m) ∧ t.cores = s.cores ∧ t.hbm.stk = s.hbm.stk ∧
      (∀ m, m ≠ n.toNat → tget [] t.hbm.keys m = tget [] s.hbm.keys m) ∧
      (v.getLsbD 63 = true → old.getLsbD 63 = false → rangeWord t n.toNat = v ∧ tget [] t.hbm.keys n.toNat = (drawKey s).2) ∧
      (v.getLsbD 63 = false → (rangeWord t n.toNat).getLsbD 63 = false ∧ tget 0 t.hbm.grow n.toNat = 0 ∧ tget [] t.hbm.keys n.toNat = []) ∧
      (v.getLsbD 63 = true → old.getLsbD 63 = true → old.getLsbD 62 = true →
        rangeWord t n.toNat = old ∧ tget 0 t.hbm.grow n.toNat = fld v 40 8))) ∧
  (∀ (s : State) (n : BitVec 4), let w := rangeWord s n.toNat
    w.getLsbD 63 = true → w.getLsbD 62 = false → answers (.rangeFillComplete n) s fun t =>
      rangeWord t n.toNat = putFld w 62 1 1 ∧ t.cores = s.cores ∧
      ∀ k : BitVec 2,
        let lo := fld w 32 8 * 0x10000000
        let hi := (fld w 32 8 + fld w 40 8) * 0x10000000
        (∀ a, k.toNat ∉ rangeStacks w ∨ a < lo ∨ hi ≤ a → rdByte (getStack t k).mem a = rdByte (getStack s k).mem a) ∧
        ∀ a, k.toNat ∈ rangeStacks w → lo ≤ a → a < hi → rdByte (getStack t k).mem a = 0 ∧ a / 64 ∉ (getStack t k).bad) ∧
  (∀ (s : State) (k : BitVec 2) (first n : Nat) (u : Upset), hbmServes s k = true →
    (∀ ups : List Upset, (∀ v ∈ ups, v.at' < first ∨ first + n ≤ v.at') → answers (.patrolScrub k first n ups) s fun t => t = s) ∧
    (∀ ups : List Upset, first ≤ u.at' → u.at' < first + n →
      exec (.patrolScrub k first n (u :: ups)) s = exec (.patrolScrub k first n ups) (hbmUpset s k u)) ∧
    (first ≤ u.at' → u.at' < first + n → u.at' < 0x30000000 → sHas (getStack s k).bad u.at' = false →
      answers (.patrolScrub k first n [u]) s fun t => (getStack t k).mem = (getStack s k).mem ∧ t.cores = s.cores ∧
        (u.correctable = true → (getStack t k).corrected.toNat = min ((getStack s k).corrected.toNat + 1) 0xFFFFFFFF ∧
          (getStack t k).bad = (getStack s k).bad) ∧
        (u.correctable = false → (getStack t k).uncorr.toNat = min ((getStack s k).uncorr.toNat + 1) 0xFFFF ∧
          (getStack t k).bad = sIns (getStack s k).bad u.at'))) ∧
  ∀ (s : State) (l : Lcid) (ups : List Upset), sliceWorks s l = true → asleep s = false → answers (.scrubStep l ups) s fun t =>
    (getCore t l).sp.scrub = ((getCore s l).sp.scrub % 16384 + 1) % 16384 ∧
    (ups = [] → (getCore t l).sp.mem = (getCore s l).sp.mem ∧ (getCore t l).sp.bad = (getCore s l).sp.bad)

/-! ### Faults and Snags (17_faults.md, 18_hangs_rings_resets.md) -/

/-- R459, R461, R471, R507: REPORT, RECORD_CLOSE and ERR_HEAD_WRITE complete. A report of a unit under a Sounding is absorbed; any other that matches an open record raises its count and sets its last time; one that matches none opens a
record with the next SEQ, or is lost and counted while the die is full. A record that has been quiet for QUIET µs, or open
for 1 s, closes. HEAD goes on within the entries written, and a value beyond TAIL is rejected. -/
def Obligations.ErrorLogs : Prop :=
  (∀ (s : State) (r : Rpt) (rest : List Rpt), s.errs.reports = r :: rest →
    let i := combOf r
    let c := getComb s i
    (absorbed s r = true → answers .report s fun t => t = { s with errs := { s.errs with reports := rest } }) ∧
    (absorbed s r = false → (∃ e ∈ c.die, matchesRec e r = true) → answers .report s fun t => t.errs.reports = rest ∧ t.cores = s.cores ∧
      (getComb t i).die = c.die.map (mergeReport (now s) r) ∧ (getComb t i).tail = c.tail ∧ ∀ j, j ≠ i → getComb t j = getComb s j) ∧
    (absorbed s r = false → (∀ e ∈ c.die, matchesRec e r = false) → answers .report s fun t =>
      t = openRecord { s with errs := { s.errs with reports := rest } } i r)) ∧
  (∀ (e : LogEnt) (r : Rpt) (t : Nat), matchesRec e r = true → (mergeReport t r e).count = min (e.count + 1) 0xFFFFFFFF ∧
    (mergeReport t r e).last = r.time ∧ (mergeReport t r e).seq = e.seq ∧ (mergeReport t r e).opened = e.opened) ∧
  (∀ (s : State) (i : Nat) (r : Rpt), (settleComb s i) = s → (openRecs (getComb s i)).length < 64 →
    ((getComb s i).die.length < 1024 → let c := getComb (openRecord s i r) i
      c.tail = (getComb s i).tail + 1 ∧ ∃ e, c.die = (getComb s i).die ++ [e] ∧ e.r = r ∧ e.count = 1 ∧ e.opened = true ∧
        e.seq = (getComb s i).tail) ∧
    (1024 ≤ (getComb s i).die.length → let c := getComb (openRecord s i r) i
      c.die = (getComb s i).die ∧ c.tail = (getComb s i).tail ∧ c.lost = min ((getComb s i).lost + 1) (2 ^ 64 - 1) ∧
      (tget 0 c.ovf r.cls.toNat).toNat = min ((tget 0 (getComb s i).ovf r.cls.toNat).toNat + 1) 0xFFFF)) ∧
  (∀ (s : State) (i : BitVec 2) (q : BitVec 32) (e : LogEnt),
    firstThat (fun (e : LogEnt) => e.seq % 2 ^ 32 == q.toNat && recordDue s e) (getComb s i.toNat).die = some e →
    answers (.recordClose i q) s fun t => t = settleComb (modComb s i.toNat fun c => closeRec c e.seq) i.toNat) ∧
  ∀ (s : State) (i : BitVec 2) (w : Wr), w.writer.toNat = 31 →
    let c := getComb s i.toNat
    let step := headStep c (fld (mergeHalf w.half (BitVec.ofNat 64 c.head) w.value) 0 32)
    (c.tail - c.head < step → answers (.errHeadWrite i w) s fun t => t = reject s 0x4000 1 31 (0x4108 + 0x100 * i.toNat)) ∧
    (step ≤ c.tail - c.head → answers (.errHeadWrite i w) s fun t => t = advanceHead s i.toNat (c.head + step))

/-- R454, R457, R465, R472 to R476, R18, R23, R181: CORE_INTERNAL_FAULT, FAULT_AGENT_ACTION and SNAG_RECORD complete. A hardware fault of a
core's units, of its lead site or of its twin site where it has one, holds every context of the core, with a fault record in
the context that it met, and is reported and counted; the agent acts on the events of a record once each, when the record's
turn has come, in one recovery of the grove, and not in the gap of a handoff (R525). A cycle of waits, each quiet for SNAG_CFG.QUIET, not
reported before, is recorded by the detector of its closing context's Stand, reported and signalled; any other list of
members changes nothing. -/
def Obligations.FaultsAndSnags : Prop :=
  (∀ (s : State) (l : Lcid) (e : SiteEngine) (tw : Bool), asleep s = false → occupied s l = true →
    (siteThere s l tw = true → answers (.coreInternalFault l ⟨e, none, tw⟩) s fun t =>
      getCore t l = recoveryHold (getCore s l) ∧ (getCore t l).recHold = true ∧ (∀ l', l' ≠ l → getCore t l' = getCore s l') ∧
      t.errs.reports.length = s.errs.reports.length + 1 ∧ (Ev.internal (sitePsid s l tw 7), now s) ∈ t.errs.events) ∧
    (siteThere s l tw = false → ∀ c, answers (.coreInternalFault l ⟨e, c, tw⟩) s fun t => t = s)) ∧
  (∀ (s : State) (l : Lcid) (e : SiteEngine) (c : CtxNo) (tw : Bool), asleep s = false → occupied s l = true → siteThere s l tw = true →
    (ctxOf s l c).st ≠ .free → effSt (ctxOf s l c) ≠ .faulted → answers (.coreInternalFault l ⟨e, some c, tw⟩) s fun t =>
      effSt (ctxOf t l c) = .faulted ∧ (ctxOf t l c).fr0 = fr0Of sINTERNAL false (engineUnit e) (ctxOf s l c).pc ∧
      (ctxOf t l c).fr1 = BitVec.ofNat 64 (sitePsid s l tw 7).toNat ∧ (getCore t l).recHold = true) ∧
  (∀ (s : State) (i : BitVec 2) (q : BitVec 32) (e : LogEnt),
    let c := getComb s i.toNat
    firstThat (fun (e : LogEnt) => e.seq % 2 ^ 32 == q.toNat && !e.evs.isEmpty) (c.spill ++ c.die) = some e →
    let sites := e.evs.filterMap fun v => if v.2.1 then evSite v.1 else none
    let act := fun (u : State) => e.evs.foldl (actOne i.toNat e.seq) u
    (inTurn s e = false ∨ gapOpen s = true → answers (.faultAgentAction i q) s fun t => t = s) ∧
    (inTurn s e = true → gapOpen s = false → answers (.faultAgentAction i q) s fun t => ∃ u, u.cores = s.cores ∧
      (∀ x ∈ (getComb u i.toNat).die ++ (getComb u i.toNat).spill, x.seq = e.seq → x.evs = []) ∧
      t = match sites with
        | p :: _ => oneRecovery u (psidDg p) fun s => serveEarlier (act s) (psidDg p)
        | [] => act u)) ∧
  ∀ (s : State) (ms : List (Lcid × CtxNo)) (m n : Lcid × CtxNo) (r : List (Lcid × CtxNo)), fromClosing s ms = m :: n :: r →
    let ok := (m :: n :: r).Nodup ∧ (∀ p ∈ cyclePairs (m :: n :: r), quietEdge s p.1 p.2 = true) ∧
      ∀ p ∈ s.snags, (m :: n :: r) ∉ p.2.live
    let i := standOf (dgOf m.1)
    (ok → answers (.snagRecord ms) s fun t => (getSnag t i).count.toNat = min ((getSnag s i).count.toNat + 1) 0xFFFFFFFF ∧
      (getSnag t i).next = (getSnag s i).next + 1 ∧ t.errs.reports.length = s.errs.reports.length + 1 ∧ t.cores = s.cores ∧
      tget [] (getSnag t i).recs (getSnag s i).next.toNat = snagRecordWords s (min ((getSnag s i).count.toNat + 1) 0xFFFFFFFF) (m :: n :: r)) ∧
    (¬ ok → answers (.snagRecord ms) s fun t => t = s)

/-! ### Register writes (22_register_map.md) -/

/-- R554, R555, R557: a write of 8 aligned bytes, or of the 4 that a half takes, is the write of the register at the offset; any
other size or alignment is rejected with reason 4; an offset that no block assigns ignores the write; a read-only register
keeps its value; a row that stands for a register's write is that register's write. So REGISTER_WRITE completes. -/
def Obligations.RegisterWrites : Prop :=
  (∀ (s : State) (off : BitVec 26) (n : Nat) (v : Word), ¬(n = 8 ∧ off.toNat % 8 = 0) → ¬(n = 4 ∧ off.toNat % 4 = 0) →
    (answers (.registerWrite 31 off n v) s fun t => t = reject s 0 4 31 off.toNat) ∧
    ∀ w : BitVec 5, w.toNat ≤ 16 → fnServes s w.toNat = true → s.dorm.st = .active →
      answers (.registerWrite w off n v) s fun t => t = reject s (0x10000 + 0x1000 * w.toNat) 4 w.toNat off.toNat) ∧
  (∀ (s : State) (w : BitVec 5) (off : BitVec 26) (n : Nat) (v : Word), w ≠ 31 → fnServes s w.toNat = false →
    answers (.registerWrite w off n v) s fun t => t = s) ∧
  (∀ (s : State) (v : Word),
    (∀ off : BitVec 26, 0xC00000 ≤ off.toNat → off.toNat % 8 = 0 → answers (.registerWrite 31 off 8 v) s fun t => t = s) ∧
    (answers (.registerWrite 31 0 8 v) s fun t => t = s) ∧
    (let low := fld v 0 16
     (5 ≤ low → low ≤ 10000 → (answers (.registerWrite 31 0x5000 8 v) s fun t => t = { s with snagCfg := BitVec.ofNat 64 low }) ∧
        answers (.registerWrite 31 0x5000 4 v) s fun t => t = { s with snagCfg := BitVec.ofNat 64 low }) ∧
     (low < 5 ∨ 10000 < low → answers (.registerWrite 31 0x5000 8 v) s fun t => t = reject s 0x5000 1 31 0x5000)) ∧
    (let low := fld v 0 16
     (300 ≤ low → low ≤ 600 → answers (.registerWrite 31 0x1008 8 v) s fun t =>
       t = { s with pace := { s.pace with limit := BitVec.ofNat 16 low } }) ∧
     (low < 300 ∨ 600 < low → answers (.registerWrite 31 0x1008 8 v) s fun t => t = reject s 0x1000 1 31 0x1008)) ∧
    (300 ≤ s.pace.limit.toNat → s.pace.limit.toNat ≤ 600 → answers (.registerWrite 31 0x100C 4 v) s fun t => t = s) ∧
    (exec (.registerWrite 31 0x1318 8 v) s = exec (.paceTimeSet ⟨31, .full, v⟩) s) ∧
    (exec (.registerWrite 31 0x131C 4 v) s = exec (.paceTimeSet ⟨31, .high, v⟩) s) ∧
    (exec (.registerWrite 31 0x7000 8 v) s = exec (.bankSwap ⟨31, .full, v⟩) s) ∧
    (exec (.registerWrite 31 0x400010 8 v) s = exec (.coreRoleWrite 0 ⟨31, .full, v⟩) s) ∧
    (exec (.registerWrite 31 0x10000 8 v) s = exec (.cqEnable 0 ⟨31, .full, v⟩) s)) ∧
  ∀ (s : State) (v : Word), fusedCore s 0 = false → occupied s 0 = true → asleep s = false →
    let k := getCore s 0
    let x := getCtx k k.ctxSel
    ((x.st = .held ∨ x.st = .faulted) → k.recHold = false → answers (.registerWrite 31 0x400108 8 v) s fun t =>
      onlyCtx s t 0 k.ctxSel (writeG x 1 v)) ∧
    (x.st ≠ .held → x.st ≠ .faulted → answers (.registerWrite 31 0x400108 8 v) s fun t => t = reject s 0x400000 2 31 0x400108)

/-! ### The host interface: queue pairs, doorbells, commands (14_host_interface.md) -/

/-- R372: SQ_TAIL_DOORBELL at offset 16q and CQ_HEAD_DOORBELL at 16q + 8 of BAR2 complete: the written bits [11:0] move the tail or the
head of pair q on by the distance modulo the ring; one of no pair, past the ring, or past what the ring can hold sets DB_ERR and
signals vector 128, and the pair stays. A write from offset 0x800 is ignored, and reads there return zero. Where the link or the
function does not serve nothing happens, and a read returns Unsupported Request (R367). -/
def Obligations.Doorbells : Prop :=
  ∀ (s : State) (f : HostFn) (off : BitVec 12) (v : Word),
    let q := off.toNat / 16
    let ix := fld v 0 12
    let sq : Instr := .sqTailDoorbell f off v
    let cq : Instr := .cqHeadDoorbell f off v
    (fnServes s f.val = false → (answers sq s fun t => t = s) ∧ answers cq s fun t => t = s) ∧
    (fnServes s f.val = true → 0x800 ≤ off.toNat → bar2Read s f off = some 0) ∧
    (fnServes s f.val = false → bar2Read s f off = none) ∧
    (fnServes s f.val = true → s.dorm.st = .active →
      let E := fun (i : Instr) => answers i s fun t => (getFn t f.val).dbErr = true ∧ (∀ q', pairOf t f q' = pairOf s f q') ∧ t.cores = s.cores ∧
        (sHas (getFn s f.val).unmasked 128 = true →
          tget 0 (getFn t f.val).sent 128 = tget 0 (getFn s f.val).sent 128 + 1) ∧
        (sHas (getFn s f.val).unmasked 128 = false → sHas (getFn t f.val).pend 128 = true)
      (0x800 ≤ off.toNat ∨ off.toNat % 16 ≠ 0 → answers sq s fun t => t = s) ∧
      (0x800 ≤ off.toNat ∨ off.toNat % 16 ≠ 8 → answers cq s fun t => t = s) ∧
      (off.toNat < 0x800 → pairOf s f q = none → (off.toNat % 16 = 0 → E sq) ∧ (off.toNat % 16 = 8 → E cq)) ∧
      (off.toNat < 0x800 → ∀ p, pairOf s f q = some p → p.svc = none →
        let d := (ix % p.sqSize + p.sqSize - p.sqTail % p.sqSize) % p.sqSize
        let e := (ix % p.cqSize + p.cqSize - p.cqHead % p.cqSize) % p.cqSize
        (off.toNat % 16 = 0 → p.sqSize ≤ ix ∨ p.sqSize - 1 < p.sqTail - p.sqHead + d → E sq) ∧
        (off.toNat % 16 = 0 → ix < p.sqSize → p.sqTail - p.sqHead + d ≤ p.sqSize - 1 → answers sq s fun t =>
          pairOf t f q = some { p with sqTail := p.sqTail + d } ∧ (getFn t f.val).cmds = (getFn s f.val).cmds ∧
          ∀ q', q' ≠ q → pairOf t f q' = pairOf s f q') ∧
        (off.toNat % 16 = 8 → p.cqSize ≤ ix ∨ p.cqTail < p.cqHead + e → E cq) ∧
        (off.toNat % 16 = 8 → ix < p.cqSize → p.cqHead + e ≤ p.cqTail → answers cq s fun t =>
          pairOf t f q = some { p with cqHead := p.cqHead + e } ∧ (getFn t f.val).cmds = (getFn s f.val).cmds ∧
          ∀ q', q' ≠ q → pairOf t f q' = pairOf s f q')))

/-- R375, R376, R380, R387: CQ_ENABLE, COMMAND_FETCH, CREATE_QP and DELETE_QP complete. EN written 1 with both rings set makes the admin pair and RDY; with a ring unset it is rejected with reason 2;
EN written 0 with nothing in flight removes the pair and clears RDY, and else stops the pair. A fetch takes the next command of a pair and reserves its
completion slot, and waits while there is none to take, no room, or the function is stopped. CREATE_QP makes a pair, or
ends PERM where there is one; DELETE_QP removes one with nothing in flight, stops one that has, or ends BOUNDS where there is none. -/
def Obligations.QueuePairs : Prop :=
  (∀ (s : State) (f : HostFn), let n := getFn s f.val
    (n.en = false → n.rdy = false → fld n.asq 0 12 ≠ 0 → fld n.acq 0 12 ≠ 0 → answers (.cqEnable f ⟨31, .full, 1⟩) s fun t =>
      (getFn t f.val).en = true ∧ (getFn t f.val).rdy = true ∧ pairOf t f 0 = some (newQp n.asq n.acq true none) ∧
      (getFn t f.val).cmds = n.cmds ∧ t.cores = s.cores) ∧
    (n.en = false → fld n.asq 0 12 = 0 ∨ fld n.acq 0 12 = 0 → answers (.cqEnable f ⟨31, .full, 1⟩) s fun t =>
      t = reject s (0x10000 + 0x1000 * f.val) 2 31 (0x10000 + 0x1000 * f.val)) ∧
    (n.en = true → ∀ p, pairOf s f 0 = some p →
      ((∀ c ∈ n.cmds, c.q ≠ 0 ∨ c.dead = true) → answers (.cqEnable f ⟨31, .full, 0⟩) s fun t =>
        (getFn t f.val).en = false ∧ (getFn t f.val).rdy = false ∧ pairOf t f 0 = none ∧ t.cores = s.cores) ∧
      ((∃ c ∈ n.cmds, c.q = 0 ∧ c.dead = false) → answers (.cqEnable f ⟨31, .full, 0⟩) s fun t =>
        (getFn t f.val).en = false ∧ (getFn t f.val).rdy = n.rdy ∧ pairOf t f 0 = some { p with stop := true } ∧ t.cores = s.cores))) ∧
  (∀ (s : State) (f : HostFn) (q : BitVec 7) (ws : List Word) (p' : Qp), pairOf s f q.toNat = some p' →
    let n := getFn s f.val
    let p := servicePair s f p'
    let svc := p'.svc.isSome
    let at' := fld p.sqBase 0 38 + 64 * (p.sqHead % p.sqSize)
    (dormBusy s = true ∨ gapOpen s = true ∨ p.stop = true ∨ (q = 0 ∧ n.en = false) ∨ (svc = false ∧ fnServes s f.val = false) ∨ p.sqTail ≤ p.sqHead ∨
      p.cqSize ≤ p.cqTail + p.resv - p.cqHead → answers (.commandFetch f q ws) s fun t => t = s) ∧
    (dormBusy s = false → gapOpen s = false → p.stop = false → (q = 0 → n.en = true) → (svc = false → fnServes s f.val = true) → p.sqHead < p.sqTail →
      p.cqTail + p.resv - p.cqHead < p.cqSize →
      ∀ vs, (svc = false → vs = ws) → (svc = true → vs = (List.range 8).map fun i => BitVec.ofNat 64
        (leNat (((hbmFetch s (fnPart f).toNat at' 64).1.drop (8 * i)).take 8))) → answers (.commandFetch f q ws) s fun t =>
        pairOf t f q.toNat = some { p with sqHead := p.sqHead + 1, resv := p.resv + 1 } ∧
        (getFn t f.val).cmds = n.cmds ++ [newCmd q vs ((p.sqHead + 1) % p.sqSize) n.nseq (n.nseq * 17 + f.val)
          ((cmdFault s f q.toNat svc vs).map fun st => (st, 0))] ∧ t.cores = s.cores)) ∧
  (∀ (s : State) (r : CmdRef) (c : HostCmd), running s r 0x01 = some c →
    let w := fun i => c.words.getD i 0
    let q := fld (w 3) 0 7
    ((pairOf s r.f q).isSome → answers (.createQp r) s fun t => ended s t r c sPERM 0 ∧ ∀ q', pairOf t r.f q' = pairOf s r.f q') ∧
    (pairOf s r.f q = none → answers (.createQp r) s fun t => ended s t r c sOK 0 ∧ t.cores = s.cores ∧
      pairOf t r.f q = some (newQp (w 1) (w 2) ((w 3).getLsbD 7) (if (w 3).getLsbD 8 then some (w 4, w 5, w 6) else none)) ∧
      ∀ q', q' ≠ q → pairOf t r.f q' = pairOf s r.f q')) ∧
  ∀ (s : State) (r : CmdRef) (c : HostCmd), running s r 0x02 = some c →
    let q := fld (c.words.getD 3 0) 0 7
    (pairOf s r.f q = none → answers (.deleteQp r) s fun t => ended s t r c sBOUNDS 0 ∧ ∀ q', pairOf t r.f q' = pairOf s r.f q') ∧
    ∀ p, pairOf s r.f q = some p →
      ((∀ d ∈ (getFn s r.f.val).cmds, d.q.toNat ≠ q ∨ d.dead = true) → answers (.deleteQp r) s fun t =>
        pairOf t r.f q = none ∧ (∀ q', q' ≠ q → pairOf t r.f q' = pairOf s r.f q') ∧ t.cores = s.cores ∧
        ∃ d ∈ (getFn t r.f.val).cmds, d.seq = c.seq ∧ d.fin = some (sOK, 0)) ∧
      ((∃ d ∈ (getFn s r.f.val).cmds, d.q.toNat = q ∧ d.dead = false) → answers (.deleteQp r) s fun t =>
        pairOf t r.f q = some { p with stop := true } ∧ (∀ q', q' ≠ q → pairOf t r.f q' = pairOf s r.f q') ∧ t.cores = s.cores ∧
        ∃ d ∈ (getFn t r.f.val).cmds, d.seq = c.seq ∧ d.begun = true ∧ d.fin = none)

/-- R378, R405, Table 14.5: HOST_COMMAND_COMPLETE, MSIX_UNMASK and IDENTIFY complete. The first check that a fetched command fails: PERM while
the device is sanitised, UNDEF for an undefined opcode, RSVD for a reserved value or an
opcode that the pair does not take, PERM; each in a command that fails that check and the later ones. R379, R381: a finished
command leaves, its completion stands in the next slot of the ring with the phase of the pass, and its vector is sent where it is
unmasked and pending where it is masked; a vector unmasked is sent once if it was pending. IDENTIFY writes its 512 words. -/
def Obligations.HostCommands : Prop :=
  (∀ (s : State) (f : HostFn) (q : Nat) (svc : Bool) (ws : List Word),
    (s.sec.pending.isSome → cmdFault s f q svc ws = some sPERM) ∧
    (s.sec.pending = none → cmdFields ws = none → cmdFault s f q svc ws = some sUNDEF) ∧
    (∀ fs, s.sec.pending = none → cmdFields ws = some fs → (onlyNamed ws fs = false ∨ cmdBadValue ws = true ∨ (q = 0 ∧ adminOnly (cmdOpc ws) = false) ∨
      (q ≠ 0 ∧ adminOnly (cmdOpc ws) = true)) → cmdFault s f q svc ws = some sRSVD) ∧
    (cmdFields ws = none ↔ cmdOpc ws ∉ [0x01, 0x02, 0x03, 0x10, 0x11, 0x12, 0x20, 0x21, 0x30, 0x31, 0x38, 0x39, 0x3A, 0x3B, 0x40])) ∧
  (∀ (s : State) (r : CmdRef) (c : HostCmd), asleep s = false → cmdOf s r = some c →
    (c.fin = none → answers (.hostCommandComplete r) s fun t => t = s) ∧
    (c.fin.isSome → c.dead = true → answers (.hostCommandComplete r) s fun t => t.cores = s.cores ∧ t.host.mem = s.host.mem ∧
      (getFn t r.f.val).cmds = (getFn s r.f.val).cmds.filter (fun d => d.seq != c.seq) ∧ ∀ q, pairOf t r.f q = pairOf s r.f q) ∧
    (∀ st res p, c.fin = some (st, res) → c.dead = false → pairOf s r.f c.q.toNat = some p → answers (.hostCommandComplete r) s fun t =>
      t = settlePair (writeCqe (modFn s r.f.val fun n => { n with cmds := n.cmds.filter fun d => d.seq != c.seq }) r.f p c st res) r.f c.q.toNat) ∧
    ∀ st res p, c.fin = some (st, res) → c.dead = false → pairOf s r.f c.q.toNat = some p → p.svc = none → p.stop = false →
      answers (.hostCommandComplete r) s fun t =>
        let a := p.cqBase.toNat + 16 * (p.cqTail % p.cqSize)
        let phase := 1 - p.cqTail / p.cqSize % 2
        (getFn t r.f.val).cmds = (getFn s r.f.val).cmds.filter (fun d => d.seq != c.seq) ∧
        pairOf t r.f c.q.toNat = some { p with cqTail := p.cqTail + 1, resv := p.resv - 1 } ∧
        (c.sqhd < 2 ^ 16 →
          rdNum t.host.mem a 8 = st.toNat * 2 ^ 56 + phase * 2 ^ 48 + c.sqhd * 2 ^ 32 + c.q.toNat * 2 ^ 16 + c.cid.toNat) ∧
        rdNum t.host.mem (a + 8) 8 = res.toNat ∧ (∀ i, i < a ∨ a + 16 ≤ i → rdByte t.host.mem i = rdByte s.host.mem i) ∧
        (p.ien = true → sHas (getFn s r.f.val).unmasked c.q.toNat = true →
          tget 0 (getFn t r.f.val).sent c.q.toNat = tget 0 (getFn s r.f.val).sent c.q.toNat + 1) ∧
        (p.ien = true → sHas (getFn s r.f.val).unmasked c.q.toNat = false → sHas (getFn t r.f.val).pend c.q.toNat = true)) ∧
  (∀ (s : State) (f : HostFn) (v : BitVec 11), v.toNat < vectors f → answers (.msixUnmask f v) s fun t =>
    let n := getFn s f.val
    let m := getFn t f.val
    m.unmasked = sIns n.unmasked v.toNat ∧ t.cores = s.cores ∧
    (sHas n.pend v.toNat = true → sHas m.pend v.toNat = false ∧ tget 0 m.sent v.toNat = tget 0 n.sent v.toNat + 1) ∧
    (sHas n.pend v.toNat = false → m.pend = n.pend ∧ m.sent = n.sent)) ∧
  ∀ (s : State) (r : CmdRef) (c : HostCmd), running s r 0x03 = some c → answers (.identify r) s fun t => ended s t r c sOK 0 ∧
    t.cores = s.cores ∧ (c.dead = false → ∀ i, i < 512 →
      rdNum t.host.mem ((c.words.getD 1 0).toNat + 8 * i) 8 = (identifyWord s r.f i).toNat)

/-- R383, R374: DMA_TO_DEV, DMA_FROM_DEV, HOST_WINDOW_READ and HOST_WINDOW_WRITE complete: a command that a check stops ends with its status,
any other with its bytes moved, in one piece or along its list, POISON where it met poison and BOUNDS where the host gave too few. A transfer of plain bytes between the host and a slice that it may reach: DMA_TO_DEV writes them at the device
address and nothing beside them, DMA_FROM_DEV writes the slice's bytes to the host, and both end OK with their length; a LEN of 0
ends OK at once, an address that the checks refuse ends with their status. A window access inside the range in force reads or
writes it; another read answers Unsupported Request, another write sets WIN_ERR and changes no range; what a poisoned write TLP brings is
stored as poisoned (the model's choice, log entry 135); while the device wakes an access waits (R360, R447). -/
def Obligations.HostTransfers : Prop :=
  (∀ (s : State) (r : CmdRef) (c : HostCmd) (d : HostData),
    let a := c.words.getD 2 0
    let n := fld (c.words.getD 3 0) 0 32
    let off := if fld a 62 2 = 1 then fld a 0 21 else fld a 0 38
    (∀ st, dmaFault s r.f c.words d = some st →
      (running s r 0x10 = some c → answers (.dmaToDev r d) s fun t => t = endCmd s r c st 0) ∧
      (running s r 0x11 = some c → answers (.dmaFromDev r d) s fun t => t = endCmd s r c st 0)) ∧
    (dmaFault s r.f c.words d = none →
      (running s r 0x10 = some c →
        (d.bad = [] → n ≤ d.bytes.length → answers (.dmaToDev r d) s fun t =>
          let q := devStore s (fnPart r.f) a (d.bytes.take n) []
          t = endCmd q.1 r c (if q.2 then sPOISON else sOK) (BitVec.ofNat 64 n)) ∧
        (d.bad = [] → d.bytes.length < n → answers (.dmaToDev r d) s fun t =>
          let m := wholePackets off d.bytes.length n
          t = endCmd (devStore s (fnPart r.f) a (d.bytes.take m) []).1 r c sBOUNDS (BitVec.ofNat 64 m)) ∧
        (∀ i, i ∈ d.bad → i < n → i < d.bytes.length → (∀ j < i, j ∉ d.bad) → answers (.dmaToDev r d) s fun t =>
          let m := min (wholePackets off d.bytes.length n) (poisonEnd off i n)
          t = endCmd (devStore s (fnPart r.f) a (d.bytes.take m) (d.bad.filter (· < m))).1 r c sPOISON (BitVec.ofNat 64 m))) ∧
      (running s r 0x11 = some c → c.dead = false → answers (.dmaFromDev r d) s fun t =>
        let q := devFetch s (fnPart r.f) a n
        let to' := if cmdList c.words then d.addrs.zip d.counts else [(c.words.getD 1 0, n)]
        t = endCmd (scatter s to' q.1 q.2) r c (if q.2 = [] then sOK else sPOISON) (BitVec.ofNat 64 n)))) ∧
  (∀ (s : State) (r : CmdRef) (c : HostCmd) (d : HostData), running s r 0x10 = some c → cmdList c.words = false →
    let a := c.words.getD 2 0
    let l : Lcid := BitVec.ofNat 12 (fld a 21 12)
    let o := fld a 0 21
    let n := fld (c.words.getD 3 0) 0 32
    (n = 0 → answers (.dmaToDev r d) s fun t => ended s t r c sOK 0 ∧ t.cores = s.cores) ∧
    (∀ st, n ≠ 0 → devFault s r.f a n = some st → answers (.dmaToDev r d) s fun t => ended s t r c st 0 ∧ t.cores = s.cores) ∧
    (n ≠ 0 → devFault s r.f a n = none → fld a 62 2 = 1 → d.bytes.length = n → d.bad = [] → poisonAt (getCore s l).sp o n = none →
      answers (.dmaToDev r d) s fun t => ended s t r c sOK (BitVec.ofNat 64 n) ∧
        (∀ i, i < n → rdByte (getCore t l).sp.mem (o + i) = d.bytes.getD i 0) ∧
        (∀ i, i < o ∨ o + n ≤ i → rdByte (getCore t l).sp.mem i = rdByte (getCore s l).sp.mem i) ∧
        ∀ l', l' ≠ l → getCore t l' = getCore s l')) ∧
  (∀ (s : State) (r : CmdRef) (c : HostCmd) (d : HostData), running s r 0x11 = some c → cmdList c.words = false →
    let a := c.words.getD 2 0
    let sl := (getCore s (BitVec.ofNat 12 (fld a 21 12))).sp
    let n := fld (c.words.getD 3 0) 0 32
    let h := (c.words.getD 1 0).toNat
    n ≠ 0 → devFault s r.f a n = none → fld a 62 2 = 1 → sl.bad = [] → c.dead = false →
      answers (.dmaFromDev r d) s fun t => ended s t r c sOK (BitVec.ofNat 64 n) ∧ t.cores = s.cores ∧
        (∀ i, i < n → rdByte t.host.mem (h + i) = rdByte sl.mem (fld a 0 21 + i)) ∧
        ∀ i, i < h ∨ h + n ≤ i → rdByte t.host.mem i = rdByte s.host.mem i) ∧
  (∀ (s : State) (f : HostFn) (off n : Nat), fnServes s f.val = true → s.dorm.st = .active →
    (∀ p o, windowReach s f off n = some (p, o) → answers (.hostWindowRead f off n) s fun t => t.cores = s.cores ∧ t.hbm = s.hbm ∧
      t.host.reads = s.host.reads ++ [some ((hbmFetch s p.toNat o n).1, !(hbmFetch s p.toNat o n).2.isEmpty)]) ∧
    (windowReach s f off n = none → answers (.hostWindowRead f off n) s fun t => t.cores = s.cores ∧ t.hbm = s.hbm ∧
      t.host.reads = s.host.reads ++ [none])) ∧
  (∀ (s : State) (f : HostFn) (off n : Nat) (w : BarWrite), fnServes s f.val = true → asleep s = true → s.dorm.st = .waking →
    (answers (.hostWindowRead f off n) s fun t => t = { s with host := { s.host with winq := s.host.winq ++ [⟨f, off, n, none⟩] } }) ∧
    (w.bad = false → answers (.hostWindowWrite f off w) s fun t =>
      t = { s with host := { s.host with winq := s.host.winq ++ [⟨f, off, w.data.length, some w⟩] } })) ∧
  ∀ (s : State) (f : HostFn) (off : Nat) (bs : List Byte) (poisoned : Bool), fnServes s f.val = true → s.dorm.st = .active → off < 2 ^ 34 →
    let w : Instr := .hostWindowWrite f off ⟨bs, poisoned⟩
    let u := if poisoned then noteAer s 12 else s
    (∀ p o, windowReach s f off bs.length = some (p, o) → answers w s fun t =>
      t = (hbmStore u p.toNat o bs (if poisoned then below bs.length else [])).1) ∧
    (windowReach s f off bs.length = none → answers w s fun t =>
      (getFn t f.val).winErr = true ∧ t.hbm = s.hbm ∧ t.cores = s.cores) ∧
    (∀ p o, windowReach s f off bs.length = some (p, o) → bs.length = 64 → o % 64 = 0 → poisoned = false →
      chRetired (getStack s (hbmPlace s p.toNat o).1) (hbmPlace s p.toNat o).1 ((hbmPlace s p.toNat o).2 / 64) = false →
      answers w s fun t => t.cores = s.cores ∧
        let k := (hbmPlace s p.toNat o).1
        let a := (hbmPlace s p.toNat o).2
        (∀ i, i < 64 → rdByte (getStack t k).mem (a + i) = bs.getD i 0) ∧
        (∀ i, i < a ∨ a + 64 ≤ i → rdByte (getStack t k).mem i = rdByte (getStack s k).mem i) ∧
        ∀ k', k' ≠ k → getStack t k' = getStack s k')

/-- R384, R243, R368: MSG, LOAD, UNLOAD and FLR complete. A host message that a check refuses ends its command with that status; any other
goes into the mesh, or out of a port where its target is another device's, and one that no router leads to ends LCID_VACANT. R386, R287: a LOAD that a check refuses ends with it
and changes no core; one whose cores are not quiet holds them and waits; once they are quiet each core holds the program, the
partition and its rank as its logical ID, the image, the handlers and CTRL, with context 0 started where asked, and the command ends OK; an image whose last chunk is
poisoned ends it with POISON, its cores without a program. UNLOAD returns its cores to PROGRAM 0 and leaves them held. R371, R395: an FLR returns a function to its reset values but for what
survives it, and unloads a locked partition. -/
def Obligations.LoadsAndFunctions : Prop :=
  (∀ (s : State) (r : CmdRef) (c : HostCmd) (d : HostData), running s r 0x12 = some c → c.begun = false →
    ∀ st, hostMsgFault s r.f d (hostHdr s c.ref d.bytes) = some st → answers (.hostMsg r d) s fun t =>
      ended s t r c st 0 ∧ t.cores = s.cores ∧ t.landing = s.landing ∧ t.groves = s.groves) ∧
  (∀ (s : State) (r : CmdRef) (c : HostCmd) (d : HostData), running s r 0x12 = some c → c.begun = false →
    let h := hostHdr s c.ref d.bytes
    let l := hdrDst h
    let m : Msg := { h := h, data := (d.bytes.drop 32).take (hdrLen h), bad := [], part := hostMsgPart s r.f h, mid := c.ref, due := 0, again := false }
    let u := modCmd s r.f.val c.seq fun c => { c with begun := true }
    let p : Pkt := { msgPkt m with part := m.part }
    let q : Pkt := { p.toCore l with srcl := true, sep := epPcie }
    hostMsgFault s r.f d h = none →
      (∀ did, hdrFar s h = some did → answers (.hostMsg r d) s fun t =>
        let w : Pkt := { p with fab := some ⟨if hasDid s then ownDid s else 0, did, 0, some l, 0, false⟩ }
        t = sendFar (modCmd u r.f.val c.seq fun c => { c with wire := some (w, now s) }) (.ep epPcie) p did 0 (some l)) ∧
      (hdrFar s h = none → hostReaches s q.addr (dgOf l) = false → answers (.hostMsg r d) s fun t => ended u t r c sVACANT 0 ∧ t.cores = s.cores) ∧
      (hdrFar s h = none → hostReaches s q.addr (dgOf l) = true → answers (.hostMsg r d) s fun t => ∃ v, t = sendLanding v epPcie q ∧
        v.groves = s.groves ∧ v.cores = s.cores ∧ v.landing = s.landing)) ∧
  (∀ (s : State) (r : CmdRef) (c : HostCmd) (d : LoadData), running s r 0x20 = some c → c.begun = false → c.cores = [] →
    let part := cmdPart r.f c.words
    let cores := ldCores d
    let waits := fun l => quietCore (quiesce (getCore s l)) = false ∨ groveSounds s (dgOf l) = true ∨ sweptPos s l = true
    let poisoned := ∃ l ∈ cores, loadPoison d (quiesce (getCore s l)) = true
    let bound := ldWord d 8 ≠ 0 ∧ ∃ x ∈ chanRecs d.channels, chanBlocked (cores.foldl (fun s l => modCore s l quiesce) s) cores x = true
    (∀ st res, loadFault s r.f c.seq part d = some (st, res) → answers (.hostLoad r d) s fun t => ended s t r c st res ∧ t.cores = s.cores) ∧
    (loadFault s r.f c.seq part d = none → (∃ l ∈ cores, waits l) → answers (.hostLoad r d) s fun t =>
      (∀ l ∈ cores, getCore t l = quiesce (getCore s l)) ∧ (∀ l, l ∉ cores → getCore t l = getCore s l) ∧
      ∃ e ∈ (getFn t r.f.val).cmds, e.seq = c.seq ∧ e.begun = true ∧ e.fin = none ∧ e.cores = cores) ∧
    (loadFault s r.f c.seq part d = none → (∀ l ∈ cores, ¬ waits l) → bound → answers (.hostLoad r d) s fun t =>
      ∃ e ∈ (getFn t r.f.val).cmds, ∃ res, e.seq = c.seq ∧ e.fin = some (sPERM, res)) ∧
    (loadFault s r.f c.seq part d = none → (∀ l ∈ cores, ¬ waits l) → ¬ bound → poisoned → answers (.hostLoad r d) s fun t =>
      (∀ l ∈ cores, fld (getCore t l).role 28 16 = 0) ∧
      ∃ e ∈ (getFn t r.f.val).cmds, ∃ res, e.seq = c.seq ∧ e.fin = some (sPOISON, res)) ∧
    (loadFault s r.f c.seq part d = none → (∀ l ∈ cores, ¬ waits l) → ¬ bound → ¬ poisoned →
      answers (.hostLoad r d) s fun t => (∃ e ∈ (getFn t r.f.val).cmds, e.seq = c.seq ∧ e.fin = some (sOK, 0xFFFF)) ∧
        (∃ u, t = endCmd (loadNow u part d cores) r c sOK 0xFFFF ∧ ∀ l ∈ cores, getCore u l = quiesce (getCore s l)) ∧
        ∀ i l, cores[i]? = some l →
          fld (getCore t l).role 28 16 = fld (ldWord d 0) 48 16 ∧ fld (getCore t l).role 44 4 = part.toNat ∧
          fld (getCore t l).role 0 27 = (fld (ldWord d 0) 0 27 + i) % 2 ^ 27 ∧ (getCore t l).un.area = ldWord d 10 ∧
          (∀ n, n < d.handlers.length → tget 0 (getCore t l).ht n = d.handlers.getD n 0) ∧
          ((ldWord d 9).getLsbD 21 = true → ((getCtx (getCore t l) 0).pc = BitVec.ofNat 21 (fld (ldWord d 9) 0 21) ∧
            (getCtx (getCore t l) 0).st = .ready)))) ∧
  (∀ (s : State) (r : CmdRef) (c : HostCmd), running s r 0x21 = some c → c.begun = false → c.cores = [] →
    let part := cmdPart r.f c.words
    let all := namedCores (fld (c.words.getD 3 0) 0 16) (c.words.drop 4)
    let named := all.filter (occupied s)
    let may := ∀ l ∈ all, partOf s (dgOf l) = some part ∧ coreTaken s r.f c.seq l = false
    (¬ may → answers (.hostUnload r) s fun t => ended s t r c sPERM 0 ∧ t.cores = s.cores) ∧
    (may → (∃ l ∈ named, quietCore (quiesce (getCore s l)) = false) → answers (.hostUnload r) s fun t =>
      (∀ l ∈ named, getCore t l = quiesce (getCore s l)) ∧ (∀ l, l ∉ named → getCore t l = getCore s l) ∧
      ∃ e ∈ (getFn t r.f.val).cmds, e.seq = c.seq ∧ e.begun = true ∧ e.fin = none ∧ e.cores = named) ∧
    (may → (∀ l ∈ named, quietCore (quiesce (getCore s l)) = true) → answers (.hostUnload r) s fun t =>
      (∃ e ∈ (getFn t r.f.val).cmds, e.seq = c.seq ∧ e.fin = some (sOK, 0)) ∧ (∀ l ∈ all, fld (getCore t l).role 28 16 = 0) ∧
      ∀ l ∈ named, fld (getCore t l).role 28 16 = 0 ∧ fld (getCore t l).role 44 4 = part.toNat ∧ (getCore t l).ctrl.getLsbD 1 = true)) ∧
  (∀ (s : State) (f : HostFn), f.val ≠ 0 → tdiLocked s (f.val - 1) = true → answers (.flr f) s fun t =>
    (getFn t f.val).pairs = [] ∧ (getFn t f.val).en = false ∧ (getFn t f.val).tdi = .unlocked ∧
    (rangeWord t (f.val - 1)).getLsbD 63 = false ∧ ∀ g : HostFn, g ≠ f → getFn t g.val = getFn s g.val) ∧
  ∀ (s : State) (f : HostFn), f.val = 0 ∨ tdiLocked s (f.val - 1) = false → answers (.flr f) s fun t =>
    let n := getFn t f.val
    n.en = false ∧ n.rdy = false ∧ n.winErr = false ∧ n.dbErr = false ∧ n.asq = 0 ∧ n.acq = 0 ∧ n.win = 0 ∧ n.notify = [] ∧
    n.pairs = [] ∧ n.slots = [] ∧ n.tdi = .unlocked ∧ n.cmds = (getFn s f.val).cmds.map (fun c => { c with dead := true }) ∧
    wrejWord t (0x10000 + 0x1000 * f.val) = 0 ∧ t.cores = s.cores ∧ t.hbm = s.hbm ∧
    ∀ g : HostFn, g ≠ f → getFn t g.val = getFn s g.val

/-- R388, R389, R320: COLL_DEFINE, COLL_DELETE and COLLECTIVE_EXCHANGE complete. COLL_DEFINE ends with the first check that it fails; one that passes defines the collective, and arms its reduction
but for a BROADCAST. COLL_DELETE takes both away, or ends BOUNDS where there is none. An exchange waits until the local phase is
complete, every listed device is heard or lost and the last multicast is acknowledged; the results are then folded, DEST written where other
devices take part, the result sent to the contributors but for a REDUCE, and the collective record written; a REDUCE arrives at
DONE, and a collective in fast mode is counted. A lost device ends the collective with REMOTE_LOST and signals vector 131
to PF0 and to the partition's function. -/
def Obligations.Collectives : Prop :=
  (∀ (s : State) (r : CmdRef) (hc : HostCmd) (d' : CollData), running s r 0x30 = some hc →
    let d := collInput s r.f ((pairOf s r.f hc.q.toNat).any fun p => p.svc.isSome) hc.words d'
    let w := fun i => hc.words.getD i 0
    let id : BitVec 16 := BitVec.ofNat 16 (fld (w 3) 48 16)
    let anchor := fun (c : Coll) => getObj (getGrove s (redRoot (collRed c))) (syncIx (d.image.getD 5 0))
    ∀ c : Coll, c.part = cmdPart r.f hc.words → c.id = id → c.kind = BitVec.ofNat 2 (fld (w 3) 32 2) → c.image = d.image → c.dids = d.dids →
      c.done = w 4 → c.fn = r.f → c.members = imageMembers s d.image → c.ready = false → c.since = 0 → c.result = none → c.acks = 0 →
      c.phase = fld (anchor c).val 32 32 →
      (∀ st, collFault s c (fld (w 3) 0 16) = some st → answers (.collDefine r d') s fun t =>
        ended s t r hc st 0 ∧ t.host.colls = s.host.colls ∧ t.reds = s.reds) ∧
      (collFault s c (fld (w 3) 0 16) = none → answers (.collDefine r d') s fun t =>
        ended s t r hc sOK (BitVec.ofNat 64 id.toNat) ∧ t.host.colls = s.host.colls ++ [c] ∧ t.cores = s.cores ∧
        t.reds = (if fld (w 3) 32 2 = 2 then s.reds else s.reds ++ [freshRed d.image c.members (some (c.part, id))]))) ∧
  (∀ (s : State) (r : CmdRef) (hc : HostCmd), running s r 0x31 = some hc →
    let part := cmdPart r.f hc.words
    let id : BitVec 16 := BitVec.ofNat 16 (fld (hc.words.getD 3 0) 48 16)
    (collOf s part id = none → answers (.collDelete r) s fun t => ended s t r hc sBOUNDS 0 ∧ t.host.colls = s.host.colls) ∧
    ((collOf s part id).isSome → answers (.collDelete r) s fun t => ended s t r hc sOK 0 ∧ collOf t part id = none ∧
      (∀ q ∈ t.reds, q.coll ≠ some (part, id)) ∧ t.cores = s.cores)) ∧
  ∀ (s : State) (part : BitVec 4) (id : BitVec 16) (x : CollExchange) (c : Coll), asleep s = false → collOf s part id = some c →
    let u := restColl (if redRepro (collRed c) then s else countFast s (some c.part)) c
    (phaseDone s c = false ∨ c.acks ≠ 0 ∨ (∃ d ∈ peers s c, peerGone s c x d = none) →
      answers (.collectiveExchange part id x) s fun t => t = s) ∧
    (phaseDone s c = true → c.acks = 0 → (∀ d ∈ peers s c, peerGone s c x d = some false) →
      (c.kind ≠ 2 → answers (.collectiveExchange part id x) s fun t =>
        let acc := foldDevices u c x
        let v := if peers s c = [] then u
          else modCore u (redDest acc) fun k => modSp k fun sl => (List.range (redChunks acc)).foldl (writeChunk acc) sl
        t = if c.kind = 0 then collArrive (collRecord v acc (redStatus acc)) c else collRecord (multicast v c) acc (redStatus acc)) ∧
      (c.kind = 2 → answers (.collectiveExchange part id x) s fun t =>
        let acc := addChunks (collRed c) (collRed c) (localChunks u c)
        t = collRecord (multicast u c) acc (redStatus acc))) ∧
    (phaseDone s c = true → c.acks = 0 → (∀ d ∈ peers s c, (peerGone s c x d).isSome) → (∃ d ∈ peers s c, peerGone s c x d = some true) →
      answers (.collectiveExchange part id x) s fun t => collOf t part id = none ∧
        t = dropColl (serviceEvent (collArrive (collRecord u (collRed c) sLOST) c) (some (c.part.toNat + 1))) c)

/-- R390, R391: CKPT_ATTACH, CKPT_DETACH, CKPT_WRITE, CKPT_READ, NVME_COMPLETION and NVME_TIMEOUT complete. CKPT_ATTACH attaches a slot that is free and DETACH frees one that is attached; else they end PERM and BOUNDS. A transfer
to a slot that is not attached ends BOUNDS; one of no bytes ends OK; one that passes its checks issues its pieces, a single piece one entry of the
slot's SQ with its doorbell. A completion with success of the last piece ends the
transfer with its length, and the slot's CQ head goes on; one with a failing status, and 5 s without one, detach the slot, signal
vector 131 and end the command REMOTE_LOST. -/
def Obligations.Checkpoints : Prop :=
  (∀ (s : State) (r : CmdRef) (c : HostCmd), running s r 0x38 = some c →
    let n := fld (c.words.getD 5 0) 0 3
    fld (c.words.getD 3 0) 32 12 ≠ 0 →
    ((slotOf s r.f.val n).isSome → answers (.ckptAttach r) s fun t => ended s t r c sPERM 0 ∧ ∀ m, slotOf t r.f.val m = slotOf s r.f.val m) ∧
    (slotOf s r.f.val n = none → answers (.ckptAttach r) s fun t => ended s t r c sOK 0 ∧ slotOf t r.f.val n = some ⟨c.words, 0, 0, 0, true⟩ ∧
      t.cores = s.cores ∧ ∀ m, m ≠ n → slotOf t r.f.val m = slotOf s r.f.val m)) ∧
  (∀ (s : State) (r : CmdRef) (c : HostCmd), running s r 0x39 = some c →
    let n := fld (c.words.getD 5 0) 0 3
    (slotOf s r.f.val n = none → answers (.ckptDetach r) s fun t => ended s t r c sBOUNDS 0) ∧
    ((slotOf s r.f.val n).isSome → answers (.ckptDetach r) s fun t => ended s t r c sOK 0 ∧ slotOf t r.f.val n = none ∧
      t.cores = s.cores ∧ ∀ m, m ≠ n → slotOf t r.f.val m = slotOf s r.f.val m)) ∧
  (∀ (s : State) (r : CmdRef) (c : HostCmd), c.begun = false →
    let F := fun (i : Instr) (st : Status) => answers i s fun t => ended s t r c st 0 ∧ t.cores = s.cores ∧ t.host.bus = s.host.bus
    let G := fun (i : Instr) =>
      (slotOf s r.f.val (ckSlot c) = none → F i sBOUNDS) ∧
      (∀ v, slotOf s r.f.val (ckSlot c) = some v → ckLen c = 0 → F i sOK) ∧
      (∀ v, slotOf s r.f.val (ckSlot c) = some v → ckLen c % slotLba v ≠ 0 → F i sRSVD) ∧
      (ckFault s r.f c = none → answers i s fun t => t = ckAdvance (modCmd s r.f.val c.seq fun c => { c with begun := true }) r.f c.seq) ∧
      (∀ v, ckFault s r.f c = none → slotOf s r.f.val (ckSlot c) = some v → (∀ d ∈ (getFn s r.f.val).cmds, d.seq = c.seq → d = c) →
        c.nv = [] → c.nvNext = 0 → c.nvBad = none → ckLen c ≤ slotMax v → outstanding s r.f.val (ckSlot c) + 1 < slotSize v →
        pieceBad s r.f c 0 (ckLen c) = false → answers i s fun t => t.cores = s.cores ∧
          (slotOf t r.f.val (ckSlot c)).map Slot.tail = some ((v.tail + 1) % slotSize v) ∧
          t.host.bus = s.host.bus ++ [(v.words.getD 1 0, BitVec.ofNat 64 ((v.tail + 1) % slotSize v))] ∧
          ∃ e, (∃ d ∈ (getFn t r.f.val).cmds, d.seq = c.seq ∧ d.fin = none ∧ d.nv = [e]) ∧
            e.id = v.nextId ∧ e.off = 0 ∧ e.len = ckLen c ∧ e.ok = none)
    (running s r 0x3A = some c → G (.ckptWrite r)) ∧ (running s r 0x3B = some c → G (.ckptRead r))) ∧
  ∀ (s : State) (f : HostFn) (slot : BitVec 3) (id : Nat) (c : HostCmd) (e : Nvme) (v : Slot), nvmeOf s f.val slot.toNat id = some (c, e) →
    slotOf s f.val slot.toNat = some v → (∀ d ∈ (getFn s f.val).cmds, d.seq = c.seq → d = c) →
    let Failed := fun (t : State) => slotOf t f.val slot.toNat = none ∧
      ∃ d ∈ (getFn t f.val).cmds, d.seq = c.seq ∧ ∃ res, d.fin = some (sLOST, res)
    (∀ sf bs, sf ≠ 0 → answers (.nvmeCompletion f slot id sf bs) s Failed) ∧
    (now s < e.tick + 5000001 → answers (.nvmeTimeout f slot id) s fun t => t = s) ∧
    (e.tick + 5000001 ≤ now s → answers (.nvmeTimeout f slot id) s Failed) ∧
    ∀ bs, c.nv = [e] → e.flush = false → e.off = 0 → e.len = ckLen c → c.nvNext = ckLen c → c.nvBad = none → cmdFua c.words = false →
      answers (.nvmeCompletion f slot id 0 bs) s fun t =>
        slotOf t f.val slot.toNat = some { v with head := (v.head + 1) % slotSize v, phase := v.phase != ((v.head + 1) % slotSize v == 0) } ∧
        (∃ d ∈ (getFn t f.val).cmds, d.seq = c.seq ∧ d.fin = some (sOK, BitVec.ofNat 64 (ckLen c))) ∧
        t.host.bus = s.host.bus ++ [(v.words.getD 2 0, BitVec.ofNat 64 ((v.head + 1) % slotSize v))] ∧ t.cores = s.cores

/-- R392, R366, R492: TELEM, TELEMETRY_INTERVAL, PCIE_LINK_TRAINED, PERST_N_RISE and PCIE_RESET complete. TELEM sets the ring, the interval and the mask; an interval that is due writes a record of each kind of the mask, or counts
those that do not fit as lost, and is due again an interval later. R366, R367, R492, R537: the link trains only after READY with
PERST_N high, and settles on nothing outside Table 14.1; a PCIe reset takes it down and leaves every function as after an FLR; PERST_N follows its pin. -/
def Obligations.TelemetryAndLink : Prop :=
  (∀ (s : State) (r : CmdRef) (c : HostCmd), running s r 0x40 = some c →
    let w := fun i => c.words.getD i 0
    answers (.telem r) s fun t => ended s t r c sOK 0 ∧ t.cores = s.cores ∧ t.host.telem.base.toNat = (w 1).toNat / 4096 * 4096 ∧
      t.host.telem.log2 = fld (w 1) 0 5 ∧ t.host.telem.ivl = (w 2).toNat ∧ t.host.telem.mask = w 3 ∧
      ((w 2).toNat ≠ 0 → t.host.telem.due = now s + (w 2).toNat + 1)) ∧
  (∀ s : State, let e := s.host.telem
    let kinds := ([1, 2, 3] : List Nat).filter fun k => e.mask.getLsbD k
    (e.ivl = 0 ∨ now s < e.due → answers .telemetryInterval s fun t => t = s) ∧
    (e.ivl ≠ 0 → e.due ≤ now s → answers .telemetryInterval s fun t => t.cores = s.cores ∧ t.host.telem.due = e.due + e.ivl ∧
      t.host.telem.maps = [] ∧
      (∀ k, kinds = [k] → t.host.eth = (if Config.telemExport then s.host.eth ++ [telemRecord s k] else s.host.eth) ∧
        let n := 8 * (telemRecord s k).length
        let used := (e.tail + 2 ^ e.log2 - (getFn s 0).telHead.toNat % 2 ^ e.log2) % 2 ^ e.log2
        (fnServes s 0 = true → used + n < 2 ^ e.log2 → t.host.telem.tail = (e.tail + n) % 2 ^ e.log2 ∧ (getFn t 0).lost = (getFn s 0).lost)) ∧
      (fnServes s 0 = false → t.host.mem = s.host.mem ∧ t.host.telem.tail = e.tail ∧
        (getFn t 0).lost.toNat = min ((getFn s 0).lost.toNat + kinds.length) 0xFFFFFFFF))) ∧
  (∀ (s : State) (g w : Nat) (x : PcieCfg),
    (s.cruise.ready = true → s.pins.perstN = true → linkFits g w x = true → answers (.pcieLinkTrained g ⟨w, x⟩) s fun t =>
      t = { s with host := { s.host with link := ⟨true, g, w, x, false, s.host.link.aer⟩ } }) ∧
    (s.cruise.ready = false ∨ s.pins.perstN = false ∨ linkFits g w x = false → answers (.pcieLinkTrained g ⟨w, x⟩) s fun t => t = s)) ∧
  (∀ s : State, answers .perstNRise s fun t => t = { s with pins := { s.pins with perstN := true } }) ∧
  ∀ (s : State) (cause : PcieResetCause), (∀ n, n < 16 → tdiLocked s n = false) → answers (.pcieReset cause) s fun t =>
    t.host.link = PcieLink.zero ∧ t.cores = s.cores ∧ t.hbm = s.hbm ∧ t.pins.perstN = (s.pins.perstN && decide (cause ≠ .perstLow)) ∧
    ∀ f : HostFn, (getFn t f.val).en = false ∧ (getFn t f.val).rdy = false ∧ (getFn t f.val).pairs = [] ∧ (getFn t f.val).tdi = .unlocked ∧
      (getFn t f.val).cmds = (getFn s f.val).cmds.map fun c => { c with dead := true }

/-! ### Link security and the Warden (15_security.md) -/

/-- R394, R393, R395, R419: KEY_EXCHANGE, GET_MEASUREMENTS, IDE_KM, LOCK_INTERFACE, START_INTERFACE, STOP_INTERFACE and
GET_DEVICE_INTERFACE_REPORT complete. A key exchange over a certificate slot that holds a chain, in a state that attests, opens
a session with a new number and a new key; any other answers an error, as does every SPDM request in a state that does not
attest; the other requests of R394 are answered as spdmServe says (log entry 121). GET_MEASUREMENTS answers index 0 with the
count of blocks (log entry 5, the model's coding), an index without a block with an error, the block of a locked partition
within a session of its owner only, and signs on request. IDE_KM within
a session programs, refreshes and stops a stream; a failed integrity check makes a secure stream insecure. R395, R396: LOCK in
DEPLOYED from CONFIG_UNLOCKED, START from CONFIG_LOCKED, STOP to CONFIG_UNLOCKED with the range removed, and the report of a
locked TDI; each refused otherwise. -/
def Obligations.LinkSecurity : Prop :=
  (∀ (s : State) (path : SpdmPath) (slot : Nat) (owner : Option (BitVec 4)) (ok : Bool),
    let good := ok = true ∧ attests s.sec.life = true ∧ s.sec.trngOk = true ∧ (slot = 0 ∨ slot = 1 ∧ s.sec.chain ≠ []) ∧
      (path = .mctp ∨ s.host.link.up = true)
    (good → answers (.keyExchange path (.keyExchange slot owner) ok) s fun t =>
      t.host.sess = s.host.sess ++ [⟨s.host.nsess + 1, path, slot, (drawKey s).2.take 32, owner⟩] ∧
      t.host.nsess = s.host.nsess + 1 ∧ t.host.spdm = s.host.spdm ++ [some (leBytes 4 (s.host.nsess + 1))] ∧ t.cores = s.cores) ∧
    (¬ good → answers (.keyExchange path (.keyExchange slot owner) ok) s fun t => t = spdmAnswer s none)) ∧
  (∀ (s : State) (path : SpdmPath) (q : SpdmReq) (ok : Bool),
    (path = .doe → s.host.link.up = false → answers (.keyExchange path q ok) s fun t => t = spdmAnswer s none) ∧
    (attests s.sec.life = false → s.sec.life ≠ .retired → answers (.keyExchange path q ok) s fun t => t = spdmAnswer s none) ∧
    (s.sec.life = .retired → q ≠ .getVersion → q ≠ .getCapabilities → answers (.keyExchange path q ok) s fun t => t = spdmAnswer s none) ∧
    (attests s.sec.life = true → path = .mctp ∨ s.host.link.up = true → answers (.keyExchange path q ok) s fun t => t = spdmServe path q ok s)) ∧
  (∀ (s : State) (ix : BitVec 8) (sign : Bool) (nonce : List Byte) (sess : Option Nat),
    (attests s.sec.life = false → answers (.getMeasurements ix sign nonce sess) s fun t => t.host.spdm = s.host.spdm ++ [none]) ∧
    (attests s.sec.life = true →
      (ix = 0 → answers (.getMeasurements ix sign nonce sess) s fun t =>
        t.host.spdm = s.host.spdm ++ [some (if sign then [23] ++ sig96 s ([23] ++ nonce) else [23])]) ∧
      (8 ≤ ix.toNat → ix.toNat < 16 → answers (.getMeasurements ix sign nonce sess) s fun t => t.host.spdm = s.host.spdm ++ [none]) ∧
      (16 ≤ ix.toNat → ix.toNat < 32 → tdiLocked s (ix.toNat - 16) = true → ownerSession s (ix.toNat - 16) sess = false →
        answers (.getMeasurements ix sign nonce sess) s fun t => t.host.spdm = s.host.spdm ++ [none]) ∧
      (∀ v, measValue s ix.toNat = some v → ix.toNat ≠ 0 →
        ix.toNat < 16 ∨ (ix.toNat < 32 ∧ (tdiLocked s (ix.toNat - 16) = false ∨ ownerSession s (ix.toNat - 16) sess = true)) → answers (.getMeasurements ix sign nonce sess) s fun t =>
        let b := measBlock ix.toNat v
        t.host.spdm = s.host.spdm ++ [some (if sign then b ++ sig96 s (b ++ nonce) else b)]) ∧
      measValue s 7 = some (digest48 s.sec.owner))) ∧
  (∀ (s : State) (n : Nat) (sess : Option Nat), n < 18 →
    let v := getIde s n
    (hasSession s sess = true →
      (∀ key assoc, ideFits n key assoc = true → answers (.ideKm n sess (.program key assoc)) s fun t =>
        getIde t n = ⟨1, key, assoc⟩ ∧ t.host.spdm = s.host.spdm ++ [some []]) ∧
      (answers (.ideKm n sess .stop) s fun t => getIde t n = IdeStream.zero ∧ t.host.spdm = s.host.spdm ++ [some []]) ∧
      (∀ key, v.st = 1 → ideFits n key v.assoc = true → answers (.ideKm n sess (.refresh key)) s fun t =>
        getIde t n = { v with key := key } ∧ t.host.spdm = s.host.spdm ++ [some []])) ∧
    (hasSession s sess = false → ∀ op, op ≠ .integrityFailure → answers (.ideKm n sess op) s fun t =>
      t.host.ide = s.host.ide ∧ t.host.spdm = s.host.spdm ++ [none]) ∧
    (v.st = 1 → answers (.ideKm n sess .integrityFailure) s fun t => getIde t n = { v with st := 2 } ∧ t.host.spdm = s.host.spdm)) ∧
  ∀ (s : State) (v : BitVec 4),
    let A := fun (i : Instr) (to' : Tdi) => answers i s fun t => tdiOf t v.toNat = to' ∧ t.host.spdm = s.host.spdm ++ [some []] ∧
      ∀ m, m ≠ v.toNat → tdiOf t m = tdiOf s m
    let R := fun (i : Instr) => answers i s fun t => t = spdmAnswer s none
    (s.sec.life = .deployed → tdiOf s v.toNat = .unlocked → A (.lockInterface v) .locked) ∧
    (s.sec.life ≠ .deployed ∨ tdiOf s v.toNat ≠ .unlocked → R (.lockInterface v)) ∧
    (tdiOf s v.toNat = .locked → A (.startInterface v) .run) ∧ (tdiOf s v.toNat ≠ .locked → R (.startInterface v)) ∧
    (A (.stopInterface v) .unlocked) ∧
    (tdiLocked s v.toNat = true → answers (.stopInterface v) s fun t => (rangeWord t v.toNat).getLsbD 63 = false) ∧
    (answers (.getDeviceInterfaceReport ⟨v, .state⟩) s fun t => t.host.spdm = s.host.spdm ++ [some [tdiCode (tdiOf s v.toNat)]]) ∧
    (tdiLocked s v.toNat = true → answers (.getDeviceInterfaceReport ⟨v, .report⟩) s fun t => t.host.spdm = s.host.spdm ++ [some reportBytes]) ∧
    (tdiLocked s v.toNat = false → R (.getDeviceInterfaceReport ⟨v, .report⟩))

/-- R398 to R407, R409, R410, R412: DEPLOY, ENTER_SERVICE, EXIT_SERVICE, RETIRE, COMMIT, OWNER_CHAIN_WRITE, FIRMWARE_UPDATE and
TRNG_HEALTH_TEST complete; a token in the mailbox is the same token as an MCTP message. A token that fails a check leaves the life cycle as it is, counts a rejection, sets its status and DONE
and takes a new nonce; one that passes moves the state along Table 15.2: DEPLOY to DEPLOYED with the owner's hash, ENTER_SERVICE
to SERVICE and RETIRE to RETIRED through the sanitising of every grove and range, whose first step waits for the commands in flight,
EXIT_SERVICE at the next cold reset. COMMIT raises the fused SVN to the running image's. A chain is stored only under the owner's key; a failed health test is reported. -/
def Obligations.LifeCycle : Prop :=
  (∀ (s : State) (bs : List Byte), lookoutUp s = true → s.sec.busy = false →
    let st := tokStatus s bs
    let F := fun (i : Instr) (n : Nat) => tokCmd bs = n →
      (st ≠ sOK → answers i s fun t => t.sec.life = s.sec.life ∧ t.sec.result = st ∧ t.sec.done = true ∧ t.sec.pending = s.sec.pending ∧
        t.sec.rejected.toNat = min (s.sec.rejected.toNat + 1) 0xFFFF ∧ t.sec.owner = s.sec.owner ∧ t.cores = s.cores ∧
        t.sec.nonce = (below 4).map fun i => Config.freeWord (s.freeCtr + i)) ∧
      (st = sOK → answers i s fun t => t.sec.result = sOK ∧ t.sec.done = true ∧ t.sec.rejected = s.sec.rejected)
    F (.deploy (.mctp bs)) 1 ∧ F (.enterService (.mctp bs)) 2 ∧ F (.exitService (.mctp bs)) 3 ∧ F (.retire (.mctp bs)) 4 ∧
    (st = sOK →
      (tokCmd bs = 1 → answers (.deploy (.mctp bs)) s fun t => t.sec.life = .deployed ∧ t.sec.changed = true ∧ t.cores = s.cores ∧
        t.sec.owner = sha384 ((bs.drop 88).take 96)) ∧
      (tokCmd bs = 3 → answers (.exitService (.mctp bs)) s fun t => t.sec.life = s.sec.life ∧ t.sec.exitPend = true ∧
        t.sec.exits = min 32 (s.sec.exits + 1) ∧ t.cores = s.cores) ∧
      (tokCmd bs = 2 → answers (.enterService (.mctp bs)) s fun t => t.sec.life = s.sec.life ∧ t.sec.busy = true ∧ t.sec.pending = some 2 ∧
        t.sec.sanAt = 1 ∧ t.cores = s.cores) ∧
      (tokCmd bs = 4 → answers (.retire (.mctp bs)) s fun t => t.sec.life = s.sec.life ∧ t.sec.busy = true ∧ t.sec.pending = some 4 ∧
        t.sec.sanAt = 1 ∧ t.cores = s.cores))) ∧
  (∀ (s : State) (w : Wr), lookoutUp s = true → s.sec.busy = false → w.writer.toNat = 31 → fld (halfBits w.half w.value) 0 2 = 1 →
    let bs := mboxBytes s
    let u := { s with sec := { s.sec with mbox := [] } }
    (tokCmd bs = 1 → exec (.deploy (.mailbox w)) s = exec (.deploy (.mctp bs)) u) ∧
    (tokCmd bs = 2 → exec (.enterService (.mailbox w)) s = exec (.enterService (.mctp bs)) u) ∧
    (tokCmd bs = 3 → exec (.exitService (.mailbox w)) s = exec (.exitService (.mctp bs)) u) ∧
    (tokCmd bs = 4 → exec (.retire (.mailbox w)) s = exec (.retire (.mctp bs)) u)) ∧
  (∀ s : State, (s.sec.sanAt = 1 → cmdsInFlight s = true → sanStep s = s) ∧
    ∀ n, n = 2 ∨ n = 4 →
      let t := sanTail (sanLoads (sanLinks s)) n
      t.sec.busy = false ∧ t.sec.pending = none ∧ t.sec.changed = true ∧ t.host.sess = [] ∧ t.host.colls = [] ∧
      (∀ n, n < 16 → tdiLocked t n = false ∧ (rangeWord t n).getLsbD 63 = false) ∧
      ((∀ d, (getGrove s d).waiters = []) → ∀ l, (getCore t l).sp.mem = [] ∧ (getCore t l).eng.acc = []) ∧
      (n = 2 → t.sec.life = .service ∧ t.sec.entries = min 32 (s.sec.entries + 1)) ∧
      (n = 4 → t.sec.life = .retired ∧ t.sec.secret = false)) ∧
  (∀ s : State,
    (s.sec.busy = false → mayCommit s = true → answers (.commit ⟨31, .full, 2⟩) s fun t => t.sec.svnFused = s.sec.svnRun ∧ t.cores = s.cores ∧
      t.sec.life = s.sec.life ∧
      t.sec.revoked = s.sec.revoked ||| BitVec.ofNat 4 (hdrNum (fwSlot s s.sec.run).lookout 12 4)) ∧
    (s.sec.busy = true ∨ mayCommit s = false → answers (.commit ⟨31, .full, 2⟩) s fun t => t = reject s 0x3000 2 31 0x3040)) ∧
  (∀ (s : State) (bs : List Byte),
    let ok := lookoutUp s = true ∧ s.sec.life = .deployed ∧ sHas s.sec.badKeys 4 = false ∧ Config.chainCertifies bs s.sec.owner = true
    (ok → answers (.ownerChainWrite bs) s fun t => t = { s with sec := { s.sec with chain := bs } }) ∧
    (¬ ok → answers (.ownerChainWrite bs) s fun t => t = s)) ∧
  (∀ s : State, (answers (.trngHealthTest true) s fun t =>
      let u := { s with sec := { s.sec with trngOk := true } }
      t = if s.cruise.phase = 0 then u else drawFwKey u) ∧
    answers (.trngHealthTest false) s fun t => t.sec.trngOk = false ∧ t.cores = s.cores ∧ t.errs.reports.length = s.errs.reports.length + 1) ∧
  ∀ (s : State) (b : Bool) (w k : FwImage), lookoutUp s = true ∨ s.sec.recovery = true → (s.sec.recovery = true → b = true) →
    s.sec.busy = false → answers (.firmwareUpdate b w k) s fun t =>
      let ok := imageOk s 1 w && imageOk s 2 k
      fwSlot t (!s.sec.run) = ⟨w, k, ok⟩ ∧ fwSlot t s.sec.run = fwSlot s s.sec.run ∧ t.cores = s.cores ∧
      t.sec.run = s.sec.run ∧ t.sec.next = if s.sec.recovery && ok then !s.sec.run else s.sec.next

/-! ### Live service, Dormant (20_live_service.md, 16_bringup.md) -/

/-- R524 to R528: ACTIVATE_FIRMWARE, ACTIVATION_EXCHANGE_TIMEOUT, HANDOFF_FALLBACK and RESIDENT_IMAGE_ROLL complete. An activation that a condition of R526 refuses answers PERM and changes nothing else; one that another activation or
procedure or a collective exchange goes before waits, and answers QTIMEOUT after 100 ms of exchange; any other runs the other
slot's Lookout and measures it, and the gap is open, which ends at the tick that is its span later with the answer OK and the
estimate of 50 ms. A new image that has not resumed in 40 ms falls back: the image before runs again and the answer is INTERNAL,
or no Lookout runs. The roll of the next grove that is not deferred abandons its sweeps and frees the contexts that run the
image, and once all is quiet writes the resident image, restarts the services and goes on to the next; any other grove's roll
does nothing. -/
def Obligations.LiveService : Prop :=
  (∀ (s : State) (a : ActivateIn), 3 ≤ s.cruise.phase.toNat →
    let A := fun (P : State → Prop) => answers (.activateFirmware a) s P
    (gapOpen s = true ∨ s.live.waiting ≠ [] → A fun t =>
      t = { s with live := { s.live with waiting := s.live.waiting ++ [(a, now s)] } }) ∧
    (gapOpen s = false → s.live.waiting = [] →
      (activateRefused s a = true → A fun t => t = { s with live := { s.live with answers := s.live.answers ++ [(sPERM, 0)] } }) ∧
      (activateRefused s a = false → exchanging s = true ∨ procedureRuns s = true → A fun t =>
        t = { s with live := { s.live with waiting := [(a, now s)] } }) ∧
      (activateRefused s a = false → exchanging s = false → procedureRuns s = false → A fun t =>
        t.sec.run = !s.sec.run ∧ t.sec.life = s.sec.life ∧ t.live.fn = a.fn ∧ t.live.red = a.reduce ∧ t.cores = s.cores ∧ t.groves = s.groves ∧
        t.live.answers = s.live.answers ∧ gapOpen t = true ∧ t.sec.meas3 = imageDigest 2 (fwSlot s (!s.sec.run)).lookout ∧
        (t.live.roll = s.live.roll ∨ t.live.roll = workingGroves s)))) ∧
  (∀ (s : State) (h : Handoff), s.live.last = some h →
    (h.down = false → h.tick + 50000 ≤ now s → activationStep s = { s with live := { s.live with
      last := none, answers := s.live.answers ++ [(sOK, 50)] } }) ∧
    (h.down = true ∨ now s < h.tick + 50000 → activationStep s = s)) ∧
  (∀ (s : State) (a : ActivateIn) (n : Nat) (r : List (ActivateIn × Nat)), s.live.waiting = (a, n) :: r → exchanging s = true →
    (n + 100001 ≤ now s → answers .activationExchangeTimeout s fun t =>
      t = { s with live := { s.live with waiting := r, answers := s.live.answers ++ [(sQTIMEOUT, 0)] } }) ∧
    (now s < n + 100001 → answers .activationExchangeTimeout s fun t => t = s)) ∧
  (∀ (s : State) (b : Bool),
    (s.live.last = none → answers (.handoffFallback b) s fun t => t = s) ∧
    ∀ h : Handoff, s.live.last = some h →
      (h.down = true ∨ now s < h.tick + 40000 → answers (.handoffFallback b) s fun t => t = s) ∧
      (h.down = false → h.tick + 40000 ≤ now s →
        (b = true → answers (.handoffFallback b) s fun t => t.sec.run = h.slot ∧ t.sec.meas3 = h.m3 ∧ t.sec.meas4 = h.m4 ∧
          t.live.fn = h.fn ∧ t.live.red = h.red ∧ t.live.roll = h.roll ∧ t.live.last = none ∧
          t.live.answers = s.live.answers ++ [(sINTERNAL, 0)] ∧ t.cores = s.cores ∧ t.errs.reports.length = s.errs.reports.length + 1) ∧
        (b = false → answers (.handoffFallback b) s fun t => t = { s with live := { s.live with last := some { h with down := true } } }))) ∧
  ∀ (s : State) (dg : Dg),
    (s.live.roll.head? ≠ some dg ∨ rollDeferred s dg = true ∨ gapOpen s = true → answers (.residentImageRoll dg) s fun t => t = s) ∧
    (s.live.roll.head? = some dg → rollDeferred s dg = false → gapOpen s = false →
      let w := (s.check.sweeps.filter fun w => psidDg w.psid == dg).foldl dropSweep s
      let seats := rollSeats w dg
      let freed := w.live.freed ++ seats.flatMap (serviceCtxs w)
      let u := seats.foldl freeSeat { w with live := { w.live with freed := freed, rolling := true } }
      let rest := ∀ l ∈ seats, quietCore (getCore u l) = true ∧ allFree (getCore u l) = true
      (¬ rest → answers (.residentImageRoll dg) s fun t => t = u) ∧
      (rest → answers (.residentImageRoll dg) s fun t =>
        t = let v := freed.foldl restartService (seats.foldl writeResident u)
          { v with live := { v.live with roll := v.live.roll.drop 1, freed := [], rolling := false } })) ∧
    (s.live.roll.head? = some dg → rollDeferred s dg = false → gapOpen s = false → s.live.freed = [] →
      (∀ w ∈ s.check.sweeps, psidDg w.psid ≠ dg) →
      (∀ l ∈ rollSeats s dg, quietCore (getCore s l) = true ∧ allFree (getCore s l) = true) →
      answers (.residentImageRoll dg) s fun t => t.live.roll = s.live.roll.drop 1 ∧ stateRest { t with live := s.live } = stateRest s ∧
        (∀ l ∈ rollSeats s dg, ∀ i, i < 0x40000 → (getCore s l).sp.bad = [] →
          rdByte (getCore t l).sp.mem i = Config.residentByte s.sec.meas4 i) ∧
        ∀ l, l ∉ rollSeats s dg → getCore t l = getCore s l)

/-- R444 to R449, R360, Tables 16.5 to 16.7: DORMANT, DORMANT_QUIET_TIMEOUT, DORMANT_TIMER_EXPIRY and WAKE_FROM_DORMANT complete. A request
in a state that Table 16.5 refuses records the refusal and leaves the device awake; any other frees what runs the resident
image and begins the entry, which waits for commands in flight and for quiet, and then sleeps with the stacks in self-refresh
and no request left at their controllers; an entry not quiet after 100 ms is refused with QTIMEOUT; the timer's expiry in Dormant wakes the device if it is enabled; a
wake returns every saved context, and the device is awake; one out of an entry undoes the steps taken, and no other. Asleep, the logic does nothing. -/
def Obligations.DormantState : Prop :=
  (∀ (s : State) (v : Word), s.dorm.st = .active → v.getLsbD 63 = true → v.getLsbD 33 = true →
    ∀ st, dormFault s = some st → answers (.dormant (.reg ⟨31, .full, v⟩)) s fun t =>
      t.dorm.st = .active ∧ t.dorm.refusal = st ∧ t.dorm.wakeEn = BitVec.ofNat 4 (fld v 32 4) ∧ t.dorm.timer.toNat = fld v 0 32 ∧
      (s.dorm.held = [] → t.cores = s.cores) ∧ t.dorm.entries = s.dorm.entries) ∧
  (∀ (s : State) (v : Word), s.dorm.st = .active → v.getLsbD 63 = true → v.getLsbD 33 = true → dormFault s = none →
    let u := { s with dorm := { s.dorm with wakeEn := BitVec.ofNat 4 (fld v 32 4), timer := BitVec.ofNat 32 (fld v 0 32) } }
    let b := freeResident u
    answers (.dormant (.reg ⟨31, .full, v⟩)) s fun t => t = dormStep { b with dorm := { b.dorm with
      st := .entering, reqTick := now b, held := [], slept := false } }) ∧
  (∀ s : State, s.dorm.st = .entering → dormFault s = none →
    ((∃ f, f < 17 ∧ (getFn s f).cmds ≠ []) → dormStep s = s) ∧
    ((∀ f, f < 17 → (getFn s f).cmds = []) → allQuiet (holdAllCores s) = true → let t := dormStep s
      t.dorm.st = .dormant ∧ t.dorm.slept = true ∧ t.dorm.portsIdle = true ∧ t.dorm.entries.toNat = min (s.dorm.entries.toNat + 1) 0xFFFF ∧
      ∀ k : BitVec 2, (getStack t k).selfRef = (getStack s k).trained ∧ tget [] t.landing k.toNat = [])) ∧
  (∀ (s : State) (m : Mgmt), accepted s m 0x0B (dormArgsBad m.args) → s.dorm.st = .active → ∀ st, dormFault s = some st →
    answers (.dormant (.cmd m)) s fun t => responded s t m st [] ∧ t.dorm.refusal = st ∧ t.dorm.st = .active) ∧
  (∀ (s : State) (v : Word), v.getLsbD 63 = true → v.getLsbD 33 = true → s.dorm.st ≠ .active →
    answers (.dormant (.reg ⟨31, .full, v⟩)) s fun t => t = reject s 0 2 31 0x118) ∧
  (∀ s : State, s.dorm.st = .entering → allQuiet s = false →
    (s.dorm.reqTick + 100001 ≤ now s → answers .dormantQuietTimeout s fun t => t.dorm.st = .active ∧ t.dorm.refusal = sQTIMEOUT ∧
      t.dorm.entries = s.dorm.entries) ∧
    (now s < s.dorm.reqTick + 100001 → answers .dormantQuietTimeout s fun t => t = s)) ∧
  (∀ (s : State) (n : Nat), s.dorm.st = .dormant → s.dorm.dueTick = some n →
    (now s < n → answers .dormantTimerExpiry s fun t => t = s) ∧
    (n ≤ now s → s.dorm.wakeEn.getLsbD 3 = true → answers .dormantTimerExpiry s fun t =>
      t.dorm.st = .waking ∧ t.pins.wake = true ∧ t.dorm.src = 4 ∧ t.cores = s.cores) ∧
    (n ≤ now s → s.dorm.wakeEn.getLsbD 3 = false → answers .dormantTimerExpiry s fun t => t.dorm.st = .dormant ∧ t.dorm.dueTick = none)) ∧
  (∀ (s : State) (us : Nat),
    (∀ ups, s.dorm.st ≠ .waking → answers (.wakeFromDormant us ups) s fun t => t = s) ∧
    (∀ ups, s.dorm.st = .waking → s.dorm.slept = false → answers (.wakeFromDormant us ups) s fun t => t.dorm.st = .active ∧
      t.pins.wake = false ∧ t.dorm.lastUs.toNat = min us 65535 ∧ t.dorm.held = [] ∧ t.dorm.entries = s.dorm.entries ∧ t.hbm = s.hbm ∧
      (∀ l, (∀ n ∈ s.dorm.held, BitVec.ofNat 12 n ≠ l) → getCore t l = getCore s l) ∧ ∀ l, l.toNat ∈ s.dorm.held → (getCore t l).ctrl.getLsbD 1 = false) ∧
    (∀ ups, s.dorm.st = .waking → s.dorm.slept = true → answers (.wakeFromDormant us ups) s fun t => t.dorm.st = .active ∧ t.dorm.saved = [] ∧ t.pins.wake = false ∧
      t.dorm.lastUs.toNat = min us 65535 ∧ ∀ k, (getStack t k).selfRef = false) ∧
    (s.dorm.st = .waking → s.dorm.slept = true → answers (.wakeFromDormant us []) s fun t => t.dorm.st = .active ∧ t.dorm.saved = [] ∧ t.pins.wake = false ∧
      t.dorm.lastUs.toNat = min us 65535 ∧ t.groves = s.groves ∧ (∀ k, (getStack t k).selfRef = false) ∧
      ∀ l, (getCore t l).sp = (getCore s l).sp ∧ (getCore t l).ctrl.getLsbD 1 = ((getCore s l).ctrl.getLsbD 1 && !occupied s l))) ∧
  ∀ (s : State) (l : Lcid), asleep s = true → (∀ ups, answers (.scrubStep l ups) s fun t => t = s) ∧
    ∀ d e, answers (.channelWordDeliver l ⟨d, e⟩) s fun t => t = s

/-! ### Checking (19_checking.md) -/

/-- R455, R497 to R506, R511, R512, R521: KAK_SWEEP, CHECK, CHECKING_HOLD_TIMEOUT and TWIN_MISMATCH complete. A scheduled sweep of an idle unit begins, and ends at the tick that is its span later: one that passes counts its unit's run and leaves
the sweep window zero; a unit that is not idle or under a sweep, PERIOD 0 and the gap of a handoff let none begin; a sweep that
the fault agent owes runs at once. A known-answer CHECK tests the units that are idle and then holds the busy positions one by
one, each until it is quiet, and answers with the counts of units tested, failed and acted on; a position not quiet after
100 ms ends it QTIMEOUT; a Sounding begins, or waits for another of its grove; either waits for a scheduled sweep of its target.
A CHECK of a unit that is gone answers BOUNDS, one that may not run PERM. A twin mismatch is counted, reported and holds the
position; the second of a pair without a cause in 1 h replaces the twin; without a twin there is none. -/
def Obligations.Checking : Prop :=
  (∀ (s : State) (p : BitVec 24) (runs : List KernelRun) (h : CheckHold),
    firstThat (fun (h : CheckHold) => h.psid == p && holdQuiet s h) s.check.hold = some h →
    answers (.kakSweep p runs) s fun t => t = endHeld s h runs) ∧
  (∀ (s : State) (p : BitVec 24) (runs : List KernelRun), (∀ h ∈ s.check.hold, h.psid ≠ p ∨ holdQuiet s h = false) →
    let owed := s.check.owed.contains (unitOf p)
    let mayRun := s.check.period ≠ 0 ∧ dormBusy s = false ∧ gapOpen s = false ∧ underSweep s (unitOf p) = false ∧ unitIdle s p = true
    (owed = true → answers (.kakSweep p runs) s fun t =>
      t = sweep { s with check := { s.check with owed := s.check.owed.filter (· != unitOf p) } } (unitOf p) runs) ∧
    (owed = false → ¬ mayRun → answers (.kakSweep p runs) s fun t => t = s) ∧
    (owed = false → mayRun → answers (.kakSweep p runs) s fun t => ∃ w : Sweep, t.check.sweeps = s.check.sweeps ++ [w] ∧
      w.psid = unitOf p ∧ w.tick = now s ∧ w.runs = inOrder (runs.filter fun r => unitOf r.psid == unitOf p) ∧
      (isSite (unitOf p) = true → w.seat = sweepSeat s (unitOf p)) ∧ (∀ l, w.held = some l → (getCore t l).recHold = true) ∧
      (w.held = none → t.cores = s.cores) ∧ t.check.runs = s.check.runs ∧ t.errs.reports = s.errs.reports)) ∧
  (∀ (s : State) (w : Sweep), s.check.sweeps = [w] → s.check.waits = [] → s.check.starts = [] →
    (now s < w.tick + sweepSpan s w → sweepStep s = s) ∧
    (w.tick + sweepSpan s w ≤ now s → isSite w.psid = true → w.psid = unitOf w.psid → w.held = none →
      (tget Site.zero (getGrove s (psidDg w.psid)).sites (psidSite w.psid)).blazed = false →
      (∀ r ∈ w.runs, kernFails s r = false ∧ r.accs = []) →
      let t := sweepStep s
      t.check.runs.toNat = min (s.check.runs.toNat + 1) 0xFFFF ∧ t.check.fails = s.check.fails ∧ t.check.sweeps = [] ∧
        t.errs.reports = s.errs.reports ∧
        ∀ l, w.seat = some l → (getCore s l).sp.bad = [] → ∀ i, 0x1F0000 ≤ i → i < 0x200000 → rdByte (getCore t l).sp.mem i = 0)) ∧
  (∀ (s : State) (m : Mgmt) (runs : List KernelRun) (segs : List SegmentRun), accepted s m 5 (checkBad m.args) →
    let w0 := m.args.getD 0 0
    let kind := fld w0 0 2
    let scope := fld w0 8 2
    let p : BitVec 24 := BitVec.ofNat 24 (fld (m.args.getD 1 0) 0 24)
    let u := opened s m 5
    let passes := ∀ r ∈ runs, kernFails s r = false ∧ r.accs = []
    (checkGone u scope p = true → answers (.mgmtCheck m runs segs) s fun t => responded s t m sBOUNDS [] ∧ t.cores = s.cores) ∧
    (checkGone u scope p = false → checkPerm u kind scope p = true → answers (.mgmtCheck m runs segs) s fun t =>
      responded s t m sPERM [] ∧ t.cores = s.cores) ∧
    (checkGone u scope p = false → checkPerm u kind scope p = false → checkSwept u scope p = true →
      answers (.mgmtCheck m runs segs) s fun t =>
        t = { u with check := { u.check with waits := u.check.waits ++ [⟨m.step, m.args, runs, segs⟩] } }) ∧
    (checkGone u scope p = false → checkPerm u kind scope p = false → checkSwept u scope p = false → kind = 1 →
      let x : Sound := ⟨scope, p, m.step, now s, [], true, [], []⟩
      let y : Sound := { x with segs := segs.filter fun r => soundsOver x r.psid }
      (soundWaits u y = true → answers (.mgmtCheck m runs segs) s fun t =>
        t = { u with check := { u.check with sounding := u.check.sounding ++ [{ y with runs := false }] } }) ∧
      (soundWaits u y = false → answers (.mgmtCheck m runs segs) s fun t => t = beginSound u y)) ∧
    (checkGone u scope p = false → checkPerm u kind scope p = false → checkSwept u scope p = false → kind = 0 →
      (answers (.mgmtCheck m runs segs) s fun t =>
        let q := testUnits u (freeUnits u scope p) runs
        t = heldRun runs (checkSeats u scope p) ⟨[], p, m.step, now s, q.2⟩ q.1) ∧
      (checkSeats u scope p = [] → passes → answers (.mgmtCheck m runs segs) s fun t =>
        responded s t m sOK [BitVec.ofNat 64 ((freeUnits u scope p).length % 65536 * 2 ^ 32)] ∧ t.cores = s.cores) ∧
      (∀ l r, checkSeats u scope p = l :: r → passes → quietCore (recoveryHold (getCore s l)) = false →
        answers (.mgmtCheck m runs segs) s fun t => (getCore t l).recHold = true ∧ (∀ l', l' ≠ l → getCore t l' = getCore s l') ∧
          t.errs.answers = s.errs.answers ∧ ∃ h : CheckHold, t.check.hold = s.check.hold ++ [h] ∧ h.lcids = l :: r ∧ h.step = m.step ∧
            h.tick = now s ∧ h.psid = p))) ∧
  (∀ (s : State) (l : Lcid) (h : CheckHold),
    firstThat (fun (h : CheckHold) => h.lcids.head? == some l && !holdQuiet s h && decide (h.tick + 100001 ≤ now s)) s.check.hold = some h →
    answers (.checkingHoldTimeout l) s fun t => t = finishToken (releaseHold s h) h.step sQTIMEOUT [tallyWord h.tally]) ∧
  (∀ (s : State) (l : Lcid) (h : CheckHold), s.check.hold = [h] → h.lcids.head? = some l → holdQuiet s h = false →
    (now s < h.tick + 100001 → answers (.checkingHoldTimeout l) s fun t => t = s) ∧
    (h.tick + 100001 ≤ now s → answers (.checkingHoldTimeout l) s fun t => t.check.hold = [] ∧
      ∀ k, tokenOf s h.step = some k → t.errs.answers = s.errs.answers ++ [⟨h.step, sQTIMEOUT, 0, [tallyWord h.tally], k.digest⟩])) ∧
  ∀ (s : State) (l : Lcid) (runs : List KernelRun), asleep s = false →
    (twinSite s l = none → answers (.twinMismatch l runs) s fun t => t = s) ∧
    ∀ n, twinSite s l = some n → occupied s l = true →
      let pair := (psidOf (dgOf l) (siteNo s l) 7 0xFF, psidOf (dgOf l) n 7 0xFF)
      (answers (.twinMismatch l runs) s fun t => t.check.twins.toNat = min (s.check.twins.toNat + 1) 0xFFFF) ∧
      (runs = [] → (∃ q ∈ s.check.odd, q.1 = pair ∧ now s < q.2 + hour) →
        answers (.twinMismatch l runs) s fun t => ∃ u, t = blazeUnit u pair.2 ∧
          getCore u l = recoveryHold (getCore s l) ∧ ∀ q ∈ u.check.odd, q.1 ≠ pair) ∧
      (runs = [] → (∀ q ∈ s.check.odd, q.1 ≠ pair ∨ q.2 + hour ≤ now s) → answers (.twinMismatch l runs) s fun t =>
        (pair, now s) ∈ t.check.odd ∧
        ∃ u, t = replaySame u l ∧ getCore u l = recoveryHold (getCore s l) ∧ u.errs.reports.length = s.errs.reports.length + 1)

/-! ### The fault-manager commands (17_faults.md) -/

/-- R466 to R470: a fault-manager command answers once the interfaces do: RSVD for a reserved value or no token, PERM outside a
secured session; a token that stands in the table with the same command repeats its response with STATE 2, or STATE 1 while
it runs, and with another command answers PERM; a command of no token that carries one answers RSVD; an undefined code
UNDEF. So UNDEFINED_COMMAND and the other fault-manager commands complete with their answer. -/
def Obligations.ManagementTokens : Prop :=
  ∀ (s : State) (m : Mgmt),
    let T := fun (i : Instr) (opc : Nat) (bad : Bool) =>
      (lookoutUp s = false ∨ mgmtOpc m ≠ opc → answers i s fun t => t = s) ∧
      (lookoutUp s = true → mgmtOpc m = opc →
        (mgmtRsvd m = true ∨ m.step = 0 ∨ bad = true → answers i s fun t => responded s t m sRSVD [] ∧ { t with errs := s.errs } = s) ∧
        (mgmtRsvd m = false → m.step ≠ 0 → bad = false → hasSession s m.sess = false → answers i s fun t =>
          responded s t m sPERM [] ∧ { t with errs := s.errs } = s) ∧
        (mgmtRsvd m = false → m.step ≠ 0 → bad = false → hasSession s m.sess = true →
          ∀ k, firstThat (fun (t : Token) => t.step == m.step) (freshTokens s) = some k → k.left = false →
            (k.opc ≠ BitVec.ofNat 8 opc ∨ k.digest ≠ mgmtDigest m → answers i s fun t => responded s t m sPERM [] ∧ { t with errs := s.errs } = s) ∧
            (k.opc = BitVec.ofNat 8 opc → k.digest = mgmtDigest m →
              (k.done = none → answers i s fun t => t.errs.answers = s.errs.answers ++ [⟨m.step, sOK, 1, [], mgmtDigest m⟩] ∧ { t with errs := s.errs } = s) ∧
              ∀ r, k.done = some r → answers i s fun t =>
                t.errs.answers = s.errs.answers ++ [⟨m.step, r.status, 2, r.words, mgmtDigest m⟩] ∧ { t with errs := s.errs } = s)))
    (∀ x, T (.mgmtAssign m x) 1 (assignBad m.args)) ∧
    (∀ runs segs, T (.mgmtCheck m runs segs) 5 (checkBad m.args)) ∧ (∀ x, T (.mgmtReset m x) 6 (resetBad m.args)) ∧
    T (.mgmtSwap m) 9 (m.args.length != 1 || above (m.args.getD 0 0) 1) ∧
    T (.mgmtRelease m) 0x0A (!m.args.isEmpty) ∧ T (.dormant (.cmd m)) 0x0B (dormArgsBad m.args) ∧ T (.mgmtWake m) 0x0C (!m.args.isEmpty) ∧
    (let R := fun (i : Instr) (opc : Nat) (bad : Bool) =>
      (lookoutUp s = false ∨ mgmtOpc m ≠ opc → answers i s fun t => t = s) ∧
      (lookoutUp s = true → mgmtOpc m = opc → mgmtRsvd m = true ∨ m.step ≠ 0 ∨ bad = true → answers i s fun t =>
        responded s t m sRSVD [] ∧ { t with errs := s.errs } = s)
     R (.mgmtStatus m) 0x10 (!m.args.isEmpty) ∧ R (.mgmtReadLog m) 0x11 (m.args.length != 3 || above (m.args.getD 0 0) 2 ||
       above (m.args.getD 1 0) 32 || decide (64 < (m.args.getD 2 0).toNat))) ∧
    ∀ o : BitVec 8, lookoutUp s = true → mgmtOpc m = o.toNat → o = 0 ∨ 13 ≤ o.toNat → o ≠ 0x10 → o ≠ 0x11 →
      answers (.mgmtUndefined o m) s fun t => responded s t m sUNDEF [] ∧ { t with errs := s.errs } = s

/-- Table 17.8, R337, R343, R439, R452, R468, R471, R495, R524: what the fault-manager commands do once accepted: ASSIGN after READY
gives the device its DID or takes it; ACK moves HEAD on while the Lookout consumes; RETIRE_PORT, RT_WRITE, HOLD and RELEASE act at once; BLAZE
of a unit blazes it, and waits while its grove is under recovery or a Sounding, as does RESET of a context, a core, a grove or a
Stand, which clears it; RESET of the device answers and restarts it warm; SWAP changes the
active bank once nothing drains. So STATUS and READ_LOG complete: STATUS answers with the state and the Cruise report, and
READ_LOG, for any combiner, first SEQ and count up to 64, with the eight words of each entry asked for that the log or its ring
still holds. -/
def Obligations.ManagementCommands : Prop :=
  ∀ (s : State) (m : Mgmt),
    let w := fun i => m.args.getD i 0
    let Ok := fun (i : Instr) (P : State → Prop) => answers i s fun t => responded s t m sOK [] ∧ P t
    let No := fun (i : Instr) (st : Status) => answers i s fun t => responded s t m st [] ∧ { t with errs := s.errs } = s
    (∀ x, accepted s m 1 (assignBad m.args) → s.cruise.ready = true → s.cruise.running = false →
      Ok (.mgmtAssign m x) fun t => t.errs.assign = assignOf m.args ∧
        t.did.toNat = match assignOf m.args with | some a => 2 ^ 63 + a.did.toNat | none => 0) ∧
    (accepted s m 2 (m.args.length != 2 || above (w 0) 2 || above (w 1) 32) →
      let c := getComb s (w 0).toNat
      let n := headStep c (w 1).toNat
      (s.errs.cfg.getLsbD 32 = true → No (.mgmtAck m) sPERM) ∧
      (s.errs.cfg.getLsbD 32 = false →
        (n ≤ c.tail - c.head → Ok (.mgmtAck m) fun t => (getComb t (w 0).toNat).head = c.head + n ∧ t.cores = s.cores) ∧
        (c.tail - c.head < n → n < 2 ^ 31 → No (.mgmtAck m) sBOUNDS) ∧ (c.tail - c.head < n → 2 ^ 31 ≤ n → No (.mgmtAck m) sOK))) ∧
    (accepted s m 4 (m.args.length != 1 || above (w 0) 4) →
      ((getPort s (w 0).toNat).st = 0 → No (.mgmtRetirePort m) sBOUNDS) ∧
      ((getPort s (w 0).toNat).st ≠ 0 → Ok (.mgmtRetirePort m) fun t => (getPort t (w 0).toNat).st = 4)) ∧
    (accepted s m 7 (above (w 0) 2 || (m.args.drop 1).isEmpty || decide (64 < (m.args.drop 1).length) || (m.args.drop 1).any (rtWordBad (bit (w 0) 1))) →
      ((w 0).getLsbD 0 = s.gf.active → No (.mgmtRtWrite m) sPERM) ∧
      ((w 0).getLsbD 0 ≠ s.gf.active → (m.args.drop 1).any (rtWordFused s (bit (w 0) 1)) = true → No (.mgmtRtWrite m) sBOUNDS) ∧
      ((w 0).getLsbD 0 ≠ s.gf.active → (m.args.drop 1).any (rtWordFused s (bit (w 0) 1)) = false → Ok (.mgmtRtWrite m) fun t =>
        t.cores = s.cores ∧ t.gf = (m.args.drop 1).foldl (rtPut (bit (w 0) 1) (fld (w 0) 0 1)) s.gf)) ∧
    (accepted s m 8 (decide (4 < m.args.length) || m.args.any holdBad) →
      Ok (.mgmtHold m) fun t => t.cores = s.cores ∧ (∀ i, i < 4 → tget 0 t.gf.holds i = w i) ∧ t.gf.active = s.gf.active) ∧
    (accepted s m 0x0A (!m.args.isEmpty) → Ok (.mgmtRelease m) fun t => t.cores = s.cores ∧ t.gf = { s.gf with holds := [] }) ∧
    (accepted s m 0x0C (!m.args.isEmpty) → (Ok (.mgmtWake m) fun t => t.cores = s.cores ∧ t.gf = s.gf ∧
        t.dorm.st = if s.dorm.wakeEn.getLsbD 1 && (s.dorm.st == .dormant || s.dorm.st == .entering) then .waking else s.dorm.st)) ∧
    (accepted s m 9 (m.args.length != 1 || above (w 0) 1) →
      ((w 0).getLsbD 0 = s.gf.active → No (.mgmtSwap m) sOK) ∧
      ((w 0).getLsbD 0 ≠ s.gf.active → drainCount s = 0 → Ok (.mgmtSwap m) fun t => t.gf.active = (w 0).getLsbD 0) ∧
      ((w 0).getLsbD 0 ≠ s.gf.active → drainCount s ≠ 0 → answers (.mgmtSwap m) s fun t => t = opened s m 9)) ∧
    (let p : BitVec 24 := BitVec.ofNat 24 (fld (w 1) 0 24)
     accepted s m 3 (m.args.length != 2 || w 0 != 0 || above (w 1) 24 || !canBlaze p || p != unitOf p) →
      (blazeGone s p = true → No (.mgmtBlaze m) sBOUNDS) ∧
      (blazeGone s p = false → groveBusy s (psidDg p) = true ∨ groveServed s (psidDg p) = true → answers (.mgmtBlaze m) s fun t => t = opened s m 3) ∧
      (blazeGone s p = false → groveBusy s (psidDg p) = false → groveServed s (psidDg p) = false → answers (.mgmtBlaze m) s fun t =>
        t = finishToken (blazeUnit (opened s m 3) p) m.step sOK []) ∧
      (blazeGone s p = false → groveBusy s (psidDg p) = false → groveServed s (psidDg p) = false → isSite p = true → Ok (.mgmtBlaze m) fun t =>
        (tget Site.zero (getGrove t (psidDg p)).sites (psidSite p)).blazed = true)) ∧
    (accepted s m 6 (resetBad m.args) → w 0 = 1 →
      let l : Lcid := BitVec.ofNat 12 (fld (w 1) 0 12)
      (∀ x, standsAt s l = false → No (.mgmtReset m x) sVACANT) ∧
      (∀ x, standsAt s l = true → resetLocked s 1 (w 1) = true → No (.mgmtReset m x) sPERM) ∧
      (∀ x, standsAt s l = true → resetLocked s 1 (w 1) = false → groveBusy s (dgOf l) = true → answers (.mgmtReset m x) s fun t =>
        t = opened s m 6) ∧
      (∀ x, standsAt s l = true → resetLocked s 1 (w 1) = false → groveBusy s (dgOf l) = false → Ok (.mgmtReset m x) fun t =>
        (getCore t l).ctxs = [] ∧ (getCore t l).ctrl = 0 ∧ (getCore t l).role = 0 ∧ (getCore t l).un.queues = [])) ∧
    (∀ x, accepted s m 6 (resetBad m.args) → resetGone s (fld (w 0) 0 3) (w 1) = false → resetLocked s (fld (w 0) 0 3) (w 1) = false →
      let o := opened s m 6
      let l : Lcid := BitVec.ofNat 12 (fld (w 1) 9 12)
      let c : CtxNo := BitVec.ofNat 9 (fld (w 1) 0 9)
      let dg : Dg := BitVec.ofNat 8 (fld (w 1) 0 8)
      (w 0 = 0 → groveBusy s (dgOf l) = false →
        ((ctxOf s l c).st = .free → Ok (.mgmtReset m x) fun t => t.cores = s.cores) ∧
        ((ctxOf s l c).st ≠ .free → answers (.mgmtReset m x) s fun t => let v := beginToken (freeCtx o l c) m.step
          t = if (ctxOf v l c).freeing then v else finishToken v m.step sOK [])) ∧
      (w 0 = 2 → groveBusy s dg = false → answers (.mgmtReset m x) s fun t => t = finishToken (resetGrove o dg) m.step sOK []) ∧
      (w 0 = 3 → (∀ d ∈ groves (fld (w 1) 0 2), groveBusy s d = false) → answers (.mgmtReset m x) s fun t =>
        t = finishToken (resetStand o (fld (w 1) 0 2)) m.step sOK []) ∧
      (w 0 = 4 → answers (.mgmtReset m x) s fun t => t = cruise (warmReset (finishToken o m.step sOK [])) false x)) ∧
    (lookoutUp s = true → mgmtRsvd m = false → m.step = 0 →
      (mgmtOpc m = 0x10 → m.args = [] → answers (.mgmtStatus m) s fun t =>
        responded s t m sOK ([devCruise s, devTopo s] ++ (below 4).map (errStatus s) ++ s.cruise.report) ∧ { t with errs := s.errs } = s) ∧
      (mgmtOpc m = 0x11 → m.args.length = 3 → above (w 0) 2 = false → above (w 1) 32 = false → (w 2).toNat ≤ 64 →
        answers (.mgmtReadLog m) s fun t => { t with errs := s.errs } = s ∧
          let c := getComb s (w 0).toNat
          responded s t m sOK (((below (w 2).toNat).filterMap fun i =>
            firstThat (fun (e : LogEnt) => c.head ≤ e.seq && e.seq % 2 ^ 32 == ((w 1).toNat + i) % 2 ^ 32) (c.spill ++ c.die)).flatMap
              (entryWords64 s))))

/-! ### The state as a whole -/

/-- R563, R174, R184, R415, R423, R459 and the register tables: what the spec gives the state at a cold reset: no context runs, every
register and memory byte that has a reset value holds it, no port is up, no range is valid, READY and the device's DID are 0. The
state after reset satisfies the invariant `Inv` that every step keeps. -/
def Obligations.ResetState : Prop :=
  let s := State.reset
  s.cruise.ready = false ∧ s.did = 0 ∧ s.gf.active = false ∧ s.pace.ns = 0 ∧ s.host.link.up = false ∧ s.errs.reports = [] ∧
  s.snagCfg = 0x14 ∧ s.reds = [] ∧ s.dorm.st = .active ∧ s.pending = [] ∧
  (∀ l c, (ctxOf s l c).st = .free ∧ (ctxOf s l c).p = 1) ∧
  (∀ l a, rdByte (getCore s l).sp.mem a = 0 ∧ (getCore s l).sp.bad = []) ∧
  (∀ l, (getCore s l).ctrl = 0 ∧ (getCore s l).role = 0) ∧
  (∀ dg, pgroveWord s dg = 0x10) ∧ (∀ n, rangeWord s n = 0) ∧ (∀ b, wrejWord s b = 0) ∧
  (∀ f, (getFn s f).en = false ∧ (getFn s f).rdy = false ∧ (getFn s f).pairs = []) ∧
  Inv s

/-- A step takes one command off the queue and adds none, never changes what the part is, and keeps the invariant `Inv`: SNAG_CFG's
quiet interval stays in its range, the reserved bits of SNAG_CFG, of every PART_GROVEk and of DEV_DID read 0 (R557), and the
commands that wait are well formed; whatever the command and whatever the state. -/
def Obligations.StepKeepsInvariant : Prop :=
  ∀ s t : State, step s = .next t → t.part = s.part ∧ t.pending = s.pending.drop 1 ∧ (Inv s → Inv t)
end

