-- ==== Sys2Proof/Laws/Tbl.lean ====
section
/-! SUPPORT. Laws of the sparse tables and of memory: reading after writing, and the canonical form that every write keeps. -/

namespace Sys2Proof.Machine

/-- Reading the key just written. -/
@[simp] theorem tget_tput_same {α : Type} [DecidableEq α] (d : α) (t : Tbl α) (k : Nat) (v : α) :
    tget d (tput d t k v) k = v := by
  induction t with
  | nil => unfold tput; split <;> simp_all [tget]
  | cons p r ih =>
    obtain ⟨j, w⟩ := p
    unfold tput
    split
    · split
      · exact ih
      · rename_i h
        simp only [tget, if_neg fun e => h (Eq.symm e)]
        exact ih
    · split
      · simp [tget]
      · split
        · simp [tget]
        · rename_i h
          simp only [tget, if_neg fun e => h (Eq.symm e)]
          exact ih

/-- Reading another key. -/
@[simp] theorem tget_tput_other {α : Type} [DecidableEq α] (d : α) (t : Tbl α) (k k' : Nat) (v : α) (hne : k' ≠ k) :
    tget d (tput d t k v) k' = tget d t k' := by
  induction t with
  | nil => unfold tput; split <;> simp [tget, Ne.symm hne]
  | cons p r ih =>
    obtain ⟨j, w⟩ := p
    unfold tput
    split
    · split
      · rename_i h
        simp only [tget, ih]
        rw [if_neg (by omega)]
      · simp only [tget, ih]
    · split
      · simp [tget, Ne.symm hne]
      · split
        · rename_i h
          simp only [tget, if_neg (Ne.symm hne), if_neg fun e : j = k' => hne (by omega)]
        · simp only [tget, ih]

/-- Reading a table of which every entry is changed by a map that keeps the default. -/
theorem tget_tmap {α : Type} [DecidableEq α] (d : α) (f : α → α) (h : f d = d) (t : Tbl α) (k : Nat) :
    tget d (tmap d f t) k = f (tget d t k) := by
  induction t with
  | nil => simp [tmap, tget, h]
  | cons p r ih =>
    obtain ⟨j, v⟩ := p
    by_cases e : j = k
    · subst e; simp [tmap, tget]
    · simp [tmap, tget, e, tget_tput_other d _ j k _ (Ne.symm e), ih]

/-- The entries of a table after a write. -/
theorem tput_entries {α : Type} [DecidableEq α] (d : α) (t : Tbl α) (k : Nat) (v : α) (p : Nat × α)
    (hp : p ∈ tput d t k v) : p = (k, v) ∧ v ≠ d ∨ p ∈ t := by
  induction t with
  | nil =>
    unfold tput at hp
    split at hp <;> simp_all
  | cons q r ih =>
    unfold tput at hp
    split at hp
    · split at hp
      · exact (ih hp).imp_right fun h => by simp [h]
      · rcases List.mem_cons.1 hp with h | h
        · exact .inr (by simp [h])
        · exact (ih h).imp_right fun h => by simp [h]
    · rename_i hv
      split at hp
      · rcases List.mem_cons.1 hp with h | h
        · exact .inl ⟨h, hv⟩
        · exact .inr h
      · split at hp
        · rcases List.mem_cons.1 hp with h | h
          · exact .inl ⟨h, hv⟩
          · exact .inr (by simp [h])
        · rcases List.mem_cons.1 hp with h | h
          · exact .inr (by simp [h])
          · exact (ih h).imp_right fun h => by simp [h]

/-- A write keeps the keys rising. -/
theorem tput_rising {α : Type} [DecidableEq α] (d : α) (t : Tbl α) (k : Nat) (v : α)
    (h : (t.map Prod.fst).Pairwise (· < ·)) : ((tput d t k v).map Prod.fst).Pairwise (· < ·) := by
  induction t with
  | nil => unfold tput; split <;> simp
  | cons q r ih =>
    obtain ⟨j, w⟩ := q
    have hr : (∀ a ∈ r.map Prod.fst, j < a) ∧ (r.map Prod.fst).Pairwise (· < ·) := List.pairwise_cons.1 h
    unfold tput
    split
    · rename_i hv
      split
      · exact ih hr.2
      · refine List.pairwise_cons.2 ⟨fun a ha => ?_, ih hr.2⟩
        obtain ⟨p, hp, rfl⟩ := List.mem_map.1 ha
        rcases tput_entries d r k v p hp with ⟨-, hn⟩ | hp
        · exact absurd hv hn
        · exact hr.1 _ (List.mem_map_of_mem hp)
    · split
      · rename_i hk
        refine List.pairwise_cons.2 ⟨fun a ha => ?_, h⟩
        rcases List.mem_cons.1 ha with rfl | ha
        · exact hk
        · exact Nat.lt_trans hk (hr.1 a ha)
      · split
        · rename_i hk
          exact List.pairwise_cons.2 ⟨fun a ha => hk ▸ hr.1 a ha, hr.2⟩
        · rename_i hk1 hk2
          refine List.pairwise_cons.2 ⟨fun a ha => ?_, ih hr.2⟩
          obtain ⟨p, hp, rfl⟩ := List.mem_map.1 ha
          rcases tput_entries d r k v p hp with ⟨rfl, -⟩ | hp
          · show j < k
            omega
          · exact hr.1 _ (List.mem_map_of_mem hp)

/-- A write keeps the canonical form. -/
theorem tput_wf {α : Type} [DecidableEq α] (d : α) (t : Tbl α) (k : Nat) (v : α) (h : TblWf d t) :
    TblWf d (tput d t k v) := by
  refine ⟨tput_rising d t k v h.1, fun p hp => ?_⟩
  rcases tput_entries d t k v p hp with ⟨rfl, hv⟩ | hp
  · exact hv
  · exact h.2 p hp

/-- A byte written keeps memory canonical. -/
theorem wrByte_wf (m : Memory) (a : Nat) (v : Byte) (h : m.wf) : Memory.wf (wrByte m a v) := tput_wf 0 m a v h

/-- Bytes written keep memory canonical. -/
theorem wrBytes_wf (m : Memory) (a : Nat) (bs : List Byte) (h : m.wf) : Memory.wf (wrBytes m a bs) := by
  induction bs generalizing m a with
  | nil => exact h
  | cons b r ih => exact ih _ _ (wrByte_wf m a b h)

/-- A number written keeps memory canonical. -/
theorem wrNum_wf (m : Memory) (a n v : Nat) (h : m.wf) : Memory.wf (wrNum m a n v) := wrBytes_wf m a _ h

/-- Reading a byte outside those written. -/
theorem rdByte_wrBytes_out (m : Memory) (a : Nat) (bs : List Byte) (k : Nat) (hk : k < a ∨ a + bs.length ≤ k) :
    rdByte (wrBytes m a bs) k = rdByte m k := by
  induction bs generalizing m a with
  | nil => rfl
  | cons b r ih =>
    simp only [List.length_cons] at hk
    show rdByte (wrBytes (wrByte m a b) (a + 1) r) k = _
    rw [ih _ _ (by omega)]
    exact tget_tput_other 0 m a k b (by omega)

/-- Reading a byte written. -/
theorem rdByte_wrBytes_in (m : Memory) (a : Nat) (bs : List Byte) (i : Nat) (hi : i < bs.length) :
    rdByte (wrBytes m a bs) (a + i) = bs[i] := by
  induction bs generalizing m a i with
  | nil => simp at hi
  | cons b r ih =>
    show rdByte (wrBytes (wrByte m a b) (a + 1) r) (a + i) = _
    cases i with
    | zero =>
      rw [rdByte_wrBytes_out _ _ _ _ (by omega)]
      exact tget_tput_same 0 m a b
    | succ i =>
      have := ih (wrByte m a b) (a + 1) i (by simpa using hi)
      rw [show a + (i + 1) = a + 1 + i by omega, this]
      rfl

end Sys2Proof.Machine
end

