-- ==== Sys2Proof/Laws/Cores.lean ====
section
/-! SUPPORT. Laws of the accessors of cores, contexts and groves, and of what every instruction goes through: its issue and
its completion. -/

namespace Sys2Proof.Machine

theorem toNat_ne {w : Nat} {a b : BitVec w} (h : a ≠ b) : a.toNat ≠ b.toNat := fun e => h (BitVec.eq_of_toNat_eq e)

/-! ### Reading after replacing -/

@[simp] theorem getCore_setCore (s : State) (l : Lcid) (k : Core) : getCore (setCore s l k) l = k := by
  simp [getCore, setCore]

theorem getCore_setCore_other (s : State) (l l' : Lcid) (k : Core) (h : l' ≠ l) :
    getCore (setCore s l k) l' = getCore s l' := by
  simp [getCore, setCore, toNat_ne h]

@[simp] theorem getCore_modCore (s : State) (l : Lcid) (f : Core → Core) : getCore (modCore s l f) l = f (getCore s l) := by
  simp [modCore]

theorem getCore_modCore_other (s : State) (l l' : Lcid) (f : Core → Core) (h : l' ≠ l) :
    getCore (modCore s l f) l' = getCore s l' := getCore_setCore_other s l l' _ h

@[simp] theorem getCtx_setCtx (k : Core) (c : CtxNo) (x : Ctx) : getCtx (setCtx k c x) c = x := by simp [getCtx, setCtx]

theorem getCtx_setCtx_other (k : Core) (c c' : CtxNo) (x : Ctx) (h : c' ≠ c) : getCtx (setCtx k c x) c' = getCtx k c' := by
  simp [getCtx, setCtx, toNat_ne h]

@[simp] theorem getCtx_modCtx (k : Core) (c : CtxNo) (f : Ctx → Ctx) : getCtx (modCtx k c f) c = f (getCtx k c) := by
  simp [modCtx]

theorem getCtx_modCtx_other (k : Core) (c c' : CtxNo) (f : Ctx → Ctx) (h : c' ≠ c) :
    getCtx (modCtx k c f) c' = getCtx k c' := getCtx_setCtx_other k c c' _ h

@[simp] theorem getCore_modCtxOf (s : State) (l : Lcid) (c : CtxNo) (f : Ctx → Ctx) :
    getCore (modCtxOf s l c f) l = modCtx (getCore s l) c f := by simp [modCtxOf]

@[simp] theorem ctxOf_modCtxOf (s : State) (l : Lcid) (c : CtxNo) (f : Ctx → Ctx) :
    ctxOf (modCtxOf s l c f) l c = f (ctxOf s l c) := by simp [ctxOf]

theorem ctxOf_modCtxOf_other (s : State) (l : Lcid) (c c' : CtxNo) (f : Ctx → Ctx) (h : c' ≠ c) :
    ctxOf (modCtxOf s l c f) l c' = ctxOf s l c' := by simp [ctxOf, getCtx_modCtx_other _ _ _ _ h]

@[simp] theorem getGrove_setGrove (s : State) (dg : Dg) (g : Grove) : getGrove (setGrove s dg g) dg = g := by
  simp [getGrove, setGrove]

theorem getGrove_setGrove_other (s : State) (dg dg' : Dg) (g : Grove) (h : dg' ≠ dg) :
    getGrove (setGrove s dg g) dg' = getGrove s dg' := by simp [getGrove, setGrove, toNat_ne h]

@[simp] theorem getGrove_modGrove (s : State) (dg : Dg) (f : Grove → Grove) :
    getGrove (modGrove s dg f) dg = f (getGrove s dg) := by simp [modGrove]

theorem getGrove_modGrove_other (s : State) (dg dg' : Dg) (f : Grove → Grove) (h : dg' ≠ dg) :
    getGrove (modGrove s dg f) dg' = getGrove s dg' := getGrove_setGrove_other s dg dg' _ h

@[simp] theorem getQ_setQ (k : Core) (q : Nat) (v : Queue) : getQ (setQ k q v) q = v := by simp [getQ, setQ]

theorem getQ_setQ_other (k : Core) (q q' : Nat) (v : Queue) (h : q' ≠ q) : getQ (setQ k q v) q' = getQ k q' := by
  simp [getQ, setQ, h]

@[simp] theorem getLink_setLink (k : Core) (inb : Bool) (d : Nat) (e : LinkEnd) : getLink (setLink k inb d e) inb d = e := by
  cases inb <;> simp [getLink, setLink]

/-! ### What the parts of a core leave alone -/

@[simp] theorem getCtx_modSp (k : Core) (f : Slice → Slice) (c : CtxNo) : getCtx (modSp k f) c = getCtx k c := rfl
@[simp] theorem getCtx_modEng (k : Core) (f : Engines → Engines) (c : CtxNo) : getCtx (modEng k f) c = getCtx k c := rfl
@[simp] theorem getCtx_modUn (k : Core) (f : Units → Units) (c : CtxNo) : getCtx (modUn k f) c = getCtx k c := rfl
@[simp] theorem getCtx_setQ (k : Core) (q : Nat) (v : Queue) (c : CtxNo) : getCtx (setQ k q v) c = getCtx k c := rfl
@[simp] theorem modSp_sp (k : Core) (f : Slice → Slice) : (modSp k f).sp = f k.sp := rfl
@[simp] theorem modEng_eng (k : Core) (f : Engines → Engines) : (modEng k f).eng = f k.eng := rfl
@[simp] theorem modUn_un (k : Core) (f : Units → Units) : (modUn k f).un = f k.un := rfl
@[simp] theorem modCtx_sp (k : Core) (c : CtxNo) (f : Ctx → Ctx) : (modCtx k c f).sp = k.sp := rfl
@[simp] theorem modCtx_eng (k : Core) (c : CtxNo) (f : Ctx → Ctx) : (modCtx k c f).eng = k.eng := rfl
@[simp] theorem modCtx_un (k : Core) (c : CtxNo) (f : Ctx → Ctx) : (modCtx k c f).un = k.un := rfl
@[simp] theorem coreRest_modCtx (k : Core) (c : CtxNo) (f : Ctx → Ctx) : coreRest (modCtx k c f) = coreRest k := rfl
@[simp] theorem stateRest_setCore (s : State) (l : Lcid) (k : Core) : stateRest (setCore s l k) = stateRest s := rfl
@[simp] theorem stateRest_modCore (s : State) (l : Lcid) (f : Core → Core) : stateRest (modCore s l f) = stateRest s := rfl
@[simp] theorem stateRest_modCtxOf (s : State) (l : Lcid) (c : CtxNo) (f : Ctx → Ctx) :
    stateRest (modCtxOf s l c f) = stateRest s := rfl

/-! ### The hard-wired registers (R189) -/

@[simp] theorem readG_zero (x : Ctx) : readG x 0 = 0 := by simp [readG]
@[simp] theorem readP_zero (x : Ctx) : readP x 0 = true := by simp [readP]

theorem writeG_zero (x : Ctx) (v : Word) : writeG x 0 v = x := by simp [writeG]

theorem readG_writeG (x : Ctx) (i : Nat) (v : Word) (h : i % 16 ≠ 0) : readG (writeG x i v) i = v := by
  simp [readG, writeG, h]

theorem readG_writeG_other (x : Ctx) (i j : Nat) (v : Word) (h : j % 16 ≠ i % 16) :
    readG (writeG x i v) j = readG x j := by
  unfold readG writeG
  by_cases hi : i % 16 = 0
  · simp [hi]
  · by_cases hj : j % 16 = 0 <;> simp [hi, hj, h]

@[simp] theorem readG_slot (x : Ctx) (i : Nat) (n : Option Nat) : readG { x with slot := n } i = readG x i := rfl
@[simp] theorem readP_slot (x : Ctx) (i : Nat) (n : Option Nat) : readP { x with slot := n } i = readP x i := rfl

theorem writeG_slot (x : Ctx) (i : Nat) (v : Word) (n : Option Nat) :
    writeG { x with slot := n } i v = { writeG x i v with slot := n } := by unfold writeG; split <;> rfl

theorem writeP_slot (x : Ctx) (i : Nat) (v : Bool) (n : Option Nat) :
    writeP { x with slot := n } i v = { writeP x i v with slot := n } := by unfold writeP; split <;> rfl

/-! ### Issue (R190) -/

/-- An instruction that issues does what its body does to the state in which its slot is fetched. -/
theorem issue_body (s : State) (l : Lcid) (c : CtxNo) (op : Nat) (b : BitVec 54) (unit : Nat) (enc : Bool)
    (room : Core → Bool) (body : State → State) (h : issues s l c b enc room) :
    issue s l c op b unit enc room body = body (fetched s l c) := by
  obtain ⟨h1, h2, h3, h4, h5⟩ := h
  simp [issue, h1, h2, h3, h4, h5]

/-- Everything that the issue of an instruction can do. -/
theorem issue_cases (s : State) (l : Lcid) (c : CtxNo) (op : Nat) (b : BitVec 54) (unit : Nat) (enc : Bool)
    (room : Core → Bool) (body : State → State) :
    issue s l c op b unit enc room body = s ∨
    issue s l c op b unit enc room body = precise s l c sPOISON 0 (wd (ctxOf s l c).pc.toNat) ∨
    (enc = false ∧ issue s l c op b unit enc room body = precise (fetched s l c) l c sRSVD unit (insWord op b)) ∨
    (enc = true ∧ guardHolds (ctxOf s l c) b = false ∧
      issue s l c op b unit enc room body = advance (fetched s l c) l c) ∨
    (issues s l c b enc room ∧ issue s l c op b unit enc room body = body (fetched s l c)) := by
  unfold issue issues
  by_cases h1 : mayIssue s l c = true
  · by_cases h2 : fetchPoisoned s l c = true
    · simp [h1, h2]
    · cases enc
      · simp [h1, h2]
      · by_cases h4 : guardHolds (ctxOf s l c) b = true
        · by_cases h5 : room (getCore s l) = true
          · right; right; right; right
            simp [h1, h2, h4, h5]
          · left; simp [h1, h2, h4, h5]
        · simp [h1, h2, h4]
  · simp [h1]

/-- A completing instruction that changes only its context. -/
theorem finish_fetched (s : State) (l : Lcid) (c : CtxNo) (f : Ctx → Ctx) :
    onlyCtx s (finish (fetched s l c) l c f) l c
      { f { ctxOf s l c with slot := some ((ctxOf s l c).pc.toNat / 128) } with
        pc := (ctxOf s l c).pc + 8, deadline := none } := by
  refine ⟨by simp [finish, fetched], fun c' h => ?_, by simp [finish, fetched], fun l' h => ?_, by simp [finish, fetched]⟩
  · simp [finish, fetched, ctxOf_modCtxOf_other _ _ _ _ _ h]
  · simp [finish, fetched, modCtxOf, getCore_modCore_other _ _ _ _ h]

/-- A completing instruction whose effect on its context does not touch the fetched slot. -/
theorem finish_completed (s : State) (l : Lcid) (c : CtxNo) (f : Ctx → Ctx)
    (hf : ∀ (x : Ctx) n, f { x with slot := n } = { f x with slot := n }) :
    onlyCtx s (finish (fetched s l c) l c f) l c (completed (ctxOf s l c) f) := by
  have h := finish_fetched s l c f
  rw [hf] at h
  exact h

/-- A completing instruction that changes its core's parts by `g`, which leaves the contexts alone, and its context. -/
theorem finish_modCore_fetched (s : State) (l : Lcid) (c : CtxNo) (g : Core → Core) (f : Ctx → Ctx)
    (hg : ∀ k c', getCtx (g k) c' = getCtx k c') :
    onlyCore s (finish (modCore (fetched s l c) l g) l c f) l c
      { f { ctxOf s l c with slot := some ((ctxOf s l c).pc.toNat / 128) } with
        pc := (ctxOf s l c).pc + 8, deadline := none }
      (g (getCore (fetched s l c) l)) := by
  refine ⟨?_, fun c' h => ?_, ?_, fun l' h => ?_, by simp [finish, fetched]⟩
  · simp [finish, fetched, ctxOf, hg]
  · simp [finish, fetched, ctxOf, getCtx_modCtx_other _ _ _ _ h, hg]
  · simp [finish, fetched]
  · simp [finish, fetched, modCtxOf, getCore_modCore_other _ _ _ _ h]

end Sys2Proof.Machine
end

