-- ==== Sys2Proof/Laws/Frame.lean ====
section
/-! SUPPORT. What no command changes: what the part is, the commands that wait, and the registers that few writes reach. One
lemma for each function from states to states: it keeps them. -/

namespace Sys2Proof.Machine

/-- What the part is, the commands that wait, SNAG_CFG, the PART_GROVEk registers and DEV_DID. -/
def sig (s : State) : Part × List Instr × Word × Tbl Word × Word := (s.part, s.pending, s.snagCfg, s.pgrove, s.did)

theorem sig_mk (a b c d e f g h i j k l m n o p q r t u v w x y z aa) :
    sig ⟨a, b, c, d, e, f, g, h, i, j, k, l, m, n, o, p, q, r, t, u, v, w, x, y, z, aa⟩ = (a, aa, n, v, u) := by simp only [sig]

theorem sig_fold (s : State) : (s.part, s.pending, s.snagCfg, s.pgrove, s.did) = sig s := by simp only [sig]

theorem sig_ite {c : Prop} [Decidable c] {a b s : State} (ha : sig a = sig s) (hb : sig b = sig s) :
    sig (if c then a else b) = sig s := by split <;> assumption

theorem sig_foldl {α : Type} {f : State → α → State} (h : ∀ s a, sig (f s a) = sig s) (l : List α) (s : State) :
    sig (l.foldl f s) = sig s := by
  induction l generalizing s with
  | nil => rfl
  | cons a r ih => rw [List.foldl_cons, ih, h]

theorem sig_setCore (s x1 x2) : sig (setCore s x1 x2) = sig s := by
  unfold setCore
  repeat' first
    | with_reducible rfl
    | simp only [sig_mk, sig_fold]

theorem sig_modCore (s x1 x2) : sig (modCore s x1 x2) = sig s := by
  unfold modCore
  repeat' first
    | with_reducible rfl
    | simp only [sig_setCore]

theorem sig_modCtxOf (s x1 x2 x3) : sig (modCtxOf s x1 x2 x3) = sig s := by
  unfold modCtxOf
  repeat' first
    | with_reducible rfl
    | simp only [sig_modCore]

theorem sig_setGrove (s x1 x2) : sig (setGrove s x1 x2) = sig s := by
  unfold setGrove
  repeat' first
    | with_reducible rfl
    | simp only [sig_mk, sig_fold]

theorem sig_modGrove (s x1 x2) : sig (modGrove s x1 x2) = sig s := by
  unfold modGrove
  repeat' first
    | with_reducible rfl
    | simp only [sig_setGrove]

theorem sig_modSite (s x1 x2 x3) : sig (modSite s x1 x2 x3) = sig s := by
  unfold modSite
  repeat' first
    | with_reducible rfl
    | simp only [sig_modGrove]

theorem sig_raise (s x1) : sig (raise s x1) = sig s := by
  unfold raise
  repeat' first
    | with_reducible rfl
    | simp only [sig_mk, sig_fold]

theorem sig_countEv (s x1) : sig (countEv s x1) = sig s := by
  unfold countEv
  repeat' first
    | with_reducible rfl
    | simp only [sig_mk, sig_fold]

theorem sig_forgetEv (s x1) : sig (forgetEv s x1) = sig s := by
  unfold forgetEv
  repeat' first
    | with_reducible rfl
    | simp only [sig_mk, sig_fold]

theorem sig_raiseEv (s x1 x2) : sig (raiseEv s x1 x2) = sig s := by
  unfold raiseEv
  repeat' first
    | with_reducible rfl
    | simp only [sig_countEv, sig_raise]

theorem sig_drawKey (s) : sig (drawKey s).1 = sig s := by
  unfold drawKey
  repeat' first
    | with_reducible rfl
    | simp only [sig_mk, sig_fold]

theorem sig_reject (s x1 x2 x3 x4) : sig (reject s x1 x2 x3 x4) = sig s := by
  unfold reject
  repeat' first
    | with_reducible rfl
    | simp only [sig_mk, sig_fold]

theorem sig_awake (b s) (h : ∀ u, sig (b u) = sig u) : sig (awake b s) = sig s := by
  unfold awake
  repeat' first
    | with_reducible rfl
    | simp only [h]
    | (refine (sig_foldl ?_ _ _).trans ?_)
    | split

theorem sig_fireWake (s x1) : sig (fireWake s x1) = sig s := by
  unfold fireWake
  repeat' first
    | with_reducible rfl
    | simp only [sig_mk, sig_fold]
    | split

theorem sig_freshWord (s) : sig (freshWord s).1 = sig s := by
  unfold freshWord
  repeat' first
    | with_reducible rfl
    | simp only [sig_mk, sig_fold]

theorem sig_slUpset (s x1 x2) : sig (slUpset s x1 x2) = sig s := by
  unfold slUpset
  repeat' first
    | with_reducible rfl
    | simp only [sig_raiseEv, sig_setCore]
    | split

theorem sig_modPort (s x1 x2) : sig (modPort s x1 x2) = sig s := by
  unfold modPort
  repeat' first
    | with_reducible rfl
    | simp only [sig_mk, sig_fold]

theorem sig_remap (s x1) : sig (remap s x1) = sig s := by
  unfold remap
  repeat' first
    | with_reducible rfl
    | simp only [sig_modGrove]

theorem sig_remapAll (s) : sig (remapAll s) = sig s := by
  unfold remapAll
  repeat' first
    | with_reducible rfl
    | simp only [sig_remap]
    | (refine (sig_foldl ?_ _ _).trans ?_)
    | intro _

theorem sig_injectAs (s x1 x2 x3 x4) : sig (injectAs s x1 x2 x3 x4) = sig s := by
  unfold injectAs
  repeat' first
    | with_reducible rfl
    | simp only [sig_modGrove]

theorem sig_inject (s x1 x2 x3) : sig (inject s x1 x2 x3) = sig s := by
  unfold inject
  repeat' first
    | with_reducible rfl
    | simp only [sig_injectAs, sig_modGrove]

theorem sig_sendFrom (s x1 x2) : sig (sendFrom s x1 x2) = sig s := by
  unfold sendFrom
  repeat' first
    | with_reducible rfl
    | simp only [sig_inject]

theorem sig_sendUnit (s x1 x2) : sig (sendUnit s x1 x2) = sig s := by
  unfold sendUnit
  repeat' first
    | with_reducible rfl
    | simp only [sig_inject]

theorem sig_sendLanding (s x1 x2) : sig (sendLanding s x1 x2) = sig s := by
  unfold sendLanding
  repeat' first
    | with_reducible rfl
    | simp only [sig_inject]
    | split

theorem sig_landAs (s x1 x2) : sig (landAs s x1 x2) = sig s := by
  unfold landAs
  repeat' first
    | with_reducible rfl
    | simp only [sig_injectAs]
    | split

theorem sig_sendTo (s x1 x2 x3) : sig (sendTo s x1 x2 x3) = sig s := by
  unfold sendTo
  repeat' first
    | with_reducible rfl
    | simp only [sig_sendFrom]
    | (refine (sig_foldl ?_ _ _).trans ?_)
    | split

theorem sig_modStack (s x1 x2) : sig (modStack s x1 x2) = sig s := by
  unfold modStack
  repeat' first
    | with_reducible rfl
    | simp only [sig_mk, sig_fold]

theorem sig_hbmStoreGo (n : Nat) (s : State) (x2 x3 x4 x5) : sig (hbmStoreGo n s x2 x3 x4 x5).1 = sig s := by
  induction n generalizing s x3 x4 x5 with
  | zero => rw [hbmStoreGo]
  | succ n ih => cases x4 <;> simp only [hbmStoreGo, ih, sig_modStack]

theorem sig_hbmStore (s x1 x2 x3 x4) : sig (hbmStore s x1 x2 x3 x4).1 = sig s := by
  unfold hbmStore
  repeat' first
    | with_reducible rfl
    | simp only [sig_hbmStoreGo]

theorem sig_hbmUpset (s x1 x2) : sig (hbmUpset s x1 x2) = sig s := by
  unfold hbmUpset
  repeat' first
    | with_reducible rfl
    | simp only [sig_modStack, sig_raiseEv]
    | split

theorem sig_sendCancel (s x1 x2) : sig (sendCancel s x1 x2) = sig s := by
  unfold sendCancel
  repeat' first
    | with_reducible rfl
    | simp only [sig_sendFrom]
    | split

theorem sig_abandonSyncs (s x1 x2) : sig (abandonSyncs s x1 x2) = sig s := by
  unfold abandonSyncs
  repeat' first
    | with_reducible rfl
    | simp only [sig_modCore, sig_sendCancel]
    | (refine (sig_foldl ?_ _ _).trans ?_)
    | split
    | intro _

theorem sig_abandonWait (s x1 x2) : sig (abandonWait s x1 x2) = sig s := by
  unfold abandonWait
  repeat' first
    | with_reducible rfl
    | simp only [sig_abandonSyncs, sig_modCore]
    | split

theorem sig_toFree (s x1 x2) : sig (toFree s x1 x2) = sig s := by
  unfold toFree
  repeat' first
    | with_reducible rfl
    | simp only [sig_abandonWait, sig_modCore]

theorem sig_settle (s x1 x2) : sig (settle s x1 x2) = sig s := by
  unfold settle
  repeat' first
    | with_reducible rfl
    | simp only [sig_modCtxOf, sig_toFree]
    | split

theorem sig_freeCtx (s x1 x2) : sig (freeCtx s x1 x2) = sig s := by
  unfold freeCtx
  repeat' first
    | with_reducible rfl
    | simp only [sig_abandonSyncs, sig_abandonWait, sig_modCtxOf, sig_settle]

theorem sig_programFault (s x1 x2 x3 x4 x5) : sig (programFault s x1 x2 x3 x4 x5) = sig s := by
  unfold programFault
  repeat' first
    | with_reducible rfl
    | simp only [sig_modCore, sig_raise]
    | split

theorem sig_faultCtx (s x1 x2 x3 x4 x5 x6 x7) : sig (faultCtx s x1 x2 x3 x4 x5 x6 x7) = sig s := by
  unfold faultCtx
  repeat' first
    | with_reducible rfl
    | simp only [sig_abandonWait, sig_modCore, sig_programFault]
    | split

theorem sig_precise (s x1 x2 x3 x4 x5) : sig (precise s x1 x2 x3 x4 x5) = sig s := by
  unfold precise
  repeat' first
    | with_reducible rfl
    | simp only [sig_faultCtx]

theorem sig_finish (s x1 x2 x3) : sig (finish s x1 x2 x3) = sig s := by
  unfold finish
  repeat' first
    | with_reducible rfl
    | simp only [sig_modCtxOf]

theorem sig_advance (s x1 x2) : sig (advance s x1 x2) = sig s := by
  unfold advance
  repeat' first
    | with_reducible rfl
    | simp only [sig_finish]

theorem sig_fetched (s x1 x2) : sig (fetched s x1 x2) = sig s := by
  unfold fetched
  repeat' first
    | with_reducible rfl
    | simp only [sig_modCtxOf]

theorem sig_issue (s x1 x2 x3 x4 x5 x6 x7 b) (h : ∀ u, sig (b u) = sig u) : sig (issue s x1 x2 x3 x4 x5 x6 x7 b) = sig s := by
  unfold issue
  repeat' first
    | with_reducible rfl
    | simp only [sig_advance, sig_fetched, sig_precise, h]
    | (refine (sig_foldl ?_ _ _).trans ?_)
    | split

theorem sig_loseEntry (s x1 x2) : sig (loseEntry s x1 x2) = sig s := by
  unfold loseEntry
  repeat' first
    | with_reducible rfl
    | simp only [sig_modCore, sig_raise]

theorem sig_postQ63 (s x1 x2) : sig (postQ63 s x1 x2) = sig s := by
  unfold postQ63
  repeat' first
    | with_reducible rfl
    | simp only [sig_loseEntry, sig_setCore]
    | split

theorem sig_postEntry (s x1 x2 x3) : sig (postEntry s x1 x2 x3) = sig s := by
  unfold postEntry
  repeat' first
    | with_reducible rfl
    | simp only [sig_postQ63, sig_setCore]
    | split

theorem sig_narrowNoEffect (s x1 x2 x3) : sig (narrowNoEffect s x1 x2 x3) = sig s := by
  unfold narrowNoEffect
  repeat' first
    | with_reducible rfl
    | simp only [sig_postQ63]

theorem sig_narrowAnswer (s x1 x2 x3 x4) : sig (narrowAnswer s x1 x2 x3 x4) = sig s := by
  unfold narrowAnswer
  repeat' first
    | with_reducible rfl
    | simp only [sig_modCore, sig_modCtxOf, sig_narrowNoEffect, sig_precise]
    | split

theorem sig_pushLanding (s x1 x2) : sig (pushLanding s x1 x2) = sig s := by
  unfold pushLanding
  repeat' first
    | with_reducible rfl
    | simp only [sig_mk, sig_fold]

theorem sig_sendVia (s x1 x2) : sig (sendVia s x1 x2) = sig s := by
  unfold sendVia
  repeat' first
    | with_reducible rfl
    | simp only [sig_sendFrom, sig_sendLanding, sig_sendUnit]
    | split

theorem sig_sendFar (s x1 x2 x3 x4 x5) : sig (sendFar s x1 x2 x3 x4 x5) = sig s := by
  unfold sendFar
  repeat' first
    | with_reducible rfl
    | simp only [sig_pushLanding, sig_sendVia]
    | split

theorem sig_reply (s x1 x2 x3) : sig (reply s x1 x2 x3) = sig s := by
  unfold reply
  repeat' first
    | with_reducible rfl
    | simp only [sig_sendFar, sig_sendVia]
    | split

theorem sig_takeArrived (s dg f p t) (h : takeArrived s dg f = some (p, t)) : sig t = sig s := by
  unfold takeArrived at h
  rw [Option.map_eq_some_iff] at h
  obtain ⟨q, _, h⟩ := h
  injection h with _ h
  subst h
  exact sig_modGrove ..

theorem sig_takeLanding (s e f p t) (h : takeLanding s e f = some (p, t)) : sig t = sig s := by
  unfold takeLanding at h
  rw [Option.map_eq_some_iff] at h
  obtain ⟨q, _, h⟩ := h
  injection h with _ h
  subst h
  simp only [sig_mk, sig_fold]

theorem sig_answerMsg (s x1 x2 x3 x4) : sig (answerMsg s x1 x2 x3 x4) = sig s := by
  unfold answerMsg
  repeat' first
    | with_reducible rfl
    | simp only [sig_sendFar, sig_sendVia]
    | split

theorem sig_bounce (s x1 x2 x3) : sig (bounce s x1 x2 x3) = sig s := by
  unfold bounce
  repeat' first
    | with_reducible rfl
    | simp only [sig_answerMsg]

theorem sig_coreBounce (s x1 x2 x3) : sig (coreBounce s x1 x2 x3) = sig s := by
  unfold coreBounce
  repeat' first
    | with_reducible rfl
    | simp only [sig_bounce, sig_modCore]

theorem sig_dropSent (s x1 x2) : sig (dropSent s x1 x2) = sig s := by
  unfold dropSent
  repeat' first
    | with_reducible rfl
    | simp only [sig_modCore]

theorem sig_acceptMsg (s x1 x2) : sig (acceptMsg s x1 x2) = sig s := by
  unfold acceptMsg
  repeat' first
    | with_reducible rfl
    | simp only [sig_answerMsg, sig_dropSent]
    | split

theorem sig_doMclaim (x0 x1 x2 s) : sig (doMclaim x0 x1 x2 s) = sig s := by
  unfold doMclaim
  repeat' first
    | with_reducible rfl
    | simp only [sig_finish, sig_modCore]
    | (refine (sig_issue _ _ _ _ _ _ _ _ _ ?_).trans ?_)
    | split
    | intro _

theorem sig_doMrel (x0 x1 x2 s) : sig (doMrel x0 x1 x2 s) = sig s := by
  unfold doMrel
  repeat' first
    | with_reducible rfl
    | simp only [sig_advance, sig_finish, sig_modCore, sig_precise]
    | (refine (sig_issue _ _ _ _ _ _ _ _ _ ?_).trans ?_)
    | split
    | intro _

theorem sig_doTdld (x0 x1 x2 s) : sig (doTdld x0 x1 x2 s) = sig s := by
  unfold doTdld
  repeat' first
    | with_reducible rfl
    | simp only [sig_advance, sig_modCore, sig_precise]
    | (refine (sig_issue _ _ _ _ _ _ _ _ _ ?_).trans ?_)
    | split
    | intro _

theorem sig_doMzero (x0 x1 x2 s) : sig (doMzero x0 x1 x2 s) = sig s := by
  unfold doMzero
  repeat' first
    | with_reducible rfl
    | simp only [sig_advance, sig_modCore, sig_precise]
    | (refine (sig_issue _ _ _ _ _ _ _ _ _ ?_).trans ?_)
    | split
    | intro _

theorem sig_doMma (x0 x1 x2 s) : sig (doMma x0 x1 x2 s) = sig s := by
  unfold doMma
  repeat' first
    | with_reducible rfl
    | simp only [sig_advance, sig_modCore, sig_precise]
    | (refine (sig_issue _ _ _ _ _ _ _ _ _ ?_).trans ?_)
    | split
    | intro _

theorem sig_doMwait (x0 x1 x2 s) : sig (doMwait x0 x1 x2 s) = sig s := by
  unfold doMwait
  repeat' first
    | with_reducible rfl
    | simp only [sig_finish]
    | (refine (sig_issue _ _ _ _ _ _ _ _ _ ?_).trans ?_)
    | split
    | intro _

theorem sig_engineEnd (s x1 x2) : sig (engineEnd s x1 x2) = sig s := by
  unfold engineEnd
  repeat' first
    | with_reducible rfl
    | simp only [sig_modCore, sig_settle]

theorem sig_millFault (s x1 x2 x3 x4) : sig (millFault s x1 x2 x3 x4) = sig s := by
  unfold millFault
  repeat' first
    | with_reducible rfl
    | simp only [sig_engineEnd, sig_faultCtx, sig_modCore]

theorem sig_setTile (s x1 x2 x3) : sig (setTile s x1 x2 x3) = sig s := by
  unfold setTile
  repeat' first
    | with_reducible rfl
    | simp only [sig_modCore]

theorem sig_millStep (s x1 x2) : sig (millStep s x1 x2) = sig s := by
  unfold millStep
  repeat' first
    | with_reducible rfl
    | simp only [sig_engineEnd, sig_millFault, sig_modCore, sig_modCtxOf, sig_setTile]
    | split

theorem sig_doMillOpComplete (x0 s) : sig (doMillOpComplete x0 s) = sig s := by
  unfold doMillOpComplete
  repeat' first
    | with_reducible rfl
    | simp only [sig_millStep]
    | split

theorem sig_accUncorr (s x1 x2 x3 x4) : sig (accUncorr s x1 x2 x3 x4) = sig s := by
  unfold accUncorr
  repeat' first
    | with_reducible rfl
    | simp only [sig_raiseEv, sig_setTile]
    | split

theorem sig_accFixed (s x1 x2 x3 x4) : sig (accFixed s x1 x2 x3 x4) = sig s := by
  unfold accFixed
  repeat' first
    | with_reducible rfl
    | simp only [sig_raise]

theorem sig_residueHit (s x1 x2 x3) : sig (residueHit s x1 x2 x3) = sig s := by
  unfold residueHit
  repeat' first
    | with_reducible rfl
    | simp only [sig_modSite, sig_raiseEv]

theorem sig_millEndAt (s x1 x2 x3 x4 x5 x6 b) (h : ∀ u, sig (b u) = sig u) : sig (millEndAt s x1 x2 x3 x4 x5 x6 b) = sig s := by
  unfold millEndAt
  repeat' first
    | with_reducible rfl
    | simp only [sig_millFault, sig_millStep, sig_setTile, h]
    | (refine (sig_foldl ?_ _ _).trans ?_)
    | split

theorem sig_millMeets (x0 x1 s) : sig (millMeets x0 x1 s) = sig s := by
  unfold millMeets
  repeat' first
    | with_reducible rfl
    | simp only [sig_accUncorr, sig_millStep, sig_residueHit]
    | (refine (sig_millEndAt _ _ _ _ _ _ _ _ ?_).trans ?_)
    | split
    | intro _

theorem sig_doMillOpFault (x0 x1 s) : sig (doMillOpFault x0 x1 s) = sig s := by
  unfold doMillOpFault
  repeat' first
    | with_reducible rfl
    | simp only [sig_accFixed, sig_accUncorr, sig_millMeets]
    | split

theorem sig_veIssue (x0 x1 x2 x3 x4 x5 s) : sig (veIssue x0 x1 x2 x3 x4 x5 s) = sig s := by
  unfold veIssue
  repeat' first
    | with_reducible rfl
    | simp only [sig_finish, sig_modCore, sig_precise]
    | (refine (sig_issue _ _ _ _ _ _ _ _ _ ?_).trans ?_)
    | split
    | intro _

theorem sig_doVwait (x0 x1 x2 s) : sig (doVwait x0 x1 x2 s) = sig s := by
  unfold doVwait
  repeat' first
    | with_reducible rfl
    | simp only [sig_finish]
    | (refine (sig_issue _ _ _ _ _ _ _ _ _ ?_).trans ?_)
    | split
    | intro _

theorem sig_writeDest (s x1 x2 x3) : sig (writeDest s x1 x2 x3) = sig s := by
  unfold writeDest
  repeat' first
    | with_reducible rfl
    | simp only [sig_modCore, sig_setTile]
    | split

theorem sig_writePrefix (s x1 x2 x3 x4) : sig (writePrefix s x1 x2 x3 x4).1 = sig s := by
  unfold writePrefix
  repeat' first
    | with_reducible rfl
    | simp only [sig_modCore, sig_setTile]
    | (refine (sig_foldl ?_ _ _).trans ?_)
    | split

theorem sig_veFault (s x1 x2 x3 x4) : sig (veFault s x1 x2 x3 x4) = sig s := by
  unfold veFault
  repeat' first
    | with_reducible rfl
    | simp only [sig_engineEnd, sig_faultCtx, sig_modCore]

theorem sig_veFinish (s x1 x2 x3 x4) : sig (veFinish s x1 x2 x3 x4) = sig s := by
  unfold veFinish
  repeat' first
    | with_reducible rfl
    | simp only [sig_engineEnd, sig_modCore, sig_modCtxOf, sig_writeDest]
    | split

theorem sig_veStep (s x1 x2) : sig (veStep s x1 x2) = sig s := by
  unfold veStep
  repeat' first
    | with_reducible rfl
    | simp only [sig_veFault, sig_veFinish, sig_writePrefix]
    | split

theorem sig_doVeOpComplete (x0 s) : sig (doVeOpComplete x0 s) = sig s := by
  unfold doVeOpComplete
  repeat' first
    | with_reducible rfl
    | simp only [sig_veStep]
    | split

theorem sig_laneHit (s x1 x2 x3) : sig (laneHit s x1 x2 x3) = sig s := by
  unfold laneHit
  repeat' first
    | with_reducible rfl
    | simp only [sig_raiseEv]

theorem sig_doVeOpFault (x0 x1 s) : sig (doVeOpFault x0 x1 s) = sig s := by
  unfold doVeOpFault
  repeat' first
    | with_reducible rfl
    | simp only [sig_accUncorr, sig_laneHit, sig_veFault, sig_veStep, sig_writePrefix]
    | split

theorem sig_doCtxEnd (x0 x1 x2 s) : sig (doCtxEnd x0 x1 x2 s) = sig s := by
  unfold doCtxEnd
  repeat' first
    | with_reducible rfl
    | simp only [sig_finish, sig_settle]
    | (refine (sig_issue _ _ _ _ _ _ _ _ _ ?_).trans ?_)
    | intro _

theorem sig_doPark (x0 x1 x2 s) : sig (doPark x0 x1 x2 s) = sig s := by
  unfold doPark
  repeat' first
    | with_reducible rfl
    | simp only [sig_finish, sig_modCtxOf]
    | (refine (sig_issue _ _ _ _ _ _ _ _ _ ?_).trans ?_)
    | split
    | intro _

theorem sig_doSleep (x0 x1 x2 s) : sig (doSleep x0 x1 x2 s) = sig s := by
  unfold doSleep
  repeat' first
    | with_reducible rfl
    | simp only [sig_advance, sig_modCtxOf]
    | (refine (sig_issue _ _ _ _ _ _ _ _ _ ?_).trans ?_)
    | split
    | intro _

theorem sig_doSrseed (x0 x1 x2 s) : sig (doSrseed x0 x1 x2 s) = sig s := by
  unfold doSrseed
  repeat' first
    | with_reducible rfl
    | simp only [sig_finish]
    | (refine (sig_issue _ _ _ _ _ _ _ _ _ ?_).trans ?_)
    | intro _

theorem sig_doTargeted (x0 x1 x2 x3 x4 x5 x6) (b : State → CtxNo → State) (s) (h : ∀ u t, sig (b u t) = sig u) :
    sig (doTargeted x0 x1 x2 x3 x4 x5 x6 b s) = sig s := by
  unfold doTargeted
  refine sig_issue _ _ _ _ _ _ _ _ _ fun u => ?_
  simp only []
  split
  · exact sig_precise ..
  split
  · exact sig_precise ..
  rw [sig_finish]
  split
  · exact h ..
  · rfl

theorem sig_doWake (x0 x1 x2 s) : sig (doWake x0 x1 x2 s) = sig s := by
  unfold doWake
  exact sig_doTargeted _ _ _ _ _ _ _ _ _ fun _ _ => sig_modCtxOf ..

theorem sig_doResume (x0 x1 x2 s) : sig (doResume x0 x1 x2 s) = sig s := by
  unfold doResume
  refine sig_doTargeted _ _ _ _ _ _ _ _ _ fun _ _ => ?_
  simp only [sig_modCtxOf]

theorem sig_doCfree (x0 x1 x2 s) : sig (doCfree x0 x1 x2 s) = sig s := by
  unfold doCfree
  exact sig_doTargeted _ _ _ _ _ _ _ _ _ fun _ _ => sig_freeCtx ..

theorem sig_doParkTimerExpiry (x0 x1 s) : sig (doParkTimerExpiry x0 x1 s) = sig s := by
  unfold doParkTimerExpiry
  repeat' first
    | with_reducible rfl
    | simp only [sig_modCtxOf]
    | split

theorem sig_doSleepExpiry (x0 x1 s) : sig (doSleepExpiry x0 x1 s) = sig s := by
  unfold doSleepExpiry
  repeat' first
    | with_reducible rfl
    | simp only [sig_modCtxOf]
    | split

theorem sig_doRing (x0 x1 x2 s) : sig (doRing x0 x1 x2 s) = sig s := by
  unfold doRing
  repeat' first
    | with_reducible rfl
    | simp only [sig_finish, sig_precise]
    | (refine (sig_issue _ _ _ _ _ _ _ _ _ ?_).trans ?_)
    | split
    | intro _

theorem sig_doRingComplete (x0 x1 s) : sig (doRingComplete x0 x1 s) = sig s := by
  unfold doRingComplete
  repeat' first
    | with_reducible rfl
    | simp only [sig_setCore]
    | split

theorem sig_doQry (x0 x1 x2 s) : sig (doQry x0 x1 x2 s) = sig s := by
  unfold doQry
  repeat' first
    | with_reducible rfl
    | simp only [sig_finish, sig_precise]
    | (refine (sig_issue _ _ _ _ _ _ _ _ _ ?_).trans ?_)
    | split
    | intro _

theorem sig_doMulti (x0 x1 x2 x3 x4 x5 x6 s) : sig (doMulti x0 x1 x2 x3 x4 x5 x6 s) = sig s := by
  unfold doMulti
  repeat' first
    | with_reducible rfl
    | simp only [sig_finish]
    | (refine (sig_issue _ _ _ _ _ _ _ _ _ ?_).trans ?_)
    | (refine (sig_foldl ?_ _ _).trans ?_)
    | split
    | intro _

theorem sig_doNsrd (x0 x1 x2 s) : sig (doNsrd x0 x1 x2 s) = sig s := by
  unfold doNsrd
  repeat' first
    | with_reducible rfl
    | simp only [sig_doMulti]

theorem sig_doTlrd (x0 x1 x2 s) : sig (doTlrd x0 x1 x2 s) = sig s := by
  unfold doTlrd
  repeat' first
    | with_reducible rfl
    | simp only [sig_doMulti]

theorem sig_doTlclr (x0 x1 x2 s) : sig (doTlclr x0 x1 x2 s) = sig s := by
  unfold doTlclr
  repeat' first
    | with_reducible rfl
    | simp only [sig_doMulti]

theorem sig_doDistrd (x0 x1 x2 s) : sig (doDistrd x0 x1 x2 s) = sig s := by
  unfold doDistrd
  repeat' first
    | with_reducible rfl
    | simp only [sig_doMulti]

theorem sig_doFaultNoticeStart (x0 s) : sig (doFaultNoticeStart x0 s) = sig s := by
  unfold doFaultNoticeStart
  repeat' first
    | with_reducible rfl
    | simp only [sig_setCore]
    | split

theorem sig_finishP (s x1 x2 x3 x4) : sig (finishP s x1 x2 x3 x4) = sig s := by
  unfold finishP
  repeat' first
    | with_reducible rfl
    | simp only [sig_finish]

theorem sig_qrdWait (s x1 x2 x3 x4 x5) : sig (qrdWait s x1 x2 x3 x4 x5) = sig s := by
  unfold qrdWait
  repeat' first
    | with_reducible rfl
    | simp only [sig_modCore, sig_modCtxOf]
    | split

theorem sig_qrdLink (s x1 x2 x3 x4 x5) : sig (qrdLink s x1 x2 x3 x4 x5) = sig s := by
  unfold qrdLink
  repeat' first
    | with_reducible rfl
    | simp only [sig_finish, sig_finishP, sig_freshWord, sig_modCore, sig_precise, sig_qrdWait]
    | split

theorem sig_qrdRing (s x1 x2 x3 x4) : sig (qrdRing s x1 x2 x3 x4) = sig s := by
  unfold qrdRing
  repeat' first
    | with_reducible rfl
    | simp only [sig_finish, sig_precise, sig_qrdWait, sig_setCore]
    | split

theorem sig_doQrd (x0 x1 x2 s) : sig (doQrd x0 x1 x2 s) = sig s := by
  unfold doQrd
  repeat' first
    | with_reducible rfl
    | simp only [sig_precise, sig_qrdLink, sig_qrdRing]
    | (refine (sig_issue _ _ _ _ _ _ _ _ _ ?_).trans ?_)
    | split
    | intro _

theorem sig_doQrdTimeout (x0 x1 s) : sig (doQrdTimeout x0 x1 s) = sig s := by
  unfold doQrdTimeout
  repeat' first
    | with_reducible rfl
    | simp only [sig_abandonWait, sig_modCtxOf]
    | split

theorem sig_doQput (x0 x1 x2 s) : sig (doQput x0 x1 x2 s) = sig s := by
  unfold doQput
  repeat' first
    | with_reducible rfl
    | simp only [sig_finishP, sig_precise, sig_setCore]
    | (refine (sig_issue _ _ _ _ _ _ _ _ _ ?_).trans ?_)
    | split
    | intro _

theorem sig_doQtest (x0 x1 x2 s) : sig (doQtest x0 x1 x2 s) = sig s := by
  unfold doQtest
  repeat' first
    | with_reducible rfl
    | simp only [sig_finishP, sig_precise]
    | (refine (sig_issue _ _ _ _ _ _ _ _ _ ?_).trans ?_)
    | split
    | intro _

theorem sig_doQcfg (x0 x1 x2 s) : sig (doQcfg x0 x1 x2 s) = sig s := by
  unfold doQcfg
  repeat' first
    | with_reducible rfl
    | simp only [sig_advance, sig_freshWord, sig_precise, sig_setCore]
    | (refine (sig_issue _ _ _ _ _ _ _ _ _ ?_).trans ?_)
    | split
    | intro _

theorem sig_doBoomRoundRelease (x0 x1 s) : sig (doBoomRoundRelease x0 x1 s) = sig s := by
  unfold doBoomRoundRelease
  repeat' first
    | with_reducible rfl
    | simp only [sig_setCore]
    | split

theorem sig_freeHdr (s x1) : sig (freeHdr s x1).1 = sig s := by
  unfold freeHdr
  repeat' first
    | with_reducible rfl
    | simp only [sig_freshWord]

theorem sig_doSend (x0 x1 x2 s) : sig (doSend x0 x1 x2 s) = sig s := by
  unfold doSend
  repeat' first
    | with_reducible rfl
    | simp only [sig_advance, sig_freeHdr, sig_modCore, sig_postEntry, sig_precise, sig_setCore]
    | (refine (sig_issue _ _ _ _ _ _ _ _ _ ?_).trans ?_)
    | split
    | intro _

theorem sig_doMsgrel (x0 x1 x2 s) : sig (doMsgrel x0 x1 x2 s) = sig s := by
  unfold doMsgrel
  repeat' first
    | with_reducible rfl
    | simp only [sig_advance, sig_finish, sig_modCore]
    | (refine (sig_issue _ _ _ _ _ _ _ _ _ ?_).trans ?_)
    | split
    | intro _

theorem sig_doMessageInject (x0 s) : sig (doMessageInject x0 s) = sig s := by
  unfold doMessageInject
  repeat' first
    | with_reducible rfl
    | simp only [sig_bounce, sig_modCore, sig_postEntry, sig_sendFar, sig_sendFrom, sig_settle]
    | split

theorem sig_placeMsg (s l m t) (h : placeMsg s l m = some t) : sig t = sig s := by
  unfold placeMsg at h
  simp only [] at h
  repeat' split at h
  all_goals first
    | (injection h with h; subst h; simp only [sig_acceptMsg, sig_setCore, sig_coreBounce])
    | cases h

theorem sig_arriveMsg (s x1 x2 x3) : sig (arriveMsg s x1 x2 x3) = sig s := by
  unfold arriveMsg
  repeat' first
    | with_reducible rfl
    | simp only [sig_coreBounce, sig_modCore]
    | exact sig_placeMsg _ _ _ _ ‹_›
    | split

theorem sig_doMessageArrival (x0 s) : sig (doMessageArrival x0 s) = sig s := by
  unfold doMessageArrival
  repeat' first
    | with_reducible rfl
    | simp only [sig_arriveMsg, sig_bounce, sig_modGrove]
    | exact sig_takeArrived _ _ _ _ _ ‹_›
    | split

theorem sig_doMessageStart (x0 s) : sig (doMessageStart x0 s) = sig s := by
  unfold doMessageStart
  repeat' first
    | with_reducible rfl
    | simp only [sig_coreBounce, sig_setCore]
    | split

theorem sig_placeHeld (s l b r m t) (h : placeHeld s l b r = some (m, t)) : sig t = sig s := by
  induction r generalizing b with
  | nil => simp [placeHeld] at h
  | cons a r ih =>
    rw [placeHeld] at h
    split at h
    · exact ih _ h
    split at h
    · rename_i u hu
      injection h with h
      injection h with _ h
      subst h
      exact sig_placeMsg _ _ _ _ hu
    · exact ih _ h

theorem sig_dropHold (s x1 x2) : sig (dropHold s x1 x2) = sig s := by
  unfold dropHold
  repeat' first
    | with_reducible rfl
    | simp only [sig_modCore]

theorem sig_doHeldMessagePlaced (x0 s) : sig (doHeldMessagePlaced x0 s) = sig s := by
  unfold doHeldMessagePlaced
  repeat' first
    | with_reducible rfl
    | simp only [sig_dropHold]
    | exact sig_placeHeld _ _ _ _ _ _ ‹_›
    | split

theorem sig_doArrTmoExpiry (x0 s) : sig (doArrTmoExpiry x0 s) = sig s := by
  unfold doArrTmoExpiry
  repeat' first
    | with_reducible rfl
    | simp only [sig_coreBounce, sig_dropHold]
    | split

theorem sig_closeHaul (s x1 x2) : sig (closeHaul s x1 x2) = sig s := by
  unfold closeHaul
  repeat' first
    | with_reducible rfl
    | simp only [sig_modCore, sig_postEntry, sig_settle]
    | split

theorem sig_modPart (s x1 x2 x3 x4) : sig (modPart s x1 x2 x3 x4) = sig s := by
  unfold modPart
  repeat' first
    | with_reducible rfl
    | simp only [sig_modCore]

theorem sig_stepPart (s x1 x2 x3 x4) : sig (stepPart s x1 x2 x3 x4) = sig s := by
  unfold stepPart
  repeat' first
    | with_reducible rfl
    | simp only [sig_closeHaul, sig_modPart]

theorem sig_startHaul (s x1 x2 x3 x4 x5 x6) : sig (startHaul s x1 x2 x3 x4 x5 x6) = sig s := by
  unfold startHaul
  repeat' first
    | with_reducible rfl
    | simp only [sig_closeHaul, sig_modCore]

theorem sig_doHaul (x0 x1 x2 s) : sig (doHaul x0 x1 x2 s) = sig s := by
  unfold doHaul
  repeat' first
    | with_reducible rfl
    | simp only [sig_advance, sig_startHaul]
    | (refine (sig_issue _ _ _ _ _ _ _ _ _ ?_).trans ?_)
    | intro _

theorem sig_doHaull (x0 x1 x2 s) : sig (doHaull x0 x1 x2 s) = sig s := by
  unfold doHaull
  repeat' first
    | with_reducible rfl
    | simp only [sig_advance, sig_modCore, sig_postEntry, sig_precise, sig_startHaul]
    | (refine (sig_issue _ _ _ _ _ _ _ _ _ ?_).trans ?_)
    | split
    | intro _

theorem sig_haulWrite (s x1 x2 x3 x4 x5 x6 x7 x8) : sig (haulWrite s x1 x2 x3 x4 x5 x6 x7 x8) = sig s := by
  unfold haulWrite
  repeat' first
    | with_reducible rfl
    | simp only [sig_modCore, sig_modPart, sig_sendTo]

theorem sig_haulData (s x1 x2 x3 x4 x5 x6) : sig (haulData s x1 x2 x3 x4 x5 x6) = sig s := by
  unfold haulData
  repeat' first
    | with_reducible rfl
    | simp only [sig_haulWrite, sig_modCore, sig_stepPart]
    | split

theorem sig_haulRead (s x1 x2 x3 x4 x5) : sig (haulRead s x1 x2 x3 x4 x5) = sig s := by
  unfold haulRead
  repeat' first
    | with_reducible rfl
    | simp only [sig_modCore, sig_modPart, sig_sendTo]

theorem sig_doHaulPacketInject (x0 x1 x2 s) : sig (doHaulPacketInject x0 x1 x2 s) = sig s := by
  unfold doHaulPacketInject
  repeat' first
    | with_reducible rfl
    | simp only [sig_haulData, sig_haulRead, sig_stepPart]
    | split

theorem sig_modFn (s x1 x2) : sig (modFn s x1 x2) = sig s := by
  unfold modFn
  repeat' first
    | with_reducible rfl
    | simp only [sig_mk, sig_fold]

theorem sig_signalVec (s x1 x2) : sig (signalVec s x1 x2) = sig s := by
  unfold signalVec
  repeat' first
    | with_reducible rfl
    | simp only [sig_modFn]

theorem sig_notifyEvent (s x1 x2) : sig (notifyEvent s x1 x2) = sig s := by
  unfold notifyEvent
  repeat' first
    | with_reducible rfl
    | simp only [sig_signalVec]
    | (refine (sig_foldl ?_ _ _).trans ?_)
    | split
    | intro _

theorem sig_syncFailed (s x1 x2 x3) : sig (syncFailed s x1 x2 x3) = sig s := by
  unfold syncFailed
  repeat' first
    | with_reducible rfl
    | simp only [sig_postQ63]

theorem sig_syncReady (s x1 x2 x3) : sig (syncReady s x1 x2 x3) = sig s := by
  unfold syncReady
  repeat' first
    | with_reducible rfl
    | simp only [sig_modCtxOf]

theorem sig_syncDone (s x1 x2 x3 x4) : sig (syncDone s x1 x2 x3 x4) = sig s := by
  unfold syncDone
  repeat' first
    | with_reducible rfl
    | simp only [sig_syncFailed, sig_syncReady]
    | split

theorem sig_syncTimedOut (s x1 x2) : sig (syncTimedOut s x1 x2) = sig s := by
  unfold syncTimedOut
  repeat' first
    | with_reducible rfl
    | simp only [sig_syncReady]

theorem sig_dropSync (s x1 x2) : sig (dropSync s x1 x2) = sig s := by
  unfold dropSync
  repeat' first
    | with_reducible rfl
    | simp only [sig_modCore]

theorem sig_sendSync (s x1 x2) : sig (sendSync s x1 x2) = sig s := by
  unfold sendSync
  repeat' first
    | with_reducible rfl
    | simp only [sig_sendFrom]
    | split

theorem sig_startSync (s x1 x2 x3 x4 x5 x6 x7 x8) : sig (startSync s x1 x2 x3 x4 x5 x6 x7 x8) = sig s := by
  unfold startSync
  repeat' first
    | with_reducible rfl
    | simp only [sig_advance, sig_modCore, sig_modCtxOf, sig_sendSync, sig_syncDone]
    | split

theorem sig_doSync (x0 x1 x2 x3 x4 x5 s) : sig (doSync x0 x1 x2 x3 x4 x5 s) = sig s := by
  unfold doSync
  repeat' first
    | with_reducible rfl
    | simp only [sig_precise, sig_startSync]
    | (refine (sig_issue _ _ _ _ _ _ _ _ _ ?_).trans ?_)
    | split
    | intro _

theorem sig_syncAnswerBy (s x1 x2 x3 x4 x5) : sig (syncAnswerBy s x1 x2 x3 x4 x5) = sig s := by
  unfold syncAnswerBy
  repeat' first
    | with_reducible rfl
    | simp only [sig_reply]

theorem sig_syncAnswer (s x1 x2 x3 x4 x5) : sig (syncAnswer s x1 x2 x3 x4 x5) = sig s := by
  unfold syncAnswer
  repeat' first
    | with_reducible rfl
    | simp only [sig_syncAnswerBy]

theorem sig_serveWaiters (s x1 x2) : sig (serveWaiters s x1 x2) = sig s := by
  unfold serveWaiters
  repeat' first
    | with_reducible rfl
    | simp only [sig_setGrove, sig_syncAnswer]
    | (refine (sig_foldl ?_ _ _).trans ?_)
    | intro _

theorem sig_syncTake (s x1 x2 x3 x4 x5) : sig (syncTake s x1 x2 x3 x4 x5) = sig s := by
  unfold syncTake
  repeat' first
    | with_reducible rfl
    | simp only [sig_modGrove, sig_notifyEvent, sig_serveWaiters]
    | split

theorem sig_syncWaitOp (s x1 x2 x3 x4) : sig (syncWaitOp s x1 x2 x3 x4) = sig s := by
  unfold syncWaitOp
  repeat' first
    | with_reducible rfl
    | simp only [sig_modGrove, sig_syncAnswer, sig_syncTake]
    | split

theorem sig_syncAt (s x1 x2) : sig (syncAt s x1 x2) = sig s := by
  unfold syncAt
  repeat' first
    | with_reducible rfl
    | simp only [sig_syncAnswer, sig_syncTake, sig_syncWaitOp]
    | split

theorem sig_cancelAt (s x1 x2) : sig (cancelAt s x1 x2) = sig s := by
  unfold cancelAt
  repeat' first
    | with_reducible rfl
    | simp only [sig_serveWaiters, sig_setGrove, sig_syncAnswer]
    | split

theorem sig_doSyncCancel (x0 s) : sig (doSyncCancel x0 s) = sig s := by
  unfold doSyncCancel
  repeat' first
    | with_reducible rfl
    | simp only [sig_cancelAt, sig_modGrove]
    | exact sig_takeArrived _ _ _ _ _ ‹_›
    | split

theorem sig_returnUnits (s x1 x2) : sig (returnUnits s x1 x2) = sig s := by
  unfold returnUnits
  repeat' first
    | with_reducible rfl
    | simp only [sig_sendFrom]
    | split

theorem sig_syncAnswered (s x1 x2) : sig (syncAnswered s x1 x2) = sig s := by
  unfold syncAnswered
  repeat' first
    | with_reducible rfl
    | simp only [sig_dropSync, sig_modCore, sig_returnUnits, sig_syncDone, sig_syncTimedOut]
    | split

theorem sig_doSyncAns (x0 s) : sig (doSyncAns x0 s) = sig s := by
  unfold doSyncAns
  repeat' first
    | with_reducible rfl
    | simp only [sig_syncAnswered]
    | exact sig_takeArrived _ _ _ _ _ ‹_›
    | split

theorem sig_doSyncRepresent (x0 x1 s) : sig (doSyncRepresent x0 x1 s) = sig s := by
  unfold doSyncRepresent
  repeat' first
    | with_reducible rfl
    | simp only [sig_dropSync, sig_modCore, sig_sendSync, sig_syncDone]
    | split

theorem sig_doSyncWaitTimeout (x0 x1 s) : sig (doSyncWaitTimeout x0 x1 s) = sig s := by
  unfold doSyncWaitTimeout
  repeat' first
    | with_reducible rfl
    | simp only [sig_dropSync, sig_modCore, sig_modCtxOf, sig_sendCancel, sig_syncTimedOut]
    | split

theorem sig_endWaiters (s x1 x2 x3) : sig (endWaiters s x1 x2 x3) = sig s := by
  unfold endWaiters
  repeat' first
    | with_reducible rfl
    | simp only [sig_dropSync, sig_modGrove, sig_syncAnswerBy, sig_syncDone]
    | (refine (sig_foldl ?_ _ _).trans ?_)
    | split
    | intro _

theorem sig_sliceRead (s x1 x2) : sig (sliceRead s x1 x2) = sig s := by
  unfold sliceRead
  repeat' first
    | with_reducible rfl
    | simp only [sig_reply]
    | split

theorem sig_sliceWrite (s x1 x2) : sig (sliceWrite s x1 x2) = sig s := by
  unfold sliceWrite
  repeat' first
    | with_reducible rfl
    | simp only [sig_modCore, sig_reply]
    | split

theorem sig_hbmServe (s x1 x2) : sig (hbmServe s x1 x2) = sig s := by
  unfold hbmServe
  repeat' first
    | with_reducible rfl
    | simp only [sig_hbmStore, sig_reply]
    | split

theorem sig_doHbmAccess (x0 x1 s) : sig (doHbmAccess x0 x1 s) = sig s := by
  unfold doHbmAccess
  repeat' first
    | with_reducible rfl
    | simp only [sig_hbmServe, sig_hbmUpset]
    | exact sig_takeLanding _ _ _ _ _ ‹_›
    | (refine (sig_foldl ?_ _ _).trans ?_)
    | split
    | intro _

theorem sig_hbmTake (s x1 x2) : sig (hbmTake s x1 x2) = sig s := by
  unfold hbmTake
  repeat' first
    | with_reducible rfl
    | simp only [sig_hbmServe]
    | exact sig_takeLanding _ _ _ _ _ ‹_›
    | split

theorem sig_takeAtPos (s dg f p l t) (h : takeAtPos s dg f = some (p, l, t)) : sig t = sig s := by
  unfold takeAtPos at h
  rw [Option.map_eq_some_iff] at h
  obtain ⟨q, hq, h⟩ := h
  injection h with _ h
  injection h with _ h
  subst h
  exact sig_takeArrived _ _ _ _ _ hq

theorem sig_takeReq (s dg f p l t) (h : takeReq s dg f = some (p, l, t)) : sig t = sig s := by
  unfold takeReq at h
  simp only [] at h
  rw [Option.map_eq_some_iff] at h
  obtain ⟨q, hq, h⟩ := h
  injection h with _ h
  injection h with _ h
  subst h
  exact sig_setGrove ..

theorem sig_doRdReq (x0 s) : sig (doRdReq x0 s) = sig s := by
  unfold doRdReq
  repeat' first
    | with_reducible rfl
    | simp only [sig_hbmTake, sig_sliceRead]
    | exact sig_takeReq _ _ _ _ _ _ ‹_›
    | split

theorem sig_doWrReq (x0 s) : sig (doWrReq x0 s) = sig s := by
  unfold doWrReq
  repeat' first
    | with_reducible rfl
    | simp only [sig_hbmTake, sig_sliceWrite]
    | exact sig_takeReq _ _ _ _ _ _ ‹_›
    | split

theorem sig_readDone (s x1 x2) : sig (readDone s x1 x2) = sig s := by
  unfold readDone
  repeat' first
    | with_reducible rfl
    | simp only [sig_haulData, sig_modPart, sig_narrowAnswer, sig_stepPart]
    | split

theorem sig_writeDone (s x1 x2) : sig (writeDone s x1 x2) = sig s := by
  unfold writeDone
  repeat' first
    | with_reducible rfl
    | simp only [sig_narrowAnswer, sig_stepPart]
    | split

theorem sig_doRdRsp (x0 s) : sig (doRdRsp x0 s) = sig s := by
  unfold doRdRsp
  repeat' first
    | with_reducible rfl
    | simp only [sig_readDone]
    | exact sig_takeAtPos _ _ _ _ _ _ ‹_›
    | split

theorem sig_collArrive (s x1) : sig (collArrive s x1) = sig s := by
  unfold collArrive
  repeat' first
    | with_reducible rfl
    | simp only [sig_modGrove, sig_serveWaiters]
    | split

theorem sig_collCount (s x1) : sig (collCount s x1) = sig s := by
  unfold collCount
  repeat' first
    | with_reducible rfl
    | simp only [sig_collArrive, sig_mk, sig_fold]
    | split

theorem sig_mcastAcked (s x1 x2) : sig (mcastAcked s x1 x2) = sig s := by
  unfold mcastAcked
  repeat' first
    | with_reducible rfl
    | simp only [sig_collCount, sig_setGrove]
    | split

theorem sig_doWrAck (x0 s) : sig (doWrAck x0 s) = sig s := by
  unfold doWrAck
  repeat' first
    | with_reducible rfl
    | simp only [sig_mcastAcked, sig_writeDone]
    | exact sig_takeArrived _ _ _ _ _ ‹_›
    | exact sig_takeLanding _ _ _ _ _ ‹_›
    | split

theorem sig_markEntry (s t l cq bad) : sig (markEntry s t l cq bad) = sig t := by
  unfold markEntry
  simp only []
  split
  · exact sig_modCore ..
  · rfl

theorem sig_complAtCore (s x1 x2) : sig (complAtCore s x1 x2) = sig s := by
  unfold complAtCore
  repeat' first
    | with_reducible rfl
    | simp only [sig_dropSent, sig_markEntry, sig_postEntry, sig_postQ63]
    | split

theorem sig_endHostMsg (s x1 x2) : sig (endHostMsg s x1 x2) = sig s := by
  unfold endHostMsg
  repeat' first
    | with_reducible rfl
    | simp only [sig_modFn]
    | (refine (sig_foldl ?_ _ _).trans ?_)
    | split
    | intro _

theorem sig_complAtHost (s x1) : sig (complAtHost s x1) = sig s := by
  unfold complAtHost
  repeat' first
    | with_reducible rfl
    | simp only [sig_endHostMsg]

theorem sig_doCompl (x0 s) : sig (doCompl x0 s) = sig s := by
  unfold doCompl
  repeat' first
    | with_reducible rfl
    | simp only [sig_complAtCore, sig_complAtHost]
    | exact sig_takeLanding _ _ _ _ _ ‹_›
    | exact sig_takeAtPos _ _ _ _ _ _ ‹_›
    | split

theorem sig_hostAccess (s x1) : sig (hostAccess s x1) = sig s := by
  unfold hostAccess
  repeat' first
    | with_reducible rfl
    | simp only [sig_fireWake]
    | split

theorem sig_guardWrite (s x1 x2 x3 x4 x5 x6 x7 b) (h : ∀ u, sig (b u) = sig u) : sig (guardWrite s x1 x2 x3 x4 x5 x6 x7 b) = sig s := by
  unfold guardWrite
  repeat' first
    | with_reducible rfl
    | simp only [sig_hostAccess, sig_reject, h]
    | (refine (sig_foldl ?_ _ _).trans ?_)
    | split

theorem sig_coreWrite (s x1 x2 x3 x4 x5 b) (h : ∀ u, sig (b u) = sig u) : sig (coreWrite s x1 x2 x3 x4 x5 b) = sig s := by
  unfold coreWrite
  repeat' first
    | with_reducible rfl
    | simp only [h]
    | (refine (sig_guardWrite _ _ _ _ _ _ _ _ _ ?_).trans ?_)
    | (refine (sig_foldl ?_ _ _).trans ?_)
    | split
    | intro _

theorem sig_modComb (s x1 x2) : sig (modComb s x1 x2) = sig s := by
  unfold modComb
  repeat' first
    | with_reducible rfl
    | simp only [sig_mk, sig_fold]

theorem sig_warnRing (s x1) : sig (warnRing s x1) = sig s := by
  unfold warnRing
  repeat' first
    | with_reducible rfl
    | simp only [sig_modComb, sig_signalVec]
    | split

theorem sig_settleComb (s x1) : sig (settleComb s x1) = sig s := by
  unfold settleComb
  repeat' first
    | with_reducible rfl
    | simp only [sig_modComb, sig_warnRing]

theorem sig_tellVf (s x1 x2) : sig (tellVf s x1 x2) = sig s := by
  unfold tellVf
  repeat' first
    | with_reducible rfl
    | simp only [sig_modFn]

theorem sig_recordSignals (s x1) : sig (recordSignals s x1) = sig s := by
  unfold recordSignals
  repeat' first
    | with_reducible rfl
    | simp only [sig_signalVec, sig_tellVf]
    | split

theorem sig_loseReport (s x1 x2) : sig (loseReport s x1 x2) = sig s := by
  unfold loseReport
  repeat' first
    | with_reducible rfl
    | simp only [sig_modComb, sig_signalVec]
    | split

theorem sig_openRecord (s x1 x2) : sig (openRecord s x1 x2) = sig s := by
  unfold openRecord
  repeat' first
    | with_reducible rfl
    | simp only [sig_loseReport, sig_modComb, sig_recordSignals, sig_settleComb]
    | split

theorem sig_matchRecord (s x1 x2) : sig (matchRecord s x1 x2) = sig s := by
  unfold matchRecord
  repeat' first
    | with_reducible rfl
    | simp only [sig_modComb]

theorem sig_takeReport (s x1) : sig (takeReport s x1) = sig s := by
  unfold takeReport
  repeat' first
    | with_reducible rfl
    | simp only [sig_matchRecord, sig_openRecord]
    | split

theorem sig_doReport (s) : sig (doReport s) = sig s := by
  unfold doReport
  repeat' first
    | with_reducible rfl
    | simp only [sig_takeReport, sig_mk, sig_fold]
    | split

theorem sig_doRecordClose (x0 x1 s) : sig (doRecordClose x0 x1 s) = sig s := by
  unfold doRecordClose
  repeat' first
    | with_reducible rfl
    | simp only [sig_modComb, sig_settleComb]
    | split

theorem sig_closeAll (s x1) : sig (closeAll s x1) = sig s := by
  unfold closeAll
  repeat' first
    | with_reducible rfl
    | simp only [sig_modComb, sig_settleComb]

theorem sig_advanceHead (s x1 x2) : sig (advanceHead s x1 x2) = sig s := by
  unfold advanceHead
  repeat' first
    | with_reducible rfl
    | simp only [sig_modComb, sig_settleComb]

theorem sig_errWrite (s x1 x2 x3 x4 b) (h : ∀ u, sig (b u) = sig u) : sig (errWrite s x1 x2 x3 x4 b) = sig s := by
  unfold errWrite
  repeat' first
    | with_reducible rfl
    | simp only [h]
    | (refine (sig_guardWrite _ _ _ _ _ _ _ _ _ ?_).trans ?_)
    | (refine (sig_foldl ?_ _ _).trans ?_)
    | split
    | intro _

theorem sig_doErrHeadWrite (x0 x1 s) : sig (doErrHeadWrite x0 x1 s) = sig s := by
  unfold doErrHeadWrite
  repeat' first
    | with_reducible rfl
    | simp only [sig_advanceHead]
    | (refine (sig_errWrite _ _ _ _ _ _ ?_).trans ?_)
    | intro _

theorem sig_answer (s x1 x2 x3 x4) : sig (answer s x1 x2 x3 x4) = sig s := by
  unfold answer
  repeat' first
    | with_reducible rfl
    | simp only [sig_mk, sig_fold]

theorem sig_openToken (s x1 x2) : sig (openToken s x1 x2) = sig s := by
  unfold openToken
  repeat' first
    | with_reducible rfl
    | simp only [sig_mk, sig_fold]

theorem sig_finishToken (s x1 x2 x3) : sig (finishToken s x1 x2 x3) = sig s := by
  unfold finishToken
  repeat' first
    | with_reducible rfl
    | simp only [sig_mk, sig_fold]
    | split

theorem sig_repeatToken (s x1 x2 x3) : sig (repeatToken s x1 x2 x3) = sig s := by
  unfold repeatToken
  repeat' first
    | with_reducible rfl
    | simp only [sig_answer]
    | split

theorem sig_reopenToken (s x1) : sig (reopenToken s x1) = sig s := by
  unfold reopenToken
  repeat' first
    | with_reducible rfl
    | simp only [sig_mk, sig_fold]

theorem sig_withToken (s x1 x2 x3 b) (h : ∀ u, sig (b u) = sig u) : sig (withToken s x1 x2 x3 b) = sig s := by
  unfold withToken
  repeat' first
    | with_reducible rfl
    | simp only [sig_mk, sig_fold, sig_answer, sig_openToken, sig_reopenToken, sig_repeatToken, h]
    | (refine (sig_foldl ?_ _ _).trans ?_)
    | split

theorem sig_withoutToken (s x1 x2 x3 x4) : sig (withoutToken s x1 x2 x3 x4) = sig s := by
  unfold withoutToken
  repeat' first
    | with_reducible rfl
    | simp only [sig_answer]
    | split

theorem sig_doMgmtUndefined (x0 x1 s) : sig (doMgmtUndefined x0 x1 s) = sig s := by
  unfold doMgmtUndefined
  repeat' first
    | with_reducible rfl
    | simp only [sig_answer]
    | split

theorem sig_markLost (s x1 x2) : sig (markLost s x1 x2) = sig s := by
  unfold markLost
  repeat' first
    | with_reducible rfl
    | simp only [sig_modCore, sig_modPart]
    | split

theorem sig_keepAcq (s x1 x2) : sig (keepAcq s x1 x2) = sig s := by
  unfold keepAcq
  repeat' first
    | with_reducible rfl
    | simp only [sig_modCore, sig_sendCancel]
    | split

theorem sig_endOp (s x1 x2 x3) : sig (endOp s x1 x2 x3) = sig s := by
  unfold endOp
  repeat' first
    | with_reducible rfl
    | simp only [sig_dropSent, sig_dropSync, sig_keepAcq, sig_narrowAnswer, sig_postEntry, sig_stepPart, sig_syncDone]
    | split

theorem sig_reportLost (s x1 x2) : sig (reportLost s x1 x2) = sig s := by
  unfold reportLost
  repeat' first
    | with_reducible rfl
    | simp only [sig_raise]

theorem sig_doRemoteTmoExpiry (x0 x1 s) : sig (doRemoteTmoExpiry x0 x1 s) = sig s := by
  unfold doRemoteTmoExpiry
  repeat' first
    | with_reducible rfl
    | simp only [sig_markLost]
    | split

theorem sig_doRemoteLostComplete (x0 x1 s) : sig (doRemoteLostComplete x0 x1 s) = sig s := by
  unfold doRemoteLostComplete
  repeat' first
    | with_reducible rfl
    | simp only [sig_endOp, sig_reportLost]
    | split

theorem sig_countStray (s x1) : sig (countStray s x1) = sig s := by
  unfold countStray
  repeat' first
    | with_reducible rfl
    | simp only [sig_raise, sig_mk, sig_fold]

theorem sig_loseRoutes (s) : sig (loseRoutes s) = sig s := by
  unfold loseRoutes
  repeat' first
    | with_reducible rfl
    | simp only [sig_countStray, sig_mk, sig_fold]
    | (refine (sig_foldl ?_ _ _).trans ?_)
    | intro _

theorem sig_armRed (s x1 x2) : sig (armRed s x1 x2).1 = sig s := by
  unfold armRed
  repeat' first
    | with_reducible rfl
    | simp only [sig_mk, sig_fold]
    | (refine (sig_foldl ?_ _ _).trans ?_)
    | split

theorem sig_doReductionArm (x0 s) : sig (doReductionArm x0 s) = sig s := by
  unfold doReductionArm
  repeat' first
    | with_reducible rfl
    | simp only [sig_armRed, sig_mk, sig_fold]

theorem sig_setRed (s x1) : sig (setRed s x1) = sig s := by
  unfold setRed
  repeat' first
    | with_reducible rfl
    | simp only [sig_mk, sig_fold]

theorem sig_sendChunk (s x1 x2 x3 x4) : sig (sendChunk s x1 x2 x3 x4) = sig s := by
  unfold sendChunk
  repeat' first
    | with_reducible rfl
    | simp only [sig_sendUnit, sig_setRed]

theorem sig_sendMember (s x1 x2) : sig (sendMember s x1 x2) = sig s := by
  unfold sendMember
  repeat' first
    | with_reducible rfl
    | simp only [sig_sendChunk]
    | split

theorem sig_giveCredit (s x1 x2 x3) : sig (giveCredit s x1 x2 x3) = sig s := by
  unfold giveCredit
  repeat' first
    | with_reducible rfl
    | simp only [sig_sendUnit]

theorem sig_sendSum (s x1 x2) : sig (sendSum s x1 x2) = sig s := by
  unfold sendSum
  repeat' first
    | with_reducible rfl
    | simp only [sig_giveCredit, sig_sendChunk]
    | split

theorem sig_advanceAnchor (s x1) : sig (advanceAnchor s x1) = sig s := by
  unfold advanceAnchor
  repeat' first
    | with_reducible rfl
    | simp only [sig_modGrove, sig_serveWaiters]

theorem sig_sendResult (s x1 x2) : sig (sendResult s x1 x2) = sig s := by
  unfold sendResult
  repeat' first
    | with_reducible rfl
    | simp only [sig_sendFar]
    | (refine (sig_foldl ?_ _ _).trans ?_)
    | split
    | intro _

theorem sig_collReady (s x1) : sig (collReady s x1) = sig s := by
  unfold collReady
  repeat' first
    | with_reducible rfl
    | simp only [sig_sendResult, sig_mk, sig_fold]
    | split

theorem sig_redFinish (s x1) : sig (redFinish s x1) = sig s := by
  unfold redFinish
  repeat' first
    | with_reducible rfl
    | simp only [sig_advanceAnchor, sig_collReady, sig_modCore, sig_setRed]
    | (refine (sig_foldl ?_ _ _).trans ?_)
    | split

theorem sig_takeInput (s x1 x2 x3 x4 x5) : sig (takeInput s x1 x2 x3 x4 x5) = sig s := by
  unfold takeInput
  repeat' first
    | with_reducible rfl
    | simp only [sig_giveCredit, sig_setRed]
    | split

theorem sig_takeHeld (n s name v i) : sig (takeHeld n s name v i) = sig s := by
  induction n generalizing s with
  | zero => rw [takeHeld]
  | succ n ih =>
    rw [takeHeld]
    split
    · rfl
    simp only []
    split
    · rfl
    split
    · rfl
    · rw [ih, sig_takeInput, sig_setRed]

theorem sig_closeSum (s x1 x2 x3) : sig (closeSum s x1 x2 x3) = sig s := by
  unfold closeSum
  repeat' first
    | with_reducible rfl
    | simp only [sig_giveCredit, sig_redFinish, sig_sendSum, sig_setRed]
    | split

theorem sig_doRedPacket (x0 s) : sig (doRedPacket x0 s) = sig s := by
  unfold doRedPacket
  repeat' first
    | with_reducible rfl
    | simp only [sig_closeSum, sig_setRed, sig_takeHeld, sig_takeInput]
    | exact sig_takeArrived _ _ _ _ _ ‹_›
    | split

theorem sig_doRedCredit (x0 s) : sig (doRedCredit x0 s) = sig s := by
  unfold doRedCredit
  repeat' first
    | with_reducible rfl
    | simp only [sig_sendMember, sig_sendSum, sig_setRed]
    | exact sig_takeArrived _ _ _ _ _ ‹_›
    | split

theorem sig_countFast (s x1) : sig (countFast s x1) = sig s := by
  unfold countFast
  repeat' first
    | with_reducible rfl
    | simp only [sig_mk, sig_fold]
    | split

theorem sig_absorb (s x1 x2 x3 x4) : sig (absorb s x1 x2 x3 x4) = sig s := by
  unfold absorb
  repeat' first
    | with_reducible rfl
    | simp only [sig_countFast, sig_sendMember, sig_sendUnit, sig_setRed, sig_syncAnswer]
    | split

theorem sig_anchorTake (s x1 x2) : sig (anchorTake s x1 x2) = sig s := by
  unfold anchorTake
  repeat' first
    | with_reducible rfl
    | simp only [sig_redFinish, sig_setRed, sig_syncAt]
    | split

theorem sig_syncOpAt (s x1 x2) : sig (syncOpAt s x1 x2) = sig s := by
  unfold syncOpAt
  repeat' first
    | with_reducible rfl
    | simp only [sig_absorb, sig_anchorTake, sig_syncAnswer, sig_syncAt]
    | split

theorem sig_doSyncOp (x0 s) : sig (doSyncOp x0 s) = sig s := by
  unfold doSyncOp
  repeat' first
    | with_reducible rfl
    | simp only [sig_modGrove, sig_syncOpAt]
    | exact sig_takeArrived _ _ _ _ _ ‹_›
    | split

theorem sig_disarm (s x1) : sig (disarm s x1) = sig s := by
  unfold disarm
  repeat' first
    | with_reducible rfl
    | simp only [sig_mk, sig_fold]

theorem sig_dropRedPkts (s x1) : sig (dropRedPkts s x1) = sig s := by
  unfold dropRedPkts
  repeat' first
    | with_reducible rfl
    | simp only [sig_mk, sig_fold]

theorem sig_abortRed (s x1) : sig (abortRed s x1) = sig s := by
  unfold abortRed
  repeat' first
    | with_reducible rfl
    | simp only [sig_advanceAnchor, sig_disarm, sig_dropRedPkts, sig_modCore, sig_modGrove]
    | split

theorem sig_redVacant (s x1) : sig (redVacant s x1) = sig s := by
  unfold redVacant
  repeat' first
    | with_reducible rfl
    | simp only [sig_abortRed]
    | (refine (sig_foldl ?_ _ _).trans ?_)
    | intro _

theorem sig_restartRed (s x1) : sig (restartRed s x1) = sig s := by
  unfold restartRed
  repeat' first
    | with_reducible rfl
    | simp only [sig_dropRedPkts, sig_modGrove, sig_sendMember, sig_setRed]
    | (refine (sig_foldl ?_ _ _).trans ?_)
    | intro _

theorem sig_redRouterLost (s x1 x2) : sig (redRouterLost s x1 x2) = sig s := by
  unfold redRouterLost
  repeat' first
    | with_reducible rfl
    | simp only [sig_restartRed]
    | (refine (sig_foldl ?_ _ _).trans ?_)
    | intro _

theorem sig_skidReport (s x1 x2 x3) : sig (skidReport s x1 x2 x3) = sig s := by
  unfold skidReport
  repeat' first
    | with_reducible rfl
    | simp only [sig_raise]
    | split

theorem sig_doChannelWordDeliver (x0 x1 x2 s) : sig (doChannelWordDeliver x0 x1 x2 s) = sig s := by
  unfold doChannelWordDeliver
  repeat' first
    | with_reducible rfl
    | simp only [sig_modCore, sig_skidReport]
    | split

theorem sig_coreSet (s x1 x2 x3 x4 x5 b) (h : ∀ u, sig (b u) = sig u) : sig (coreSet s x1 x2 x3 x4 x5 b) = sig s :=
  sig_coreWrite _ _ _ _ _ _ _ h

theorem sig_doLinkRegisterWrite (x0 x1 x2 x3 s) : sig (doLinkRegisterWrite x0 x1 x2 x3 s) = sig s := by
  unfold doLinkRegisterWrite
  repeat' first
    | with_reducible rfl
    | simp only [sig_modCore]
    | (refine (sig_coreSet _ _ _ _ _ _ _ ?_).trans ?_)
    | split
    | intro _

theorem sig_breakChannel (s x1 x2) : sig (breakChannel s x1 x2) = sig s := by
  unfold breakChannel
  repeat' first
    | with_reducible rfl
    | simp only [sig_modCore, sig_raise]
    | split

theorem sig_breakChannels (s x1 x2) : sig (breakChannels s x1 x2) = sig s := by
  unfold breakChannels
  repeat' first
    | with_reducible rfl
    | simp only [sig_breakChannel]
    | (refine (sig_foldl ?_ _ _).trans ?_)
    | split
    | intro _

theorem sig_deliver (s x1 x2 x3) : sig (deliver s x1 x2 x3) = sig s := by
  unfold deliver
  repeat' first
    | with_reducible rfl
    | simp only [sig_modGrove, sig_pushLanding]
    | split

theorem sig_linkCheck (s x1 x2) : sig (linkCheck s x1 x2) = sig s := by
  unfold linkCheck
  repeat' first
    | with_reducible rfl
    | simp only [sig_modGrove, sig_raise, sig_raiseEv]
    | split

theorem sig_dropKind (s x1 x2) : sig (dropKind s x1 x2) = sig s := by
  unfold dropKind
  repeat' first
    | with_reducible rfl
    | simp only [sig_modGrove, sig_raise]

theorem sig_linkChecks (s x1 x2) : sig (linkChecks s x1 x2) = sig s := by
  unfold linkChecks
  repeat' first
    | with_reducible rfl
    | simp only [sig_linkCheck]
    | (refine (sig_foldl ?_ _ _).trans ?_)
    | split
    | intro _

theorem sig_doPacketForward (x0 x1 x2 s) : sig (doPacketForward x0 x1 x2 s) = sig s := by
  unfold doPacketForward
  repeat' first
    | with_reducible rfl
    | simp only [sig_deliver, sig_dropKind, sig_linkChecks, sig_setGrove]
    | (refine (sig_foldl ?_ _ _).trans ?_)
    | split

theorem sig_mcastAck (s x1 x2 x3 x4) : sig (mcastAck s x1 x2 x3 x4) = sig s := by
  unfold mcastAck
  repeat' first
    | with_reducible rfl
    | simp only [sig_reply]
    | split

theorem sig_mcastLocal (s x1 x2) : sig (mcastLocal s x1 x2) = sig s := by
  unfold mcastLocal
  repeat' first
    | with_reducible rfl
    | simp only [sig_mcastAck, sig_modCore]
    | split

theorem sig_doMcastWr (x0 s) : sig (doMcastWr x0 s) = sig s := by
  unfold doMcastWr
  repeat' first
    | with_reducible rfl
    | simp only [sig_mcastAck, sig_mcastLocal, sig_modGrove]
    | (refine (sig_foldl ?_ _ _).trans ?_)
    | split
    | intro _

theorem sig_doMgt (x0 s) : sig (doMgt x0 s) = sig s := by
  unfold doMgt
  repeat' first
    | with_reducible rfl
    | simp only [sig_mk, sig_fold]
    | exact sig_takeArrived _ _ _ _ _ ‹_›
    | exact sig_takeLanding _ _ _ _ _ ‹_›
    | split

theorem sig_enterBlaze (s x1) : sig (enterBlaze s x1) = sig s := by
  unfold enterBlaze
  repeat' first
    | with_reducible rfl
    | simp only [sig_mk, sig_fold]
    | split

theorem sig_unitCancel (s x1 x2) : sig (unitCancel s x1 x2) = sig s := by
  unfold unitCancel
  repeat' first
    | with_reducible rfl
    | simp only [sig_inject]
    | split

theorem sig_cancelAll (s x1 x2) : sig (cancelAll s x1 x2) = sig s := by
  unfold cancelAll
  repeat' first
    | with_reducible rfl
    | simp only [sig_modCore, sig_sendCancel, sig_unitCancel]
    | (refine (sig_foldl ?_ _ _).trans ?_)
    | split
    | intro _

theorem sig_tellLost (x0 s x2) : sig (tellLost x0 s x2) = sig s := by
  unfold tellLost
  repeat' first
    | with_reducible rfl
    | simp only [sig_programFault, sig_raise]
    | split

theorem sig_replayCore (s x1 x2 x3) : sig (replayCore s x1 x2 x3) = sig s := by
  unfold replayCore
  repeat' first
    | with_reducible rfl
    | simp only [sig_cancelAll, sig_modCore, sig_tellLost]
    | (refine (sig_foldl ?_ _ _).trans ?_)
    | intro _

theorem sig_replaySame (s x1) : sig (replaySame s x1) = sig s := by
  unfold replaySame
  repeat' first
    | with_reducible rfl
    | simp only [sig_raise, sig_replayCore]
    | split

theorem sig_discardCore (s x1 x2) : sig (discardCore s x1 x2) = sig s := by
  unfold discardCore
  repeat' first
    | with_reducible rfl
    | simp only [sig_cancelAll, sig_modCore]

theorem sig_vacate (s x1 x2) : sig (vacate s x1 x2) = sig s := by
  unfold vacate
  repeat' first
    | with_reducible rfl
    | simp only [sig_bounce, sig_breakChannels, sig_discardCore, sig_modGrove, sig_raise, sig_redVacant]
    | (refine (sig_foldl ?_ _ _).trans ?_)
    | split
    | intro _

theorem sig_vacatePos (s x1 x2) : sig (vacatePos s x1 x2) = sig s := by
  unfold vacatePos
  repeat' first
    | with_reducible rfl
    | simp only [sig_remap, sig_vacate]

theorem sig_dropSweep (s x1) : sig (dropSweep s x1) = sig s := by
  unfold dropSweep
  repeat' first
    | with_reducible rfl
    | simp only [sig_modCore, sig_mk, sig_fold]
    | split

theorem sig_dropSweeps (s x1 x2) : sig (dropSweeps s x1 x2) = sig s := by
  unfold dropSweeps
  repeat' first
    | with_reducible rfl
    | simp only [sig_dropSweep]
    | (refine (sig_foldl ?_ _ _).trans ?_)
    | split
    | intro _

theorem sig_restGrove (s x1) : sig (restGrove s x1) = sig s := by
  unfold restGrove
  repeat' first
    | with_reducible rfl
    | simp only [sig_mk, sig_fold]

theorem sig_reseat (s x1 x2 x3) : sig (reseat s x1 x2 x3) = sig s := by
  unfold reseat
  repeat' first
    | with_reducible rfl
    | simp only [sig_dropSweeps, sig_raise, sig_replayCore, sig_restGrove, sig_setGrove, sig_vacate]
    | split

theorem sig_markBlazed (x0 s x2) : sig (markBlazed x0 s x2) = sig s := by
  unfold markBlazed
  repeat' first
    | with_reducible rfl
    | simp only [sig_enterBlaze, sig_modSite]

theorem sig_blazeSites (s x1 x2) : sig (blazeSites s x1 x2) = sig s := by
  unfold blazeSites
  repeat' first
    | with_reducible rfl
    | simp only [sig_markBlazed, sig_remap, sig_reseat]
    | (refine (sig_foldl ?_ _ _).trans ?_)
    | split
    | intro _

theorem sig_blazeSite (s x1 x2) : sig (blazeSite s x1 x2) = sig s := by
  unfold blazeSite
  repeat' first
    | with_reducible rfl
    | simp only [sig_blazeSites]

theorem sig_spendSites (s x1 x2) : sig (spendSites s x1 x2) = sig s := by
  unfold spendSites
  repeat' first
    | with_reducible rfl
    | simp only [sig_blazeSites, sig_raise]
    | (refine (sig_foldl ?_ _ _).trans ?_)
    | split
    | intro _

theorem sig_spendSite (s x1 x2) : sig (spendSite s x1 x2) = sig s := by
  unfold spendSite
  repeat' first
    | with_reducible rfl
    | simp only [sig_spendSites]

theorem sig_substitute (s x1 x2 x3 x4) : sig (substitute s x1 x2 x3 x4) = sig s := by
  unfold substitute
  repeat' first
    | with_reducible rfl
    | simp only [sig_modSite, sig_raise, sig_replaySame, sig_spendSite]
    | split

theorem sig_substColumn (s x1) : sig (substColumn s x1) = sig s := by
  unfold substColumn
  repeat' first
    | with_reducible rfl
    | simp only [sig_substitute]

theorem sig_substLane (s x1) : sig (substLane s x1) = sig s := by
  unfold substLane
  repeat' first
    | with_reducible rfl
    | simp only [sig_substitute]

theorem sig_spareRow (s x1 x2 x3) : sig (spareRow s x1 x2 x3) = sig s := by
  unfold spareRow
  repeat' first
    | with_reducible rfl
    | simp only [sig_forgetEv, sig_modCore, sig_raise]
    | split

theorem sig_markLostSlice (s x1 x2) : sig (markLostSlice s x1 x2) = sig s := by
  unfold markLostSlice
  repeat' first
    | with_reducible rfl
    | simp only [sig_enterBlaze, sig_modGrove]

theorem sig_loseSlice (s x1) : sig (loseSlice s x1) = sig s := by
  unfold loseSlice
  repeat' first
    | with_reducible rfl
    | simp only [sig_markLostSlice, sig_vacatePos]
    | split

theorem sig_rebuildDetours (s) : sig (rebuildDetours s) = sig s := by
  unfold rebuildDetours
  repeat' first
    | with_reducible rfl
    | simp only [sig_modGrove]
    | (refine (sig_foldl ?_ _ _).trans ?_)
    | split
    | intro _

theorem sig_dropPkts (s x1) : sig (dropPkts s x1) = sig s := by
  unfold dropPkts
  repeat' first
    | with_reducible rfl
    | simp only [sig_modGrove]
    | (refine (sig_foldl ?_ _ _).trans ?_)
    | split
    | intro _

theorem sig_routerAway (s x1 x2 b) (h : ∀ u, sig (b u) = sig u) : sig (routerAway s x1 x2 b) = sig s := by
  unfold routerAway
  repeat' first
    | with_reducible rfl
    | simp only [sig_mk, sig_fold, sig_dropPkts, sig_landAs, sig_modGrove, sig_rebuildDetours, sig_redRouterLost, sig_remap, h]
    | (refine (sig_foldl ?_ _ _).trans ?_)
    | split
    | intro _

theorem sig_routerBack (s x1 x2) : sig (routerBack s x1 x2) = sig s := by
  unfold routerBack
  repeat' first
    | with_reducible rfl
    | simp only [sig_modGrove, sig_rebuildDetours, sig_remap]
    | (refine (sig_foldl ?_ _ _).trans ?_)
    | intro _

theorem sig_redRootLost (s x1) : sig (redRootLost s x1) = sig s := by
  unfold redRootLost
  repeat' first
    | with_reducible rfl
    | simp only [sig_disarm, sig_dropRedPkts]
    | (refine (sig_foldl ?_ _ _).trans ?_)
    | split
    | intro _

theorem sig_blazeRouter (s x1 x2) : sig (blazeRouter s x1 x2) = sig s := by
  unfold blazeRouter
  repeat' first
    | with_reducible rfl
    | simp only [sig_breakChannels, sig_discardCore, sig_endWaiters, sig_enterBlaze, sig_raise, sig_redRootLost, sig_redVacant]
    | (refine (sig_routerAway _ _ _ _ ?_).trans ?_)
    | (refine (sig_foldl ?_ _ _).trans ?_)
    | split
    | intro _

theorem sig_badReducer (s x1) : sig (badReducer s x1) = sig s := by
  unfold badReducer
  repeat' first
    | with_reducible rfl
    | simp only [sig_modSite, sig_raise]
    | split

theorem sig_markServed (s x1 x2 x3) : sig (markServed s x1 x2 x3) = sig s := by
  unfold markServed
  repeat' first
    | with_reducible rfl
    | simp only [sig_modComb, sig_mk, sig_fold]

theorem sig_actSite (s x1) : sig (actSite s x1).1 = sig s := by
  unfold actSite
  split <;> simp only [sig_blazeSite, sig_substColumn, sig_substLane]

theorem sig_serveEarlier (s x1) : sig (serveEarlier s x1) = sig s := by
  unfold serveEarlier
  exact sig_foldl (fun u f => by rw [sig_markServed, sig_actSite]) _ _

theorem sig_blazeUnit (s x1) : sig (blazeUnit s x1) = sig s := by
  unfold blazeUnit
  repeat' first
    | with_reducible rfl
    | simp only [sig_blazeRouter, sig_serveEarlier, sig_spendSite]
    | split

theorem sig_countRun (s x1) : sig (countRun s x1) = sig s := by
  unfold countRun
  repeat' first
    | with_reducible rfl
    | simp only [sig_modGrove, sig_mk, sig_fold]

theorem sig_countFail (s x1) : sig (countFail s x1) = sig s := by
  unfold countFail
  repeat' first
    | with_reducible rfl
    | simp only [sig_modGrove, sig_mk, sig_fold]

theorem sig_countSound (s x1) : sig (countSound s x1) = sig s := by
  unfold countSound
  repeat' first
    | with_reducible rfl
    | simp only [sig_modGrove, sig_mk, sig_fold]

theorem sig_countTwin (s x1) : sig (countTwin s x1) = sig s := by
  unfold countTwin
  repeat' first
    | with_reducible rfl
    | simp only [sig_modGrove, sig_mk, sig_fold]

theorem sig_kernReport (s x1 x2 x3) : sig (kernReport s x1 x2 x3) = sig s := by
  unfold kernReport
  repeat' first
    | with_reducible rfl
    | simp only [sig_countFail, sig_raise]

theorem sig_countRuns (s x1) : sig (countRuns s x1) = sig s := by
  unfold countRuns
  repeat' first
    | with_reducible rfl
    | simp only [sig_countRun]
    | (refine (sig_foldl ?_ _ _).trans ?_)
    | intro _

theorem sig_actKernel (s x1) : sig (actKernel s x1) = sig s := by
  unfold actKernel
  repeat' first
    | with_reducible rfl
    | simp only [sig_badReducer, sig_blazeUnit, sig_loseSlice, sig_substColumn, sig_substLane]
    | split

theorem sig_actKernels (s x1) : sig (actKernels s x1) = sig s := by
  unfold actKernels
  repeat' first
    | with_reducible rfl
    | simp only [sig_actKernel, sig_serveEarlier]
    | (refine (sig_foldl ?_ _ _).trans ?_)
    | split
    | intro _

theorem sig_kernAcc (x0 s x2) : sig (kernAcc x0 s x2) = sig s := by
  unfold kernAcc
  repeat' first
    | with_reducible rfl
    | simp only [sig_raise, sig_raiseEv]
    | split

theorem sig_runKernel (s x1) : sig (runKernel s x1) = sig s := by
  unfold runKernel
  repeat' first
    | with_reducible rfl
    | simp only [sig_kernAcc, sig_kernReport]
    | (refine (sig_foldl ?_ _ _).trans ?_)
    | split
    | intro _

theorem sig_testUnits (s x1 x2) : sig (testUnits s x1 x2).1 = sig s := by
  unfold testUnits
  simp only [sig_actKernels]
  exact (sig_foldl sig_runKernel _ _).trans (sig_countRuns ..)

theorem sig_sweep (s x1 x2) : sig (sweep s x1 x2) = sig s := sig_testUnits ..

theorem sig_zeroWindow (s x1) : sig (zeroWindow s x1) = sig s := by
  unfold zeroWindow
  repeat' first
    | with_reducible rfl
    | simp only [sig_modCore]
    | split

theorem sig_releasePos (s x1) : sig (releasePos s x1) = sig s := by
  unfold releasePos
  repeat' first
    | with_reducible rfl
    | simp only [sig_modCore]
    | split

theorem sig_releaseHold (s x1) : sig (releaseHold s x1) = sig s := by
  unfold releaseHold
  repeat' first
    | with_reducible rfl
    | simp only [sig_releasePos, sig_mk, sig_fold]
    | split

theorem sig_endKak (s x1 x2) : sig (endKak s x1 x2) = sig s := by
  unfold endKak
  repeat' first
    | with_reducible rfl
    | simp only [sig_finishToken]

theorem sig_heldRun (r ls h s) : sig (heldRun r ls h s) = sig s := by
  induction ls generalizing h s with
  | nil => rw [heldRun, sig_endKak]
  | cons l rest ih =>
    rw [heldRun]
    split
    · exact ih ..
    · simp only []
      split
      · rw [ih, sig_releasePos, sig_testUnits, sig_modCore]
      · rw [sig_mk, sig_fold, sig_modCore]

theorem sig_endHeld (s x1 x2) : sig (endHeld s x1 x2) = sig s := by
  unfold endHeld
  rw [sig_heldRun, sig_mk, sig_fold]

theorem sig_endOwed (s x1 x2) : sig (endOwed s x1 x2) = sig s := by
  unfold endOwed
  repeat' first
    | with_reducible rfl
    | simp only [sig_sweep, sig_mk, sig_fold]

theorem sig_beginSweep (s x1 x2) : sig (beginSweep s x1 x2) = sig s := by
  unfold beginSweep
  repeat' first
    | with_reducible rfl
    | simp only [sig_modCore, sig_mk, sig_fold]
    | split

theorem sig_doKakSweep (x0 x1 s) : sig (doKakSweep x0 x1 s) = sig s := by
  unfold doKakSweep
  repeat' first
    | with_reducible rfl
    | simp only [sig_beginSweep, sig_endHeld, sig_endOwed]
    | split

theorem sig_doCheckingHoldTimeout (x0 s) : sig (doCheckingHoldTimeout x0 s) = sig s := by
  unfold doCheckingHoldTimeout
  repeat' first
    | with_reducible rfl
    | simp only [sig_finishToken, sig_releaseHold]
    | split

theorem sig_actSegment (s x1) : sig (actSegment s x1) = sig s := by
  unfold actSegment
  repeat' first
    | with_reducible rfl
    | simp only [sig_blazeRouter, sig_blazeUnit, sig_loseSlice, sig_raise]
    | split

theorem sig_freshSite (s x1) : sig (freshSite s x1) = sig s := by
  unfold freshSite
  repeat' first
    | with_reducible rfl
    | simp only [sig_modCore]

theorem sig_beginSound (s x1) : sig (beginSound s x1) = sig s := by
  unfold beginSound
  repeat' first
    | with_reducible rfl
    | simp only [sig_modCore, sig_mk, sig_fold]
    | (refine (sig_routerAway _ _ _ _ ?_).trans ?_)
    | split
    | intro _

theorem sig_restorePos (s x1) : sig (restorePos s x1) = sig s := by
  unfold restorePos
  repeat' first
    | with_reducible rfl
    | simp only [sig_modCore]
    | split

theorem sig_afterSound (s x1) : sig (afterSound s x1) = sig s := by
  unfold afterSound
  repeat' first
    | with_reducible rfl
    | simp only [sig_freshSite, sig_modCore, sig_restorePos, sig_routerBack]
    | (refine (sig_foldl ?_ _ _).trans ?_)
    | split
    | intro _

theorem sig_endSound (s x1) : sig (endSound s x1) = sig s := by
  unfold endSound
  repeat' first
    | with_reducible rfl
    | simp only [sig_actSegment, sig_afterSound, sig_countSound, sig_finishToken, sig_mk, sig_fold]
    | (refine (sig_foldl ?_ _ _).trans ?_)
    | split
    | intro _

theorem sig_startSound (s x1) : sig (startSound s x1) = sig s := by
  unfold startSound
  repeat' first
    | with_reducible rfl
    | simp only [sig_beginSound, sig_mk, sig_fold]
    | split

theorem sig_soundStep (s) : sig (soundStep s) = sig s := by
  unfold soundStep
  repeat' first
    | with_reducible rfl
    | simp only [sig_beginSound, sig_endSound, sig_mk, sig_fold]
    | (refine (sig_foldl ?_ _ _).trans ?_)
    | split
    | intro _

theorem sig_runCheck (s x1) : sig (runCheck s x1) = sig s := by
  unfold runCheck
  repeat' first
    | with_reducible rfl
    | simp only [sig_finishToken, sig_heldRun, sig_startSound, sig_testUnits, sig_mk, sig_fold]
    | split

theorem sig_doMgmtCheck (x0 x1 x2 s) : sig (doMgmtCheck x0 x1 x2 s) = sig s := by
  unfold doMgmtCheck
  repeat' first
    | with_reducible rfl
    | simp only [sig_runCheck]
    | (refine (sig_withToken _ _ _ _ _ ?_).trans ?_)
    | intro _

theorem sig_withhold (s x1 x2) : sig (withhold s x1 x2) = sig s := by
  unfold withhold
  repeat' first
    | with_reducible rfl
    | simp only [sig_countTwin, sig_modCore, sig_raise]

theorem sig_oddTwin (s x1 x2) : sig (oddTwin s x1 x2) = sig s := by
  unfold oddTwin
  repeat' first
    | with_reducible rfl
    | simp only [sig_blazeUnit, sig_replaySame, sig_mk, sig_fold]
    | split

theorem sig_doTwinMismatch (x0 x1 s) : sig (doTwinMismatch x0 x1 s) = sig s := by
  unfold doTwinMismatch
  repeat' first
    | with_reducible rfl
    | simp only [sig_badReducer, sig_countRuns, sig_oddTwin, sig_replaySame, sig_runKernel, sig_serveEarlier, sig_spendSites, sig_withhold]
    | (refine (sig_foldl ?_ _ _).trans ?_)
    | split
    | intro _

theorem sig_topoReport (s x1) : sig (topoReport s x1) = sig s := by
  unfold topoReport
  repeat' first
    | with_reducible rfl
    | simp only [sig_raise]

theorem sig_isolateReport (s x1) : sig (isolateReport s x1) = sig s := by
  unfold isolateReport
  repeat' first
    | with_reducible rfl
    | simp only [sig_raise]

theorem sig_checkPort (s x1) : sig (checkPort s x1) = sig s := by
  unfold checkPort
  repeat' first
    | with_reducible rfl
    | simp only [sig_isolateReport, sig_topoReport, sig_mk, sig_fold]
    | split

theorem sig_checkTopo (s) : sig (checkTopo s) = sig s := by
  unfold checkTopo
  repeat' first
    | with_reducible rfl
    | simp only [sig_checkPort]
    | (refine (sig_foldl ?_ _ _).trans ?_)
    | split
    | intro _

theorem sig_isolatePort (s x1) : sig (isolatePort s x1) = sig s := by
  unfold isolatePort
  repeat' first
    | with_reducible rfl
    | simp only [sig_isolateReport, sig_mk, sig_fold]

theorem sig_sendCtls (s x1) : sig (sendCtls s x1) = sig s := by
  unfold sendCtls
  repeat' first
    | with_reducible rfl
    | simp only [sig_modPort]

theorem sig_sendAck (s x1) : sig (sendAck s x1) = sig s := by
  unfold sendAck
  repeat' first
    | with_reducible rfl
    | simp only [sig_modPort, sig_sendCtls]

theorem sig_routeReport (s x1 x2) : sig (routeReport s x1 x2) = sig s := by
  unfold routeReport
  repeat' first
    | with_reducible rfl
    | simp only [sig_raise]

theorem sig_discardAged (s x1) : sig (discardAged s x1) = sig s := by
  unfold discardAged
  repeat' first
    | with_reducible rfl
    | simp only [sig_routeReport, sig_mk, sig_fold]

theorem sig_countNoRoute (s x1) : sig (countNoRoute s x1) = sig s := by
  unfold countNoRoute
  repeat' first
    | with_reducible rfl
    | simp only [sig_mk, sig_fold]

theorem sig_modShaper (s x1 x2 x3) : sig (modShaper s x1 x2 x3) = sig s := by
  unfold modShaper
  repeat' first
    | with_reducible rfl
    | simp only [sig_mk, sig_fold]

theorem sig_toEgress (s x1 x2) : sig (toEgress s x1 x2) = sig s := by
  unfold toEgress
  repeat' first
    | with_reducible rfl
    | simp only [sig_modShaper, sig_mk, sig_fold]
    | split

theorem sig_pump (s x1) : sig (pump s x1) = sig s := by
  unfold pump
  repeat' first
    | with_reducible rfl
    | simp only [sig_discardAged, sig_modPort, sig_mk, sig_fold]
    | (refine (sig_foldl ?_ _ _).trans ?_)
    | split
    | intro _

theorem sig_injectPort (s x1 x2 x3) : sig (injectPort s x1 x2 x3) = sig s := by
  unfold injectPort
  repeat' first
    | with_reducible rfl
    | simp only [sig_inject]

theorem sig_refuseFar (s x1 x2) : sig (refuseFar s x1 x2) = sig s := by
  unfold refuseFar
  repeat' first
    | with_reducible rfl
    | simp only [sig_bounce, sig_reply]
    | split

theorem sig_deliverGrove (s x1 x2 x3) : sig (deliverGrove s x1 x2 x3) = sig s := by
  unfold deliverGrove
  repeat' first
    | with_reducible rfl
    | simp only [sig_injectPort, sig_refuseFar]
    | split

theorem sig_noteSeq (s x1) : sig (noteSeq s x1) = sig s := by
  unfold noteSeq
  repeat' first
    | with_reducible rfl
    | simp only [sig_mk, sig_fold]
    | split

theorem sig_badKind (s x1) : sig (badKind s x1) = sig s := by
  unfold badKind
  repeat' first
    | with_reducible rfl
    | simp only [sig_raise]

theorem sig_deliverLocal (s x1 x2) : sig (deliverLocal s x1 x2) = sig s := by
  unfold deliverLocal
  repeat' first
    | with_reducible rfl
    | simp only [sig_badKind, sig_deliverGrove, sig_injectPort, sig_noteSeq, sig_pushLanding]
    | split

theorem sig_switchMcast (s x1 x2) : sig (switchMcast s x1 x2) = sig s := by
  unfold switchMcast
  repeat' first
    | with_reducible rfl
    | simp only [sig_countNoRoute, sig_deliverLocal, sig_toEgress]
    | (refine (sig_foldl ?_ _ _).trans ?_)
    | split
    | intro _

theorem sig_storePkt (s p t) (h : storePkt s p = some t) : sig t = sig s := by
  unfold storePkt at h
  split at h
  · injection h with h; subst h; simp only [sig_mk, sig_fold]
  · cases h

theorem sig_dropRouteless (s x1) : sig (dropRouteless s x1) = sig s := by
  unfold dropRouteless
  repeat' first
    | with_reducible rfl
    | simp only [sig_countNoRoute, sig_routeReport]
    | split

theorem sig_switchPkt (s k p t) (h : switchPkt s k p = some t) : sig t = sig s := by
  unfold switchPkt at h
  repeat' split at h
  all_goals first
    | cases h; done
    | exact sig_storePkt _ _ _ h
    | (injection h with h; subst h
       simp only [sig_discardAged, sig_dropRouteless, sig_switchMcast, sig_deliverLocal, sig_pump, sig_toEgress])

theorem sig_switchFlow (s k p t) (h : switchFlow s k p = some t) : sig t = sig s := by
  unfold switchFlow at h
  split at h
  · exact sig_storePkt _ _ _ h
  split at h
  · cases h
  · exact sig_switchPkt _ _ _ _ h

theorem sig_freeBuffer (s x1 x2) : sig (freeBuffer s x1 x2) = sig s := by
  unfold freeBuffer
  repeat' first
    | with_reducible rfl
    | simp only [sig_modPort, sig_sendAck]

theorem sig_switchFirst (s : State) (take : FPkt → State) (k b r p t) (ht : ∀ q, sig (take q) = sig s)
    (h : switchFirst take k b r = some (p, t)) : sig t = sig s := by
  induction r generalizing b with
  | nil => simp [switchFirst] at h
  | cons a r ih =>
    rw [switchFirst] at h
    split at h
    · exact ih _ h
    split at h
    · rename_i u hu
      injection h with h
      injection h with h1 h2
      subst h1 h2
      rw [sig_switchFlow _ _ _ _ hu, ht]
    · exact ih _ h

theorem sig_switchPort (s k) : sig (switchPort s k) = sig s := by
  unfold switchPort
  simp only []
  split
  · rename_i h
    rw [sig_freeBuffer]
    exact sig_switchFirst s _ _ _ _ _ _ (fun _ => by rw [sig_mk, sig_fold]) h
  · rfl

theorem sig_switchOwn (s r) : sig (switchOwn s r) = sig s := by
  induction r with
  | nil => rw [switchOwn]
  | cons k r ih =>
    rw [switchOwn]
    split
    · rename_i h
      refine sig_switchFirst s _ _ _ _ _ _ (fun q => ?_) h
      split
      · rw [sig_mk, sig_fold]
      · rfl
    · exact ih

theorem sig_unstore (s x1) : sig (unstore s x1) = sig s := by
  unfold unstore
  repeat' first
    | with_reducible rfl
    | simp only [sig_mk, sig_fold]
    | split

theorem sig_switchHeld (s b r) : sig (switchHeld s b r) = sig s := by
  induction r generalizing b with
  | nil => rw [switchHeld]
  | cons p r ih =>
    rw [switchHeld]
    split
    · exact ih _
    split
    · rename_i h
      rw [sig_switchPkt _ _ _ _ h, sig_unstore]
    · exact ih _

theorem sig_doFabricPacket (x s) : sig (doFabricPacket x s) = sig s := by
  unfold doFabricPacket
  split
  · rfl
  split
  · exact sig_switchPort ..
  · exact sig_switchOwn ..
  · exact sig_switchHeld ..

theorem sig_doShaperSend (x0 x1 s) : sig (doShaperSend x0 x1 s) = sig s := by
  unfold doShaperSend
  repeat' first
    | with_reducible rfl
    | simp only [sig_modShaper, sig_pump, sig_mk, sig_fold]
    | split

theorem sig_doShaperFrozenTimeout (x0 x1 s) : sig (doShaperFrozenTimeout x0 x1 s) = sig s := by
  unfold doShaperFrozenTimeout
  repeat' first
    | with_reducible rfl
    | simp only [sig_endHostMsg, sig_endOp, sig_modShaper]
    | split

theorem sig_tickShapers (s) : sig (tickShapers s) = sig s := by
  unfold tickShapers
  repeat' first
    | with_reducible rfl
    | simp only [sig_mk, sig_fold]

theorem sig_isolateDry (s) : sig (isolateDry s) = sig s := by
  unfold isolateDry
  repeat' first
    | with_reducible rfl
    | simp only [sig_isolatePort, sig_loseRoutes]
    | (refine (sig_foldl ?_ _ _).trans ?_)
    | split
    | intro _

theorem sig_gfWrite (s x1 x2 x3 x4 b) (h : ∀ u, sig (b u) = sig u) : sig (gfWrite s x1 x2 x3 x4 b) = sig s := by
  unfold gfWrite
  repeat' first
    | with_reducible rfl
    | simp only [h]
    | (refine (sig_guardWrite _ _ _ _ _ _ _ _ _ ?_).trans ?_)
    | (refine (sig_foldl ?_ _ _).trans ?_)
    | split
    | intro _

theorem sig_sendMcast (s x1 x2 x3) : sig (sendMcast s x1 x2 x3) = sig s := by
  unfold sendMcast
  repeat' first
    | with_reducible rfl
    | simp only [sig_modGrove, sig_sendUnit]

theorem sig_multicast (s x1) : sig (multicast s x1) = sig s := by
  unfold multicast
  repeat' first
    | with_reducible rfl
    | simp only [sig_sendMcast, sig_mk, sig_fold]
    | (refine (sig_foldl ?_ _ _).trans ?_)
    | split
    | intro _

theorem sig_doRoutingEntryWrite (x0 x1 s) : sig (doRoutingEntryWrite x0 x1 s) = sig s := by
  unfold doRoutingEntryWrite
  repeat' first
    | with_reducible rfl
    | simp only [sig_mk, sig_fold]
    | (refine (sig_gfWrite _ _ _ _ _ _ ?_).trans ?_)
    | split
    | intro _

theorem sig_setActive (s x1) : sig (setActive s x1) = sig s := by
  unfold setActive
  repeat' first
    | with_reducible rfl
    | simp only [sig_loseRoutes, sig_mk, sig_fold]
    | split

theorem sig_doBankSwap (x0 s) : sig (doBankSwap x0 s) = sig s := by
  unfold doBankSwap
  repeat' first
    | with_reducible rfl
    | simp only [sig_setActive]
    | (refine (sig_gfWrite _ _ _ _ _ _ ?_).trans ?_)
    | intro _

theorem sig_doDidHold (x0 x1 s) : sig (doDidHold x0 x1 s) = sig s := by
  unfold doDidHold
  repeat' first
    | with_reducible rfl
    | simp only [sig_mk, sig_fold]
    | (refine (sig_gfWrite _ _ _ _ _ _ ?_).trans ?_)
    | intro _

theorem sig_shaperWrite (x0 s) : sig (shaperWrite x0 s) = sig s := by
  unfold shaperWrite
  repeat' first
    | with_reducible rfl
    | simp only [sig_modShaper]
    | (refine (sig_gfWrite _ _ _ _ _ _ ?_).trans ?_)
    | split
    | intro _

theorem sig_doShaperRateWrite (x0 s) : sig (doShaperRateWrite x0 s) = sig s := by
  unfold doShaperRateWrite
  repeat' first
    | with_reducible rfl
    | simp only [sig_shaperWrite]

theorem sig_doShaperReset (x0 s) : sig (doShaperReset x0 s) = sig s := by
  unfold doShaperReset
  repeat' first
    | with_reducible rfl
    | simp only [sig_shaperWrite]

theorem sig_doCongestionSample (x0 s) : sig (doCongestionSample x0 s) = sig s := by
  unfold doCongestionSample
  repeat' first
    | with_reducible rfl
    | simp only [sig_mk, sig_fold]
    | split

theorem sig_portSignal (s x1) : sig (portSignal s x1) = sig s := by
  unfold portSignal
  repeat' first
    | with_reducible rfl
    | simp only [sig_signalVec]

theorem sig_enterTraining (s x1) : sig (enterTraining s x1) = sig s := by
  unfold enterTraining
  repeat' first
    | with_reducible rfl
    | simp only [sig_modPort, sig_portSignal, sig_raise]

theorem sig_recheckPort (s x1) : sig (recheckPort s x1) = sig s := by
  unfold recheckPort
  repeat' first
    | with_reducible rfl
    | simp only [sig_checkPort]
    | split

theorem sig_enterUp (s x1) : sig (enterUp s x1) = sig s := by
  unfold enterUp
  repeat' first
    | with_reducible rfl
    | simp only [sig_modPort, sig_portSignal, sig_pump, sig_recheckPort]

theorem sig_noteResent (s x1) : sig (noteResent s x1) = sig s := by
  unfold noteResent
  repeat' first
    | with_reducible rfl
    | simp only [sig_modCore]
    | split

theorem sig_movePkt (s k p) : sig (movePkt s k p) = sig s := by
  unfold movePkt
  split
  · exact sig_countNoRoute ..
  split
  · rename_i h
    exact sig_switchPkt _ _ _ _ h
  · simp only [sig_mk, sig_fold]

theorem sig_movePort (s x1) : sig (movePort s x1) = sig s := by
  unfold movePort
  repeat' first
    | with_reducible rfl
    | simp only [sig_modPort, sig_modShaper, sig_movePkt, sig_noteResent, sig_mk, sig_fold]
    | (refine (sig_foldl ?_ _ _).trans ?_)
    | intro _

theorem sig_enterDown (s x1) : sig (enterDown s x1) = sig s := by
  unfold enterDown
  repeat' first
    | with_reducible rfl
    | simp only [sig_loseRoutes, sig_modPort, sig_movePort, sig_portSignal, sig_raiseEv]

theorem sig_retirePort (s x1) : sig (retirePort s x1) = sig s := by
  unfold retirePort
  repeat' first
    | with_reducible rfl
    | simp only [sig_loseRoutes, sig_modPort, sig_movePort, sig_portSignal, sig_raise, sig_remapAll]
    | split

theorem sig_laneFailed (s x1 x2) : sig (laneFailed s x1 x2) = sig s := by
  unfold laneFailed
  repeat' first
    | with_reducible rfl
    | simp only [sig_modPort, sig_raise, sig_retirePort]
    | split

theorem sig_fecOne (x0 s x2) : sig (fecOne x0 s x2) = sig s := by
  unfold fecOne
  repeat' first
    | with_reducible rfl
    | simp only [sig_modPort, sig_raise, sig_raiseEv]
    | split

theorem sig_fecCount (s x1 x2) : sig (fecCount s x1 x2) = sig s := by
  unfold fecCount
  repeat' first
    | with_reducible rfl
    | simp only [sig_fecOne]
    | (refine (sig_foldl ?_ _ _).trans ?_)
    | intro _

theorem sig_acceptFlit (s x1 x2) : sig (acceptFlit s x1 x2) = sig s := by
  unfold acceptFlit
  repeat' first
    | with_reducible rfl
    | simp only [sig_modPort, sig_mk, sig_fold]

theorem sig_doDataFlit (x0 x1 s) : sig (doDataFlit x0 x1 s) = sig s := by
  unfold doDataFlit
  repeat' first
    | with_reducible rfl
    | simp only [sig_acceptFlit, sig_fecCount, sig_fireWake, sig_modPort, sig_pump, sig_sendAck]
    | split

theorem sig_answerIdent (s x1) : sig (answerIdent s x1) = sig s := by
  unfold answerIdent
  repeat' first
    | with_reducible rfl
    | simp only [sig_modPort]
    | split

theorem sig_doIdent (x0 x1 x2 x3 s) : sig (doIdent x0 x1 x2 x3 s) = sig s := by
  unfold doIdent
  repeat' first
    | with_reducible rfl
    | simp only [sig_answerIdent, sig_enterUp, sig_modPort, sig_recheckPort]
    | split

theorem sig_takeMap (s x1 x2 x3 x4) : sig (takeMap s x1 x2 x3 x4) = sig s := by
  unfold takeMap
  repeat' first
    | with_reducible rfl
    | simp only [sig_modPort, sig_pump]
    | split

theorem sig_doLaneMap (x0 x1 x2 x3 s) : sig (doLaneMap x0 x1 x2 x3 s) = sig s := by
  unfold doLaneMap
  repeat' first
    | with_reducible rfl
    | simp only [sig_takeMap]
    | split

theorem sig_sendRetrain (s x1 x2) : sig (sendRetrain s x1 x2) = sig s := by
  unfold sendRetrain
  repeat' first
    | with_reducible rfl
    | simp only [sig_modPort]

theorem sig_doRetrain (x0 x1 s) : sig (doRetrain x0 x1 s) = sig s := by
  unfold doRetrain
  repeat' first
    | with_reducible rfl
    | simp only [sig_enterTraining, sig_sendRetrain]
    | split

theorem sig_doAckTimeout (x0 s) : sig (doAckTimeout x0 s) = sig s := by
  unfold doAckTimeout
  repeat' first
    | with_reducible rfl
    | simp only [sig_enterTraining, sig_sendRetrain]
    | split

theorem sig_doTrainingAttemptEnd (x0 x1 s) : sig (doTrainingAttemptEnd x0 x1 s) = sig s := by
  unfold doTrainingAttemptEnd
  repeat' first
    | with_reducible rfl
    | simp only [sig_enterDown, sig_enterUp, sig_modPort, sig_sendCtls]
    | split

theorem sig_doPortTrainingRetry (s) : sig (doPortTrainingRetry s) = sig s := by
  unfold doPortTrainingRetry
  repeat' first
    | with_reducible rfl
    | simp only [sig_modPort, sig_portSignal]
    | (refine (sig_foldl ?_ _ _).trans ?_)
    | split
    | intro _

theorem sig_doLaneRetrain (x0 x1 x2 s) : sig (doLaneRetrain x0 x1 x2 s) = sig s := by
  unfold doLaneRetrain
  repeat' first
    | with_reducible rfl
    | simp only [sig_modPort]
    | (refine (sig_gfWrite _ _ _ _ _ _ ?_).trans ?_)
    | split
    | intro _

theorem sig_removeRange (s x1 x2) : sig (removeRange s x1 x2) = sig s := by
  unfold removeRange
  repeat' first
    | with_reducible rfl
    | simp only [sig_mk, sig_fold]

theorem sig_applyRange (s x1 x2) : sig (applyRange s x1 x2) = sig s := by
  unfold applyRange
  repeat' first
    | with_reducible rfl
    | simp only [sig_drawKey, sig_removeRange, sig_mk, sig_fold]
    | split

theorem sig_rangeWrite (x0 x1 s) : sig (rangeWrite x0 x1 s) = sig s := by
  unfold rangeWrite
  repeat' first
    | with_reducible rfl
    | simp only [sig_applyRange, sig_raise]
    | (refine (sig_guardWrite _ _ _ _ _ _ _ _ _ ?_).trans ?_)
    | split
    | intro _

theorem sig_doRangeCreation (x0 x1 s) : sig (doRangeCreation x0 x1 s) = sig s := by
  unfold doRangeCreation
  repeat' first
    | with_reducible rfl
    | simp only [sig_rangeWrite]

theorem sig_doRangeRemoval (x0 x1 s) : sig (doRangeRemoval x0 x1 s) = sig s := by
  unfold doRangeRemoval
  repeat' first
    | with_reducible rfl
    | simp only [sig_rangeWrite]

theorem sig_doRangeGrowth (x0 x1 s) : sig (doRangeGrowth x0 x1 s) = sig s := by
  unfold doRangeGrowth
  repeat' first
    | with_reducible rfl
    | simp only [sig_rangeWrite]

theorem sig_fillUnits (s x1 x2 x3) : sig (fillUnits s x1 x2 x3) = sig s := by
  unfold fillUnits
  repeat' first
    | with_reducible rfl
    | simp only [sig_modStack]
    | (refine (sig_foldl ?_ _ _).trans ?_)
    | intro _

theorem sig_doRangeFillComplete (x0 s) : sig (doRangeFillComplete x0 s) = sig s := by
  unfold doRangeFillComplete
  repeat' first
    | with_reducible rfl
    | simp only [sig_fillUnits, sig_mk, sig_fold]
    | split

theorem sig_repairRow (s x1 x2 x3) : sig (repairRow s x1 x2 x3).1 = sig s := by
  unfold repairRow
  repeat' first
    | with_reducible rfl
    | simp only [sig_forgetEv, sig_modStack, sig_raise]
    | (refine (sig_foldl ?_ _ _).trans ?_)
    | split

theorem sig_retireChannel (s x1 x2) : sig (retireChannel s x1 x2) = sig s := by
  unfold retireChannel
  repeat' first
    | with_reducible rfl
    | simp only [sig_modStack, sig_raise]
    | split

theorem sig_doPatrolScrub (x0 x1 x2 x3 s) : sig (doPatrolScrub x0 x1 x2 x3 s) = sig s := by
  unfold doPatrolScrub
  repeat' first
    | with_reducible rfl
    | simp only [sig_hbmUpset]
    | (refine (sig_foldl ?_ _ _).trans ?_)
    | split
    | intro _

theorem sig_markAction (s x1 x2 x3) : sig (markAction s x1 x2 x3) = sig s := by
  unfold markAction
  repeat' first
    | with_reducible rfl
    | simp only [sig_modComb]

theorem sig_replayHeld (s x1) : sig (replayHeld s x1) = sig s := by
  unfold replayHeld
  repeat' first
    | with_reducible rfl
    | simp only [sig_replaySame]
    | split

theorem sig_actBurst (s x1 x2) : sig (actBurst s x1 x2).1 = sig s := by
  unfold actBurst
  repeat' first
    | with_reducible rfl
    | simp only [sig_blazeRouter, sig_countEv, sig_forgetEv, sig_mk, sig_fold]
    | (refine (sig_foldl ?_ _ _).trans ?_)
    | split

theorem sig_blazeGrove (s x1) : sig (blazeGrove s x1) = sig s := by
  unfold blazeGrove
  repeat' first
    | with_reducible rfl
    | simp only [sig_blazeRouter]

theorem sig_actEvent (s x1 x2) : sig (actEvent s x1 x2).1 = sig s := by
  unfold actEvent
  repeat' first
    | with_reducible rfl
    | simp only [sig_actBurst, sig_actSite, sig_blazeGrove, sig_laneFailed, sig_loseSlice, sig_raise, sig_repairRow, sig_replayHeld, sig_retireChannel, sig_retirePort, sig_spareRow]
    | (refine (sig_foldl ?_ _ _).trans ?_)
    | split
    | intro _

theorem sig_actOne (x0 x1 s x3) : sig (actOne x0 x1 s x3) = sig s := by
  unfold actOne
  repeat' first
    | with_reducible rfl
    | simp only [sig_actEvent, sig_markAction]
    | split

theorem sig_oneRecovery (s d b) (h : ∀ u, sig (b u) = sig u) : sig (oneRecovery s d b) = sig s := by
  unfold oneRecovery
  simp only [sig_modGrove, h]

theorem sig_doFaultAgentAction (x0 x1 s) : sig (doFaultAgentAction x0 x1 s) = sig s := by
  unfold doFaultAgentAction
  repeat' first
    | with_reducible rfl
    | simp only [sig_actOne, sig_modComb, sig_serveEarlier]
    | (refine (sig_oneRecovery _ _ _ ?_).trans ?_)
    | (refine (sig_foldl ?_ _ _).trans ?_)
    | split
    | intro _

theorem sig_internalEntry (s x1 x2 x3 x4) : sig (internalEntry s x1 x2 x3 x4) = sig s := by
  cases x4 with
  | none => rw [internalEntry]
  | some c => rw [internalEntry, sig_faultCtx]

theorem sig_doCoreInternalFault (x0 x1 s) : sig (doCoreInternalFault x0 x1 s) = sig s := by
  unfold doCoreInternalFault
  repeat' first
    | with_reducible rfl
    | simp only [sig_internalEntry, sig_modCore, sig_raiseEv]
    | split

theorem sig_doScrubStep (x0 x1 s) : sig (doScrubStep x0 x1 s) = sig s := by
  unfold doScrubStep
  repeat' first
    | with_reducible rfl
    | simp only [sig_modCore, sig_slUpset]
    | (refine (sig_foldl ?_ _ _).trans ?_)
    | split
    | intro _

theorem sig_doBropen (x0 x1 x2 s) : sig (doBropen x0 x1 x2 s) = sig s := by
  unfold doBropen
  repeat' first
    | with_reducible rfl
    | simp only [sig_advance, sig_modCore, sig_precise]
    | (refine (sig_issue _ _ _ _ _ _ _ _ _ ?_).trans ?_)
    | (refine (sig_foldl ?_ _ _).trans ?_)
    | split
    | intro _

theorem sig_brandIssue (s l c g) (b : Nat → State) (u : State) (h : ∀ a, sig (b a) = sig u) (hs : sig s = sig u) :
    sig (brandIssue s l c g b) = sig u := by
  unfold brandIssue
  split
  · rw [sig_precise, hs]
  simp only []
  split
  · exact h _
  · rw [sig_precise, hs]

theorem sig_beginSeal (s x1) : sig (beginSeal s x1) = sig s := by
  unfold beginSeal
  repeat' first
    | with_reducible rfl
    | simp only [sig_modCore]
    | split

theorem sig_pushBrand (s x1 x2) : sig (pushBrand s x1 x2) = sig s := by
  unfold pushBrand
  repeat' first
    | with_reducible rfl
    | simp only [sig_beginSeal, sig_modCore]

theorem sig_doBrhash (x0 x1 x2 s) : sig (doBrhash x0 x1 x2 s) = sig s := by
  unfold doBrhash
  refine sig_issue _ _ _ _ _ _ _ _ _ fun u => ?_
  exact sig_brandIssue _ _ _ _ _ _ (fun a => by rw [sig_pushBrand, sig_advance]) rfl

theorem sig_doBrseal (x0 x1 x2 s) : sig (doBrseal x0 x1 x2 s) = sig s := by
  unfold doBrseal
  refine sig_issue _ _ _ _ _ _ _ _ _ fun u => ?_
  exact sig_brandIssue _ _ _ _ _ _ (fun a => by rw [sig_pushBrand, sig_modCore, sig_advance]) rfl

theorem sig_popBrand (s x1) : sig (popBrand s x1) = sig s := by
  unfold popBrand
  repeat' first
    | with_reducible rfl
    | simp only [sig_beginSeal, sig_modCore]

theorem sig_failBrand (s x1 x2 x3) : sig (failBrand s x1 x2 x3) = sig s := by
  unfold failBrand
  repeat' first
    | with_reducible rfl
    | simp only [sig_modCore]

theorem sig_doBrandHashComplete (x0 x1 s) : sig (doBrandHashComplete x0 x1 s) = sig s := by
  unfold doBrandHashComplete
  repeat' first
    | with_reducible rfl
    | simp only [sig_failBrand, sig_modCore, sig_popBrand, sig_settle]
    | split

theorem sig_doBrandSealComplete (l s) : sig (doBrandSealComplete l s) = sig s := by
  unfold doBrandSealComplete
  split
  · rfl
  split
  · simp only []
    rw [sig_settle, sig_postEntry, sig_popBrand]
    split
    · exact sig_modCore ..
    · exact sig_failBrand ..
  · rfl

theorem sig_runCmd (s x1 x2 x3) : sig (runCmd s x1 x2 x3) = sig s := by
  unfold runCmd
  repeat' first
    | with_reducible rfl
    | simp only [sig_freeCtx, sig_modCtxOf, sig_setCore]
    | (refine (sig_foldl ?_ _ _).trans ?_)
    | split
    | intro _

theorem sig_ctxCmd (x0 x1 x2 s) : sig (ctxCmd x0 x1 x2 s) = sig s := by
  unfold ctxCmd
  repeat' first
    | with_reducible rfl
    | simp only [sig_modCore, sig_runCmd, sig_mk, sig_fold]
    | (refine (sig_coreSet _ _ _ _ _ _ _ ?_).trans ?_)
    | split
    | intro _

theorem sig_doHoldAll (x0 x1 s) : sig (doHoldAll x0 x1 s) = sig s := by
  unfold doHoldAll
  repeat' first
    | with_reducible rfl
    | simp only [sig_modCore]
    | (refine (sig_coreSet _ _ _ _ _ _ _ ?_).trans ?_)
    | intro _

theorem sig_bounceWaiting (s x1 x2) : sig (bounceWaiting s x1 x2) = sig s := by
  unfold bounceWaiting
  repeat' first
    | with_reducible rfl
    | simp only [sig_coreBounce, sig_modCore]
    | (refine (sig_foldl ?_ _ _).trans ?_)
    | split
    | intro _

theorem sig_setRole (s x1 x2) : sig (setRole s x1 x2) = sig s := by
  unfold setRole
  repeat' first
    | with_reducible rfl
    | simp only [sig_bounceWaiting, sig_modCore]

theorem sig_doCoreRoleWrite (x0 x1 s) : sig (doCoreRoleWrite x0 x1 s) = sig s := by
  unfold doCoreRoleWrite
  repeat' first
    | with_reducible rfl
    | simp only [sig_setRole]
    | (refine (sig_coreSet _ _ _ _ _ _ _ ?_).trans ?_)
    | intro _

theorem sig_writeResident (s x1) : sig (writeResident s x1) = sig s := by
  unfold writeResident
  repeat' first
    | with_reducible rfl
    | simp only [sig_modCore]

theorem sig_resetCore (s x1) : sig (resetCore s x1) = sig s := by
  unfold resetCore
  repeat' first
    | with_reducible rfl
    | simp only [sig_bounceWaiting, sig_discardCore, sig_modCore, sig_writeResident]

theorem sig_resetRouter (s x1) : sig (resetRouter s x1) = sig s := by
  unfold resetRouter
  repeat' first
    | with_reducible rfl
    | simp only [sig_abortRed, sig_endWaiters, sig_modGrove]
    | (refine (sig_foldl ?_ _ _).trans ?_)
    | intro _

theorem sig_resetGrove (s x1) : sig (resetGrove s x1) = sig s := by
  unfold resetGrove
  repeat' first
    | with_reducible rfl
    | simp only [sig_resetCore, sig_resetRouter]
    | (refine (sig_foldl ?_ _ _).trans ?_)
    | split
    | intro _

theorem sig_resetRegion (s x1) : sig (resetRegion s x1) = sig s := by
  unfold resetRegion
  repeat' first
    | with_reducible rfl
    | simp only [sig_mk, sig_fold]

theorem sig_resetStand (s x1) : sig (resetStand s x1) = sig s := by
  unfold resetStand
  repeat' first
    | with_reducible rfl
    | simp only [sig_closeAll, sig_resetGrove, sig_resetRegion, sig_mk, sig_fold]
    | (refine (sig_foldl ?_ _ _).trans ?_)
    | split
    | intro _

theorem sig_doSyncCfgWrite (x0 x1 x2 s) : sig (doSyncCfgWrite x0 x1 x2 s) = sig s := by
  unfold doSyncCfgWrite
  repeat' first
    | with_reducible rfl
    | simp only [sig_modGrove]
    | (refine (sig_guardWrite _ _ _ _ _ _ _ _ _ ?_).trans ?_)
    | intro _

theorem sig_sanitiseGrove (s x1) : sig (sanitiseGrove s x1) = sig s := by
  unfold sanitiseGrove
  repeat' first
    | with_reducible rfl
    | simp only [sig_endWaiters, sig_modCore, sig_modGrove]
    | (refine (sig_foldl ?_ _ _).trans ?_)
    | intro _

theorem sig_devStore (s x1 x2 x3 x4) : sig (devStore s x1 x2 x3 x4).1 = sig s := by
  unfold devStore
  repeat' first
    | with_reducible rfl
    | simp only [sig_hbmStore, sig_modCore]
    | (refine (sig_foldl ?_ _ _).trans ?_)
    | split

theorem sig_hostWrite (s x1 x2 x3) : sig (hostWrite s x1 x2 x3) = sig s := by
  unfold hostWrite
  repeat' first
    | with_reducible rfl
    | simp only [sig_mk, sig_fold]

theorem sig_doorbellError (s x1) : sig (doorbellError s x1) = sig s := by
  unfold doorbellError
  repeat' first
    | with_reducible rfl
    | simp only [sig_modFn, sig_signalVec]

theorem sig_ringSqTail (x0 x1 x2 s) : sig (ringSqTail x0 x1 x2 s) = sig s := by
  unfold ringSqTail
  repeat' first
    | with_reducible rfl
    | simp only [sig_doorbellError, sig_modFn]
    | split

theorem sig_ringCqHead (x0 x1 x2 s) : sig (ringCqHead x0 x1 x2 s) = sig s := by
  unfold ringCqHead
  repeat' first
    | with_reducible rfl
    | simp only [sig_doorbellError, sig_modFn]
    | split

theorem sig_bar2Write (f o a v) (ring : HostFn → Nat → Nat → State → State) (s) (h : ∀ f q n u, sig (ring f q n u) = sig u) :
    sig (bar2Write f o a v ring s) = sig s := by
  unfold bar2Write
  split
  · rfl
  split
  · rw [h, sig_fireWake]
  · exact sig_fireWake ..

theorem sig_doSqTailDoorbell (f o v s) : sig (doSqTailDoorbell f o v s) = sig s :=
  sig_bar2Write _ _ _ _ _ _ fun f q n u => sig_ringSqTail f q n u

theorem sig_doCqHeadDoorbell (f o v s) : sig (doCqHeadDoorbell f o v s) = sig s :=
  sig_bar2Write _ _ _ _ _ _ fun f q n u => sig_ringCqHead f q n u

theorem sig_doCommandFetch (x0 x1 x2 s) : sig (doCommandFetch x0 x1 x2 s) = sig s := by
  unfold doCommandFetch
  repeat' first
    | with_reducible rfl
    | simp only [sig_modFn]
    | split

theorem sig_modCmd (s x1 x2 x3) : sig (modCmd s x1 x2 x3) = sig s := by
  unfold modCmd
  repeat' first
    | with_reducible rfl
    | simp only [sig_modFn]

theorem sig_endCmd (s x1 x2 x3 x4) : sig (endCmd s x1 x2 x3 x4) = sig s := by
  unfold endCmd
  repeat' first
    | with_reducible rfl
    | simp only [sig_modCmd]

theorem sig_runCmdNow (s r o) (b : HostCmd → State → State × Status × Word) (h : ∀ c u, sig (b c u).1 = sig u) :
    sig (runCmdNow s r o b) = sig s := by
  unfold runCmdNow
  split
  · rfl
  · simp only [sig_endCmd, h]

theorem sig_serviceAdd (s x1 x2) : sig (serviceAdd s x1 x2) = sig s := by
  unfold serviceAdd
  repeat' first
    | with_reducible rfl
    | simp only [sig_modGrove, sig_serveWaiters]
    | split

theorem sig_writeCqe (s x1 x2 x3 x4 x5) : sig (writeCqe s x1 x2 x3 x4 x5) = sig s := by
  unfold writeCqe
  repeat' first
    | with_reducible rfl
    | simp only [sig_hbmStore, sig_hostWrite, sig_modFn, sig_serviceAdd, sig_signalVec]
    | split

theorem sig_settlePair (s x1 x2) : sig (settlePair s x1 x2) = sig s := by
  unfold settlePair
  repeat' first
    | with_reducible rfl
    | simp only [sig_modFn]
    | split

theorem sig_finishCmd (s x1 x2 x3 x4) : sig (finishCmd s x1 x2 x3 x4) = sig s := by
  unfold finishCmd
  repeat' first
    | with_reducible rfl
    | simp only [sig_modFn, sig_settlePair, sig_writeCqe]
    | split

theorem sig_doCqEnable (x0 x1 s) : sig (doCqEnable x0 x1 s) = sig s := by
  unfold doCqEnable
  repeat' first
    | with_reducible rfl
    | simp only [sig_modFn, sig_settlePair]
    | (refine (sig_guardWrite _ _ _ _ _ _ _ _ _ ?_).trans ?_)
    | split
    | intro _

theorem sig_doCreateQp (x0 s) : sig (doCreateQp x0 s) = sig s := by
  unfold doCreateQp
  repeat' first
    | with_reducible rfl
    | simp only [sig_modFn]
    | (refine (sig_runCmdNow _ _ _ _ ?_).trans ?_)
    | split
    | intro _

theorem sig_doDeleteQp (x0 s) : sig (doDeleteQp x0 s) = sig s := by
  unfold doDeleteQp
  repeat' first
    | with_reducible rfl
    | simp only [sig_endCmd, sig_modCmd, sig_modFn, sig_settlePair]
    | split

theorem sig_doIdentify (x0 s) : sig (doIdentify x0 s) = sig s := by
  unfold doIdentify
  repeat' first
    | with_reducible rfl
    | simp only [sig_hostWrite]
    | (refine (sig_runCmdNow _ _ _ _ ?_).trans ?_)
    | split
    | intro _

theorem sig_doMsixUnmask (x0 x1 s) : sig (doMsixUnmask x0 x1 s) = sig s := by
  unfold doMsixUnmask
  repeat' first
    | with_reducible rfl
    | simp only [sig_modFn]
    | split

theorem sig_noteAer (s x1) : sig (noteAer s x1) = sig s := by
  unfold noteAer
  repeat' first
    | with_reducible rfl
    | simp only [sig_mk, sig_fold]

theorem sig_refuseRead (s) : sig (refuseRead s) = sig s := by
  unfold refuseRead
  repeat' first
    | with_reducible rfl
    | simp only [sig_noteAer, sig_mk, sig_fold]

theorem sig_windowAccess (x0 s) : sig (windowAccess x0 s) = sig s := by
  unfold windowAccess
  repeat' first
    | with_reducible rfl
    | simp only [sig_hbmStore, sig_modFn, sig_refuseRead, sig_signalVec, sig_mk, sig_fold]
    | split

theorem sig_windowTake (x0 s) : sig (windowTake x0 s) = sig s := by
  unfold windowTake
  repeat' first
    | with_reducible rfl
    | simp only [sig_fireWake, sig_windowAccess, sig_mk, sig_fold]
    | split

theorem sig_doHostWindowRead (x0 x1 x2 s) : sig (doHostWindowRead x0 x1 x2 s) = sig s := by
  unfold doHostWindowRead
  repeat' first
    | with_reducible rfl
    | simp only [sig_refuseRead, sig_windowTake]
    | split

theorem sig_doHostWindowWrite (x0 x1 x2 s) : sig (doHostWindowWrite x0 x1 x2 s) = sig s := by
  unfold doHostWindowWrite
  repeat' first
    | with_reducible rfl
    | simp only [sig_noteAer, sig_windowTake]
    | split

theorem sig_setSlot (s x1 x2 x3) : sig (setSlot s x1 x2 x3) = sig s := by
  unfold setSlot
  repeat' first
    | with_reducible rfl
    | simp only [sig_modFn]

theorem sig_doCkptAttach (x0 s) : sig (doCkptAttach x0 s) = sig s := by
  unfold doCkptAttach
  repeat' first
    | with_reducible rfl
    | simp only [sig_setSlot]
    | (refine (sig_runCmdNow _ _ _ _ ?_).trans ?_)
    | split
    | intro _

theorem sig_doCkptDetach (x0 s) : sig (doCkptDetach x0 s) = sig s := by
  unfold doCkptDetach
  repeat' first
    | with_reducible rfl
    | simp only [sig_setSlot]
    | (refine (sig_runCmdNow _ _ _ _ ?_).trans ?_)
    | split
    | intro _

theorem sig_issueNvme (s x1 x2 x3 x4 x5 x6) : sig (issueNvme s x1 x2 x3 x4 x5 x6) = sig s := by
  unfold issueNvme
  repeat' first
    | with_reducible rfl
    | simp only [sig_freshWord, sig_modCmd, sig_setSlot, sig_mk, sig_fold]

theorem sig_issueAll (n s f q) : sig (issueAll n s f q) = sig s := by
  induction n generalizing s with
  | zero => rw [issueAll]
  | succ n ih =>
    rw [issueAll]
    split
    · rfl
    split
    · rfl
    split
    · rfl
    simp only []
    split
    · exact sig_modCmd ..
    · rw [ih, sig_issueNvme]

theorem sig_spoilRest (s x1 x2) : sig (spoilRest s x1 x2) = sig s := by
  unfold spoilRest
  repeat' first
    | with_reducible rfl
    | simp only [sig_hbmStore, sig_mk, sig_fold]
    | split

theorem sig_serviceEvent (s x1) : sig (serviceEvent s x1) = sig s := by
  unfold serviceEvent
  repeat' first
    | with_reducible rfl
    | simp only [sig_signalVec]
    | split

theorem sig_ckFail (s x1 x2 x3) : sig (ckFail s x1 x2 x3) = sig s := by
  unfold ckFail
  repeat' first
    | with_reducible rfl
    | simp only [sig_modCmd, sig_serviceEvent, sig_setSlot, sig_spoilRest]

theorem sig_ckAdvance (s x1 x2) : sig (ckAdvance s x1 x2) = sig s := by
  unfold ckAdvance
  repeat' first
    | with_reducible rfl
    | simp only [sig_ckFail, sig_issueAll, sig_issueNvme, sig_modCmd]
    | split

theorem sig_ckTransfer (x0 x1 s) : sig (ckTransfer x0 x1 s) = sig s := by
  unfold ckTransfer
  repeat' first
    | with_reducible rfl
    | simp only [sig_ckAdvance, sig_endCmd, sig_modCmd]
    | split

theorem sig_markNvme (s x1 x2 x3 x4 x5) : sig (markNvme s x1 x2 x3 x4 x5) = sig s := by
  unfold markNvme
  repeat' first
    | with_reducible rfl
    | simp only [sig_modCmd]

theorem sig_takeCqEntry (s x1 x2 x3 x4 x5) : sig (takeCqEntry s x1 x2 x3 x4 x5) = sig s := by
  unfold takeCqEntry
  repeat' first
    | with_reducible rfl
    | simp only [sig_setSlot, sig_mk, sig_fold]

theorem sig_doNvmeCompletion (x0 x1 x2 x3 x4 s) : sig (doNvmeCompletion x0 x1 x2 x3 x4 s) = sig s := by
  unfold doNvmeCompletion
  repeat' first
    | with_reducible rfl
    | simp only [sig_ckAdvance, sig_ckFail, sig_hbmStore, sig_markNvme, sig_takeCqEntry]
    | split

theorem sig_doNvmeTimeout (x0 x1 x2 s) : sig (doNvmeTimeout x0 x1 x2 s) = sig s := by
  unfold doNvmeTimeout
  repeat' first
    | with_reducible rfl
    | simp only [sig_ckFail, sig_markNvme]
    | split

theorem sig_dmaToDev (x0 x1 x2 s) : sig (dmaToDev x0 x1 x2 s).1 = sig s := by
  unfold dmaToDev
  repeat' first
    | with_reducible rfl
    | simp only [sig_devStore]
    | (refine (sig_foldl ?_ _ _).trans ?_)
    | split

theorem sig_scatter (s a b c) : sig (scatter s a b c) = sig s := by
  induction a generalizing s b c with
  | nil => rw [scatter]
  | cons p r ih => rw [scatter, ih, sig_hostWrite]

theorem sig_dmaFromDev (x0 x1 x2 s) : sig (dmaFromDev x0 x1 x2 s).1 = sig s := by
  unfold dmaFromDev
  repeat' first
    | with_reducible rfl
    | simp only [sig_scatter]
    | (refine (sig_foldl ?_ _ _).trans ?_)
    | split

theorem sig_doDmaToDev (x0 x1 s) : sig (doDmaToDev x0 x1 s) = sig s := by
  unfold doDmaToDev
  repeat' first
    | with_reducible rfl
    | simp only [sig_dmaToDev]
    | (refine (sig_runCmdNow _ _ _ _ ?_).trans ?_)
    | intro _

theorem sig_doDmaFromDev (x0 x1 s) : sig (doDmaFromDev x0 x1 s) = sig s := by
  unfold doDmaFromDev
  repeat' first
    | with_reducible rfl
    | simp only [sig_dmaFromDev]
    | (refine (sig_runCmdNow _ _ _ _ ?_).trans ?_)
    | intro _

theorem sig_injectHostMsg (s x1 x2 x3 x4) : sig (injectHostMsg s x1 x2 x3 x4) = sig s := by
  unfold injectHostMsg
  repeat' first
    | with_reducible rfl
    | simp only [sig_endCmd, sig_modCmd, sig_sendFar, sig_sendLanding]
    | split

theorem sig_doHostMsg (x0 x1 s) : sig (doHostMsg x0 x1 s) = sig s := by
  unfold doHostMsg
  repeat' first
    | with_reducible rfl
    | simp only [sig_endCmd, sig_injectHostMsg]
    | split

theorem sig_bindChan (s x1) : sig (bindChan s x1) = sig s := by
  unfold bindChan
  repeat' first
    | with_reducible rfl
    | simp only [sig_modCore]

theorem sig_unbindCore (s x1) : sig (unbindCore s x1) = sig s := by
  unfold unbindCore
  repeat' first
    | with_reducible rfl
    | simp only [sig_modCore]
    | (refine (sig_foldl ?_ _ _).trans ?_)
    | split
    | intro _

theorem sig_changeRole (s x1 x2) : sig (changeRole s x1 x2) = sig s := by
  unfold changeRole
  repeat' first
    | with_reducible rfl
    | simp only [sig_freeCtx, sig_setRole, sig_unbindCore]
    | (refine (sig_foldl ?_ _ _).trans ?_)
    | intro _

theorem sig_loadNow (s x1 x2 x3) : sig (loadNow s x1 x2 x3) = sig s := by
  unfold loadNow
  repeat' first
    | with_reducible rfl
    | simp only [sig_bindChan, sig_changeRole, sig_modCore, sig_mk, sig_fold]
    | (refine (sig_foldl ?_ _ _).trans ?_)
    | split
    | intro _

theorem sig_unloadCore (x0 s x2) : sig (unloadCore x0 s x2) = sig s := by
  unfold unloadCore
  repeat' first
    | with_reducible rfl
    | simp only [sig_changeRole, sig_writeResident]

theorem sig_doHostLoad (x0 x1 s) : sig (doHostLoad x0 x1 s) = sig s := by
  unfold doHostLoad
  repeat' first
    | with_reducible rfl
    | simp only [sig_endCmd, sig_loadNow, sig_modCmd, sig_modCore, sig_unloadCore]
    | (refine (sig_foldl ?_ _ _).trans ?_)
    | split
    | intro _

theorem sig_clearProgram (s x1) : sig (clearProgram s x1) = sig s := by
  unfold clearProgram
  repeat' first
    | with_reducible rfl
    | simp only [sig_modCore]

theorem sig_doHostUnload (x0 s) : sig (doHostUnload x0 s) = sig s := by
  unfold doHostUnload
  repeat' first
    | with_reducible rfl
    | simp only [sig_clearProgram, sig_endCmd, sig_modCmd, sig_modCore, sig_unloadCore]
    | (refine (sig_foldl ?_ _ _).trans ?_)
    | split
    | intro _

theorem sig_forceUnload (x0 s x2) : sig (forceUnload x0 s x2) = sig s := by
  unfold forceUnload
  repeat' first
    | with_reducible rfl
    | simp only [sig_modCore, sig_resetCore, sig_unbindCore]

theorem sig_forceUnlock (s x1) : sig (forceUnlock s x1) = sig s := by
  unfold forceUnlock
  repeat' first
    | with_reducible rfl
    | simp only [sig_forceUnload, sig_modFn, sig_removeRange]
    | (refine (sig_foldl ?_ _ _).trans ?_)
    | intro _

theorem sig_doFlr (x0 s) : sig (doFlr x0 s) = sig s := by
  unfold doFlr
  repeat' first
    | with_reducible rfl
    | simp only [sig_forceUnlock, sig_modFn, sig_signalVec, sig_mk, sig_fold]
    | split

theorem sig_doCollDefine (x0 x1 s) : sig (doCollDefine x0 x1 s) = sig s := by
  unfold doCollDefine
  repeat' first
    | with_reducible rfl
    | simp only [sig_armRed, sig_mk, sig_fold]
    | (refine (sig_runCmdNow _ _ _ _ ?_).trans ?_)
    | split
    | intro _

theorem sig_dropColl (s x1) : sig (dropColl s x1) = sig s := by
  unfold dropColl
  repeat' first
    | with_reducible rfl
    | simp only [sig_disarm, sig_dropRedPkts, sig_modGrove, sig_mk, sig_fold]
    | (refine (sig_foldl ?_ _ _).trans ?_)
    | intro _

theorem sig_doCollDelete (x0 s) : sig (doCollDelete x0 s) = sig s := by
  unfold doCollDelete
  repeat' first
    | with_reducible rfl
    | simp only [sig_dropColl]
    | (refine (sig_runCmdNow _ _ _ _ ?_).trans ?_)
    | split
    | intro _

theorem sig_collRecord (s x1 x2) : sig (collRecord s x1 x2) = sig s := by
  unfold collRecord
  repeat' first
    | with_reducible rfl
    | simp only [sig_modCore]

theorem sig_restColl (s x1) : sig (restColl s x1) = sig s := by
  unfold restColl
  repeat' first
    | with_reducible rfl
    | simp only [sig_mk, sig_fold]

theorem sig_doCollectiveExchange (x0 x1 x2 s) : sig (doCollectiveExchange x0 x1 x2 s) = sig s := by
  unfold doCollectiveExchange
  repeat' first
    | with_reducible rfl
    | simp only [sig_collArrive, sig_collRecord, sig_countFast, sig_dropColl, sig_modCore, sig_multicast, sig_restColl, sig_serviceEvent]
    | (refine (sig_foldl ?_ _ _).trans ?_)
    | split

theorem sig_trackQuiets (s) : sig (trackQuiets s) = sig s := by
  unfold trackQuiets
  repeat' first
    | with_reducible rfl
    | simp only [sig_mk, sig_fold]

theorem sig_recordSnag (s x1 x2) : sig (recordSnag s x1 x2) = sig s := by
  unfold recordSnag
  repeat' first
    | with_reducible rfl
    | simp only [sig_raise, sig_signalVec, sig_tellVf, sig_mk, sig_fold]
    | split

theorem sig_doSnagRecord (x0 s) : sig (doSnagRecord x0 s) = sig s := by
  unfold doSnagRecord
  repeat' first
    | with_reducible rfl
    | simp only [sig_recordSnag]
    | split

theorem sig_doTelem (x0 s) : sig (doTelem x0 s) = sig s := by
  unfold doTelem
  repeat' first
    | with_reducible rfl
    | simp only [sig_mk, sig_fold]
    | (refine (sig_runCmdNow _ _ _ _ ?_).trans ?_)
    | split
    | intro _

theorem sig_ringWrite (s x a b) : sig (ringWrite s x a b) = sig s := by
  induction b generalizing s a with
  | nil => rw [ringWrite]
  | cons p r ih => rw [ringWrite, ih, sig_hostWrite]

theorem sig_appendRecord (x0 s x2) : sig (appendRecord x0 s x2) = sig s := by
  unfold appendRecord
  repeat' first
    | with_reducible rfl
    | simp only [sig_modFn, sig_ringWrite, sig_mk, sig_fold]
    | split

theorem sig_doTelemetryInterval (x0 s) : sig (doTelemetryInterval x0 s) = sig s := by
  unfold doTelemetryInterval
  repeat' first
    | with_reducible rfl
    | simp only [sig_appendRecord, sig_mk, sig_fold]
    | (refine (sig_foldl ?_ _ _).trans ?_)
    | split
    | intro _

theorem sig_spdmAnswer (s x1) : sig (spdmAnswer s x1) = sig s := by
  unfold spdmAnswer
  repeat' first
    | with_reducible rfl
    | simp only [sig_mk, sig_fold]

theorem sig_rekey (s x1) : sig (rekey s x1) = sig s := by
  unfold rekey
  repeat' first
    | with_reducible rfl
    | simp only [sig_drawKey, sig_mk, sig_fold]

theorem sig_openSession (x0 x1 x2 x3 s) : sig (openSession x0 x1 x2 x3 s) = sig s := by
  unfold openSession
  repeat' first
    | with_reducible rfl
    | simp only [sig_drawKey, sig_spdmAnswer, sig_mk, sig_fold]
    | split

theorem sig_chunkGet (s x1 x2) : sig (chunkGet s x1 x2) = sig s := by
  unfold chunkGet
  repeat' first
    | with_reducible rfl
    | simp only [sig_mk, sig_fold]

theorem sig_chunkSend (s x1) : sig (chunkSend s x1) = sig s := by
  unfold chunkSend
  repeat' first
    | with_reducible rfl
    | simp only [sig_spdmAnswer, sig_mk, sig_fold]
    | split

theorem sig_spdmServe (x0 x1 x2 s) : sig (spdmServe x0 x1 x2 s) = sig s := by
  unfold spdmServe
  repeat' first
    | with_reducible rfl
    | simp only [sig_chunkGet, sig_chunkSend, sig_openSession, sig_rekey, sig_spdmAnswer, sig_mk, sig_fold]
    | split

theorem sig_doKeyExchange (x0 x1 x2 s) : sig (doKeyExchange x0 x1 x2 s) = sig s := by
  unfold doKeyExchange
  repeat' first
    | with_reducible rfl
    | simp only [sig_spdmAnswer, sig_spdmServe]
    | split

theorem sig_doGetMeasurements (x0 x1 x2 x3 s) : sig (doGetMeasurements x0 x1 x2 x3 s) = sig s := by
  unfold doGetMeasurements
  repeat' first
    | with_reducible rfl
    | simp only [sig_spdmAnswer]
    | split

theorem sig_putIde (s x1 x2) : sig (putIde s x1 x2) = sig s := by
  unfold putIde
  repeat' first
    | with_reducible rfl
    | simp only [sig_mk, sig_fold]

theorem sig_doIdeKm (x0 x1 x2 s) : sig (doIdeKm x0 x1 x2 s) = sig s := by
  unfold doIdeKm
  repeat' first
    | with_reducible rfl
    | simp only [sig_putIde, sig_spdmAnswer]
    | split

theorem sig_setTdi (s x1 x2) : sig (setTdi s x1 x2) = sig s := by
  unfold setTdi
  repeat' first
    | with_reducible rfl
    | simp only [sig_modFn]

theorem sig_doLockInterface (x0 s) : sig (doLockInterface x0 s) = sig s := by
  unfold doLockInterface
  repeat' first
    | with_reducible rfl
    | simp only [sig_setTdi, sig_spdmAnswer]
    | split

theorem sig_doStartInterface (x0 s) : sig (doStartInterface x0 s) = sig s := by
  unfold doStartInterface
  repeat' first
    | with_reducible rfl
    | simp only [sig_setTdi, sig_spdmAnswer]
    | split

theorem sig_doStopInterface (x0 s) : sig (doStopInterface x0 s) = sig s := by
  unfold doStopInterface
  repeat' first
    | with_reducible rfl
    | simp only [sig_forceUnlock, sig_setTdi, sig_spdmAnswer]
    | split

theorem sig_doGetDeviceInterfaceReport (x0 x1 s) : sig (doGetDeviceInterfaceReport x0 x1 s) = sig s := by
  unfold doGetDeviceInterfaceReport
  repeat' first
    | with_reducible rfl
    | simp only [sig_spdmAnswer]

theorem sig_doPcieLinkTrained (x0 x1 x2 s) : sig (doPcieLinkTrained x0 x1 x2 s) = sig s := by
  unfold doPcieLinkTrained
  repeat' first
    | with_reducible rfl
    | simp only [sig_mk, sig_fold]
    | split

theorem sig_pcieReset (s) : sig (pcieReset s) = sig s := by
  unfold pcieReset
  repeat' first
    | with_reducible rfl
    | simp only [sig_doFlr, sig_mk, sig_fold]
    | (refine (sig_foldl ?_ _ _).trans ?_)
    | intro _

theorem sig_doPcieReset (x0 s) : sig (doPcieReset x0 s) = sig s := by
  unfold doPcieReset
  repeat' first
    | with_reducible rfl
    | simp only [sig_pcieReset, sig_mk, sig_fold]
    | split

theorem sig_doPerstNRise (s) : sig (doPerstNRise s) = sig s := by
  unfold doPerstNRise
  repeat' first
    | with_reducible rfl
    | simp only [sig_mk, sig_fold]

theorem sig_newNonce (s) : sig (newNonce s) = sig s := by
  unfold newNonce
  repeat' first
    | with_reducible rfl
    | simp only [sig_mk, sig_fold]

theorem sig_secSignal (s) : sig (secSignal s) = sig s := by
  unfold secSignal
  repeat' first
    | with_reducible rfl
    | simp only [sig_signalVec]

theorem sig_sanLinks (s) : sig (sanLinks s) = sig s := by
  unfold sanLinks
  repeat' first
    | with_reducible rfl
    | simp only [sig_forceUnlock, sig_setTdi, sig_mk, sig_fold]
    | (refine (sig_foldl ?_ _ _).trans ?_)
    | split
    | intro _

theorem sig_sanLoads (s) : sig (sanLoads s) = sig s := by
  unfold sanLoads
  repeat' first
    | with_reducible rfl
    | simp only [sig_abortRed, sig_clearProgram, sig_forceUnload, sig_mk, sig_fold]
    | (refine (sig_foldl ?_ _ _).trans ?_)
    | split
    | intro _

theorem sig_sanKeys (s) : sig (sanKeys s) = sig s := by
  unfold sanKeys
  repeat' first
    | with_reducible rfl
    | simp only [sig_removeRange]
    | (refine (sig_foldl ?_ _ _).trans ?_)
    | intro _

theorem sig_sanGroves (s) : sig (sanGroves s) = sig s := by
  unfold sanGroves
  repeat' first
    | with_reducible rfl
    | simp only [sig_sanitiseGrove]
    | (refine (sig_foldl ?_ _ _).trans ?_)
    | intro _

theorem sig_sanFuse (s x1) : sig (sanFuse s x1) = sig s := by
  unfold sanFuse
  repeat' first
    | with_reducible rfl
    | simp only [sig_mk, sig_fold]
    | split

theorem sig_sanRetire (s x1) : sig (sanRetire s x1) = sig s := by
  unfold sanRetire
  repeat' first
    | with_reducible rfl
    | simp only [sig_mk, sig_fold]
    | split

theorem sig_sanForce (s x1) : sig (sanForce s x1) = sig s := by
  unfold sanForce
  repeat' first
    | with_reducible rfl
    | simp only [sig_secSignal, sig_mk, sig_fold]

theorem sig_sanDo (s x1) : sig (sanDo s x1) = sig s := by
  unfold sanDo
  repeat' first
    | with_reducible rfl
    | simp only [sig_sanForce, sig_sanFuse, sig_sanGroves, sig_sanKeys, sig_sanLinks, sig_sanLoads, sig_sanRetire, sig_mk, sig_fold]
    | split

theorem sig_sanTail (s x1) : sig (sanTail s x1) = sig s := by
  unfold sanTail
  repeat' first
    | with_reducible rfl
    | simp only [sig_sanForce, sig_sanFuse, sig_sanGroves, sig_sanKeys, sig_sanRetire]

theorem sig_sanStep (s) : sig (sanStep s) = sig s := by
  unfold sanStep
  repeat' first
    | with_reducible rfl
    | simp only [sig_sanDo]
    | split

theorem sig_applyToken (s x1) : sig (applyToken s x1) = sig s := by
  unfold applyToken
  repeat' first
    | with_reducible rfl
    | simp only [sig_secSignal, sig_mk, sig_fold]
    | split

theorem sig_runToken (s x1) : sig (runToken s x1) = sig s := by
  unfold runToken
  repeat' first
    | with_reducible rfl
    | simp only [sig_applyToken, sig_newNonce, sig_mk, sig_fold]
    | split

theorem sig_secWrite (s x1 x2 x3 x4 b) (h : ∀ u, sig (b u) = sig u) : sig (secWrite s x1 x2 x3 x4 b) = sig s := by
  unfold secWrite
  repeat' first
    | with_reducible rfl
    | simp only [h]
    | (refine (sig_guardWrite _ _ _ _ _ _ _ _ _ ?_).trans ?_)
    | (refine (sig_foldl ?_ _ _).trans ?_)
    | split
    | intro _

theorem sig_putSlot (s x1 x2) : sig (putSlot s x1 x2) = sig s := by
  unfold putSlot
  repeat' first
    | with_reducible rfl
    | simp only [sig_mk, sig_fold]
    | split

theorem sig_commit (s) : sig (commit s) = sig s := by
  unfold commit
  repeat' first
    | with_reducible rfl
    | simp only [sig_putSlot, sig_mk, sig_fold]
    | (refine (sig_foldl ?_ _ _).trans ?_)
    | split
    | intro _

theorem sig_submit (s) : sig (submit s) = sig s := by
  unfold submit
  repeat' first
    | with_reducible rfl
    | simp only [sig_runToken, sig_mk, sig_fold]

theorem sig_mboxCtrl (x0 s) : sig (mboxCtrl x0 s) = sig s := by
  unfold mboxCtrl
  repeat' first
    | with_reducible rfl
    | simp only [sig_commit, sig_submit]
    | (refine (sig_secWrite _ _ _ _ _ _ ?_).trans ?_)
    | split
    | intro _

theorem sig_doToken (x0 x1 s) : sig (doToken x0 x1 s) = sig s := by
  unfold doToken
  repeat' first
    | with_reducible rfl
    | simp only [sig_mboxCtrl, sig_runToken]
    | split

theorem sig_doDeploy (x0 s) : sig (doDeploy x0 s) = sig s := by
  unfold doDeploy
  repeat' first
    | with_reducible rfl
    | simp only [sig_doToken]

theorem sig_doEnterService (x0 s) : sig (doEnterService x0 s) = sig s := by
  unfold doEnterService
  repeat' first
    | with_reducible rfl
    | simp only [sig_doToken]

theorem sig_doExitService (x0 s) : sig (doExitService x0 s) = sig s := by
  unfold doExitService
  repeat' first
    | with_reducible rfl
    | simp only [sig_doToken]

theorem sig_doRetire (x0 s) : sig (doRetire x0 s) = sig s := by
  unfold doRetire
  repeat' first
    | with_reducible rfl
    | simp only [sig_doToken]

theorem sig_doCommit (x0 s) : sig (doCommit x0 s) = sig s := by
  unfold doCommit
  repeat' first
    | with_reducible rfl
    | simp only [sig_mboxCtrl]
    | split

theorem sig_doFirmwareUpdate (x0 x1 x2 s) : sig (doFirmwareUpdate x0 x1 x2 s) = sig s := by
  unfold doFirmwareUpdate
  repeat' first
    | with_reducible rfl
    | simp only [sig_putSlot, sig_mk, sig_fold]
    | split

theorem sig_doOwnerChainWrite (x0 s) : sig (doOwnerChainWrite x0 s) = sig s := by
  unfold doOwnerChainWrite
  repeat' first
    | with_reducible rfl
    | simp only [sig_mk, sig_fold]
    | split

theorem sig_drawFwKey (s) : sig (drawFwKey s) = sig s := by
  unfold drawFwKey
  repeat' first
    | with_reducible rfl
    | simp only [sig_drawKey, sig_mk, sig_fold]
    | split

theorem sig_doTrngHealthTest (x0 s) : sig (doTrngHealthTest x0 s) = sig s := by
  unfold doTrngHealthTest
  repeat' first
    | with_reducible rfl
    | simp only [sig_drawFwKey, sig_raise, sig_mk, sig_fold]
    | split

theorem sig_doHostCommandComplete (x0 s) : sig (doHostCommandComplete x0 s) = sig s := by
  unfold doHostCommandComplete
  repeat' first
    | with_reducible rfl
    | simp only [sig_finishCmd]
    | split

theorem sig_warmLogs (s) : sig (warmLogs s) = sig s := by
  unfold warmLogs
  repeat' first
    | with_reducible rfl
    | simp only [sig_closeAll, sig_modComb]
    | (refine (sig_foldl ?_ _ _).trans ?_)
    | intro _

theorem sig_leaveTokens (s) : sig (leaveTokens s) = sig s := by
  unfold leaveTokens
  repeat' first
    | with_reducible rfl
    | simp only [sig_mk, sig_fold]

theorem sig_warmReset (s) : sig (warmReset s) = sig s := by
  unfold warmReset
  repeat' first
    | with_reducible rfl
    | simp only [sig_leaveTokens, sig_warmLogs, sig_mk, sig_fold]

theorem sig_latchFuse (s x1) : sig (latchFuse s x1) = sig s := by
  unfold latchFuse
  repeat' first
    | with_reducible rfl
    | simp only [sig_mk, sig_fold]
    | (refine (sig_foldl ?_ _ _).trans ?_)
    | split

theorem sig_noteBurnt (s x1) : sig (noteBurnt s x1) = sig s := by
  unfold noteBurnt
  repeat' first
    | with_reducible rfl
    | simp only [sig_mk, sig_fold]
    | split

theorem sig_latchLife (s) : sig (latchLife s) = sig s := by
  unfold latchLife
  repeat' first
    | with_reducible rfl
    | simp only [sig_secSignal, sig_mk, sig_fold]
    | split

theorem sig_cruiseReport (s x1) : sig (cruiseReport s x1) = sig s := by
  unfold cruiseReport
  repeat' first
    | with_reducible rfl
    | simp only [sig_raise]

theorem sig_failPart (x0 s x2) : sig (failPart x0 s x2) = sig s := by
  unfold failPart
  repeat' first
    | with_reducible rfl
    | simp only [sig_modCore, sig_modSite]
    | split

theorem sig_latchFuses (s x1) : sig (latchFuses s x1) = sig s := by
  unfold latchFuses
  repeat' first
    | with_reducible rfl
    | simp only [sig_failPart, sig_latchFuse, sig_latchLife, sig_modGrove, sig_modPort, sig_noteBurnt, sig_raise, sig_mk, sig_fold]
    | (refine (sig_foldl ?_ _ _).trans ?_)
    | split
    | intro _

theorem sig_bootSlot (s x1) : sig (bootSlot s x1) = sig s := by
  unfold bootSlot
  repeat' first
    | with_reducible rfl
    | simp only [sig_newNonce, sig_mk, sig_fold]

theorem sig_boot (s) : sig (boot s) = sig s := by
  unfold boot
  repeat' first
    | with_reducible rfl
    | simp only [sig_bootSlot, sig_newNonce, sig_putSlot, sig_mk, sig_fold]
    | split

theorem sig_trainStack (s x1 x2) : sig (trainStack s x1 x2) = sig s := by
  unfold trainStack
  repeat' first
    | with_reducible rfl
    | simp only [sig_modStack, sig_raise, sig_mk, sig_fold]
    | split

theorem sig_trainPort (s x1 x2) : sig (trainPort s x1 x2) = sig s := by
  unfold trainPort
  repeat' first
    | with_reducible rfl
    | simp only [sig_modPort, sig_portSignal, sig_raiseEv]
    | split

theorem sig_landingUp (s x1) : sig (landingUp s x1) = sig s := by
  unfold landingUp
  repeat' first
    | with_reducible rfl
    | simp only [sig_trainPort, sig_trainStack]
    | (refine (sig_foldl ?_ _ _).trans ?_)
    | intro _

theorem sig_blazing (x0 x1 b s) (h : ∀ u, sig (b u) = sig u) : sig (blazing x0 x1 b s) = sig s := by
  unfold blazing
  repeat' first
    | with_reducible rfl
    | simp only [sig_mk, sig_fold, h]

theorem sig_powerRegion (s x1 x2) : sig (powerRegion s x1 x2) = sig s := by
  unfold powerRegion
  repeat' first
    | with_reducible rfl
    | simp only [sig_blazeGrove, sig_mk, sig_fold]
    | (refine (sig_foldl ?_ _ _).trans ?_)
    | split
    | intro _

theorem sig_setRails (s x1) : sig (setRails s x1) = sig s := by
  unfold setRails
  repeat' first
    | with_reducible rfl
    | simp only [sig_mk, sig_fold]

theorem sig_powerUp (s x1) : sig (powerUp s x1) = sig s := by
  unfold powerUp
  repeat' first
    | with_reducible rfl
    | simp only [sig_blazeGrove, sig_powerRegion, sig_setRails]
    | (refine (sig_blazing _ _ _ _ ?_).trans ?_)
    | (refine (sig_foldl ?_ _ _).trans ?_)
    | intro _

theorem sig_testFail (s x1) : sig (testFail s x1) = sig s := by
  unfold testFail
  repeat' first
    | with_reducible rfl
    | simp only [sig_blazeRouter, sig_markLostSlice, sig_raise, sig_spendSite, sig_substColumn, sig_substLane]
    | split

theorem sig_initialTest (s x1) : sig (initialTest s x1) = sig s := by
  unfold initialTest
  repeat' first
    | with_reducible rfl
    | simp only [sig_badReducer, sig_testFail, sig_mk, sig_fold]
    | (refine (sig_foldl ?_ _ _).trans ?_)
    | intro _

theorem sig_numberGrove (s x1) : sig (numberGrove s x1) = sig s := by
  unfold numberGrove
  repeat' first
    | with_reducible rfl
    | simp only [sig_modGrove]

theorem sig_numberAll (s) : sig (numberAll s) = sig s := by
  unfold numberAll
  repeat' first
    | with_reducible rfl
    | simp only [sig_numberGrove, sig_rebuildDetours, sig_mk, sig_fold]
    | (refine (sig_foldl ?_ _ _).trans ?_)
    | intro _

theorem sig_imageGrove (s x1) : sig (imageGrove s x1) = sig s := by
  unfold imageGrove
  repeat' first
    | with_reducible rfl
    | simp only [sig_writeResident]
    | (refine (sig_foldl ?_ _ _).trans ?_)
    | split
    | intro _

theorem sig_imageLost (s x1) : sig (imageLost s x1) = sig s := by
  unfold imageLost
  repeat' first
    | with_reducible rfl
    | simp only [sig_modGrove, sig_numberGrove, sig_spendSite]
    | split

theorem sig_imageAll (s x1) : sig (imageAll s x1) = sig s := by
  unfold imageAll
  repeat' first
    | with_reducible rfl
    | simp only [sig_imageGrove, sig_imageLost]
    | (refine (sig_foldl ?_ _ _).trans ?_)
    | intro _

theorem sig_publish (s) : sig (publish s) = sig s := by
  unfold publish
  repeat' first
    | with_reducible rfl
    | simp only [sig_mk, sig_fold]

theorem sig_enterReady (s x1) : sig (enterReady s x1) = sig s := by
  unfold enterReady
  repeat' first
    | with_reducible rfl
    | simp only [sig_modCore, sig_publish, sig_pump, sig_mk, sig_fold]
    | (refine (sig_foldl ?_ _ _).trans ?_)
    | intro _

theorem sig_doDevRstNFall (x0 s) : sig (doDevRstNFall x0 s) = sig s := by
  unfold doDevRstNFall
  repeat' first
    | with_reducible rfl
    | simp only [sig_warmReset, sig_mk, sig_fold]
    | split

theorem sig_switchOff (s) : sig (switchOff s) = sig s := by
  unfold switchOff
  repeat' first
    | with_reducible rfl
    | simp only [sig_mk, sig_fold]

theorem sig_doThermalTrip (x0 x1 s) : sig (doThermalTrip x0 x1 s) = sig s := by
  unfold doThermalTrip
  repeat' first
    | with_reducible rfl
    | simp only [sig_switchOff, sig_mk, sig_fold]
    | split

theorem sig_clockReport (s x1) : sig (clockReport s x1) = sig s := by
  unfold clockReport
  repeat' first
    | with_reducible rfl
    | simp only [sig_raise]

theorem sig_doRefclkLoss (s) : sig (doRefclkLoss s) = sig s := by
  unfold doRefclkLoss
  repeat' first
    | with_reducible rfl
    | simp only [sig_clockReport, sig_pcieReset, sig_mk, sig_fold]
    | split

theorem sig_doMclk25Loss (s) : sig (doMclk25Loss s) = sig s := by
  unfold doMclk25Loss
  repeat' first
    | with_reducible rfl
    | simp only [sig_clockReport, sig_mk, sig_fold]
    | split

theorem sig_oscHold (s) : sig (oscHold s) = sig s := by
  unfold oscHold
  repeat' first
    | with_reducible rfl
    | simp only [sig_mk, sig_fold]
    | split

theorem sig_setHoldAll (s x1 x2) : sig (setHoldAll s x1 x2) = sig s := by
  unfold setHoldAll
  repeat' first
    | with_reducible rfl
    | simp only [sig_modCore]

theorem sig_holdAllCores (s) : sig (holdAllCores s) = sig s := by
  unfold holdAllCores
  repeat' first
    | with_reducible rfl
    | simp only [sig_setHoldAll, sig_mk, sig_fold]
    | (refine (sig_foldl ?_ _ _).trans ?_)
    | split
    | intro _

theorem sig_undoHolds (s) : sig (undoHolds s) = sig s := by
  unfold undoHolds
  repeat' first
    | with_reducible rfl
    | simp only [sig_setHoldAll, sig_mk, sig_fold]
    | (refine (sig_foldl ?_ _ _).trans ?_)
    | split
    | intro _

theorem sig_refuseDormant (s x1) : sig (refuseDormant s x1) = sig s := by
  unfold refuseDormant
  repeat' first
    | with_reducible rfl
    | simp only [sig_undoHolds, sig_mk, sig_fold]

theorem sig_freeResident (s) : sig (freeResident s) = sig s := by
  unfold freeResident
  repeat' first
    | with_reducible rfl
    | simp only [sig_freeCtx]
    | (refine (sig_foldl ?_ _ _).trans ?_)
    | split
    | intro _

theorem sig_saveCore (s x1) : sig (saveCore s x1) = sig s := by
  unfold saveCore
  repeat' first
    | with_reducible rfl
    | simp only [sig_modCore]

theorem sig_sleepNow (s) : sig (sleepNow s) = sig s := by
  unfold sleepNow
  repeat' first
    | with_reducible rfl
    | simp only [sig_modCore, sig_modStack, sig_saveCore, sig_setRails, sig_mk, sig_fold]
    | (refine (sig_foldl ?_ _ _).trans ?_)
    | split
    | intro _

theorem sig_dormStep (s) : sig (dormStep s) = sig s := by
  unfold dormStep
  repeat' first
    | with_reducible rfl
    | simp only [sig_holdAllCores, sig_refuseDormant, sig_sleepNow]
    | split

theorem sig_requestDormant (s) : sig (requestDormant s).1 = sig s := by
  unfold requestDormant
  repeat' first
    | with_reducible rfl
    | simp only [sig_dormStep, sig_freeResident, sig_refuseDormant, sig_mk, sig_fold]
    | (refine (sig_foldl ?_ _ _).trans ?_)
    | split

theorem sig_dormCtrlWrite (x0 s) : sig (dormCtrlWrite x0 s) = sig s := by
  unfold dormCtrlWrite
  repeat' first
    | with_reducible rfl
    | simp only [sig_requestDormant, sig_mk, sig_fold]
    | (refine (sig_guardWrite _ _ _ _ _ _ _ _ _ ?_).trans ?_)
    | split
    | intro _

theorem sig_doDormant (x0 s) : sig (doDormant x0 s) = sig s := by
  unfold doDormant
  repeat' first
    | with_reducible rfl
    | simp only [sig_dormCtrlWrite, sig_finishToken, sig_requestDormant, sig_mk, sig_fold]
    | (refine (sig_withToken _ _ _ _ _ ?_).trans ?_)
    | split
    | intro _

theorem sig_doDormantQuietTimeout (s) : sig (doDormantQuietTimeout s) = sig s := by
  unfold doDormantQuietTimeout
  repeat' first
    | with_reducible rfl
    | simp only [sig_refuseDormant]
    | split

theorem sig_doDormantTimerExpiry (s) : sig (doDormantTimerExpiry s) = sig s := by
  unfold doDormantTimerExpiry
  repeat' first
    | with_reducible rfl
    | simp only [sig_fireWake, sig_mk, sig_fold]
    | split

theorem sig_wakeCtx (x0 s x2) : sig (wakeCtx x0 s x2) = sig s := by
  unfold wakeCtx
  repeat' first
    | with_reducible rfl
    | simp only [sig_modCtxOf, sig_precise]
    | split

theorem sig_releaseAllCores (s) : sig (releaseAllCores s) = sig s := by
  unfold releaseAllCores
  repeat' first
    | with_reducible rfl
    | simp only [sig_setHoldAll, sig_mk, sig_fold]
    | (refine (sig_foldl ?_ _ _).trans ?_)
    | split
    | intro _

theorem sig_serveWindow (s) : sig (serveWindow s) = sig s := by
  unfold serveWindow
  repeat' first
    | with_reducible rfl
    | simp only [sig_windowAccess, sig_mk, sig_fold]
    | (refine (sig_foldl ?_ _ _).trans ?_)
    | split
    | intro _

theorem sig_undoEntry (x0 s) : sig (undoEntry x0 s) = sig s := by
  unfold undoEntry
  repeat' first
    | with_reducible rfl
    | simp only [sig_undoHolds, sig_mk, sig_fold]

theorem sig_doWakeFromDormant (x0 x1 s) : sig (doWakeFromDormant x0 x1 s) = sig s := by
  unfold doWakeFromDormant
  repeat' first
    | with_reducible rfl
    | simp only [sig_modStack, sig_releaseAllCores, sig_serveWindow, sig_setRails, sig_slUpset, sig_undoEntry, sig_wakeCtx, sig_mk, sig_fold]
    | (refine (sig_foldl ?_ _ _).trans ?_)
    | split
    | intro _

theorem sig_doMgmtWake (x0 s) : sig (doMgmtWake x0 s) = sig s := by
  unfold doMgmtWake
  repeat' first
    | with_reducible rfl
    | simp only [sig_finishToken, sig_fireWake]
    | (refine (sig_withToken _ _ _ _ _ ?_).trans ?_)
    | intro _

theorem sig_doMgmtAck (x0 s) : sig (doMgmtAck x0 s) = sig s := by
  unfold doMgmtAck
  repeat' first
    | with_reducible rfl
    | simp only [sig_advanceHead, sig_finishToken]
    | (refine (sig_withToken _ _ _ _ _ ?_).trans ?_)
    | split
    | intro _

theorem sig_doMgmtRetirePort (x0 s) : sig (doMgmtRetirePort x0 s) = sig s := by
  unfold doMgmtRetirePort
  repeat' first
    | with_reducible rfl
    | simp only [sig_finishToken, sig_retirePort]
    | (refine (sig_withToken _ _ _ _ _ ?_).trans ?_)
    | split
    | intro _

theorem sig_doMgmtRtWrite (x0 s) : sig (doMgmtRtWrite x0 s) = sig s := by
  unfold doMgmtRtWrite
  repeat' first
    | with_reducible rfl
    | simp only [sig_finishToken, sig_mk, sig_fold]
    | (refine (sig_withToken _ _ _ _ _ ?_).trans ?_)
    | (refine (sig_foldl ?_ _ _).trans ?_)
    | split
    | intro _

theorem sig_doMgmtHold (x0 s) : sig (doMgmtHold x0 s) = sig s := by
  unfold doMgmtHold
  repeat' first
    | with_reducible rfl
    | simp only [sig_finishToken, sig_mk, sig_fold]
    | (refine (sig_withToken _ _ _ _ _ ?_).trans ?_)
    | (refine (sig_foldl ?_ _ _).trans ?_)
    | intro _

theorem sig_doMgmtRelease (x0 s) : sig (doMgmtRelease x0 s) = sig s := by
  unfold doMgmtRelease
  repeat' first
    | with_reducible rfl
    | simp only [sig_finishToken, sig_mk, sig_fold]
    | (refine (sig_withToken _ _ _ _ _ ?_).trans ?_)
    | intro _

theorem sig_tryBlaze (s x1) : sig (tryBlaze s x1) = sig s := by
  unfold tryBlaze
  repeat' first
    | with_reducible rfl
    | simp only [sig_blazeUnit, sig_finishToken]
    | split

theorem sig_beginToken (s x1) : sig (beginToken s x1) = sig s := by
  unfold beginToken
  repeat' first
    | with_reducible rfl
    | simp only [sig_mk, sig_fold]

theorem sig_tryReset (s t) : sig (tryReset s t) = sig s := by
  unfold tryReset
  simp only []
  split
  · split
    · rfl
    split
    · exact sig_finishToken ..
    split
    · rw [sig_beginToken, sig_freeCtx]
    · rw [sig_finishToken, sig_beginToken, sig_freeCtx]
  · split
    · rfl
    · rw [sig_finishToken, sig_resetCore]
  · split
    · rfl
    · rw [sig_finishToken, sig_resetGrove]
  · split
    · rfl
    · rw [sig_finishToken, sig_resetStand]

theorem sig_trySwap (s t) : sig (trySwap s t) = sig s := by
  unfold trySwap
  simp only []
  split
  · exact sig_finishToken ..
  split
  · rw [sig_finishToken, sig_setActive]
  · rfl

theorem sig_tryToken (s t) : sig (tryToken s t) = sig s := by
  unfold tryToken
  split
  · rfl
  split
  · exact sig_tryBlaze ..
  · exact sig_tryReset ..
  · exact sig_trySwap ..
  · rfl

theorem sig_pollTokens (s) : sig (pollTokens s) = sig s := by
  unfold pollTokens
  repeat' first
    | with_reducible rfl
    | simp only [sig_tryToken]
    | (refine (sig_foldl ?_ _ _).trans ?_)
    | split
    | intro _

theorem sig_startToken (s x1) : sig (startToken s x1) = sig s := by
  unfold startToken
  repeat' first
    | with_reducible rfl
    | simp only [sig_tryToken]
    | split

theorem sig_doMgmtBlaze (x0 s) : sig (doMgmtBlaze x0 s) = sig s := by
  unfold doMgmtBlaze
  repeat' first
    | with_reducible rfl
    | simp only [sig_finishToken, sig_startToken]
    | (refine (sig_withToken _ _ _ _ _ ?_).trans ?_)
    | split
    | intro _

theorem sig_doMgmtSwap (x0 s) : sig (doMgmtSwap x0 s) = sig s := by
  unfold doMgmtSwap
  repeat' first
    | with_reducible rfl
    | simp only [sig_startToken]
    | (refine (sig_withToken _ _ _ _ _ ?_).trans ?_)
    | intro _

theorem sig_doMgmtStatus (x0 s) : sig (doMgmtStatus x0 s) = sig s := by
  unfold doMgmtStatus
  repeat' first
    | with_reducible rfl
    | simp only [sig_withoutToken]

theorem sig_doMgmtReadLog (x0 s) : sig (doMgmtReadLog x0 s) = sig s := by
  unfold doMgmtReadLog
  repeat' first
    | with_reducible rfl
    | simp only [sig_withoutToken]

theorem sig_activateAnswer (s x1) : sig (activateAnswer s x1) = sig s := by
  unfold activateAnswer
  repeat' first
    | with_reducible rfl
    | simp only [sig_mk, sig_fold]

theorem sig_handoff (s x1) : sig (handoff s x1) = sig s := by
  unfold handoff
  repeat' first
    | with_reducible rfl
    | simp only [sig_mk, sig_fold]

theorem sig_waitActivation (s x1 x2) : sig (waitActivation s x1 x2) = sig s := by
  unfold waitActivation
  repeat' first
    | with_reducible rfl
    | simp only [sig_mk, sig_fold]

theorem sig_decideActivation (s x1 x2) : sig (decideActivation s x1 x2) = sig s := by
  unfold decideActivation
  repeat' first
    | with_reducible rfl
    | simp only [sig_activateAnswer, sig_handoff, sig_waitActivation]
    | split

theorem sig_doActivateFirmware (x0 s) : sig (doActivateFirmware x0 s) = sig s := by
  unfold doActivateFirmware
  repeat' first
    | with_reducible rfl
    | simp only [sig_decideActivation, sig_waitActivation]
    | split

theorem sig_endHandoff (s) : sig (endHandoff s) = sig s := by
  unfold endHandoff
  repeat' first
    | with_reducible rfl
    | simp only [sig_activateAnswer, sig_mk, sig_fold]

theorem sig_activationStep (s) : sig (activationStep s) = sig s := by
  unfold activationStep
  repeat' first
    | with_reducible rfl
    | simp only [sig_decideActivation, sig_endHandoff, sig_mk, sig_fold]
    | split

theorem sig_doActivationExchangeTimeout (s) : sig (doActivationExchangeTimeout s) = sig s := by
  unfold doActivationExchangeTimeout
  repeat' first
    | with_reducible rfl
    | simp only [sig_activateAnswer, sig_mk, sig_fold]
    | split

theorem sig_fallBack (s x1) : sig (fallBack s x1) = sig s := by
  unfold fallBack
  repeat' first
    | with_reducible rfl
    | simp only [sig_activateAnswer, sig_mk, sig_fold]

theorem sig_doHandoffFallback (x0 s) : sig (doHandoffFallback x0 s) = sig s := by
  unfold doHandoffFallback
  repeat' first
    | with_reducible rfl
    | simp only [sig_fallBack, sig_raise, sig_mk, sig_fold]
    | split

theorem sig_freeSeat (s x1) : sig (freeSeat s x1) = sig s := by
  unfold freeSeat
  repeat' first
    | with_reducible rfl
    | simp only [sig_freeCtx]
    | (refine (sig_foldl ?_ _ _).trans ?_)
    | intro _

theorem sig_restartService (s x1) : sig (restartService s x1) = sig s := by
  unfold restartService
  repeat' first
    | with_reducible rfl
    | simp only [sig_setCore]
    | split

theorem sig_doResidentImageRoll (x0 s) : sig (doResidentImageRoll x0 s) = sig s := by
  unfold doResidentImageRoll
  repeat' first
    | with_reducible rfl
    | simp only [sig_dropSweep, sig_freeSeat, sig_restartService, sig_writeResident, sig_mk, sig_fold]
    | (refine (sig_foldl ?_ _ _).trans ?_)
    | split
    | intro _

theorem sig_paceWrite (s x1 x2 x3 x4 b) (h : ∀ u, sig (b u) = sig u) : sig (paceWrite s x1 x2 x3 x4 b) = sig s := by
  unfold paceWrite
  repeat' first
    | with_reducible rfl
    | simp only [h]
    | (refine (sig_guardWrite _ _ _ _ _ _ _ _ _ ?_).trans ?_)
    | (refine (sig_foldl ?_ _ _).trans ?_)
    | split
    | intro _

theorem sig_mapRegions (s x1) : sig (mapRegions s x1) = sig s := by
  unfold mapRegions
  repeat' first
    | with_reducible rfl
    | simp only [sig_mk, sig_fold]

theorem sig_skewStep (s) : sig (skewStep s) = sig s := by
  unfold skewStep
  repeat' first
    | with_reducible rfl
    | simp only [sig_mapRegions, sig_raise, sig_signalVec, sig_mk, sig_fold]
    | (refine (sig_foldl ?_ _ _).trans ?_)
    | split

theorem sig_takeReadings (s x1) : sig (takeReadings s x1) = sig s := by
  unfold takeReadings
  repeat' first
    | with_reducible rfl
    | simp only [sig_mapRegions, sig_modStack, sig_mk, sig_fold]
    | (refine (sig_foldl ?_ _ _).trans ?_)
    | split
    | intro _

theorem sig_takeAvs (s x1) : sig (takeAvs s x1) = sig s := by
  unfold takeAvs
  repeat' first
    | with_reducible rfl
    | simp only [sig_raise, sig_mk, sig_fold]
    | (refine (sig_foldl ?_ _ _).trans ?_)
    | intro _

theorem sig_throttleReports (s x1) : sig (throttleReports s x1) = sig s := by
  unfold throttleReports
  repeat' first
    | with_reducible rfl
    | simp only [sig_raise, sig_signalVec]
    | (refine (sig_foldl ?_ _ _).trans ?_)
    | split
    | intro _

theorem sig_recalRegion (s x1 x2 x3) : sig (recalRegion s x1 x2 x3) = sig s := by
  unfold recalRegion
  repeat' first
    | with_reducible rfl
    | simp only [sig_raise, sig_raiseEv, sig_signalVec, sig_mk, sig_fold]
    | split

theorem sig_doRegionRecalibration (x0 x1 x2 s) : sig (doRegionRecalibration x0 x1 x2 s) = sig s := by
  unfold doRegionRecalibration
  repeat' first
    | with_reducible rfl
    | simp only [sig_recalRegion]
    | split

theorem sig_recalStep (s x1) : sig (recalStep s x1) = sig s := by
  unfold recalStep
  repeat' first
    | with_reducible rfl
    | simp only [sig_recalRegion]
    | (refine (sig_foldl ?_ _ _).trans ?_)
    | split
    | intro _

theorem sig_doGovernorInterval (x0 s) : sig (doGovernorInterval x0 s) = sig s := by
  unfold doGovernorInterval
  repeat' first
    | with_reducible rfl
    | simp only [sig_mapRegions, sig_recalStep, sig_setRails, sig_skewStep, sig_takeAvs, sig_takeReadings, sig_throttleReports, sig_mk, sig_fold]
    | split

theorem sig_doPaceRecal (x0 s) : sig (doPaceRecal x0 s) = sig s := by
  unfold doPaceRecal
  repeat' first
    | with_reducible rfl
    | simp only [sig_mk, sig_fold]
    | (refine (sig_paceWrite _ _ _ _ _ _ ?_).trans ?_)
    | split
    | intro _

theorem sig_newCorr (s x1) : sig (newCorr s x1) = sig s := by
  unfold newCorr
  repeat' first
    | with_reducible rfl
    | simp only [sig_freshWord, sig_mk, sig_fold]

theorem sig_timeWarning (s) : sig (timeWarning s) = sig s := by
  unfold timeWarning
  repeat' first
    | with_reducible rfl
    | simp only [sig_raise, sig_signalVec]

theorem sig_hearSource (s x1) : sig (hearSource s x1) = sig s := by
  unfold hearSource
  repeat' first
    | with_reducible rfl
    | simp only [sig_newCorr, sig_timeWarning, sig_mk, sig_fold]
    | split

theorem sig_doPpsEdge (x0 s) : sig (doPpsEdge x0 s) = sig s := by
  unfold doPpsEdge
  repeat' first
    | with_reducible rfl
    | simp only [sig_hearSource]
    | split

theorem sig_doPtpSync (x0 x1 s) : sig (doPtpSync x0 x1 s) = sig s := by
  unfold doPtpSync
  repeat' first
    | with_reducible rfl
    | simp only [sig_hearSource]
    | split

theorem sig_doHoldover (s) : sig (doHoldover s) = sig s := by
  unfold doHoldover
  repeat' first
    | with_reducible rfl
    | simp only [sig_timeWarning, sig_mk, sig_fold]
    | split

theorem sig_doPaceTimeSet (x0 s) : sig (doPaceTimeSet x0 s) = sig s := by
  unfold doPaceTimeSet
  repeat' first
    | with_reducible rfl
    | simp only [sig_mk, sig_fold]
    | (refine (sig_paceWrite _ _ _ _ _ _ ?_).trans ?_)
    | intro _

theorem sig_resendNarrow (s x1 x2) : sig (resendNarrow s x1 x2) = sig s := by
  unfold resendNarrow
  repeat' first
    | with_reducible rfl
    | simp only [sig_modCore, sig_narrowAnswer, sig_sendTo]
    | split

theorem sig_resendAs (s x1 x2 x3) : sig (resendAs s x1 x2 x3) = sig s := by
  unfold resendAs
  repeat' first
    | with_reducible rfl
    | simp only [sig_injectAs]

theorem sig_resendSync (s x1 x2) : sig (resendSync s x1 x2) = sig s := by
  unfold resendSync
  repeat' first
    | with_reducible rfl
    | simp only [sig_dropSync, sig_modCore, sig_resendAs, sig_syncDone]
    | split

theorem sig_resendMsg (s x1 x2) : sig (resendMsg s x1 x2) = sig s := by
  unfold resendMsg
  repeat' first
    | with_reducible rfl
    | simp only [sig_bounce, sig_modCore, sig_resendAs]
    | split

theorem sig_resendPart (s x1 x2 x3 x4) : sig (resendPart s x1 x2 x3 x4) = sig s := by
  unfold resendPart
  repeat' first
    | with_reducible rfl
    | simp only [sig_modPart, sig_sendTo, sig_stepPart]
    | split

theorem sig_resendCore (x0 x1 s) : sig (resendCore x0 x1 s) = sig s := by
  unfold resendCore
  repeat' first
    | with_reducible rfl
    | simp only [sig_resendMsg, sig_resendNarrow, sig_resendPart, sig_resendSync]
    | (refine (sig_foldl ?_ _ _).trans ?_)
    | intro _

theorem sig_resendMcast (x0 s x2) : sig (resendMcast x0 s x2) = sig s := by
  unfold resendMcast
  repeat' first
    | with_reducible rfl
    | simp only [sig_injectAs, sig_modGrove]

theorem sig_resendArrival (x0 s x2) : sig (resendArrival x0 s x2) = sig s := by
  unfold resendArrival
  repeat' first
    | with_reducible rfl
    | simp only [sig_sendUnit, sig_setRed]

theorem sig_resendUnit (x0 x1 s) : sig (resendUnit x0 x1 s) = sig s := by
  unfold resendUnit
  repeat' first
    | with_reducible rfl
    | simp only [sig_resendArrival, sig_resendMcast]
    | (refine (sig_foldl ?_ _ _).trans ?_)
    | intro _

theorem sig_resendHost (x0 x1 s x3) : sig (resendHost x0 x1 s x3) = sig s := by
  unfold resendHost
  repeat' first
    | with_reducible rfl
    | simp only [sig_landAs, sig_modCmd]
    | split

theorem sig_doDetourResend (x0 s) : sig (doDetourResend x0 s) = sig s := by
  unfold doDetourResend
  repeat' first
    | with_reducible rfl
    | simp only [sig_resendCore, sig_resendHost, sig_resendUnit]
    | (refine (sig_foldl ?_ _ _).trans ?_)
    | split
    | intro _

theorem sig_doRR (x0 x1 x2 x3 x4 s) : sig (doRR x0 x1 x2 x3 x4 s) = sig s := by
  unfold doRR
  repeat' first
    | with_reducible rfl
    | simp only [sig_finish]
    | (refine (sig_issue _ _ _ _ _ _ _ _ _ ?_).trans ?_)
    | intro _

theorem sig_doRI (x0 x1 x2 x3 x4 s) : sig (doRI x0 x1 x2 x3 x4 s) = sig s := by
  unfold doRI
  repeat' first
    | with_reducible rfl
    | simp only [sig_finish]
    | (refine (sig_issue _ _ _ _ _ _ _ _ _ ?_).trans ?_)
    | intro _

theorem sig_doShI (x0 x1 x2 x3 x4 s) : sig (doShI x0 x1 x2 x3 x4 s) = sig s := by
  unfold doShI
  repeat' first
    | with_reducible rfl
    | simp only [sig_finish]
    | (refine (sig_issue _ _ _ _ _ _ _ _ _ ?_).trans ?_)
    | intro _

theorem sig_doConst (x0 x1 x2 x3 x4 s) : sig (doConst x0 x1 x2 x3 x4 s) = sig s := by
  unfold doConst
  repeat' first
    | with_reducible rfl
    | simp only [sig_finish]
    | (refine (sig_issue _ _ _ _ _ _ _ _ _ ?_).trans ?_)
    | intro _

theorem sig_doPR (x0 x1 x2 x3 x4 s) : sig (doPR x0 x1 x2 x3 x4 s) = sig s := by
  unfold doPR
  repeat' first
    | with_reducible rfl
    | simp only [sig_finish]
    | (refine (sig_issue _ _ _ _ _ _ _ _ _ ?_).trans ?_)
    | intro _

theorem sig_doPI (x0 x1 x2 x3 x4 s) : sig (doPI x0 x1 x2 x3 x4 s) = sig s := by
  unfold doPI
  repeat' first
    | with_reducible rfl
    | simp only [sig_finish]
    | (refine (sig_issue _ _ _ _ _ _ _ _ _ ?_).trans ?_)
    | intro _

theorem sig_doPL (x0 x1 x2 x3 x4 s) : sig (doPL x0 x1 x2 x3 x4 s) = sig s := by
  unfold doPL
  repeat' first
    | with_reducible rfl
    | simp only [sig_finish]
    | (refine (sig_issue _ _ _ _ _ _ _ _ _ ?_).trans ?_)
    | intro _

theorem sig_jump (s x1 x2 x3 x4) : sig (jump s x1 x2 x3 x4) = sig s := by
  unfold jump
  repeat' first
    | with_reducible rfl
    | simp only [sig_modCtxOf]

theorem sig_doBranch (x0 x1 x2 x3 x4 s) : sig (doBranch x0 x1 x2 x3 x4 s) = sig s := by
  unfold doBranch
  repeat' first
    | with_reducible rfl
    | simp only [sig_jump]
    | (refine (sig_issue _ _ _ _ _ _ _ _ _ ?_).trans ?_)
    | split
    | intro _

theorem sig_doBranchTo (x0 x1 x2 x3 x4 s) : sig (doBranchTo x0 x1 x2 x3 x4 s) = sig s := by
  unfold doBranchTo
  repeat' first
    | with_reducible rfl
    | simp only [sig_jump, sig_precise]
    | (refine (sig_issue _ _ _ _ _ _ _ _ _ ?_).trans ?_)
    | split
    | intro _

theorem sig_narrowOwn (s x1 x2 x3 x4 x5 x6 x7 x8) : sig (narrowOwn s x1 x2 x3 x4 x5 x6 x7 x8) = sig s := by
  unfold narrowOwn
  repeat' first
    | with_reducible rfl
    | simp only [sig_advance, sig_finish, sig_modCore, sig_precise]
    | split

theorem sig_narrowSend (s x1 x2 x3 x4 x5 x6 x7 x8) : sig (narrowSend s x1 x2 x3 x4 x5 x6 x7 x8) = sig s := by
  unfold narrowSend
  repeat' first
    | with_reducible rfl
    | simp only [sig_modCtxOf, sig_sendTo, sig_setCore]

theorem sig_doNarrow (x0 x1 x2 x3 x4 x5 x6 s) : sig (doNarrow x0 x1 x2 x3 x4 x5 x6 s) = sig s := by
  unfold doNarrow
  repeat' first
    | with_reducible rfl
    | simp only [sig_advance, sig_narrowNoEffect, sig_narrowOwn, sig_narrowSend, sig_precise]
    | (refine (sig_issue _ _ _ _ _ _ _ _ _ ?_).trans ?_)
    | split
    | intro _

theorem sig_ignoreWrite (s x1) : sig (ignoreWrite s x1) = sig s := by
  unfold ignoreWrite
  repeat' first
    | with_reducible rfl
    | simp only [sig_hostAccess]

theorem sig_wrejWrite (s x1 x2 x3 x4 x5) : sig (wrejWrite s x1 x2 x3 x4 x5) = sig s := by
  unfold wrejWrite
  repeat' first
    | with_reducible rfl
    | simp only [sig_mk, sig_fold]
    | (refine (sig_guardWrite _ _ _ _ _ _ _ _ _ ?_).trans ?_)
    | split
    | intro _

theorem sig_pfWrite (s x1 x2 x3 x4 x5 b) (h : ∀ u, sig (b u) = sig u) : sig (pfWrite s x1 x2 x3 x4 x5 b) = sig s := by
  unfold pfWrite
  repeat' first
    | with_reducible rfl
    | simp only [h]
    | (refine (sig_guardWrite _ _ _ _ _ _ _ _ _ ?_).trans ?_)
    | (refine (sig_foldl ?_ _ _).trans ?_)
    | split
    | intro _

theorem sig_pfRo (s x1 x2 x3) : sig (pfRo s x1 x2 x3) = sig s := by
  unfold pfRo
  repeat' first
    | with_reducible rfl
    | (refine (sig_pfWrite _ _ _ _ _ _ _ ?_).trans ?_)
    | intro _

theorem sig_twinNextWrite (x0 x1 s) : sig (twinNextWrite x0 x1 s) = sig s := by
  unfold twinNextWrite
  repeat' first
    | with_reducible rfl
    | simp only [sig_mk, sig_fold]
    | (refine (sig_pfWrite _ _ _ _ _ _ _ ?_).trans ?_)
    | (refine (sig_foldl ?_ _ _).trans ?_)
    | split
    | intro _

theorem sig_kakCfgWrite (x0 s) : sig (kakCfgWrite x0 s) = sig s := by
  unfold kakCfgWrite
  repeat' first
    | with_reducible rfl
    | simp only [sig_mk, sig_fold]
    | (refine (sig_pfWrite _ _ _ _ _ _ _ ?_).trans ?_)
    | intro _

theorem sig_devWrite (x0 x1 s) : sig (devWrite x0 x1 s) = sig s := by
  unfold devWrite
  repeat' first
    | with_reducible rfl
    | simp only [sig_dormCtrlWrite, sig_ignoreWrite, sig_kakCfgWrite, sig_pfRo, sig_twinNextWrite, sig_wrejWrite]
    | split

theorem sig_paceModeWrite (x0 s) : sig (paceModeWrite x0 s) = sig s := by
  unfold paceModeWrite
  repeat' first
    | with_reducible rfl
    | simp only [sig_mk, sig_fold]
    | (refine (sig_paceWrite _ _ _ _ _ _ ?_).trans ?_)
    | intro _

theorem sig_paceLimitWrite (x0 s) : sig (paceLimitWrite x0 s) = sig s := by
  unfold paceLimitWrite
  repeat' first
    | with_reducible rfl
    | simp only [sig_mk, sig_fold]
    | (refine (sig_paceWrite _ _ _ _ _ _ ?_).trans ?_)
    | intro _

theorem sig_paceStatusWrite (x0 s) : sig (paceStatusWrite x0 s) = sig s := by
  unfold paceStatusWrite
  repeat' first
    | with_reducible rfl
    | simp only [sig_mk, sig_fold]
    | (refine (sig_paceWrite _ _ _ _ _ _ ?_).trans ?_)
    | split
    | intro _

theorem sig_regionWrite (x0 x1 s) : sig (regionWrite x0 x1 s) = sig s := by
  unfold regionWrite
  repeat' first
    | with_reducible rfl
    | simp only [sig_mk, sig_fold]
    | (refine (sig_paceWrite _ _ _ _ _ _ ?_).trans ?_)
    | intro _

theorem sig_timeCtrlWrite (x0 s) : sig (timeCtrlWrite x0 s) = sig s := by
  unfold timeCtrlWrite
  repeat' first
    | with_reducible rfl
    | simp only [sig_mk, sig_fold]
    | (refine (sig_paceWrite _ _ _ _ _ _ ?_).trans ?_)
    | split
    | intro _

theorem sig_paceBlockWrite (x0 x1 s) : sig (paceBlockWrite x0 x1 s) = sig s := by
  unfold paceBlockWrite
  repeat' first
    | with_reducible rfl
    | simp only [sig_doPaceRecal, sig_doPaceTimeSet, sig_ignoreWrite, sig_paceLimitWrite, sig_paceModeWrite, sig_paceStatusWrite, sig_pfRo, sig_regionWrite, sig_timeCtrlWrite, sig_wrejWrite]
    | split

theorem sig_secStatusWrite (x0 s) : sig (secStatusWrite x0 s) = sig s := by
  unfold secStatusWrite
  repeat' first
    | with_reducible rfl
    | simp only [sig_mk, sig_fold]
    | (refine (sig_secWrite _ _ _ _ _ _ ?_).trans ?_)
    | intro _

theorem sig_mboxWrite (x0 x1 s) : sig (mboxWrite x0 x1 s) = sig s := by
  unfold mboxWrite
  repeat' first
    | with_reducible rfl
    | simp only [sig_mk, sig_fold]
    | (refine (sig_secWrite _ _ _ _ _ _ ?_).trans ?_)
    | intro _

theorem sig_secBlockWrite (x0 x1 s) : sig (secBlockWrite x0 x1 s) = sig s := by
  unfold secBlockWrite
  repeat' first
    | with_reducible rfl
    | simp only [sig_ignoreWrite, sig_mboxCtrl, sig_mboxWrite, sig_pfRo, sig_secStatusWrite, sig_wrejWrite]
    | split

theorem sig_errCfgWrite (x0 s) : sig (errCfgWrite x0 s) = sig s := by
  unfold errCfgWrite
  repeat' first
    | with_reducible rfl
    | simp only [sig_mk, sig_fold]
    | (refine (sig_errWrite _ _ _ _ _ _ ?_).trans ?_)
    | intro _

theorem sig_logSelWrite (x0 x1 s) : sig (logSelWrite x0 x1 s) = sig s := by
  unfold logSelWrite
  repeat' first
    | with_reducible rfl
    | simp only [sig_modComb]
    | (refine (sig_errWrite _ _ _ _ _ _ ?_).trans ?_)
    | intro _

theorem sig_errBlockWrite (x0 x1 s) : sig (errBlockWrite x0 x1 s) = sig s := by
  unfold errBlockWrite
  repeat' first
    | with_reducible rfl
    | simp only [sig_doErrHeadWrite, sig_errCfgWrite, sig_ignoreWrite, sig_logSelWrite, sig_pfRo, sig_wrejWrite]
    | split

theorem sig_snagSelWrite (x0 x1 s) : sig (snagSelWrite x0 x1 s) = sig s := by
  unfold snagSelWrite
  repeat' first
    | with_reducible rfl
    | simp only [sig_mk, sig_fold]
    | (refine (sig_pfWrite _ _ _ _ _ _ _ ?_).trans ?_)
    | intro _

theorem sig_hbmBlockWrite (x0 x1 s) : sig (hbmBlockWrite x0 x1 s) = sig s := by
  unfold hbmBlockWrite
  repeat' first
    | with_reducible rfl
    | simp only [sig_ignoreWrite, sig_pfRo, sig_rangeWrite, sig_wrejWrite]
    | split

theorem sig_stdBlockWrite (x0 x1 x2 s) : sig (stdBlockWrite x0 x1 x2 s) = sig s := by
  unfold stdBlockWrite
  repeat' first
    | with_reducible rfl
    | simp only [sig_ignoreWrite, sig_pfRo, sig_wrejWrite]
    | split

theorem sig_gfSelWrite (x0 x1 s) : sig (gfSelWrite x0 x1 s) = sig s := by
  unfold gfSelWrite
  repeat' first
    | with_reducible rfl
    | simp only [sig_mk, sig_fold]
    | (refine (sig_gfWrite _ _ _ _ _ _ ?_).trans ?_)
    | split
    | intro _

theorem sig_gfCountWrite (x0 x1 s) : sig (gfCountWrite x0 x1 s) = sig s := by
  unfold gfCountWrite
  repeat' first
    | with_reducible rfl
    | simp only [sig_mk, sig_fold]
    | (refine (sig_gfWrite _ _ _ _ _ _ ?_).trans ?_)
    | split
    | intro _

theorem sig_portWrite (x0 x1 x2 s) : sig (portWrite x0 x1 x2 s) = sig s := by
  unfold portWrite
  repeat' first
    | with_reducible rfl
    | simp only [sig_doLaneRetrain, sig_mk, sig_fold]
    | (refine (sig_gfWrite _ _ _ _ _ _ ?_).trans ?_)
    | split
    | intro _

theorem sig_gfBlockWrite (x0 x1 s) : sig (gfBlockWrite x0 x1 s) = sig s := by
  unfold gfBlockWrite
  repeat' first
    | with_reducible rfl
    | simp only [sig_doBankSwap, sig_doDidHold, sig_doRoutingEntryWrite, sig_gfCountWrite, sig_gfSelWrite, sig_ignoreWrite, sig_portWrite, sig_shaperWrite, sig_wrejWrite]
    | (refine (sig_gfWrite _ _ _ _ _ _ ?_).trans ?_)
    | split
    | intro _

theorem sig_cqWrite (s x1 x2 x3 x4 x5 x6) : sig (cqWrite s x1 x2 x3 x4 x5 x6) = sig s := by
  unfold cqWrite
  repeat' first
    | with_reducible rfl
    | simp only [sig_modFn]
    | (refine (sig_guardWrite _ _ _ _ _ _ _ _ _ ?_).trans ?_)
    | intro _

theorem sig_cqStatusWrite (x0 x1 s) : sig (cqStatusWrite x0 x1 s) = sig s := by
  unfold cqStatusWrite
  repeat' first
    | with_reducible rfl
    | simp only [sig_cqWrite]

theorem sig_cqRingWrite (x0 x1 x2 s) : sig (cqRingWrite x0 x1 x2 s) = sig s := by
  unfold cqRingWrite
  repeat' first
    | with_reducible rfl
    | simp only [sig_cqWrite]

theorem sig_cqWinWrite (x0 x1 s) : sig (cqWinWrite x0 x1 s) = sig s := by
  unfold cqWinWrite
  repeat' first
    | with_reducible rfl
    | simp only [sig_modFn]
    | (refine (sig_guardWrite _ _ _ _ _ _ _ _ _ ?_).trans ?_)
    | intro _

theorem sig_telHeadWrite (x0 x1 s) : sig (telHeadWrite x0 x1 s) = sig s := by
  unfold telHeadWrite
  repeat' first
    | with_reducible rfl
    | simp only [sig_modFn]
    | (refine (sig_guardWrite _ _ _ _ _ _ _ _ _ ?_).trans ?_)
    | intro _

theorem sig_notifyWrite (x0 x1 x2 s) : sig (notifyWrite x0 x1 x2 s) = sig s := by
  unfold notifyWrite
  repeat' first
    | with_reducible rfl
    | simp only [sig_cqWrite]

theorem sig_cqBlockWrite (x0 x1 x2 s) : sig (cqBlockWrite x0 x1 x2 s) = sig s := by
  unfold cqBlockWrite
  repeat' first
    | with_reducible rfl
    | simp only [sig_cqRingWrite, sig_cqStatusWrite, sig_cqWinWrite, sig_cqWrite, sig_doCqEnable, sig_ignoreWrite, sig_notifyWrite, sig_telHeadWrite, sig_wrejWrite]
    | split

theorem sig_groveBlockWrite (x0 x1 x2 s) : sig (groveBlockWrite x0 x1 x2 s) = sig s := by
  unfold groveBlockWrite
  repeat' first
    | with_reducible rfl
    | simp only [sig_doSyncCfgWrite, sig_ignoreWrite, sig_wrejWrite]
    | (refine (sig_guardWrite _ _ _ _ _ _ _ _ _ ?_).trans ?_)
    | split
    | intro _

theorem sig_coreStatusWrite (x0 x1 s) : sig (coreStatusWrite x0 x1 s) = sig s := by
  unfold coreStatusWrite
  repeat' first
    | with_reducible rfl
    | simp only [sig_modCore]
    | (refine (sig_coreWrite _ _ _ _ _ _ _ ?_).trans ?_)
    | split
    | intro _

theorem sig_coreSelWrite (x0 x1 x2 s) : sig (coreSelWrite x0 x1 x2 s) = sig s := by
  unfold coreSelWrite
  repeat' first
    | with_reducible rfl
    | simp only [sig_modCore]
    | (refine (sig_coreSet _ _ _ _ _ _ _ ?_).trans ?_)
    | split
    | intro _

theorem sig_htDataWrite (x0 x1 s) : sig (htDataWrite x0 x1 s) = sig s := by
  unfold htDataWrite
  repeat' first
    | with_reducible rfl
    | simp only [sig_modCore]
    | (refine (sig_coreSet _ _ _ _ _ _ _ ?_).trans ?_)
    | intro _

theorem sig_ctxRegWrite (x0 x1 x2 s) : sig (ctxRegWrite x0 x1 x2 s) = sig s := by
  unfold ctxRegWrite
  repeat' first
    | with_reducible rfl
    | simp only [sig_modCore]
    | (refine (sig_coreSet _ _ _ _ _ _ _ ?_).trans ?_)
    | intro _

theorem sig_veCtrlWrite (x0 x1 s) : sig (veCtrlWrite x0 x1 s) = sig s := by
  unfold veCtrlWrite
  repeat' first
    | with_reducible rfl
    | simp only [sig_modCore]
    | (refine (sig_coreSet _ _ _ _ _ _ _ ?_).trans ?_)
    | intro _

theorem sig_msgAreaWrite (x0 x1 s) : sig (msgAreaWrite x0 x1 s) = sig s := by
  unfold msgAreaWrite
  repeat' first
    | with_reducible rfl
    | simp only [sig_modCore]
    | (refine (sig_coreSet _ _ _ _ _ _ _ ?_).trans ?_)
    | intro _

theorem sig_msgCfgWrite (x0 x1 s) : sig (msgCfgWrite x0 x1 s) = sig s := by
  unfold msgCfgWrite
  repeat' first
    | with_reducible rfl
    | simp only [sig_modCore]
    | (refine (sig_coreSet _ _ _ _ _ _ _ ?_).trans ?_)
    | intro _

theorem sig_qSelWrite (x0 x1 s) : sig (qSelWrite x0 x1 s) = sig s := by
  unfold qSelWrite
  repeat' first
    | with_reducible rfl
    | simp only [sig_modCore]
    | (refine (sig_coreSet _ _ _ _ _ _ _ ?_).trans ?_)
    | intro _

theorem sig_ringAreaWrite (x0 x1 s) : sig (ringAreaWrite x0 x1 s) = sig s := by
  unfold ringAreaWrite
  repeat' first
    | with_reducible rfl
    | simp only [sig_modCore]
    | (refine (sig_coreSet _ _ _ _ _ _ _ ?_).trans ?_)
    | intro _

theorem sig_ctxCmdWrite (x0 x1 s) : sig (ctxCmdWrite x0 x1 s) = sig s := by
  unfold ctxCmdWrite
  repeat' first
    | with_reducible rfl
    | simp only [sig_ctxCmd]

theorem sig_coreBlockWrite (l w o s) : sig (coreBlockWrite l w o s) = sig s := by
  unfold coreBlockWrite
  repeat' with_reducible refine sig_ite ?_ ?_
  · exact sig_doHoldAll ..
  · exact sig_coreStatusWrite ..
  · exact sig_doCoreRoleWrite ..
  · exact sig_coreSelWrite ..
  · exact sig_htDataWrite ..
  · exact sig_coreSelWrite ..
  · exact sig_ctxCmdWrite ..
  · exact sig_coreWrite _ _ _ _ _ _ _ fun _ => rfl
  · exact sig_ctxRegWrite ..
  · exact sig_veCtrlWrite ..
  · exact sig_msgAreaWrite ..
  · exact sig_msgCfgWrite ..
  · exact sig_qSelWrite ..
  · exact sig_doLinkRegisterWrite ..
  · exact sig_ringAreaWrite ..
  · exact sig_wrejWrite ..
  · exact sig_ignoreWrite ..

theorem sig_badAccess (s x1 x2) : sig (badAccess s x1 x2) = sig s := by
  unfold badAccess
  repeat' first
    | with_reducible rfl
    | simp only [sig_hostAccess, sig_reject]
    | split

/-! ### Writes that keep the registers' fields legal -/

/-- `t` is the same part with the same commands waiting, and its registers hold what they may if those of `s` do. -/
def Keeps (s t : State) : Prop := t.part = s.part ∧ t.pending = s.pending ∧ (regsOk s → regsOk t)

theorem regsOk_congr {s t : State} (h : sig t = sig s) (hs : regsOk s) : regsOk t := by
  simp only [sig, Prod.mk.injEq] at h
  obtain ⟨-, -, h1, h2, h3⟩ := h
  unfold regsOk at *
  rw [h1, h2, h3]
  exact hs

theorem keeps_of_sig {s t : State} (h : sig t = sig s) : Keeps s t := by
  refine ⟨?_, ?_, regsOk_congr h⟩ <;> (simp only [sig, Prod.mk.injEq] at h; simp [h])

theorem keeps_refl (s : State) : Keeps s s := ⟨rfl, rfl, id⟩

theorem keeps_trans {s t u : State} (h : Keeps s t) (h' : Keeps t u) : Keeps s u :=
  ⟨h'.1.trans h.1, h'.2.1.trans h.2.1, h'.2.2 ∘ h.2.2⟩

theorem keeps_sig {s t u : State} (h : sig t = sig s) (h' : Keeps t u) : Keeps s u := keeps_trans (keeps_of_sig h) h'

theorem keeps_then {s t u : State} (h : Keeps s t) (h' : sig u = sig t) : Keeps s u := keeps_trans h (keeps_of_sig h')

theorem keeps_ite {c : Prop} [Decidable c] {s a b : State} (ha : c → Keeps s a) (hb : ¬ c → Keeps s b) :
    Keeps s (if c then a else b) := by
  split
  · exact ha ‹_›
  · exact hb ‹_›

theorem keeps_guardWrite (s w blk off a g r c) (b : State → State) (h : r = false → c = true → ∀ u, Keeps u (b u)) :
    Keeps s (guardWrite s w blk off a g r c b) := by
  unfold guardWrite
  refine keeps_ite (fun _ => keeps_refl s) fun _ => ?_
  refine keeps_ite (fun _ => keeps_of_sig (by rw [sig_reject, sig_hostAccess])) fun _ => ?_
  split
  · exact keeps_of_sig (by rw [sig_reject, sig_hostAccess])
  refine keeps_ite (fun _ => keeps_of_sig (by rw [sig_reject, sig_hostAccess])) fun hr => ?_
  refine keeps_ite (fun _ => keeps_of_sig (by rw [sig_reject, sig_hostAccess])) fun hc => ?_
  exact keeps_sig (sig_hostAccess ..) (h (by simpa using hr) (by simpa using hc) _)

theorem keeps_withToken (s m o bad) (b : State → State) (h : ∀ u, Keeps u (b u)) : Keeps s (withToken s m o bad b) := by
  unfold withToken
  refine keeps_ite (fun _ => keeps_refl s) fun _ => ?_
  refine keeps_ite (fun _ => keeps_of_sig (sig_answer ..)) fun _ => ?_
  refine keeps_ite (fun _ => keeps_of_sig (sig_answer ..)) fun _ => ?_
  simp only []
  split
  · refine keeps_ite (fun _ => ?_) fun _ => ?_
    · exact keeps_sig (by rw [sig_reopenToken, sig_mk, sig_fold]) (h _)
    · exact keeps_of_sig (by rw [sig_repeatToken, sig_mk, sig_fold])
  · exact keeps_sig (by rw [sig_openToken, sig_mk, sig_fold]) (h _)

/-! ### PART_GROVEk, SNAG_CFG, DEV_DID -/

theorem fld_small {w : Word} (h : w.toNat < 32) : fld w 5 58 = 0 := by
  simp [fld, Nat.shiftRight_eq_div_pow, Nat.div_eq_of_lt h]

theorem keeps_pgrove (s : State) (k : Nat) (v : Word) (x : Tbl Nat) (h : regsOk s → fld v 5 58 = 0) :
    Keeps s { s with pgrove := tput 0x10 s.pgrove k v, sanDue := x } := by
  refine ⟨rfl, rfl, fun hs => ⟨hs.1, hs.2.1, fun j => ?_, hs.2.2.2⟩⟩
  by_cases hj : j = k
  · subst hj; simp only [tget_tput_same]; exact h hs
  · simp only [tget_tput_other _ _ _ _ _ hj]; exact hs.2.2.1 j

theorem keepFields_part (v : Word) : (keepFields v [(4, 1), (0, 4)]).toNat < 32 := by
  have h1 : fld v 4 1 < 2 := Nat.mod_lt _ (by decide)
  have h2 : fld v 0 4 < 16 := Nat.mod_lt _ (by decide)
  simp [keepFields, wd]
  omega

theorem keeps_partGroveWrite (x0 x1 s) : Keeps s (partGroveWrite x0 x1 s) := by
  unfold partGroveWrite
  refine keeps_guardWrite _ _ _ _ _ _ _ _ _ fun _ _ u => ?_
  refine keeps_ite (fun _ => ?_) fun _ => ?_
  · exact keeps_pgrove u _ _ _ fun _ => fld_small (keepFields_part _)
  · refine keeps_pgrove u _ _ _ fun _ => ?_
    have h2 (v : Word) : fld v 0 4 < 16 := Nat.mod_lt _ (by decide)
    have := h2 (keepFields (mergeHalf x1.half (pgroveWord s x0) x1.value) [(4, 1), (0, 4)])
    revert this
    generalize fld (keepFields (mergeHalf x1.half (pgroveWord s x0) x1.value) [(4, 1), (0, 4)]) 0 4 = n
    intro h
    simp only [fld, wd, BitVec.toNat_ofNat, Nat.shiftRight_eq_div_pow]
    omega

theorem keeps_doSanitiseComplete (x0 s) : Keeps s (doSanitiseComplete x0 s) := by
  unfold doSanitiseComplete
  refine keeps_ite (fun _ => ?_) fun _ => keeps_refl s
  refine keeps_sig (sig_sanitiseGrove s x0) (keeps_pgrove _ _ _ _ fun h => ?_)
  have hw : fld (pgroveWord s x0) 5 58 = 0 := by
    unfold pgroveWord
    split
    · rfl
    · exact (regsOk_congr (sig_sanitiseGrove s x0).symm h).2.2.1 _
  simp only [fld, wd, BitVec.toNat_ofNat, Nat.shiftRight_eq_div_pow] at *
  omega

theorem keeps_snagCfgWrite (x0 s) : Keeps s (snagCfgWrite x0 s) := by
  unfold snagCfgWrite
  refine keeps_guardWrite _ _ _ _ _ _ _ _ _ fun hr _ u => ?_
  refine ⟨rfl, rfl, fun h => ⟨?_, ?_, h.2.2.1, h.2.2.2⟩⟩ <;> simp [wd] at * <;> omega

theorem keeps_coldReset (s x) : Keeps s (coldReset s x) :=
  ⟨rfl, rfl, fun _ => ⟨show 5 ≤ (0x14 : Word).toNat by decide, show (0x14 : Word).toNat ≤ 10000 by decide,
    fun _ => show fld (0x10 : Word) 5 58 = 0 by decide, show fld (0 : Word) 15 48 = 0 by decide⟩⟩

theorem keeps_did (s : State) (v : Word) (c : Cruise) (h : fld v 15 48 = 0) : Keeps s { s with did := v, cruise := c } :=
  ⟨rfl, rfl, fun hs => ⟨hs.1, hs.2.1, hs.2.2.1, h⟩⟩

theorem fld_did (d : Did) : fld (wd (2 ^ 63 + d.toNat)) 15 48 = 0 := by
  have := d.isLt
  simp only [fld, wd, BitVec.toNat_ofNat, Nat.shiftRight_eq_div_pow]
  omega

theorem keeps_finishCruise (s x) : Keeps s (finishCruise s x) := by
  unfold finishCruise
  simp only []
  refine keeps_then ?_ (sig_enterReady ..)
  have h : ∀ u : State, Keeps u (match u.errs.assign with
      | some a => checkTopo { u with did := wd (2 ^ 63 + a.did.toNat) }
      | none => { u with did := 0, cruise := { u.cruise with pendDid := true } }) := by
    intro u
    split
    · exact keeps_then (keeps_did u _ u.cruise (fld_did _)) (sig_checkTopo ..)
    · exact keeps_did u _ _ (by decide)
  refine keeps_sig ?_ (h _)
  refine sig_ite rfl ?_
  rw [sig_cruiseReport, sig_mk, sig_fold]

theorem keeps_applyAssign (s x y) : Keeps s (applyAssign s x y) := by
  unfold applyAssign
  refine keeps_sig (t := { s with errs := { s.errs with assign := x }, cruise := { s.cruise with pendDid := s.cruise.ready && x.isNone } })
    (by rw [sig_mk, sig_fold]) ?_
  generalize ({ s with errs := { s.errs with assign := x }, cruise := { s.cruise with pendDid := s.cruise.ready && x.isNone } } : State) = u
  cases x with
  | none => exact keeps_ite (fun _ => keeps_then (keeps_did u 0 u.cruise (by decide)) (sig_loseRoutes _)) fun _ => keeps_refl u
  | some a =>
    refine keeps_ite (fun _ => keeps_finishCruise ..) fun _ => keeps_ite (fun _ => ?_) fun _ => keeps_refl u
    refine keeps_then (keeps_did u _ u.cruise (fld_did a.did)) ?_
    rw [sig_foldl sig_pump, sig_checkTopo]

/-! ### What goes through them -/

theorem keeps_cruiseFrom4 (s i) : Keeps s (cruiseFrom4 s i) := by
  unfold cruiseFrom4
  have h : ∀ u r, sig u = sig s → Keeps s (if u.errs.assign.isSome then finishCruise u r else u) := fun u r hu =>
    keeps_ite (fun _ => keeps_sig hu (keeps_finishCruise ..)) fun _ => keeps_of_sig hu
  refine h _ _ ?_
  rw [sig_mk, sig_fold, sig_blazing _ _ _ _ fun u => sig_imageAll .., sig_numberAll, sig_blazing _ _ _ _ fun u => sig_initialTest ..,
    sig_powerUp]

theorem keeps_cruiseFrom3 (s i) : Keeps s (cruiseFrom3 s i) := by
  unfold cruiseFrom3
  refine keeps_ite (fun _ => ?_) fun _ => ?_
  · exact keeps_sig (by rw [sig_landingUp, sig_mk, sig_fold]) (keeps_cruiseFrom4 ..)
  · exact keeps_of_sig (by rw [sig_cruiseReport, sig_mk, sig_fold])

theorem keeps_cruise (s c i) : Keeps s (cruise s c i) := by
  unfold cruise
  refine keeps_sig (t := { s with
    cruise := { s.cruise with phase := 1, running := true, warm := !c, startTick := now s, unit := [], report := [], nblazed := 0 }
    pins := { s.pins with ioOut := false } }) (by rw [sig_mk, sig_fold]) ?_
  generalize ({ s with cruise := _, pins := _ } : State) = u
  refine keeps_ite (fun _ => keeps_refl u) fun _ => ?_
  have h1 : ∀ v, sig v = sig u → Keeps u (if v.sec.recovery then v
      else cruiseFrom3 (match v.sec.pending with | some c => sanTail v c.toNat | none => v) i) := fun v hv => by
    refine keeps_ite (fun _ => keeps_of_sig hv) fun _ => keeps_sig ?_ (keeps_cruiseFrom3 ..)
    split
    · rw [sig_sanTail, hv]
    · exact hv
  refine h1 _ ?_
  have h2 : ∀ v, sig v = sig u → sig (if c || v.sec.recovery then boot v else v) = sig u := fun v hv =>
    sig_ite (by rw [sig_boot, hv]) hv
  refine h2 _ ?_
  rw [sig_mk, sig_fold]
  exact sig_ite (by rw [sig_drawFwKey, sig_latchFuses]) rfl

theorem keeps_startCruise (s i) : Keeps s (startCruise s i) :=
  keeps_ite (fun _ => keeps_cruise ..) fun _ => keeps_refl s

theorem keeps_resumeCruise (s i) : Keeps s (resumeCruise s i) :=
  keeps_ite (fun _ => keeps_cruise ..) fun _ => keeps_ite (fun _ => keeps_cruiseFrom3 ..) fun _ => keeps_refl s

theorem keeps_doPwrOkRise (i s) : Keeps s (doPwrOkRise i s) :=
  keeps_ite (fun _ => keeps_refl s) fun _ => keeps_sig (by rw [sig_mk, sig_fold]) (keeps_startCruise ..)

theorem keeps_doPwrOkFall (s) : Keeps s (doPwrOkFall s) :=
  keeps_ite (fun _ => keeps_refl s) fun _ => keeps_then (keeps_coldReset ..) (by rw [sig_mk, sig_fold])

theorem keeps_doRailLoss (r n s) : Keeps s (doRailLoss r n s) :=
  keeps_ite (fun _ => keeps_refl s) fun _ => keeps_then (keeps_coldReset ..) (by rw [sig_mk, sig_fold])

theorem keeps_doDevRstNRise (i s) : Keeps s (doDevRstNRise i s) :=
  keeps_ite (fun _ => keeps_sig (by rw [sig_mk, sig_fold]) (keeps_startCruise ..)) fun _ => keeps_refl s

theorem keeps_doAssignmentDeadline (i s) : Keeps s (doAssignmentDeadline i s) :=
  keeps_ite (fun _ => keeps_finishCruise ..) fun _ => keeps_refl s

theorem keeps_doMclk25Start (i s) : Keeps s (doMclk25Start i s) := by
  refine keeps_ite (fun _ => keeps_refl s) fun _ => ?_
  refine keeps_sig (t := { s with pins := { s.pins with mclk := true, osc := false } }) (by rw [sig_mk, sig_fold]) ?_
  exact keeps_ite (fun _ => keeps_resumeCruise ..) fun _ => keeps_refl _

theorem keeps_doRefclkReturn (i s) : Keeps s (doRefclkReturn i s) :=
  keeps_ite (fun _ => keeps_refl s) fun _ => keeps_sig (by rw [sig_mk, sig_fold]) (keeps_resumeCruise ..)

theorem keeps_doWardenWatchdog (i s) : Keeps s (doWardenWatchdog i s) :=
  keeps_ite (fun _ => keeps_sig (sig_warmReset s) (keeps_cruise ..)) fun _ => keeps_refl s

theorem keeps_doMgmtAssign (m i s) : Keeps s (doMgmtAssign m i s) :=
  keeps_withToken _ _ _ _ _ fun _ => keeps_then (keeps_applyAssign ..) (sig_finishToken ..)

theorem keeps_doMgmtReset (m i s) : Keeps s (doMgmtReset m i s) := by
  refine keeps_withToken _ _ _ _ _ fun _ => ?_
  refine keeps_ite (fun _ => keeps_of_sig (sig_finishToken ..)) fun _ => ?_
  refine keeps_ite (fun _ => keeps_of_sig (sig_finishToken ..)) fun _ => ?_
  refine keeps_ite (fun _ => ?_) fun _ => keeps_of_sig (sig_startToken ..)
  exact keeps_sig (by rw [sig_warmReset, sig_finishToken]) (keeps_cruise ..)

theorem keeps_doGroveMove (d w s) : Keeps s (doGroveMove d w s) :=
  keeps_ite (fun _ => keeps_of_sig (by rw [sig_mk, sig_fold])) fun _ => keeps_partGroveWrite ..

theorem keeps_partBlockWrite (w o s) : Keeps s (partBlockWrite w o s) := by
  refine keeps_ite (fun _ => keeps_doGroveMove ..) fun _ => keeps_of_sig ?_
  refine sig_ite (sig_pfRo ..) (sig_ite (sig_wrejWrite ..) (sig_ignoreWrite ..))

theorem keeps_snagBlockWrite (w o s) : Keeps s (snagBlockWrite w o s) := by
  refine keeps_ite (fun _ => keeps_snagCfgWrite ..) fun _ => keeps_of_sig ?_
  exact sig_ite (sig_wrejWrite ..) (sig_ite (sig_ite (sig_snagSelWrite ..) (sig_ite (sig_pfRo ..) (sig_ignoreWrite ..)))
    (sig_ignoreWrite ..))

theorem keeps_writeAt (w off s) : Keeps s (writeAt w off s) := by
  unfold writeAt
  refine keeps_ite (fun _ => ?_) fun _ => keeps_of_sig ?_
  · split
    · exact keeps_of_sig (sig_devWrite ..)
    · exact keeps_of_sig (sig_paceBlockWrite ..)
    · exact keeps_partBlockWrite ..
    · exact keeps_of_sig (sig_secBlockWrite ..)
    · exact keeps_of_sig (sig_errBlockWrite ..)
    · exact keeps_snagBlockWrite ..
    · exact keeps_of_sig (sig_hbmBlockWrite ..)
    · exact keeps_of_sig (sig_gfBlockWrite ..)
  · exact sig_ite (sig_stdBlockWrite ..) (sig_ite (sig_cqBlockWrite ..) (sig_ite (sig_groveBlockWrite ..)
      (sig_ite (sig_coreBlockWrite ..) (sig_ignoreWrite ..))))

theorem keeps_doRegisterWrite (w o n v s) : Keeps s (doRegisterWrite w o n v s) :=
  keeps_ite (fun _ => keeps_writeAt ..) fun _ => keeps_ite (fun _ => keeps_writeAt ..) fun _ => keeps_of_sig (sig_badAccess ..)

theorem keeps_doGroveRelease (x0 x1 s) : Keeps s (doGroveRelease x0 x1 s) := keeps_doGroveMove ..

theorem keeps_doGroveJoin (x0 x1 s) : Keeps s (doGroveJoin x0 x1 s) := keeps_doGroveMove ..

theorem keeps_foldl {α : Type} {f : State → α → State} (h : ∀ s a, Keeps s (f s a)) (l : List α) (s : State) : Keeps s (l.foldl f s) := by
  induction l generalizing s with
  | nil => exact keeps_refl s
  | cons a r ih => exact keeps_trans (h s a) (ih _)

theorem keeps_moveStep (s) : Keeps s (moveStep s) :=
  keeps_ite (fun _ => keeps_refl s) fun _ =>
    keeps_sig (t := { s with live := { s.live with moves := [] } }) (by rw [sig_mk, sig_fold]) (keeps_foldl (fun u (m : Dg × Wr) => keeps_doGroveMove m.1 m.2 u) _ _)

theorem sig_loseHost (s) : sig (loseHost s) = sig s := by
  unfold loseHost
  repeat' first
    | with_reducible rfl
    | simp only [sig_raise, sig_mk, sig_fold]
    | (refine (sig_foldl ?_ _ _).trans ?_)
    | split
    | intro _

theorem sig_portTick (s x1) : sig (portTick s x1) = sig s := by
  unfold portTick
  repeat' first
    | with_reducible rfl
    | simp only [sig_modPort, sig_sendCtls]

theorem sig_tickPorts (s) : sig (tickPorts s) = sig s := by
  unfold tickPorts
  repeat' first
    | with_reducible rfl
    | simp only [sig_portTick]
    | (refine (sig_foldl ?_ _ _).trans ?_)
    | split
    | intro _

theorem sig_tickColls (s) : sig (tickColls s) = sig s := by
  unfold tickColls
  repeat' first
    | with_reducible rfl
    | simp only [sig_mk, sig_fold]

theorem sig_tickStart (s) : sig (awake (fun s => trackQuiets (loseHost (isolateDry (tickPorts (tickShapers (tickColls s))))))
    { s with pace := lockStep (countOn s.pace) }) = sig s := by
  rw [sig_awake _ _ fun u => by rw [sig_trackQuiets, sig_loseHost, sig_isolateDry, sig_tickPorts, sig_tickShapers, sig_tickColls], sig_mk, sig_fold]

theorem sig_endSweep (s x1) : sig (endSweep s x1) = sig s := by
  unfold endSweep
  repeat' first
    | with_reducible rfl
    | simp only [sig_dropSweep, sig_sweep, sig_zeroWindow]
    | split

theorem sig_lateStart (s x1) : sig (lateStart s x1) = sig s := by
  unfold lateStart
  repeat' first
    | with_reducible rfl
    | simp only [sig_modCore, sig_setCore]
    | split

theorem sig_sweepStep (s) : sig (sweepStep s) = sig s := by
  unfold sweepStep
  repeat' first
    | with_reducible rfl
    | simp only [sig_endSweep, sig_lateStart, sig_runCheck, sig_mk, sig_fold]
    | (refine (sig_foldl ?_ _ _).trans ?_)
    | split
    | intro _

theorem keeps_tickWork (s) : Keeps s (tickWork s) := by
  refine keeps_sig (sig_tickStart s) (keeps_then ?_ (sig_activationStep _))
  refine keeps_ite (fun _ => keeps_refl _) fun _ => keeps_sig ?_ (keeps_moveStep _)
  rw [sig_pollTokens, sig_dormStep, sig_sweepStep, sig_soundStep, sig_sanStep]

theorem keeps_doTimeTick (s) : Keeps s (doTimeTick s) := by
  unfold doTimeTick
  have h : ∀ u, sig u = sig s → Keeps s (if timeRuns u then tickWork u else u) := fun u hu =>
    keeps_ite (fun _ => keeps_sig hu (keeps_tickWork u)) fun _ => keeps_of_sig hu
  exact h _ (by rw [sig_oscHold, sig_mk, sig_fold])

end Sys2Proof.Machine
end

