-- ==== Sys2Proof/Laws/State.lean ====
section
/-! SUPPORT. What each named update of the state leaves alone, field by field, and what its own accessor reads after it. -/

namespace Sys2Proof.Machine

/-! ### setCore -/

@[simp] theorem setCore_part (s : State) (l : Lcid) (k : Core) : (setCore s l k).part = s.part := rfl
@[simp] theorem setCore_groves (s : State) (l : Lcid) (k : Core) : (setCore s l k).groves = s.groves := rfl
@[simp] theorem setCore_reds (s : State) (l : Lcid) (k : Core) : (setCore s l k).reds = s.reds := rfl
@[simp] theorem setCore_landing (s : State) (l : Lcid) (k : Core) : (setCore s l k).landing = s.landing := rfl
@[simp] theorem setCore_gf (s : State) (l : Lcid) (k : Core) : (setCore s l k).gf = s.gf := rfl
@[simp] theorem setCore_hbm (s : State) (l : Lcid) (k : Core) : (setCore s l k).hbm = s.hbm := rfl
@[simp] theorem setCore_host (s : State) (l : Lcid) (k : Core) : (setCore s l k).host = s.host := rfl
@[simp] theorem setCore_pace (s : State) (l : Lcid) (k : Core) : (setCore s l k).pace = s.pace := rfl
@[simp] theorem setCore_sec (s : State) (l : Lcid) (k : Core) : (setCore s l k).sec = s.sec := rfl
@[simp] theorem setCore_cruise (s : State) (l : Lcid) (k : Core) : (setCore s l k).cruise = s.cruise := rfl
@[simp] theorem setCore_dorm (s : State) (l : Lcid) (k : Core) : (setCore s l k).dorm = s.dorm := rfl
@[simp] theorem setCore_errs (s : State) (l : Lcid) (k : Core) : (setCore s l k).errs = s.errs := rfl
@[simp] theorem setCore_snagCfg (s : State) (l : Lcid) (k : Core) : (setCore s l k).snagCfg = s.snagCfg := rfl
@[simp] theorem setCore_snags (s : State) (l : Lcid) (k : Core) : (setCore s l k).snags = s.snags := rfl
@[simp] theorem setCore_quiets (s : State) (l : Lcid) (k : Core) : (setCore s l k).quiets = s.quiets := rfl
@[simp] theorem setCore_check (s : State) (l : Lcid) (k : Core) : (setCore s l k).check = s.check := rfl
@[simp] theorem setCore_live (s : State) (l : Lcid) (k : Core) : (setCore s l k).live = s.live := rfl
@[simp] theorem setCore_pins (s : State) (l : Lcid) (k : Core) : (setCore s l k).pins = s.pins := rfl
@[simp] theorem setCore_did (s : State) (l : Lcid) (k : Core) : (setCore s l k).did = s.did := rfl
@[simp] theorem setCore_pgrove (s : State) (l : Lcid) (k : Core) : (setCore s l k).pgrove = s.pgrove := rfl
@[simp] theorem setCore_sanDue (s : State) (l : Lcid) (k : Core) : (setCore s l k).sanDue = s.sanDue := rfl
@[simp] theorem setCore_wrej (s : State) (l : Lcid) (k : Core) : (setCore s l k).wrej = s.wrej := rfl
@[simp] theorem setCore_notice (s : State) (l : Lcid) (k : Core) : (setCore s l k).notice = s.notice := rfl
@[simp] theorem setCore_freeCtr (s : State) (l : Lcid) (k : Core) : (setCore s l k).freeCtr = s.freeCtr := rfl
@[simp] theorem setCore_pending (s : State) (l : Lcid) (k : Core) : (setCore s l k).pending = s.pending := rfl

/-! ### modCore -/

@[simp] theorem modCore_part (s : State) (l : Lcid) (f : Core → Core) : (modCore s l f).part = s.part := rfl
@[simp] theorem modCore_groves (s : State) (l : Lcid) (f : Core → Core) : (modCore s l f).groves = s.groves := rfl
@[simp] theorem modCore_reds (s : State) (l : Lcid) (f : Core → Core) : (modCore s l f).reds = s.reds := rfl
@[simp] theorem modCore_landing (s : State) (l : Lcid) (f : Core → Core) : (modCore s l f).landing = s.landing := rfl
@[simp] theorem modCore_gf (s : State) (l : Lcid) (f : Core → Core) : (modCore s l f).gf = s.gf := rfl
@[simp] theorem modCore_hbm (s : State) (l : Lcid) (f : Core → Core) : (modCore s l f).hbm = s.hbm := rfl
@[simp] theorem modCore_host (s : State) (l : Lcid) (f : Core → Core) : (modCore s l f).host = s.host := rfl
@[simp] theorem modCore_pace (s : State) (l : Lcid) (f : Core → Core) : (modCore s l f).pace = s.pace := rfl
@[simp] theorem modCore_sec (s : State) (l : Lcid) (f : Core → Core) : (modCore s l f).sec = s.sec := rfl
@[simp] theorem modCore_cruise (s : State) (l : Lcid) (f : Core → Core) : (modCore s l f).cruise = s.cruise := rfl
@[simp] theorem modCore_dorm (s : State) (l : Lcid) (f : Core → Core) : (modCore s l f).dorm = s.dorm := rfl
@[simp] theorem modCore_errs (s : State) (l : Lcid) (f : Core → Core) : (modCore s l f).errs = s.errs := rfl
@[simp] theorem modCore_snagCfg (s : State) (l : Lcid) (f : Core → Core) : (modCore s l f).snagCfg = s.snagCfg := rfl
@[simp] theorem modCore_snags (s : State) (l : Lcid) (f : Core → Core) : (modCore s l f).snags = s.snags := rfl
@[simp] theorem modCore_quiets (s : State) (l : Lcid) (f : Core → Core) : (modCore s l f).quiets = s.quiets := rfl
@[simp] theorem modCore_check (s : State) (l : Lcid) (f : Core → Core) : (modCore s l f).check = s.check := rfl
@[simp] theorem modCore_live (s : State) (l : Lcid) (f : Core → Core) : (modCore s l f).live = s.live := rfl
@[simp] theorem modCore_pins (s : State) (l : Lcid) (f : Core → Core) : (modCore s l f).pins = s.pins := rfl
@[simp] theorem modCore_did (s : State) (l : Lcid) (f : Core → Core) : (modCore s l f).did = s.did := rfl
@[simp] theorem modCore_pgrove (s : State) (l : Lcid) (f : Core → Core) : (modCore s l f).pgrove = s.pgrove := rfl
@[simp] theorem modCore_sanDue (s : State) (l : Lcid) (f : Core → Core) : (modCore s l f).sanDue = s.sanDue := rfl
@[simp] theorem modCore_wrej (s : State) (l : Lcid) (f : Core → Core) : (modCore s l f).wrej = s.wrej := rfl
@[simp] theorem modCore_notice (s : State) (l : Lcid) (f : Core → Core) : (modCore s l f).notice = s.notice := rfl
@[simp] theorem modCore_freeCtr (s : State) (l : Lcid) (f : Core → Core) : (modCore s l f).freeCtr = s.freeCtr := rfl
@[simp] theorem modCore_pending (s : State) (l : Lcid) (f : Core → Core) : (modCore s l f).pending = s.pending := rfl

/-! ### modCtxOf -/

@[simp] theorem modCtxOf_part (s : State) (l : Lcid) (c : CtxNo) (f : Ctx → Ctx) : (modCtxOf s l c f).part = s.part := rfl
@[simp] theorem modCtxOf_groves (s : State) (l : Lcid) (c : CtxNo) (f : Ctx → Ctx) : (modCtxOf s l c f).groves = s.groves := rfl
@[simp] theorem modCtxOf_reds (s : State) (l : Lcid) (c : CtxNo) (f : Ctx → Ctx) : (modCtxOf s l c f).reds = s.reds := rfl
@[simp] theorem modCtxOf_landing (s : State) (l : Lcid) (c : CtxNo) (f : Ctx → Ctx) : (modCtxOf s l c f).landing = s.landing := rfl
@[simp] theorem modCtxOf_gf (s : State) (l : Lcid) (c : CtxNo) (f : Ctx → Ctx) : (modCtxOf s l c f).gf = s.gf := rfl
@[simp] theorem modCtxOf_hbm (s : State) (l : Lcid) (c : CtxNo) (f : Ctx → Ctx) : (modCtxOf s l c f).hbm = s.hbm := rfl
@[simp] theorem modCtxOf_host (s : State) (l : Lcid) (c : CtxNo) (f : Ctx → Ctx) : (modCtxOf s l c f).host = s.host := rfl
@[simp] theorem modCtxOf_pace (s : State) (l : Lcid) (c : CtxNo) (f : Ctx → Ctx) : (modCtxOf s l c f).pace = s.pace := rfl
@[simp] theorem modCtxOf_sec (s : State) (l : Lcid) (c : CtxNo) (f : Ctx → Ctx) : (modCtxOf s l c f).sec = s.sec := rfl
@[simp] theorem modCtxOf_cruise (s : State) (l : Lcid) (c : CtxNo) (f : Ctx → Ctx) : (modCtxOf s l c f).cruise = s.cruise := rfl
@[simp] theorem modCtxOf_dorm (s : State) (l : Lcid) (c : CtxNo) (f : Ctx → Ctx) : (modCtxOf s l c f).dorm = s.dorm := rfl
@[simp] theorem modCtxOf_errs (s : State) (l : Lcid) (c : CtxNo) (f : Ctx → Ctx) : (modCtxOf s l c f).errs = s.errs := rfl
@[simp] theorem modCtxOf_snagCfg (s : State) (l : Lcid) (c : CtxNo) (f : Ctx → Ctx) : (modCtxOf s l c f).snagCfg = s.snagCfg := rfl
@[simp] theorem modCtxOf_snags (s : State) (l : Lcid) (c : CtxNo) (f : Ctx → Ctx) : (modCtxOf s l c f).snags = s.snags := rfl
@[simp] theorem modCtxOf_quiets (s : State) (l : Lcid) (c : CtxNo) (f : Ctx → Ctx) : (modCtxOf s l c f).quiets = s.quiets := rfl
@[simp] theorem modCtxOf_check (s : State) (l : Lcid) (c : CtxNo) (f : Ctx → Ctx) : (modCtxOf s l c f).check = s.check := rfl
@[simp] theorem modCtxOf_live (s : State) (l : Lcid) (c : CtxNo) (f : Ctx → Ctx) : (modCtxOf s l c f).live = s.live := rfl
@[simp] theorem modCtxOf_pins (s : State) (l : Lcid) (c : CtxNo) (f : Ctx → Ctx) : (modCtxOf s l c f).pins = s.pins := rfl
@[simp] theorem modCtxOf_did (s : State) (l : Lcid) (c : CtxNo) (f : Ctx → Ctx) : (modCtxOf s l c f).did = s.did := rfl
@[simp] theorem modCtxOf_pgrove (s : State) (l : Lcid) (c : CtxNo) (f : Ctx → Ctx) : (modCtxOf s l c f).pgrove = s.pgrove := rfl
@[simp] theorem modCtxOf_sanDue (s : State) (l : Lcid) (c : CtxNo) (f : Ctx → Ctx) : (modCtxOf s l c f).sanDue = s.sanDue := rfl
@[simp] theorem modCtxOf_wrej (s : State) (l : Lcid) (c : CtxNo) (f : Ctx → Ctx) : (modCtxOf s l c f).wrej = s.wrej := rfl
@[simp] theorem modCtxOf_notice (s : State) (l : Lcid) (c : CtxNo) (f : Ctx → Ctx) : (modCtxOf s l c f).notice = s.notice := rfl
@[simp] theorem modCtxOf_freeCtr (s : State) (l : Lcid) (c : CtxNo) (f : Ctx → Ctx) : (modCtxOf s l c f).freeCtr = s.freeCtr := rfl
@[simp] theorem modCtxOf_pending (s : State) (l : Lcid) (c : CtxNo) (f : Ctx → Ctx) : (modCtxOf s l c f).pending = s.pending := rfl

/-! ### fetched -/

@[simp] theorem fetched_part (s : State) (l : Lcid) (c : CtxNo) : (fetched s l c).part = s.part := rfl
@[simp] theorem fetched_groves (s : State) (l : Lcid) (c : CtxNo) : (fetched s l c).groves = s.groves := rfl
@[simp] theorem fetched_reds (s : State) (l : Lcid) (c : CtxNo) : (fetched s l c).reds = s.reds := rfl
@[simp] theorem fetched_landing (s : State) (l : Lcid) (c : CtxNo) : (fetched s l c).landing = s.landing := rfl
@[simp] theorem fetched_gf (s : State) (l : Lcid) (c : CtxNo) : (fetched s l c).gf = s.gf := rfl
@[simp] theorem fetched_hbm (s : State) (l : Lcid) (c : CtxNo) : (fetched s l c).hbm = s.hbm := rfl
@[simp] theorem fetched_host (s : State) (l : Lcid) (c : CtxNo) : (fetched s l c).host = s.host := rfl
@[simp] theorem fetched_pace (s : State) (l : Lcid) (c : CtxNo) : (fetched s l c).pace = s.pace := rfl
@[simp] theorem fetched_sec (s : State) (l : Lcid) (c : CtxNo) : (fetched s l c).sec = s.sec := rfl
@[simp] theorem fetched_cruise (s : State) (l : Lcid) (c : CtxNo) : (fetched s l c).cruise = s.cruise := rfl
@[simp] theorem fetched_dorm (s : State) (l : Lcid) (c : CtxNo) : (fetched s l c).dorm = s.dorm := rfl
@[simp] theorem fetched_errs (s : State) (l : Lcid) (c : CtxNo) : (fetched s l c).errs = s.errs := rfl
@[simp] theorem fetched_snagCfg (s : State) (l : Lcid) (c : CtxNo) : (fetched s l c).snagCfg = s.snagCfg := rfl
@[simp] theorem fetched_snags (s : State) (l : Lcid) (c : CtxNo) : (fetched s l c).snags = s.snags := rfl
@[simp] theorem fetched_quiets (s : State) (l : Lcid) (c : CtxNo) : (fetched s l c).quiets = s.quiets := rfl
@[simp] theorem fetched_check (s : State) (l : Lcid) (c : CtxNo) : (fetched s l c).check = s.check := rfl
@[simp] theorem fetched_live (s : State) (l : Lcid) (c : CtxNo) : (fetched s l c).live = s.live := rfl
@[simp] theorem fetched_pins (s : State) (l : Lcid) (c : CtxNo) : (fetched s l c).pins = s.pins := rfl
@[simp] theorem fetched_did (s : State) (l : Lcid) (c : CtxNo) : (fetched s l c).did = s.did := rfl
@[simp] theorem fetched_pgrove (s : State) (l : Lcid) (c : CtxNo) : (fetched s l c).pgrove = s.pgrove := rfl
@[simp] theorem fetched_sanDue (s : State) (l : Lcid) (c : CtxNo) : (fetched s l c).sanDue = s.sanDue := rfl
@[simp] theorem fetched_wrej (s : State) (l : Lcid) (c : CtxNo) : (fetched s l c).wrej = s.wrej := rfl
@[simp] theorem fetched_notice (s : State) (l : Lcid) (c : CtxNo) : (fetched s l c).notice = s.notice := rfl
@[simp] theorem fetched_freeCtr (s : State) (l : Lcid) (c : CtxNo) : (fetched s l c).freeCtr = s.freeCtr := rfl
@[simp] theorem fetched_pending (s : State) (l : Lcid) (c : CtxNo) : (fetched s l c).pending = s.pending := rfl

/-! ### finish -/

@[simp] theorem finish_part (s : State) (l : Lcid) (c : CtxNo) (f : Ctx → Ctx) : (finish s l c f).part = s.part := rfl
@[simp] theorem finish_groves (s : State) (l : Lcid) (c : CtxNo) (f : Ctx → Ctx) : (finish s l c f).groves = s.groves := rfl
@[simp] theorem finish_reds (s : State) (l : Lcid) (c : CtxNo) (f : Ctx → Ctx) : (finish s l c f).reds = s.reds := rfl
@[simp] theorem finish_landing (s : State) (l : Lcid) (c : CtxNo) (f : Ctx → Ctx) : (finish s l c f).landing = s.landing := rfl
@[simp] theorem finish_gf (s : State) (l : Lcid) (c : CtxNo) (f : Ctx → Ctx) : (finish s l c f).gf = s.gf := rfl
@[simp] theorem finish_hbm (s : State) (l : Lcid) (c : CtxNo) (f : Ctx → Ctx) : (finish s l c f).hbm = s.hbm := rfl
@[simp] theorem finish_host (s : State) (l : Lcid) (c : CtxNo) (f : Ctx → Ctx) : (finish s l c f).host = s.host := rfl
@[simp] theorem finish_pace (s : State) (l : Lcid) (c : CtxNo) (f : Ctx → Ctx) : (finish s l c f).pace = s.pace := rfl
@[simp] theorem finish_sec (s : State) (l : Lcid) (c : CtxNo) (f : Ctx → Ctx) : (finish s l c f).sec = s.sec := rfl
@[simp] theorem finish_cruise (s : State) (l : Lcid) (c : CtxNo) (f : Ctx → Ctx) : (finish s l c f).cruise = s.cruise := rfl
@[simp] theorem finish_dorm (s : State) (l : Lcid) (c : CtxNo) (f : Ctx → Ctx) : (finish s l c f).dorm = s.dorm := rfl
@[simp] theorem finish_errs (s : State) (l : Lcid) (c : CtxNo) (f : Ctx → Ctx) : (finish s l c f).errs = s.errs := rfl
@[simp] theorem finish_snagCfg (s : State) (l : Lcid) (c : CtxNo) (f : Ctx → Ctx) : (finish s l c f).snagCfg = s.snagCfg := rfl
@[simp] theorem finish_snags (s : State) (l : Lcid) (c : CtxNo) (f : Ctx → Ctx) : (finish s l c f).snags = s.snags := rfl
@[simp] theorem finish_quiets (s : State) (l : Lcid) (c : CtxNo) (f : Ctx → Ctx) : (finish s l c f).quiets = s.quiets := rfl
@[simp] theorem finish_check (s : State) (l : Lcid) (c : CtxNo) (f : Ctx → Ctx) : (finish s l c f).check = s.check := rfl
@[simp] theorem finish_live (s : State) (l : Lcid) (c : CtxNo) (f : Ctx → Ctx) : (finish s l c f).live = s.live := rfl
@[simp] theorem finish_pins (s : State) (l : Lcid) (c : CtxNo) (f : Ctx → Ctx) : (finish s l c f).pins = s.pins := rfl
@[simp] theorem finish_did (s : State) (l : Lcid) (c : CtxNo) (f : Ctx → Ctx) : (finish s l c f).did = s.did := rfl
@[simp] theorem finish_pgrove (s : State) (l : Lcid) (c : CtxNo) (f : Ctx → Ctx) : (finish s l c f).pgrove = s.pgrove := rfl
@[simp] theorem finish_sanDue (s : State) (l : Lcid) (c : CtxNo) (f : Ctx → Ctx) : (finish s l c f).sanDue = s.sanDue := rfl
@[simp] theorem finish_wrej (s : State) (l : Lcid) (c : CtxNo) (f : Ctx → Ctx) : (finish s l c f).wrej = s.wrej := rfl
@[simp] theorem finish_notice (s : State) (l : Lcid) (c : CtxNo) (f : Ctx → Ctx) : (finish s l c f).notice = s.notice := rfl
@[simp] theorem finish_freeCtr (s : State) (l : Lcid) (c : CtxNo) (f : Ctx → Ctx) : (finish s l c f).freeCtr = s.freeCtr := rfl
@[simp] theorem finish_pending (s : State) (l : Lcid) (c : CtxNo) (f : Ctx → Ctx) : (finish s l c f).pending = s.pending := rfl

/-! ### advance -/

@[simp] theorem advance_part (s : State) (l : Lcid) (c : CtxNo) : (advance s l c).part = s.part := rfl
@[simp] theorem advance_groves (s : State) (l : Lcid) (c : CtxNo) : (advance s l c).groves = s.groves := rfl
@[simp] theorem advance_reds (s : State) (l : Lcid) (c : CtxNo) : (advance s l c).reds = s.reds := rfl
@[simp] theorem advance_landing (s : State) (l : Lcid) (c : CtxNo) : (advance s l c).landing = s.landing := rfl
@[simp] theorem advance_gf (s : State) (l : Lcid) (c : CtxNo) : (advance s l c).gf = s.gf := rfl
@[simp] theorem advance_hbm (s : State) (l : Lcid) (c : CtxNo) : (advance s l c).hbm = s.hbm := rfl
@[simp] theorem advance_host (s : State) (l : Lcid) (c : CtxNo) : (advance s l c).host = s.host := rfl
@[simp] theorem advance_pace (s : State) (l : Lcid) (c : CtxNo) : (advance s l c).pace = s.pace := rfl
@[simp] theorem advance_sec (s : State) (l : Lcid) (c : CtxNo) : (advance s l c).sec = s.sec := rfl
@[simp] theorem advance_cruise (s : State) (l : Lcid) (c : CtxNo) : (advance s l c).cruise = s.cruise := rfl
@[simp] theorem advance_dorm (s : State) (l : Lcid) (c : CtxNo) : (advance s l c).dorm = s.dorm := rfl
@[simp] theorem advance_errs (s : State) (l : Lcid) (c : CtxNo) : (advance s l c).errs = s.errs := rfl
@[simp] theorem advance_snagCfg (s : State) (l : Lcid) (c : CtxNo) : (advance s l c).snagCfg = s.snagCfg := rfl
@[simp] theorem advance_snags (s : State) (l : Lcid) (c : CtxNo) : (advance s l c).snags = s.snags := rfl
@[simp] theorem advance_quiets (s : State) (l : Lcid) (c : CtxNo) : (advance s l c).quiets = s.quiets := rfl
@[simp] theorem advance_check (s : State) (l : Lcid) (c : CtxNo) : (advance s l c).check = s.check := rfl
@[simp] theorem advance_live (s : State) (l : Lcid) (c : CtxNo) : (advance s l c).live = s.live := rfl
@[simp] theorem advance_pins (s : State) (l : Lcid) (c : CtxNo) : (advance s l c).pins = s.pins := rfl
@[simp] theorem advance_did (s : State) (l : Lcid) (c : CtxNo) : (advance s l c).did = s.did := rfl
@[simp] theorem advance_pgrove (s : State) (l : Lcid) (c : CtxNo) : (advance s l c).pgrove = s.pgrove := rfl
@[simp] theorem advance_sanDue (s : State) (l : Lcid) (c : CtxNo) : (advance s l c).sanDue = s.sanDue := rfl
@[simp] theorem advance_wrej (s : State) (l : Lcid) (c : CtxNo) : (advance s l c).wrej = s.wrej := rfl
@[simp] theorem advance_notice (s : State) (l : Lcid) (c : CtxNo) : (advance s l c).notice = s.notice := rfl
@[simp] theorem advance_freeCtr (s : State) (l : Lcid) (c : CtxNo) : (advance s l c).freeCtr = s.freeCtr := rfl
@[simp] theorem advance_pending (s : State) (l : Lcid) (c : CtxNo) : (advance s l c).pending = s.pending := rfl

/-! ### setGrove -/

@[simp] theorem setGrove_part (s : State) (d : Dg) (g : Grove) : (setGrove s d g).part = s.part := rfl
@[simp] theorem setGrove_cores (s : State) (d : Dg) (g : Grove) : (setGrove s d g).cores = s.cores := rfl
@[simp] theorem setGrove_reds (s : State) (d : Dg) (g : Grove) : (setGrove s d g).reds = s.reds := rfl
@[simp] theorem setGrove_landing (s : State) (d : Dg) (g : Grove) : (setGrove s d g).landing = s.landing := rfl
@[simp] theorem setGrove_gf (s : State) (d : Dg) (g : Grove) : (setGrove s d g).gf = s.gf := rfl
@[simp] theorem setGrove_hbm (s : State) (d : Dg) (g : Grove) : (setGrove s d g).hbm = s.hbm := rfl
@[simp] theorem setGrove_host (s : State) (d : Dg) (g : Grove) : (setGrove s d g).host = s.host := rfl
@[simp] theorem setGrove_pace (s : State) (d : Dg) (g : Grove) : (setGrove s d g).pace = s.pace := rfl
@[simp] theorem setGrove_sec (s : State) (d : Dg) (g : Grove) : (setGrove s d g).sec = s.sec := rfl
@[simp] theorem setGrove_cruise (s : State) (d : Dg) (g : Grove) : (setGrove s d g).cruise = s.cruise := rfl
@[simp] theorem setGrove_dorm (s : State) (d : Dg) (g : Grove) : (setGrove s d g).dorm = s.dorm := rfl
@[simp] theorem setGrove_errs (s : State) (d : Dg) (g : Grove) : (setGrove s d g).errs = s.errs := rfl
@[simp] theorem setGrove_snagCfg (s : State) (d : Dg) (g : Grove) : (setGrove s d g).snagCfg = s.snagCfg := rfl
@[simp] theorem setGrove_snags (s : State) (d : Dg) (g : Grove) : (setGrove s d g).snags = s.snags := rfl
@[simp] theorem setGrove_quiets (s : State) (d : Dg) (g : Grove) : (setGrove s d g).quiets = s.quiets := rfl
@[simp] theorem setGrove_check (s : State) (d : Dg) (g : Grove) : (setGrove s d g).check = s.check := rfl
@[simp] theorem setGrove_live (s : State) (d : Dg) (g : Grove) : (setGrove s d g).live = s.live := rfl
@[simp] theorem setGrove_pins (s : State) (d : Dg) (g : Grove) : (setGrove s d g).pins = s.pins := rfl
@[simp] theorem setGrove_did (s : State) (d : Dg) (g : Grove) : (setGrove s d g).did = s.did := rfl
@[simp] theorem setGrove_pgrove (s : State) (d : Dg) (g : Grove) : (setGrove s d g).pgrove = s.pgrove := rfl
@[simp] theorem setGrove_sanDue (s : State) (d : Dg) (g : Grove) : (setGrove s d g).sanDue = s.sanDue := rfl
@[simp] theorem setGrove_wrej (s : State) (d : Dg) (g : Grove) : (setGrove s d g).wrej = s.wrej := rfl
@[simp] theorem setGrove_notice (s : State) (d : Dg) (g : Grove) : (setGrove s d g).notice = s.notice := rfl
@[simp] theorem setGrove_freeCtr (s : State) (d : Dg) (g : Grove) : (setGrove s d g).freeCtr = s.freeCtr := rfl
@[simp] theorem setGrove_pending (s : State) (d : Dg) (g : Grove) : (setGrove s d g).pending = s.pending := rfl

/-! ### modGrove -/

@[simp] theorem modGrove_part (s : State) (d : Dg) (f : Grove → Grove) : (modGrove s d f).part = s.part := rfl
@[simp] theorem modGrove_cores (s : State) (d : Dg) (f : Grove → Grove) : (modGrove s d f).cores = s.cores := rfl
@[simp] theorem modGrove_reds (s : State) (d : Dg) (f : Grove → Grove) : (modGrove s d f).reds = s.reds := rfl
@[simp] theorem modGrove_landing (s : State) (d : Dg) (f : Grove → Grove) : (modGrove s d f).landing = s.landing := rfl
@[simp] theorem modGrove_gf (s : State) (d : Dg) (f : Grove → Grove) : (modGrove s d f).gf = s.gf := rfl
@[simp] theorem modGrove_hbm (s : State) (d : Dg) (f : Grove → Grove) : (modGrove s d f).hbm = s.hbm := rfl
@[simp] theorem modGrove_host (s : State) (d : Dg) (f : Grove → Grove) : (modGrove s d f).host = s.host := rfl
@[simp] theorem modGrove_pace (s : State) (d : Dg) (f : Grove → Grove) : (modGrove s d f).pace = s.pace := rfl
@[simp] theorem modGrove_sec (s : State) (d : Dg) (f : Grove → Grove) : (modGrove s d f).sec = s.sec := rfl
@[simp] theorem modGrove_cruise (s : State) (d : Dg) (f : Grove → Grove) : (modGrove s d f).cruise = s.cruise := rfl
@[simp] theorem modGrove_dorm (s : State) (d : Dg) (f : Grove → Grove) : (modGrove s d f).dorm = s.dorm := rfl
@[simp] theorem modGrove_errs (s : State) (d : Dg) (f : Grove → Grove) : (modGrove s d f).errs = s.errs := rfl
@[simp] theorem modGrove_snagCfg (s : State) (d : Dg) (f : Grove → Grove) : (modGrove s d f).snagCfg = s.snagCfg := rfl
@[simp] theorem modGrove_snags (s : State) (d : Dg) (f : Grove → Grove) : (modGrove s d f).snags = s.snags := rfl
@[simp] theorem modGrove_quiets (s : State) (d : Dg) (f : Grove → Grove) : (modGrove s d f).quiets = s.quiets := rfl
@[simp] theorem modGrove_check (s : State) (d : Dg) (f : Grove → Grove) : (modGrove s d f).check = s.check := rfl
@[simp] theorem modGrove_live (s : State) (d : Dg) (f : Grove → Grove) : (modGrove s d f).live = s.live := rfl
@[simp] theorem modGrove_pins (s : State) (d : Dg) (f : Grove → Grove) : (modGrove s d f).pins = s.pins := rfl
@[simp] theorem modGrove_did (s : State) (d : Dg) (f : Grove → Grove) : (modGrove s d f).did = s.did := rfl
@[simp] theorem modGrove_pgrove (s : State) (d : Dg) (f : Grove → Grove) : (modGrove s d f).pgrove = s.pgrove := rfl
@[simp] theorem modGrove_sanDue (s : State) (d : Dg) (f : Grove → Grove) : (modGrove s d f).sanDue = s.sanDue := rfl
@[simp] theorem modGrove_wrej (s : State) (d : Dg) (f : Grove → Grove) : (modGrove s d f).wrej = s.wrej := rfl
@[simp] theorem modGrove_notice (s : State) (d : Dg) (f : Grove → Grove) : (modGrove s d f).notice = s.notice := rfl
@[simp] theorem modGrove_freeCtr (s : State) (d : Dg) (f : Grove → Grove) : (modGrove s d f).freeCtr = s.freeCtr := rfl
@[simp] theorem modGrove_pending (s : State) (d : Dg) (f : Grove → Grove) : (modGrove s d f).pending = s.pending := rfl

/-! ### modSite -/

@[simp] theorem modSite_part (s : State) (d : Dg) (n : Nat) (f : Site → Site) : (modSite s d n f).part = s.part := rfl
@[simp] theorem modSite_cores (s : State) (d : Dg) (n : Nat) (f : Site → Site) : (modSite s d n f).cores = s.cores := rfl
@[simp] theorem modSite_reds (s : State) (d : Dg) (n : Nat) (f : Site → Site) : (modSite s d n f).reds = s.reds := rfl
@[simp] theorem modSite_landing (s : State) (d : Dg) (n : Nat) (f : Site → Site) : (modSite s d n f).landing = s.landing := rfl
@[simp] theorem modSite_gf (s : State) (d : Dg) (n : Nat) (f : Site → Site) : (modSite s d n f).gf = s.gf := rfl
@[simp] theorem modSite_hbm (s : State) (d : Dg) (n : Nat) (f : Site → Site) : (modSite s d n f).hbm = s.hbm := rfl
@[simp] theorem modSite_host (s : State) (d : Dg) (n : Nat) (f : Site → Site) : (modSite s d n f).host = s.host := rfl
@[simp] theorem modSite_pace (s : State) (d : Dg) (n : Nat) (f : Site → Site) : (modSite s d n f).pace = s.pace := rfl
@[simp] theorem modSite_sec (s : State) (d : Dg) (n : Nat) (f : Site → Site) : (modSite s d n f).sec = s.sec := rfl
@[simp] theorem modSite_cruise (s : State) (d : Dg) (n : Nat) (f : Site → Site) : (modSite s d n f).cruise = s.cruise := rfl
@[simp] theorem modSite_dorm (s : State) (d : Dg) (n : Nat) (f : Site → Site) : (modSite s d n f).dorm = s.dorm := rfl
@[simp] theorem modSite_errs (s : State) (d : Dg) (n : Nat) (f : Site → Site) : (modSite s d n f).errs = s.errs := rfl
@[simp] theorem modSite_snagCfg (s : State) (d : Dg) (n : Nat) (f : Site → Site) : (modSite s d n f).snagCfg = s.snagCfg := rfl
@[simp] theorem modSite_snags (s : State) (d : Dg) (n : Nat) (f : Site → Site) : (modSite s d n f).snags = s.snags := rfl
@[simp] theorem modSite_quiets (s : State) (d : Dg) (n : Nat) (f : Site → Site) : (modSite s d n f).quiets = s.quiets := rfl
@[simp] theorem modSite_check (s : State) (d : Dg) (n : Nat) (f : Site → Site) : (modSite s d n f).check = s.check := rfl
@[simp] theorem modSite_live (s : State) (d : Dg) (n : Nat) (f : Site → Site) : (modSite s d n f).live = s.live := rfl
@[simp] theorem modSite_pins (s : State) (d : Dg) (n : Nat) (f : Site → Site) : (modSite s d n f).pins = s.pins := rfl
@[simp] theorem modSite_did (s : State) (d : Dg) (n : Nat) (f : Site → Site) : (modSite s d n f).did = s.did := rfl
@[simp] theorem modSite_pgrove (s : State) (d : Dg) (n : Nat) (f : Site → Site) : (modSite s d n f).pgrove = s.pgrove := rfl
@[simp] theorem modSite_sanDue (s : State) (d : Dg) (n : Nat) (f : Site → Site) : (modSite s d n f).sanDue = s.sanDue := rfl
@[simp] theorem modSite_wrej (s : State) (d : Dg) (n : Nat) (f : Site → Site) : (modSite s d n f).wrej = s.wrej := rfl
@[simp] theorem modSite_notice (s : State) (d : Dg) (n : Nat) (f : Site → Site) : (modSite s d n f).notice = s.notice := rfl
@[simp] theorem modSite_freeCtr (s : State) (d : Dg) (n : Nat) (f : Site → Site) : (modSite s d n f).freeCtr = s.freeCtr := rfl
@[simp] theorem modSite_pending (s : State) (d : Dg) (n : Nat) (f : Site → Site) : (modSite s d n f).pending = s.pending := rfl

/-! ### raise -/

@[simp] theorem raise_part (s : State) (r : Rpt) : (raise s r).part = s.part := rfl
@[simp] theorem raise_cores (s : State) (r : Rpt) : (raise s r).cores = s.cores := rfl
@[simp] theorem raise_groves (s : State) (r : Rpt) : (raise s r).groves = s.groves := rfl
@[simp] theorem raise_reds (s : State) (r : Rpt) : (raise s r).reds = s.reds := rfl
@[simp] theorem raise_landing (s : State) (r : Rpt) : (raise s r).landing = s.landing := rfl
@[simp] theorem raise_gf (s : State) (r : Rpt) : (raise s r).gf = s.gf := rfl
@[simp] theorem raise_hbm (s : State) (r : Rpt) : (raise s r).hbm = s.hbm := rfl
@[simp] theorem raise_host (s : State) (r : Rpt) : (raise s r).host = s.host := rfl
@[simp] theorem raise_pace (s : State) (r : Rpt) : (raise s r).pace = s.pace := rfl
@[simp] theorem raise_sec (s : State) (r : Rpt) : (raise s r).sec = s.sec := rfl
@[simp] theorem raise_cruise (s : State) (r : Rpt) : (raise s r).cruise = s.cruise := rfl
@[simp] theorem raise_dorm (s : State) (r : Rpt) : (raise s r).dorm = s.dorm := rfl
@[simp] theorem raise_snagCfg (s : State) (r : Rpt) : (raise s r).snagCfg = s.snagCfg := rfl
@[simp] theorem raise_snags (s : State) (r : Rpt) : (raise s r).snags = s.snags := rfl
@[simp] theorem raise_quiets (s : State) (r : Rpt) : (raise s r).quiets = s.quiets := rfl
@[simp] theorem raise_check (s : State) (r : Rpt) : (raise s r).check = s.check := rfl
@[simp] theorem raise_live (s : State) (r : Rpt) : (raise s r).live = s.live := rfl
@[simp] theorem raise_pins (s : State) (r : Rpt) : (raise s r).pins = s.pins := rfl
@[simp] theorem raise_did (s : State) (r : Rpt) : (raise s r).did = s.did := rfl
@[simp] theorem raise_pgrove (s : State) (r : Rpt) : (raise s r).pgrove = s.pgrove := rfl
@[simp] theorem raise_sanDue (s : State) (r : Rpt) : (raise s r).sanDue = s.sanDue := rfl
@[simp] theorem raise_wrej (s : State) (r : Rpt) : (raise s r).wrej = s.wrej := rfl
@[simp] theorem raise_notice (s : State) (r : Rpt) : (raise s r).notice = s.notice := rfl
@[simp] theorem raise_freeCtr (s : State) (r : Rpt) : (raise s r).freeCtr = s.freeCtr := rfl
@[simp] theorem raise_pending (s : State) (r : Rpt) : (raise s r).pending = s.pending := rfl

/-! ### reject -/

@[simp] theorem reject_part (s : State) (a b c d : Nat) : (reject s a b c d).part = s.part := rfl
@[simp] theorem reject_cores (s : State) (a b c d : Nat) : (reject s a b c d).cores = s.cores := rfl
@[simp] theorem reject_groves (s : State) (a b c d : Nat) : (reject s a b c d).groves = s.groves := rfl
@[simp] theorem reject_reds (s : State) (a b c d : Nat) : (reject s a b c d).reds = s.reds := rfl
@[simp] theorem reject_landing (s : State) (a b c d : Nat) : (reject s a b c d).landing = s.landing := rfl
@[simp] theorem reject_gf (s : State) (a b c d : Nat) : (reject s a b c d).gf = s.gf := rfl
@[simp] theorem reject_hbm (s : State) (a b c d : Nat) : (reject s a b c d).hbm = s.hbm := rfl
@[simp] theorem reject_host (s : State) (a b c d : Nat) : (reject s a b c d).host = s.host := rfl
@[simp] theorem reject_pace (s : State) (a b c d : Nat) : (reject s a b c d).pace = s.pace := rfl
@[simp] theorem reject_sec (s : State) (a b c d : Nat) : (reject s a b c d).sec = s.sec := rfl
@[simp] theorem reject_cruise (s : State) (a b c d : Nat) : (reject s a b c d).cruise = s.cruise := rfl
@[simp] theorem reject_dorm (s : State) (a b c d : Nat) : (reject s a b c d).dorm = s.dorm := rfl
@[simp] theorem reject_errs (s : State) (a b c d : Nat) : (reject s a b c d).errs = s.errs := rfl
@[simp] theorem reject_snagCfg (s : State) (a b c d : Nat) : (reject s a b c d).snagCfg = s.snagCfg := rfl
@[simp] theorem reject_snags (s : State) (a b c d : Nat) : (reject s a b c d).snags = s.snags := rfl
@[simp] theorem reject_quiets (s : State) (a b c d : Nat) : (reject s a b c d).quiets = s.quiets := rfl
@[simp] theorem reject_check (s : State) (a b c d : Nat) : (reject s a b c d).check = s.check := rfl
@[simp] theorem reject_live (s : State) (a b c d : Nat) : (reject s a b c d).live = s.live := rfl
@[simp] theorem reject_pins (s : State) (a b c d : Nat) : (reject s a b c d).pins = s.pins := rfl
@[simp] theorem reject_did (s : State) (a b c d : Nat) : (reject s a b c d).did = s.did := rfl
@[simp] theorem reject_pgrove (s : State) (a b c d : Nat) : (reject s a b c d).pgrove = s.pgrove := rfl
@[simp] theorem reject_sanDue (s : State) (a b c d : Nat) : (reject s a b c d).sanDue = s.sanDue := rfl
@[simp] theorem reject_notice (s : State) (a b c d : Nat) : (reject s a b c d).notice = s.notice := rfl
@[simp] theorem reject_freeCtr (s : State) (a b c d : Nat) : (reject s a b c d).freeCtr = s.freeCtr := rfl
@[simp] theorem reject_pending (s : State) (a b c d : Nat) : (reject s a b c d).pending = s.pending := rfl

/-! ### modFn -/

@[simp] theorem modFn_part (s : State) (n : Nat) (f : Fn → Fn) : (modFn s n f).part = s.part := rfl
@[simp] theorem modFn_cores (s : State) (n : Nat) (f : Fn → Fn) : (modFn s n f).cores = s.cores := rfl
@[simp] theorem modFn_groves (s : State) (n : Nat) (f : Fn → Fn) : (modFn s n f).groves = s.groves := rfl
@[simp] theorem modFn_reds (s : State) (n : Nat) (f : Fn → Fn) : (modFn s n f).reds = s.reds := rfl
@[simp] theorem modFn_landing (s : State) (n : Nat) (f : Fn → Fn) : (modFn s n f).landing = s.landing := rfl
@[simp] theorem modFn_gf (s : State) (n : Nat) (f : Fn → Fn) : (modFn s n f).gf = s.gf := rfl
@[simp] theorem modFn_hbm (s : State) (n : Nat) (f : Fn → Fn) : (modFn s n f).hbm = s.hbm := rfl
@[simp] theorem modFn_pace (s : State) (n : Nat) (f : Fn → Fn) : (modFn s n f).pace = s.pace := rfl
@[simp] theorem modFn_sec (s : State) (n : Nat) (f : Fn → Fn) : (modFn s n f).sec = s.sec := rfl
@[simp] theorem modFn_cruise (s : State) (n : Nat) (f : Fn → Fn) : (modFn s n f).cruise = s.cruise := rfl
@[simp] theorem modFn_dorm (s : State) (n : Nat) (f : Fn → Fn) : (modFn s n f).dorm = s.dorm := rfl
@[simp] theorem modFn_errs (s : State) (n : Nat) (f : Fn → Fn) : (modFn s n f).errs = s.errs := rfl
@[simp] theorem modFn_snagCfg (s : State) (n : Nat) (f : Fn → Fn) : (modFn s n f).snagCfg = s.snagCfg := rfl
@[simp] theorem modFn_snags (s : State) (n : Nat) (f : Fn → Fn) : (modFn s n f).snags = s.snags := rfl
@[simp] theorem modFn_quiets (s : State) (n : Nat) (f : Fn → Fn) : (modFn s n f).quiets = s.quiets := rfl
@[simp] theorem modFn_check (s : State) (n : Nat) (f : Fn → Fn) : (modFn s n f).check = s.check := rfl
@[simp] theorem modFn_live (s : State) (n : Nat) (f : Fn → Fn) : (modFn s n f).live = s.live := rfl
@[simp] theorem modFn_pins (s : State) (n : Nat) (f : Fn → Fn) : (modFn s n f).pins = s.pins := rfl
@[simp] theorem modFn_did (s : State) (n : Nat) (f : Fn → Fn) : (modFn s n f).did = s.did := rfl
@[simp] theorem modFn_pgrove (s : State) (n : Nat) (f : Fn → Fn) : (modFn s n f).pgrove = s.pgrove := rfl
@[simp] theorem modFn_sanDue (s : State) (n : Nat) (f : Fn → Fn) : (modFn s n f).sanDue = s.sanDue := rfl
@[simp] theorem modFn_wrej (s : State) (n : Nat) (f : Fn → Fn) : (modFn s n f).wrej = s.wrej := rfl
@[simp] theorem modFn_notice (s : State) (n : Nat) (f : Fn → Fn) : (modFn s n f).notice = s.notice := rfl
@[simp] theorem modFn_freeCtr (s : State) (n : Nat) (f : Fn → Fn) : (modFn s n f).freeCtr = s.freeCtr := rfl
@[simp] theorem modFn_pending (s : State) (n : Nat) (f : Fn → Fn) : (modFn s n f).pending = s.pending := rfl

/-! ### signalVec -/

@[simp] theorem signalVec_part (s : State) (n v : Nat) : (signalVec s n v).part = s.part := rfl
@[simp] theorem signalVec_cores (s : State) (n v : Nat) : (signalVec s n v).cores = s.cores := rfl
@[simp] theorem signalVec_groves (s : State) (n v : Nat) : (signalVec s n v).groves = s.groves := rfl
@[simp] theorem signalVec_reds (s : State) (n v : Nat) : (signalVec s n v).reds = s.reds := rfl
@[simp] theorem signalVec_landing (s : State) (n v : Nat) : (signalVec s n v).landing = s.landing := rfl
@[simp] theorem signalVec_gf (s : State) (n v : Nat) : (signalVec s n v).gf = s.gf := rfl
@[simp] theorem signalVec_hbm (s : State) (n v : Nat) : (signalVec s n v).hbm = s.hbm := rfl
@[simp] theorem signalVec_pace (s : State) (n v : Nat) : (signalVec s n v).pace = s.pace := rfl
@[simp] theorem signalVec_sec (s : State) (n v : Nat) : (signalVec s n v).sec = s.sec := rfl
@[simp] theorem signalVec_cruise (s : State) (n v : Nat) : (signalVec s n v).cruise = s.cruise := rfl
@[simp] theorem signalVec_dorm (s : State) (n v : Nat) : (signalVec s n v).dorm = s.dorm := rfl
@[simp] theorem signalVec_errs (s : State) (n v : Nat) : (signalVec s n v).errs = s.errs := rfl
@[simp] theorem signalVec_snagCfg (s : State) (n v : Nat) : (signalVec s n v).snagCfg = s.snagCfg := rfl
@[simp] theorem signalVec_snags (s : State) (n v : Nat) : (signalVec s n v).snags = s.snags := rfl
@[simp] theorem signalVec_quiets (s : State) (n v : Nat) : (signalVec s n v).quiets = s.quiets := rfl
@[simp] theorem signalVec_check (s : State) (n v : Nat) : (signalVec s n v).check = s.check := rfl
@[simp] theorem signalVec_live (s : State) (n v : Nat) : (signalVec s n v).live = s.live := rfl
@[simp] theorem signalVec_pins (s : State) (n v : Nat) : (signalVec s n v).pins = s.pins := rfl
@[simp] theorem signalVec_did (s : State) (n v : Nat) : (signalVec s n v).did = s.did := rfl
@[simp] theorem signalVec_pgrove (s : State) (n v : Nat) : (signalVec s n v).pgrove = s.pgrove := rfl
@[simp] theorem signalVec_sanDue (s : State) (n v : Nat) : (signalVec s n v).sanDue = s.sanDue := rfl
@[simp] theorem signalVec_wrej (s : State) (n v : Nat) : (signalVec s n v).wrej = s.wrej := rfl
@[simp] theorem signalVec_notice (s : State) (n v : Nat) : (signalVec s n v).notice = s.notice := rfl
@[simp] theorem signalVec_freeCtr (s : State) (n v : Nat) : (signalVec s n v).freeCtr = s.freeCtr := rfl
@[simp] theorem signalVec_pending (s : State) (n v : Nat) : (signalVec s n v).pending = s.pending := rfl

/-! ### modCmd -/

@[simp] theorem modCmd_part (s : State) (n q : Nat) (f : HostCmd → HostCmd) : (modCmd s n q f).part = s.part := rfl
@[simp] theorem modCmd_cores (s : State) (n q : Nat) (f : HostCmd → HostCmd) : (modCmd s n q f).cores = s.cores := rfl
@[simp] theorem modCmd_groves (s : State) (n q : Nat) (f : HostCmd → HostCmd) : (modCmd s n q f).groves = s.groves := rfl
@[simp] theorem modCmd_reds (s : State) (n q : Nat) (f : HostCmd → HostCmd) : (modCmd s n q f).reds = s.reds := rfl
@[simp] theorem modCmd_landing (s : State) (n q : Nat) (f : HostCmd → HostCmd) : (modCmd s n q f).landing = s.landing := rfl
@[simp] theorem modCmd_gf (s : State) (n q : Nat) (f : HostCmd → HostCmd) : (modCmd s n q f).gf = s.gf := rfl
@[simp] theorem modCmd_hbm (s : State) (n q : Nat) (f : HostCmd → HostCmd) : (modCmd s n q f).hbm = s.hbm := rfl
@[simp] theorem modCmd_pace (s : State) (n q : Nat) (f : HostCmd → HostCmd) : (modCmd s n q f).pace = s.pace := rfl
@[simp] theorem modCmd_sec (s : State) (n q : Nat) (f : HostCmd → HostCmd) : (modCmd s n q f).sec = s.sec := rfl
@[simp] theorem modCmd_cruise (s : State) (n q : Nat) (f : HostCmd → HostCmd) : (modCmd s n q f).cruise = s.cruise := rfl
@[simp] theorem modCmd_dorm (s : State) (n q : Nat) (f : HostCmd → HostCmd) : (modCmd s n q f).dorm = s.dorm := rfl
@[simp] theorem modCmd_errs (s : State) (n q : Nat) (f : HostCmd → HostCmd) : (modCmd s n q f).errs = s.errs := rfl
@[simp] theorem modCmd_snagCfg (s : State) (n q : Nat) (f : HostCmd → HostCmd) : (modCmd s n q f).snagCfg = s.snagCfg := rfl
@[simp] theorem modCmd_snags (s : State) (n q : Nat) (f : HostCmd → HostCmd) : (modCmd s n q f).snags = s.snags := rfl
@[simp] theorem modCmd_quiets (s : State) (n q : Nat) (f : HostCmd → HostCmd) : (modCmd s n q f).quiets = s.quiets := rfl
@[simp] theorem modCmd_check (s : State) (n q : Nat) (f : HostCmd → HostCmd) : (modCmd s n q f).check = s.check := rfl
@[simp] theorem modCmd_live (s : State) (n q : Nat) (f : HostCmd → HostCmd) : (modCmd s n q f).live = s.live := rfl
@[simp] theorem modCmd_pins (s : State) (n q : Nat) (f : HostCmd → HostCmd) : (modCmd s n q f).pins = s.pins := rfl
@[simp] theorem modCmd_did (s : State) (n q : Nat) (f : HostCmd → HostCmd) : (modCmd s n q f).did = s.did := rfl
@[simp] theorem modCmd_pgrove (s : State) (n q : Nat) (f : HostCmd → HostCmd) : (modCmd s n q f).pgrove = s.pgrove := rfl
@[simp] theorem modCmd_sanDue (s : State) (n q : Nat) (f : HostCmd → HostCmd) : (modCmd s n q f).sanDue = s.sanDue := rfl
@[simp] theorem modCmd_wrej (s : State) (n q : Nat) (f : HostCmd → HostCmd) : (modCmd s n q f).wrej = s.wrej := rfl
@[simp] theorem modCmd_notice (s : State) (n q : Nat) (f : HostCmd → HostCmd) : (modCmd s n q f).notice = s.notice := rfl
@[simp] theorem modCmd_freeCtr (s : State) (n q : Nat) (f : HostCmd → HostCmd) : (modCmd s n q f).freeCtr = s.freeCtr := rfl
@[simp] theorem modCmd_pending (s : State) (n q : Nat) (f : HostCmd → HostCmd) : (modCmd s n q f).pending = s.pending := rfl

/-! ### modStack -/

@[simp] theorem modStack_part (s : State) (t : BitVec 2) (f : Stack → Stack) : (modStack s t f).part = s.part := rfl
@[simp] theorem modStack_cores (s : State) (t : BitVec 2) (f : Stack → Stack) : (modStack s t f).cores = s.cores := rfl
@[simp] theorem modStack_groves (s : State) (t : BitVec 2) (f : Stack → Stack) : (modStack s t f).groves = s.groves := rfl
@[simp] theorem modStack_reds (s : State) (t : BitVec 2) (f : Stack → Stack) : (modStack s t f).reds = s.reds := rfl
@[simp] theorem modStack_landing (s : State) (t : BitVec 2) (f : Stack → Stack) : (modStack s t f).landing = s.landing := rfl
@[simp] theorem modStack_gf (s : State) (t : BitVec 2) (f : Stack → Stack) : (modStack s t f).gf = s.gf := rfl
@[simp] theorem modStack_host (s : State) (t : BitVec 2) (f : Stack → Stack) : (modStack s t f).host = s.host := rfl
@[simp] theorem modStack_pace (s : State) (t : BitVec 2) (f : Stack → Stack) : (modStack s t f).pace = s.pace := rfl
@[simp] theorem modStack_sec (s : State) (t : BitVec 2) (f : Stack → Stack) : (modStack s t f).sec = s.sec := rfl
@[simp] theorem modStack_cruise (s : State) (t : BitVec 2) (f : Stack → Stack) : (modStack s t f).cruise = s.cruise := rfl
@[simp] theorem modStack_dorm (s : State) (t : BitVec 2) (f : Stack → Stack) : (modStack s t f).dorm = s.dorm := rfl
@[simp] theorem modStack_errs (s : State) (t : BitVec 2) (f : Stack → Stack) : (modStack s t f).errs = s.errs := rfl
@[simp] theorem modStack_snagCfg (s : State) (t : BitVec 2) (f : Stack → Stack) : (modStack s t f).snagCfg = s.snagCfg := rfl
@[simp] theorem modStack_snags (s : State) (t : BitVec 2) (f : Stack → Stack) : (modStack s t f).snags = s.snags := rfl
@[simp] theorem modStack_quiets (s : State) (t : BitVec 2) (f : Stack → Stack) : (modStack s t f).quiets = s.quiets := rfl
@[simp] theorem modStack_check (s : State) (t : BitVec 2) (f : Stack → Stack) : (modStack s t f).check = s.check := rfl
@[simp] theorem modStack_live (s : State) (t : BitVec 2) (f : Stack → Stack) : (modStack s t f).live = s.live := rfl
@[simp] theorem modStack_pins (s : State) (t : BitVec 2) (f : Stack → Stack) : (modStack s t f).pins = s.pins := rfl
@[simp] theorem modStack_did (s : State) (t : BitVec 2) (f : Stack → Stack) : (modStack s t f).did = s.did := rfl
@[simp] theorem modStack_pgrove (s : State) (t : BitVec 2) (f : Stack → Stack) : (modStack s t f).pgrove = s.pgrove := rfl
@[simp] theorem modStack_sanDue (s : State) (t : BitVec 2) (f : Stack → Stack) : (modStack s t f).sanDue = s.sanDue := rfl
@[simp] theorem modStack_wrej (s : State) (t : BitVec 2) (f : Stack → Stack) : (modStack s t f).wrej = s.wrej := rfl
@[simp] theorem modStack_notice (s : State) (t : BitVec 2) (f : Stack → Stack) : (modStack s t f).notice = s.notice := rfl
@[simp] theorem modStack_freeCtr (s : State) (t : BitVec 2) (f : Stack → Stack) : (modStack s t f).freeCtr = s.freeCtr := rfl
@[simp] theorem modStack_pending (s : State) (t : BitVec 2) (f : Stack → Stack) : (modStack s t f).pending = s.pending := rfl

/-! ### modPort -/

@[simp] theorem modPort_part (s : State) (k : Nat) (f : Port → Port) : (modPort s k f).part = s.part := rfl
@[simp] theorem modPort_cores (s : State) (k : Nat) (f : Port → Port) : (modPort s k f).cores = s.cores := rfl
@[simp] theorem modPort_groves (s : State) (k : Nat) (f : Port → Port) : (modPort s k f).groves = s.groves := rfl
@[simp] theorem modPort_reds (s : State) (k : Nat) (f : Port → Port) : (modPort s k f).reds = s.reds := rfl
@[simp] theorem modPort_landing (s : State) (k : Nat) (f : Port → Port) : (modPort s k f).landing = s.landing := rfl
@[simp] theorem modPort_hbm (s : State) (k : Nat) (f : Port → Port) : (modPort s k f).hbm = s.hbm := rfl
@[simp] theorem modPort_host (s : State) (k : Nat) (f : Port → Port) : (modPort s k f).host = s.host := rfl
@[simp] theorem modPort_pace (s : State) (k : Nat) (f : Port → Port) : (modPort s k f).pace = s.pace := rfl
@[simp] theorem modPort_sec (s : State) (k : Nat) (f : Port → Port) : (modPort s k f).sec = s.sec := rfl
@[simp] theorem modPort_cruise (s : State) (k : Nat) (f : Port → Port) : (modPort s k f).cruise = s.cruise := rfl
@[simp] theorem modPort_dorm (s : State) (k : Nat) (f : Port → Port) : (modPort s k f).dorm = s.dorm := rfl
@[simp] theorem modPort_errs (s : State) (k : Nat) (f : Port → Port) : (modPort s k f).errs = s.errs := rfl
@[simp] theorem modPort_snagCfg (s : State) (k : Nat) (f : Port → Port) : (modPort s k f).snagCfg = s.snagCfg := rfl
@[simp] theorem modPort_snags (s : State) (k : Nat) (f : Port → Port) : (modPort s k f).snags = s.snags := rfl
@[simp] theorem modPort_quiets (s : State) (k : Nat) (f : Port → Port) : (modPort s k f).quiets = s.quiets := rfl
@[simp] theorem modPort_check (s : State) (k : Nat) (f : Port → Port) : (modPort s k f).check = s.check := rfl
@[simp] theorem modPort_live (s : State) (k : Nat) (f : Port → Port) : (modPort s k f).live = s.live := rfl
@[simp] theorem modPort_pins (s : State) (k : Nat) (f : Port → Port) : (modPort s k f).pins = s.pins := rfl
@[simp] theorem modPort_did (s : State) (k : Nat) (f : Port → Port) : (modPort s k f).did = s.did := rfl
@[simp] theorem modPort_pgrove (s : State) (k : Nat) (f : Port → Port) : (modPort s k f).pgrove = s.pgrove := rfl
@[simp] theorem modPort_sanDue (s : State) (k : Nat) (f : Port → Port) : (modPort s k f).sanDue = s.sanDue := rfl
@[simp] theorem modPort_wrej (s : State) (k : Nat) (f : Port → Port) : (modPort s k f).wrej = s.wrej := rfl
@[simp] theorem modPort_notice (s : State) (k : Nat) (f : Port → Port) : (modPort s k f).notice = s.notice := rfl
@[simp] theorem modPort_freeCtr (s : State) (k : Nat) (f : Port → Port) : (modPort s k f).freeCtr = s.freeCtr := rfl
@[simp] theorem modPort_pending (s : State) (k : Nat) (f : Port → Port) : (modPort s k f).pending = s.pending := rfl

/-! ### modShaper -/

@[simp] theorem modShaper_part (s : State) (k p : Nat) (f : Shaper → Shaper) : (modShaper s k p f).part = s.part := rfl
@[simp] theorem modShaper_cores (s : State) (k p : Nat) (f : Shaper → Shaper) : (modShaper s k p f).cores = s.cores := rfl
@[simp] theorem modShaper_groves (s : State) (k p : Nat) (f : Shaper → Shaper) : (modShaper s k p f).groves = s.groves := rfl
@[simp] theorem modShaper_reds (s : State) (k p : Nat) (f : Shaper → Shaper) : (modShaper s k p f).reds = s.reds := rfl
@[simp] theorem modShaper_landing (s : State) (k p : Nat) (f : Shaper → Shaper) : (modShaper s k p f).landing = s.landing := rfl
@[simp] theorem modShaper_hbm (s : State) (k p : Nat) (f : Shaper → Shaper) : (modShaper s k p f).hbm = s.hbm := rfl
@[simp] theorem modShaper_host (s : State) (k p : Nat) (f : Shaper → Shaper) : (modShaper s k p f).host = s.host := rfl
@[simp] theorem modShaper_pace (s : State) (k p : Nat) (f : Shaper → Shaper) : (modShaper s k p f).pace = s.pace := rfl
@[simp] theorem modShaper_sec (s : State) (k p : Nat) (f : Shaper → Shaper) : (modShaper s k p f).sec = s.sec := rfl
@[simp] theorem modShaper_cruise (s : State) (k p : Nat) (f : Shaper → Shaper) : (modShaper s k p f).cruise = s.cruise := rfl
@[simp] theorem modShaper_dorm (s : State) (k p : Nat) (f : Shaper → Shaper) : (modShaper s k p f).dorm = s.dorm := rfl
@[simp] theorem modShaper_errs (s : State) (k p : Nat) (f : Shaper → Shaper) : (modShaper s k p f).errs = s.errs := rfl
@[simp] theorem modShaper_snagCfg (s : State) (k p : Nat) (f : Shaper → Shaper) : (modShaper s k p f).snagCfg = s.snagCfg := rfl
@[simp] theorem modShaper_snags (s : State) (k p : Nat) (f : Shaper → Shaper) : (modShaper s k p f).snags = s.snags := rfl
@[simp] theorem modShaper_quiets (s : State) (k p : Nat) (f : Shaper → Shaper) : (modShaper s k p f).quiets = s.quiets := rfl
@[simp] theorem modShaper_check (s : State) (k p : Nat) (f : Shaper → Shaper) : (modShaper s k p f).check = s.check := rfl
@[simp] theorem modShaper_live (s : State) (k p : Nat) (f : Shaper → Shaper) : (modShaper s k p f).live = s.live := rfl
@[simp] theorem modShaper_pins (s : State) (k p : Nat) (f : Shaper → Shaper) : (modShaper s k p f).pins = s.pins := rfl
@[simp] theorem modShaper_did (s : State) (k p : Nat) (f : Shaper → Shaper) : (modShaper s k p f).did = s.did := rfl
@[simp] theorem modShaper_pgrove (s : State) (k p : Nat) (f : Shaper → Shaper) : (modShaper s k p f).pgrove = s.pgrove := rfl
@[simp] theorem modShaper_sanDue (s : State) (k p : Nat) (f : Shaper → Shaper) : (modShaper s k p f).sanDue = s.sanDue := rfl
@[simp] theorem modShaper_wrej (s : State) (k p : Nat) (f : Shaper → Shaper) : (modShaper s k p f).wrej = s.wrej := rfl
@[simp] theorem modShaper_notice (s : State) (k p : Nat) (f : Shaper → Shaper) : (modShaper s k p f).notice = s.notice := rfl
@[simp] theorem modShaper_freeCtr (s : State) (k p : Nat) (f : Shaper → Shaper) : (modShaper s k p f).freeCtr = s.freeCtr := rfl
@[simp] theorem modShaper_pending (s : State) (k p : Nat) (f : Shaper → Shaper) : (modShaper s k p f).pending = s.pending := rfl

/-! ### modComb -/

@[simp] theorem modComb_part (s : State) (i : Nat) (f : Comb → Comb) : (modComb s i f).part = s.part := rfl
@[simp] theorem modComb_cores (s : State) (i : Nat) (f : Comb → Comb) : (modComb s i f).cores = s.cores := rfl
@[simp] theorem modComb_groves (s : State) (i : Nat) (f : Comb → Comb) : (modComb s i f).groves = s.groves := rfl
@[simp] theorem modComb_reds (s : State) (i : Nat) (f : Comb → Comb) : (modComb s i f).reds = s.reds := rfl
@[simp] theorem modComb_landing (s : State) (i : Nat) (f : Comb → Comb) : (modComb s i f).landing = s.landing := rfl
@[simp] theorem modComb_gf (s : State) (i : Nat) (f : Comb → Comb) : (modComb s i f).gf = s.gf := rfl
@[simp] theorem modComb_hbm (s : State) (i : Nat) (f : Comb → Comb) : (modComb s i f).hbm = s.hbm := rfl
@[simp] theorem modComb_host (s : State) (i : Nat) (f : Comb → Comb) : (modComb s i f).host = s.host := rfl
@[simp] theorem modComb_pace (s : State) (i : Nat) (f : Comb → Comb) : (modComb s i f).pace = s.pace := rfl
@[simp] theorem modComb_sec (s : State) (i : Nat) (f : Comb → Comb) : (modComb s i f).sec = s.sec := rfl
@[simp] theorem modComb_cruise (s : State) (i : Nat) (f : Comb → Comb) : (modComb s i f).cruise = s.cruise := rfl
@[simp] theorem modComb_dorm (s : State) (i : Nat) (f : Comb → Comb) : (modComb s i f).dorm = s.dorm := rfl
@[simp] theorem modComb_snagCfg (s : State) (i : Nat) (f : Comb → Comb) : (modComb s i f).snagCfg = s.snagCfg := rfl
@[simp] theorem modComb_snags (s : State) (i : Nat) (f : Comb → Comb) : (modComb s i f).snags = s.snags := rfl
@[simp] theorem modComb_quiets (s : State) (i : Nat) (f : Comb → Comb) : (modComb s i f).quiets = s.quiets := rfl
@[simp] theorem modComb_check (s : State) (i : Nat) (f : Comb → Comb) : (modComb s i f).check = s.check := rfl
@[simp] theorem modComb_live (s : State) (i : Nat) (f : Comb → Comb) : (modComb s i f).live = s.live := rfl
@[simp] theorem modComb_pins (s : State) (i : Nat) (f : Comb → Comb) : (modComb s i f).pins = s.pins := rfl
@[simp] theorem modComb_did (s : State) (i : Nat) (f : Comb → Comb) : (modComb s i f).did = s.did := rfl
@[simp] theorem modComb_pgrove (s : State) (i : Nat) (f : Comb → Comb) : (modComb s i f).pgrove = s.pgrove := rfl
@[simp] theorem modComb_sanDue (s : State) (i : Nat) (f : Comb → Comb) : (modComb s i f).sanDue = s.sanDue := rfl
@[simp] theorem modComb_wrej (s : State) (i : Nat) (f : Comb → Comb) : (modComb s i f).wrej = s.wrej := rfl
@[simp] theorem modComb_notice (s : State) (i : Nat) (f : Comb → Comb) : (modComb s i f).notice = s.notice := rfl
@[simp] theorem modComb_freeCtr (s : State) (i : Nat) (f : Comb → Comb) : (modComb s i f).freeCtr = s.freeCtr := rfl
@[simp] theorem modComb_pending (s : State) (i : Nat) (f : Comb → Comb) : (modComb s i f).pending = s.pending := rfl

/-! ### setRed -/

@[simp] theorem setRed_part (s : State) (r : Red) : (setRed s r).part = s.part := rfl
@[simp] theorem setRed_cores (s : State) (r : Red) : (setRed s r).cores = s.cores := rfl
@[simp] theorem setRed_groves (s : State) (r : Red) : (setRed s r).groves = s.groves := rfl
@[simp] theorem setRed_landing (s : State) (r : Red) : (setRed s r).landing = s.landing := rfl
@[simp] theorem setRed_gf (s : State) (r : Red) : (setRed s r).gf = s.gf := rfl
@[simp] theorem setRed_hbm (s : State) (r : Red) : (setRed s r).hbm = s.hbm := rfl
@[simp] theorem setRed_host (s : State) (r : Red) : (setRed s r).host = s.host := rfl
@[simp] theorem setRed_pace (s : State) (r : Red) : (setRed s r).pace = s.pace := rfl
@[simp] theorem setRed_sec (s : State) (r : Red) : (setRed s r).sec = s.sec := rfl
@[simp] theorem setRed_cruise (s : State) (r : Red) : (setRed s r).cruise = s.cruise := rfl
@[simp] theorem setRed_dorm (s : State) (r : Red) : (setRed s r).dorm = s.dorm := rfl
@[simp] theorem setRed_errs (s : State) (r : Red) : (setRed s r).errs = s.errs := rfl
@[simp] theorem setRed_snagCfg (s : State) (r : Red) : (setRed s r).snagCfg = s.snagCfg := rfl
@[simp] theorem setRed_snags (s : State) (r : Red) : (setRed s r).snags = s.snags := rfl
@[simp] theorem setRed_quiets (s : State) (r : Red) : (setRed s r).quiets = s.quiets := rfl
@[simp] theorem setRed_check (s : State) (r : Red) : (setRed s r).check = s.check := rfl
@[simp] theorem setRed_live (s : State) (r : Red) : (setRed s r).live = s.live := rfl
@[simp] theorem setRed_pins (s : State) (r : Red) : (setRed s r).pins = s.pins := rfl
@[simp] theorem setRed_did (s : State) (r : Red) : (setRed s r).did = s.did := rfl
@[simp] theorem setRed_pgrove (s : State) (r : Red) : (setRed s r).pgrove = s.pgrove := rfl
@[simp] theorem setRed_sanDue (s : State) (r : Red) : (setRed s r).sanDue = s.sanDue := rfl
@[simp] theorem setRed_wrej (s : State) (r : Red) : (setRed s r).wrej = s.wrej := rfl
@[simp] theorem setRed_notice (s : State) (r : Red) : (setRed s r).notice = s.notice := rfl
@[simp] theorem setRed_freeCtr (s : State) (r : Red) : (setRed s r).freeCtr = s.freeCtr := rfl
@[simp] theorem setRed_pending (s : State) (r : Red) : (setRed s r).pending = s.pending := rfl

/-! ### What an accessor reads after its update -/

@[simp] theorem getFn_modFn (s : State) (n : Nat) (f : Fn → Fn) : getFn (modFn s n f) n = f (getFn s n) := by
  simp [getFn, modFn]

theorem getFn_modFn_other (s : State) (n m : Nat) (f : Fn → Fn) (h : m ≠ n) : getFn (modFn s n f) m = getFn s m := by
  simp [getFn, modFn, h]

@[simp] theorem getStack_modStack (s : State) (t : BitVec 2) (f : Stack → Stack) : getStack (modStack s t f) t = f (getStack s t) := by
  simp [getStack, modStack]

theorem getStack_modStack_other (s : State) (t u : BitVec 2) (f : Stack → Stack) (h : u ≠ t) :
    getStack (modStack s t f) u = getStack s u := by
  simp [getStack, modStack, toNat_ne h]

@[simp] theorem getPort_modPort (s : State) (k : Nat) (f : Port → Port) : getPort (modPort s k f) k = f (getPort s k) := by
  simp [getPort, modPort]

theorem getPort_modPort_other (s : State) (k j : Nat) (f : Port → Port) (h : j ≠ k) : getPort (modPort s k f) j = getPort s j := by
  simp [getPort, modPort, h]

@[simp] theorem getComb_modComb (s : State) (i : Nat) (f : Comb → Comb) : getComb (modComb s i f) i = f (getComb s i) := by
  simp [getComb, modComb]

theorem getComb_modComb_other (s : State) (i j : Nat) (f : Comb → Comb) (h : j ≠ i) : getComb (modComb s i f) j = getComb s j := by
  simp [getComb, modComb, h]

@[simp] theorem wrejWord_reject_other (s : State) (a b c d e : Nat) (h : e ≠ a) : wrejWord (reject s a b c d) e = wrejWord s e := by
  simp [wrejWord, reject, h]

end Sys2Proof.Machine
end

