-- ==== Sys2Proof/Laws/Memory.lean ====
section
/-! SUPPORT. Every operation on a memory keeps its canonical form: slices, external memory, host memory. -/

namespace Sys2Proof.Machine

theorem slWriteGo_wf (n : Nat) (sl : Slice) (a : Nat) (bs : List Byte) (e : Option Nat) (h : sl.mem.wf) :
    (slWriteGo n sl a bs e).1.mem.wf := by
  induction n generalizing sl a bs e with
  | zero => exact h
  | succ n ih =>
    cases bs with
    | nil => exact h
    | cons b r =>
      simp only [slWriteGo]
      split
      · exact ih _ _ _ _ h
      · exact ih _ _ _ _ (wrBytes_wf _ _ _ h)

/-- A write to a slice keeps its memory canonical. -/
theorem slWrite_wf (sl : Slice) (a : Nat) (bs : List Byte) (h : sl.mem.wf) : (slWrite sl a bs).1.mem.wf := slWriteGo_wf _ _ _ _ _ h

theorem slPut_wf (sl : Slice) (a : Nat) (bs : List Byte) (h : sl.mem.wf) : (slPut sl a bs).mem.wf := slWrite_wf sl a bs h

theorem slPutWords_wf (sl : Slice) (a : Nat) (ws : List Word) (h : sl.mem.wf) : (slPutWords sl a ws).mem.wf := slPut_wf _ _ _ h

theorem slMark_wf (sl : Slice) (c : Nat) (h : sl.mem.wf) : (slMark sl c).mem.wf := h

theorem slCopyGo_wf (n : Nat) (sl : Slice) (a : Nat) (bs : List (Byte × Bool)) (e : Option Nat) (h : sl.mem.wf) :
    (slCopyGo n sl a bs e).1.mem.wf := by
  induction n generalizing sl a bs e with
  | zero => exact h
  | succ n ih =>
    cases bs with
    | nil => exact h
    | cons b r =>
      simp only [slCopyGo]
      apply ih
      split
      · split
        · exact h
        · exact h
      · split
        · exact h
        · exact wrBytes_wf _ _ _ h

/-- A packet of copied data written to a slice keeps its memory canonical. -/
theorem slCopy_wf (sl : Slice) (a : Nat) (bs : List Byte) (bad : NatSet) (h : sl.mem.wf) : (slCopy sl a bs bad).1.mem.wf :=
  slCopyGo_wf _ _ _ _ _ h

theorem granWrite_wf (k : Stack) (t : BitVec 2) (off : Nat) (p : List (Byte × Bool)) (h : k.mem.wf) :
    (granWrite k t off p).1.mem.wf := by
  unfold granWrite
  simp only []
  split
  · exact h
  split
  · split <;> exact h
  split
  · exact h
  · exact wrBytes_wf _ _ _ h

/-- Every stack's memory is canonical. -/
def HbmWf (s : State) : Prop := ∀ t, (getStack s t).mem.wf

theorem hbmStoreGo_wf (f : Nat) (s : State) (n off : Nat) (bs : List (Byte × Bool)) (e : Option Nat) (h : HbmWf s) :
    HbmWf (hbmStoreGo f s n off bs e).1 := by
  induction f generalizing s off bs e with
  | zero => exact h
  | succ f ih =>
    cases bs with
    | nil => exact h
    | cons b r =>
      simp only [hbmStoreGo]
      apply ih
      intro t
      by_cases ht : t = (hbmPlace s n off).1
      · subst ht
        rw [getStack_modStack]
        exact granWrite_wf _ _ _ _ (h _)
      · rw [getStack_modStack_other _ _ _ _ ht]
        exact h t

/-- A write to a partition range keeps every stack's memory canonical. -/
theorem hbmStore_wf (s : State) (n off : Nat) (bs : List Byte) (bad : NatSet) (h : HbmWf s) : HbmWf (hbmStore s n off bs bad).1 :=
  hbmStoreGo_wf _ _ _ _ _ _ h

/-- A write to host memory keeps it canonical. -/
theorem hostWrite_wf (s : State) (a : Nat) (bs : List Byte) (bad : NatSet) (h : s.host.mem.wf) : (hostWrite s a bs bad).host.mem.wf := by
  unfold hostWrite
  simp only []
  generalize bs.zipIdx = ps
  have key : ∀ m : Memory × NatSet, m.1.wf → Memory.wf (ps.foldl (fun (h : Memory × NatSet) p =>
      if sHas bad p.2 then (h.1, sIns h.2 (a + p.2)) else (wrByte h.1 (a + p.2) p.1, sDel h.2 (a + p.2))) m).1 := by
    induction ps with
    | nil => exact fun m hm => hm
    | cons p r ih =>
      intro m hm
      rw [List.foldl_cons]
      apply ih
      split
      · exact hm
      · exact wrByte_wf _ _ _ hm
  exact key (s.host.mem, s.host.hbad) h

/-- After reset every memory is canonical. -/
theorem reset_wf : (∀ l, (getCore State.reset l).sp.mem.wf) ∧ HbmWf State.reset ∧ State.reset.host.mem.wf ∧ State.reset.host.aper.wf := by
  refine ⟨fun l => ?_, fun t => ?_, ?_, ?_⟩ <;> exact ⟨List.Pairwise.nil, fun _ h => by cases h⟩

end Sys2Proof.Machine
end

