-- ==== Sys2Proof/Laws/Operations.lean ====
section
/-! SUPPORT. What each shared operation can do, once: a guarded register write, a fault-manager command, a host command. -/

namespace Sys2Proof.Machine

theorem hostAccess_lookout (s : State) : hostAccess s 31 = s := rfl

theorem hostAccess_awake (s : State) (w : Nat) (h : s.dorm.st = .active) : hostAccess s w = s := by
  unfold hostAccess fireWake
  split
  · rfl
  · simp [h]

/-- R558: everything that a guarded write can do. -/
theorem guardWrite_cases (s : State) (w blk off : Nat) (a : Bool) (g : Option Nat) (r c : Bool) (f : State → State) :
    (byLookout w = false ∧ fnServes s w = false ∧ guardWrite s w blk off a g r c f = s) ∨
    ((byLookout w = true ∨ fnServes s w = true) ∧
      ((a = false ∧ guardWrite s w blk off a g r c f = reject (hostAccess s w) (writerBlk w) 3 w off) ∨
       (a = true ∧ ∃ b, g = some b ∧ guardWrite s w blk off a g r c f = reject (hostAccess s w) b 5 w off) ∨
       (a = true ∧ g = none ∧ r = true ∧ guardWrite s w blk off a g r c f = reject (hostAccess s w) blk 1 w off) ∨
       (a = true ∧ g = none ∧ r = false ∧ c = false ∧ guardWrite s w blk off a g r c f = reject (hostAccess s w) blk 2 w off) ∨
       (a = true ∧ g = none ∧ r = false ∧ c = true ∧ guardWrite s w blk off a g r c f = f (hostAccess s w)))) := by
  unfold guardWrite
  cases hb : byLookout w <;> cases hl : fnServes s w <;> cases a <;> cases g <;> cases r <;> cases c <;> simp

/-- The Lookout's write that nothing stops is its effect. -/
theorem guardWrite_lookout (s : State) (blk off : Nat) (f : State → State) : guardWrite s 31 blk off true none false true f = f s := rfl

/-- R466 to R470: an accepted command runs with its entry open. -/
theorem withToken_accepted (s : State) (m : Mgmt) (opc : Nat) (bad : Bool) (body : State → State) (h : accepted s m opc bad) :
    withToken s m opc bad body = body (opened s m opc) := by
  obtain ⟨h1, h0, h2, h3, h4, h5, h6⟩ := h
  have hn : tokenOf { s with errs := { s.errs with tokens := freshTokens s } } m.step = none := by
    unfold tokenOf
    have : ∀ l : List Token, (∀ t ∈ l, t.step ≠ m.step) → firstThat (fun (t : Token) => t.step == m.step) l = none := by
      intro l hl
      induction l with
      | nil => rfl
      | cons t r ih =>
        have := hl t (by simp)
        simp only [firstThat, beq_iff_eq, this, if_false]
        exact ih fun t ht => hl t (by simp [ht])
    exact this _ fun t ht => h6 t (List.mem_filter.1 ht).1
  unfold withToken opened
  simp [h1, h0, h2, h4, h5, hn]
  exact fun hz => absurd hz h3

/-- A command whose argument or header holds a reserved value, or that has no token, is answered RSVD. -/
theorem withToken_rsvd (s : State) (m : Mgmt) (opc : Nat) (bad : Bool) (body : State → State) (h : lookoutUp s = true)
    (ho : mgmtOpc m = opc) (hr : mgmtRsvd m = true ∨ m.step = 0 ∨ bad = true) : withToken s m opc bad body = answer s m sRSVD 0 [] := by
  unfold withToken
  rcases hr with hr | hr | hr <;> simp [h, ho, hr]

/-- A command outside a secured session is answered PERM. -/
theorem withToken_perm (s : State) (m : Mgmt) (opc : Nat) (body : State → State) (h : lookoutUp s = true) (ho : mgmtOpc m = opc)
    (h1 : mgmtRsvd m = false) (h2 : m.step ≠ 0) (h3 : hasSession s m.sess = false) : withToken s m opc false body = answer s m sPERM 0 [] := by
  unfold withToken
  simp [h, ho, h1, h3]
  exact fun hz => absurd hz h2

/-- R469: a command that needs no token is answered at once. -/
theorem withoutToken_answers (s : State) (m : Mgmt) (opc : Nat) (words : State → Status × List Word) (h : lookoutUp s = true)
    (ho : mgmtOpc m = opc) (h1 : mgmtRsvd m = false) (h2 : m.step = 0) :
    withoutToken s m opc false words = answer s m (words s).1 0 (words s).2 := by
  simp [withoutToken, h, ho, h1, h2]

/-- A host command that may run is its body, with its outcome recorded. -/
theorem runCmdNow_running (s : State) (r : CmdRef) (opc : Nat) (body : HostCmd → State → State × Status × Word) (c : HostCmd)
    (h : running s r opc = some c) :
    runCmdNow s r opc body = endCmd (body c s).1 r c (body c s).2.1 (body c s).2.2 := by
  unfold runCmdNow
  rw [h]

/-- A command's outcome changes nothing but its function's commands. -/
theorem endCmd_ended (s : State) (r : CmdRef) (c : HostCmd) (st : Status) (res : Word) : ended s (endCmd s r c st res) r c st res := by
  simp [ended, endCmd, modCmd]

@[simp] theorem endCmd_cores (s : State) (r : CmdRef) (c : HostCmd) (st : Status) (res : Word) : (endCmd s r c st res).cores = s.cores := rfl

@[simp] theorem endCmd_hbm (s : State) (r : CmdRef) (c : HostCmd) (st : Status) (res : Word) : (endCmd s r c st res).hbm = s.hbm := rfl

/-- R156: what FN writes outside its exact cases lies within the bound of Table 05.5, or is the value nearest to f(x). -/
theorem fnFree_cases (ver f : Nat) (s x : Int) :
    let v := fnValue f s x
    (∃ c t, fnFree ver f s x = fin' c t ∧ within c t v.1 v.2 (fnBound f v.1 v.2) = true ∧ c.natAbs < 2 ^ 24) ∨
      fnFree ver f s x = round24 v.1 v.2 := by
  simp only [fnFree]
  split
  · refine .inl ⟨_, _, rfl, by assumption, ?_⟩
    rw [Int.natAbs_tmod]
    exact Nat.mod_lt _ (by decide)
  · exact .inr rfl

/-- What the logic does only with power. -/
theorem awake_asleep (f : State → State) (s : State) (h : asleep s = true) : awake f s = s := by simp [awake, h]

theorem awake_awake (f : State → State) (s : State) (h : asleep s = false) : awake f s = f s := by simp [awake, h]

end Sys2Proof.Machine
end

