-- ==== Sys2Proof/Tests/Slice0.lean ====
section
/-! SUPPORT. Terms that are not well formed, single steps whose results the spec gives, and for every obligation a state and operands
that meet its hypotheses. -/

open Sys2Proof Sys2Proof.Machine

namespace Sys2Proof.Tests

set_option maxRecDepth 10000
set_option Elab.async false

/-! ### States to test on -/

/-- A grove whose position 0 is site 0, position 1 site 1 and position 2 site 2. -/
def aGrove : Grove := { Grove.zero with siteOf := [(0, 1), (1, 2), (2, 3)] }

/-- The state with core 0 as `k`, in grove 0. -/
def withCore (k : Core) : State := { State.reset with groves := [(0, aGrove)], cores := [(0, k)] }

/-- Core 0 as `k`, with its context 0 READY and otherwise as `x`. -/
def run (k : Core) (x : Ctx) : State := withCore { k with ctxs := [(0, { x with st := .ready })] }

/-- A context with `v` in g1. -/
def g1 (v : Word) : Ctx := { Ctx.zero with g := [(1, v)] }

/-- A context with values in g1, g2 and g3. -/
def g3 (u v w : Word) : Ctx := { Ctx.zero with g := [(1, u), (2, v), (3, w)] }

/-- A core with bytes in its slice and poisoned chunks. -/
def mem (m : Memory) (bad : List Nat) : Core := { Core.zero with sp := { Slice.zero with mem := m, bad := bad } }

/-- A core with engines. -/
def engs (e : Engines) : Core := { Core.zero with eng := e }

/-- An instruction word's low bits from its fields, each as value and low bit. -/
def enc (fs : List (Nat × Nat)) : BitVec 54 := BitVec.ofNat 54 (fs.map fun f => f.1 * 2 ^ f.2).sum

/-- Context 0 of core 0 issues a word whose fields are those of `fs`. -/
abbrev may (s : State) (b : BitVec 54) (fs : List (Nat × Nat)) : Prop := issues s 0 0 b (onlyFields b fs) anyRoom

/-- The next state of a command satisfies a decidable test. -/
def ends (o : Out) (p : State → Bool) : Bool := match o with | .next t => p t | _ => false

/-! ### Terms that are not well formed -/

theorem ill_writer : Instr.wf (.coreRoleWrite 0 ⟨17, .full, 0⟩) = false := by decide +kernel
theorem ill_register_writer : Instr.wf (.registerWrite 30 0 8 0) = false := by decide +kernel
theorem ill_context_code : Instr.wf (.ctxHold 0 ⟨31, .full, 2⟩) = false := by decide +kernel
theorem ill_context_half : Instr.wf (.ctxStart 0 ⟨31, .high, 4⟩) = false := by decide +kernel
theorem ill_column : Instr.wf (.millOpFault 0 (.residue 0 33 false)) = false := by decide +kernel
theorem ill_lane : Instr.wf (.veOpFault 0 (.lane 66 0 false)) = false := by decide +kernel
theorem ill_lane_map : Instr.wf (.laneMap 0 0 18 0) = false := by decide +kernel
theorem ill_readings : Instr.wf (.governorInterval ⟨[], [], 0, [], [], 0, [], []⟩) = false := by decide +kernel
theorem ill_code_word : Instr.wf (.dataFlit 0 ⟨0, 0, false, 0, 0, 0, 0, 0, List.replicate 244 0, 0, [⟨18, 1, true⟩], []⟩) = false := by decide +kernel
theorem ill_flit : Instr.wf (.dataFlit 0 ⟨0, 0, false, 0, 0, 0, 0, 0, [], 0, [], []⟩) = false := by decide +kernel
theorem ill_command : Instr.wf (.commandFetch 0 0 [0]) = false := by decide +kernel
theorem ill_load : Instr.wf (.hostLoad ⟨0, 0, 0⟩ ⟨[], [], [], [], false⟩) = false := by decide +kernel
theorem ill_snag : Instr.wf (.snagRecord [(0, 0)]) = false := by decide +kernel
theorem ill_bad_byte : Instr.wf (.dataFlit 0 ⟨0, 0, false, 0, 0, 0, 0, 0, List.replicate 244 0, 0, [], [244]⟩) = false := by decide +kernel
theorem ill_vector : Instr.wf (.msixUnmask 1 160) = false := by decide +kernel
theorem ill_nonce : Instr.wf (.getMeasurements 0 true [] none) = false := by decide +kernel
theorem ill_token : Instr.wf (.deploy (.mctp [])) = false := by decide +kernel
theorem ill_dormant : Instr.wf (.dormant (.reg ⟨20, .full, 0⟩)) = false := by decide +kernel
theorem ill_cruise : Instr.wf (.pwrOkRise ⟨[], 0, true, [], [], [], [], [], [], [], 0, []⟩) = false := by decide +kernel
theorem well_core_commands : Instr.wf (.ctxHold 4095 ⟨31, .low, 1⟩) && Instr.wf (.millOpFault 0 (.residue 0 32 true)) &&
    Instr.wf (.veOpFault 0 (.lane 65 0 true)) && Instr.wf (.laneMap 0 0 17 0) = true := by decide +kernel
theorem well_host_commands : Instr.wf (.commandFetch 0 0 (List.replicate 8 0)) && Instr.wf (.msixUnmask 16 159) &&
    Instr.wf (.registerWrite 16 0 8 0) && Instr.wf (.snagRecord [(0, 0), (0, 1)]) = true := by decide +kernel

/-! ### Steps -/

/-- A command at the front of the queue is run, with the rest of the queue. -/
theorem test_step_takes_front : ends (step { State.reset with pending := [.perstNRise, .timeTick] })
    (fun t => t.pins.perstN && t.pending == [.timeTick]) = true := by decide +kernel
/-- With no command waiting the block idles. -/
theorem test_step_idles : step State.reset = .next State.reset := rfl
theorem witness_StepRunsFrontCommand : State.reset.pending = [] ∧
    { State.reset with pending := [.perstNRise, .timeTick] }.pending = Instr.perstNRise :: [.timeTick] := by decide +kernel
theorem witness_StepKeepsInvariant : step State.reset = .next State.reset ∧ ∀ c ∈ State.reset.pending, c.wf = true := by
  constructor
  · rfl
  · decide +kernel
theorem witness_regsOk : 5 ≤ State.reset.snagCfg.toNat ∧ State.reset.snagCfg.toNat ≤ 10000 ∧ fld State.reset.did 15 48 = 0 ∧
    fld (tget 0x10 State.reset.pgrove 0) 5 58 = 0 := by decide +kernel

/-! ### Scalar instructions -/

/-- GD in [49:46], GA in [45:42], GB in [41:38] (Table 07.3): the word 7 + 5 into g1. -/
theorem test_add : ends (exec (.add 0 0 (enc [(1, 46), (1, 42), (2, 38)])) (run Core.zero (g3 7 5 0))) (fun t => readG (ctxOf t 0 0) 1 == 12) = true := by
  decide +kernel
theorem test_sub_wraps : ends (exec (.sub 0 0 0x488000000000) (run Core.zero (g3 0 1 0)))
    (fun t => readG (ctxOf t 0 0) 1 == 0) = true := by decide +kernel
/-- The high half of (-1) times (-1) is 0, and of the unsigned product 2^64 - 2. -/
theorem test_mulhs : ends (exec (.mulhs 0 0 (enc [(1, 46), (1, 42), (1, 38)])) (run Core.zero (g1 0xFFFFFFFFFFFFFFFF)))
    (fun t => readG (ctxOf t 0 0) 1 == 0) = true := by decide +kernel
theorem test_mulhu : ends (exec (.mulhu 0 0 (enc [(1, 46), (1, 42), (1, 38)])) (run Core.zero (g1 0xFFFFFFFFFFFFFFFF)))
    (fun t => readG (ctxOf t 0 0) 1 == 0xFFFFFFFFFFFFFFFE) = true := by decide +kernel
/-- A shift takes GB[5:0]. -/
theorem test_shl_low_bits : ends (exec (.shl 0 0 (enc [(1, 46), (1, 42), (2, 38)])) (run Core.zero (g3 1 65 0)))
    (fun t => readG (ctxOf t 0 0) 1 == 2) = true := by decide +kernel
theorem test_shra : ends (exec (.shra 0 0 (enc [(1, 46), (1, 42), (2, 38)])) (run Core.zero (g3 0x8000000000000000 63 0)))
    (fun t => readG (ctxOf t 0 0) 1 == 0xFFFFFFFFFFFFFFFF) = true := by decide +kernel
theorem test_mins : ends (exec (.mins 0 0 (enc [(1, 46), (1, 42), (2, 38)])) (run Core.zero (g3 0xFFFFFFFFFFFFFFFF 1 0)))
    (fun t => readG (ctxOf t 0 0) 1 == 0xFFFFFFFFFFFFFFFF) = true := by decide +kernel
theorem test_addi_signed : ends (exec (.addi 0 0 (enc [(1, 46), (1, 42), (0xFFFFFFFF, 0)])) (run Core.zero (g1 7)))
    (fun t => readG (ctxOf t 0 0) 1 == 6) = true := by decide +kernel
theorem test_lih : ends (exec (.lih 0 0 (enc [(1, 46), (2, 0)])) (run Core.zero (g1 7)))
    (fun t => readG (ctxOf t 0 0) 1 == 0x200000007) = true := by decide +kernel
/-- A write of g0 is discarded. -/
theorem test_g0 : ends (exec (.li 0 0 5) (run Core.zero (g1 7))) (fun t => readG (ctxOf t 0 0) 0 == 0) = true := by decide +kernel
theorem witness_ScalarForms : may (run Core.zero (g3 7 65 0)) (enc [(1, 46), (1, 42), (2, 38)]) [(46, 4), (42, 4), (38, 4)] ∧
    may (run Core.zero (g1 7)) (enc [(1, 46), (1, 42), (0xFFFFFFFF, 0)]) [(46, 4), (42, 4), (0, 32)] ∧
    may (run Core.zero (g1 7)) (enc [(1, 46), (1, 42), (63, 0)]) [(46, 4), (42, 4), (0, 6)] ∧
    may (run Core.zero (g1 7)) (enc [(1, 46), (0x80000000, 0)]) [(46, 4), (0, 32)] := by
  unfold may issues; decide +kernel

theorem test_clt_signed : ends (exec (.clt 0 0 (enc [(1, 47), (1, 42), (2, 38)])) (run Core.zero (g3 0xFFFFFFFFFFFFFFFF 1 0)))
    (fun t => readP (ctxOf t 0 0) 1) = true := by decide +kernel
theorem test_cltu_unsigned : ends (exec (.cltu 0 0 (enc [(1, 47), (1, 42), (2, 38)])) (run Core.zero (g3 0xFFFFFFFFFFFFFFFF 1 0)))
    (fun t => !readP (ctxOf t 0 0) 1) = true := by decide +kernel
/-- PA is p0, which reads 1; PB is p0 inverted. -/
theorem test_pand_inverts : ends (exec (.pand 0 0 (enc [(1, 47), (1, 39)])) (run Core.zero Ctx.zero))
    (fun t => !readP (ctxOf t 0 0) 1) = true := by decide +kernel
theorem witness_ComparesAndPredicates :
    may (run Core.zero (g3 7 5 0)) (enc [(1, 47), (1, 42), (2, 38)]) [(47, 3), (42, 4), (38, 4)] ∧
    may (run Core.zero (g1 7)) (enc [(1, 47), (1, 42), (7, 0)]) [(47, 3), (42, 4), (0, 32)] ∧
    may (run Core.zero Ctx.zero) (enc [(1, 47), (1, 39)]) [(47, 3), (44, 3), (43, 1), (40, 3), (39, 1)] := by
  unfold may issues; decide +kernel

theorem test_br_back : ends (exec (.br 0 0 (enc [(0x7FFFF, 0)])) (run Core.zero { Ctx.zero with pc := 64 }))
    (fun t => (ctxOf t 0 0).pc == 56) = true := by decide +kernel
theorem test_bl_links : ends (exec (.bl 0 0 (enc [(1, 46), (2, 0)])) (run Core.zero { Ctx.zero with pc := 64 }))
    (fun t => (ctxOf t 0 0).pc == 80 && readG (ctxOf t 0 0) 1 == 72) = true := by decide +kernel
theorem test_bri_bounds : ends (exec (.bri 0 0 (enc [(1, 42)])) (run Core.zero (g1 0x200000)))
    (fun t => (ctxOf t 0 0).st == .faulted && (ctxOf t 0 0).fr0 == 0x1300000000000000) = true := by decide +kernel
theorem witness_Branches :
    may (run Core.zero Ctx.zero) (enc [(0x7FFFF, 0)]) [(0, 19)] ∧
    may (run Core.zero Ctx.zero) (enc [(1, 46), (2, 0)]) [(46, 4), (0, 19)] ∧
    may (run Core.zero (g1 0x200000)) (enc [(1, 42)]) [(42, 4)] ∧ may (run Core.zero (g1 0x1FFFFF)) (enc [(1, 42)]) [(42, 4)] ∧
    may (run Core.zero (g1 0x1FFFF8)) (enc [(1, 42)]) [(42, 4)] ∧
    may (run Core.zero (g1 0x200000)) (enc [(2, 46), (1, 42)]) [(46, 4), (42, 4)] ∧
    may (run Core.zero (g1 0x1FFFFF)) (enc [(2, 46), (1, 42)]) [(46, 4), (42, 4)] ∧
    may (run Core.zero (g1 0x1FFFF8)) (enc [(2, 46), (1, 42)]) [(46, 4), (42, 4)] ∧
    2 ^ 21 ≤ (0x200000#64).toNat ∧ ((0x1FFFFF#64).toNat < 2 ^ 21 ∧ (0x1FFFFF#64).toNat % 8 ≠ 0) ∧
    (0x1FFFF8#64).toNat < 2 ^ 21 ∧ (0x1FFFF8#64).toNat % 8 = 0 := by
  unfold may issues; decide +kernel

theorem test_ldws : ends (exec (.ldws 0 0 (enc [(1, 46), (2, 42), (4, 0)])) (run (mem [(7, 0x80)] []) Ctx.zero))
    (fun t => readG (ctxOf t 0 0) 1 == 0xFFFFFFFF80000000) = true := by decide +kernel
theorem test_sth_little_endian : ends (exec (.sth 0 0 (enc [(1, 46), (2, 42), (2, 0)])) (run Core.zero (g1 0x1234)))
    (fun t => (getCore t 0).sp.mem == [(2, 0x34), (3, 0x12)]) = true := by decide +kernel
theorem test_ldd_align : ends (exec (.ldd 0 0 (enc [(1, 46), (2, 42), (4, 0)])) (run Core.zero Ctx.zero))
    (fun t => (ctxOf t 0 0).st == .faulted && (ctxOf t 0 0).fr1 == 4) = true := by decide +kernel
/-- The address in g2: the last word, one past it, an odd one, and one in a poisoned chunk. -/
theorem witness_NarrowOwn :
    may (run (mem [] [8]) (g3 0 0x1FFFF8 0)) (enc [(1, 46), (2, 42)]) [(46, 4), (42, 4), (0, 32)] ∧
    may (run (mem [] [8]) (g3 0 0x200000 0)) (enc [(1, 46), (2, 42)]) [(46, 4), (42, 4), (0, 32)] ∧
    may (run (mem [] [8]) (g3 0 0x1FFFF9 0)) (enc [(1, 46), (2, 42)]) [(46, 4), (42, 4), (0, 32)] ∧
    may (run (mem [] [8]) (g3 0 0x100 0)) (enc [(1, 46), (2, 42)]) [(46, 4), (42, 4), (0, 32)] ∧
    (0x1FFFF8 + 8 ≤ 2 ^ 21 ∧ 0x1FFFF8 % 8 = 0 ∧ poisonAt (mem [] [8]).sp 0x1FFFF8 8 = none) ∧
    (0x200000 < 2 ^ 62 ∧ 2 ^ 21 < 0x200000 + 1) ∧ (0x1FFFF9 + 2 ≤ 2 ^ 21 ∧ 0x1FFFF9 % 2 ≠ 0) ∧
    (0x100 + 8 ≤ 2 ^ 21 ∧ 0x100 % 8 = 0 ∧ (poisonAt (mem [] [8]).sp 0x100 8).isSome) := by
  unfold may issues; decide +kernel

/-- Addresses of core 1, of this core, of HBM, and of device 9, which no route reaches; core 1 of another partition. -/
theorem witness_NarrowElsewhere :
    (let s := run Core.zero (g3 0 0x4000000000200000 0)
     let t : State := { s with gf := { Gf.zero with ports := [(0, { Port.zero with st := 3 })], rt := [((9 : Nat), 0x80000000)] }, pgrove := [(1, 0x1)], did := 0x8000000000000007, cruise := { Cruise.zero with ready := true, matched := 0xFFFF } }
     may s (enc [(2, 46), (1, 42)]) [(46, 4), (42, 4), (0, 32)] ∧
     narrowFault s 0 0x4000000000200000 8 = none ∧ (addrOf 0x4000000000200000).map (place s 0 (corePart s 0)) = some (.slice 1 0) ∧
     (addrOf 0x4000000000000008).map (place s 0 (corePart s 0)) = some (.slice 0 8) ∧ narrowFault s 0 0x4000000000000008 8 = none ∧
     narrowFault s 0 0x8000000000000000 8 = some sBOUNDS ∧ narrowFault s 0 0x4000000000200001 8 = some sALIGN ∧
     narrowFault t 0 0x4000000002000000 8 = some sPERM ∧
     (addrOf 0xC004800000000000).map (place s 0 (corePart s 0)) = some (.remote 9 (some 0) 0) ∧ narrowFault s 0 0xC004800000000000 8 = none ∧
     hasRoute s 9 = false ∧ hasRoute t 9 = true) := by
  unfold may issues; and_intros <;> decide +kernel

theorem test_ffence : ends (exec (.ffence 0 0 0) (run Core.zero Ctx.zero))
    (fun t => (ctxOf t 0 0).slot == none && (ctxOf t 0 0).pc == 8) = true := by decide +kernel
theorem test_undefined : ends (exec (.undefinedOpcode 0 0 0xFFC0000000000000) (run Core.zero Ctx.zero))
    (fun t => (ctxOf t 0 0).fr0 == 0x1000000000000000 && (ctxOf t 0 0).fr1 == 0xFFC0000000000000) = true := by decide +kernel
theorem witness_IssueChecksAndFaultEntry :
    issues (run Core.zero Ctx.zero) 0 0 0 (onlyFields (enc []) []) anyRoom ∧ opcodeDefined ((0xFFC0000000000000#64).toNat / 2 ^ 54) = false ∧
    mayIssue (run Core.zero Ctx.zero) 0 0 = true ∧ fetchPoisoned (run Core.zero Ctx.zero) 0 0 = false ∧
    onlyFields (enc [(1, 0)]) [(46, 4), (42, 4), (38, 4)] = false ∧
    (onlyFields (enc [(1, 51), (1, 46)]) [(46, 4), (42, 4), (38, 4)] = true ∧ guardHolds (ctxOf (run Core.zero Ctx.zero) 0 0) (enc [(1, 51), (1, 46)]) = false) ∧
    ((ctxOf (run Core.zero Ctx.zero) 0 0).st = .ready ∧ (ctxOf (run Core.zero Ctx.zero) 0 0).wait = .none ∧ hardware sBOUNDS = false ∧
      bit (getCore (run Core.zero Ctx.zero) 0).ctrl 28 = false) := by
  unfold issues; decide +kernel

/-! ### The Mill -/

/-- Engines in which context 0 holds descriptors 0 and 1 and accumulator 0, and context 1 descriptor 7 and accumulator 7. -/
def claimed : Engines := { Engines.zero with tdOwner := [(0, some 0), (1, some 0), (7, some 1)], accOwner := [(0, some 0), (7, some 1)] }

/-- An operation of context 0 on accumulator 0. -/
def anMma : MillOp := ⟨0, 0x40, 0, 0, [0, 1], some (TileDesc.zero, TileDesc.zero, 1)⟩

theorem test_mclaim_all_or_none : ends (exec (.mclaim 0 0 (enc [(1, 47), (0x81, 0)])) (run (engs claimed) Ctx.zero))
    (fun t => !readP (ctxOf t 0 0) 1 && (getCore t 0).eng.accOwner == claimed.accOwner) = true := by decide +kernel
theorem test_mclaim : ends (exec (.mclaim 0 0 (enc [(1, 47), (6, 0)])) (run (engs claimed) Ctx.zero))
    (fun t => readP (ctxOf t 0 0) 1 && tget none (getCore t 0).eng.accOwner 2 == some 0) = true := by decide +kernel
theorem test_mrel_of_another : ends (exec (.mrel 0 0 (enc [(0x80, 0)])) (run (engs claimed) Ctx.zero))
    (fun t => (ctxOf t 0 0).fr0 == 0x1408000000000000) = true := by decide +kernel
theorem witness_MillClaimsAndRelease :
    may (run (engs claimed) Ctx.zero) (enc [(0x83, 8), (0x81, 0)]) [(8, 8), (0, 8)] ∧
    may (run (engs claimed) Ctx.zero) (enc [(0x03, 8), (0x01, 0)]) [(8, 8), (0, 8)] ∧
    may (run (engs claimed) { Ctx.zero with hasRec := true }) (enc [(0x03, 8), (0x01, 0)]) [(8, 8), (0, 8)] ∧
    may (run (engs claimed) Ctx.zero) (enc [(1, 47), (0x81, 0)]) [(47, 3), (8, 8), (0, 8)] ∧
    (¬ ∀ i, i < 8 → (enc [(0x81, 0)]).getLsbD i = true → tget none claimed.accOwner i = none ∨ tget none claimed.accOwner i = some 0) ∧
    ((∀ i, i < 8 → (enc [(7, 0)]).getLsbD i = true → tget none claimed.accOwner i = none ∨ tget none claimed.accOwner i = some 0)) ∧
    (¬ ∀ i, i < 8 → (enc [(0x81, 0)]).getLsbD i = true → tget none claimed.accOwner i = some 0) ∧
    (∀ i, i < 8 → (enc [(0x03, 8), (0x01, 0)]).getLsbD i = true → tget none claimed.accOwner i = some 0) ∧ claimed.millq = [] := by
  unfold may issues; decide +kernel

/-- A descriptor image at 0x100: FP8 E4M3, SCALE 0x100, both strides 16. -/
def tdImage (bad : List Nat) : Core := { engs claimed with sp := { Slice.zero with mem := [(0x109, 1), (0x110, 16), (0x114, 16), (0x118, 1)], bad := bad } }

theorem test_tdld : ends (exec (.tdld 0 0 (enc [(1, 47), (1, 43)])) (run (tdImage []) (g1 0x100)))
    (fun t => tget TileDesc.zero (getCore t 0).eng.td 1 == ⟨0, 0x100, 16, 16, 1⟩) = true := by decide +kernel
theorem test_tdld_poison : ends (exec (.tdld 0 0 (enc [(1, 47), (1, 43)])) (run (tdImage [8]) (g1 0x100)))
    (fun t => (ctxOf t 0 0).fr0 == 0x4108000000000000 && (ctxOf t 0 0).fr1 == 0x100) = true := by decide +kernel
theorem witness_TileDescriptors :
    may (run (tdImage [8]) (g1 0)) (enc [(7, 47), (1, 43)]) [(47, 3), (43, 4)] ∧
    may (run (tdImage [8]) (g1 0x200000)) (enc [(1, 47), (1, 43)]) [(47, 3), (43, 4)] ∧
    may (run (tdImage [8]) (g1 0x108)) (enc [(1, 47), (1, 43)]) [(47, 3), (43, 4)] ∧
    may (run (tdImage [8]) (g1 0x100)) (enc [(1, 47), (1, 43)]) [(47, 3), (43, 4)] ∧
    may (run (tdImage [8]) (g1 0x140)) (enc [(1, 47), (1, 43)]) [(47, 3), (43, 4)] ∧
    tget none (tdImage [8]).eng.tdOwner 7 ≠ some 0 ∧ tget none (tdImage [8]).eng.tdOwner 1 = some 0 ∧
    (2 ^ 21 ≤ (0x200000#64).toNat) ∧ ((0x108#64).toNat < 2 ^ 21 ∧ (0x108#64).toNat % 32 ≠ 0) ∧
    ((0x100#64).toNat < 2 ^ 21 ∧ (0x100#64).toNat % 32 = 0 ∧ (poisonAt (tdImage [8]).sp 0x100 32).isSome ∧ poisonAt (tdImage [8]).sp 0x140 32 = none) ∧
    tdOf 0 0x100 0x1000000010 1 = .ok ⟨0, 0x100, 16, 16, 1⟩ ∧ tdOf 8 0 0 0 = .error sALIGN ∧ tdOf 0 0 0 2 = .error sRSVD := by
  unfold may issues; decide +kernel

theorem test_mzero : ends (exec (.mzero 0 0 (enc [(0, 47)])) (run (engs claimed) Ctx.zero))
    (fun t => (getCore t 0).eng.millq == [⟨0, 0, 0, 0, [], none⟩] && (ctxOf t 0 0).pc == 8) = true := by decide +kernel
theorem test_mma_advances : ends (exec (.mma 0 0 (enc [(0, 44), (1, 41), (1, 32)])) (run (engs { claimed with td := [(0, ⟨0, 0, 0, 16, 0⟩), (1, ⟨0, 0, 0, 16, 0⟩)] }) Ctx.zero))
    (fun t => (getCore t 0).eng.millq.length == 1 && (tget TileDesc.zero (getCore t 0).eng.td 0).data != 0 &&
      (tget TileDesc.zero (getCore t 0).eng.td 1).data == 0) = true := by decide +kernel
theorem test_mwait_waits : ends (exec (.mwait 0 0 0) (run (engs { claimed with millq := [anMma] }) Ctx.zero))
    (fun t => (ctxOf t 0 0).st == .waiting && (ctxOf t 0 0).wait == .mill && (ctxOf t 0 0).pc == 8) = true := by decide +kernel
theorem witness_EngineOperationsWait :
    issues (run (engs claimed) Ctx.zero) 0 0 (enc []) (onlyFields (enc []) [(47, 3)]) millRoom ∧
    issues (run (engs claimed) Ctx.zero) 0 0 (enc [(0, 44), (1, 41), (1, 32)])
      (onlyFields (enc [(0, 44), (1, 41), (1, 32)]) [(47, 3), (44, 3), (41, 3), (33, 8), (32, 1), (31, 1)]) millRoom ∧
    may (run (engs claimed) Ctx.zero) (enc []) [] ∧
    tget none claimed.accOwner 0 = some 0 ∧ tget none claimed.tdOwner 0 = some 0 ∧ tget none claimed.tdOwner 1 = some 0 ∧
    pairOk 0 0 = true ∧ pairOk 0 1 = false ∧ mmaBounds TileDesc.zero TileDesc.zero 1 = none ∧
    (mmaBounds { TileDesc.zero with data := 0x200000 } TileDesc.zero 1).isSome := by
  simp only [may, issues]; decide +kernel

/-- A core whose Mill queue has an MZERO of context 0 in front. -/
def milling (o : MillOp) : State := withCore { engs { claimed with millq := [o] } with ctxs := [(0, { Ctx.zero with st := .ready })] }

theorem test_mzero_completes : ends (exec (.millOpComplete 0) (milling ⟨0, 0, 0, 0, [], none⟩))
    (fun t => (getCore t 0).eng.millq == [] && (ctxOf t 0 0).ns0 == ns0Of rec0) = true := by decide +kernel
theorem witness_MillOperationEnds :
    asleep (milling anMma) = false ∧ (getCore (milling anMma) 0).eng.millq = [anMma] ∧ veBefore (getCore (milling anMma) 0).eng 0 0 = false ∧
    (ctxOf (milling anMma) 0 0).st = .ready ∧ (ctxOf (milling anMma) 0 0).wait = .none ∧ (ctxOf (milling anMma) 0 0).freeing = false ∧
    anMma.mma = some (TileDesc.zero, TileDesc.zero, 1) ∧
    (mmaRun Slice.zero TileDesc.zero TileDesc.zero 0 0 [] rec0).2.2 = none ∧ (0#8).toNat < 1 ∧ colWorks (siteOfCore (milling anMma) 0) 31 = true ∧
    (mmaRun { Slice.zero with bad := [0] } TileDesc.zero TileDesc.zero 1 0 [] rec0).2.2 = some 0 ∧ occupied (milling anMma) 0 = true := by
  decide +kernel
/-! ### The vector engine -/

/-- A context with a count of 32 in g1 and three stream addresses. -/
def veRegs : Ctx := { Ctx.zero with g := [(1, 32), (2, 0x1000), (3, 0x2000), (4, 0x3000)] }

/-- A VE instruction of context 0 meets the conditions under which it enters the queue. -/
abbrev veOk (b : BitVec 54) (op : Nat) (m : VeForm) (kind : VeKind) : Prop :=
  issues (run (engs claimed) veRegs) 0 0 b (veEnc b m) veRoom ∧
  ((accsOf [(veOpOf veRegs 0 b m kind).d, (veOpOf veRegs 0 b m kind).a, (veOpOf veRegs 0 b m kind).b, (veOpOf veRegs 0 b m kind).c]).all
    fun n => tget none claimed.accOwner n == some 0) = true ∧ veFaultAt b m op (veOpOf veRegs 0 b m kind) = none

theorem test_ve_add : ends (exec (.veAdd 0 0 (enc [(1, 46), (8, 24), (12, 16), (16, 8)])) (run (engs claimed) veRegs))
    (fun t => (getCore t 0).eng.veq.map (fun o => (o.n, o.d, o.a, o.b)) == [(32, .mem 0x1000 0, .mem 0x2000 0, .mem 0x3000 0)]) = true := by
  decide +kernel
/-- A count of 2^25 raises BOUNDS with the count in DETAIL. -/
theorem test_ve_bounds : ends (exec (.veAdd 0 0 (enc [(1, 46), (8, 24), (12, 16), (16, 8)])) (run Core.zero (g1 0x2000000)))
    (fun t => (ctxOf t 0 0).fr0 == 0x1310000000000000 && (ctxOf t 0 0).fr1 == 0x2000000) = true := by decide +kernel
theorem witness_VectorOperationsIssue :
    veOk (enc [(1, 46), (8, 24), (12, 16), (16, 8)]) 0x140 formBin (.arith .add 0) ∧
    veOk (enc [(1, 46), (8, 24), (12, 16), (16, 8), (8, 0)]) 0x143 formMad (.arith .mad 0) ∧
    veOk (enc [(1, 46), (8, 24), (12, 16)]) 0x144 formUn (.arith .neg 0) ∧
    veOk (enc [(1, 46), (8, 24), (12, 16), (0x90, 8)]) 0x148 formScl (.arith .scl (signed 32 (readG veRegs 4).toNat)) ∧
    veOk (enc [(1, 46), (8, 24), (12, 16), (16, 8)]) 0x150 formCmp (.cmp .eq) ∧
    veOk (enc [(1, 46), (8, 24), (12, 16), (16, 8), (16, 0)]) 0x158 formSel .sel ∧
    veOk (enc [(1, 46), (8, 40), (8, 36), (8, 32), (8, 24), (12, 16), (16, 8)]) 0x160 formLogic (.logic .and) ∧
    veOk (enc [(1, 46), (8, 40), (8, 36), (8, 24), (12, 16)]) 0x163 formNot (.logic .not) ∧
    veOk (enc [(1, 46), (8, 40), (8, 24), (12, 16)]) 0x180 formCvt .cvt ∧
    veOk (enc [(1, 46), (8, 40), (8, 36), (8, 24), (12, 16)]) 0x181 formShf (.shf 0 0) ∧
    veOk (enc [(1, 46), (8, 24), (12, 16)]) 0x182 formScan (scanKind false (enc [(1, 46), (8, 24), (12, 16)]) veRegs) ∧
    veOk (enc [(1, 46), (8, 24), (12, 16), (16, 8)]) 0x183 formSscan (scanKind true (enc [(1, 46), (8, 24), (12, 16), (16, 8)]) veRegs) ∧
    veOk (enc [(7, 36), (8, 24), (0x40, 16)]) 0x184 formRed (redKind (enc [(7, 36), (8, 24), (0x40, 16)])) ∧
    veOk (enc [(1, 46), (8, 24), (12, 16)]) 0x185 formFn (.fn 0 1) := by
  unfold veOk issues; and_intros <;> decide +kernel

/-- A negation of `n` BF16 elements from 0x2000 to 0x1000 by context 0. -/
def aNeg (n : Nat) : VeOp :=
  ⟨0, 0x40, 0, .arith .neg 0, n, .rne, .bf16, .bf16, .bf16, .mem 0x1000 0, .mem 0x2000 0, .none, .none, 0, 0⟩

/-- A sum of two rows of accumulator 0 by context 0. -/
def anAccNeg : VeOp := ⟨0, 0x40, 0, .arith .neg 0, 2, .rne, .w64, .w64, .w64, .acc 0 false, .acc 0 false, .none, .none, 0, 0⟩

/-- A core whose VE queue has an operation in front, and context 0 READY. -/
def vecing (o : VeOp) (bad : List Nat) : State :=
  withCore { engs { claimed with veq := [o] } with ctxs := [(0, { Ctx.zero with st := .ready })], sp := { Slice.zero with mem := [(0x2001, 0x40)], bad := bad } }

/-- The negation of 2.0 is -2.0. -/
theorem test_ve_neg_completes : ends (exec (.veOpComplete 0) (vecing (aNeg 1) []))
    (fun t => (getCore t 0).sp.mem == [(0x1001, 0xC0), (0x2001, 0x40)] && (getCore t 0).eng.veq == []) = true := by decide +kernel
theorem test_ve_poison : ends (exec (.veOpFault 0 .poison) (vecing (aNeg 128) [0x104]))
    (fun t => (ctxOf t 0 0).fr0 == 0x4190000000000040 && (ctxOf t 0 0).fr1 == 64) = true := by decide +kernel
theorem witness_VectorOperationEnds :
    asleep (vecing (aNeg 1) []) = false ∧ (getCore (vecing (aNeg 1) []) 0).eng.veq = [aNeg 1] ∧ millBefore (getCore (vecing (aNeg 1) []) 0).eng 0 0 = false ∧
    veHit (getCore (vecing (aNeg 1) []) 0).eng (getCore (vecing (aNeg 1) []) 0).sp (aNeg 1)
      (veImage (getCore (vecing (aNeg 1) []) 0).eng (getCore (vecing (aNeg 1) []) 0).sp (aNeg 1)).1 = none ∧
    (ctxOf (vecing (aNeg 1) []) 0 0).st = .ready ∧ (ctxOf (vecing (aNeg 1) []) 0 0).wait = .none ∧ (ctxOf (vecing (aNeg 1) []) 0 0).freeing = false ∧
    veHit (getCore (vecing (aNeg 32) [0x101]) 0).eng (getCore (vecing (aNeg 32) [0x101]) 0).sp (aNeg 32)
      (veImage (getCore (vecing (aNeg 32) [0x101]) 0).eng (getCore (vecing (aNeg 32) [0x101]) 0).sp (aNeg 32)).1 = some (.elem 16) ∧
    (0 < (aNeg 1).n ∧ laneWorks (siteOfCore (vecing (aNeg 1) []) 0) 0 = true) ∧ 0 < rowsRead anAccNeg 0 := by
  decide +kernel

/-! ### Queues -/

/-- A ring of four 8-byte entries at 0x400 with the entries `es` present, the next being `n`. -/
def aRing (es : List Nat) (n : Nat) : Queue := { Queue.zero with valid := true, lcap := 2, base := 0x400, ents := es, tail := n }

/-- A Boom of 64-byte contributions. -/
def aBoom : Queue := { Queue.zero with valid := true, kind := 2, esz := 2, lcap := 2, base := 0x400, boomW := 0x0200002000000000 }

/-- Core 0 with queue 3 as `q`. -/
def queued (q : Queue) : Core := { Core.zero with un := { Units.zero with queues := [(3, q)] } }

theorem test_qrd_pops : ends (exec (.qrd 0 0 (enc [(1, 46), (1, 35), (1, 34), (3, 0)])) (run { queued (aRing [0] 1) with sp := { Slice.zero with mem := [(0x400, 9)] } } Ctx.zero))
    (fun t => readG (ctxOf t 0 0) 1 == 9 && readP (ctxOf t 0 0) 1 && (getQ (getCore t 0) 3).ents == []) = true := by decide +kernel
theorem test_qrd_waits : ends (exec (.qrd 0 0 (enc [(1, 46), (1, 35), (3, 0)])) (run (queued (aRing [] 0)) Ctx.zero))
    (fun t => (ctxOf t 0 0).st == .waiting && (ctxOf t 0 0).pc == 0 && (getQ (getCore t 0) 3).waiters == [0]) = true := by decide +kernel
theorem test_qput_full : ends (exec (.qput 0 0 (enc [(1, 42), (1, 35), (3, 0)])) (run (queued (aRing [0, 1, 2, 3] 4)) (g1 0x800)))
    (fun t => !readP (ctxOf t 0 0) 1 && (getQ (getCore t 0) 3).ents == [0, 1, 2, 3]) = true := by decide +kernel
theorem test_qput : ends (exec (.qput 0 0 (enc [(1, 42), (1, 35), (3, 0)])) (run (queued (aRing [3] 4)) (g1 0x800)))
    (fun t => readP (ctxOf t 0 0) 1 && (getQ (getCore t 0) 3).ents == [3, 4]) = true := by decide +kernel
theorem witness_QueueReads :
    may (run (queued (aRing [0] 1)) Ctx.zero) (enc [(1, 46), (1, 35), (1, 34), (3, 0)]) [(46, 4), (38, 4), (35, 3), (34, 1), (31, 3), (0, 6)] ∧
    may (run (queued (aRing [] 0)) Ctx.zero) (enc [(1, 46), (1, 35), (3, 0)]) [(46, 4), (38, 4), (35, 3), (34, 1), (31, 3), (0, 6)] ∧
    boundSide (queued (aRing [0] 1)) true 3 = none ∧ boundSide (queued (aRing [0] 1)) false 3 = none ∧
    (getQ (queued (aRing [0] 1)) 4).valid = false ∧ (aRing [0] 1).valid = true ∧ 8 * 0 < entBytes (aRing [0] 1) ∧ entBytes (aRing [0] 1) ≤ 8 * 1 ∧
    poisonAt Slice.zero (entAddr (aRing [0] 1) 0) 8 = none ∧ poisonAt { Slice.zero with bad := [0x20] } (entAddr (aRing [0] 1) 0) 8 = some 0x400 := by
  unfold may issues; decide +kernel
theorem witness_QueueWrites :
    may (run (queued (aRing [0, 1, 2, 3] 4)) (g1 0x800)) (enc [(1, 42), (1, 35), (3, 0)]) [(42, 4), (35, 3), (0, 6)] ∧
    may (run (queued (aRing [3] 4)) (g1 0x800)) (enc [(1, 42), (1, 35), (3, 0)]) [(42, 4), (35, 3), (0, 6)] ∧
    may (run (queued aBoom) (g1 0x800)) (enc [(1, 42), (1, 35), (3, 0)]) [(42, 4), (35, 3), (0, 6)] ∧
    (aRing [0, 1, 2, 3] 4).kind ≠ 2 ∧ qFull (aRing [0, 1, 2, 3] 4) = true ∧ qFull (aRing [3] 4) = false ∧ (aRing [3] 4).waiters = [] ∧
    0x800 + entBytes (aRing [3] 4) ≤ 2 ^ 21 ∧ 0x800 % entBytes (aRing [3] 4) = 0 ∧ poisonAt Slice.zero 0x800 8 = none ∧
    aBoom.kind = 2 ∧ boomTakes aBoom 0 = true ∧ boomTakes aBoom 0x8000 = false := by
  unfold may issues; decide +kernel
/-- Context 1 waits for an entry of queue 3 that context 0 puts there. -/
theorem witness_QueueWakes :
    may (withCore { queued { aRing [] 0 with waiters := [1] } with ctxs := [(0, { g1 0x800 with st := .ready }), (1, { Ctx.zero with st := .waiting, wait := .queue 3 0 false })] })
      (enc [(1, 42), (1, 35), (3, 0)]) [(42, 4), (35, 3), (0, 6)] ∧ (1 : CtxNo) ≠ 0 := by
  unfold may issues; decide +kernel

theorem test_qtest : ends (exec (.qtest 0 0 (enc [(1, 35), (3, 0)])) (run (queued (aRing [0] 1)) Ctx.zero)) (fun t => readP (ctxOf t 0 0) 1) = true := by
  decide +kernel
theorem test_qcfg_busy : ends (exec (.qcfg 0 0 (enc [(1, 42), (3, 0)])) (run (queued (aRing [0] 1)) (g1 0x800)))
    (fun t => (ctxOf t 0 0).fr0 == 0x1418000000000000) = true := by decide +kernel
theorem witness_QueueTestsAndEvents :
    may (run (queued (aRing [0] 1)) Ctx.zero) (enc [(1, 35), (3, 0)]) [(35, 3), (0, 6)] ∧
    may (run (queued (aRing [0] 1)) (g1 0x800)) (enc [(1, 42), (3, 0)]) [(42, 4), (0, 6)] ∧
    (0x800 < 2 ^ 21 ∧ 0x800 % 32 = 0) ∧ queueOf 3 0 0 0 0 = some Queue.zero ∧ queueOf 3 2 0 0 0 = none ∧
    queueBusy (aRing [0] 1) = true ∧ queueBusy Queue.zero = false := by
  unfold may issues; decide +kernel
theorem witness_QueueTimeout :
    (ctxOf (withCore { Core.zero with ctxs := [(0, { Ctx.zero with st := .waiting, wait := .queue 3 1 false, deadline := some 0 })] }) 0 0).st = .waiting ∧
    (0 : Nat) ≤ now State.reset ∧ asleep State.reset = false ∧
    boomReady { aBoom with slots := [(0, ⟨1, [5]⟩)] } = true ∧ qFull aBoom = false := by
  decide +kernel
/-! ### Channels -/

/-- A VALID endpoint of depth 4 bound to queue 3 and context 0, one hop of direction 0, with the words `ws`. -/
def aLink (ws : List (BitVec 32 × List Byte × Bool)) : LinkEnd :=
  { LinkEnd.zero with reg := BitVec.ofNat 64 (2 ^ 63 + 4 * 2 ^ 56 + 3 * 2 ^ 38 + 1 * 2 ^ 34), words := ws, seq := BitVec.ofNat 32 ws.length }

/-- The same bound to another context. -/
def otherLink : LinkEnd := { aLink [] with reg := (aLink []).reg + 0x100000000000 }

/-- A word of a channel. -/
def aWord : BitVec 32 × List Byte × Bool := (0, List.replicate 32 7, false)

theorem test_qrd_link : ends (exec (.qrd 0 0 (enc [(1, 46), (1, 35), (1, 34), (3, 0)])) (run { Core.zero with inL := [(0, aLink [aWord])] } Ctx.zero))
    (fun t => readG (ctxOf t 0 0) 1 == 0x0707070707070707 && (getLink (getCore t 0) true 0).kept == [aWord]) = true := by decide +kernel
theorem witness_Channels :
    may (run { Core.zero with inL := [(0, aLink [aWord])] } Ctx.zero) (enc [(1, 46), (1, 35), (1, 34), (3, 0)])
      [(46, 4), (38, 4), (35, 3), (34, 1), (31, 3), (0, 6)] ∧
    boundSide { Core.zero with inL := [(0, aLink [aWord])] } true 3 = some 0 ∧ fld (aLink [aWord]).reg 44 9 = 0 ∧ fld otherLink.reg 44 9 = 1 ∧
    may (run { Core.zero with outL := [(0, aLink [])] } (g1 0x800)) (enc [(1, 42), (1, 35), (3, 0)]) [(42, 4), (35, 3), (0, 6)] ∧
    boundSide { Core.zero with outL := [(0, aLink [])] } false 3 = some 0 ∧ boundSide { Core.zero with outL := [(0, aLink [])] } true 3 = none ∧
    (aLink []).broken = false ∧ (aLink []).words.length < fld (aLink []).reg 56 7 ∧
    may (run { Core.zero with outL := [(0, aLink [])] } Ctx.zero) (enc [(1, 35), (3, 0)]) [(35, 3), (0, 6)] ∧
    may (run { Core.zero with inL := [(0, { aLink [] with again := [aWord] })] } Ctx.zero) (enc [(1, 46), (1, 35), (1, 34), (3, 0)])
      [(46, 4), (38, 4), (35, 3), (34, 1), (31, 3), (0, 6)] ∧
    boundSide { Core.zero with inL := [(0, { aLink [] with again := [aWord] })] } true 3 = some 0 ∧ (aLink [aWord]).kept.length < 256 ∧
    may (run { Core.zero with inL := [(0, { aLink [] with broken := true })] } Ctx.zero) (enc [(1, 46), (1, 35), (1, 34), (3, 0)])
      [(46, 4), (38, 4), (35, 3), (34, 1), (31, 3), (0, 6)] := by
  unfold may issues; and_intros <;> decide +kernel
/-- A one-hop route of direction 1 leads from core 0 to another position, which a word can reach. -/
theorem witness_ChannelDelivery :
    linkValid (aLink [aWord]) = true ∧ (channelEnd 0 { aLink [aWord] with reg := (aLink [aWord]).reg + 0x10000 }).isSome ∧ seenBefore 0 0 = false ∧
    seenBefore 0 1 = true ∧ (aLink []).words.length < linkDepth (aLink []) ∧ linkDepth (aLink []) ≤ (aLink [aWord, aWord, aWord, aWord]).words.length := by
  decide +kernel

/-! ### Messages -/

/-- A header to core 1 of this device, program 5, 8 bytes. -/
def aHdr (part : Nat) : Hdr := ⟨BitVec.ofNat 64 (5 * 2 ^ 48 + 1 * 2 ^ 21), BitVec.ofNat 64 (2 ^ 55 + 8 * 2 ^ 36), 0, BitVec.ofNat 64 part⟩

/-- A core that runs program 5 at epoch 5 and accepts messages, with a handler of index 0 at 0x40 and room for four arrivals. -/
def loaded : Core := { Core.zero with role := 0x0005000050000000, ctrl := 1, ht := [(0, 0x8000000000000040)], un := { Units.zero with area := 0x810000 } }

theorem test_send : ends (exec (.send 0 0 (enc [(1, 46), (2, 42), (7, 0)])) (run (mem [(0x806, 5), (0x80E, 0x80)] []) (g3 0x800 0x900 0)))
    (fun t => (getCore t 0).un.msgq.length == 1 && (ctxOf t 0 0).pc == 8) = true := by decide +kernel
theorem witness_Messages :
    issues (run (mem [(0x806, 5), (0x80E, 0x80)] []) (g3 0x800 0x900 0)) 0 0 (enc [(1, 46), (2, 42), (7, 0)])
      (onlyFields (enc [(1, 46), (2, 42), (7, 0)]) [(46, 4), (42, 4), (0, 6)]) msgRoom ∧
    sendFault (run Core.zero Ctx.zero) Slice.zero 0x800 0x900 (sendHdr (run Core.zero Ctx.zero) 0 0 0 0x80000000000000 0 0) = none ∧
    sendFault (run Core.zero Ctx.zero) Slice.zero 0x800 0x900 (sendHdr (run Core.zero Ctx.zero) 0 0 0 0x8000000000000000 0 0) = some sRSVD ∧
    may (run Core.zero { Ctx.zero with src := .slot 0 }) (enc []) [] ∧ may (run Core.zero { Ctx.zero with src := .slot 0, hasRec := true }) (enc []) [] := by
  unfold may issues; and_intros <;> decide +kernel

/-- A message of class START from core 0. -/
def aMsg : Msg := ⟨aHdr 0, List.replicate 8 1, [], 0, 0, 0, false⟩

/-- A packet of `aMsg` that has arrived at core 0. -/
def aMsgPkt : Pkt := { msgPkt aMsg with dpos := 0 }

/-- Core 0 as `k` with a packet that has arrived in its grove, which belongs to partition 0. -/
def arrivedAt (k : Core) (p : Pkt) : State :=
  { withCore k with groves := [(0, { aGrove with arrived := [p] })] }

theorem test_message_arrives : ends (exec (.messageArrival 0) (arrivedAt loaded aMsgPkt))
    (fun t => (getCore t 0).un.slots == [0] && (getCore t 0).un.starts.length == 1) = true := by decide +kernel
theorem witness_MessageArrival :
    asleep (arrivedAt loaded aMsgPkt) = false ∧ (takeArrived (arrivedAt loaded aMsgPkt) 0 (msgTakeable (arrivedAt loaded aMsgPkt) 0)).isSome = true ∧
    aMsgPkt.msg = some aMsg ∧ takenBefore (getGrove (arrivedAt loaded aMsgPkt) 0) aMsgPkt = false ∧ occupied (arrivedAt loaded aMsgPkt) 0 = true ∧
    arrivalFault (arrivedAt loaded aMsgPkt) 0 aMsg 0 = none ∧ arrivalFault (arrivedAt Core.zero aMsgPkt) 0 aMsg 0 = some sNOTLOADED ∧
    hdrClass aMsg.h = 0 ∧ freeSlot (getCore (arrivedAt loaded aMsgPkt) 0) = some 0 := by
  and_intros <;> decide +kernel
theorem test_message_starts : ends (exec (.messageStart 0) (withCore { loaded with un := { loaded.un with starts := [.msg 0 aMsg], slots := [0] } }))
    (fun t => (ctxOf t 0 0).st == .ready && (ctxOf t 0 0).pc == 0x40 && readG (ctxOf t 0 0) 2 == 8) = true := by decide +kernel
theorem witness_MessageStart :
    lowestFree loaded = some 0 ∧ occupied (withCore loaded) 0 = true ∧ mayStart loaded = true ∧ loaded.notices = [] ∧
    nextStart { loaded with un := { loaded.un with starts := [.msg 0 aMsg] } } [] [.msg 0 aMsg] = some (.msg 0 aMsg) ∧
    fld aMsg.h.w0 48 16 = fld loaded.role 48 16 ∧ (tget 0 loaded.ht (hdrHidx aMsg.h).toNat).getLsbD 63 = true ∧
    (tget 0 loaded.ht (fld loaded.ctrl 16 12)).getLsbD 63 = true ∧ (tget 0 Core.zero.ht 0).getLsbD 63 = false := by
  and_intros <;> decide +kernel
theorem witness_MessageInject :
    nextSend loaded [] [⟨0, 7, aMsg, 0⟩] = some ⟨0, 7, aMsg, 0⟩ ∧ hdrFar (withCore loaded) aMsg.h = none ∧
    (routeHops (withCore loaded) (dgOf 0) (dgOf (hdrDst aMsg.h))).isSome ∧ (placeHeld (withCore loaded) 0 [] [aMsg]).isSome ∧
    aMsg.due ≤ now (withCore loaded) := by
  and_intros <;> decide +kernel

/-! ### Hauls, requests and losses -/

/-- A part of a haul of 64 bytes from the own slice to the own slice. -/
def aPart : Xfer := ⟨0x1000, 0x2000, 64, 0, 0, 0, [], [], false, sOK, 0, false, false, 0⟩

/-- A haul with one part. -/
def aHaul (x : Xfer) : Core := { Core.zero with un := { Units.zero with hauls := [⟨0, 0, 7, 0, false, 0, [x]⟩] } }

theorem test_haul_moves : ends (exec (.haulPacketInject 0 0 0) (withCore { aHaul aPart with sp := { Slice.zero with mem := [(0x2001, 9)] } }))
    (fun t => (getCore t 0).sp.mem == [(0x1001, 9), (0x2001, 9)] && (getCore t 0).un.hauls == []) = true := by decide +kernel
theorem witness_Hauls :
    issues (run Core.zero (g3 0x1000 0x2000 64)) 0 0 (enc [(1, 46), (2, 42), (3, 38)])
      (onlyFields (enc [(1, 46), (2, 42), (3, 38)]) [(46, 4), (42, 4), (38, 4), (22, 16), (0, 6)]) haulRoom ∧
    issues (run (mem [(0x800, 1)] []) (g1 0x800)) 0 0 (enc [(1, 42)]) (onlyFields (enc [(1, 42)]) [(42, 4), (22, 16), (0, 6)]) haulRoom ∧
    (readParts (run (mem [(0x800, 1)] []) (g1 0x800)) 0 0x800).isRight = true ∧ (0x804 : Nat) % 8 ≠ 0 ∧
    findHaul (aHaul aPart) 0 = some ⟨0, 0, 7, 0, false, 0, [aPart]⟩ ∧ partPlace (withCore (aHaul aPart)) 0 (aPart.src + 0) = some (.slice 0 0x2000) ∧
    partPlace (withCore (aHaul aPart)) 0 (aPart.dst + 0) = some (.slice 0 0x1000) ∧
    partPlace (withCore (aHaul aPart)) 0 0x4000000000202000 = some (.slice 1 0x2000) := by
  unfold issues; and_intros <;> decide +kernel

/-- A request of core 1 for 8 bytes at 0x100 of core 0. -/
def aReq (kind : BitVec 4) : Pkt := { Pkt.blank with kind := kind, addr := 0x4000000000000100, len := 8, tag := 5, spos := 1, data := List.replicate 8 3 }

theorem test_read_request : ends (exec (.rdReq (.grove 0)) (arrivedAt Core.zero (aReq 0))) (fun t => (getGrove t 0).arrived == []) = true := by
  decide +kernel
theorem witness_Requests :
    (takeReq (arrivedAt Core.zero (aReq 0)) 0 0).isSome = true ∧ (takeReq (arrivedAt Core.zero (aReq 1)) 0 1).isSome = true ∧
    sliceReqFault (arrivedAt Core.zero (aReq 0)) 0 (aReq 0) = none ∧ sliceReqFault (arrivedAt Core.zero (aReq 0)) 15 (aReq 0) = some sVACANT ∧
    hbmServes State.reset 3 = true ∧
    (takeLanding { State.reset with landing := [(3, [aReq 0])] } (epHbm 3) (fun p => p.kind == 0 || p.kind == 1)).isSome = true ∧
    rangeSize State.reset 0 < reqOff { aReq 0 with addr := 0x8000000000000000 } + 8 ∧
    reqOff { aReq 0 with addr := 0x8000000000000000 } + 8 ≤ rangeSize { State.reset with hbm := { Hbm.zero with ranges := [(0, BitVec.ofNat 64 (2 ^ 63 + 2 ^ 62 + 2 ^ 40))] } } 0 := by
  and_intros <;> decide +kernel

/-- Context 0 waits for the load that TAG 5 names. -/
def loading : Core :=
  { Core.zero with ctxs := [(0, { Ctx.zero with st := .waiting, wait := .narrow 5 })]
                   un := { Units.zero with narrows := [⟨5, 0, 0, 8, 1, true, false, 0, false, false, 0⟩] } }

theorem test_read_response : ends (exec (.rdRsp (.grove 0)) (arrivedAt loading { aReq 2 with addr := 0 }))
    (fun t => (ctxOf t 0 0).st == .ready && readG (ctxOf t 0 0) 1 == 0x0303030303030303) = true := by decide +kernel
theorem witness_Responses :
    (takeAtPos (arrivedAt loading { aReq 2 with addr := 0 }) 0 2).isSome = true ∧ (narrowByTag loading true 5).isSome = true ∧
    pktStatus { aReq 2 with addr := 0 } = sOK ∧ (ctxOf (withCore loading) 0 0).st = .waiting ∧
    narrowByTag (aHaul { aPart with phase := 1, tag := 5 }) true 5 = none ∧ (partByTag (aHaul { aPart with phase := 1, tag := 5 }) 1 5).isSome = true ∧
    goes sOK = true ∧ goes sVACANT = false ∧ (takeAtPos (arrivedAt loading (aReq 5)) 0 5).isSome = true ∧
    (takeArrived (arrivedAt loading (aReq 3)) 0 (fun p => p.kind == 3)).isSome = true ∧
    (sentOf { Core.zero with un := { Units.zero with sent := [⟨0, 7, { aMsg with mid := 5 }, 0, false, false, 0⟩] } } (aReq 5) []).isSome = true := by
  and_intros <;> decide +kernel

/-- A narrow access of context 0 towards device 9, `lost` or not, issued at tick 0, at tick `n`. -/
def towards (lost : Bool) (n : Nat) : State :=
  { withCore { Core.zero with un := { Units.zero with cfg := 0, narrows := [⟨5, 0, 0xC004800000000000, 8, 1, true, false, 0, false, lost, 0⟩] } } with
    pace := { Pace.zero with ticks := n } }

theorem witness_LossesAndResends :
    asleep (towards false 50001) = false ∧ lossOf (towards false 50001) 0 (.narrow 0) = some ⟨[9], false, 0⟩ ∧
    0 + remoteTmo (getCore (towards false 50001) 0) + 1 ≤ now (towards false 50001) ∧ lossOf (towards true 50001) 0 (.narrow 0) = some ⟨[9], true, 0⟩ ∧
    0 + 50001 ≤ now (towards true 50001) ∧ occupied (withCore (aHaul aPart)) 0 = true ∧ (getCore (withCore (aHaul aPart)) 0).un.narrows = [] := by
  and_intros <;> decide +kernel
/-- An operation under way 100 µs after a blaze notice at tick 0. -/
theorem witness_DetourResend : asleep (towards false 101) = false ∧ ({ towards false 101 with notice := some 0 } : State).notice = some 0 ∧
    0 + 101 ≤ now (towards false 101) := by
  and_intros <;> decide +kernel

/-! ### The mesh -/

/-- A packet of core 0 for a position of grove `d`, waiting at the router of grove 0. -/
def waiting (p : Pkt) : State := { withCore Core.zero with groves := [(0, { aGrove with pkts := [⟨4, [], p⟩] })] }

theorem test_forward_east : ends (exec (.packetForward 0 0 ⟨.east, [], []⟩) (waiting { Pkt.blank with dst := 1 }))
    (fun t => (getGrove t 0).pkts == [] && (getGrove t 1).pkts.length == 1) = true := by decide +kernel
theorem witness_MeshPackets :
    asleep (waiting { Pkt.blank with dst := 1 }) = false ∧ (getGrove (waiting { Pkt.blank with dst := 1 }) 0).routerBad = false ∧
    (candidates (waiting { Pkt.blank with dst := 1 }) (dgAt 0 0) (outNo .east)).length = 1 ∧ (neighbour 0 (outNo .east)).isSome ∧ outNo .east < 4 ∧
    (candidates (waiting { Pkt.blank with dst := 0, dpos := 1 }) (dgAt 0 0) (outNo (.pos 1))).length = 1 ∧ outNo (.pos 1) = 5 ∧
    (candidates (waiting { Pkt.blank with dst := 0, exit := 1, ep := 20 }) (dgAt 0 0) (outNo (.landing false))).length = 1 ∧ outNo (.landing false) = 20 ∧
    badHead (getGrove (waiting Pkt.blank) 0) = none ∧ (badHead (getGrove (waiting { Pkt.blank with kind := 12 }) 0)).isSome := by
  and_intros <;> decide +kernel

/-- A multicast packet with mask `m` at the router of grove 0. -/
def multicast (m : Nat) : State := waiting { Pkt.blank with kind := 9, mask := m, data := [1, 2], fab := some ⟨0, 0, 0, none, 0, false⟩ }

theorem witness_Multicasts :
    (firstThat (mcastHere (multicast 1) 0) (bufHeads [] (getGrove (multicast 1) 0).pkts)).isSome ∧
    maskDgs 1 = [0] ∧ (routeHops (multicast 1) 0 0).isSome ∧
    (firstThat (mcastHere (multicast 0x103) 0) (bufHeads [] (getGrove (multicast 0x103) 0).pkts)).isSome ∧ mcastDead (multicast 0x103) 0 { Pkt.blank with mask := 0x103 } = 0 ∧
    (0x102 : Nat).testBit 0 = false ∧ maskDgs 0x102 = [1, 8] ∧ (routeHops (multicast 0x102) 0 1).isSome ∧ pathClear (multicast 0x102) 0 8 = true ∧
    sliceReqFault (multicast 1) 0 { Pkt.blank with part := 0, fab := some ⟨0, 0, 0, none, 0, false⟩, len := 2 } = none ∧
    (takeArrived (arrivedAt Core.zero { Pkt.blank with kind := 10 }) 0 (fun p => p.kind == 10)).isSome ∧
    (takeLanding { State.reset with landing := [(21, [{ Pkt.blank with kind := 10 }])] } epLookout (fun p => p.kind == 10)).isSome := by
  and_intros <;> decide +kernel

/-! ### Sync objects -/

/-- An object of partition 0, type `ty` (0 counter, 1 barrier, 2 event, 3 semaphore), with `param`. -/
def anObj (ty param v : Nat) : SyncObj := ⟨BitVec.ofNat 64 (2 ^ 63 + ty * 2 ^ 60 + param), BitVec.ofNat 64 v, [], 0⟩

/-- Operation `op` with value `gv` of core 1, arrived at grove 0, on its object 5. -/
def syncPkt (op gv : Nat) : Pkt :=
  { Pkt.blank with kind := 6, exit := 3, addr := BitVec.ofNat 64 op, arg0 := 5, arg1 := BitVec.ofNat 64 gv, spos := 1, tag := 9 }

/-- The state in which it has arrived, the object being `o`. -/
def syncAt (o : SyncObj) (p : Pkt) : State := { withCore Core.zero with groves := [(0, { aGrove with arrived := [p], objs := [(5, o)] })] }

theorem test_sadd_sends : ends (exec (.sadd 0 0 (enc [(1, 46), (2, 42)])) (run Core.zero (g3 5 7 0)))
    (fun t => (getCore t 0).un.syncs.length == 1 && (ctxOf t 0 0).pc == 8) = true := by decide +kernel
theorem test_swait_waits : ends (exec (.swait 0 0 (enc [(1, 46), (2, 42), (3, 38), (1, 31)])) (run Core.zero (g3 5 7 9)))
    (fun t => (ctxOf t 0 0).st == .waiting && (ctxOf t 0 0).deadline == some 10) = true := by decide +kernel
theorem witness_SyncInstructions :
    may (run Core.zero (g3 5 7 9)) (enc [(1, 46), (2, 42)]) [(46, 4), (42, 4)] ∧ may (run Core.zero (g3 5 7 9)) (enc [(1, 46)]) [(46, 4)] ∧
    may (run Core.zero (g3 5 7 9)) (enc [(1, 46), (2, 42), (3, 38), (1, 31)]) [(46, 4), (42, 4), (38, 4), (31, 3)] ∧
    may (run Core.zero (g3 5 7 9)) (enc [(1, 46), (4, 34)]) [(46, 4), (34, 4)] ∧
    syncNameOk 5 = true ∧ syncNameOk 0x8000 = false ∧ 0xFFFFFFFF < (0x100000000#64).toNat ∧ groveWorks (run Core.zero Ctx.zero) (syncDg 5) = true ∧
    groveWorks { run Core.zero Ctx.zero with groves := [(1, { Grove.zero with fused := true })] } (syncDg 0x80) = false ∧
    syncStop (run Core.zero Ctx.zero) 0 5 = none := by
  unfold may issues; and_intros <;> decide +kernel

theorem test_barrier_advances : ends (exec (.syncOp 0) (syncAt (anObj 1 2 1) (syncPkt 1 0)))
    (fun t => (getObj (getGrove t 0) 5).val == 0x100000000) = true := by decide +kernel
theorem test_counter_adds : ends (exec (.syncOp 0) (syncAt (anObj 0 0 5) (syncPkt 0 0xFFFFFFFFFFFFFFFE)))
    (fun t => (getObj (getGrove t 0) 5).val == 3) = true := by decide +kernel
theorem witness_SyncOperations :
    (takeArrived (syncAt (anObj 0 0 5) (syncPkt 0 1)) 0 (syncTakeable (syncAt (anObj 0 0 5) (syncPkt 0 1)) false)).isSome ∧
    takenBefore (getGrove (syncAt (anObj 0 0 5) (syncPkt 0 1)) 0) (syncPkt 0 1) = false ∧ groveWorks (syncAt (anObj 0 0 5) (syncPkt 0 1)) 0 = true ∧
    syncDg (syncPkt 0 1).arg0 = 0 ∧ redOf (syncAt (anObj 0 0 5) (syncPkt 0 1)) 0 5 = none ∧
    syncCheck (anObj 0 0 5) 0 0 1 = none ∧ syncCheck (anObj 0 0 5) 0 1 1 = some sRSVD ∧ syncCheck (anObj 0 0 5) 1 0 1 = some sPERM ∧
    condHolds (anObj 0 0 5) 4 5 = true ∧ condHolds (anObj 0 0 5) 4 6 = false ∧ syncCheck (anObj 3 9 5) 0 6 1 = none ∧ syncCheck (anObj 1 2 1) 0 1 0 = none ∧
    syncCheck (anObj 2 0 0) 0 3 0 = none ∧ syncCheck (anObj 2 0 0) 0 7 0 = none := by
  and_intros <;> decide +kernel

/-- Context 0 waits for the answer to operation `op` of tag 9. -/
def syncing (op : BitVec 4) (retry : Bool) : Core :=
  { Core.zero with ctxs := [(0, { Ctx.zero with st := .waiting, wait := .sync 9, deadline := some 0 })]
                   un := { Units.zero with syncs := [⟨9, 0, op, 5, 7, 2, 1, true, retry, false, false, false, 0, 0⟩] } }

theorem test_answer : ends (exec (.syncAns (.grove 0)) (arrivedAt (syncing 7 false) { Pkt.blank with kind := 7, tag := 9, arg1 := 77 }))
    (fun t => (ctxOf t 0 0).st == .ready && readG (ctxOf t 0 0) 2 == 77) = true := by decide +kernel
theorem witness_SyncAnswers :
    (takeArrived (arrivedAt (syncing 4 false) { Pkt.blank with kind := 7, tag := 9 }) 0 (fun p => p.kind == 7)).isSome ∧
    (syncByTag (syncing 4 false) 9).isSome ∧ fld ({ Pkt.blank with kind := 7, tag := 9 } : Pkt).arg0 0 2 = 0 ∧
    pktStatus { Pkt.blank with kind := 7, tag := 9 } = sOK ∧ fld (1#64) 0 2 = 1 ∧ (ctxOf (withCore (syncing 4 false)) 0 0).wait = .sync 9 ∧
    (firstThat (fun o => o.ctx == 0 && o.retry && !o.dead && decide (o.tick < 1)) (syncing 4 true).un.syncs).isSome ∧
    syncStop (withCore (syncing 4 true)) 0 5 = none ∧ (firstThat (fun o => o.tag == 9) (syncing 4 false).un.syncs).isSome ∧
    (takeArrived (syncAt (anObj 0 0 5) (syncPkt 15 0)) 0 (syncTakeable (syncAt (anObj 0 0 5) (syncPkt 15 0)) true)).isSome := by
  and_intros <;> decide +kernel

/-! ### Reductions -/

/-- An image of a fast reduction of 128 elements to core 0, its anchor object 5 of grove 0, contributed by position 0. -/
def redImage : List Word := [0x4000000000010000, 0x4000000000011000, 0x4000000000012000, 0x20000, 0x21000, 5, 0x80080, 1, 0, 0, 0]

/-- A grove whose object 5 is a barrier of one arrival. -/
def redState (p : List Pkt) : State := { withCore Core.zero with groves := [(0, { aGrove with arrived := p, objs := [(5, anObj 1 1 0)] })] }

theorem test_arm : ends (exec (.reductionArm redImage) (redState [])) (fun t => t.reds == [freshRed redImage [0] none]) = true := by decide +kernel
theorem witness_Reductions :
    asleep (redState []) = false ∧ armFault (redState []) redImage = none ∧ armFault State.reset redImage = some sVACANT ∧ armFault State.reset [] = some sRSVD ∧
    (takeArrived (redState [{ Pkt.blank with kind := 8, exit := 3, arg0 := 5, data := List.replicate 512 0 }]) 0 (fun p => p.kind == 8 && p.exit == 3)).isSome ∧
    (redByName { redState [] with reds := [freshRed redImage [0] none] } 5).isSome ∧ redRepro (freshRed redImage [0] none) = false ∧
    redRepro (freshRed (redImage.set 6 0x8000000000080020) [0] none) = true ∧ redAnchor (freshRed redImage [0] none) = 5 ∧ (freshRed redImage [0] none).sums = [] ∧
    (takeArrived (redState [{ Pkt.blank with kind := 11, arg0 := 5 }]) 0 (fun p => p.kind == 11)).isSome := by
  and_intros <;> decide +kernel
/-- Two blocks of one exponent, and the greatest sum inside 32 bits. -/
theorem test_w32_add : w32Add [0x7FFFFFFE, -5] 3 [1, -5] 3 = ⟨3, [0x7FFFFFFF, -10], 0, 0⟩ := by decide +kernel

/-! ### Context control, Rings, queries and Brands -/

/-- Context 0 READY as `x`, context 1 as `y`. -/
def two (x y : Ctx) : State := withCore { Core.zero with ctxs := [(0, { x with st := .ready }), (1, y)] }

theorem test_end_frees : ends (exec (.ctxEnd 0 0 0) (run Core.zero Ctx.zero)) (fun t => (ctxOf t 0 0).st == .free) = true := by decide +kernel
theorem test_wake : ends (exec (.wake 0 0 (enc [(1, 46), (1, 35)])) (two (g1 1) { Ctx.zero with st := .parked }))
    (fun t => readP (ctxOf t 0 0) 1 && (ctxOf t 0 1).st == .ready) = true := by decide +kernel
theorem test_resume_of_ready : ends (exec (.resume 0 0 (enc [(1, 46), (2, 42), (1, 35)])) (two (g1 1) { Ctx.zero with st := .ready }))
    (fun t => !readP (ctxOf t 0 0) 1) = true := by decide +kernel
theorem witness_ContextControl :
    may (run Core.zero Ctx.zero) (enc []) [] ∧ millPend (engs { claimed with millq := [anMma] }) 0 = true ∧ vePend Core.zero 0 = false ∧
    may (run Core.zero (g1 9)) (enc [(1, 38)]) [(38, 4)] ∧ may (run Core.zero (g1 9)) (enc [(1, 42)]) [(42, 4)] ∧
    may (two (g1 1) { Ctx.zero with st := .parked }) (enc [(1, 46), (1, 35)]) [(46, 4), (35, 3)] ∧
    may (two (g1 512) Ctx.zero) (enc [(1, 46), (1, 35)]) [(46, 4), (35, 3)] ∧ 512 ≤ (readG (g1 512) 1).toNat ∧ (readG (g1 511) 1).toNat < 512 ∧
    may (two (g3 1 0x1FFFF8 0) { Ctx.zero with st := .faulted }) (enc [(1, 46), (2, 42), (1, 35)]) [(46, 4), (35, 3), (42, 4)] ∧
    (0x1FFFF8 < 2 ^ 21 ∧ 0x1FFFF8 % 8 = 0) ∧ effSt { Ctx.zero with st := .held, heldFrom := .parked } = .parked ∧ busyCtx Core.zero 1 = false := by
  unfold may issues; and_intros <;> decide +kernel
theorem witness_Timers :
    ({ Ctx.zero with st := .parked, deadline := some 0 } : Ctx).deadline = some 0 ∧ 0 ≤ now (two Ctx.zero Ctx.zero) ∧
    (ctxOf (two Ctx.zero { Ctx.zero with st := .waiting, wait := .timer, deadline := some 0 }) 0 1).wait = .timer := by
  and_intros <;> decide +kernel

/-- A core whose context 0 has records at 0x10000. -/
def recorded (x : Ctx) : Core := { Core.zero with ring := { Core.zero.ring with area := 0x100010000 }, ctxs := [(0, x)] }

theorem test_ring_waits : ends (exec (.ring 0 0 (enc [(1, 42)])) (withCore (recorded { g1 9 with st := .ready })))
    (fun t => (ctxOf t 0 0).st == .waiting && (ctxOf t 0 0).wait == .ring 9 && (ctxOf t 0 0).pc == 8) = true := by decide +kernel
theorem witness_Rings :
    may (withCore (recorded { g1 9 with st := .ready })) (enc [(1, 42)]) [(42, 4)] ∧ hasRecord (recorded Ctx.zero) 0 = true ∧ hasRecord Core.zero 0 = false ∧
    (ctxOf (withCore (recorded { g1 9 with st := .waiting, wait := .ring 9 })) 0 0).wait = .ring 9 ∧
    ringDrained (recorded { g1 9 with st := .waiting, wait := .ring 9 }) 0 = true := by
  unfold may issues; and_intros <;> decide +kernel

theorem test_qry_lcid : ends (exec (.qry 0 0 (enc [(1, 46), (0x42, 0)])) (run Core.zero Ctx.zero)) (fun t => readG (ctxOf t 0 0) 1 == 0) = true := by decide +kernel
theorem test_nsrd : ends (exec (.nsrd 0 0 (enc [(1, 46)])) (run Core.zero { Ctx.zero with ns0 := 3, ns1 := 4 }))
    (fun t => readG (ctxOf t 0 0) 1 == 3 && readG (ctxOf t 0 0) 2 == 4) = true := by decide +kernel
theorem witness_Queries :
    issues (run Core.zero Ctx.zero) 0 0 (enc [(1, 46), (0x1F, 0)])
      (onlyFields (enc [(1, 46), (0x1F, 0)]) [(46, 4), (42, 4), (0, 16)] && definedSel 0x1F && (indexedSel 0x1F || fld (enc [(1, 46), (0x1F, 0)]) 42 4 == 0)) anyRoom ∧
    issues (run Core.zero (g1 4096)) 0 0 (enc [(1, 46), (1, 42), (0x30, 0)])
      (onlyFields (enc [(1, 46), (1, 42), (0x30, 0)]) [(46, 4), (42, 4), (0, 16)] && definedSel 0x30 && (indexedSel 0x30 || fld (enc [(1, 46), (1, 42), (0x30, 0)]) 42 4 == 0)) anyRoom ∧
    qryValue (run Core.zero (g1 4096)) 0 0 (g1 4096) 0x30 4096 = none ∧
    issues (run Core.zero Ctx.zero) 0 0 (enc [(14, 46)]) (onlyFields (enc [(14, 46)]) [(46, 4)] && decide (1 ≤ 14) && decide (14 + 2 ≤ 16)) anyRoom ∧
    issues (run Core.zero Ctx.zero) 0 0 (enc [(13, 46)]) (onlyFields (enc [(13, 46)]) [(46, 4)] && decide (1 ≤ 13) && decide (13 + 3 ≤ 16)) anyRoom := by
  unfold issues; and_intros <;> decide +kernel

/-- A core with a Brand in STATE `st` at 0x10000, and brand operations waiting. -/
def branding (st : Byte) (q : List BrandOp) : Core :=
  { engs { Engines.zero with brandq := q } with sp := { Slice.zero with mem := [(0x10000, st)] }, ctxs := [(0, { g3 0x10000 0x2000 64 with st := .ready })] }

theorem test_brhash_enters : ends (exec (.brhash 0 0 (enc [(1, 46), (2, 42), (3, 38)])) (withCore (branding 1 [])))
    (fun t => (getCore t 0).eng.brandq == [⟨0, 0x10000, .hash 0x2000 64 0⟩]) = true := by decide +kernel
theorem witness_Brands :
    (0x10000 % 128 = 0 ∧ 0x10000 + 17024 ≤ 2 ^ 21) ∧ may (withCore (branding 1 [])) (enc [(1, 46)]) [(46, 4)] ∧
    poisonAt (branding 1 []).sp 0x10000 1 = none ∧ brandState (branding 1 []).sp 0x10000 = brOpen ∧ brandState (branding 3 []).sp 0x10000 ≠ brOpen ∧
    issues (withCore (branding 1 [])) 0 0 (enc [(1, 46), (2, 42), (3, 38)])
      (onlyFields (enc [(1, 46), (2, 42), (3, 38)]) [(46, 4), (42, 4), (38, 4), (20, 2)] && fld (enc [(1, 46), (2, 42), (3, 38)]) 20 2 != 3) haulRoom ∧
    issues (withCore (branding 3 [])) 0 0 (enc [(1, 46), (9, 22), (7, 0)]) (onlyFields (enc [(1, 46), (9, 22), (7, 0)]) [(46, 4), (22, 16), (0, 6)]) haulRoom ∧
    occupied (withCore (branding 1 [])) 0 = true ∧ (brandFault (withCore (branding 1 [])) 0 0x2000 64) = none ∧
    sealStatus (withCore (branding 1 [])) 0 0x10000 = sOK ∧ sealStatus (withCore (branding 4 [])) 0 0x10000 = 0 := by
  unfold may issues; and_intros <;> decide +kernel
/-! ### Register writes and core control -/

/-- The Lookout's write of a whole register. -/
def lk (v : Word) : Wr := ⟨31, .full, v⟩

/-- What a link of no virtual function settled on. -/
def aCfg : PcieCfg := ⟨true, 512, 512, false, false, false, 0, []⟩

/-- A trained link after READY, the device awake. -/
def serving : State := { State.reset with cruise := { Cruise.zero with ready := true, phase := 9 }, host := { HostSide.zero with link := ⟨true, 64, 16, aCfg, false, []⟩ } }

/-- A link register of depth 4, queue 3, context 0, one hop. -/
def linkWord : Word := (aLink []).reg

theorem test_role_vacant : ends (exec (.coreRoleWrite 15 (lk 0)) (withCore Core.zero)) (fun t => wrejWord t (coreBlk 15) == 0x851F000100407810) = true := by decide +kernel
theorem test_link_bound : ends (exec (.linkRegisterWrite 0 false 0 (lk linkWord)) (withCore Core.zero)) (fun t => (getLink (getCore t 0) false 0).reg == linkWord) = true := by decide +kernel
theorem witness_RejectedWrites :
    (0x4FFFF8 < 2 ^ 26 ∧ 15 < 16 ∧ 31 < 32) ∧ fnServes State.reset 0 = false ∧ fnServes serving 0 = true ∧ fnServes serving 1 = false ∧ (31 : BitVec 5).toNat = 31 ∧
    fusedCore (withCore Core.zero) 15 = false ∧ occupied (withCore Core.zero) 15 = false ∧ occupied (withCore Core.zero) 0 = true ∧
    linkReserved (linkBits linkWord) = false ∧ linkReserved (linkBits 0x8000000000000000) = true ∧ roleIdle Core.zero = true ∧ roleIdle loaded = false ∧
    asleep (withCore Core.zero) = false := by
  and_intros <;> decide +kernel

/-- Core 0 with its context 0, which CORE_CTX_SEL selects, in state `st`. -/
def ctxState (st : CtxSt) : Core := { Core.zero with ctxs := [(0, { Ctx.zero with st := st })] }

theorem test_hold : ends (exec (.ctxHold 0 (lk 1)) (withCore (ctxState .parked)))
    (fun t => (ctxOf t 0 0).st == .held && (ctxOf t 0 0).heldFrom == .parked) = true := by decide +kernel
theorem test_start_misaligned : ends (exec (.ctxStart 0 (lk 0x400000004)) (withCore Core.zero)) (fun t => (getCore t 0).rejected) = true := by decide +kernel
theorem test_start : ends (exec (.ctxStart 0 (lk 0x800000004)) (withCore Core.zero)) (fun t => (ctxOf t 0 0).pc == 8 && (ctxOf t 0 0).st == .ready) = true := by
  decide +kernel
theorem witness_ContextCommands :
    (lk 1).writer.toNat = 31 ∧ fusedCore (withCore (ctxState .parked)) 0 = false ∧ occupied (withCore (ctxState .parked)) 0 = true ∧
    cmdOk (ctxState .held) 1 0 = false ∧ cmdOk (ctxState .ready) 2 0 = false ∧ cmdOk (ctxState .parked) 3 0 = false ∧ cmdOk Core.zero 4 4 = false ∧
    cmdOk { engs { claimed with millq := [anMma] } with ctxs := [(0, { Ctx.zero with st := .waiting })] } 5 0 = false ∧ Core.zero.recHold = false ∧
    busyCtx (ctxState .faulted) 0 = false ∧ Core.zero.ctrl.getLsbD 1 = false ∧ fld (0x800000004#64) 32 21 % 8 = 0 ∧ quietCore (ctxState .held) = true ∧
    (ctrlBits 2).getLsbD 1 = true := by
  and_intros <;> decide +kernel

theorem test_role_epoch : ends (exec (.coreRoleWrite 0 (lk 0x50000000)) (withCore { Core.zero with role := 0xFFFF000000000000 }))
    (fun t => (getCore t 0).role == 0x0001000050000000) = true := by decide +kernel
theorem witness_RolesAndObjects :
    roleIdle Core.zero = true ∧ fld (0x50000000#64) 44 4 = (corePart (withCore Core.zero) 0).toNat ∧ fld (0x100050000000#64) 44 4 ≠ (corePart (withCore Core.zero) 0).toNat ∧
    Core.zero.un.hold = [] ∧ (getGrove State.reset 255).fused = false ∧ syncCfgBad (syncCfgBits 0xB000000000000009) = false ∧
    syncCfgBad (syncCfgBits 0x9000000000000000) = true ∧
    (∃ x ∈ ({ aGrove with waiters := [⟨5, 4, 6, syncPkt 4 6⟩] } : Grove).waiters, x.obj = 5) := by
  and_intros <;> decide +kernel
theorem test_join : ends (exec (.groveJoin 7 (lk 0x13)) { State.reset with pgrove := [(7, 0)] }) (fun t => pgroveWord t 7 == 0x13) = true := by decide +kernel
theorem test_release : ends (exec (.groveRelease 7 (lk 0)) State.reset) (fun t => pgroveWord t 7 == 0x8000000000000000) = true := by decide +kernel
theorem witness_Groves :
    partLocked State.reset 7 0 = false ∧ groveIdle State.reset 7 = true ∧ (pgroveWord State.reset 7).getLsbD 4 = true ∧
    (pgroveWord { State.reset with pgrove := [(7, 0)] } 7).getLsbD 4 = false ∧
    partLocked { State.reset with host := { HostSide.zero with fns := [(1, { Fn.zero with tdi := .locked })] } } 7 0 = true ∧
    (pgroveWord { State.reset with pgrove := [(7, 0x8000000000000000)] } 7).getLsbD 63 = true ∧ (getGrove State.reset 7).waiters = [] := by
  and_intros <;> decide +kernel

/-! ### Pace, time, pins -/

/-- The device powered, in step `n` of Cruise, at tick `t`. -/
def powered (n : Nat) (t : Nat) : State :=
  { State.reset with pins := { Pins.zero with pwrOk := true }, cruise := { Cruise.zero with phase := BitVec.ofNat 4 n }, pace := { Pace.zero with ticks := t } }

/-- The same with the source of the time base and when it was last heard. -/
def heard (src : BitVec 2) (t : Nat) : State := { powered 9 t with pace := { Pace.zero with ticks := t, src := src } }

theorem test_tick : ends (exec .timeTick (powered 9 0)) (fun t => t.pace.ns == 1000 && now t == 1) = true := by decide +kernel
theorem test_pps : ends (exec (.ppsEdge 501) (heard 1 0)) (fun t => t.pace.offset == 501 && !t.pace.locked) = true := by decide +kernel
theorem witness_TimeBase :
    timeRuns State.reset = false ∧ timeRuns (powered 3 0) = true ∧ (powered 3 0).pace.frac < 2 ^ 32 ∧ (-8589934 : Int) ≤ 0 ∧ (heard 1 0).pace.src = 1 ∧ (heard 2 0).pace.src = 2 ∧
    (heard 1 1500001).pace.heard + 1500001 ≤ now (heard 1 1500001) ∧ (heard 2 3000001).pace.heard + 3000001 ≤ now (heard 2 3000001) ∧
    (heard 1 0).pace.holdover = false ∧ State.reset.cruise.wasReady = false ∧ ({ State.reset with cruise := { Cruise.zero with wasReady := true } } : State).cruise.wasReady = true := by
  and_intros <;> decide +kernel

/-- Readings of 64 regions at `v` sixteenths of a degree. -/
def readings (v : Int) : GovReadings := ⟨List.replicate 64 v, List.replicate 64 1024, 590, List.replicate 4 true, List.replicate 4 0, 590, List.replicate 4 200, List.replicate 64 20⟩

theorem well_readings : Instr.wf (.governorInterval (readings 1600)) = true := by decide +kernel
theorem test_throttle : ends (exec (.governorInterval (readings 1600)) (powered 4 0)) (fun t => (getRegion t 63).thermal && t.pace.capped) = true := by decide +kernel
theorem test_recal : ends (exec (.regionRecalibration 63 64 5) (powered 4 7)) (fun t => (getRegion t 63).trim == 63 && (getRegion t 63).calTick == 7) = true := by
  decide +kernel
theorem test_trip : ends (exec (.thermalTrip 0 1760) (powered 9 0)) (fun t => t.pace.tripped && t.pins.trip) = true := by decide +kernel
theorem witness_PaceAndThermal :
    regionsOn (powered 4 0) = true ∧ (readings 1600).temps[63]? = some 1600 ∧ (powered 4 0).pace.recalBusy = false ∧ alive (powered 9 0) = true ∧
    (halfBits .full 0x8000000000000000).getLsbD 63 = true ∧ (1759 : Int) < 1760 := by
  and_intros <;> decide +kernel

theorem test_pwr_fall : ends (exec .pwrOkFall { powered 9 5 with did := 9 }) (fun t => t.did == 0 && !t.pins.pwrOk && now t == 5) = true := by decide +kernel
theorem test_rail_short : ends (exec (.railLoss .vddIo 9) (powered 9 5)) (fun t => t.pins.pwrOk) = true := by decide +kernel
theorem witness_PowerAndReset :
    State.reset.pins.pwrOk = false ∧ State.reset.pace.tripped = false ∧ State.reset.pins.rstLow = false ∧ (powered 9 0).pins.pwrOk = true ∧
    ({ powered 9 0 with pins := { Pins.zero with pwrOk := true, rstLow := true } } : State).pins.rstLow = true ∧ alive (powered 9 0) = true ∧
    alive State.reset = false ∧ lookoutUp (powered 3 0) = true ∧ (9 < 10 ∧ 10 ≤ 10) := by
  and_intros <;> decide +kernel
theorem test_refclk : ends (exec .refclkLoss (powered 9 0)) (fun t => !t.pins.refclk) = true := by decide +kernel
theorem witness_ClocksAndDeadline :
    (powered 9 0).pins.refclk = true ∧ ({ State.reset with pins := { Pins.zero with refclk := false } } : State).pins.refclk = false ∧
    (powered 9 0).pins.mclk = true ∧ ({ State.reset with pins := { Pins.zero with mclk := false } } : State).cruise.running = false ∧
    ({ State.reset with cruise := { Cruise.zero with running := true, phase := 8 } } : State).errs.assign = none := by
  and_intros <;> decide +kernel

/-! ### Links and fabric -/

/-- Port 5 as `p`, which Cruise released, the device READY with DID 7. -/
def porting (p : Port) : State :=
  { State.reset with gf := { Gf.zero with ports := [(5, p)] }, cruise := { Cruise.zero with ready := true, matched := 0xFFFF }, did := 0x8000000000000007
                     pace := { Pace.zero with ticks := 200 } }

/-- A port that is UP. -/
def upPort : Port := { Port.zero with st := 3, peerOk := true, known := true }

/-- A control flit of kind 1 with a wrong CRC, and a data flit. -/
def badFlit : Flit := ⟨0, 0xFFF, false, 2, 0, 0, 0, 0, List.replicate 244 0, 0, [], []⟩

theorem well_flit : Instr.wf (.dataFlit 5 badFlit) = true := by decide +kernel
theorem test_bad_flit : ends (exec (.dataFlit 5 badFlit) (porting upPort)) (fun t => (getPort t 5).nak) = true := by decide +kernel
theorem test_ident : ends (exec (.ident 5 9 true 3) (porting { Port.zero with st := 2, upFrom := some 0 }))
    (fun t => (getPort t 5).st == 3 && (getPort t 5).peerDid == 9) = true := by decide +kernel
theorem test_third_failure : ends (exec (.trainingAttemptEnd 5 false) (porting { Port.zero with st := 2, attempts := 2 }))
    (fun t => (getPort t 5).st == 1) = true := by decide +kernel
theorem witness_PortEvents :
    flitBad badFlit = true ∧ flitBad { badFlit with typ := 0, crc := BitVec.ofNat 32 (crc32c (flitBytes { badFlit with typ := 0 })) } = false ∧
    flitBad { badFlit with typ := 1, crc := BitVec.ofNat 32 (crc32c (flitBytes { badFlit with typ := 1 })) } = false ∧
    portUpFor (porting upPort) 5 = true ∧ (porting upPort).dorm.st = .active ∧ (17 : BitVec 5).toNat < 18 ∧ Port.zero.st ≠ 3 ∧
    ({ Port.zero with st := 2, upFrom := some 0 } : Port).upFrom.isSome ∧ upPort.progress + 101 ≤ now (porting upPort) ∧
    (halfBits .full 0x8100000000000000).getLsbD 63 = true ∧ fld (halfBits .full 0x8100000000000000) 56 5 < 18 ∧ (moveLane 0 upPort 1 none).isSome ∧
    moveLane 0 upPort 17 none = none ∧ flitBad { badFlit with fec := [⟨0, 16, true⟩] } = true ∧ (moveLane 0 upPort 1 (some true)).isSome ∧ retrains upPort = false ∧
    retrains { upPort with jobs := [⟨1, 1, 16, 0, none, false, some true⟩] } = true ∧ (⟨0, [], [], 16, []⟩ : TxFlit).naks = 16 := by
  and_intros <;> decide +kernel
/-- A lane map that the port itself began, and its peer's answer. -/
theorem test_lane_map : ends (exec (.laneMap 5 1 16 9) (porting { upPort with jobs := [⟨1, 1, 16, 0, some 9, false, none⟩] }))
    (fun t => (getPort t 5).jobs.map LaneJob.agreed == [true] || (getPort t 5).lanes == [(1, 17)]) = true := by decide +kernel

/-- A packet for DID `d` that came by port 5. -/
def aFPkt (d : Nat) : FPkt := ⟨BitVec.ofNat 15 d, 9, 0, 0, 0, false, false, 0, 0, 0, 0, 0, 0, false, [], [], 0, some 5⟩

/-- The state with it at the head of port 5's inbox, and a route to DID 9 by port 5. -/
def switching (p : FPkt) : State :=
  { porting upPort with gf := { Gf.zero with ports := [(5, upPort)], inbox := [(5, [p])], rt := [(9, 0x80000005), (10, 0x80000006)], holds := [(0, 0x800000080000000B#64 &&& 0x800000080000000B#64)] } }

theorem test_no_route : ends (exec (.fabricPacket (.port 5)) (switching (aFPkt 12))) (fun t => t.gf.noroute == 1 && t.errs.reports.length == 1) = true := by decide +kernel
theorem witness_FabricPackets :
    tget [] (switching (aFPkt 12)).gf.inbox 5 = [aFPkt 12] ∧ aged (switching (aFPkt 12)) { aFPkt 12 with age := 50000 } = true ∧ aged (switching (aFPkt 12)) (aFPkt 12) = false ∧
    hasDid (switching (aFPkt 7)) = true ∧ (aFPkt 7).dstDid = ownDid (switching (aFPkt 7)) ∧ hasDid State.reset = false ∧ (aFPkt 12).arr.isSome ∧
    egressPort (switching (aFPkt 9)) (aFPkt 9) = .port 5 0 ∧ egressPort (switching (aFPkt 12)) (aFPkt 12) = .none ∧
    heldDid { switching (aFPkt 9) with gf := { Gf.zero with holds := [(0, 0x8000000900000009)] } } 9 = true ∧ holdRoom (switching (aFPkt 9)) (aFPkt 9) = true ∧
    heldDid (switching (aFPkt 9)) 9 = false ∧ (switching (aFPkt 9)).gf.stored.any (fun q => flowOf q == flowOf (aFPkt 9)) = false ∧
    ({ (switching (aFPkt 9)).gf with stored := [aFPkt 9] } : Gf).stored.any (fun q => flowOf q == flowOf (aFPkt 9)) = true := by
  and_intros <;> decide +kernel
/-- A packet of this device that waits for port 5, one that waits in the hold store for DID 9, and one that no buffer has room for. -/
theorem witness_OwnAndHeld :
    (switchFlow (porting upPort) 5 (toFabric { Pkt.blank with fab := some ⟨9, 0, 0, none, 0, false⟩ } ⟨9, 0, 0, none, 0, false⟩)).isSome ∧
    (∀ j < 5, ownPkts (porting upPort) j = []) ∧
    (switchPkt (switching (aFPkt 9)) 5 (aFPkt 9)).isSome ∧ flowOf (aFPkt 9) ≠ flowOf (aFPkt 10) := by
  and_intros <;> decide +kernel

theorem test_rt_write : ends (exec (.routingEntryWrite false (lk 0x80000005)) { porting upPort with gf := { (porting upPort).gf with rtSel := 0x8009 } })
    (fun t => tget 0 t.gf.rt 32777 == 0x80000005) = true := by decide +kernel
theorem test_hold_order : ends (exec (.didHold 3 (lk 0x8000000100000002)) State.reset) (fun t => wrejWord t 0x7000 == 0x811F000100007048) = true := by decide +kernel
theorem witness_FabricControl :
    badEntry 0x80000005 = false ∧ badEntry 0x00100000 = true ∧ (0x8009#16).getLsbD 15 ≠ State.reset.gf.active ∧ namesFused State.reset (rtPorts 5) = false ∧
    namesFused { State.reset with gf := { Gf.zero with ports := [(5, { Port.zero with st := 0 })] } } (rtPorts 5) = true ∧
    fld (holdBits 0x8000000100000002) 32 15 < fld (holdBits 0x8000000100000002) 0 15 ∧ (holdBits 0x8000000100000002).getLsbD 63 = true ∧
    (fld (0x61A8000000400#64) 32 20 ≤ 400000 ∧ 1024 ≤ fld (0x61A8000000400#64) 0 24) := by
  and_intros <;> decide +kernel

/-- A shaper of port 0 and partition 0 with a packet. -/
def shaping (h : Shaper) : State := { State.reset with gf := { Gf.zero with shapers := [(0, h)], samples := 2 }, pace := { Pace.zero with ticks := 100000 } }

theorem witness_Shapers :
    ({ Shaper.zero with tokens := 1, queue := [(aFPkt 9, 0)] } : Shaper).rate ≠ 0 ∧ (shaperOf (shaping { Shaper.zero with tokens := 1, queue := [(aFPkt 9, 0)] }) 0 0).queue = [(aFPkt 9, 0)] ∧
    frozenDue (shaping Shaper.zero) { Shaper.zero with rate := 0, frozenAt := some 0, queue := [(aFPkt 9, 0)] } = some (aFPkt 9) ∧
    now (shaping Shaper.zero) % 100 = 0 ∧ (shaping Shaper.zero).gf.openN + 1 < (shaping Shaper.zero).gf.samples.toNat ∧ now (porting upPort) % 100 = 0 ∧ now (powered 9 1) % 100 ≠ 0 := by
  and_intros <;> decide +kernel

/-! ### The scratchpad -/

theorem test_bank : bankOf 0x3FFF = 0x0F ∧ rowOf 0x3FFF = 511 ∧ bankOf 0x21 = 0 ∧ rowOf 0x21 = 1 := by decide +kernel
theorem witness_SlotMapping : (31 < 32) ∧ (511 < 512) ∧ bankOf 0x3FEF = 31 ∧ rowOf 0x3FEF = 511 := by decide +kernel
/-- FIPS 180-4: the first 8 bytes of the digest of the empty message. -/
theorem test_sha256 : leNat ((sha256 []).take 8).reverse = 0xe3b0c44298fc1c14 := by decide +kernel

/-- FIPS 180-4: the digest of "abc", its first and its last 8 bytes. -/
theorem test_sha384 : leNat ((sha384 [0x61, 0x62, 0x63]).take 8).reverse = 0xcb00753f45a35e8b ∧
    leNat (((sha384 [0x61, 0x62, 0x63]).drop 40).reverse) = 0x58baeca134c825a7 := by decide +kernel

/-! ### External memory, faults and Snags -/

/-- Four trained stacks. -/
def memories : State := { State.reset with hbm := { Hbm.zero with stk := [(0, { Stack.zero with trained := true }), (1, { Stack.zero with trained := true }), (2, { Stack.zero with trained := true }), (3, { Stack.zero with trained := true })] } }

/-- A range of one unit at base 1. -/
def aRange : Word := BitVec.ofNat 64 (2 ^ 63 + 2 ^ 40 + 2 ^ 32)

theorem test_range : ends (exec (.rangeCreation 2 (lk aRange)) memories) (fun t => rangeWord t 2 == aRange) = true := by decide +kernel
theorem witness_ExternalMemory :
    memories.sec.trngOk = true ∧ rangeReserved (rangeFields aRange) = false ∧ rangeReserved (rangeFields 0x8000000000000000) = true ∧
    rangeCond memories 2 (rangeFields aRange) = true ∧ rangeCond State.reset 2 (rangeFields aRange) = false ∧
    rangeCond memories 2 (rangeFields 0) = true ∧ (rangeWord { memories with hbm := { memories.hbm with ranges := [(2, aRange)] } } 2).getLsbD 63 = true ∧
    (rangeWord { memories with hbm := { memories.hbm with ranges := [(2, aRange)] } } 2).getLsbD 62 = false ∧
    rangeCond { memories with hbm := { memories.hbm with ranges := [(2, aRange + 0x4000000000000000)] } } 2 (rangeFields (aRange + 0x10000000000)) = true ∧
    hbmServes memories 0 = true ∧ (0x2FFFFFFF < 0x30000000) ∧ sHas (getStack memories 0).bad 5 = false ∧ occupied (withCore Core.zero) 0 = true := by
  and_intros <;> decide +kernel

/-- A core with a running context. -/
def busyCore : Core := ctxState .ready

/-- A report of a corrected scratchpad row of core 0. -/
def aReport : Rpt := rpt 0 sOK 0 0 0

/-- A record that it matches. -/
def aRecord : LogEnt := ⟨aReport, 1, 0, true, 0, 0, 0, [(.spRow 0 0 0, false, 0)], 0⟩

/-- A record of a site's permanent fault, detected at a microsecond. -/
def siteRecord (n us : Nat) : LogEnt :=
  ⟨aReport, 1, BitVec.ofNat 64 (1000 * us), true, 0, 0, n, [(.internal (psidOf 0 n 7 0xFF), true, BitVec.ofNat 64 (1000 * us))], 2⟩

/-- The combiner of Stand 0 with that record. -/
def logged (es : List LogEnt) (r : List Rpt) : State :=
  { State.reset with errs := { Errs.zero with combs := [(0, { Comb.zero with die := es, tail := es.length })], reports := r }, pace := { Pace.zero with ticks := 10001 } }

theorem test_report_counts : ends (exec .report (logged [aRecord] [aReport])) (fun t => (getComb t 0).die.map LogEnt.count == [2]) = true := by decide +kernel
theorem test_report_opens : ends (exec .report (logged [] [aReport])) (fun t => (getComb t 0).die.length == 1 && (getComb t 0).tail == 1) = true := by decide +kernel
theorem witness_ErrorLogs :
    (∃ e ∈ (getComb (logged [aRecord] []) (combOf aReport)).die, matchesRec e aReport = true) ∧ (∀ e ∈ (getComb (logged [] []) (combOf aReport)).die, matchesRec e aReport = false) ∧
    (openRecs (getComb (logged [aRecord] []) 0)).length < 64 ∧ (getComb (logged [aRecord] []) 0).die.length < 1024 ∧ recordDue (logged [aRecord] []) aRecord = true ∧
    headStep (getComb (logged [aRecord] []) 0) 1 ≤ (getComb (logged [aRecord] []) 0).tail - (getComb (logged [aRecord] []) 0).head ∧
    (getComb (logged [aRecord] []) 0).tail - (getComb (logged [aRecord] []) 0).head < headStep (getComb (logged [aRecord] []) 0) 2 ∧
    absorbed (logged [] []) aReport = false ∧
    absorbed { logged [] [] with check := { Check.zero with sounding := [⟨0, 0, 0, 0, [], true, [], []⟩] } } aReport = true := by
  and_intros <;> decide +kernel
theorem witness_SettledLog : settleComb (logged [aRecord] []) 0 = logged [aRecord] [] := by decide +kernel

/-- Two contexts, each waiting for a queue that the other feeds, quiet since tick 0. -/
def snagged : State :=
  { withCore { Core.zero with
      ctxs := [(0, { Ctx.zero with st := .waiting, wait := .queue 1 0 false }), (1, { Ctx.zero with st := .waiting, wait := .queue 0 0 false })]
      un := { Units.zero with queues := [(0, { aRing [] 0 with feeders := [0] }), (1, { aRing [] 0 with feeders := [1] })] } } with
    quiets := [(0, 0, ⟨0, 0, 0, 0, 0⟩), (0, 1, ⟨1, 0, 0, 0, 0⟩)], pace := { Pace.zero with ticks := 20000 } }

theorem test_snag : ends (exec (.snagRecord [(0, 0), (0, 1)]) snagged) (fun t => (getSnag t 0).count == 1 && t.errs.reports.length == 1) = true := by decide +kernel
theorem witness_FaultsAndSnags :
    occupied (withCore Core.zero) 0 = true ∧ (firstThat (fun (e : LogEnt) => e.seq % 2 ^ 32 == 0 && !e.evs.isEmpty) (getComb (logged [aRecord] []) 0).die).isSome ∧
    fromClosing snagged [(0, 0), (0, 1)] = [(0, 1), (0, 0)] ∧ ([(0, 1), (0, 0)] : List (Lcid × CtxNo)).Nodup ∧
    quietEdge snagged (0, 1) (0, 0) = true ∧ quietEdge snagged (0, 0) (0, 1) = true ∧ snagged.snags = [] ∧
    quietEdge { snagged with pace := Pace.zero } (0, 1) (0, 0) = false ∧ asleep (withCore busyCore) = false ∧
    effSt (ctxOf (withCore busyCore) 0 0) = .ready ∧ (ctxOf (withCore busyCore) 0 0).st = .ready ∧
    inTurn (logged [siteRecord 0 5, siteRecord 1 7] []) (siteRecord 0 5) = true ∧ inTurn (logged [siteRecord 0 5, siteRecord 1 7] []) (siteRecord 1 7) = false := by
  and_intros <;> decide +kernel

theorem test_write_size : ends (exec (.registerWrite 31 4 8 0) State.reset) (fun t => wrejWord t 0 == 0x841F000100000004) = true := by decide +kernel
theorem test_snag_cfg : ends (exec (.registerWrite 31 0x5000 8 0xFFFFFFFFFFFF0005) State.reset) (fun t => t.snagCfg == 5) = true := by decide +kernel
theorem witness_RegisterWrites :
    ¬(8 = 8 ∧ 4 % 8 = 0) ∧ ¬(8 = 4 ∧ 4 % 4 = 0) ∧ fnServes serving 0 = true ∧ fnServes serving 1 = false ∧ serving.dorm.st = .active ∧ fnServes State.reset 0 = false ∧
    (0xC00000 ≤ (0x3FFFFF8#26).toNat ∧ (0x3FFFFF8#26).toNat % 8 = 0) ∧ (5 ≤ fld (5#64) 0 16 ∧ 10000 < fld (10001#64) 0 16 ∧ fld (4#64) 0 16 < 5) ∧
    (300 ≤ fld (300#64) 0 16 ∧ fld (600#64) 0 16 ≤ 600 ∧ 600 < fld (601#64) 0 16) ∧ State.reset.pace.limit.toNat = 600 ∧
    fusedCore (withCore (ctxState .held)) 0 = false ∧ (ctxOf (withCore (ctxState .held)) 0 0).st = .held ∧ (ctxOf (withCore (ctxState .parked)) 0 0).st ≠ .faulted := by
  and_intros <;> decide +kernel
/-! ### The host interface -/

/-- A pair of four entries. -/
def aPair : Qp := newQp 0x1003 0x2003 true none

/-- A device that serves its host, with one core, and function 0 as given. -/
def hosting (n : Fn) : State :=
  { withCore Core.zero with cruise := serving.cruise, host := { HostSide.zero with link := ⟨true, 64, 16, aCfg, false, []⟩, fns := [(0, n)] } }

/-- A command of pair 1 in flight. -/
def aCmd (ws : List Word) : HostCmd := newCmd 1 ws 1 0 0 none

/-- Its reference. -/
def aRef : CmdRef := ⟨0, 1, 0⟩

/-- A function with pair 1 and a command of it in flight. -/
def commandFn (c : HostCmd) : Fn := { Fn.zero with en := true, pairs := [(1, some { aPair with sqHead := 1, sqTail := 1, resv := 1 })], cmds := [c], nseq := 1 }

/-- A device whose function 0 runs a command of these words. -/
def commanding (ws : List Word) : State := hosting (commandFn (aCmd ws))

/-- A function with pair 1 alone, its tail two on. -/
def paired : State := hosting { Fn.zero with pairs := [(1, some { aPair with sqTail := 2, cqTail := 1 })] }

theorem test_doorbell : ends (exec (.sqTailDoorbell 0 16 3) paired) (fun t => (pairOf t 0 1).map Qp.sqTail == some 3) = true := by decide +kernel
theorem test_doorbell_past : ends (exec (.sqTailDoorbell 0 16 4) paired) (fun t => (getFn t 0).dbErr) = true := by decide +kernel
theorem witness_Doorbells :
    fnServes State.reset 0 = false ∧ fnServes paired 0 = true ∧ paired.dorm.st = .active ∧ pairOf paired 0 2 = none ∧
    pairOf paired 0 1 = some { aPair with sqTail := 2, cqTail := 1 } ∧ aPair.svc = none ∧ aPair.sqSize ≤ 4 ∧ 3 < aPair.sqSize ∧
    (2 - 0 + (3 % 4 + 4 - 2 % 4) % 4 ≤ aPair.sqSize - 1) ∧ (aPair.sqSize - 1 < 2 - 0 + (1 % 4 + 4 - 2 % 4) % 4) ∧
    (0 + (1 % 4 + 4 - 0 % 4) % 4 ≤ 1) ∧ (1 < 0 + (2 % 4 + 4 - 0 % 4) % 4) ∧ bellPair 16 0 = some 1 ∧ bellPair 24 8 = some 1 ∧ bar2Read paired 0 0x800 = some 0 ∧
    fnServes paired 1 = false ∧ (0x7F8#12).toNat < 0x800 := by
  and_intros <;> decide +kernel

/-- Words of a CREATE_QP of pair 2. -/
def createWords : List Word := [0x01, 0x5003, 0x6003, 0x82, 0, 0, 0, 0]

theorem test_enable :
    ends (exec (.cqEnable 0 (lk 1)) (hosting { Fn.zero with asq := 0x1003, acq := 0x2003 })) (fun t => (getFn t 0).rdy && (pairOf t 0 0).isSome) = true := by
  decide +kernel
theorem test_fetch : ends (exec (.commandFetch 0 1 createWords) paired) (fun t => (getFn t 0).cmds.map HostCmd.fin == [some (sRSVD, 0)]) = true := by decide +kernel
theorem test_create : ends (exec (.createQp aRef) (commanding createWords)) (fun t => (pairOf t 0 2).map Qp.sqSize == some 4) = true := by decide +kernel
theorem witness_QueuePairs :
    Fn.zero.en = false ∧ Fn.zero.rdy = false ∧ fld (0x1003#64) 0 12 ≠ 0 ∧ fld Fn.zero.asq 0 12 = 0 ∧
    (getFn (hosting { commandFn (aCmd []) with pairs := [(0, some aPair)] }) 0).en = true ∧ (∀ c ∈ [aCmd []], c.q ≠ 0) ∧
    dormBusy paired = false ∧ fnServes paired 0 = true ∧ 0 < 2 ∧ 1 + aPair.resv - 0 < aPair.cqSize ∧ aPair.cqSize ≤ 4 + aPair.resv - 0 ∧
    running (commanding createWords) aRef 0x01 = some (aCmd createWords) ∧ pairOf (commanding createWords) 0 2 = none ∧
    running (commanding [0x01, 0x5003, 0x6003, 0x81]) aRef 0x01 = some (aCmd [0x01, 0x5003, 0x6003, 0x81]) ∧
    (pairOf (commanding [0x01, 0x5003, 0x6003, 0x81]) 0 1).isSome ∧
    running (commanding [0x02, 0, 0, 2]) aRef 0x02 = some (aCmd [0x02, 0, 0, 2]) ∧ pairOf (commanding [0x02, 0, 0, 2]) 0 2 = none ∧
    running (hosting { commandFn (aCmd [0x02, 0, 0, 2]) with pairs := [(2, some aPair)] }) aRef 0x02 = some (aCmd [0x02, 0, 0, 2]) ∧
    pairOf (hosting { commandFn (aCmd [0x02, 0, 0, 2]) with pairs := [(2, some aPair)] }) 0 2 = some aPair ∧ (aCmd []).q.toNat ≠ 2 ∧
    (∃ d ∈ (getFn (hosting { commandFn (aCmd [0x02, 0, 0, 1]) with pairs := [(1, some aPair)] }) 0).cmds, d.q.toNat = 1 ∧ d.dead = false) ∧
    ({ aPair with svc := some (0, 0, 0) } : Qp).svc.isSome ∧ ({ aPair with stop := true } : Qp).stop = true ∧
    (∃ c ∈ [{ aCmd [] with q := 0 }], c.q = 0 ∧ c.dead = false) := by
  and_intros <;> decide +kernel

/-- A finished command of pair 1. -/
def finishedCmd : State := commanding [0x03]

/-- The same, with its outcome. -/
def done1 : HostCmd := { aCmd [0x03] with begun := true, fin := some (sOK, 7) }

theorem test_completion :
    ends (exec (.hostCommandComplete aRef) (hosting (commandFn done1))) (fun t => rdNum t.host.mem 0x2000 8 == 0x0001000100010000 && rdNum t.host.mem 0x2008 8 == 7) = true := by
  decide +kernel
theorem test_identify : ends (exec (.identify aRef) finishedCmd) (fun t => (getFn t 0).cmds.map HostCmd.fin == [some (sOK, 0)]) = true := by decide +kernel
theorem witness_HostCommands :
    cmdFields [0x05] = none ∧ (cmdFields [0x03]).isSome ∧ onlyNamed [0x03, 0, 1] [(1, 0, 64)] = false ∧ adminOnly (cmdOpc [0x01]) = true ∧
    adminOnly (cmdOpc [0x10]) = false ∧ asleep finishedCmd = false ∧ cmdOf finishedCmd aRef = some (aCmd [0x03]) ∧ (aCmd [0x03]).fin = none ∧
    cmdOf (hosting (commandFn done1)) aRef = some done1 ∧ done1.dead = false ∧
    pairOf (hosting (commandFn done1)) 0 1 = some { aPair with sqHead := 1, sqTail := 1, resv := 1 } ∧ (hosting (commandFn done1)).sec.pending = none ∧
    done1.sqhd < 2 ^ 16 ∧ (2047#11).toNat < vectors 0 ∧ running finishedCmd aRef 0x03 = some (aCmd [0x03]) ∧
    ({ Sec.zero with pending := some 2 } : Sec).pending.isSome ∧ aPair.svc = none ∧ aPair.stop = false ∧ aPair.ien = true ∧
    cmdOf (hosting (commandFn { done1 with dead := true })) aRef = some { done1 with dead := true } ∧
    sHas ({ Fn.zero with pend := [5] } : Fn).pend 5 = true ∧ sHas Fn.zero.pend 5 = false := by
  and_intros <;> decide +kernel

/-- Words of a DMA of 8 bytes at 0x100 of core 0, to or from host address 0x9000. -/
def dmaWords (opc n : Nat) : List Word := [BitVec.ofNat 64 opc, 0x9000, 0x4000000000000100, BitVec.ofNat 64 n, 0, 0, 0, 0]

/-- Bytes of host memory. -/
def hostBytes (n : Nat) : HostData := ⟨List.replicate n 9, [], [], [], false⟩

/-- Four trained stacks, and a range of one unit for partition 0. -/
def windowed : State := { hosting Fn.zero with hbm := { memories.hbm with ranges := [(0, aRange + 0x4000000000000000)] } }

theorem test_dma : ends (exec (.dmaToDev aRef (hostBytes 8)) (commanding (dmaWords 0x10 8))) (fun t =>
    rdNum (getCore t 0).sp.mem 0x100 8 == 0x0909090909090909 && (getFn t 0).cmds.map HostCmd.fin == [some (sOK, 8)]) = true := by decide +kernel
theorem test_window : ends (exec (.hostWindowWrite 0 0 ⟨List.replicate 64 5, false⟩) windowed) (fun t =>
    rdByte (getStack t (hbmPlace windowed 0 0).1).mem ((hbmPlace windowed 0 0).2 + 63) == 5) = true := by decide +kernel
theorem witness_HostTransfers :
    (let s := commanding (dmaWords 0x10 8)
     running s aRef 0x10 = some (aCmd (dmaWords 0x10 8)) ∧ cmdList (dmaWords 0x10 8) = false ∧ devFault s 0 0x4000000000000100 8 = none ∧
     fld (0x4000000000000100#64) 62 2 = 1 ∧ (hostBytes 8).bytes.length = 8 ∧ poisonAt (getCore s 0).sp 0x100 8 = none ∧
     devFault s 0 0x4000000000A00100 8 = some sVACANT ∧ (getCore s 0).sp.bad = []) ∧
    running (commanding (dmaWords 0x10 0)) aRef 0x10 = some (aCmd (dmaWords 0x10 0)) ∧
    dmaFault (commanding (dmaWords 0x10 8)) 0 (dmaWords 0x10 8) (hostBytes 8) = none ∧ dmaFault (commanding (dmaWords 0x10 0)) 0 (dmaWords 0x10 0) (hostBytes 8) = some sOK ∧
    (hostBytes 4).bytes.length < 8 ∧ poisonEnd 0x100 3 8 = 8 ∧
    running (commanding (dmaWords 0x11 8)) aRef 0x11 = some (aCmd (dmaWords 0x11 8)) ∧ devFault (commanding (dmaWords 0x11 8)) 0 0x4000000000000100 8 = none ∧
    fnServes windowed 0 = true ∧ windowed.dorm.st = .active ∧ windowReach windowed 0 0 64 = some (0, 0) ∧ windowReach windowed 0 0x2FFFFFFC0 64 = none ∧
    chRetired (getStack windowed (hbmPlace windowed 0 0).1) (hbmPlace windowed 0 0).1 ((hbmPlace windowed 0 0).2 / 64) = false := by
  and_intros <;> decide +kernel

/-- A load descriptor: one core, program 3, an image of 8 bytes at 0. -/
def aLoad : LoadData :=
  ⟨[0x0003000100000000, 1, 0, 0, 0, 0, 8, 0, 0, 0, 0, 0], List.replicate 8 6, [], [], false⟩

/-- A device that runs a LOAD into partition 0, to which grove 0 belongs at reset. -/
def loadInto (k : Core) : State := { commanding [0x20, 0, 0] with cores := [(0, k)] }

/-- A device that runs an UNLOAD of core 0. -/
def unloadFrom (p : Word) : State := { commanding [0x21, 0, 0, 1, 1] with pgrove := [(0, p)] }

theorem test_load : ends (exec (.hostLoad aRef aLoad) (loadInto Core.zero)) (fun t =>
    fld (getCore t 0).role 28 16 == 3 && rdNum (getCore t 0).sp.mem 0 8 == 0x0606060606060606 && (getFn t 0).cmds.map HostCmd.fin == [some (sOK, 0xFFFF)]) = true := by
  decide +kernel
theorem test_flr : ends (exec (.flr 0) (commanding [0x03])) (fun t => (getFn t 0).pairs.isEmpty && (getFn t 0).cmds.map HostCmd.dead == [true]) = true := by decide +kernel
theorem witness_LoadsAndFunctions :
    running (commanding [0x12, 0]) aRef 0x12 = some (aCmd [0x12, 0]) ∧
    hostMsgFault (commanding [0x12, 0]) 0 ⟨[], [], [], [], true⟩ (hostHdr (commanding [0x12, 0]) 0 []) = some sBOUNDS ∧
    running (loadInto Core.zero) aRef 0x20 = some (aCmd [0x20, 0, 0]) ∧ loadFault (loadInto Core.zero) 0 0 0 aLoad = none ∧
    loadFault (loadInto Core.zero) 0 0 0 { aLoad with desc := [] } = some (sRSVD, loadResult none 0xFFFF) ∧ cmdPart 0 [0x20, 0, 0] = 0 ∧
    loadFault (loadInto busyCore) 0 0 0 aLoad = none ∧ ldCores aLoad = [0] ∧
    (quietCore (quiesce (getCore (loadInto (getCore (vecing (aNeg 1) []) 0)) 0)) = false) ∧
    (quietCore (quiesce (getCore (loadInto Core.zero) 0)) = true ∧ allFree (getCore (loadInto Core.zero) 0) = true) ∧ ldWord aLoad 8 = 0 ∧
    running (unloadFrom 0x10) aRef 0x21 = some (aCmd [0x21, 0, 0, 1, 1]) ∧ (namedCores 1 [1]) = [0] ∧ occupied (unloadFrom 0x10) 0 = true ∧
    partOf (unloadFrom 0x10) 0 = some 0 ∧ partOf (unloadFrom 0x11) 0 ≠ some 0 ∧ coreTaken (unloadFrom 0x10) 0 0 0 = false ∧
    tdiLocked (unloadFrom 0x10) 3 = false ∧ groveSounds (loadInto Core.zero) 0 = false ∧
    chanBlocked { loadInto Core.zero with cores := [(1, busyCore)] } [0] (1, 0) = true ∧
    (let b := wordBytes [BitVec.ofNat 64 (1 * 2 ^ 21), BitVec.ofNat 64 (2 ^ 55 + 8 * 2 ^ 36), 0, 0] ++ List.replicate 8 1
     let s := { commanding [0x12, 0] with cores := [(0, loaded)] }
     hostMsgFault s 0 ⟨b, [], [], [], false⟩ (hostHdr s 17 b) = none ∧ hdrFar s (hostHdr s 17 b) = none) := by
  and_intros <;> decide +kernel

/-! ### Collectives and checkpoint slots -/

/-- Words of a COLL_DEFINE of collective 2 over one device, its DONE object 6 of grove 0. -/
def collWords : List Word := [0x30, 0, 0, 0x0002000000000001, 6, 0, 0, 0]

/-- A device of DID 9 whose function 0 runs a command, with the objects of a local phase and of DONE in grove 0. -/
def collecting (ws : List Word) (cs : List Coll) (v : Nat) : State :=
  { commanding ws with
    did := 0x8000000000000009, groves := [(0, { aGrove with objs := [(5, anObj 1 1 v), (6, anObj 1 1 0)] })]
    host := { (commanding ws).host with colls := cs } }

/-- A collective of one device. -/
def aColl (ready : Bool) : Coll := ⟨0, 2, 0, redImage, [9], 6, 0, [0], ready, 0, none, 0, 0⟩

theorem test_coll_define : ends (exec (.collDefine aRef ⟨redImage, [9]⟩) (collecting collWords [] 0)) (fun t =>
    t.host.colls == [aColl false] && (getFn t 0).cmds.map HostCmd.fin == [some (sOK, 2)]) = true := by decide +kernel
theorem test_coll_delete : ends (exec (.collDelete aRef) (collecting [0x31, 0, 0, 0x0002000000000000] [aColl false] 0)) (fun t => t.host.colls.isEmpty) = true := by
  decide +kernel
theorem witness_Collectives :
    running (collecting collWords [] 0) aRef 0x30 = some (aCmd collWords) ∧ collFault (collecting collWords [] 0) (aColl false) 1 = none ∧
    collFault (collecting collWords [aColl false] 0) (aColl false) 1 = some sPERM ∧
    running (collecting [0x31, 0, 0, 0x0002000000000000] [] 0) aRef 0x31 = some (aCmd [0x31, 0, 0, 0x0002000000000000]) ∧
    collOf (collecting [0x31, 0, 0, 0x0002000000000000] [aColl false] 0) 0 2 = some (aColl false) ∧
    phaseDone (collecting [] [aColl false] 0) (aColl false) = false ∧ phaseDone (collecting [] [aColl true] 0) (aColl true) = true ∧
    peers (collecting [] [aColl true] 0) (aColl true) = [] ∧ (aColl true).acks = 0 ∧ (aColl true).kind = 0 ∧
    peers (collecting [] [{ aColl true with dids := [9, 8] }] 0) { aColl true with dids := [9, 8] } = [8] ∧
    peerGone (collecting [] [] 0) (aColl true) ⟨[]⟩ 8 = none ∧ peerGone (collecting [] [] 0) (aColl true) ⟨[(8, none)]⟩ 8 = some true ∧
    peerGone (collecting [] [] 0) (aColl true) ⟨[(8, some ([], [], []))]⟩ 8 = some false ∧ (aColl true).acks = 0 := by
  and_intros <;> decide +kernel
/-- A BROADCAST, whose phase is its object's. -/
theorem witness_Broadcast : phaseDone (collecting [] [] 0x100000000) { aColl false with kind := 2 } = true ∧
    phaseDone (collecting [] [] 0) { aColl false with kind := 2 } = false := by
  and_intros <;> decide +kernel

/-- Words of a CKPT_ATTACH of slot 4: a CQ and an SQ of 8, blocks of 512 bytes. -/
def slotWords : List Word := [0x38, 0x10000, 0x20000, 0x0001000700000000, 0x0000020000001000, 4, 0, 0]

/-- A command with a piece outstanding at an NVMe slot. -/
def pieceCmd : HostCmd := { aCmd [0x3A, 0, 512, 0, 0, 4] with begun := true, nv := [⟨0, 0, 0, 512, 0, false, none⟩], nvNext := 512 }

/-- Slot 4 attached, with that command. -/
def attached (c : HostCmd) (t : Nat) : State :=
  { hosting { commandFn c with slots := [(4, some ⟨slotWords, 1, 0, 1, true⟩)] } with pace := { Pace.zero with ticks := t } }

theorem test_attach : ends (exec (.ckptAttach aRef) (commanding slotWords)) (fun t => slotOf t 0 4 == some ⟨slotWords, 0, 0, 0, true⟩) = true := by decide +kernel
theorem test_nvme : ends (exec (.nvmeCompletion 0 4 0 0 []) (attached pieceCmd 0)) (fun t => (getFn t 0).cmds.map HostCmd.fin == [some (sOK, 512)]) = true := by
  decide +kernel
theorem witness_Checkpoints :
    running (commanding slotWords) aRef 0x38 = some (aCmd slotWords) ∧ fld (slotWords.getD 3 0) 32 12 ≠ 0 ∧ slotOf (commanding slotWords) 0 4 = none ∧
    running (attached (aCmd slotWords) 0) aRef 0x38 = some (aCmd slotWords) ∧ (slotOf (attached (aCmd slotWords) 0) 0 4).isSome ∧
    running (attached (aCmd [0x39, 0, 0, 0, 0, 4]) 0) aRef 0x39 = some (aCmd [0x39, 0, 0, 0, 0, 4]) ∧
    running (commanding [0x39, 0, 0, 0, 0, 4]) aRef 0x39 = some (aCmd [0x39, 0, 0, 0, 0, 4]) ∧
    running (attached (aCmd [0x3A, 0, 512, 0, 0, 4]) 0) aRef 0x3A = some (aCmd [0x3A, 0, 512, 0, 0, 4]) ∧
    running (attached (aCmd [0x3B, 0, 0, 0, 0, 4]) 0) aRef 0x3B = some (aCmd [0x3B, 0, 0, 0, 0, 4]) ∧
    ckLen (aCmd [0x3A, 0, 511, 0, 0, 4]) % slotLba ⟨slotWords, 0, 0, 0, true⟩ ≠ 0 ∧ (aCmd [0x3A]).begun = false ∧
    nvmeOf (attached pieceCmd 0) 0 4 0 = some (pieceCmd, ⟨0, 0, 0, 512, 0, false, none⟩) ∧ ckLen pieceCmd = 512 ∧ cmdFua pieceCmd.words = false ∧
    0 + 5000001 ≤ now (attached pieceCmd 5000001) ∧ now (attached pieceCmd 5000000) < 0 + 5000001 := by
  and_intros <;> decide +kernel
/-- A transfer of 512 bytes to slot 4 from the range of partition 0. -/
theorem witness_CheckpointPiece :
    (let c := aCmd [0x3A, 0x8000000000000000, 512, 0, 0, 4]
     let s := { attached c 0 with hbm := windowed.hbm }
     running s aRef 0x3A = some c ∧ ckFault s 0 c = none ∧ ckLen c ≤ slotMax ⟨slotWords, 1, 0, 1, true⟩ ∧
     outstanding s 0 (ckSlot c) + 1 < slotSize ⟨slotWords, 1, 0, 1, true⟩ ∧ pieceBad s 0 c 0 512 = false ∧
     c.nv = [] ∧ c.nvNext = 0 ∧ c.nvBad = none ∧ (∀ d ∈ (getFn s 0).cmds, d.seq = c.seq → d = c)) := by
  and_intros <;> decide +kernel

/-! ### Telemetry, the link and its security -/

/-- Words of a TELEM: a ring of 64 KiB, every 1,000 us, kinds 1 to 3. -/
def telemWords : List Word := [0x40, 0x50010, 1000, 0xE]

/-- A telemetry ring that is due at a tick. -/
def telling (ivl due t : Nat) : State :=
  { State.reset with host := { HostSide.zero with telem := ⟨0x50000, 16, ivl, 0xE, 0, due, []⟩ }, pace := { Pace.zero with ticks := t } }

theorem test_telem : ends (exec (.telem aRef) (commanding telemWords)) (fun t => t.host.telem.log2 == 16 && t.host.telem.due == 1001) = true := by decide +kernel
theorem test_pcie_reset : ends (exec (.pcieReset .perstLow) paired) (fun t => !t.host.link.up && (getFn t 0).pairs.isEmpty && !t.pins.perstN) = true := by
  decide +kernel
theorem witness_TelemetryAndLink :
    running (commanding telemWords) aRef 0x40 = some (aCmd telemWords) ∧ (telling 0 0 0).host.telem.ivl = 0 ∧ now (telling 1000 5 4) < 5 ∧
    (telling 1000 5 5).host.telem.ivl ≠ 0 ∧ 5 ≤ now (telling 1000 5 5) ∧ fnServes (telling 1000 5 5) 0 = false ∧
    serving.cruise.ready = true ∧ ({ serving with pins := { serving.pins with perstN := true } } : State).pins.perstN = true ∧
    State.reset.cruise.ready = false ∧ (∀ n, n < 16 → tdiLocked paired n = false) ∧ linkFits 64 16 aCfg = true ∧
    linkFits 64 16 { aCfg with flit := false } = false ∧ linkFits 8 16 aCfg = false ∧
    ([1, 2, 3] : List Nat).filter (fun k => ({ (telling 1000 5 5).host.telem with mask := 2 } : Telem).mask.getLsbD k) = [1] ∧
    (let s := { serving with host := { serving.host with telem := ⟨0x50000, 16, 1000, 2, 0, 5, []⟩ }, pace := { Pace.zero with ticks := 5 } }
     fnServes s 0 = true ∧ 0 + 8 * (telemRecord s 1).length < 2 ^ 16 ∧ 5 ≤ now s) := by
  and_intros <;> decide +kernel

/-- A device in a life-cycle state, with VF 4 in a TDI state and secured session 1. -/
def securing (l : Life) (x : Tdi) : State :=
  { serving with
    sec := { Sec.zero with life := l }
    host := { serving.host with fns := [(4, { Fn.zero with tdi := x })], sess := [⟨1, .doe, 0, [], none⟩], ide := [(2, ⟨1, List.replicate 32 5, []⟩)] } }

theorem test_key_exchange : ends (exec (.keyExchange .doe (.keyExchange 0 none) true) (securing .deployed .unlocked)) (fun t => t.host.nsess == 1) = true := by decide +kernel
theorem test_interface_start : ends (exec (.startInterface 3) (securing .deployed .locked)) (fun t => tdiOf t 3 == .run) = true := by decide +kernel
theorem witness_LinkSecurity :
    attests (securing .deployed .unlocked).sec.life = true ∧ (securing .deployed .unlocked).sec.trngOk = true ∧ fnServes (securing .deployed .unlocked) 0 = true ∧
    attests (securing .retired .unlocked).sec.life = false ∧ (8 ≤ (15#8).toNat ∧ (15#8).toNat < 16) ∧ (16 ≤ (19#8).toNat ∧ (19#8).toNat < 32) ∧
    tdiLocked (securing .deployed .run) 3 = true ∧ tdiLocked (securing .deployed .unlocked) 3 = false ∧
    hasSession (securing .deployed .unlocked) (some 1) = true ∧ hasSession (securing .deployed .unlocked) none = false ∧
    (getIde (securing .deployed .unlocked) 2).st = 1 ∧ (securing .deployed .unlocked).sec.life = .deployed ∧
    tdiOf (securing .deployed .unlocked) 3 = .unlocked ∧ tdiOf (securing .deployed .locked) 3 = .locked ∧ tdiOf (securing .deployed .run) 3 ≠ .locked ∧
    ideFits 2 (List.replicate 32 7) [(0x1000, 0x2000), (3, 4)] = true ∧ ideFits 0 (List.replicate 32 7) [] = true ∧
    ideFits 0 (List.replicate 32 7) [(0, 0)] = false ∧ (securing .retired .unlocked).sec.life = .retired ∧
    (securing .deployed .unlocked).sec.chain = [] ∧ serving.host.link.up = true := by
  and_intros <;> decide +kernel

/-! ### Life cycle and live service -/

/-- The bytes of a short token of one command. -/
def shortToken (c : Byte) : List Byte := [0x42, 0x52, 0x56, 0x54, c]

/-- A device whose running image has SVN 2 and whose fused SVN is 1. -/
def committing : State := { serving with sec := { Sec.zero with svnFused := 1, svnRun := 2 } }

theorem test_token_short : ends (exec (.deploy (.mctp (shortToken 1))) serving) (fun t => t.sec.result == sRSVD && t.sec.rejected == 1 && t.sec.life == .provisioned) = true := by
  decide +kernel
theorem test_commit : ends (exec (.commit (lk 2)) committing) (fun t => t.sec.svnFused == 2) = true := by decide +kernel
theorem witness_LifeCycle :
    lookoutUp serving = true ∧ serving.sec.busy = false ∧ tokStatus serving (shortToken 1) ≠ sOK ∧ tokCmd (shortToken 4) = 4 ∧ mayCommit committing = true ∧
    mayCommit serving = false ∧ serving.sec.recovery = false ∧ cmdsInFlight serving = false ∧ cmdsInFlight (commanding []) = true ∧
    ({ commanding [] with sec := { Sec.zero with sanAt := 1, pending := some 4 } } : State).sec.sanAt = 1 ∧ (halfBits .full 1).getLsbD 1 = false ∧
    fld (halfBits .full 1) 0 2 = 1 ∧ (∀ d, (getGrove serving d).waiters = []) ∧ Sec.zero.life ≠ .deployed := by
  and_intros <;> decide +kernel
/-- A token without a reserved value that the Warden permits passes: whether one does rests on the device's identity and on
a signature, which the model leaves free (log entry 5, DESIGN CHOICE). -/
theorem witness_LifeCycle_passed (s : State) (bs : List Byte) (h : tokReserved bs = false) (p : tokPermitted s bs = true) (n : s.sec.entries < 32) :
    tokStatus s bs = sOK := by
  simp [tokStatus, h, p, Nat.not_le.mpr n]

/-- A device with a second image that boots, and what is left of a handoff or of a roll. -/
def living (v : Live) (t : Nat) : State :=
  { serving with sec := { Sec.zero with slotB := Sec.zero.slotA }, live := v, pace := { Pace.zero with ticks := t }, groves := [(0, aGrove)] }

/-- The activation request of the versions in force. -/
def anActivation : ActivateIn := ⟨true, Live.zero.fn, Live.zero.red⟩

/-- A handoff from slot A. -/
def aHandoff : Handoff := ⟨0, false, 0, [1], [2], 0, 0, [], [], false⟩

theorem test_activate : ends (exec (.activateFirmware anActivation) (living Live.zero 0)) (fun t => t.sec.run && gapOpen t && t.live.answers.isEmpty) = true := by decide +kernel
theorem test_fallback : ends (exec (.handoffFallback true) (living { Live.zero with last := some aHandoff } 40000))
    (fun t => t.live.answers == [(sINTERNAL, 0)] && t.sec.meas3 == [1] && t.errs.reports.length == 1) = true := by decide +kernel
theorem test_gap_ends : (activationStep (living { Live.zero with last := some aHandoff } 50000)).live.answers = [(sOK, 50)] := by decide +kernel
theorem witness_LiveService :
    (3 ≤ (living Live.zero 0).cruise.phase.toNat ∧ gapOpen (living { Live.zero with last := some aHandoff } 0) = true ∧ gapOpen (living Live.zero 0) = false ∧
      (living Live.zero 0).live.waiting = [] ∧ (living { Live.zero with waiting := [(anActivation, 0)] } 0).live.waiting ≠ []) ∧
    activateRefused (living Live.zero 0) { anActivation with selfContained := false } = true ∧ activateRefused (living Live.zero 0) anActivation = false ∧
    exchanging (living Live.zero 0) = false ∧ exchanging (collecting [] [{ aColl true with dids := [9, 8] }] 0) = true ∧
    procedureRuns (living Live.zero 0) = false ∧
    (let s := living { Live.zero with roll := [0] } 0
     procedureRuns s = true ∧ activateRefused s anActivation = false) ∧
    (aHandoff.down = false ∧ 0 + 50000 ≤ now (living Live.zero 50000) ∧ now (living Live.zero 49999) < 0 + 50000 ∧ { aHandoff with down := true }.down = true) ∧
    (let s := { collecting [] [{ aColl true with dids := [9, 8] }] 0 with live := { Live.zero with waiting := [(anActivation, 0)] }, pace := { Pace.zero with ticks := 100001 } }
     s.live.waiting = (anActivation, 0) :: [] ∧ exchanging s = true ∧ 0 + 100001 ≤ now s ∧ now { s with pace := Pace.zero } < 0 + 100001) ∧
    (living Live.zero 0).live.last = none ∧ (living { Live.zero with last := some aHandoff } 0).live.last = some aHandoff ∧
    now (living Live.zero 39999) < aHandoff.tick + 40000 ∧ aHandoff.tick + 40000 ≤ now (living Live.zero 40000) ∧
    (let s := living { Live.zero with roll := [0] } 0
     s.live.roll.head? = some 0 ∧ rollDeferred s 0 = false ∧ gapOpen s = false ∧ s.live.freed = [] ∧ s.check.sweeps = [] ∧ rollSeats s 0 = [0, 1, 2] ∧
     (∀ l ∈ rollSeats s 0, quietCore (getCore s l) = true ∧ allFree (getCore s l) = true) ∧ (getCore s 0).sp.bad = []) ∧
    Live.zero.roll.head? ≠ some (0 : Dg) ∧
    rollDeferred { living { Live.zero with roll := [0] } 0 with cores := [(1, { Core.zero with recHold := true })] } 0 = true := by
  and_intros <;> decide +kernel
/-- A roll of grove 0 while core 1 there, with no program, has an operation of its Mill under way. -/
theorem witness_LiveService_busy :
    (let s := { living { Live.zero with roll := [0] } 0 with cores := [(1, { (getCore (vecing (aNeg 1) []) 0) with role := 0 })] }
     let u := (rollSeats s 0).foldl freeSeat { s with live := { s.live with freed := s.live.freed ++ (rollSeats s 0).flatMap (serviceCtxs s), rolling := true } }
     s.live.roll.head? = some 0 ∧ rollDeferred s 0 = false ∧ (1 : Lcid) ∈ rollSeats s 0 ∧ quietCore (getCore u 1) = false) := by
  decide +kernel

/-! ### Dormant and checking -/

/-- A fault-manager command of token 5, in SPDM session 1. -/
def order (opc : Nat) (args : List Word) : Mgmt := ⟨5, BitVec.ofNat 64 (opc * 2 ^ 56 + 8 * args.length * 2 ^ 32), args, some 1⟩

/-- A device that serves, with SPDM session 1. -/
def secured : State := { serving with host := { serving.host with sess := [⟨1, .doe, 0, [], none⟩] } }

/-- A device in a Dormant state. -/
def sleeping (d : DormSt) (due : Option Nat) (t : Nat) : State :=
  { serving with dorm := { Dorm.zero with st := d, dueTick := due }, pace := { Pace.zero with ticks := t }, groves := [(0, aGrove)] }

theorem test_dormant_refused : ends (exec (.dormant (.reg (lk 0x8000000200000000))) State.reset) (fun t => t.dorm.refusal == sPERM && t.dorm.st == .active) = true := by
  decide +kernel
theorem test_timer_wakes : ends (exec .dormantTimerExpiry (sleeping .dormant (some 7) 7)) (fun t => t.dorm.st == .waking && t.pins.wake) = true := by decide +kernel
theorem witness_DormantState :
    State.reset.dorm.st = .active ∧ dormFault State.reset = some sPERM ∧ (0x8000000200000000#64).getLsbD 63 = true ∧ (0x8000000200000000#64).getLsbD 33 = true ∧
    (sleeping .waking none 0).dorm.st ≠ .active ∧ allQuiet { sleeping .entering none 0 with cores := (vecing (aNeg 1) []).cores } = false ∧
    (sleeping .entering none 0).dorm.reqTick + 100001 ≤ now (sleeping .entering none 100001) ∧ (sleeping .dormant (some 7) 7).dorm.wakeEn.getLsbD 3 = true ∧
    7 ≤ now (sleeping .dormant (some 7) 7) ∧ now (sleeping .dormant (some 7) 6) < 7 ∧ asleep (sleeping .dormant none 0) = true ∧
    (let s := { sleeping .entering none 0 with cruise := { Cruise.zero with ready := true } }
     dormFault s = none ∧ (∀ f, f < 17 → (getFn s f).cmds = []) ∧ allQuiet (holdAllCores s) = true) ∧
    (let s := { State.reset with cruise := { Cruise.zero with ready := true } }
     s.dorm.st = .active ∧ dormFault s = none) ∧
    (accepted { secured with dorm := Dorm.zero } (order 0x0B [0, 2]) 0x0B (dormArgsBad [0, 2])) ∧ dormFault { secured with cruise := { secured.cruise with ready := false } } = some sPERM ∧
    (sleeping .dormant (some 7) 7).dorm.st = .dormant ∧ (sleeping .dormant (some 7) 7).dorm.dueTick = some 7 ∧ ({ Dorm.zero with wakeEn := 0x7 } : Dorm).wakeEn.getLsbD 3 = false ∧
    (sleeping .waking none 0).dorm.slept = false ∧ ({ (sleeping .waking none 0).dorm with slept := true, held := [0] } : Dorm).slept = true ∧
    (let s := { commanding telemWords with dorm := { Dorm.zero with st := .entering } }
     dormFault s = none ∧ (getFn s 0).cmds ≠ []) := by
  and_intros <;> decide +kernel

/-- A position's unit: the PSID of a site. -/
def aUnit : BitVec 24 := unitOf (psidOf 0 0 0 0)

/-- A known-answer run of family 7 that ends with the signature expected. -/
def goodRun : KernelRun := ⟨aUnit, 0x0700, [Config.kakExpected [] 0x0700 State.reset.part.stepping], true, [], true, []⟩

/-- A device that checks its units in the background. -/
def sweeping : State := { secured with check := { Check.zero with period := 1000 }, groves := [(0, aGrove)] }

/-- A checking hold on core 0 since tick 0, its position at work. -/
def aHold : CheckHold := ⟨[0], aUnit, 5, 0, ⟨[], [], []⟩⟩

/-- The device with that hold. -/
def heldCheck (t : Nat) : State :=
  { vecing (aNeg 1) [] with check := { Check.zero with hold := [aHold] }, pace := { Pace.zero with ticks := t } }

/-- Core 0 with a twin at site 4. -/
def twinned : State := { sweeping with groves := [(0, { aGrove with twinOf := [(0, 5)] })] }

/-- The pair of core 0. -/
def aPairOfSites : BitVec 24 × BitVec 24 := (psidOf 0 0 7 0xFF, psidOf 0 4 7 0xFF)

/-- A scheduled sweep of the spare site 3 since tick 0, in core 0's slice. -/
def aSweep : Sweep := ⟨unitOf (psidOf 0 3 7 0xFF), some 0, none, 0, []⟩

/-- The device with that sweep at a tick. -/
def swept (t : Nat) : State :=
  { sweeping with check := { sweeping.check with sweeps := [aSweep] }, pace := { Pace.zero with ticks := t } }

theorem test_check_hold : ends (exec (.checkingHoldTimeout 0) (heldCheck 100001)) (fun t => t.check.hold.isEmpty) = true := by decide +kernel
theorem test_twin : ends (exec (.twinMismatch 0 []) twinned) (fun t => t.check.twins == 1) = true := by decide +kernel
theorem test_sweep_begins : ends (exec (.kakSweep aUnit []) sweeping) (fun t => t.check.sweeps.length == 1 && t.check.runs == 0) = true := by decide +kernel
theorem test_sweep_ends : (sweepStep (swept (sweepSpan (swept 0) aSweep))).check.runs = 1 := by decide +kernel
theorem witness_Checking :
    sweeping.check.hold = [] ∧ firstThat (fun (h : CheckHold) => h.psid == aUnit && holdQuiet { sweeping with check := { sweeping.check with hold := [aHold] } } h) [aHold] = some aHold ∧
    ({ Check.zero with owed := [aUnit] } : Check).owed.contains (unitOf aUnit) = true ∧ Check.zero.owed.contains (unitOf aUnit) = false ∧
    ({ serving.check with period := 0 } : Check).period = 0 ∧ (sweeping.check.period ≠ 0 ∧ dormBusy sweeping = false ∧ gapOpen sweeping = false ∧
      underSweep sweeping (unitOf aUnit) = false ∧ unitIdle sweeping (unitOf aUnit) = true ∧ unitIdle sweeping aUnit = true) ∧
    isSite aUnit = true ∧ unitOf goodRun.psid = aUnit ∧ sweepSeat sweeping aUnit = some 0 ∧
    ((swept 0).check.sweeps = [aSweep] ∧ (swept 0).check.waits = [] ∧ (swept 0).check.starts = [] ∧ now (swept 0) < aSweep.tick + sweepSpan (swept 0) aSweep ∧
      (let s := swept (sweepSpan (swept 0) aSweep)
       aSweep.tick + sweepSpan s aSweep ≤ now s) ∧ isSite aSweep.psid = true ∧ aSweep.psid = unitOf aSweep.psid ∧ aSweep.held = none ∧
      (tget Site.zero (getGrove (swept 0) (psidDg aSweep.psid)).sites (psidSite aSweep.psid)).blazed = false ∧ (getCore (swept 0) 0).sp.bad = []) ∧
    (let m := order 5 [0, aUnit.setWidth 64]
     accepted sweeping m 5 (checkBad m.args) ∧ accepted (swept 0) m 5 (checkBad m.args) ∧ checkGone (opened sweeping m 5) 0 aUnit = false ∧
     checkPerm (opened sweeping m 5) 0 0 aUnit = false ∧ checkSwept (opened sweeping m 5) 0 aUnit = false ∧ checkSeats (opened sweeping m 5) 0 aUnit = [] ∧
     checkSwept (opened (swept 0) m 5) 0 aSweep.psid = true ∧ checkPerm (opened (swept 0) m 5) 0 0 aSweep.psid = false ∧ checkGone (opened (swept 0) m 5) 0 aSweep.psid = false ∧
     checkGone (opened { sweeping with groves := [(0, { aGrove with fused := true })] } m 5) 0 aUnit = true) ∧
    (let m := order 5 [1, aUnit.setWidth 64]
     let x : Sound := ⟨0, aUnit, 5, 0, [], true, [], []⟩
     accepted sweeping m 5 (checkBad m.args) ∧ checkPerm (opened { sweeping with cores := [(0, loaded)] } m 5) 1 0 aUnit = true ∧
     checkPerm (opened { sweeping with sec := { Sec.zero with life := .provisioned } } m 5) 1 0 aUnit = false ∧ soundWaits sweeping x = false ∧
     soundWaits { sweeping with check := { Check.zero with sounding := [{ x with step := 4 }] } } x = true) ∧
    checkSeats { sweeping with cores := [(0, busyCore)] } 0 aUnit = [0] ∧ quietCore (recoveryHold (getCore (vecing (aNeg 1) []) 0)) = false ∧
    ((heldCheck 0).check.hold = [aHold] ∧ aHold.lcids.head? = some 0 ∧ holdQuiet (heldCheck 0) aHold = false ∧
      now (heldCheck 100000) < aHold.tick + 100001 ∧ aHold.tick + 100001 ≤ now (heldCheck 100001)) ∧
    (asleep twinned = false ∧ twinSite sweeping 0 = none ∧ twinSite twinned 0 = some 4 ∧ occupied twinned 0 = true ∧ siteNo twinned 0 = 0 ∧ twinned.check.odd = [] ∧
      (aPairOfSites, 0).1 = (psidOf (dgOf 0) (siteNo twinned 0) 7 0xFF, psidOf (dgOf 0) 4 7 0xFF) ∧ now twinned < (aPairOfSites, 0).2 + hour) := by
  unfold accepted; and_intros <;> decide +kernel
theorem witness_Checking_passed : kernFails sweeping goodRun = false ∧ goodRun.accs = [] := by
  have h : kernFam goodRun.kernel = 7 := by decide +kernel
  have p : sweeping.part.stepping = State.reset.part.stepping := by decide +kernel
  have k : kernelSet sweeping (psidDg goodRun.psid) = [] := by decide +kernel
  refine ⟨?_, rfl⟩
  simp [kernFails, attemptFails, kernSig, h, p, k]
  simp [goodRun]

/-! ### The fault manager's commands -/

/-- A device whose token table holds one entry. -/
def tokened (opc : BitVec 8) (g : Word) (d : Option MgmtResp) : State :=
  { secured with errs := { Errs.zero with tokens := [⟨5, opc, g, d, 0, [], false, false⟩] } }

/-- RELEASE, and its answer. -/
def aRelease : Mgmt := order 0x0A []
def released : MgmtResp := ⟨5, sOK, 0, [], mgmtDigest aRelease⟩

theorem test_repeat : ends (exec (.mgmtRelease aRelease) (tokened 0x0A (mgmtDigest aRelease) (some released))) (fun t => t.errs.answers.map MgmtResp.state == [2]) = true := by
  decide +kernel
theorem test_no_token : ends (exec (.mgmtRelease { aRelease with step := 0 }) secured) (fun t => t.errs.answers.map MgmtResp.status == [sRSVD]) = true := by decide +kernel
theorem test_no_session : ends (exec (.mgmtRelease aRelease) serving) (fun t => t.errs.answers.map MgmtResp.status == [sPERM]) = true := by decide +kernel
theorem witness_ManagementTokens :
    lookoutUp State.reset = false ∧ lookoutUp secured = true ∧ mgmtOpc aRelease = 0x0A ∧ mgmtOpc (order 1 []) ≠ 0x0A ∧ mgmtRsvd aRelease = false ∧
    mgmtRsvd { aRelease with head := 1 } = true ∧ aRelease.step ≠ 0 ∧ { aRelease with step := 0 }.step = 0 ∧ hasSession serving aRelease.sess = false ∧ hasSession secured aRelease.sess = true ∧
    assignBad [] = true ∧ assignBad (List.replicate 17 0) = false ∧ checkBad [0, aUnit.setWidth 64] = false ∧ resetBad [1, 0] = false ∧ dormArgsBad [0, 2] = false ∧
    firstThat (fun (t : Token) => t.step == aRelease.step) (freshTokens (tokened 0x0A 0 none)) = some ⟨5, 0x0A, 0, none, 0, [], false, false⟩ ∧
    (0x0B : BitVec 8) ≠ BitVec.ofNat 8 0x0A ∧ mgmtOpc (order 0x0D []) = (0x0D : BitVec 8).toNat ∧ 13 ≤ (0x0D : BitVec 8).toNat := by
  and_intros <;> decide +kernel

/-- The operand of a RESET that reads nothing back. -/
def noCruise : CruiseIn := ⟨[], 0, true, [], [], [], [], [], [], [], 0, []⟩

/-- A device in service with three records of Stand 0, port 1 up, and SPDM session 1. -/
def managed : State := { porting upPort with cruise := serving.cruise, host := secured.host, errs := { Errs.zero with combs := [(0, { Comb.zero with tail := 3 })] }, groves := [(0, aGrove)] }

theorem test_ack : ends (exec (.mgmtAck (order 2 [0, 2])) managed) (fun t => (getComb t 0).head == 2 && t.errs.answers.map MgmtResp.status == [sOK]) = true := by decide +kernel
theorem test_reset_vacant : ends (exec (.mgmtReset (order 6 [1, 5]) noCruise) managed) (fun t => t.errs.answers.map MgmtResp.status == [sVACANT]) = true := by decide +kernel
/-- READ_LOG from SEQ 0, of an entry that the die still holds. -/
theorem test_read_log : ends (exec (.mgmtReadLog { order 0x11 [0, 0, 1] with step := 0 }) { managed with errs := { Errs.zero with combs := [(0, { Comb.zero with die := [aRecord], tail := 1 })] } })
    (fun t => t.errs.answers.map (fun r => (r.status, r.words.length)) == [(sOK, 8)]) = true := by decide +kernel
theorem witness_ManagementCommands :
    (accepted managed (order 1 (0x8007 :: List.replicate 16 0)) 1 (assignBad (0x8007 :: List.replicate 16 0)) ∧ managed.cruise.ready = true ∧ managed.cruise.running = false) ∧
    (accepted managed (order 2 [0, 3]) 2 (([0, 3] : List Word).length != 2 || above 0 2 || above 3 32) ∧ managed.errs.cfg.getLsbD 32 = false ∧
      ({ managed.errs with cfg := 0x100000000 } : Errs).cfg.getLsbD 32 = true ∧
      headStep (getComb managed 0) 3 ≤ 3 - 0 ∧ 3 - 0 < headStep (getComb managed 0) 4 ∧ headStep (getComb managed 0) 4 < 2 ^ 31 ∧ 2 ^ 31 ≤ headStep (getComb managed 0) 0xFFFFFFFF) ∧
    (accepted managed (order 4 [5]) 4 (([5] : List Word).length != 1 || above 5 4) ∧ ({ upPort with st := 0 } : Port).st = 0 ∧ (getPort managed (5#64).toNat).st ≠ 0) ∧
    (accepted managed (order 7 [1, 0x80000007]) 7 (above 1 2 || ([0x80000007] : List Word).isEmpty || decide (64 < ([0x80000007] : List Word).length) || ([0x80000007] : List Word).any (rtWordBad (bit (1 : Word) 1))) ∧
      (0#64).getLsbD 0 = managed.gf.active ∧ (1#64).getLsbD 0 ≠ managed.gf.active ∧ ([0x80000007] : List Word).any (rtWordFused managed (bit (1 : Word) 1)) = false ∧
      rtWordFused { managed with gf := { managed.gf with ports := [(5, { upPort with st := 0 })] } } false (BitVec.ofNat 64 (2 ^ 31 + 5)) = true) ∧
    accepted managed (order 8 [0x8000000700000005]) 8 (decide (4 < ([0x8000000700000005] : List Word).length) || ([0x8000000700000005] : List Word).any holdBad) ∧
    accepted managed aRelease 0x0A (!aRelease.args.isEmpty) ∧ accepted managed (order 0x0C []) 0x0C (!([] : List Word).isEmpty) ∧
    (accepted managed (order 9 [1]) 9 (([1] : List Word).length != 1 || above 1 1) ∧ drainCount managed = 0 ∧
      drainCount { managed with gf := { managed.gf with holds := [(0, 0x8000000900000009)], egress := [(5, [aFPkt 9])] } } = 1) := by
  unfold accepted; and_intros <;> decide +kernel
theorem witness_ManagementCommands_units :
    (accepted managed (order 3 [0, aUnit.setWidth 64]) 3 (([0, aUnit.setWidth 64] : List Word).length != 2 || (0 : Word) != 0 || above (aUnit.setWidth 64) 24 || !canBlaze aUnit || aUnit != unitOf aUnit) ∧
      blazeGone managed aUnit = false ∧ blazeGone { managed with groves := [(0, { aGrove with fused := true })] } aUnit = true ∧ groveBusy managed 0 = false ∧
      groveServed managed (psidDg aUnit) = false ∧ groveServed { managed with pgrove := [(0, 0x8000000000000010)] } (psidDg aUnit) = true ∧
      groveBusy { managed with cores := [(1, { Core.zero with recHold := true })] } 0 = true ∧ psidDg aUnit = 0 ∧ isSite aUnit = true) ∧
    (accepted managed (order 6 [1, 0]) 6 (resetBad [1, 0]) ∧ standsAt managed 0 = true ∧ standsAt managed 5 = false ∧ resetLocked managed 1 0 = false ∧
      resetLocked { managed with pgrove := [(0, 0x10)], host := { managed.host with fns := [(1, { Fn.zero with tdi := .run })] } } 1 0 = true) ∧
    (accepted managed (order 6 [0, 0]) 6 (resetBad [0, 0]) ∧ (ctxOf managed 0 0).st = .free ∧ (ctxOf { managed with cores := [(0, busyCore)] } 0 0).st = .ready ∧
      resetGone managed 0 0 = false ∧ resetLocked managed 0 0 = false ∧ accepted managed (order 6 [2, 0]) 6 (resetBad [2, 0]) ∧ accepted managed (order 6 [3, 0]) 6 (resetBad [3, 0]) ∧
      accepted managed (order 6 [4, 0]) 6 (resetBad [4, 0]) ∧ resetGone managed 2 0 = false ∧ resetGone managed 3 0 = false ∧ (∀ d ∈ groves 0, groveBusy managed d = false)) ∧
    (lookoutUp managed = true ∧ mgmtRsvd (order 0x10 []) = false ∧ mgmtOpc (order 0x10 []) = 0x10 ∧ mgmtRsvd (order 0x11 [0, 0, 64]) = false ∧ mgmtOpc (order 0x11 [0, 0, 64]) = 0x11 ∧
      above 0 2 = false ∧ above 0 32 = false ∧ (64#64).toNat ≤ 64) := by
  unfold accepted; and_intros <;> decide +kernel

/-! ### Further clauses: twins, waits and what is lost -/

/-- The same device with site 4 as the twin of core 0. -/
def withTwin (s : State) : State := { s with groves := [(0, { aGrove with twinOf := [(0, 5)] })] }

theorem witness_Twins :
    (let s := withTwin (milling anMma)
     siteThere s 0 true = true ∧ siteThere (milling anMma) 0 true = false ∧ siteThere s 0 false = true ∧
     colWorks (tget Site.zero (getGrove s (dgOf 0)).sites (siteAt s 0 true)) 31 = true ∧ accRead s 0 0 31 = true ∧ (getCore s 0).eng.millq = [anMma]) ∧
    (let s := withTwin (vecing (aNeg 1) [])
     siteThere s 0 true = true ∧ laneWorks (tget Site.zero (getGrove s (dgOf 0)).sites (siteAt s 0 true)) 0 = true) ∧
    (saveReads { milling anMma with dorm := { Dorm.zero with st := .entering } } 0 0 = true ∧ asleep { milling anMma with dorm := { Dorm.zero with st := .entering } } = false) ∧
    (let s := withTwin (withCore busyCore)
     siteThere s 0 true = true ∧ occupied s 0 = true ∧ (ctxOf s 0 0).st ≠ .free ∧ effSt (ctxOf s 0 0) ≠ .faulted) := by
  and_intros <;> decide +kernel
/-- A bounce that reaches core 0 while no SEND of it is outstanding. -/
theorem witness_BounceOfLost :
    (let p : Pkt := { Pkt.blank with kind := 5 }
     let s := arrivedAt Core.zero p
     (takeAtPos s 0 5).isSome = true ∧ (match takeAtPos s 0 5 with | some (q, _, u) => (sentOf (getCore u 0) q (entryWords u q)).isNone | none => false) = true) := by
  decide +kernel
/-- The answer to a SACQ that is marked lost. -/
theorem witness_LostAnswer :
    (let k := syncing 5 false
     let lost := { k with un := { k.un with syncs := k.un.syncs.map fun o => { o with lost := true } } }
     let s := arrivedAt lost { Pkt.blank with kind := 7, tag := 9 }
     (takeArrived s 0 (fun p => p.kind == 7)).isSome = true ∧ (syncByTag (getCore s 0) 9).map (fun o => (o.lost, o.dead, o.op)) = some (true, false, 5)) := by
  decide +kernel
/-- A seal at the front of core 0's queue that would succeed, one that would not, and one under way. -/
theorem witness_BeginSeal :
    sealStatus (withCore (branding 1 [⟨0, 0x10000, .seal 9 7 none⟩])) 0 0x10000 = sOK ∧ sealStatus (withCore { branding 1 [⟨0, 0x10000, .seal 9 7 none⟩] with ring := { (branding 1 []).ring with gen := 1 } }) 0 0x10000 ≠ sOK ∧
    (getCore (withCore (branding 1 [⟨0, 0x10000, .seal 9 7 none⟩])) 0).eng.brandq = [⟨0, 0x10000, .seal 9 7 none⟩] ∧
    ((poisonAt (branding 2 []).sp 0x10000 128).isSome || (partFail (branding 2 []).sp (0x10000 + 128) 336).isSome) = false := by
  and_intros <;> decide +kernel
theorem witness_BegunSeal : ∀ tag cq, (⟨0, 0x10000, .seal 9 7 (some [])⟩ : BrandOp).work ≠ .seal tag cq none := by simp
theorem witness_SweptStart : sweptPos (swept 0) 0 = true ∧ sweptPos sweeping 0 = false ∧ cmdOk (getCore (swept 0) 0) 4 0 = true := by decide +kernel
/-- Grove 0 under its roll, and a move of it that waits. -/
theorem witness_GroveMoves :
    (let s := { living { Live.zero with roll := [0], rolling := true } 0 with pgrove := [(0, 0x10)] }
     groveServed s 0 = true ∧ (pgroveWord s 0).getLsbD 63 = false ∧ (pgroveWord s 0).getLsbD 4 = true) ∧
    (living { Live.zero with moves := [(0, lk 0)] } 0).live.moves.any (fun m => m.1 == (0 : Dg)) = true := by
  decide +kernel
theorem witness_Recalibrations :
    gapOpen (powered 4 0) = false ∧ recalWaits (powered 4 0) 0 = false ∧
    (let s := { powered 4 0 with pace := { Pace.zero with recalBusy := true, recalLeft := [0] }, pgrove := (below 256).map fun d => (d, 0x8000000000000000) }
     recalWaits s 0 = true ∧ regionsOn s = true ∧ gapOpen s = false) := by
  and_intros <;> decide +kernel
/-- A tick in the gap of a handoff, and the sign of a correction. -/
theorem witness_TickAndSign :
    timeRuns { powered 9 0 with live := { Live.zero with last := some aHandoff } } = true ∧ gapOpen { powered 9 0 with live := { Live.zero with last := some aHandoff } } = true ∧
    (-(5 : Int).sign) = -1 := by
  and_intros <;> decide +kernel
/-- A packet beside the switch, one that an earlier SYNC_OP of its flow keeps back, and the store with one in front. -/
theorem witness_FabricWaits :
    ({ (switching (aFPkt 9)).gf with moved := [aFPkt 9] } : Gf).moved.any (fun q => flowOf q == flowOf (aFPkt 9)) = true ∧
    early (switching (aFPkt 7)) (aFPkt 7) = false ∧
    (let p := { aFPkt 7 with kind := 6, seq := 2 }
     early { switching p with gf := { (switching p).gf with inbox := [(5, [p]), (4, [{ p with seq := 1 }])] } } p = true) ∧
    ({ (switching (aFPkt 9)).gf with stored := [aFPkt 9] } : Gf).moved = [] := by
  and_intros <;> decide +kernel
/-- A doorbell's page read by a function that does not serve; a fetch in the gap of a handoff. -/
theorem witness_GapsAndPages : bar2Read State.reset 0 0x800 = none ∧ fnServes State.reset 0 = false ∧
    gapOpen { paired with live := { Live.zero with last := some aHandoff } } = true ∧ dormBusy paired = false ∧ gapOpen paired = false ∧
    inTurn (logged [siteRecord 0 5] []) (siteRecord 0 5) = true ∧ gapOpen (logged [siteRecord 0 5] []) = false ∧
    gapOpen { logged [siteRecord 0 5] [] with live := { Live.zero with last := some aHandoff } } = true := by
  and_intros <;> decide +kernel
theorem witness_WindowWaking :
    (let s := { windowed with dorm := { Dorm.zero with st := .waking } }
     fnServes s 0 = true ∧ asleep s = true ∧ s.dorm.st = .waking) := by
  decide +kernel
theorem test_window_poison : ends (exec (.hostWindowWrite 0 0 ⟨List.replicate 64 5, true⟩) windowed) (fun t => !t.host.link.aer.isEmpty) = true := by decide +kernel
/-- A LOAD whose image ends in part of a chunk that is poisoned. -/
theorem witness_LoadPoison :
    (let s := loadInto (mem [] [0])
     loadPoison aLoad (quiesce (getCore s 0)) = true ∧ loadFault s 0 0 0 aLoad = none ∧ quietCore (quiesce (getCore s 0)) = true ∧ groveSounds s (dgOf 0) = false ∧
     sweptPos s 0 = false ∧ running s aRef 0x20 = some (aCmd [0x20, 0, 0])) := by
  decide +kernel
theorem witness_OwnerSession :
    (let s := { securing .deployed .run with host := { (securing .deployed .run).host with sess := [⟨1, .doe, 0, [], some 3⟩] } }
     ownerSession s 3 (some 1) = true ∧ ownerSession (securing .deployed .run) 3 (some 1) = false ∧ (measValue s 19).isSome = true ∧ tdiLocked s (19 - 16) = true) := by
  decide +kernel

end Sys2Proof.Tests
end

section
/-! PROOFS. What MCLAIM and MREL do to the Mill's resources (R107, R108). The model keeps the descriptors and the accumulators in
three tables each and folds over the eight indices; here one resource is read out of its tables (`tdRes`, `accRes`), and each fold
is an operation on that resource alone, the same for both kinds. -/

namespace Sys2Proof.Machine

/-! ### One resource -/

/-- A descriptor or an accumulator: the context that holds it, its pending release, and what it holds. -/
structure Resource (α : Type) where
  owner   : Option CtxNo
  release : Nat
  content : α

/-- Descriptor `i` as the tables of the engines hold it. -/
def tdRes (e : Engines) (i : Nat) : Resource TileDesc :=
  ⟨tget none e.tdOwner i, tget 0 e.relTd i, tget TileDesc.zero e.td i⟩

/-- Accumulator `i` as the tables of the engines hold it. -/
def accRes (e : Engines) (i : Nat) : Resource (Tbl AccRow) :=
  ⟨tget none e.accOwner i, tget 0 e.relAcc i, tget [] e.acc i⟩

@[simp] theorem tdRes_owner (e : Engines) (i : Nat) : (tdRes e i).owner = tget none e.tdOwner i := rfl
@[simp] theorem tdRes_release (e : Engines) (i : Nat) : (tdRes e i).release = tget 0 e.relTd i := rfl
@[simp] theorem accRes_owner (e : Engines) (i : Nat) : (accRes e i).owner = tget none e.accOwner i := rfl
@[simp] theorem accRes_release (e : Engines) (i : Nat) : (accRes e i).release = tget 0 e.relAcc i := rfl

namespace Resource

variable {α : Type}

/-- R107, R108: claimed by `c`, cleared to `d` unless `c` held it before. -/
def claim (c : CtxNo) (d : α) (r : Resource α) : Resource α :=
  if r.owner = some c then { r with release := 0 } else { r with owner := some c, content := d }

/-- R108: a release put on when `n` Mill operations had issued. -/
def mark (n : Nat) (r : Resource α) : Resource α := { r with release := n + 1 }

/-- R108: a pending release takes effect unless an operation issued before it still uses the resource. -/
def settle (used : CtxNo → Nat → Bool) (r : Resource α) : Resource α :=
  match r.release, r.owner with
  | n + 1, some c => if used c n then r else { r with owner := none, release := 0 }
  | _, _ => r

@[simp] theorem claim_owner (c : CtxNo) (d : α) (r : Resource α) : (claim c d r).owner = some c := by
  unfold claim; split <;> simp_all

theorem claim_content_of_free (c : CtxNo) (d : α) (r : Resource α) (h : r.owner = none) : (claim c d r).content = d := by
  simp [claim, h]

theorem claim_content_of_held (c : CtxNo) (d : α) (r : Resource α) (h : r.owner = some c) :
    (claim c d r).content = r.content := by
  simp [claim, h]

theorem settle_unmarked (used : CtxNo → Nat → Bool) (r : Resource α) (h : r.release = 0) : settle used r = r := by
  simp [settle, h]

theorem settle_mark_owner (used : CtxNo → Nat → Bool) (n : Nat) (c : CtxNo) (r : Resource α) (h : r.owner = some c) :
    (settle used (mark n r)).owner = if used c n then some c else none := by
  simp only [settle, mark, h]
  split <;> rfl

/-- What a claim by `c` of the masked resources (`m`: this one is among them) says of a resource. -/
theorem claim_masked (c : CtxNo) (d : α) (m : Bool) (r r' : Resource α) (h : r' = if m then r.claim c d else r) :
    (m = true → r'.owner = some c ∧ (r.owner = none → r'.content = d)) ∧
      (m = false ∨ r.owner = some c → r'.owner = r.owner ∧ r'.content = r.content) := by
  cases m with
  | false => simp [h]
  | true =>
    obtain rfl : r' = r.claim c d := h
    refine ⟨fun _ => ⟨claim_owner c d r, claim_content_of_free c d r⟩, fun hmine => ?_⟩
    have hmine : r.owner = some c := by simpa using hmine
    exact ⟨by rw [claim_owner, hmine], claim_content_of_held c d r hmine⟩

/-- What a release by `c` of the masked resources, which it holds, says of a resource. -/
theorem release_masked (used : CtxNo → Nat → Bool) (n : Nat) (c : CtxNo) (m : Bool) (r r' : Resource α)
    (h : r' = (if m then r.mark n else r).settle used) (hmine : m = true → r.owner = some c) :
    (m = true → r'.owner = if used c n then some c else none) ∧ (m = false → r.release = 0 → r'.owner = r.owner) := by
  cases m with
  | false => exact ⟨nofun, fun _ h0 => by rw [h, if_neg Bool.false_ne_true, settle_unmarked used r h0]⟩
  | true => exact ⟨fun _ => by rw [h, if_pos rfl, settle_mark_owner used n c r (hmine rfl)], nofun⟩

end Resource

/-! ### Folds over the indices -/

theorem upto_eq_range' (a n : Nat) : upto a n = List.range' a n := by
  induction n generalizing a with
  | zero => rfl
  | succ n ih => simp [upto, ih, List.range'_succ]

theorem below_nodup (n : Nat) : (below n).Nodup := by
  rw [below, upto_eq_range']
  exact List.nodup_range'

@[simp] theorem mem_below (n i : Nat) : i ∈ below n ↔ i < n := by simp [below, upto_eq_range']

/-- What each step of a fold keeps, the fold keeps. -/
theorem foldl_keeps {σ τ : Type} {f : σ → Nat → σ} (p : σ → τ) (h : ∀ e i, p (f e i) = p e) (l : List Nat) (e : σ) :
    p (l.foldl f e) = p e := by
  induction l generalizing e with
  | nil => rfl
  | cons i r ih => rw [List.foldl_cons, ih, h]

/-- A fold whose step at `i` changes what is seen at `i` by `g i` and nothing seen elsewhere changes what is seen at each index
of the list once. What the steps keep (`p`) may be used of the states on the way. -/
theorem foldl_at {σ τ β : Type} {f : σ → Nat → σ} {view : σ → Nat → β} {g : Nat → β → β} {p : σ → τ} {q : τ}
    (hp : ∀ e i, p (f e i) = p e)
    (hf : ∀ e i j, p e = q → view (f e i) j = if j = i then g i (view e j) else view e j)
    (l : List Nat) (hl : l.Nodup) (e : σ) (he : p e = q) (j : Nat) :
    view (l.foldl f e) j = if j ∈ l then g j (view e j) else view e j := by
  induction l generalizing e with
  | nil => rfl
  | cons i r ih =>
    obtain ⟨hi, hr⟩ := List.nodup_cons.1 hl
    rw [List.foldl_cons, ih hr _ ((hp e i).trans he), hf e i j he]
    by_cases h : j = i
    · subst h; simp [hi]
    · simp [h]

/-! ### Claims -/

theorem claimable_iff (t : Tbl (Option CtxNo)) (c : CtxNo) (m : Nat) :
    claimable t c m = true ↔ ∀ i, i < 8 → m.testBit i = true → tget none t i = none ∨ tget none t i = some c := by
  simp only [claimable, List.all_eq_true, mem_below]
  exact forall₂_congr fun i _ => by cases m.testBit i <;> simp

theorem holdsAll_iff (t : Tbl (Option CtxNo)) (c : CtxNo) (m : Nat) :
    holdsAll t c m = true ↔ ∀ i, i < 8 → m.testBit i = true → tget none t i = some c := by
  simp only [holdsAll, List.all_eq_true, mem_below]
  exact forall₂_congr fun i _ => by cases m.testBit i <;> simp

/-- MCLAIM's claims, resource by resource. -/
theorem claimAll_resources (e : Engines) (c : CtxNo) (tm am i : Nat) (hi : i < 8) :
    tdRes (claimAll e c tm am) i = (if tm.testBit i then (tdRes e i).claim c TileDesc.zero else tdRes e i) ∧
      accRes (claimAll e c tm am) i = if am.testBit i then (accRes e i).claim c [] else accRes e i := by
  rw [← Prod.mk.injEq]
  unfold claimAll
  rw [foldl_at (view := fun e i => (tdRes e i, accRes e i)) (p := fun _ => ()) (q := ())
    (g := fun i r => (if tm.testBit i then r.1.claim c TileDesc.zero else r.1, if am.testBit i then r.2.claim c [] else r.2))
    (fun _ _ => rfl) (fun e i j _ => ?_) _ (below_nodup 8) _ rfl]
  · simp [hi]
  · by_cases h : j = i
    · subst h
      simp only [tdRes, accRes, Resource.claim, setOwner]
      split_ifs <;> simp_all
    · simp only [tdRes, accRes, setOwner]
      split_ifs <;> simp_all

/-! ### Releases -/

/-- R108: the releases of the masks put on, before any takes effect. -/
def markReleases (e : Engines) (tm am : Nat) : Engines :=
  (below 8).foldl (fun e i =>
    let e := if tm.testBit i then { e with relTd := tput 0 e.relTd i (e.issued + 1) } else e
    if am.testBit i then { e with relAcc := tput 0 e.relAcc i (e.issued + 1) } else e) e

theorem releaseAll_eq (e : Engines) (tm am : Nat) : releaseAll e tm am = settleReleases (markReleases e tm am) := rfl

/-- R108: the pending release of descriptor `i` takes effect where it may. -/
def settleTd (e : Engines) (i : Nat) : Engines :=
  match tget 0 e.relTd i, tget none e.tdOwner i with
  | n + 1, some c =>
    if millUses e c n (some i) none then e
    else { e with tdOwner := setOwner e.tdOwner i none, relTd := tput 0 e.relTd i 0 }
  | _, _ => e

/-- R108: the pending release of accumulator `i` takes effect where it may. -/
def settleAcc (e : Engines) (i : Nat) : Engines :=
  match tget 0 e.relAcc i, tget none e.accOwner i with
  | n + 1, some c =>
    if millUses e c n none (some i) then e
    else { e with accOwner := setOwner e.accOwner i none, relAcc := tput 0 e.relAcc i 0 }
  | _, _ => e

theorem settleReleases_eq (e : Engines) :
    settleReleases e = (below 8).foldl (fun e i => settleAcc (settleTd e i) i) e := rfl

/-- The engines but for the claims and the pending releases. -/
def sansClaims (e : Engines) : Engines := { e with tdOwner := [], accOwner := [], relTd := [], relAcc := [] }

theorem sansClaims_millq (e : Engines) : (sansClaims e).millq = e.millq := rfl

@[simp] theorem sansClaims_settleTd (e : Engines) (i : Nat) : sansClaims (settleTd e i) = sansClaims e := by
  unfold settleTd
  split
  · split <;> rfl
  · rfl

@[simp] theorem sansClaims_settleAcc (e : Engines) (i : Nat) : sansClaims (settleAcc e i) = sansClaims e := by
  unfold settleAcc
  split
  · split <;> rfl
  · rfl

theorem sansClaims_settleReleases (e : Engines) : sansClaims (settleReleases e) = sansClaims e :=
  foldl_keeps sansClaims (f := fun e i => settleAcc (settleTd e i) i) (fun e i => by simp) _ _

theorem sansClaims_markReleases (e : Engines) (tm am : Nat) : sansClaims (markReleases e tm am) = sansClaims e := by
  refine foldl_keeps sansClaims (fun e i => ?_) _ _
  dsimp only
  split_ifs <;> rfl

theorem sansClaims_releaseAll (e : Engines) (tm am : Nat) : sansClaims (releaseAll e tm am) = sansClaims e := by
  rw [releaseAll_eq, sansClaims_settleReleases, sansClaims_markReleases]

/-- What MREL keeps of the engines. -/
theorem releaseAll_kept (e : Engines) (tm am : Nat) :
    (releaseAll e tm am).td = e.td ∧ (releaseAll e tm am).acc = e.acc ∧ (releaseAll e tm am).millq = e.millq ∧
      (releaseAll e tm am).veq = e.veq ∧ (releaseAll e tm am).issued = e.issued := by
  have h := sansClaims_releaseAll e tm am
  simp only [sansClaims, Engines.mk.injEq] at h
  obtain ⟨htd, -, hacc, -, -, -, hmillq, hveq, -, -, hissued⟩ := h
  exact ⟨htd, hacc, hmillq, hveq, hissued⟩

theorem millUses_of_sansClaims {e e' : Engines} (h : sansClaims e = sansClaims e') : millUses e = millUses e' := by
  have hq : (sansClaims e).millq = (sansClaims e').millq := by rw [h]
  rw [sansClaims_millq, sansClaims_millq] at hq
  unfold millUses
  rw [hq]

/-- The releases put on, resource by resource. -/
theorem markReleases_resources (e : Engines) (tm am i : Nat) (hi : i < 8) :
    tdRes (markReleases e tm am) i = (if tm.testBit i then (tdRes e i).mark e.issued else tdRes e i) ∧
      accRes (markReleases e tm am) i = if am.testBit i then (accRes e i).mark e.issued else accRes e i := by
  rw [← Prod.mk.injEq]
  unfold markReleases
  rw [foldl_at (view := fun e i => (tdRes e i, accRes e i)) (p := Engines.issued) (q := e.issued)
    (g := fun i r => (if tm.testBit i then r.1.mark e.issued else r.1, if am.testBit i then r.2.mark e.issued else r.2))
    (fun e i => ?_) (fun e i j h => ?_) _ (below_nodup 8) _ rfl]
  · simp [hi]
  · dsimp only
    split_ifs <;> rfl
  · by_cases hj : j = i
    · subst hj
      simp only [tdRes, accRes, Resource.mark]
      split_ifs <;> simp_all
    · simp only [tdRes, accRes]
      split_ifs <;> simp_all

theorem tdRes_settleTd (e : Engines) (i j : Nat) :
    tdRes (settleTd e i) j =
      if j = i then (tdRes e j).settle fun c n => millUses e c n (some j) none else tdRes e j := by
  by_cases h : j = i
  · subst h
    simp only [tdRes, settleTd, Resource.settle, setOwner, if_true]
    split
    · split <;> simp [*]
    · rfl
  · simp only [tdRes, settleTd, setOwner, h, if_false]
    split
    · split <;> simp [h]
    · rfl

theorem accRes_settleAcc (e : Engines) (i j : Nat) :
    accRes (settleAcc e i) j =
      if j = i then (accRes e j).settle fun c n => millUses e c n none (some j) else accRes e j := by
  by_cases h : j = i
  · subst h
    simp only [accRes, settleAcc, Resource.settle, setOwner, if_true]
    split
    · split <;> simp [*]
    · rfl
  · simp only [accRes, settleAcc, setOwner, h, if_false]
    split
    · split <;> simp [h]
    · rfl

@[simp] theorem tdRes_settleAcc (e : Engines) (i j : Nat) : tdRes (settleAcc e i) j = tdRes e j := by
  unfold settleAcc
  split
  · split <;> rfl
  · rfl

@[simp] theorem accRes_settleTd (e : Engines) (i j : Nat) : accRes (settleTd e i) j = accRes e j := by
  unfold settleTd
  split
  · split <;> rfl
  · rfl

/-- The pending releases that take effect, resource by resource. -/
theorem settleReleases_resources (e : Engines) (i : Nat) (hi : i < 8) :
    tdRes (settleReleases e) i = ((tdRes e i).settle fun c n => millUses e c n (some i) none) ∧
      accRes (settleReleases e) i = (accRes e i).settle fun c n => millUses e c n none (some i) := by
  rw [← Prod.mk.injEq, settleReleases_eq,
    foldl_at (view := fun e i => (tdRes e i, accRes e i)) (p := sansClaims) (q := sansClaims e)
      (g := fun i r => (r.1.settle fun c n => millUses e c n (some i) none, r.2.settle fun c n => millUses e c n none (some i)))
      (fun _ _ => by simp) (fun e' i j h => ?_) _ (below_nodup 8) _ rfl]
  · simp [hi]
  · simp only [tdRes_settleAcc, tdRes_settleTd, accRes_settleAcc, accRes_settleTd, millUses_of_sansClaims h,
      millUses_of_sansClaims ((sansClaims_settleTd e' i).trans h)]
    by_cases hj : j = i <;> simp [hj]

/-- MREL's releases, resource by resource. -/
theorem releaseAll_resources (e : Engines) (tm am i : Nat) (hi : i < 8) :
    tdRes (releaseAll e tm am) i =
        ((if tm.testBit i then (tdRes e i).mark e.issued else tdRes e i).settle fun c n => millUses e c n (some i) none) ∧
      accRes (releaseAll e tm am) i =
        (if am.testBit i then (accRes e i).mark e.issued else accRes e i).settle fun c n => millUses e c n none (some i) := by
  obtain ⟨htd, hacc⟩ := markReleases_resources e tm am i hi
  rw [releaseAll_eq, ← htd, ← hacc, ← millUses_of_sansClaims (sansClaims_markReleases e tm am)]
  exact settleReleases_resources _ i hi

theorem millUses_td (e : Engines) (c : CtxNo) (n i : Nat) :
    millUses e c n (some i) none = e.millq.any fun o => o.ctx == c && decide (o.iss < n) && o.tds.contains i := by
  simp [millUses]

theorem millUses_acc (e : Engines) (c : CtxNo) (n i : Nat) :
    millUses e c n none (some i) = e.millq.any fun o => o.ctx == c && decide (o.iss < n) && o.acc.toNat == i := by
  simp [millUses, BEq.comm (a := i)]

/-! ### The instructions -/

theorem testBit_fld {w : Nat} (x : BitVec w) (lo len i : Nat) (hi : i < len) :
    (fld x lo len).testBit i = x.getLsbD (lo + i) := by
  simp [fld, Nat.testBit_mod_two_pow, hi, BitVec.getLsbD]

theorem ofNat_fld {w : Nat} (x : BitVec w) (lo len : Nat) : BitVec.ofNat len (fld x lo len) = x.extractLsb' lo len := by
  apply BitVec.eq_of_toNat_eq
  simp [fld]

theorem claimable_fld_iff (t : Tbl (Option CtxNo)) (c : CtxNo) (b : BitVec 54) (lo : Nat) :
    claimable t c (fld b lo 8) = true ↔
      ∀ i, i < 8 → b.getLsbD (lo + i) = true → tget none t i = none ∨ tget none t i = some c := by
  rw [claimable_iff]
  exact forall₂_congr fun i hi => by rw [testBit_fld b lo 8 i hi]

theorem holdsAll_fld_iff (t : Tbl (Option CtxNo)) (c : CtxNo) (b : BitVec 54) (lo : Nat) :
    holdsAll t c (fld b lo 8) = true ↔ ∀ i, i < 8 → b.getLsbD (lo + i) = true → tget none t i = some c := by
  rw [holdsAll_iff]
  exact forall₂_congr fun i hi => by rw [testBit_fld b lo 8 i hi]

/-- A completing instruction that changes the engines by `g`, and its context by an effect that does not touch the fetched
slot. -/
theorem finish_modEng_completed (s : State) (l : Lcid) (c : CtxNo) (g : Engines → Engines) (f : Ctx → Ctx)
    (hf : ∀ (x : Ctx) n, f { x with slot := n } = { f x with slot := n }) :
    onlyCore s (finish (modCore (fetched s l c) l fun k => modEng k g) l c f) l c (completed (ctxOf s l c) f)
      { getCore s l with eng := g (getCore s l).eng } := by
  have h := finish_modCore_fetched s l c (fun k => modEng k g) f fun _ _ => rfl
  rw [hf, fetched, getCore_modCtxOf] at h
  exact h

@[simp] theorem eng_fetched (s : State) (l : Lcid) (c : CtxNo) : (getCore (fetched s l c) l).eng = (getCore s l).eng := by
  simp [fetched]

@[simp] theorem hasRec_fetched (s : State) (l : Lcid) (c : CtxNo) :
    (ctxOf (fetched s l c) l c).hasRec = (ctxOf s l c).hasRec := by
  simp [fetched]

theorem exec_mclaim (s : State) (l : Lcid) (c : CtxNo) (b : BitVec 54) :
    exec (.mclaim l c b) s = .next (doMclaim l c b s) := rfl

theorem exec_mrel (s : State) (l : Lcid) (c : CtxNo) (b : BitVec 54) :
    exec (.mrel l c b) s = .next (doMrel l c b s) := rfl

section
variable {s : State} {l : Lcid} {c : CtxNo} {b : BitVec 54}

/-- R107: a named resource is held by another context: only PD is written. -/
theorem exec_mclaim_refused (h : issues s l c b (onlyFields b [(47, 3), (8, 8), (0, 8)]) anyRoom)
    (hno : ¬ (claimable (getCore s l).eng.tdOwner c (fld b 8 8) = true ∧
      claimable (getCore s l).eng.accOwner c (fld b 0 8) = true)) :
    exec (.mclaim l c b) s = .next (finish (fetched s l c) l c fun x => writeP x (fld b 47 3) false) := by
  rw [← Bool.and_eq_true, Bool.not_eq_true] at hno
  rw [exec_mclaim, doMclaim, issue_body _ _ _ _ _ _ _ _ _ h]
  simp [hno]

/-- R107: every named resource is claimable; the deferred releases of those named are withdrawn too. -/
theorem exec_mclaim_granted (h : issues s l c b (onlyFields b [(47, 3), (8, 8), (0, 8)]) anyRoom)
    (htd : claimable (getCore s l).eng.tdOwner c (fld b 8 8) = true)
    (hacc : claimable (getCore s l).eng.accOwner c (fld b 0 8) = true) :
    exec (.mclaim l c b) s =
      .next (finish (modCore (fetched s l c) l fun k => modEng k fun e => claimAll e c (fld b 8 8) (fld b 0 8)) l c fun x =>
        writeP { x with defTd := x.defTd &&& ~~~(b.extractLsb' 8 8), defAcc := x.defAcc &&& ~~~(b.extractLsb' 0 8) }
          (fld b 47 3) true) := by
  rw [exec_mclaim, doMclaim, issue_body _ _ _ _ _ _ _ _ _ h]
  simp [htd, hacc, ofNat_fld]

/-- R109. -/
theorem exec_mrel_perm (h : issues s l c b (onlyFields b [(8, 8), (0, 8)]) anyRoom)
    (hno : ¬ (holdsAll (getCore s l).eng.tdOwner c (fld b 8 8) = true ∧
      holdsAll (getCore s l).eng.accOwner c (fld b 0 8) = true)) :
    exec (.mrel l c b) s = .next (precise (fetched s l c) l c sPERM 1 (insWord 0x101 b)) := by
  rw [exec_mrel, doMrel, issue_body _ _ _ _ _ _ _ _ _ h]
  simp [hno]

/-- R482: with a record, the release waits for the next RING. -/
theorem exec_mrel_deferred (h : issues s l c b (onlyFields b [(8, 8), (0, 8)]) anyRoom)
    (htd : holdsAll (getCore s l).eng.tdOwner c (fld b 8 8) = true)
    (hacc : holdsAll (getCore s l).eng.accOwner c (fld b 0 8) = true) (hrec : (ctxOf s l c).hasRec = true) :
    exec (.mrel l c b) s = .next (finish (fetched s l c) l c fun x =>
      { x with defTd := x.defTd ||| b.extractLsb' 8 8, defAcc := x.defAcc ||| b.extractLsb' 0 8 }) := by
  rw [exec_mrel, doMrel, issue_body _ _ _ _ _ _ _ _ _ h]
  simp [htd, hacc, hrec, ofNat_fld]

/-- R108: without a record, the release is put on at once. -/
theorem exec_mrel_released (h : issues s l c b (onlyFields b [(8, 8), (0, 8)]) anyRoom)
    (htd : holdsAll (getCore s l).eng.tdOwner c (fld b 8 8) = true)
    (hacc : holdsAll (getCore s l).eng.accOwner c (fld b 0 8) = true) (hrec : (ctxOf s l c).hasRec = false) :
    exec (.mrel l c b) s =
      .next (finish (modCore (fetched s l c) l fun k => modEng k fun e => releaseAll e (fld b 8 8) (fld b 0 8)) l c id) := by
  rw [exec_mrel, doMrel, issue_body _ _ _ _ _ _ _ _ _ h]
  simp [htd, hacc, hrec, advance]

end

/-- R107: what a granted MCLAIM's engines hold, as the obligation reads it. -/
theorem claimAll_masked (e : Engines) (c : CtxNo) (b : BitVec 54) (i : Nat) (hi : i < 8) :
    let e' := claimAll e c (fld b 8 8) (fld b 0 8)
    (b.getLsbD (8 + i) = true → tget none e'.tdOwner i = some c ∧
      (tget none e.tdOwner i = none → tget TileDesc.zero e'.td i = TileDesc.zero)) ∧
    (b.getLsbD (8 + i) = false ∨ tget none e.tdOwner i = some c → tget none e'.tdOwner i = tget none e.tdOwner i ∧
      tget TileDesc.zero e'.td i = tget TileDesc.zero e.td i) ∧
    (b.getLsbD i = true → tget none e'.accOwner i = some c ∧ (tget none e.accOwner i = none → tget [] e'.acc i = [])) ∧
    (b.getLsbD i = false ∨ tget none e.accOwner i = some c →
      tget none e'.accOwner i = tget none e.accOwner i ∧ tget [] e'.acc i = tget [] e.acc i) := by
  obtain ⟨htd, hacc⟩ := claimAll_resources e c (fld b 8 8) (fld b 0 8) i hi
  rw [testBit_fld b _ 8 i hi] at htd hacc
  rw [Nat.zero_add] at hacc
  obtain ⟨htdSet, htdKept⟩ := Resource.claim_masked _ _ _ _ _ htd
  obtain ⟨haccSet, haccKept⟩ := Resource.claim_masked _ _ _ _ _ hacc
  exact ⟨htdSet, htdKept, haccSet, haccKept⟩

/-- R108: who holds what after an effective MREL of resources of the context, as the obligation reads it. -/
theorem releaseAll_masked (e : Engines) (c : CtxNo) (b : BitVec 54) (i : Nat) (hi : i < 8)
    (htd : b.getLsbD (8 + i) = true → tget none e.tdOwner i = some c)
    (hacc : b.getLsbD i = true → tget none e.accOwner i = some c) :
    let e' := releaseAll e (fld b 8 8) (fld b 0 8)
    let usesTd := e.millq.any fun o => o.ctx == c && decide (o.iss < e.issued) && o.tds.contains i
    let usesAcc := e.millq.any fun o => o.ctx == c && decide (o.iss < e.issued) && o.acc.toNat == i
    (b.getLsbD (8 + i) = true → tget none e'.tdOwner i = if usesTd then some c else none) ∧
    (b.getLsbD (8 + i) = false → tget 0 e.relTd i = 0 → tget none e'.tdOwner i = tget none e.tdOwner i) ∧
    (b.getLsbD i = true → tget none e'.accOwner i = if usesAcc then some c else none) ∧
    (b.getLsbD i = false → tget 0 e.relAcc i = 0 → tget none e'.accOwner i = tget none e.accOwner i) := by
  obtain ⟨htd', hacc'⟩ := releaseAll_resources e (fld b 8 8) (fld b 0 8) i hi
  rw [testBit_fld b _ 8 i hi] at htd' hacc'
  rw [Nat.zero_add] at hacc'
  obtain ⟨htdSet, htdKept⟩ := Resource.release_masked _ _ c _ _ _ htd' htd
  obtain ⟨haccSet, haccKept⟩ := Resource.release_masked _ _ c _ _ _ hacc' hacc
  simp only [tdRes_owner, tdRes_release, millUses_td] at htdSet htdKept
  simp only [accRes_owner, accRes_release, millUses_acc] at haccSet haccKept
  exact ⟨htdSet, htdKept, haccSet, haccKept⟩

/-- Settles O8: a claim and a release are each an operation on every resource apart from the others. -/
theorem millClaimsAndRelease : Obligations.MillClaimsAndRelease := by
  unfold Obligations.MillClaimsAndRelease
  refine ⟨fun s l c b h => ?_, fun s l c b h => ?_⟩
  · intro e free all
    have hall : claimable e.tdOwner c (fld b 8 8) = true ∧ claimable e.accOwner c (fld b 0 8) = true ↔ all := by
      simp only [claimable_fld_iff, Nat.zero_add, all, free]
    rw [← hall]
    refine ⟨fun hno => ?_, fun ⟨htd, hacc⟩ => ?_⟩
    · exact ⟨_, exec_mclaim_refused h hno, finish_completed _ _ _ _ fun x n => writeP_slot x _ _ n⟩
    · exact ⟨_, exec_mclaim_granted h htd hacc, _, finish_modEng_completed _ _ _ _ _ fun x n => writeP_slot
        { x with defTd := x.defTd &&& ~~~(b.extractLsb' 8 8), defAcc := x.defAcc &&& ~~~(b.extractLsb' 0 8) } _ _ n,
        claimAll_masked e c b⟩
  · intro e mine
    have hmine : holdsAll e.tdOwner c (fld b 8 8) = true ∧ holdsAll e.accOwner c (fld b 0 8) = true ↔ mine := by
      simp only [holdsAll_fld_iff, Nat.zero_add, mine]
    refine ⟨fun hno => ⟨_, exec_mrel_perm h (hmine.not.2 hno), rfl⟩, fun hm hrec => ?_, fun hm hrec => ?_⟩
    · obtain ⟨htd, hacc⟩ := hmine.2 hm
      exact ⟨_, exec_mrel_deferred h htd hacc hrec, finish_completed _ _ _ _ fun _ _ => rfl⟩
    · obtain ⟨htd, hacc⟩ := hmine.2 hm
      obtain ⟨htdKept, haccKept, hmillq, hveq, hissued⟩ := releaseAll_kept e (fld b 8 8) (fld b 0 8)
      exact ⟨_, exec_mrel_released h htd hacc hrec, _, finish_modEng_completed _ _ _ _ _ fun _ _ => rfl,
        htdKept, haccKept, hmillq, hveq, hissued, fun i hi => releaseAll_masked e c b i hi (hm.1 i hi) (hm.2 i hi)⟩

end Sys2Proof.Machine
end

section
/-! PROOFS. Class 1 (R197). Every compare and predicate operation is of one of three formats, and each format writes into PD a
value that it reads off its context; the operations of a format differ only in the function of the two values read. -/

namespace Sys2Proof.Machine

section
variable {s : State} {l : Lcid} {c : CtxNo} {b : BitVec 54} {i : Instr} {op : Nat} {r : Bool}

/-- An instruction that issues and writes into predicate `pd` a value `v` read off its context. `v` may not look at the fetched
slot, which the issue changes before the body runs. -/
theorem answers_writeP {unit pd : Nat} {enc : Bool} {room : Core → Bool} (v : Ctx → Bool)
    (hv : ∀ (x : Ctx) n, v { x with slot := n } = v x)
    (hi : exec i s = .next (issue s l c op b unit enc room fun s => finish s l c fun x => writeP x pd (v x)))
    (h : issues s l c b enc room) (hr : v (ctxOf s l c) = r) :
    answers i s fun t => onlyCtx s t l c (completed (ctxOf s l c) fun x => writeP x pd r) := by
  rw [issue_body _ _ _ _ _ _ _ _ _ h] at hi
  subst hr
  exact ⟨_, hi, finish_completed s l c (fun x => writeP x pd (v x)) fun x n => by rw [hv, writeP_slot]⟩

/-- Format PR: `r` is the operation's value on the two registers. -/
theorem answers_doPR {f : Word → Word → Bool} (hi : exec i s = .next (doPR l c op b f s))
    (h : issues s l c b (onlyFields b [(47, 3), (42, 4), (38, 4)]) anyRoom)
    (hr : f (gAt (ctxOf s l c) b 42) (gAt (ctxOf s l c) b 38) = r) :
    answers i s fun t => onlyCtx s t l c (completed (ctxOf s l c) fun x => writeP x (fld b 47 3) r) :=
  answers_writeP (fun x => f (gAt x b 42) (gAt x b 38)) (fun _ _ => rfl) hi h hr

/-- Format PI: `r` is the operation's value on the register and the immediate. -/
theorem answers_doPI {f : Word → Word → Bool} (hi : exec i s = .next (doPI l c op b f s))
    (h : issues s l c b (onlyFields b [(47, 3), (42, 4), (0, 32)]) anyRoom)
    (hr : f (gAt (ctxOf s l c) b 42) (imm32 b) = r) :
    answers i s fun t => onlyCtx s t l c (completed (ctxOf s l c) fun x => writeP x (fld b 47 3) r) :=
  answers_writeP (fun x => f (gAt x b 42) (imm32 b)) (fun _ _ => rfl) hi h hr

/-- Format PL: `r` is the operation's value on the two predicates, each inverted where its bit says so. -/
theorem answers_doPL {f : Bool → Bool → Bool} (hi : exec i s = .next (doPL l c op b f s))
    (h : issues s l c b (onlyFields b [(47, 3), (44, 3), (43, 1), (40, 3), (39, 1)]) anyRoom)
    (hr : f (readP (ctxOf s l c) (fld b 44 3) != bit b 43) (readP (ctxOf s l c) (fld b 40 3) != bit b 39) = r) :
    answers i s fun t => onlyCtx s t l c (completed (ctxOf s l c) fun x => writeP x (fld b 47 3) r) :=
  answers_writeP (fun x => f (readP x (fld b 44 3) != bit b 43) (readP x (fld b 40 3) != bit b 39)) (fun _ _ => rfl) hi h hr

end

/-- Settles O4: format by format, each comparison being the one of Table 07.5 on the values that its format reads. -/
theorem comparesAndPredicates : Obligations.ComparesAndPredicates := by
  unfold Obligations.ComparesAndPredicates
  intro s l c b
  refine ⟨fun h => ⟨?ceq, ?cne, ?clt, ?cle, ?cltu, ?cleu⟩, fun h => ⟨?ceqi, ?cnei, ?clti, ?clei, ?cltui, ?cleui⟩,
    fun h => ⟨?pand, ?por, ?pxor⟩⟩
  case ceq => exact answers_doPR rfl h (beq_eq_decide _ _)
  case cne => exact answers_doPR rfl h decide_not.symm
  case clt => exact answers_doPR rfl h BitVec.slt_eq_decide
  case cle => exact answers_doPR rfl h BitVec.sle_eq_decide
  case cltu => exact answers_doPR rfl h BitVec.ult_eq_decide
  case cleu => exact answers_doPR rfl h BitVec.ule_eq_decide
  case ceqi => exact answers_doPI rfl h (beq_eq_decide _ _)
  case cnei => exact answers_doPI rfl h decide_not.symm
  case clti => exact answers_doPI rfl h BitVec.slt_eq_decide
  case clei => exact answers_doPI rfl h BitVec.sle_eq_decide
  case cltui => exact answers_doPI rfl h BitVec.ult_eq_decide
  case cleui => exact answers_doPI rfl h BitVec.ule_eq_decide
  case pand => exact answers_doPL rfl h rfl
  case por => exact answers_doPL rfl h rfl
  case pxor => exact answers_doPL rfl h rfl

end Sys2Proof.Machine
end

section
/-! PROOFS. The slot mapping (R216, R217): the row gives s[13:5], and the bank then gives s[4:0]. -/

namespace Sys2Proof.Machine

/-- The part of R216's bank number that the row alone gives: s[9:5] ⊕ {0, s[13:10]}. -/
def rowHash (w : Nat) : Nat := w % 32 ^^^ w / 32 % 16

theorem rowHash_lt (w : Nat) : rowHash w < 32 :=
  Nat.xor_lt_two_pow (n := 5) (by omega) (by omega)

/-- R217's derivation: the row gives everything of the bank number but s[4:0]. -/
theorem bankOf_eq_xor_rowHash (s : Nat) : bankOf s = s % 32 ^^^ rowHash (rowOf s) := by
  have hlow : rowOf s % 32 = s / 32 % 32 := by unfold rowOf; omega
  have hhigh : rowOf s / 32 % 16 = s / 1024 % 16 := by unfold rowOf; omega
  rw [bankOf, rowHash, hlow, hhigh, Nat.xor_assoc]

theorem rowOf_row_add {w l : Nat} (hw : w < 512) (hl : l < 32) : rowOf (32 * w + l) = w := by
  unfold rowOf; omega

theorem slot_eq_row_add_low {s : Nat} (hs : s < 16384) : s = 32 * rowOf s + s % 32 := by
  unfold rowOf; omega

/-- The slot that R217 reads off a bank and a row: s[13:5] is the row, s[4:0] is the bank with the row's part taken out. -/
def slotAt (b w : Nat) : Nat := 32 * w + (b ^^^ rowHash w)

section
variable {b w : Nat}

theorem xor_rowHash_lt (hb : b < 32) : b ^^^ rowHash w < 32 :=
  Nat.xor_lt_two_pow (n := 5) hb (rowHash_lt w)

theorem slotAt_lt (hb : b < 32) (hw : w < 512) : slotAt b w < 16384 := by
  have := xor_rowHash_lt (w := w) hb
  unfold slotAt; omega

theorem rowOf_slotAt (hb : b < 32) (hw : w < 512) : rowOf (slotAt b w) = w :=
  rowOf_row_add hw (xor_rowHash_lt hb)

theorem bankOf_slotAt (hb : b < 32) (hw : w < 512) : bankOf (slotAt b w) = b := by
  have hlow : slotAt b w % 32 = b ^^^ rowHash w := by
    rw [slotAt, Nat.mul_add_mod, Nat.mod_eq_of_lt (xor_rowHash_lt hb)]
  rw [bankOf_eq_xor_rowHash, rowOf_slotAt hb hw, hlow, Nat.xor_xor_cancel_right]

end

/-- A slot is the one that its own bank and row give: no two slots share both. -/
theorem slotAt_bankOf_rowOf {s : Nat} (hs : s < 16384) : slotAt (bankOf s) (rowOf s) = s := by
  rw [slotAt, bankOf_eq_xor_rowHash, Nat.xor_xor_cancel_right, ← slot_eq_row_add_low hs]

/-- Settles O39: `slotAt` is a two-sided inverse of the pair of `bankOf` and `rowOf`. -/
theorem slotMapping : Obligations.SlotMapping := by
  unfold Obligations.SlotMapping
  intro b w hb hw
  refine ⟨slotAt b w, slotAt_lt hb hw, bankOf_slotAt hb hw, rowOf_slotAt hb hw, ?_⟩
  rintro m hm rfl rfl
  exact (slotAt_bankOf_rowOf hm).symm

end Sys2Proof.Machine
end

section
/-! PROOFS. Steps: every command answers a next state, which keeps what `Keeps` says of the state before it. The content is in the
lemmas of Sys2Proof/Laws/Frame.lean; here each command is tied to the one about its shared operation. -/

namespace Sys2Proof.Machine

theorem keeps_awake {f : State → State} {s : State} (h : ∀ u, sig (f u) = sig u) : Keeps s (awake f s) :=
  keeps_of_sig (sig_awake _ _ h)

/-- R190, R191: an undefined opcode at most enters a precise fault. -/
theorem execUndefinedOpcode_keeps (l : Lcid) (c : CtxNo) (w : Word) (s : State) :
    ∃ t, execUndefinedOpcode l c w s = .next t ∧ Keeps s t :=
  ⟨_, rfl, keeps_of_sig (sig_ite rfl (sig_ite (sig_precise ..) (by rw [sig_precise, sig_fetched])))⟩

/-- Every command answers a next state, of the same part with the same commands waiting. -/
theorem exec_keeps (i : Instr) (s : State) : ∃ t, exec i s = .next t ∧ Keeps s t :=
  match i with
  | .add .. | .sub .. | .mul .. | .mulhs .. | .mulhu .. | .andR .. | .orR .. | .xorR .. | .shl .. | .shrl .. |
    .shra .. | .mins .. | .maxs .. | .minu .. | .maxu .. =>
    ⟨_, rfl, keeps_of_sig (sig_doRR ..)⟩
  | .addi .. | .andi .. | .ori .. | .xori .. => ⟨_, rfl, keeps_of_sig (sig_doRI ..)⟩
  | .shli .. | .shrli .. | .shrai .. => ⟨_, rfl, keeps_of_sig (sig_doShI ..)⟩
  | .li .. | .lih .. => ⟨_, rfl, keeps_of_sig (sig_doConst ..)⟩
  | .ceq .. | .cne .. | .clt .. | .cle .. | .cltu .. | .cleu .. => ⟨_, rfl, keeps_of_sig (sig_doPR ..)⟩
  | .ceqi .. | .cnei .. | .clti .. | .clei .. | .cltui .. | .cleui .. => ⟨_, rfl, keeps_of_sig (sig_doPI ..)⟩
  | .pand .. | .por .. | .pxor .. => ⟨_, rfl, keeps_of_sig (sig_doPL ..)⟩
  | .br .. | .bl .. => ⟨_, rfl, keeps_of_sig (sig_doBranch ..)⟩
  | .bri .. | .bli .. => ⟨_, rfl, keeps_of_sig (sig_doBranchTo ..)⟩
  | .ldb .. | .ldh .. | .ldw .. | .ldd .. | .ldbs .. | .ldhs .. | .ldws .. | .stb .. | .sth .. | .stw .. |
    .std .. =>
    ⟨_, rfl, keeps_of_sig (sig_doNarrow ..)⟩
  | .ffence .. => ⟨_, rfl, keeps_of_sig (sig_issue _ _ _ _ _ _ _ _ _ fun _ => sig_finish ..)⟩
  | .mclaim .. => ⟨_, rfl, keeps_of_sig (sig_doMclaim ..)⟩
  | .mrel .. => ⟨_, rfl, keeps_of_sig (sig_doMrel ..)⟩
  | .tdld .. => ⟨_, rfl, keeps_of_sig (sig_doTdld ..)⟩
  | .mzero .. => ⟨_, rfl, keeps_of_sig (sig_doMzero ..)⟩
  | .mma .. => ⟨_, rfl, keeps_of_sig (sig_doMma ..)⟩
  | .mwait .. => ⟨_, rfl, keeps_of_sig (sig_doMwait ..)⟩
  | .millOpComplete .. => ⟨_, rfl, keeps_awake fun _ => sig_doMillOpComplete ..⟩
  | .millOpFault .. => ⟨_, rfl, keeps_awake fun _ => sig_doMillOpFault ..⟩
  | .veAdd .. | .veSub .. | .veMul .. | .veMad .. | .veNeg .. | .veAbs .. | .veMax .. | .veMin .. | .veScl .. |
    .veEq .. | .veNe .. | .veLt .. | .veLe .. | .veGt .. | .veGe .. | .veSel .. | .veAnd .. | .veOr .. |
    .veXor .. | .veNot .. | .veShl .. | .veShrl .. | .veShra .. | .veCvt .. | .veShf .. | .veScan .. |
    .veSscan .. | .veRed .. | .veFn .. =>
    ⟨_, rfl, keeps_of_sig (sig_veIssue ..)⟩
  | .vwait .. => ⟨_, rfl, keeps_of_sig (sig_doVwait ..)⟩
  | .veOpComplete .. => ⟨_, rfl, keeps_awake fun _ => sig_doVeOpComplete ..⟩
  | .veOpFault .. => ⟨_, rfl, keeps_awake fun _ => sig_doVeOpFault ..⟩
  | .qrd .. => ⟨_, rfl, keeps_of_sig (sig_doQrd ..)⟩
  | .qput .. => ⟨_, rfl, keeps_of_sig (sig_doQput ..)⟩
  | .qtest .. => ⟨_, rfl, keeps_of_sig (sig_doQtest ..)⟩
  | .qcfg .. => ⟨_, rfl, keeps_of_sig (sig_doQcfg ..)⟩
  | .send .. => ⟨_, rfl, keeps_of_sig (sig_doSend ..)⟩
  | .msgrel .. => ⟨_, rfl, keeps_of_sig (sig_doMsgrel ..)⟩
  | .haul .. => ⟨_, rfl, keeps_of_sig (sig_doHaul ..)⟩
  | .haull .. => ⟨_, rfl, keeps_of_sig (sig_doHaull ..)⟩
  | .bropen .. => ⟨_, rfl, keeps_of_sig (sig_doBropen ..)⟩
  | .brhash .. => ⟨_, rfl, keeps_of_sig (sig_doBrhash ..)⟩
  | .brseal .. => ⟨_, rfl, keeps_of_sig (sig_doBrseal ..)⟩
  | .brandHashComplete .. => ⟨_, rfl, keeps_awake fun _ => sig_doBrandHashComplete ..⟩
  | .brandSealComplete .. => ⟨_, rfl, keeps_awake fun _ => sig_doBrandSealComplete ..⟩
  | .sadd .. | .sarrive .. | .sset .. | .sclr .. | .swait .. | .sacq .. | .srel .. | .srd .. =>
    ⟨_, rfl, keeps_of_sig (sig_doSync ..)⟩
  | .ctxEnd .. => ⟨_, rfl, keeps_of_sig (sig_doCtxEnd ..)⟩
  | .park .. => ⟨_, rfl, keeps_of_sig (sig_doPark ..)⟩
  | .wake .. => ⟨_, rfl, keeps_of_sig (sig_doWake ..)⟩
  | .resume .. => ⟨_, rfl, keeps_of_sig (sig_doResume ..)⟩
  | .cfree .. => ⟨_, rfl, keeps_of_sig (sig_doCfree ..)⟩
  | .sleep .. => ⟨_, rfl, keeps_of_sig (sig_doSleep ..)⟩
  | .srseed .. => ⟨_, rfl, keeps_of_sig (sig_doSrseed ..)⟩
  | .ring .. => ⟨_, rfl, keeps_of_sig (sig_doRing ..)⟩
  | .ringComplete .. => ⟨_, rfl, keeps_of_sig (sig_doRingComplete ..)⟩
  | .qry .. => ⟨_, rfl, keeps_of_sig (sig_doQry ..)⟩
  | .nsrd .. => ⟨_, rfl, keeps_of_sig (sig_doNsrd ..)⟩
  | .tlrd .. => ⟨_, rfl, keeps_of_sig (sig_doTlrd ..)⟩
  | .tlclr .. => ⟨_, rfl, keeps_of_sig (sig_doTlclr ..)⟩
  | .distrd .. => ⟨_, rfl, keeps_of_sig (sig_doDistrd ..)⟩
  | .faultNoticeStart .. => ⟨_, rfl, keeps_awake fun _ => sig_doFaultNoticeStart ..⟩
  | .messageInject .. => ⟨_, rfl, keeps_awake fun _ => sig_doMessageInject ..⟩
  | .messageArrival .. => ⟨_, rfl, keeps_awake fun _ => sig_doMessageArrival ..⟩
  | .messageStart .. => ⟨_, rfl, keeps_awake fun _ => sig_doMessageStart ..⟩
  | .heldMessagePlaced .. => ⟨_, rfl, keeps_awake fun _ => sig_doHeldMessagePlaced ..⟩
  | .arrTmoExpiry .. => ⟨_, rfl, keeps_awake fun _ => sig_doArrTmoExpiry ..⟩
  | .boomRoundRelease .. => ⟨_, rfl, keeps_awake fun _ => sig_doBoomRoundRelease ..⟩
  | .haulPacketInject .. => ⟨_, rfl, keeps_awake fun _ => sig_doHaulPacketInject ..⟩
  | .packetForward .. => ⟨_, rfl, keeps_of_sig (sig_doPacketForward ..)⟩
  | .rdReq .. => ⟨_, rfl, keeps_awake fun _ => sig_doRdReq ..⟩
  | .wrReq .. => ⟨_, rfl, keeps_awake fun _ => sig_doWrReq ..⟩
  | .rdRsp .. => ⟨_, rfl, keeps_awake fun _ => sig_doRdRsp ..⟩
  | .wrAck .. => ⟨_, rfl, keeps_awake fun _ => sig_doWrAck ..⟩
  | .compl .. => ⟨_, rfl, keeps_awake fun _ => sig_doCompl ..⟩
  | .syncOp .. => ⟨_, rfl, keeps_awake fun _ => sig_doSyncOp ..⟩
  | .syncAns .. => ⟨_, rfl, keeps_awake fun _ => sig_doSyncAns ..⟩
  | .syncRepresent .. => ⟨_, rfl, keeps_awake fun _ => sig_doSyncRepresent ..⟩
  | .syncWaitTimeout .. => ⟨_, rfl, keeps_of_sig (sig_doSyncWaitTimeout ..)⟩
  | .syncCancel .. => ⟨_, rfl, keeps_awake fun _ => sig_doSyncCancel ..⟩
  | .qrdTimeout .. => ⟨_, rfl, keeps_of_sig (sig_doQrdTimeout ..)⟩
  | .parkTimerExpiry .. => ⟨_, rfl, keeps_of_sig (sig_doParkTimerExpiry ..)⟩
  | .sleepExpiry .. => ⟨_, rfl, keeps_of_sig (sig_doSleepExpiry ..)⟩
  | .remoteTmoExpiry .. => ⟨_, rfl, keeps_awake fun _ => sig_doRemoteTmoExpiry ..⟩
  | .remoteLostComplete .. => ⟨_, rfl, keeps_awake fun _ => sig_doRemoteLostComplete ..⟩
  | .mcastWr .. => ⟨_, rfl, keeps_awake fun _ => sig_doMcastWr ..⟩
  | .mgt .. => ⟨_, rfl, keeps_awake fun _ => sig_doMgt ..⟩
  | .redPacket .. => ⟨_, rfl, keeps_awake fun _ => sig_doRedPacket ..⟩
  | .redCredit .. => ⟨_, rfl, keeps_awake fun _ => sig_doRedCredit ..⟩
  | .reductionArm .. => ⟨_, rfl, keeps_awake fun _ => sig_doReductionArm ..⟩
  | .detourResend .. => ⟨_, rfl, keeps_awake fun _ => sig_doDetourResend ..⟩
  | .channelWordDeliver .. => ⟨_, rfl, keeps_of_sig (sig_doChannelWordDeliver ..)⟩
  | .timeTick => ⟨_, rfl, keeps_doTimeTick ..⟩
  | .ppsEdge .. => ⟨_, rfl, keeps_of_sig (sig_doPpsEdge ..)⟩
  | .ptpSync .. => ⟨_, rfl, keeps_of_sig (sig_doPtpSync ..)⟩
  | .holdover => ⟨_, rfl, keeps_of_sig (sig_doHoldover ..)⟩
  | .paceTimeSet .. => ⟨_, rfl, keeps_of_sig (sig_doPaceTimeSet ..)⟩
  | .governorInterval .. => ⟨_, rfl, keeps_of_sig (sig_doGovernorInterval ..)⟩
  | .thermalTrip .. => ⟨_, rfl, keeps_of_sig (sig_doThermalTrip ..)⟩
  | .regionRecalibration .. => ⟨_, rfl, keeps_of_sig (sig_doRegionRecalibration ..)⟩
  | .paceRecal .. => ⟨_, rfl, keeps_of_sig (sig_doPaceRecal ..)⟩
  | .scrubStep .. => ⟨_, rfl, keeps_of_sig (sig_doScrubStep ..)⟩
  | .ctxHold .. | .ctxRelease .. | .ctxFree .. | .ctxStart .. | .freeAll .. => ⟨_, rfl, keeps_of_sig (sig_ctxCmd ..)⟩
  | .holdAll .. => ⟨_, rfl, keeps_of_sig (sig_doHoldAll ..)⟩
  | .coreRoleWrite .. => ⟨_, rfl, keeps_of_sig (sig_doCoreRoleWrite ..)⟩
  | .syncCfgWrite .. => ⟨_, rfl, keeps_of_sig (sig_doSyncCfgWrite ..)⟩
  | .linkRegisterWrite .. => ⟨_, rfl, keeps_of_sig (sig_doLinkRegisterWrite ..)⟩
  | .registerWrite .. => ⟨_, rfl, keeps_doRegisterWrite ..⟩
  | .routingEntryWrite .. => ⟨_, rfl, keeps_of_sig (sig_doRoutingEntryWrite ..)⟩
  | .bankSwap .. => ⟨_, rfl, keeps_of_sig (sig_doBankSwap ..)⟩
  | .didHold .. => ⟨_, rfl, keeps_of_sig (sig_doDidHold ..)⟩
  | .shaperRateWrite .. => ⟨_, rfl, keeps_of_sig (sig_doShaperRateWrite ..)⟩
  | .shaperReset .. => ⟨_, rfl, keeps_of_sig (sig_doShaperReset ..)⟩
  | .shaperSend .. => ⟨_, rfl, keeps_awake fun _ => sig_doShaperSend ..⟩
  | .shaperFrozenTimeout .. => ⟨_, rfl, keeps_awake fun _ => sig_doShaperFrozenTimeout ..⟩
  | .congestionSample .. => ⟨_, rfl, keeps_of_sig (sig_doCongestionSample ..)⟩
  | .laneRetrain .. => ⟨_, rfl, keeps_of_sig (sig_doLaneRetrain ..)⟩
  | .dataFlit .. => ⟨_, rfl, keeps_of_sig (sig_doDataFlit ..)⟩
  | .ident .. => ⟨_, rfl, keeps_of_sig (sig_doIdent ..)⟩
  | .laneMap .. => ⟨_, rfl, keeps_of_sig (sig_doLaneMap ..)⟩
  | .retrain .. => ⟨_, rfl, keeps_of_sig (sig_doRetrain ..)⟩
  | .ackTimeout .. => ⟨_, rfl, keeps_of_sig (sig_doAckTimeout ..)⟩
  | .trainingAttemptEnd .. => ⟨_, rfl, keeps_of_sig (sig_doTrainingAttemptEnd ..)⟩
  | .portTrainingRetry => ⟨_, rfl, keeps_of_sig (sig_doPortTrainingRetry ..)⟩
  | .fabricPacket .. => ⟨_, rfl, keeps_of_sig (sig_doFabricPacket ..)⟩
  | .hbmAccess .. => ⟨_, rfl, keeps_awake fun _ => sig_doHbmAccess ..⟩
  | .patrolScrub .. => ⟨_, rfl, keeps_of_sig (sig_doPatrolScrub ..)⟩
  | .rangeCreation .. => ⟨_, rfl, keeps_of_sig (sig_doRangeCreation ..)⟩
  | .rangeRemoval .. => ⟨_, rfl, keeps_of_sig (sig_doRangeRemoval ..)⟩
  | .rangeGrowth .. => ⟨_, rfl, keeps_of_sig (sig_doRangeGrowth ..)⟩
  | .rangeFillComplete .. => ⟨_, rfl, keeps_of_sig (sig_doRangeFillComplete ..)⟩
  | .sqTailDoorbell .. => ⟨_, rfl, keeps_of_sig (sig_doSqTailDoorbell ..)⟩
  | .cqHeadDoorbell .. => ⟨_, rfl, keeps_of_sig (sig_doCqHeadDoorbell ..)⟩
  | .commandFetch .. => ⟨_, rfl, keeps_of_sig (sig_doCommandFetch ..)⟩
  | .createQp .. => ⟨_, rfl, keeps_of_sig (sig_doCreateQp ..)⟩
  | .deleteQp .. => ⟨_, rfl, keeps_of_sig (sig_doDeleteQp ..)⟩
  | .identify .. => ⟨_, rfl, keeps_of_sig (sig_doIdentify ..)⟩
  | .dmaToDev .. => ⟨_, rfl, keeps_of_sig (sig_doDmaToDev ..)⟩
  | .dmaFromDev .. => ⟨_, rfl, keeps_of_sig (sig_doDmaFromDev ..)⟩
  | .hostMsg .. => ⟨_, rfl, keeps_of_sig (sig_doHostMsg ..)⟩
  | .hostLoad .. => ⟨_, rfl, keeps_of_sig (sig_doHostLoad ..)⟩
  | .hostUnload .. => ⟨_, rfl, keeps_of_sig (sig_doHostUnload ..)⟩
  | .collDefine .. => ⟨_, rfl, keeps_of_sig (sig_doCollDefine ..)⟩
  | .collDelete .. => ⟨_, rfl, keeps_of_sig (sig_doCollDelete ..)⟩
  | .collectiveExchange .. => ⟨_, rfl, keeps_awake fun _ => sig_doCollectiveExchange ..⟩
  | .ckptAttach .. => ⟨_, rfl, keeps_of_sig (sig_doCkptAttach ..)⟩
  | .ckptDetach .. => ⟨_, rfl, keeps_of_sig (sig_doCkptDetach ..)⟩
  | .ckptWrite .. | .ckptRead .. => ⟨_, rfl, keeps_of_sig (sig_ckTransfer ..)⟩
  | .nvmeCompletion .. => ⟨_, rfl, keeps_of_sig (sig_doNvmeCompletion ..)⟩
  | .nvmeTimeout .. => ⟨_, rfl, keeps_of_sig (sig_doNvmeTimeout ..)⟩
  | .telem .. => ⟨_, rfl, keeps_of_sig (sig_doTelem ..)⟩
  | .telemetryInterval => ⟨_, rfl, keeps_of_sig (sig_doTelemetryInterval ..)⟩
  | .hostCommandComplete .. => ⟨_, rfl, keeps_of_sig (sig_doHostCommandComplete ..)⟩
  | .cqEnable .. => ⟨_, rfl, keeps_of_sig (sig_doCqEnable ..)⟩
  | .hostWindowRead .. => ⟨_, rfl, keeps_of_sig (sig_doHostWindowRead ..)⟩
  | .hostWindowWrite .. => ⟨_, rfl, keeps_of_sig (sig_doHostWindowWrite ..)⟩
  | .flr .. => ⟨_, rfl, keeps_of_sig (sig_doFlr ..)⟩
  | .msixUnmask .. => ⟨_, rfl, keeps_of_sig (sig_doMsixUnmask ..)⟩
  | .getMeasurements .. => ⟨_, rfl, keeps_of_sig (sig_doGetMeasurements ..)⟩
  | .keyExchange .. => ⟨_, rfl, keeps_of_sig (sig_doKeyExchange ..)⟩
  | .ideKm .. => ⟨_, rfl, keeps_of_sig (sig_doIdeKm ..)⟩
  | .lockInterface .. => ⟨_, rfl, keeps_of_sig (sig_doLockInterface ..)⟩
  | .startInterface .. => ⟨_, rfl, keeps_of_sig (sig_doStartInterface ..)⟩
  | .stopInterface .. => ⟨_, rfl, keeps_of_sig (sig_doStopInterface ..)⟩
  | .getDeviceInterfaceReport .. => ⟨_, rfl, keeps_of_sig (sig_doGetDeviceInterfaceReport ..)⟩
  | .deploy .. => ⟨_, rfl, keeps_of_sig (sig_doDeploy ..)⟩
  | .enterService .. => ⟨_, rfl, keeps_of_sig (sig_doEnterService ..)⟩
  | .exitService .. => ⟨_, rfl, keeps_of_sig (sig_doExitService ..)⟩
  | .retire .. => ⟨_, rfl, keeps_of_sig (sig_doRetire ..)⟩
  | .commit .. => ⟨_, rfl, keeps_of_sig (sig_doCommit ..)⟩
  | .ownerChainWrite .. => ⟨_, rfl, keeps_of_sig (sig_doOwnerChainWrite ..)⟩
  | .firmwareUpdate .. => ⟨_, rfl, keeps_of_sig (sig_doFirmwareUpdate ..)⟩
  | .activateFirmware .. => ⟨_, rfl, keeps_of_sig (sig_doActivateFirmware ..)⟩
  | .handoffFallback .. => ⟨_, rfl, keeps_of_sig (sig_doHandoffFallback ..)⟩
  | .residentImageRoll .. => ⟨_, rfl, keeps_of_sig (sig_doResidentImageRoll ..)⟩
  | .pwrOkRise .. => ⟨_, rfl, keeps_doPwrOkRise ..⟩
  | .pwrOkFall => ⟨_, rfl, keeps_doPwrOkFall ..⟩
  | .devRstNFall .. => ⟨_, rfl, keeps_of_sig (sig_doDevRstNFall ..)⟩
  | .devRstNRise .. => ⟨_, rfl, keeps_doDevRstNRise ..⟩
  | .pcieReset .. => ⟨_, rfl, keeps_of_sig (sig_doPcieReset ..)⟩
  | .perstNRise => ⟨_, rfl, keeps_of_sig (sig_doPerstNRise ..)⟩
  | .railLoss .. => ⟨_, rfl, keeps_doRailLoss ..⟩
  | .refclkLoss => ⟨_, rfl, keeps_of_sig (sig_doRefclkLoss ..)⟩
  | .refclkReturn .. => ⟨_, rfl, keeps_doRefclkReturn ..⟩
  | .mclk25Loss => ⟨_, rfl, keeps_of_sig (sig_doMclk25Loss ..)⟩
  | .assignmentDeadline .. => ⟨_, rfl, keeps_doAssignmentDeadline ..⟩
  | .wardenWatchdog .. => ⟨_, rfl, keeps_doWardenWatchdog ..⟩
  | .dormant .. => ⟨_, rfl, keeps_of_sig (sig_doDormant ..)⟩
  | .dormantQuietTimeout => ⟨_, rfl, keeps_of_sig (sig_doDormantQuietTimeout ..)⟩
  | .dormantTimerExpiry => ⟨_, rfl, keeps_of_sig (sig_doDormantTimerExpiry ..)⟩
  | .wakeFromDormant .. => ⟨_, rfl, keeps_of_sig (sig_doWakeFromDormant ..)⟩
  | .report => ⟨_, rfl, keeps_of_sig (sig_doReport ..)⟩
  | .recordClose .. => ⟨_, rfl, keeps_of_sig (sig_doRecordClose ..)⟩
  | .errHeadWrite .. => ⟨_, rfl, keeps_of_sig (sig_doErrHeadWrite ..)⟩
  | .faultAgentAction .. => ⟨_, rfl, keeps_of_sig (sig_doFaultAgentAction ..)⟩
  | .snagRecord .. => ⟨_, rfl, keeps_of_sig (sig_doSnagRecord ..)⟩
  | .kakSweep .. => ⟨_, rfl, keeps_of_sig (sig_doKakSweep ..)⟩
  | .twinMismatch .. => ⟨_, rfl, keeps_awake fun _ => sig_doTwinMismatch ..⟩
  | .mgmtAssign .. => ⟨_, rfl, keeps_doMgmtAssign ..⟩
  | .mgmtAck .. => ⟨_, rfl, keeps_of_sig (sig_doMgmtAck ..)⟩
  | .mgmtBlaze .. => ⟨_, rfl, keeps_of_sig (sig_doMgmtBlaze ..)⟩
  | .mgmtRetirePort .. => ⟨_, rfl, keeps_of_sig (sig_doMgmtRetirePort ..)⟩
  | .mgmtCheck .. => ⟨_, rfl, keeps_of_sig (sig_doMgmtCheck ..)⟩
  | .mgmtReset .. => ⟨_, rfl, keeps_doMgmtReset ..⟩
  | .mgmtRtWrite .. => ⟨_, rfl, keeps_of_sig (sig_doMgmtRtWrite ..)⟩
  | .mgmtHold .. => ⟨_, rfl, keeps_of_sig (sig_doMgmtHold ..)⟩
  | .mgmtSwap .. => ⟨_, rfl, keeps_of_sig (sig_doMgmtSwap ..)⟩
  | .mgmtRelease .. => ⟨_, rfl, keeps_of_sig (sig_doMgmtRelease ..)⟩
  | .mgmtWake .. => ⟨_, rfl, keeps_of_sig (sig_doMgmtWake ..)⟩
  | .mgmtStatus .. => ⟨_, rfl, keeps_of_sig (sig_doMgmtStatus ..)⟩
  | .mgmtReadLog .. => ⟨_, rfl, keeps_of_sig (sig_doMgmtReadLog ..)⟩
  | .groveRelease .. => ⟨_, rfl, keeps_doGroveRelease ..⟩
  | .groveJoin .. => ⟨_, rfl, keeps_doGroveJoin ..⟩
  | .sanitiseComplete .. => ⟨_, rfl, keeps_doSanitiseComplete ..⟩
  | .coreInternalFault .. => ⟨_, rfl, keeps_awake fun _ => sig_doCoreInternalFault ..⟩
  | .undefinedOpcode .. => execUndefinedOpcode_keeps ..
  | .mgmtUndefined .. => ⟨_, rfl, keeps_of_sig (sig_doMgmtUndefined ..)⟩
  | .trngHealthTest .. => ⟨_, rfl, keeps_of_sig (sig_doTrngHealthTest ..)⟩
  | .pcieLinkTrained .. => ⟨_, rfl, keeps_of_sig (sig_doPcieLinkTrained ..)⟩
  | .mclk25Start .. => ⟨_, rfl, keeps_doMclk25Start ..⟩
  | .checkingHoldTimeout .. => ⟨_, rfl, keeps_of_sig (sig_doCheckingHoldTimeout ..)⟩
  | .activationExchangeTimeout => ⟨_, rfl, keeps_of_sig (sig_doActivationExchangeTimeout ..)⟩

/-- Settles O2. -/
theorem everyCommandAnswers : Obligations.EveryCommandAnswers := by
  unfold Obligations.EveryCommandAnswers
  intro i s
  obtain ⟨t, ht, -⟩ := exec_keeps i s
  exact ⟨t, ht⟩

theorem step_of_nil {s : State} (h : s.pending = []) : step s = .next s := by
  rw [step, h]

theorem step_of_cons {s : State} {i : Instr} {r : List Instr} (h : s.pending = i :: r) :
    step s = exec i { s with pending := r } := by
  rw [step, h]

/-- Settles O1. -/
theorem stepRunsFrontCommand : Obligations.StepRunsFrontCommand := by
  unfold Obligations.StepRunsFrontCommand
  exact fun _ => ⟨step_of_nil, fun _ _ => step_of_cons⟩

/-- What a step does to the part, to the commands that wait, and to the registers of `regsOk`. -/
theorem step_keeps {s t : State} (h : step s = .next t) :
    t.part = s.part ∧ t.pending = s.pending.drop 1 ∧ (regsOk s → regsOk t) := by
  cases hp : s.pending with
  | nil =>
    rw [step_of_nil hp] at h
    cases h
    exact ⟨rfl, hp, id⟩
  | cons i r =>
    rw [step_of_cons hp] at h
    obtain ⟨u, hu, hpart, hpending, hregs⟩ := exec_keeps i { s with pending := r }
    cases hu.symm.trans h
    exact ⟨hpart, hpending, hregs⟩

/-- Settles O60: the commands that wait after a step waited before it, and every command keeps the registers legal. -/
theorem stepKeepsInvariant : Obligations.StepKeepsInvariant := by
  unfold Obligations.StepKeepsInvariant
  intro s t h
  obtain ⟨hpart, hpending, hregs⟩ := step_keeps h
  exact ⟨hpart, hpending, fun hs => ⟨fun c hc => hs.1 c (List.mem_of_mem_drop (hpending ▸ hc)), hregs hs.2⟩⟩

end Sys2Proof.Machine
end

section
/-! PROOFS. Class 0 (R196) and class 2 (R198). Every form of class 0 writes into GD a value that it reads off its context; the
operations of a form differ only in the function of the values read. A branch is a jump, whose link is g0 where there is none. -/

namespace Sys2Proof.Machine

/-! ### The forms of class 0 -/

section
variable {s : State} {l : Lcid} {c : CtxNo} {b : BitVec 54} {i : Instr} {op : Nat} {r : Word}

/-- An instruction that issues and writes into register `gd` a value `v` read off its context. `v` may not look at the fetched
slot, which the issue changes before the body runs. -/
theorem answers_writeG {unit gd : Nat} {enc : Bool} {room : Core → Bool} (v : Ctx → Word)
    (hv : ∀ (x : Ctx) n, v { x with slot := n } = v x)
    (hi : exec i s = .next (issue s l c op b unit enc room fun s => finish s l c fun x => writeG x gd (v x)))
    (h : issues s l c b enc room) (hr : v (ctxOf s l c) = r) :
    answers i s fun t => onlyCtx s t l c (completed (ctxOf s l c) fun x => writeG x gd r) := by
  rw [issue_body _ _ _ _ _ _ _ _ _ h] at hi
  subst hr
  exact ⟨_, hi, finish_completed s l c (fun x => writeG x gd (v x)) fun x n => by rw [hv, writeG_slot]⟩

/-- Format RR: `r` is the operation's value on the two registers. -/
theorem answers_doRR {f : Word → Word → Word} (hi : exec i s = .next (doRR l c op b f s))
    (h : issues s l c b (onlyFields b [(46, 4), (42, 4), (38, 4)]) anyRoom)
    (hr : f (gAt (ctxOf s l c) b 42) (gAt (ctxOf s l c) b 38) = r) :
    answers i s fun t => onlyCtx s t l c (completed (ctxOf s l c) fun x => writeG x (fld b 46 4) r) :=
  answers_writeG (fun x => f (gAt x b 42) (gAt x b 38)) (fun _ _ => rfl) hi h hr

/-- Format RI: `r` is the operation's value on the register and the immediate. -/
theorem answers_doRI {f : Word → Word → Word} (hi : exec i s = .next (doRI l c op b f s))
    (h : issues s l c b (onlyFields b [(46, 4), (42, 4), (0, 32)]) anyRoom)
    (hr : f (gAt (ctxOf s l c) b 42) (imm32 b) = r) :
    answers i s fun t => onlyCtx s t l c (completed (ctxOf s l c) fun x => writeG x (fld b 46 4) r) :=
  answers_writeG (fun x => f (gAt x b 42) (imm32 b)) (fun _ _ => rfl) hi h hr

/-- Format RI with a shift amount. -/
theorem answers_doShI {f : Word → Nat → Word} (hi : exec i s = .next (doShI l c op b f s))
    (h : issues s l c b (onlyFields b [(46, 4), (42, 4), (0, 6)]) anyRoom)
    (hr : f (gAt (ctxOf s l c) b 42) (fld b 0 6) = r) :
    answers i s fun t => onlyCtx s t l c (completed (ctxOf s l c) fun x => writeG x (fld b 46 4) r) :=
  answers_writeG (fun x => f (gAt x b 42) (fld b 0 6)) (fun _ _ => rfl) hi h hr

/-- LI and LIH. -/
theorem answers_doConst {f : Word → BitVec 32 → Word} (hi : exec i s = .next (doConst l c op b f s))
    (h : issues s l c b (onlyFields b [(46, 4), (0, 32)]) anyRoom)
    (hr : f (gAt (ctxOf s l c) b 46) (b.extractLsb' 0 32) = r) :
    answers i s fun t => onlyCtx s t l c (completed (ctxOf s l c) fun x => writeG x (fld b 46 4) r) :=
  answers_writeG (fun x => f (gAt x b 46) (b.extractLsb' 0 32)) (fun _ _ => rfl) hi h hr

end

theorem shAmt_eq_mod (w : Word) : shAmt w = w.toNat % 64 := by simp [shAmt, fld]

theorem toNat_extractLsb'_zero (b : BitVec 54) : (b.extractLsb' 0 32).toNat = fld b 0 32 := by simp [fld]

/-- Settles O3: form by form, each operation being the one of Table 07.4 on the values that its form reads. -/
theorem scalarForms : Obligations.ScalarForms := by
  unfold Obligations.ScalarForms
  refine ⟨fun s l c b h => ?_, fun s l c b => ⟨fun h => ?_, fun h => ?_, fun h => ?_⟩⟩
  · refine ⟨?add, ?sub, ?mul, ?mulhs, ?mulhu, ?and, ?or, ?xor, ?shl, ?shrl, ?shra, ?mins, ?maxs, ?minu, ?maxu⟩
    case shl => exact answers_doRR rfl h (congrArg (_ <<< ·) (shAmt_eq_mod _))
    case shrl => exact answers_doRR rfl h (congrArg (_ >>> ·) (shAmt_eq_mod _))
    case shra => exact answers_doRR rfl h (congrArg (BitVec.sshiftRight _) (shAmt_eq_mod _))
    all_goals exact answers_doRR rfl h rfl
  · exact ⟨answers_doRI rfl h rfl, answers_doRI rfl h rfl, answers_doRI rfl h rfl, answers_doRI rfl h rfl⟩
  · exact ⟨answers_doShI rfl h rfl, answers_doShI rfl h rfl, answers_doShI rfl h rfl⟩
  · refine ⟨answers_doConst rfl h rfl, answers_doConst rfl h ?_⟩
    rw [toNat_extractLsb'_zero]
    rfl

/-! ### Branches -/

section
variable {s : State} {l : Lcid} {c : CtxNo}

/-- What a jump of an instruction just fetched changes: R198's link, and a slot given up. -/
theorem jump_fetched (s : State) (l : Lcid) (c : CtxNo) (gd : Nat) (target : BitVec 21) :
    onlyCtx s (jump (fetched s l c) l c gd target) l c
      { writeG (ctxOf s l c) gd (BitVec.ofNat 64 ((ctxOf s l c).pc + 8).toNat) with
        pc := target, slot := none, deadline := none } := by
  refine ⟨?_, fun c' h => ?_, by simp [jump, fetched], fun l' h => ?_, by simp [jump, fetched]⟩
  · simp [jump, fetched, writeG_slot, wd]
  · simp [jump, fetched, ctxOf_modCtxOf_other _ _ _ _ _ h]
  · simp [jump, fetched, modCtxOf, getCore_modCore_other _ _ _ _ h]

@[simp] theorem pc_fetched (s : State) (l : Lcid) (c : CtxNo) : (ctxOf (fetched s l c) l c).pc = (ctxOf s l c).pc := by
  simp [fetched]

@[simp] theorem readG_fetched (s : State) (l : Lcid) (c : CtxNo) (i : Nat) :
    readG (ctxOf (fetched s l c) l c) i = readG (ctxOf s l c) i := by
  simp [fetched]

theorem off19_eq_mul (b : BitVec 54) : off19 b = 8#21 * (b.extractLsb' 0 19).signExtend 21 := by
  rw [off19, BitVec.shiftLeft_eq_mul_twoPow, BitVec.mul_comm]
  rfl

/-- R198: an address register names a word of the scratchpad. -/
theorem fld_high_eq_zero_iff (w : Word) : fld w 21 43 = 0 ↔ w.toNat < 2 ^ 21 := by
  have := w.isLt
  simp only [fld, Nat.shiftRight_eq_div_pow]
  omega

theorem fld_low3 (w : Word) : fld w 0 3 = w.toNat % 8 := by simp [fld]

variable {b : BitVec 54} {op : Nat} {i : Instr}

/-- BR and BL. -/
theorem answers_doBranch {link : Bool} (hi : exec i s = .next (doBranch l c op b link s))
    (h : issues s l c b (onlyFields b (if link then [(46, 4), (0, 19)] else [(0, 19)])) anyRoom) :
    answers i s fun t => onlyCtx s t l c
      { writeG (ctxOf s l c) (if link then fld b 46 4 else 0) (BitVec.ofNat 64 ((ctxOf s l c).pc + 8).toNat) with
        pc := (ctxOf s l c).pc + 8#21 * (b.extractLsb' 0 19).signExtend 21, slot := none, deadline := none } := by
  rw [doBranch, issue_body _ _ _ _ _ _ _ _ _ h, pc_fetched, off19_eq_mul] at hi
  exact ⟨_, hi, jump_fetched ..⟩

/-- BRI and BLI, by their target. -/
theorem answers_doBranchTo {link : Bool} (hi : exec i s = .next (doBranchTo l c op b link s))
    (h : issues s l c b (onlyFields b (if link then [(46, 4), (42, 4)] else [(42, 4)])) anyRoom) :
    let ga := readG (ctxOf s l c) (fld b 42 4)
    (2 ^ 21 ≤ ga.toNat → answers i s fun t => t = precise (fetched s l c) l c sBOUNDS 0 ga) ∧
    (ga.toNat < 2 ^ 21 → ga.toNat % 8 ≠ 0 → answers i s fun t => t = precise (fetched s l c) l c sALIGN 0 ga) ∧
    (ga.toNat < 2 ^ 21 → ga.toNat % 8 = 0 → answers i s fun t => onlyCtx s t l c
      { writeG (ctxOf s l c) (if link then fld b 46 4 else 0) (BitVec.ofNat 64 ((ctxOf s l c).pc + 8).toNat) with
        pc := BitVec.ofNat 21 ga.toNat, slot := none, deadline := none }) := by
  rw [doBranchTo, issue_body _ _ _ _ _ _ _ _ _ h] at hi
  simp only [gAt, readG_fetched, fld_low3, ne_eq, fld_high_eq_zero_iff] at hi
  refine ⟨fun hbounds => ?_, fun hlt hmod => ?_, fun hlt hmod => ?_⟩
  · rw [if_pos (by omega)] at hi
    exact ⟨_, hi, rfl⟩
  · rw [if_neg (by omega), if_pos hmod] at hi
    exact ⟨_, hi, rfl⟩
  · rw [if_neg (by omega), if_neg (by omega)] at hi
    exact ⟨_, hi, jump_fetched ..⟩

end

/-- Settles O5. -/
theorem branches : Obligations.Branches := by
  unfold Obligations.Branches
  refine fun s l c b => ⟨fun h => ?_, fun h => ?_, fun h => ?_, fun h => ?_⟩
  · exact answers_doBranch (link := false) rfl h
  · exact answers_doBranch (link := true) rfl h
  · exact answers_doBranchTo (link := false) rfl h
  · exact answers_doBranchTo (link := true) rfl h

end Sys2Proof.Machine
end

section
/-! PROOFS. Bytes of a slice, and what an instruction that completes leaves of its core: the rules that the narrow accesses, the
queues and the units share. -/

namespace Sys2Proof.Machine

/-! ### Lists and bytes -/

theorem firstThat_eq_find? {α : Type} (p : α → Bool) (l : List α) : firstThat p l = l.find? p := by
  induction l with
  | nil => rfl
  | cons a r ih => rw [firstThat, List.find?_cons, ih]; cases p a <;> rfl

theorem mem_upto {a n i : Nat} : i ∈ upto a n ↔ a ≤ i ∧ i < a + n := by
  simp [upto_eq_range', List.mem_range'_1]

@[simp] theorem length_upto (a n : Nat) : (upto a n).length = n := by simp [upto_eq_range']

@[simp] theorem length_leBytes (n v : Nat) : (leBytes n v).length = n := by
  induction n generalizing v with
  | zero => rfl
  | succ n ih => simp [leBytes, ih]

theorem getElem_leBytes (n v j : Nat) (h : j < (leBytes n v).length) :
    (leBytes n v)[j] = BitVec.ofNat 8 (v / 256 ^ j) := by
  induction n generalizing v j with
  | zero => simp at h
  | succ n ih =>
    cases j with
    | zero => simp [leBytes]
    | succ j => simp [leBytes, ih, Nat.div_div_eq_div_mul, Nat.pow_succ, Nat.mul_comm]

theorem leNat_lt (l : List Byte) : leNat l < 256 ^ l.length := by
  induction l with
  | nil => decide
  | cons b r ih =>
    have := b.isLt
    rw [leNat, List.length_cons, Nat.pow_succ]
    omega

theorem rdNum_lt (m : Memory) (a n : Nat) : rdNum m a n < 2 ^ (8 * n) := by
  have h := leNat_lt (rdBytes m a n)
  rwa [rdBytes, List.length_map, length_upto, show (256 : Nat) = 2 ^ 8 from rfl, ← Nat.pow_mul] at h

/-! ### Poison (R224, R225) -/

theorem mem_chunksOf {a n ch : Nat} (hn : 0 < n) (h : a / 32 ≤ ch) (h' : 32 * ch < a + n) : ch ∈ chunksOf a n := by
  unfold chunksOf
  rw [if_neg (by omega), mem_upto]
  omega

/-- No chunk that an unpoisoned range touches is marked. -/
theorem not_sHas_of_poisonAt_none {sl : Slice} {a n : Nat} (h : poisonAt sl a n = none) (hn : 0 < n)
    {ch : Nat} (h1 : a / 32 ≤ ch)
    (h2 : 32 * ch < a + n) : sHas sl.bad ch = false := by
  unfold poisonAt at h
  split at h
  · have hbad : sl.bad = [] := List.isEmpty_iff.1 ‹_›
    simp [sHas, hbad]
  · rw [Option.map_eq_none_iff, firstThat_eq_find?, List.find?_eq_none] at h
    simpa using h ch (mem_chunksOf hn h1 h2)

/-- A write within one chunk that is not marked and not covered whole writes its bytes and nothing else. -/
theorem slPut_within_chunk (sl : Slice) (a : Nat) (bs : List Byte) (hlen : bs.length < 32) (ha : a % 32 + bs.length ≤ 32)
    (hbad : sHas sl.bad (a / 32) = false) : slPut sl a bs = { sl with mem := wrBytes sl.mem a bs } := by
  cases bs with
  | nil => rfl
  | cons b r =>
    have htake : (b :: r).take (32 - a % 32) = b :: r := List.take_of_length_le (by omega)
    have hdrop : (b :: r).drop (32 - a % 32) = [] := List.drop_of_length_le (by omega)
    have hfull : ((b :: r).length == 32) = false := beq_false_of_ne (by omega)
    simp only [slPut, slWrite, slWriteGo, htake, hdrop, hfull, hbad, Bool.false_and, Bool.false_eq_true, if_false]

/-! ### Instructions that complete -/

section
variable {s t : State} {l : Lcid} {c : CtxNo} {x : Ctx} {k k' : Core}

theorem onlyCore_congr (h : onlyCore s t l c x k) (hk : coreRest k = coreRest k') : onlyCore s t l c x k' := by
  obtain ⟨h1, h2, h3, h4, h5⟩ := h
  exact ⟨h1, h2, h3.trans hk, h4, h5⟩

@[simp] theorem coreRest_fetched (s : State) (l : Lcid) (c : CtxNo) :
    coreRest (getCore (fetched s l c) l) = coreRest (getCore s l) := by
  simp [fetched]

@[simp] theorem sp_fetched (s : State) (l : Lcid) (c : CtxNo) : (getCore (fetched s l c) l).sp = (getCore s l).sp := by
  simp [fetched]

@[simp] theorem un_fetched (s : State) (l : Lcid) (c : CtxNo) : (getCore (fetched s l c) l).un = (getCore s l).un := by
  simp [fetched]

/-- A completing instruction that changes the parts of its core by `g`, which neither reads nor writes the contexts, and its
context by an effect that does not touch the fetched slot. -/
theorem finish_modCore_completed (s : State) (l : Lcid) (c : CtxNo) (g : Core → Core) (f : Ctx → Ctx)
    (hg : ∀ k xs, g { k with ctxs := xs } = { g k with ctxs := xs })
    (hf : ∀ (x : Ctx) n, f { x with slot := n } = { f x with slot := n }) :
    onlyCore s (finish (modCore (fetched s l c) l g) l c f) l c (completed (ctxOf s l c) f) (g (getCore s l)) := by
  have hctxs : ∀ k, (g k).ctxs = k.ctxs := fun k => by rw [show g k = _ from hg k k.ctxs]
  have h := finish_modCore_fetched s l c g f fun k c' => by rw [getCtx, hctxs, ← getCtx]
  rw [hf] at h
  refine onlyCore_congr h ?_
  have hk : getCore (fetched s l c) l = { getCore s l with ctxs := (getCore (fetched s l c) l).ctxs } := by
    simp [fetched, modCtx, setCtx]
  rw [hk, hg]
  rfl

end

end Sys2Proof.Machine
end

section
/-! PROOFS. Narrow loads and stores (R199): the checks of an address of the own scratchpad, what an access there does, and what an
access does by the outcome of its checks. -/

namespace Sys2Proof.Machine

/-! ### Values -/

theorem wd_unsigned (i : Int) : wd (unsigned 64 i) = BitVec.ofInt 64 i := by
  have h : i % (2 ^ 64 : Int) < 2 ^ 64 := Int.emod_lt_of_pos _ (by decide)
  apply BitVec.eq_of_toNat_eq
  simp only [wd, unsigned, BitVec.toNat_ofNat, BitVec.toNat_ofInt, Nat.cast_pow, Nat.cast_ofNat]
  omega

theorem signed_eq_toInt (k v : Nat) : signed k v = (BitVec.ofNat k v).toInt := by
  rw [BitVec.toInt_eq_toNat_cond, BitVec.toNat_ofNat, signed]
  split_ifs <;> first | rfl | omega

theorem loadValue_zero {n v : Nat} (h : v < 2 ^ (8 * n)) : loadValue n false v = BitVec.ofNat 64 v := by
  simp [loadValue, Nat.mod_eq_of_lt h, wd]

theorem loadValue_sign (n v : Nat) : loadValue n true v = (BitVec.ofNat (8 * n) v).signExtend 64 := by
  rw [loadValue, if_pos rfl, wd_unsigned, signed_eq_toInt, BitVec.signExtend]

/-! ### The checks -/

section
variable {s : State} {l : Lcid} {c : CtxNo} {b : BitVec 54} {i : Instr} {op n : Nat} {w : Word}

theorem fld_low_eq {w : Word} (h : w.toNat < 2 ^ 21) : fld w 0 21 = w.toNat := by
  simp only [fld, Nat.shiftRight_zero]
  exact Nat.mod_eq_of_lt h

theorem addrOf_own (h : w.toNat < 2 ^ 21) : addrOf w = some (.own w.toNat) := by
  have htop : fld w 62 2 = 0 := by simp only [fld, Nat.shiftRight_eq_div_pow]; omega
  have hmid : fld w 21 41 = 0 := by simp only [fld, Nat.shiftRight_eq_div_pow]; omega
  simp only [addrOf, htop, hmid, if_true, fld_low_eq h]

theorem addrOf_malformed (h : 2 ^ 21 ≤ w.toNat) (h' : w.toNat < 2 ^ 62) : addrOf w = none := by
  have htop : fld w 62 2 = 0 := by simp only [fld, Nat.shiftRight_eq_div_pow]; omega
  have hmid : fld w 21 41 ≠ 0 := by simp only [fld, Nat.shiftRight_eq_div_pow]; omega
  simp only [addrOf, htop, hmid, if_false]

/-- The checks of an address below the scratchpad's end: BOUNDS, then ALIGN. -/
theorem narrowFault_own (s : State) (l : Lcid) (h : w.toNat < 2 ^ 21) (hn : 0 < n) :
    narrowFault s l w n = if 2 ^ 21 < w.toNat + n then some sBOUNDS else if w.toNat % n ≠ 0 then some sALIGN else none := by
  have hn' : (n == 0) = false := beq_false_of_ne (by omega)
  have hspace : (!inSpace s (partOf s (dgOf l)) (.own w.toNat) n) = decide (2 ^ 21 < w.toNat + n) := by
    rw [inSpace, hn', Bool.false_or, sliceBytes, ← decide_not]
    exact decide_eq_decide.2 (by omega)
  simp [narrowFault, addrOf_own h, hspace, mayReach, vacantAddr, cutOff]

theorem narrowFault_past (s : State) (l : Lcid) (h : w.toNat < 2 ^ 62) (hn : 0 < n) (hb : 2 ^ 21 < w.toNat + n) :
    narrowFault s l w n = some sBOUNDS := by
  by_cases hw : w.toNat < 2 ^ 21
  · rw [narrowFault_own s l hw hn, if_pos hb]
  · rw [narrowFault, addrOf_malformed (by omega) h]

/-! ### What an access does, by the outcome of its checks -/

theorem narrowFault_fetched (s : State) (l : Lcid) (c : CtxNo) (w : Word) (n : Nat) :
    narrowFault (fetched s l c) l w n = narrowFault s l w n := rfl

theorem place_fetched (s : State) (l : Lcid) (c : CtxNo) (q : Addr) :
    place (fetched s l c) l (corePart (fetched s l c) l) q = place s l (corePart s l) q := rfl

theorem hasRoute_fetched (s : State) (l : Lcid) (c : CtxNo) (d : Did) : hasRoute (fetched s l c) d = hasRoute s d := rfl

/-- Every outcome of a narrow access that issues. -/
theorem answers_doNarrow {load sext : Bool} (hi : exec i s = .next (doNarrow l c op b n load sext s))
    (h : issues s l c b (onlyFields b [(46, 4), (42, 4), (0, 32)]) anyRoom) :
    let w := readG (ctxOf s l c) (fld b 42 4) + (b.extractLsb' 0 32).signExtend 64
    let s1 := fetched s l c
    (∀ st, narrowFault s l w n = some st →
      answers i s fun t => t = precise s1 l c st 0 (if st = sPERM then insWord op b else w)) ∧
    (narrowFault s l w n = none → ∀ q, addrOf w = some q →
      let pl := place s l (corePart s l) q
      let away := match pl with
        | .slice t _ => t ≠ l
        | .hbm _ _ => True
        | .remote d _ _ => hasRoute s d = true
      (∀ o, pl = .slice l o → answers i s fun t => t = narrowOwn s1 l c w o n (fld b 46 4) load sext) ∧
      (away → answers i s fun t => t = narrowSend s1 l c w pl n (fld b 46 4) load sext) ∧
      (∀ d t o, pl = .remote d t o → hasRoute s d = false →
        answers i s fun t => t = advance (narrowNoEffect s1 l sNOROUTE w) l c)) := by
  rw [doNarrow, issue_body _ _ _ _ _ _ _ _ _ h] at hi
  simp only [gAt, imm32, readG_fetched, narrowFault_fetched, place_fetched, hasRoute_fetched] at hi
  intro w s1
  refine ⟨fun st hst => ⟨_, hi, ?_⟩, fun hok q hq => ?_⟩
  · rw [show narrowFault s l _ n = some st from hst]
  · rw [show narrowFault s l _ n = none from hok, show addrOf _ = some q from hq] at hi
    refine ⟨fun o ho => ⟨_, hi, ?_⟩, fun haway => ⟨_, hi, ?_⟩, fun d t o ho hr => ⟨_, hi, ?_⟩⟩
    · simp only [ho, if_true]; rfl
    · cases hp : place s l (corePart s l) q with
      | slice t o => simp only [hp] at haway; simp only [hp, if_neg haway]; rfl
      | hbm n o => simp only [hp]; rfl
      | remote d t o => simp only [hp] at haway; simp only [hp, haway, if_true]; rfl
    · simp only [ho, hr, Bool.false_eq_true, if_false]; rfl

/-- An aligned access within the own scratchpad passes its checks. -/
theorem answers_doNarrow_own {load sext : Bool} (hi : exec i s = .next (doNarrow l c op b n load sext s))
    (h : issues s l c b (onlyFields b [(46, 4), (42, 4), (0, 32)]) anyRoom) (hn : 0 < n)
    (hw : readG (ctxOf s l c) (fld b 42 4) + (b.extractLsb' 0 32).signExtend 64 = w)
    (hin : w.toNat + n ≤ 2 ^ 21) (hal : w.toNat % n = 0) :
    exec i s = .next (narrowOwn (fetched s l c) l c w w.toNat n (fld b 46 4) load sext) := by
  have hlt : w.toNat < 2 ^ 21 := by omega
  have hok : narrowFault s l w n = none := by
    rw [narrowFault_own s l hlt hn, if_neg (by omega), if_neg (by omega)]
  subst hw
  obtain ⟨-, hpass⟩ := answers_doNarrow hi h
  obtain ⟨t, ht, rfl⟩ := (hpass hok _ (addrOf_own hlt)).1 _ rfl
  exact ht

/-- R199, R225: the faults of an access to the own scratchpad or past its end. -/
theorem answers_doNarrow_faults {load sext : Bool} (hi : exec i s = .next (doNarrow l c op b n load sext s))
    (h : issues s l c b (onlyFields b [(46, 4), (42, 4), (0, 32)]) anyRoom) (hn : 0 < n) :
    let w := readG (ctxOf s l c) (fld b 42 4) + (b.extractLsb' 0 32).signExtend 64
    let a := w.toNat
    a < 2 ^ 62 →
      (2 ^ 21 < a + n → answers i s fun t => t = precise (fetched s l c) l c sBOUNDS 0 w) ∧
      (a + n ≤ 2 ^ 21 → a % n ≠ 0 → answers i s fun t => t = precise (fetched s l c) l c sALIGN 0 w) ∧
      (a + n ≤ 2 ^ 21 → a % n = 0 → (poisonAt (getCore s l).sp a n).isSome →
        answers i s fun t => t = precise (fetched s l c) l c sPOISON 0 w) := by
  intro w a ha
  obtain ⟨hfault, -⟩ := answers_doNarrow hi h
  refine ⟨fun hb => hfault _ (narrowFault_past s l ha hn hb), fun hin hal => ?_, fun hin hal hp => ?_⟩
  · have hlt : w.toNat < 2 ^ 21 := show a < 2 ^ 21 by omega
    exact hfault sALIGN (by rw [narrowFault_own s l hlt hn, if_neg (Nat.not_lt.2 hin), if_pos hal])
  · refine ⟨_, answers_doNarrow_own hi h hn rfl hin hal, ?_⟩
    rw [narrowOwn, sp_fetched, if_pos hp]

/-- R199: a load that meets no fault. -/
theorem answers_doNarrow_load {sext : Bool} {v : Word} (hi : exec i s = .next (doNarrow l c op b n true sext s))
    (h : issues s l c b (onlyFields b [(46, 4), (42, 4), (0, 32)]) anyRoom) (hn : 0 < n) :
    let a := (readG (ctxOf s l c) (fld b 42 4) + (b.extractLsb' 0 32).signExtend 64).toNat
    loadValue n sext (rdNum (getCore s l).sp.mem a n) = v →
    a + n ≤ 2 ^ 21 → a % n = 0 → poisonAt (getCore s l).sp a n = none →
      answers i s fun t => onlyCtx s t l c (completed (ctxOf s l c) fun x => writeG x (fld b 46 4) v) := by
  intro a hv hin hal hp
  refine ⟨_, answers_doNarrow_own hi h hn rfl hin hal, ?_⟩
  rw [narrowOwn, sp_fetched, hp, if_neg (by simp), if_pos rfl, hv]
  exact finish_completed s l c (fun x => writeG x (fld b 46 4) v) fun x m => writeG_slot x _ _ m

/-- R199: a store that meets no fault. An aligned access of 1, 2, 4 or 8 bytes lies in one chunk. -/
theorem answers_doNarrow_store (hi : exec i s = .next (doNarrow l c op b n false false s))
    (h : issues s l c b (onlyFields b [(46, 4), (42, 4), (0, 32)]) anyRoom) (hn : 0 < n) (h8 : n ∣ 8) :
    let a := (readG (ctxOf s l c) (fld b 42 4) + (b.extractLsb' 0 32).signExtend 64).toNat
    let k := getCore s l
    let v := (readG (ctxOf s l c) (fld b 46 4)).toNat
    a + n ≤ 2 ^ 21 → a % n = 0 → poisonAt k.sp a n = none →
      answers i s fun t => ∃ m : Memory, onlyCore s t l c (completed (ctxOf s l c) id) { k with sp := { k.sp with mem := m } } ∧
        (∀ j, j < n → rdByte m (a + j) = BitVec.ofNat 8 (v / 256 ^ j)) ∧
        (∀ i, i < a ∨ a + n ≤ i → rdByte m i = rdByte k.sp.mem i) := by
  intro a k v hin hal hp
  have hn8 : n ≤ 8 := Nat.le_of_dvd (by decide) h8
  have hchunk : a % 32 + n ≤ 32 := by
    obtain ⟨m, hm⟩ : n ∣ 32 := h8.trans (by decide)
    obtain ⟨q, hq⟩ := Nat.dvd_of_mod_eq_zero hal
    have hmod : a % 32 = n * (q % m) := by rw [hq, hm, Nat.mul_mod_mul_left]
    have hlt : q % m + 1 ≤ m := Nat.mod_lt _ (Nat.pos_of_ne_zero fun h0 => by simp [h0] at hm)
    calc a % 32 + n = n * (q % m + 1) := by rw [hmod, Nat.mul_succ]
      _ ≤ n * m := Nat.mul_le_mul_left n hlt
      _ = 32 := hm.symm
  have hput : slPut k.sp a (leBytes n v) = { k.sp with mem := wrBytes k.sp.mem a (leBytes n v) } :=
    slPut_within_chunk _ _ _ (by simp; omega) (by simpa using hchunk)
      (not_sHas_of_poisonAt_none hp hn (Nat.le_refl _) (by omega))
  refine ⟨_, answers_doNarrow_own hi h hn rfl hin hal, wrBytes k.sp.mem a (leBytes n v), ?_, fun j hj => ?_, fun i hi => ?_⟩
  · rw [narrowOwn, sp_fetched, show poisonAt _ _ _ = none from hp, if_neg (by simp), if_neg (by simp)]
    have hdone := finish_modCore_completed s l c (fun k => modSp k fun sl => slPut sl a (leBytes n v)) id
      (fun _ _ => rfl) fun _ _ => rfl
    rw [readG_fetched]
    exact onlyCore_congr hdone (by rw [modSp, hput])
  · rw [rdByte_wrBytes_in _ _ _ _ (by simpa using hj), getElem_leBytes]
  · exact rdByte_wrBytes_out _ _ _ _ (by simpa using hi)

end

/-- Settles O6. -/
theorem narrowOwnAccesses : Obligations.NarrowOwn := by
  unfold Obligations.NarrowOwn
  refine ⟨fun s l c b h => ?loads, fun s l c b h => ?stores, fun s l c b h => ?faults, fun s l c b h => ?rest⟩
  case loads =>
    refine ⟨?ldb, ?ldh, ?ldw, ?ldd, ?ldbs, ?ldhs, ?ldws⟩
    case ldbs | ldhs | ldws => exact answers_doNarrow_load rfl h (by decide) (loadValue_sign _ _)
    all_goals exact answers_doNarrow_load rfl h (by decide) (loadValue_zero (rdNum_lt _ _ _))
  case stores =>
    refine ⟨?_, ?_, ?_, ?_⟩ <;> exact answers_doNarrow_store rfl h (by decide) (by decide)
  case faults =>
    refine ⟨?_, ?_, ?_, ?_, ?_, ?_, ?_, ?_, ?_, ?_, ?_⟩ <;> exact answers_doNarrow_faults rfl h (by decide)
  case rest =>
    refine ⟨?_, ?_, ?_, ?_, ?_, ?_, ?_, ?_, ?_, ?_, ?_⟩ <;> exact answers_doNarrow rfl h

end Sys2Proof.Machine
end

section
/-! PROOFS. The checks at issue (R190, R191, R193), FFENCE (R200), and the entry into a precise fault (R177, R179, R181). -/

namespace Sys2Proof.Machine

section
variable {s : State} {l : Lcid} {c : CtxNo} {b : BitVec 54}

/-! ### The checks at issue -/

/-- R192, R193: a reserved bit is set. -/
theorem issue_rsvd (op unit : Nat) (room : Core → Bool) (body : State → State) (hmay : mayIssue s l c = true)
    (hfetch : fetchPoisoned s l c = false) :
    issue s l c op b unit false room body = precise (fetched s l c) l c sRSVD unit (insWord op b) := by
  simp [issue, hmay, hfetch]

/-- R188: the guard does not hold. -/
theorem issue_guarded (op unit : Nat) (room : Core → Bool) (body : State → State) (hmay : mayIssue s l c = true)
    (hfetch : fetchPoisoned s l c = false) (hguard : guardHolds (ctxOf s l c) b = false) :
    issue s l c op b unit true room body = advance (fetched s l c) l c := by
  simp [issue, hmay, hfetch, hguard]

theorem advance_completed (s : State) (l : Lcid) (c : CtxNo) :
    onlyCtx s (advance (fetched s l c) l c) l c (completed (ctxOf s l c) id) :=
  finish_completed s l c id fun _ _ => rfl

theorem fld_opcode (w : Word) : fld w 54 10 = w.toNat / 2 ^ 54 := by
  have := w.isLt
  simp only [fld, Nat.shiftRight_eq_div_pow]
  omega

/-- R191. -/
theorem exec_undefinedOpcode {w : Word} (hmay : mayIssue s l c = true) (hfetch : fetchPoisoned s l c = false)
    (hop : opcodeDefined (w.toNat / 2 ^ 54) = false) :
    exec (.undefinedOpcode l c w) s = .next (precise (fetched s l c) l c sUNDEF (classUnit (w.toNat / 2 ^ 54)) w) := by
  show execUndefinedOpcode l c w s = _
  simp only [execUndefinedOpcode, fld_opcode, hmay, hop, hfetch, Bool.not_true, Bool.or_self, Bool.false_eq_true, if_false]

/-! ### Fault entry -/

theorem getCore_programFault_other (s : State) {l l' : Lcid} (c : CtxNo) (cause : Status) (r0 d : Word) (h : l' ≠ l) :
    getCore (programFault s l c cause r0 d) l' = getCore s l' := by
  unfold programFault
  split <;> exact getCore_modCore_other _ _ _ _ h

/-- R181: without fault notices, the fault interrupt is raised. -/
theorem getCore_programFault (c : CtxNo) (cause : Status) (r0 d : Word) (h : bit (getCore s l).ctrl 28 = false) :
    getCore (programFault s l c cause r0 d) l = { getCore s l with irqs := (getCore s l).irqs + 1 } := by
  have hraise : ∀ r, getCore (raise s r) l = getCore s l := fun _ => rfl
  unfold programFault
  split <;> simp [hraise, h]

/-- A context that waits for nothing has nothing to abandon. -/
theorem abandonWait_none (h : (ctxOf s l c).wait = .none) : abandonWait s l c = s := by
  rw [abandonWait, h]

/-- The context as a precise program fault leaves it. -/
def faultedCtx (x : Ctx) (st : Status) (unit : Nat) (d : Word) : Ctx :=
  { x with st := .faulted, wait := .none, deadline := none, fr1 := d, fr0 := fr0Of st false unit x.pc }

/-- The core as a precise program fault of context `c` leaves it, where there are no fault notices. -/
theorem getCore_precise {st : Status} {unit : Nat} {d : Word} (hst : (ctxOf s l c).st = .ready)
    (hwait : (ctxOf s l c).wait = .none) (hprog : hardware st = false) (hnotice : bit (getCore s l).ctrl 28 = false) :
    getCore (precise s l c st unit d) l =
      let k := bumpFaults (setCtx (getCore s l) c (faultedCtx (ctxOf s l c) st unit d))
      { k with irqs := k.irqs + 1 } := by
  have hset : setSt (ctxOf s l c) .faulted = { ctxOf s l c with st := .faulted } := by simp [setSt, hst]
  simp only [precise, faultCtx, effSt, hst, hprog, abandonWait_none hwait, reduceCtorEq, Bool.false_eq_true, if_false]
  rw [getCore_programFault, getCore_modCore]
  · rw [modCtx, show getCtx (getCore s l) c = ctxOf s l c from rfl, hset]; rfl
  · rw [getCore_modCore]; exact hnotice

theorem getCore_precise_other {l' : Lcid} (hl : l' ≠ l) {st : Status} (unit : Nat) (d : Word)
    (hst : (ctxOf s l c).st = .ready) (hwait : (ctxOf s l c).wait = .none) (hprog : hardware st = false) :
    getCore (precise s l c st unit d) l' = getCore s l' := by
  simp only [precise, faultCtx, effSt, hst, hprog, abandonWait_none hwait, reduceCtorEq, Bool.false_eq_true, if_false]
  rw [getCore_programFault_other _ _ _ _ _ hl, getCore_modCore_other _ _ _ _ hl]

theorem toNat_satAdd {w n : Nat} : (BitVec.ofNat w (satAdd w n 1)).toNat = min (n + 1) (2 ^ w - 1) := by
  have : 0 < 2 ^ w := Nat.two_pow_pos w
  rw [satAdd, BitVec.toNat_ofNat, Nat.mod_eq_of_lt (by omega)]

theorem fr0Of_precise (st : Status) (unit : Nat) (pc : BitVec 21) :
    fr0Of st false unit pc = BitVec.ofNat 64 (st.toNat * 2 ^ 56 + unit % 8 * 2 ^ 51 + pc.toNat) := by
  simp [fr0Of, bitAt, wd]

end

/-- Settles O7. -/
theorem issueChecksAndFaultEntry : Obligations.IssueChecksAndFaultEntry := by
  unfold Obligations.IssueChecksAndFaultEntry
  refine ⟨⟨fun s l c b h => ?ffence, fun s l c hmay hfetch => ⟨fun w hw => ?undef, fun b hb => ?rsvd, fun b hb hguard => ?guard⟩⟩,
    fun s l c st u d hst hwait hprog hnotice => ?fault⟩
  case ffence =>
    exact ⟨_, congrArg Host.Outcome.next (issue_body _ _ _ _ _ _ _ _ _ h),
      finish_fetched s l c fun x => { x with slot := none }⟩
  case undef => exact ⟨_, exec_undefinedOpcode hmay hfetch hw, rfl⟩
  case rsvd =>
    refine ⟨_, rfl, ?_⟩
    rw [doRR, hb, issue_rsvd _ _ _ _ hmay hfetch]
  case guard =>
    refine ⟨_, rfl, ?_⟩
    rw [doRR, hb, issue_guarded _ _ _ _ hmay hfetch hguard]
    exact advance_completed s l c
  case fault =>
    have hcore := getCore_precise (unit := u) (d := d) hst hwait hprog hnotice
    refine ⟨?_, fun c' hc => ?_, ?_, ?_, ?_, fun l' hl => getCore_precise_other hl u d hst hwait hprog⟩
    · rw [ctxOf, hcore, ← fr0Of_precise]
      exact getCtx_setCtx _ _ _
    · rw [ctxOf, hcore]
      exact getCtx_setCtx_other _ _ _ _ hc
    · rw [hcore]
      exact toNat_satAdd
    · rw [hcore]; rfl
    · rw [hcore]; rfl

end Sys2Proof.Machine
end

section
/-! PROOFS. TDLD (R109, R110): what a descriptor image holds, and the checks before it is loaded. -/

namespace Sys2Proof.Machine

/-! ### Address operands and fields -/

section
variable {w : Word}

theorem ownOff_of_lt (h : w.toNat < 2 ^ 21) : ownOff w = some w.toNat := if_pos ((fld_high_eq_zero_iff w).2 h)

theorem ownOff_of_le (h : 2 ^ 21 ≤ w.toNat) : ownOff w = none :=
  if_neg fun h0 => absurd ((fld_high_eq_zero_iff w).1 h0) (Nat.not_lt.2 h)

end

theorem extractLsb'_eq_zero_iff {w : Nat} (x : BitVec w) (lo len : Nat) : x.extractLsb' lo len = 0 ↔ fld x lo len = 0 := by
  rw [← BitVec.toNat_inj]
  simp [fld]

theorem fld_zero_eq_mod {w : Nat} (x : BitVec w) (len : Nat) : fld x 0 len = x.toNat % 2 ^ len := by simp [fld]

theorem getCtx_getCore (s : State) (l : Lcid) (c : CtxNo) : getCtx (getCore s l) c = ctxOf s l c := rfl

/-! ### Images -/

theorem lineBytes_isNone_iff (f : Nat) : (lineBytes f).isNone = true ↔ ¬ (f = 0 ∨ f = 1 ∨ f = 3 ∨ f = 4 ∨ f = 5) := by
  unfold lineBytes
  split <;> simp_all

section
variable {w0 w1 w2 w3 : Word}

/-- Table 04.1: the images that hold no reserved value. -/
def imageLegal (w0 w1 w2 w3 : Word) : Prop :=
  w0.toNat < 2 ^ 21 ∧ w1.toNat < 2 ^ 21 ∧ w2.extractLsb' 53 11 = 0 ∧ w2.extractLsb' 21 11 = 0 ∧
    (w3.toNat = 0 ∨ w3.toNat = 1 ∨ w3.toNat = 3 ∨ w3.toNat = 4 ∨ w3.toNat = 5)

theorem format_legal_iff (w : Word) :
    fld w 4 60 = 0 ∧ (lineBytes (fld w 0 4)).isNone = false ↔
      w.toNat = 0 ∨ w.toNat = 1 ∨ w.toNat = 3 ∨ w.toNat = 4 ∨ w.toNat = 5 := by
  have := w.isLt
  rw [← Bool.not_eq_true, lineBytes_isNone_iff, Decidable.not_not, fld_zero_eq_mod]
  simp only [fld, Nat.shiftRight_eq_div_pow]
  omega

theorem tdOf_of_not_legal (h : ¬ imageLegal w0 w1 w2 w3) : tdOf w0 w1 w2 w3 = .error sRSVD := by
  rw [imageLegal, ← format_legal_iff, ← fld_high_eq_zero_iff, ← fld_high_eq_zero_iff, extractLsb'_eq_zero_iff,
    extractLsb'_eq_zero_iff] at h
  unfold tdOf
  split
  · rfl
  split
  · rfl
  split
  · rfl
  simp_all

theorem tdOf_of_legal (h : imageLegal w0 w1 w2 w3) :
    tdOf w0 w1 w2 w3 = if w0.toNat % 16 ≠ 0 ∨ w2.toNat % 16 ≠ 0 then .error sALIGN
      else .ok ⟨w0, w1, w2.extractLsb' 32 21, w2.extractLsb' 0 21, w3.extractLsb' 0 4⟩ := by
  rw [imageLegal, ← format_legal_iff, ← fld_high_eq_zero_iff, ← fld_high_eq_zero_iff, extractLsb'_eq_zero_iff,
    extractLsb'_eq_zero_iff] at h
  obtain ⟨h0, h1, h2, h3, h4, h5⟩ := h
  simp only [tdOf, h0, h1, h2, h3, h4, h5, ofNat_fld, fld_zero_eq_mod w0, fld_zero_eq_mod w2 4, ne_eq, not_true, or_self,
    Bool.false_eq_true, if_false, Nat.reducePow]

end

/-- Settles O9. -/
theorem tileDescriptors : Obligations.TileDescriptors := by
  unfold Obligations.TileDescriptors
  refine ⟨fun s l c b h => ?_, fun w0 w1 w2 w3 => ⟨fun h0 h1 h2 h3 h4 => ?_, fun h => tdOf_of_not_legal ?_⟩⟩
  · intro k i a w F word
    have hx : exec (.tdld l c b) s = .next (doTdld l c b s) := rfl
    rw [doTdld, issue_body _ _ _ _ _ _ _ _ _ h] at hx
    simp only [eng_fetched, sp_fetched, getCtx_getCore, gAt, readG_fetched, slWord] at hx
    refine ⟨fun hown => ⟨_, hx, if_pos hown⟩, fun hown => ⟨fun ha => ⟨_, hx, ?_⟩, fun ha => ⟨fun hal => ⟨_, hx, ?_⟩, fun hal =>
      ⟨fun hp => ⟨_, hx, ?_⟩, fun hp => ⟨fun st hst => ⟨_, hx, ?_⟩, fun d hd => ⟨_, hx, ?_⟩⟩⟩⟩⟩⟩
    all_goals rw [if_neg (not_not.2 hown)]
    · rw [ownOff_of_le ha]
    all_goals rw [ownOff_of_lt ha]; simp only []
    · rw [if_pos hal]
    all_goals rw [if_neg (not_not.2 hal)]
    · rw [if_pos hp]
    all_goals rw [if_neg (by simp [show poisonAt (getCore s l).sp _ 32 = none from hp])]
    · simp only [w, k, Nat.mul_zero, Nat.add_zero, Nat.mul_one, Nat.reduceMul] at hst
      rw [hst]
    · simp only [w, k, Nat.mul_zero, Nat.add_zero, Nat.mul_one, Nat.reduceMul] at hd
      rw [hd]
      exact finish_modEng_completed s l c _ id fun _ _ => rfl
  · rw [tdOf_of_legal ⟨h0, h1, h2, h3, h4⟩]
    exact ⟨fun h5 h6 => if_neg (by simp [h5, h6]), fun h5 => if_pos h5⟩
  · rintro ⟨h0, h1, h2, h3, h4⟩
    rcases h with h | h | h | h | h | h
    · omega
    · omega
    · exact h h2
    · exact h h3
    all_goals omega

end Sys2Proof.Machine
end

section
/-! PROOFS. MZERO, MMA, MWAIT and VWAIT at issue (R109, R112, R114, R120, R129, R157). -/

namespace Sys2Proof.Machine

section
variable {s : State} {l : Lcid} {c : CtxNo} {b : BitVec 54}

/-- R163: a context that issues is READY. -/
theorem ready_of_issues {enc : Bool} {room : Core → Bool} (h : issues s l c b enc room) : (ctxOf s l c).st = .ready := by
  obtain ⟨hmay, -⟩ := h
  simp only [mayIssue, Bool.and_eq_true, decide_eq_true_eq] at hmay
  exact hmay.1.2

theorem bit_eq_getLsbD {w : Nat} (x : BitVec w) (i : Nat) : bit x i = x.getLsbD i := rfl

/-! ### Advances (R112) -/

theorem advanceAll_eq_td (e : Engines) (ids : List Nat) (g : Nat) :
    advanceAll e ids g = { e with td := (advanceAll e ids g).td } := by
  have h := foldl_keeps (fun e : Engines => { e with td := [] })
    (f := fun e i => { e with td := tput TileDesc.zero e.td i (advanceTd (tget TileDesc.zero e.td i) g) })
    (fun _ _ => rfl) ids e
  simp only [Engines.mk.injEq] at h
  obtain ⟨-, h⟩ := h
  cases hx : advanceAll e ids g
  simp_all [advanceAll]

/-- Each descriptor listed is advanced once. -/
theorem tget_advanceAll (e : Engines) (ids : List Nat) (hids : ids.Nodup) (g i : Nat) :
    tget TileDesc.zero (advanceAll e ids g).td i =
      if i ∈ ids then advanceTd (tget TileDesc.zero e.td i) g else tget TileDesc.zero e.td i := by
  refine foldl_at (view := fun (e : Engines) i => tget TileDesc.zero e.td i) (g := fun _ t => advanceTd t g)
    (p := fun _ => ()) (q := ()) (fun _ _ => rfl) (fun e i j _ => ?_) ids hids e rfl i
  by_cases h : j = i
  · subst h; simp
  · simp [h]

/-- The descriptors that an MMA advances. -/
def advancedIds (ia ib : Nat) (fa fb : Bool) : List Nat :=
  (if fa then [ia] else []) ++ if fb && !(fa && ia == ib) then [ib] else []

theorem nodup_advancedIds (ia ib : Nat) (fa fb : Bool) : (advancedIds ia ib fa fb).Nodup := by
  cases fa <;> cases fb <;> by_cases h : ia = ib <;> simp [advancedIds, h]

theorem mem_advancedIds (ia ib i : Nat) (fa fb : Bool) :
    i ∈ advancedIds ia ib fa fb ↔ ((i == ia && fa) || (i == ib && fb)) = true := by
  cases fa <;> cases fb <;> by_cases h : ia = ib <;> simp [advancedIds, h]

/-! ### The instructions -/

theorem answers_mzero (h : issues s l c b (onlyFields b [(47, 3)]) millRoom)
    (hown : tget none (getCore s l).eng.accOwner (fld b 47 3) = some c) :
    answers (.mzero l c b) s fun t => onlyCore s t l c (completed (ctxOf s l c) id)
      { getCore s l with eng := millEnter (getCore s l).eng ⟨c, (ctxOf s l c).pc, 0, b.extractLsb' 47 3, [], none⟩ } := by
  have hx : exec (.mzero l c b) s = .next (doMzero l c b s) := rfl
  rw [doMzero, issue_body _ _ _ _ _ _ _ _ _ h] at hx
  simp only [eng_fetched, getCtx_getCore, pc_fetched, hown, ne_eq, not_true, if_false, ofNat_fld] at hx
  exact ⟨_, hx, finish_modEng_completed s l c _ id fun _ _ => rfl⟩

/-- R114, R112: an MMA of resources that the context holds. -/
theorem exec_mma (h : issues s l c b (onlyFields b [(47, 3), (44, 3), (41, 3), (33, 8), (32, 1), (31, 1)]) millRoom)
    (ha : tget none (getCore s l).eng.tdOwner (fld b 44 3) = some c)
    (hb : tget none (getCore s l).eng.tdOwner (fld b 41 3) = some c)
    (hacc : tget none (getCore s l).eng.accOwner (fld b 47 3) = some c) :
    let e := (getCore s l).eng
    let ta := tget TileDesc.zero e.td (fld b 44 3)
    let tb := tget TileDesc.zero e.td (fld b 41 3)
    let g := fld b 33 8 + 1
    (pairOk ta.fmt.toNat tb.fmt.toNat = false →
      exec (.mma l c b) s = .next (precise (fetched s l c) l c sRSVD 1 (insWord 0x104 b))) ∧
    (pairOk ta.fmt.toNat tb.fmt.toNat = true →
      (∀ w, mmaBounds ta tb g = some w → exec (.mma l c b) s = .next (precise (fetched s l c) l c sBOUNDS 1 w)) ∧
      (mmaBounds ta tb g = none → exec (.mma l c b) s =
        .next (advance (modCore (fetched s l c) l fun k => modEng k fun e =>
          advanceAll (millEnter e ⟨c, (ctxOf s l c).pc, 0, b.extractLsb' 47 3, [fld b 44 3, fld b 41 3], some (ta, tb, g)⟩)
            (advancedIds (fld b 44 3) (fld b 41 3) (b.getLsbD 32) (b.getLsbD 31)) g) l c))) := by
  intro e ta tb g
  have hx : exec (.mma l c b) s = .next (doMma l c b s) := rfl
  rw [doMma, issue_body _ _ _ _ _ _ _ _ _ h] at hx
  simp only [eng_fetched, getCtx_getCore, pc_fetched, ha, hb, hacc, ne_eq, not_true, or_self, if_false, ofNat_fld,
    bit_eq_getLsbD] at hx
  refine ⟨fun hp => hx.trans ?_, fun hp => ⟨fun w hw => hx.trans ?_, fun hw => hx.trans ?_⟩⟩
  · rw [show pairOk _ _ = false from hp]; rfl
  all_goals rw [show pairOk _ _ = true from hp, show mmaBounds _ _ _ = _ from hw]; rfl

/-- What an instruction that waits for an engine with work of its context, and else completes, leaves of the context. -/
theorem finish_wait_completed (h : (ctxOf s l c).st = .ready) (busy : Bool) (w : Wait) :
    onlyCtx s (finish (fetched s l c) l c fun x => if busy then makeWait x w none else x) l c
      (completed (ctxOf s l c) fun x => if busy then { x with st := .waiting, wait := w, waitNo := x.waitNo + 1 } else x) := by
  have hfin := finish_fetched s l c fun x => if busy then makeWait x w none else x
  cases busy with
  | false => exact hfin
  | true => simpa [makeWait, setSt, h, completed] using hfin

end

/-- Settles O10. -/
theorem engineOperationsWait : Obligations.EngineOperationsWait := by
  unfold Obligations.EngineOperationsWait
  refine ⟨fun s l c b => ⟨fun h hown => answers_mzero h hown, fun h => ?_⟩, fun s l c b h => ⟨?mwait, ?vwait⟩⟩
  · intro ia ib g ta tb adv ha hb hacc
    obtain ⟨hpair, hok⟩ := exec_mma h ha hb hacc
    refine ⟨fun hp => ⟨_, hpair hp, rfl⟩, fun hp => ⟨fun w hw => ⟨_, (hok hp).1 w hw, rfl⟩, fun hw => ?_⟩⟩
    have hnodup := nodup_advancedIds ia ib (b.getLsbD 32) (b.getLsbD 31)
    refine ⟨_, (hok hp).2 hw, _,
      onlyCore_congr (finish_modEng_completed s l c _ id fun _ _ => rfl) (by rw [advanceAll_eq_td]; rfl), fun i => ?_⟩
    rw [tget_advanceAll _ _ hnodup]
    exact if_congr (mem_advancedIds ..) rfl rfl
  case mwait =>
    refine ⟨_, congrArg Host.Outcome.next (issue_body _ _ _ _ _ _ _ _ _ h), ?_⟩
    simpa [millPend] using finish_wait_completed (ready_of_issues h) (millPend (getCore s l) c) .mill
  case vwait =>
    refine ⟨_, congrArg Host.Outcome.next (issue_body _ _ _ _ _ _ _ _ _ h), ?_⟩
    simpa [vePend] using finish_wait_completed (ready_of_issues h) (vePend (getCore s l) c) .ve

end Sys2Proof.Machine
end

section
/-! PROOFS. What the shared operations leave of the cores: packets that are sent touch none, a wait that is forgotten touches the
units of its own core, a fault's entry its contexts and units. -/

namespace Sys2Proof.Machine

/-! ### Packets -/

@[simp] theorem sendFrom_cores (s : State) (l : Lcid) (p : Pkt) : (sendFrom s l p).cores = s.cores := rfl
@[simp] theorem sendUnit_cores (s : State) (dg : Dg) (p : Pkt) : (sendUnit s dg p).cores = s.cores := rfl
@[simp] theorem pushLanding_cores (s : State) (e : Nat) (p : Pkt) : (pushLanding s e p).cores = s.cores := rfl

@[simp] theorem sendLanding_cores (s : State) (e : Nat) (p : Pkt) : (sendLanding s e p).cores = s.cores := by
  unfold sendLanding
  split <;> rfl

@[simp] theorem sendVia_cores (s : State) (f : Side) (p : Pkt) : (sendVia s f p).cores = s.cores := by
  cases f with
  | pos l => rfl
  | unit dg => rfl
  | ep e => exact sendLanding_cores s e p

@[simp] theorem sendFar_cores (s : State) (f : Side) (p : Pkt) (d : Did) (src : Lcid) (dst : Option Lcid) :
    (sendFar s f p d src dst).cores = s.cores := by
  unfold sendFar
  split
  · split
    · rfl
    · exact sendVia_cores ..
  · rfl

@[simp] theorem reply_cores (s : State) (f : Side) (req p : Pkt) : (reply s f req p).cores = s.cores := by
  unfold reply
  split
  · exact sendFar_cores ..
  · dsimp only
    split_ifs <;> exact sendVia_cores ..

@[simp] theorem sendCancel_cores (s : State) (l : Lcid) (o : SyncOut) : (sendCancel s l o).cores = s.cores := by
  unfold sendCancel
  split <;> rfl

@[simp] theorem raiseEv_cores (s : State) (r : Rpt) (e : Ev) : (raiseEv s r e).cores = s.cores := rfl

theorem getCore_of_cores {s t : State} (h : t.cores = s.cores) (l : Lcid) : getCore t l = getCore s l := by
  rw [getCore, h, getCore]

theorem ctxOf_modCore (s : State) (l : Lcid) (f : Core → Core) (c : CtxNo) :
    ctxOf (modCore s l f) l c = getCtx (f (getCore s l)) c := by
  rw [ctxOf, getCore_modCore]

@[simp] theorem getCtx_bumpFaults (k : Core) (c : CtxNo) : getCtx (bumpFaults k) c = getCtx k c := rfl

/-! ### Changes of one core's units -/

/-- From `s` to `t` nothing of any core but the units of core `l` changes. -/
def OnlyUnits (l : Lcid) (s t : State) : Prop :=
  (∃ u, getCore t l = { getCore s l with un := u }) ∧ ∀ l', l' ≠ l → getCore t l' = getCore s l'

namespace OnlyUnits

variable {l : Lcid} {s t u : State}

theorem of_cores (h : t.cores = s.cores) : OnlyUnits l s t :=
  ⟨⟨(getCore s l).un, getCore_of_cores h l⟩, fun l' _ => getCore_of_cores h l'⟩

theorem refl (s : State) : OnlyUnits l s s := of_cores rfl

theorem trans (h : OnlyUnits l s t) (h' : OnlyUnits l t u) : OnlyUnits l s u := by
  obtain ⟨⟨v, hv⟩, ho⟩ := h
  obtain ⟨⟨w, hw⟩, ho'⟩ := h'
  exact ⟨⟨w, by rw [hw, hv]⟩, fun l' hl => (ho' l' hl).trans (ho l' hl)⟩

theorem modUn (s : State) (l : Lcid) (f : Units → Units) : OnlyUnits l s (modCore s l fun k => Machine.modUn k f) :=
  ⟨⟨f (getCore s l).un, by rw [getCore_modCore]; rfl⟩, fun l' hl => getCore_modCore_other s l l' _ hl⟩

theorem foldl {α : Type} {f : State → α → State} (h : ∀ s a, OnlyUnits l s (f s a)) (as : List α) (s : State) :
    OnlyUnits l s (as.foldl f s) := by
  induction as generalizing s with
  | nil => exact refl s
  | cons a r ih => exact (h s a).trans (ih _)

theorem ctxOf (h : OnlyUnits l s t) (c : CtxNo) : Machine.ctxOf t l c = Machine.ctxOf s l c := by
  obtain ⟨⟨v, hv⟩, -⟩ := h
  rw [Machine.ctxOf, hv]
  rfl

theorem eng (h : OnlyUnits l s t) : (getCore t l).eng = (getCore s l).eng := by
  obtain ⟨⟨v, hv⟩, -⟩ := h
  rw [hv]

theorem sp (h : OnlyUnits l s t) : (getCore t l).sp = (getCore s l).sp := by
  obtain ⟨⟨v, hv⟩, -⟩ := h
  rw [hv]

end OnlyUnits

theorem onlyUnits_abandonSyncs (s : State) (l : Lcid) (c : CtxNo) : OnlyUnits l s (abandonSyncs s l c) := by
  refine (OnlyUnits.modUn ..).trans (OnlyUnits.foldl (fun s o => ?_) _ _)
  split
  · exact .of_cores (sendCancel_cores ..)
  · exact .refl s

theorem onlyUnits_abandonWait (s : State) (l : Lcid) (c : CtxNo) : OnlyUnits l s (abandonWait s l c) := by
  unfold abandonWait
  split
  · exact OnlyUnits.modUn s l fun u => { u with queues := _ }
  · exact onlyUnits_abandonSyncs s l c
  · exact OnlyUnits.modUn ..
  · exact .refl s

/-! ### The states of contexts -/

theorem effSt_setSt (x : Ctx) {st : CtxSt} (h : st ≠ .held) : effSt (setSt x st) = st := by
  unfold effSt setSt
  split <;> simp_all

theorem effSt_holdCtx (x : Ctx) (r : Bool) : effSt (holdCtx x r) = effSt x := by
  unfold effSt holdCtx
  split_ifs <;> simp_all

theorem holdCtx_zero (r : Bool) : holdCtx Ctx.zero r = Ctx.zero := rfl

theorem getCtx_mapCtxs (k : Core) (f : Ctx → Ctx) (h : f Ctx.zero = Ctx.zero) (c : CtxNo) :
    getCtx (mapCtxs k f) c = f (getCtx k c) := tget_tmap _ _ h _ _

@[simp] theorem getCtx_recoveryHold (k : Core) (c : CtxNo) : getCtx (recoveryHold k) c = holdCtx (getCtx k c) true :=
  getCtx_mapCtxs k _ (holdCtx_zero true) c

/-- R129: an event after which a context that does not wait and is not being freed stays as it is. -/
theorem settle_eq_self {s : State} {l : Lcid} {c : CtxNo} (hfree : (ctxOf s l c).freeing = false)
    (hwait : effSt (ctxOf s l c) ≠ .waiting) : settle s l c = s := by
  simp [settle, getCtx_getCore, hfree, hwait]

/-! ### The entry into a fault -/

section
variable {s : State} {l : Lcid} {c : CtxNo} {cause : Status} {imp : Bool} {unit : Nat} {pc : BitVec 21} {d : Word}

/-- What a context is after its fault's entry. -/
structure FaultEntered (x y : Ctx) (r0 r1 : Word) : Prop where
  state   : effSt y = .faulted
  fr0     : y.fr0 = r0
  fr1     : y.fr1 = r1
  freeing : y.freeing = x.freeing

theorem faultEntered_hold {x y : Ctx} {r0 r1 : Word} (h : FaultEntered x y r0 r1) : FaultEntered x (holdCtx y true) r0 r1 := by
  have hsame : (holdCtx y true).fr0 = y.fr0 ∧ (holdCtx y true).fr1 = y.fr1 ∧ (holdCtx y true).freeing = y.freeing := by
    unfold holdCtx
    split_ifs <;> exact ⟨rfl, rfl, rfl⟩
  obtain ⟨h0, h1, hf⟩ := hsame
  exact ⟨(effSt_holdCtx y true).trans h.state, h0.trans h.fr0, h1.trans h.fr1, hf.trans h.freeing⟩

theorem programFault_core (s : State) (l : Lcid) (c : CtxNo) (cause : Status) (r0 d : Word) :
    ∃ ns is, getCore (programFault s l c cause r0 d) l = { getCore s l with notices := ns, irqs := is } := by
  have hraise : ∀ r, getCore (raise s r) l = getCore s l := fun _ => rfl
  have hmod : ∀ v, getCore v l = getCore s l → ∃ ns is,
      getCore (modCore v l fun k => if bit k.ctrl 28 && (getCtx k c).origin != 1 then { k with notices := k.notices ++ [(c, r0, d)] }
        else { k with irqs := k.irqs + 1 }) l = { getCore s l with notices := ns, irqs := is } := by
    intro v hv
    rw [getCore_modCore, hv]
    split
    · exact ⟨_, _, rfl⟩
    · exact ⟨_, _, rfl⟩
  unfold programFault
  split
  · exact hmod _ (hraise _)
  · exact hmod _ rfl

/-- R179, R181: what a fault's entry of a context that is not FAULTED yet leaves of its core. -/
theorem faultCtx_entered (h : effSt (ctxOf s l c) = .ready ∨ effSt (ctxOf s l c) = .waiting) :
    let t := faultCtx s l c cause imp unit pc d
    FaultEntered (ctxOf s l c) (ctxOf t l c) (fr0Of cause imp unit pc) d ∧ (getCore t l).eng = (getCore s l).eng ∧
      (getCore t l).sp = (getCore s l).sp ∧ ∀ l', l' ≠ l → getCore t l' = getCore s l' := by
  have hfree : (ctxOf s l c).st ≠ .free := by rintro h0; simp [effSt, h0] at h
  have hfault : effSt (ctxOf s l c) ≠ .faulted := by rintro h0; simp [h0] at h
  have hun := onlyUnits_abandonWait s l c
  simp only [faultCtx, if_neg hfree, if_neg hfault]
  generalize abandonWait s l c = v at hun
  generalize hw : modCore v l _ = w
  have hother : ∀ l', l' ≠ l → getCore w l' = getCore s l' := fun l' hl => by
    rw [← hw, getCore_modCore_other _ _ _ _ hl, hun.2 l' hl]
  have heng : (getCore w l).eng = (getCore s l).eng := by rw [← hw, getCore_modCore, ← hun.eng]; rfl
  have hsp : (getCore w l).sp = (getCore s l).sp := by rw [← hw, getCore_modCore, ← hun.sp]; rfl
  have hctx : ctxOf w l c =
      { setSt (ctxOf s l c) .faulted with fr0 := fr0Of cause imp unit pc, fr1 := d, wait := .none, deadline := none } := by
    rw [← hw, ← hun.ctxOf c, ctxOf_modCore, getCtx_bumpFaults, getCtx_modCtx]
    rfl
  have hent : FaultEntered (ctxOf s l c) (ctxOf w l c) (fr0Of cause imp unit pc) d := by
    rw [hctx]
    refine ⟨effSt_setSt (ctxOf s l c) (by decide), rfl, rfl, ?_⟩
    simp only [setSt]
    split <;> rfl
  split
  · refine ⟨?_, ?_, ?_, fun l' hl => ?_⟩
    · rw [ctxOf_modCore, getCtx_recoveryHold]
      exact faultEntered_hold hent
    · rw [getCore_modCore, ← heng]; rfl
    · rw [getCore_modCore, ← hsp]; rfl
    · rw [getCore_modCore_other _ _ _ _ hl, hother l' hl]
  · obtain ⟨ns, is, hcore⟩ := programFault_core w l c cause (fr0Of cause imp unit pc) d
    refine ⟨?_, ?_, ?_, fun l' hl => ?_⟩
    · have hsame : ctxOf (programFault w l c cause (fr0Of cause imp unit pc) d) l c = ctxOf w l c := by
        rw [ctxOf, hcore]; rfl
      rw [hsame]
      exact hent
    · rw [hcore, ← heng]
    · rw [hcore, ← hsp]
    · rw [getCore_programFault_other _ _ _ _ _ hl, hother l' hl]

end

end Sys2Proof.Machine
end

section
/-! PROOFS. The end of the front Mill operation (R116, R120, R131, R133, R134): carried out, or ended in a fault at a group. -/

namespace Sys2Proof.Machine

theorem settleReleases_kept (e : Engines) :
    (settleReleases e).millq = e.millq ∧ (settleReleases e).veq = e.veq ∧ (settleReleases e).acc = e.acc := by
  have h := sansClaims_settleReleases e
  simp only [sansClaims, Engines.mk.injEq] at h
  obtain ⟨-, -, hacc, -, -, -, hmillq, hveq, -⟩ := h
  exact ⟨hmillq, hveq, hacc⟩

@[simp] theorem settleReleases_millq (e : Engines) : (settleReleases e).millq = e.millq := (settleReleases_kept e).1

@[simp] theorem settleReleases_veq (e : Engines) : (settleReleases e).veq = e.veq := (settleReleases_kept e).2.1

@[simp] theorem settleReleases_acc (e : Engines) : (settleReleases e).acc = e.acc := (settleReleases_kept e).2.2

@[simp] theorem modEng_sp (k : Core) (f : Engines → Engines) : (modEng k f).sp = k.sp := rfl

@[simp] theorem modEng_un (k : Core) (f : Engines → Engines) : (modEng k f).un = k.un := rfl

@[simp] theorem ctxOf_modEng (s : State) (l : Lcid) (f : Engines → Engines) (c : CtxNo) :
    ctxOf (modCore s l fun k => modEng k f) l c = ctxOf s l c := by
  rw [ctxOf_modCore, getCtx_modEng, getCtx_getCore]

@[simp] theorem eng_modEng (s : State) (l : Lcid) (f : Engines → Engines) :
    (getCore (modCore s l fun k => modEng k f) l).eng = f (getCore s l).eng := by
  rw [getCore_modCore, modEng_eng]

/-! ### The tile -/

section
variable (s : State) (l : Lcid) (a : Nat) (t : Tbl AccRow)

@[simp] theorem ctxOf_setTile (c : CtxNo) : ctxOf (setTile s l a t) l c = ctxOf s l c := by
  rw [setTile, ctxOf_modCore]
  rfl

@[simp] theorem setTile_eng :
    (getCore (setTile s l a t) l).eng = { (getCore s l).eng with acc := tput [] (getCore s l).eng.acc a t } := by
  rw [setTile, getCore_modCore]
  rfl

@[simp] theorem setTile_sp : (getCore (setTile s l a t) l).sp = (getCore s l).sp := by
  rw [setTile, getCore_modCore]
  rfl

theorem setTile_other {l' : Lcid} (h : l' ≠ l) : getCore (setTile s l a t) l' = getCore s l' :=
  getCore_modCore_other _ _ _ _ h

end

/-! ### The end of an engine's operation -/

/-- R98, R102: what a record written changes of its context. -/
theorem writeRecord_eq (x : Ctx) (r : Rec) (u d : Nat) : ∃ tl0 tl1 tl2, writeRecord x r u d =
    { x with tl0 := tl0, tl1 := tl1, tl2 := tl2, ns0 := ns0Of r, ns1 := ns1Of r u d } := by
  unfold writeRecord addTally
  exact ⟨_, _, _, rfl⟩

theorem writeRecord_kept (x : Ctx) (r : Rec) (u d : Nat) :
    (writeRecord x r u d).freeing = x.freeing ∧ (writeRecord x r u d).g = x.g := by
  obtain ⟨_, _, _, h⟩ := writeRecord_eq x r u d
  rw [h]
  exact ⟨rfl, rfl⟩

theorem writeRecord_ns (x : Ctx) (r : Rec) (u d : Nat) :
    (writeRecord x r u d).ns0 = ns0Of r ∧ (writeRecord x r u d).ns1 = ns1Of r u d := by
  obtain ⟨_, _, _, h⟩ := writeRecord_eq x r u d
  rw [h]
  exact ⟨rfl, rfl⟩

theorem effSt_congr {x y : Ctx} (h : y.st = x.st) (h' : y.heldFrom = x.heldFrom) : effSt y = effSt x := by
  rw [effSt, h, h', ← effSt]

theorem effSt_writeRecord (x : Ctx) (r : Rec) (u d : Nat) : effSt (writeRecord x r u d) = effSt x := by
  obtain ⟨_, _, _, h⟩ := writeRecord_eq x r u d
  exact effSt_congr (by rw [h]) (by rw [h])

/-- The state after an engine's operation of context `c` has ended and left its queue (`g`), before what the context waits for is
settled. -/
def engineDone (s : State) (l : Lcid) (c : CtxNo) (rec' : Rec) (unit dfmt : Nat) (g : Engines → Engines) : State :=
  modCore (modCore (modCtxOf s l c fun x => writeRecord x rec' unit dfmt) l fun k => modEng k g) l fun k =>
    modEng k settleReleases

section
variable (s : State) (l : Lcid) (c : CtxNo) (rec' : Rec) (unit dfmt : Nat) (g : Engines → Engines)

theorem getCore_engineDone : getCore (engineDone s l c rec' unit dfmt g) l =
    modEng (modEng (modCtx (getCore s l) c fun x => writeRecord x rec' unit dfmt) g) settleReleases := by
  rw [engineDone, getCore_modCore, getCore_modCore, getCore_modCtxOf]

theorem getCore_engineDone_other {l' : Lcid} (h : l' ≠ l) :
    getCore (engineDone s l c rec' unit dfmt g) l' = getCore s l' := by
  rw [engineDone, getCore_modCore_other _ _ _ _ h, getCore_modCore_other _ _ _ _ h, modCtxOf, getCore_modCore_other _ _ _ _ h]

theorem ctxOf_engineDone :
    ctxOf (engineDone s l c rec' unit dfmt g) l c = writeRecord (ctxOf s l c) rec' unit dfmt := by
  rw [ctxOf, getCore_engineDone, getCtx_modEng, getCtx_modEng, getCtx_modCtx, getCtx_getCore]

theorem ctxOf_engineDone_other {c' : CtxNo} (h : c' ≠ c) :
    ctxOf (engineDone s l c rec' unit dfmt g) l c' = ctxOf s l c' := by
  rw [ctxOf, getCore_engineDone, getCtx_modEng, getCtx_modEng, getCtx_modCtx_other _ _ _ _ h, getCtx_getCore]

theorem sp_engineDone : (getCore (engineDone s l c rec' unit dfmt g) l).sp = (getCore s l).sp := by
  rw [getCore_engineDone, modEng_sp, modEng_sp, modCtx_sp]

theorem eng_engineDone :
    (getCore (engineDone s l c rec' unit dfmt g) l).eng = settleReleases (g (getCore s l).eng) := by
  rw [getCore_engineDone, modEng_eng, modEng_eng, modCtx_eng]

theorem settle_engineDone (hfree : (ctxOf s l c).freeing = false) (hwait : effSt (ctxOf s l c) ≠ .waiting) :
    settle (engineDone s l c rec' unit dfmt g) l c = engineDone s l c rec' unit dfmt g :=
  settle_eq_self (by rw [ctxOf_engineDone, (writeRecord_kept ..).1, hfree]) (by rwa [ctxOf_engineDone, effSt_writeRecord])

end

/-- What the fault of an engine's operation leaves, `w` being the state in which the operation has left its queue. -/
theorem engineFault_frame {w : State} {l : Lcid} {c : CtxNo} (cause : Status) (unit : Nat) (pc : BitVec 21) (j : Nat)
    (hst : effSt (ctxOf w l c) = .ready ∨ effSt (ctxOf w l c) = .waiting) :
    let t := engineEnd (faultCtx w l c cause true unit pc (wd j)) l c
    let e := (getCore w l).eng
    ∃ u, t = settle u l c ∧ ((ctxOf w l c).freeing = false → t = u) ∧
      ((getCore u l).eng.acc = e.acc ∧ (getCore u l).eng.millq = e.millq ∧ (getCore u l).eng.veq = e.veq ∧
        (getCore u l).sp = (getCore w l).sp) ∧
      effSt (ctxOf u l c) = .faulted ∧ (ctxOf u l c).fr0 = fr0Of cause true unit pc ∧ (ctxOf u l c).fr1 = BitVec.ofNat 64 j := by
  obtain ⟨hent, heng, hsp, -⟩ := faultCtx_entered (cause := cause) (imp := true) (unit := unit) (pc := pc) (d := wd j) hst
  simp only [engineEnd]
  generalize faultCtx w l c cause true unit pc (wd j) = f at hent heng hsp
  have hfc := ctxOf_modEng f l settleReleases c
  refine ⟨_, rfl, fun hfree => settle_eq_self ?_ ?_, ⟨?_, ?_, ?_, ?_⟩, ?_, ?_, ?_⟩
  · rw [hfc, hent.freeing, hfree]
  · rw [hfc, hent.state]; decide
  · rw [eng_modEng, settleReleases_acc, heng]
  · rw [eng_modEng, settleReleases_millq, heng]
  · rw [eng_modEng, settleReleases_veq, heng]
  · rw [getCore_modCore, modEng_sp, hsp]
  · rw [hfc, hent.state]
  · rw [hfc, hent.fr0]
  · rw [hfc, hent.fr1]; rfl

section
variable {s : State} {l : Lcid} {o : MillOp} {r : List MillOp}

/-! ### Completion -/

/-- The state after the front Mill operation has ended, before what its context waits for is settled. -/
def millDone (s : State) (l : Lcid) (o : MillOp) (tile : Tbl AccRow) (rec' : Rec) : State :=
  engineDone (setTile s l o.acc.toNat tile) l o.ctx rec' 0 7 fun e => { e with millq := e.millq.tail }

/-- What a completed operation leaves: its tile and record, and everything else as it was. -/
theorem millDone_frame (hq : (getCore s l).eng.millq = o :: r) (tile : Tbl AccRow) (rec' : Rec) :
    let e := (getCore s l).eng
    let t := settle (millDone s l o tile rec') l o.ctx
    ∃ u, t = settle u l o.ctx ∧
      ((ctxOf s l o.ctx).freeing = false → effSt (ctxOf s l o.ctx) ≠ .waiting → t = u) ∧
      tget [] (getCore u l).eng.acc o.acc.toNat = tile ∧ (getCore u l).eng.millq = r ∧
      (∀ a, a ≠ o.acc.toNat → tget [] (getCore u l).eng.acc a = tget [] e.acc a) ∧
      (ctxOf u l o.ctx).ns0 = ns0Of rec' ∧ (ctxOf u l o.ctx).ns1 = ns1Of rec' 0 7 ∧
      (getCore u l).sp = (getCore s l).sp ∧ (∀ c', c' ≠ o.ctx → ctxOf u l c' = ctxOf s l c') ∧
      ∀ l', l' ≠ l → getCore u l' = getCore s l' := by
  refine ⟨millDone s l o tile rec', rfl, fun hfree hwait => ?_, ?_, ?_, fun a ha => ?_, ?_, ?_, ?_, fun c' hc => ?_, fun l' hl => ?_⟩
  · exact settle_engineDone _ _ _ _ _ _ _ (by rwa [ctxOf_setTile]) (by rwa [ctxOf_setTile])
  · rw [millDone, eng_engineDone, settleReleases_acc, setTile_eng, tget_tput_same]
  · rw [millDone, eng_engineDone, settleReleases_millq, setTile_eng, hq, List.tail_cons]
  · rw [millDone, eng_engineDone, settleReleases_acc, setTile_eng, tget_tput_other _ _ _ _ _ ha]
  · rw [millDone, ctxOf_engineDone, (writeRecord_ns ..).1]
  · rw [millDone, ctxOf_engineDone, (writeRecord_ns ..).2]
  · rw [millDone, sp_engineDone, setTile_sp]
  · rw [millDone, ctxOf_engineDone_other _ _ _ _ _ _ _ hc, ctxOf_setTile]
  · rw [millDone, getCore_engineDone_other _ _ _ _ _ _ _ hl, setTile_other _ _ _ _ hl]

theorem millStep_zero (h : o.mma = none) : millStep s l o = settle (millDone s l o [] rec0) l o.ctx := by
  simp only [millStep, h]
  rfl

theorem millStep_mma {ta tb : TileDesc} {g : Nat} {tile : Tbl AccRow} {rec' : Rec} (h : o.mma = some (ta, tb, g))
    (hrun : mmaRun (getCore s l).sp ta tb g 0 (tget [] (getCore s l).eng.acc o.acc.toNat) rec0 = (tile, rec', none)) :
    millStep s l o = settle (millDone s l o tile rec') l o.ctx := by
  simp only [millStep, h, hrun]
  rfl

theorem exec_millOpComplete (hawake : asleep s = false) (hq : (getCore s l).eng.millq = o :: r)
    (hve : veBefore (getCore s l).eng o.ctx o.iss = false) : exec (.millOpComplete l) s = .next (millStep s l o) := by
  show Host.Outcome.next (awake (doMillOpComplete l) s) = _
  rw [awake_awake _ _ hawake, doMillOpComplete]
  simp only [hq, hve, Bool.false_eq_true, if_false]

/-! ### Faults -/

/-- What a fault of the front operation leaves, `v` being the state in which it is found. -/
theorem millFault_frame {v : State} (cause : Status) (j : Nat) (hq : (getCore v l).eng.millq = o :: r)
    (hctx : ctxOf v l o.ctx = ctxOf s l o.ctx) (hst : effSt (ctxOf s l o.ctx) = .ready ∨ effSt (ctxOf s l o.ctx) = .waiting) :
    let t := millFault v l o cause j
    ∃ u, t = settle u l o.ctx ∧ ((ctxOf s l o.ctx).freeing = false → t = u) ∧ (getCore u l).eng.acc = (getCore v l).eng.acc ∧
      (getCore u l).eng.millq = r.filter (fun y => y.ctx != o.ctx) ∧ effSt (ctxOf u l o.ctx) = .faulted ∧
      (ctxOf u l o.ctx).fr0 = fr0Of cause true 1 o.pc ∧ (ctxOf u l o.ctx).fr1 = BitVec.ofNat 64 j := by
  have hagain : ¬ effSt (ctxOf v l o.ctx) = .faulted := by rw [hctx]; rintro h0; simp [h0] at hst
  simp only [millFault, hagain, if_false]
  generalize hw : modCore v l _ = w
  have hwc : ctxOf w l o.ctx = ctxOf s l o.ctx := by rw [← hw, ctxOf_modEng, hctx]
  have hwe : (getCore w l).eng.acc = (getCore v l).eng.acc ∧ (getCore w l).eng.millq = r.filter fun y => y.ctx != o.ctx := by
    rw [← hw, eng_modEng, hq]
    exact ⟨rfl, rfl⟩
  obtain ⟨hwacc, hwq⟩ := hwe
  rw [← hwc] at hst ⊢
  obtain ⟨u, hu, hfree, ⟨hacc, hmillq, -, -⟩, hent⟩ := engineFault_frame cause 1 o.pc j hst
  exact ⟨u, hu, hfree, hacc.trans hwacc, hmillq.trans hwq, hent⟩

theorem exec_millOpFault (hawake : asleep s = false) (src : MillFaultSrc) :
    exec (.millOpFault l src) s = .next (doMillOpFault l src s) := by
  show Host.Outcome.next (awake (doMillOpFault l src) s) = _
  rw [awake_awake _ _ hawake]

section
variable {ta tb : TileDesc} {g : Nat} {tile : Tbl AccRow} {rec' : Rec}

/-- R131: poison met at group `j`. -/
theorem doMillOpFault_poison {j : Nat} (hq : (getCore s l).eng.millq = o :: r) (hmma : o.mma = some (ta, tb, g))
    (hve : veBefore (getCore s l).eng o.ctx o.iss = false)
    (hrun : mmaRun (getCore s l).sp ta tb g 0 (tget [] (getCore s l).eng.acc o.acc.toNat) rec0 = (tile, rec', some j)) :
    doMillOpFault l .poison s = millFault (setTile s l o.acc.toNat tile) l o sPOISON j := by
  simp [doMillOpFault, millMeets, hq, hmma, hve, hrun, millStep]

/-- R134: a residue mismatch at group `j` of a column that carries work. -/
theorem doMillOpFault_residue {j : BitVec 8} {col : BitVec 6} {twin : Bool} (hq : (getCore s l).eng.millq = o :: r)
    (hmma : o.mma = some (ta, tb, g)) (hve : veBefore (getCore s l).eng o.ctx o.iss = false) (hj : j.toNat < g)
    (hrun : mmaRun (getCore s l).sp ta tb j.toNat 0 (tget [] (getCore s l).eng.acc o.acc.toNat) rec0 = (tile, rec', none))
    (hsite : siteThere s l twin = true)
    (hcol : colWorks (tget Site.zero (getGrove s (dgOf l)).sites (siteAt s l twin)) col.toNat = true) :
    doMillOpFault l (.residue j col twin) s =
      millFault (residueHit (setTile s l o.acc.toNat tile) l col.toNat twin) l o sINTERNAL j.toNat := by
  simp [doMillOpFault, millMeets, hq, hmma, hve, hj, hsite, hcol, millEndAt, hrun]

/-- R133: an accumulator word that is found uncorrectable at group `j`. -/
theorem doMillOpFault_accWord {j : BitVec 8} {row : BitVec 5} {twin : Bool} (hq : (getCore s l).eng.millq = o :: r)
    (hmma : o.mma = some (ta, tb, g)) (hve : veBefore (getCore s l).eng o.ctx o.iss = false) (hj : j.toNat < g)
    (hrun : mmaRun (getCore s l).sp ta tb j.toNat 0 (tget [] (getCore s l).eng.acc o.acc.toNat) rec0 = (tile, rec', none))
    (hsite : siteThere s l twin = true) :
    doMillOpFault l (.accWord j row twin) s =
      millFault (accUncorr (setTile s l o.acc.toNat tile) l o.acc.toNat row.toNat twin) l o sPOISON j.toNat := by
  simp [doMillOpFault, millMeets, hq, hmma, hve, hj, hsite, millEndAt, hrun]

end

@[simp] theorem residueHit_cores (s : State) (l : Lcid) (col : Nat) (twin : Bool) : (residueHit s l col twin).cores = s.cores := rfl

/-- R133: the tile in which a word is found uncorrectable. -/
def poisonRow (t : Tbl AccRow) (row : Nat) : Tbl AccRow :=
  let w := tget AccRow.zero t row
  if w.poison then t else tput AccRow.zero t row { w with poison := true }

theorem poisonRow_poison (t : Tbl AccRow) (row : Nat) : (tget AccRow.zero (poisonRow t row) row).poison = true := by
  unfold poisonRow
  dsimp only
  split
  · assumption
  · simp

/-- R133: what finding a word uncorrectable leaves of the core. -/
theorem getCore_accUncorr (s : State) (l : Lcid) (a row : Nat) (twin : Bool) :
    ∃ acc, getCore (accUncorr s l a row twin) l = { getCore s l with eng := { (getCore s l).eng with acc := acc } } ∧
      tget [] acc a = poisonRow (tget [] (getCore s l).eng.acc a) row := by
  unfold accUncorr poisonRow
  dsimp only
  split
  · exact ⟨_, rfl, rfl⟩
  · rw [getCore_of_cores (raiseEv_cores ..), setTile, getCore_modCore]
    exact ⟨_, rfl, tget_tput_same ..⟩

end

/-- Settles O11. -/
theorem millOperationEnds : Obligations.MillOperationEnds := by
  unfold Obligations.MillOperationEnds
  refine ⟨fun s l o r hawake hq hve => ⟨fun hzero => ?zero, fun ta tb g tile rec' hmma hrun => ?mma⟩,
    fun s l o r ta tb g hawake hq hmma hve hst => ⟨fun tile rec' j hrun => ?poison, fun tile rec' j hj hrun =>
      ⟨fun col twin hsite hcol => ?residue, fun row twin hsite => ?word⟩⟩,
    fun s l a row twin hawake hocc hsite => ⟨fun hread => ?fixed, fun hread => ?saved⟩⟩
  case zero =>
    exact ⟨_, exec_millOpComplete hawake hq hve, by rw [millStep_zero hzero]; exact millDone_frame hq [] rec0⟩
  case mma =>
    exact ⟨_, exec_millOpComplete hawake hq hve, by rw [millStep_mma hmma hrun]; exact millDone_frame hq tile rec'⟩
  case poison =>
    refine ⟨_, exec_millOpFault hawake _, ?_⟩
    rw [doMillOpFault_poison hq hmma hve hrun]
    obtain ⟨u, hu, hfree, hacc, hrest⟩ := millFault_frame (s := s) (v := setTile s l o.acc.toNat tile) (l := l) (r := r)
      sPOISON j (by simp [hq]) (by simp) hst
    exact ⟨u, hu, hfree, by rw [hacc, setTile_eng, tget_tput_same], hrest⟩
  case residue =>
    refine ⟨_, exec_millOpFault hawake _, ?_⟩
    rw [doMillOpFault_residue hq hmma hve hj hrun hsite hcol]
    have hcore := getCore_of_cores (residueHit_cores (setTile s l o.acc.toNat tile) l col.toNat twin) l
    obtain ⟨u, hu, hfree, hacc, hrest⟩ := millFault_frame (s := s) (v := residueHit (setTile s l o.acc.toNat tile) l col.toNat twin)
      (l := l) (r := r) sINTERNAL j.toNat (by rw [hcore]; simp [hq]) (by rw [ctxOf, hcore, getCtx_getCore]; simp) hst
    exact ⟨u, hu, hfree, by rw [hacc, hcore, setTile_eng, tget_tput_same], hrest⟩
  case word =>
    refine ⟨_, exec_millOpFault hawake _, ?_⟩
    rw [doMillOpFault_accWord hq hmma hve hj hrun hsite]
    obtain ⟨acc, hcore, hrow⟩ := getCore_accUncorr (setTile s l o.acc.toNat tile) l o.acc.toNat row.toNat twin
    obtain ⟨u, hu, hfree, hacc, hrest⟩ := millFault_frame (s := s)
      (v := accUncorr (setTile s l o.acc.toNat tile) l o.acc.toNat row.toNat twin) (l := l) (r := r) sPOISON j.toNat
      (by rw [hcore]; simp [hq]) (by rw [ctxOf, hcore]; exact ctxOf_setTile ..) hst
    rw [setTile_eng, tget_tput_same] at hrow
    exact ⟨u, hu, hfree, by rw [hacc, hcore, hrow]; rfl, hrest⟩
  case fixed =>
    refine ⟨_, exec_millOpFault hawake _, ?_⟩
    simp [doMillOpFault, hocc, hsite, hread, accFixed, raise]
  case saved =>
    refine ⟨_, exec_millOpFault hawake _, ?_⟩
    obtain ⟨acc, hcore, hrow⟩ := getCore_accUncorr s l a.toNat row.toNat twin
    simp only [doMillOpFault, hocc, hsite, hread, Bool.and_self, if_true, hcore, hrow, poisonRow_poison, true_and]

end Sys2Proof.Machine
end

section
/-! PROOFS. The issue of vector instructions (R202 to R205): all go through `veIssue`, and differ in their form and kind. -/

namespace Sys2Proof.Machine

theorem ctxOf_fetched (s : State) (l : Lcid) (c : CtxNo) :
    ctxOf (fetched s l c) l c = { ctxOf s l c with slot := some ((ctxOf s l c).pc.toNat / 128) } := by
  rw [fetched, ctxOf_modCtxOf]

theorem veOpOf_slot (x : Ctx) (c : CtxNo) (b : BitVec 54) (m : VeForm) (kind : VeKind) (n : Option Nat) :
    veOpOf { x with slot := n } c b m kind = veOpOf x c b m kind := rfl

theorem veDraws_slot (x : Ctx) (o : VeOp) (n : Option Nat) :
    veDraws { x with slot := n } o = { veDraws x o with slot := n } := by
  unfold veDraws
  split <;> rfl

section
variable {s : State} {l : Lcid} {c : CtxNo} {b : BitVec 54} {i : Instr}

/-- A VE instruction whose word and operands pass their checks. `kind` may not look at the fetched slot. -/
theorem answers_veIssue {op : Nat} {m : VeForm} {kind : Ctx → VeKind} {kd : VeKind}
    (hi : exec i s = .next (veIssue op m kind l c b s)) (hslot : ∀ (x : Ctx) n, kind { x with slot := n } = kind x)
    (hkind : kind (ctxOf s l c) = kd) :
    let k := getCore s l
    let x := ctxOf s l c
    let o := veOpOf x c b m kd
    issues s l c b (veEnc b m) veRoom →
    (∀ n ∈ accsOf [o.d, o.a, o.b, o.c], tget none k.eng.accOwner n = some c) → veFaultAt b m op o = none →
    answers i s fun t => onlyCore s t l c (completed x fun x => veDraws x o)
      { k with eng := { k.eng with veq := k.eng.veq ++ [{ o with iss := k.eng.issued, seed := x.srSeed, ctr := x.srCtr }]
                                   issued := k.eng.issued + 1 } } := by
  intro k x o h hown hok
  subst hkind
  have hperm : ((accsOf [o.d, o.a, o.b, o.c]).any fun n => tget none k.eng.accOwner n != some c) = false := by
    simpa using hown
  rw [veIssue, issue_body _ _ _ _ _ _ _ _ _ h] at hi
  simp only [getCtx_getCore, ctxOf_fetched, hslot, veOpOf_slot, eng_fetched] at hi
  rw [hperm, show veFaultAt b m op _ = none from hok] at hi
  exact ⟨_, hi, finish_modEng_completed s l c (fun e => veEnter e o) (fun x => veDraws x o) fun x n => veDraws_slot x o n⟩

end

theorem sclK_eq (x : Ctx) (b : BitVec 54) : sclK x b = signed 32 (readG x (fld b 10 4)).toNat := by
  have h : fld b 8 8 / 4 % 16 = fld b 10 4 := by
    simp only [fld, Nat.shiftRight_eq_div_pow]
    omega
  rw [sclK, h]

/-- Settles O12: the operations differ in form and kind alone; SCL and the scans read their kind off a register. -/
theorem vectorOperationsIssue : Obligations.VectorOperationsIssue := by
  unfold Obligations.VectorOperationsIssue
  intro s l c b k x V
  refine ⟨?_, ?_, ?_, ?_, ?_, ?_, ?_, ?_, ?scl, ?_, ?_, ?_, ?_, ?_, ?_, ?_, ?_, ?_, ?_, ?_, ?_, ?_, ?_, ?_, ?_, ?_, ?_, ?_, ?_⟩
  case scl => exact answers_veIssue (op := 0x148) (m := formScl) rfl (fun _ _ => rfl) (congrArg _ (sclK_eq x b))
  all_goals exact answers_veIssue rfl (fun _ _ => rfl) rfl

end Sys2Proof.Machine
end

section
/-! PROOFS. The end of the front vector operation (R98, R157, R158): carried out, or ended in a fault at an element. -/

namespace Sys2Proof.Machine

/-! ### Changes of a core's slice and accumulators -/

/-- From `s` to `t` nothing of any core but the slice and the accumulators of core `l` changes. -/
def OnlyStores (l : Lcid) (s t : State) : Prop :=
  (∃ sp acc, getCore t l = { getCore s l with sp := sp, eng := { (getCore s l).eng with acc := acc } }) ∧
    ∀ l', l' ≠ l → getCore t l' = getCore s l'

namespace OnlyStores

variable {l : Lcid} {s t u : State}

theorem of_cores (h : t.cores = s.cores) : OnlyStores l s t :=
  ⟨⟨(getCore s l).sp, (getCore s l).eng.acc, getCore_of_cores h l⟩, fun l' _ => getCore_of_cores h l'⟩

theorem trans (h : OnlyStores l s t) (h' : OnlyStores l t u) : OnlyStores l s u := by
  obtain ⟨⟨sp, acc, hc⟩, ho⟩ := h
  obtain ⟨⟨sp', acc', hc'⟩, ho'⟩ := h'
  exact ⟨⟨sp', acc', by rw [hc', hc]⟩, fun l' hl => (ho' l' hl).trans (ho l' hl)⟩

theorem modSp (s : State) (l : Lcid) (f : Slice → Slice) : OnlyStores l s (modCore s l fun k => Machine.modSp k f) :=
  ⟨⟨f (getCore s l).sp, (getCore s l).eng.acc, by rw [getCore_modCore]; rfl⟩,
    fun _ hl => getCore_modCore_other _ _ _ _ hl⟩

theorem setTile (s : State) (l : Lcid) (a : Nat) (t : Tbl AccRow) : OnlyStores l s (Machine.setTile s l a t) :=
  ⟨⟨(getCore s l).sp, tput [] (getCore s l).eng.acc a t, by rw [Machine.setTile, getCore_modCore]; rfl⟩,
    fun _ hl => setTile_other _ _ _ _ hl⟩

theorem ctxOf (h : OnlyStores l s t) (c : CtxNo) : Machine.ctxOf t l c = Machine.ctxOf s l c := by
  obtain ⟨⟨sp, acc, hc⟩, -⟩ := h
  rw [Machine.ctxOf, hc]
  rfl

theorem veq (h : OnlyStores l s t) : (getCore t l).eng.veq = (getCore s l).eng.veq := by
  obtain ⟨⟨sp, acc, hc⟩, -⟩ := h
  rw [hc]

end OnlyStores

section
variable {s : State} {l : Lcid} {o : VeOp} {r : List VeOp} {im : Image} {carry : Option Carry}

/-! ### Completion -/

/-- The image written, unless the operation has no elements. -/
def veDest (s : State) (l : Lcid) (o : VeOp) (im : Image) : State := if o.n = 0 then s else writeDest s l o im

/-- The carry of a scan written back, where it has one. -/
def veCarry (s : State) (l : Lcid) (o : VeOp) (carry : Option Carry) : State :=
  match o.kind, carry with
  | .scan _ _ _ (some q), some c =>
    if o.n = 0 then s else modCore s l fun k => modSp k fun sl => slPutWords sl q (carryWords c)
  | _, _ => s

/-- The state after the front VE operation has ended, before what its context waits for is settled. -/
def veDone (s : State) (l : Lcid) (o : VeOp) (im : Image) (carry : Option Carry) : State :=
  engineDone (veCarry (veDest s l o im) l o carry) l o.ctx (if o.n = 0 then rec0 else im.rcd) 1 (veDfmt o) fun e =>
    { e with veq := e.veq.tail }

theorem veFinish_eq (s : State) (l : Lcid) (o : VeOp) (im : Image) (carry : Option Carry) :
    veFinish s l o im carry = settle (veDone s l o im carry) l o.ctx := rfl

theorem onlyStores_writeDest (s : State) (l : Lcid) (o : VeOp) (im : Image) : OnlyStores l s (writeDest s l o im) := by
  unfold writeDest
  split
  · exact .modSp ..
  · exact .setTile ..
  · exact .of_cores rfl

theorem onlyStores_veDest (s : State) (l : Lcid) (o : VeOp) (im : Image) : OnlyStores l s (veDest s l o im) := by
  unfold veDest
  split
  · exact .of_cores rfl
  · exact onlyStores_writeDest ..

theorem onlyStores_veCarry (s : State) (l : Lcid) (o : VeOp) (carry : Option Carry) :
    OnlyStores l s (veCarry s l o carry) := by
  unfold veCarry
  split
  · split
    · exact .of_cores rfl
    · exact .modSp ..
  · exact .of_cores rfl

theorem onlyStores_written (s : State) (l : Lcid) (o : VeOp) (im : Image) (carry : Option Carry) :
    OnlyStores l s (veCarry (veDest s l o im) l o carry) :=
  (onlyStores_veDest ..).trans (onlyStores_veCarry ..)

theorem sp_veDest_mem {a p : Nat} (h : o.d = .mem a p) :
    (getCore (veDest s l o im) l).sp =
      if o.n = 0 then (getCore s l).sp else putImage (getCore s l).sp a p im.data im.plane := by
  unfold veDest writeDest
  split
  · rfl
  · rw [h, getCore_modCore, modSp_sp]

theorem sp_veDest_other (h : ∀ a p, o.d ≠ .mem a p) : (getCore (veDest s l o im) l).sp = (getCore s l).sp := by
  unfold veDest writeDest
  split
  · rfl
  split
  · exact absurd ‹_› (h _ _)
  · exact setTile_sp ..
  · rfl

theorem acc_veDest_acc {n : BitVec 3} {tr : Bool} (h : o.d = .acc n tr) (a : Nat) :
    tget [] (getCore (veDest s l o im) l).eng.acc a =
      if a = n.toNat ∧ o.n ≠ 0 then putRows (tget [] (getCore s l).eng.acc a) im.rows else tget [] (getCore s l).eng.acc a := by
  unfold veDest writeDest
  split
  · rename_i h0
    rw [if_neg (by simp [h0])]
  · rename_i h0
    rw [h, setTile_eng]
    by_cases ha : a = n.toNat
    · rw [if_pos ⟨ha, h0⟩, ha, tget_tput_same]
      rfl
    · rw [if_neg (by simp [ha]), tget_tput_other _ _ _ _ _ ha]

theorem acc_veDest_other (h : ∀ n tr, o.d ≠ .acc n tr) : (getCore (veDest s l o im) l).eng.acc = (getCore s l).eng.acc := by
  unfold veDest writeDest
  split
  · rfl
  split
  · rw [getCore_modCore, modSp]
  · exact absurd ‹_› (h _ _)
  · rfl

theorem acc_veCarry (s : State) (l : Lcid) (o : VeOp) (carry : Option Carry) :
    (getCore (veCarry s l o carry) l).eng.acc = (getCore s l).eng.acc := by
  unfold veCarry
  split
  · split
    · rfl
    · rw [getCore_modCore, modSp]
  · rfl

/-- The slice with the carry of a scan written back. -/
def carrySlice (o : VeOp) (carry : Option Carry) (sl : Slice) : Slice :=
  match o.kind, carry with
  | .scan _ _ _ (some q), some c => slPutWords sl q (carryWords c)
  | _, _ => sl

theorem sp_veCarry (s : State) (l : Lcid) (o : VeOp) (carry : Option Carry) :
    (getCore (veCarry s l o carry) l).sp =
      if o.n = 0 then (getCore s l).sp else carrySlice o carry (getCore s l).sp := by
  unfold veCarry carrySlice
  split
  · split
    · rfl
    · rw [getCore_modCore, modSp_sp]
  · rw [ite_self]

theorem veStep_finish (h : veHit (getCore s l).eng (getCore s l).sp o (veImage (getCore s l).eng (getCore s l).sp o).1 = none) :
    veStep s l o = veFinish s l o (veImage (getCore s l).eng (getCore s l).sp o).1
      (veImage (getCore s l).eng (getCore s l).sp o).2 := by
  simp only [veStep, h]

theorem exec_veOpComplete (hawake : asleep s = false) (hq : (getCore s l).eng.veq = o :: r)
    (hmill : millBefore (getCore s l).eng o.ctx o.iss = false) : exec (.veOpComplete l) s = .next (veStep s l o) := by
  show Host.Outcome.next (awake (doVeOpComplete l) s) = _
  rw [awake_awake _ _ hawake, doVeOpComplete]
  simp only [hq, hmill, Bool.false_eq_true, if_false]

/-! ### Faults -/

theorem writePrefix_mem {a p i : Nat} (h : o.d = .mem a p) :
    writePrefix s l o im i = (modCore s l fun k => modSp k fun sl =>
      putImage sl a p (im.data.take (prefixOf o a i).1) (im.plane.take (prefixOf o a i).2.1), (prefixOf o a i).2.2) := by
  unfold writePrefix
  rw [h]

theorem onlyStores_writePrefix (s : State) (l : Lcid) (o : VeOp) (im : Image) (i : Nat) :
    OnlyStores l s (writePrefix s l o im i).1 := by
  cases hd : o.d with
  | mem a p => rw [writePrefix_mem hd]; exact .modSp ..
  | acc n tr =>
    cases tr
    · simp only [writePrefix, hd]; exact .setTile ..
    · simp only [writePrefix, hd]; exact .of_cores rfl
  | none | scalar | imm => simp only [writePrefix, hd]; exact .of_cores rfl

theorem veStep_elem {i : Nat}
    (h : veHit (getCore s l).eng (getCore s l).sp o (veImage (getCore s l).eng (getCore s l).sp o).1 = some (.elem i)) :
    let w := writePrefix s l o (veImage (getCore s l).eng (getCore s l).sp o).1 i
    veStep s l o = veFault w.1 l o sPOISON w.2 := by
  simp only [veStep, h]

/-- What a fault of the front operation leaves, once what stands before element `i` is written; `s'` is the state in which the
fault is found. -/
theorem veFault_frame {s' : State} (cause : Status) (i : Nat) (hs : s'.cores = s.cores) (hq : (getCore s l).eng.veq = o :: r)
    (hst : effSt (ctxOf s l o.ctx) = .ready ∨ effSt (ctxOf s l o.ctx) = .waiting) :
    let w := writePrefix s' l o im i
    let v := veFault w.1 l o cause w.2
    ∃ t, v = settle t l o.ctx ∧ ((ctxOf s l o.ctx).freeing = false → v = t) ∧
      (getCore t l).eng.veq = r.filter (fun y => y.ctx != o.ctx) ∧ effSt (ctxOf t l o.ctx) = .faulted ∧
      (ctxOf t l o.ctx).fr0 = fr0Of cause true 2 o.pc ∧
      (∀ a p, o.d = .mem a p →
        let w := prefixOf o a i
        (getCore t l).sp = putImage (getCore s l).sp a p (im.data.take w.1) (im.plane.take w.2.1) ∧
        (ctxOf t l o.ctx).fr1 = BitVec.ofNat 64 w.2.2) := by
  intro w v
  have hw : OnlyStores l s w.1 := (OnlyStores.of_cores hs).trans (onlyStores_writePrefix ..)
  have hagain : ¬ effSt (ctxOf w.1 l o.ctx) = .faulted := by rw [hw.ctxOf]; rintro h0; simp [h0] at hst
  simp only [v, veFault, hagain, if_false]
  generalize hx : modCore w.1 l _ = x
  have hxc : ctxOf x l o.ctx = ctxOf s l o.ctx := by rw [← hx, ctxOf_modEng, hw.ctxOf]
  have hxq : (getCore x l).eng.veq = r.filter fun y => y.ctx != o.ctx := by
    rw [← hx, eng_modEng, hw.veq, hq]
    rfl
  have hxsp : (getCore x l).sp = (getCore w.1 l).sp := by rw [← hx, getCore_modCore, modEng_sp]
  rw [← hxc] at hst ⊢
  obtain ⟨u, hu, hfree, ⟨-, -, hveq, hsp⟩, hfaulted, hfr0, hfr1⟩ := engineFault_frame cause 2 o.pc w.2 hst
  refine ⟨u, hu, hfree, hveq.trans hxq, hfaulted, hfr0, fun a p hd => ⟨?_, ?_⟩⟩
  · rw [hsp, hxsp]
    simp only [w, writePrefix_mem hd]
    rw [getCore_modCore, modSp_sp, getCore_of_cores hs]
  · rw [hfr1]
    simp only [w, writePrefix_mem hd]

theorem exec_veOpFault (hawake : asleep s = false) (src : VeFaultSrc) :
    exec (.veOpFault l src) s = .next (doVeOpFault l src s) := by
  show Host.Outcome.next (awake (doVeOpFault l src) s) = _
  rw [awake_awake _ _ hawake]

@[simp] theorem laneHit_cores (s : State) (l : Lcid) (n : Nat) (twin : Bool) : (laneHit s l n twin).cores = s.cores := rfl

end

/-- Settles O13. -/
theorem vectorOperationEnds : Obligations.VectorOperationEnds := by
  unfold Obligations.VectorOperationEnds
  refine ⟨fun s l o r hawake hq hmill hhit => ?done, fun s l o r hawake hq hmill hst => ⟨fun i hhit => ?poison,
    fun lane i twin hi hsite hlane hhit => ?lane, fun a row twin hrow hsite => ?word⟩⟩
  case done =>
    refine ⟨_, exec_veOpComplete hawake hq hmill, ?_⟩
    rw [veStep_finish hhit, veFinish_eq]
    generalize veImage (getCore s l).eng (getCore s l).sp o = iv
    have hw := onlyStores_written s l o iv.1 iv.2
    refine ⟨veDone s l o iv.1 iv.2, rfl, fun hfree hwait => ?_, ?_, ?sp, fun a => ?acc, ?_, ?_, ?_, fun c' hc => ?_, fun l' hl => ?_⟩
    · exact settle_engineDone _ _ _ _ _ _ _ (by rwa [hw.ctxOf]) (by rwa [hw.ctxOf])
    · rw [veDone, eng_engineDone, settleReleases_veq, hw.veq, hq, List.tail_cons]
    case sp =>
      rw [veDone, sp_engineDone, sp_veCarry]
      refine if_congr Iff.rfl ?_ (congrArg (carrySlice o iv.2) ?_)
      all_goals
        cases hd : o.d with
        | mem a p => exact sp_veDest_mem hd
        | none | acc | scalar | imm => rw [sp_veDest_other (by simp [hd])]; exact (ite_self _).symm
    case acc =>
      rw [veDone, eng_engineDone, settleReleases_acc, acc_veCarry]
      cases hd : o.d with
      | acc n tr => exact acc_veDest_acc hd a
      | none | mem | scalar | imm => rw [acc_veDest_other (by simp [hd])]
    · rw [veDone, ctxOf_engineDone, (writeRecord_ns ..).1]
    · rw [veDone, ctxOf_engineDone, (writeRecord_ns ..).2]
    · rw [veDone, ctxOf_engineDone, (writeRecord_kept ..).2, hw.ctxOf]
    · rw [veDone, ctxOf_engineDone_other _ _ _ _ _ _ _ hc, hw.ctxOf]
    · rw [veDone, getCore_engineDone_other _ _ _ _ _ _ _ hl, hw.2 l' hl]
  case poison =>
    refine ⟨_, exec_veOpFault hawake _, ?_⟩
    have hx : doVeOpFault l .poison s = veStep s l o := by simp [doVeOpFault, hq, hmill, hhit]
    rw [hx, veStep_elem hhit]
    exact veFault_frame sPOISON i rfl hq hst
  case lane =>
    refine ⟨_, exec_veOpFault hawake _, ?_⟩
    have hx : doVeOpFault l (.lane lane i twin) s =
        let w := writePrefix (laneHit s l lane.toNat twin) l o (veImage (getCore s l).eng (getCore s l).sp o).1 i
        veFault w.1 l o sINTERNAL w.2 := by
      simp [doVeOpFault, hq, hmill, hhit, hi, hsite, hlane]
    rw [hx]
    exact veFault_frame sINTERNAL i (laneHit_cores ..) hq hst
  case word =>
    refine ⟨_, exec_veOpFault hawake _, ?_⟩
    simp [doVeOpFault, hq, hmill, hrow, hsite]

end Sys2Proof.Machine
end

section
/-! PROOFS. Hardware queues: what an append does to its queue, to the slice and to the contexts that wait (R206, R254). -/

namespace Sys2Proof.Machine

/-! ### Tables and queues written twice -/

theorem tput_tput {α : Type} [DecidableEq α] (d : α) (t : Tbl α) (k : Nat) {v : α} (v' : α) (hv : v ≠ d) :
    tput d (tput d t k v) k v' = tput d t k v' := by
  induction t with
  | nil => by_cases h' : v' = d <;> simp [tput, hv, h']
  | cons p r ih =>
    obtain ⟨j, w⟩ := p
    by_cases hlt : k < j
    · have hne : k ≠ j := by omega
      by_cases h' : v' = d <;> simp [tput, hv, h', hlt, hne]
    · by_cases he : k = j
      · subst he
        by_cases h' : v' = d <;> simp [tput, hv, h']
      · have hfirst : tput d ((j, w) :: r) k v = (j, w) :: tput d r k v := by simp [tput, hv, hlt, he]
        by_cases h' : v' = d <;> rw [hfirst] <;> simp [tput, h', hlt, he] <;> simpa [h'] using ih

theorem ne_zero_of_valid {q : Queue} (h : q.valid = true) : q ≠ Queue.zero := by
  rintro rfl
  exact absurd h (by decide)

theorem setQ_setQ (k : Core) (n : Nat) {q : Queue} (q' : Queue) (h : q.valid = true) :
    setQ (setQ k n q) n q' = setQ k n q' := by
  simp [setQ, tput_tput _ _ _ _ (ne_zero_of_valid h)]

theorem feedQueue_valid {k : Core} {n : Nat} (w : Word) (h : (getQ k n).valid = true) :
    feedQueue k n w = setQ k n { getQ k n with feeders := joinFeeder (getQ k n).feeders w } := by
  rw [feedQueue, if_pos h]

@[simp] theorem getQ_modSp (k : Core) (f : Slice → Slice) (n : Nat) : getQ (modSp k f) n = getQ k n := rfl

@[simp] theorem sp_setQ (k : Core) (n : Nat) (q : Queue) : (setQ k n q).sp = k.sp := rfl

@[simp] theorem eng_setQ (k : Core) (n : Nat) (q : Queue) : (setQ k n q).eng = k.eng := rfl

@[simp] theorem getQ_modCtx (k : Core) (c : CtxNo) (f : Ctx → Ctx) (n : Nat) : getQ (modCtx k c f) n = getQ k n := rfl

@[simp] theorem getLink_modCtx (k : Core) (c : CtxNo) (f : Ctx → Ctx) (inb : Bool) (d : Nat) :
    getLink (modCtx k c f) inb d = getLink k inb d := rfl

@[simp] theorem getQ_fetched (s : State) (l : Lcid) (c : CtxNo) (n : Nat) :
    getQ (getCore (fetched s l c) l) n = getQ (getCore s l) n := by
  rw [fetched, getCore_modCtxOf, getQ_modCtx]

@[simp] theorem getLink_fetched (s : State) (l : Lcid) (c : CtxNo) (inb : Bool) (d : Nat) :
    getLink (getCore (fetched s l c) l) inb d = getLink (getCore s l) inb d := by
  rw [fetched, getCore_modCtxOf, getLink_modCtx]

@[simp] theorem boundSide_fetched (s : State) (l : Lcid) (c : CtxNo) (inb : Bool) (n : Nat) :
    boundSide (getCore (fetched s l c) l) inb n = boundSide (getCore s l) inb n := by
  simp only [boundSide, getLink_fetched]

theorem entBytes_pos (q : Queue) : 0 < entBytes q := by
  unfold entBytes
  split
  · exact Nat.mul_pos (by decide) (Nat.two_pow_pos _)
  · decide

/-! ### Waking (R254) -/

theorem wakeQrd_wakeQrd (x : Ctx) : wakeQrd (wakeQrd x) = wakeQrd x := by
  cases h : x.wait <;> simp [wakeQrd, h]

theorem effSt_wakeQrd {x : Ctx} (h : ∃ j p lk, x.wait = .queue j p lk) : effSt (wakeQrd x) = .ready := by
  obtain ⟨j, p, lk, h⟩ := h
  rw [wakeQrd, h]
  exact effSt_setSt x (by decide)

theorem getCtx_wakeFold (ws : List CtxNo) (k : Core) (w : CtxNo) :
    getCtx (ws.foldl (fun k c => modCtx k c wakeQrd) k) w = if w ∈ ws then wakeQrd (getCtx k w) else getCtx k w := by
  induction ws generalizing k with
  | nil => rfl
  | cons c r ih =>
    rw [List.foldl_cons, ih]
    by_cases hc : w = c
    · subst hc
      by_cases hr : w ∈ r <;> simp [hr, wakeQrd_wakeQrd]
    · simp [hc, getCtx_modCtx_other _ _ _ _ hc]

theorem coreRest_wakeFold (ws : List CtxNo) (k : Core) :
    coreRest (ws.foldl (fun k c => modCtx k c wakeQrd) k) = coreRest k := by
  induction ws generalizing k with
  | nil => rfl
  | cons c r ih => rw [List.foldl_cons, ih, coreRest_modCtx]

theorem getCtx_wakeAll (k : Core) (n : Nat) (w : CtxNo) :
    getCtx (wakeAll k n) w = if w ∈ (getQ k n).waiters then wakeQrd (getCtx k w) else getCtx k w :=
  getCtx_wakeFold ..

theorem coreRest_wakeAll (k : Core) (n : Nat) :
    coreRest (wakeAll k n) = coreRest (setQ k n { getQ k n with waiters := [] }) :=
  coreRest_wakeFold ..

theorem wakeAll_of_no_waiters {k : Core} {n : Nat} (h : (getQ k n).waiters = []) :
    wakeAll k n = setQ k n { getQ k n with waiters := [] } := by
  rw [wakeAll, h, List.foldl_nil]

theorem sp_eq_of_coreRest {k k' : Core} (h : coreRest k = coreRest k') : k.sp = k'.sp :=
  show (coreRest k).sp = (coreRest k').sp by rw [h]

theorem un_eq_of_coreRest {k k' : Core} (h : coreRest k = coreRest k') : k.un = k'.un :=
  show (coreRest k).un = (coreRest k').un by rw [h]

theorem getQ_eq_of_coreRest {k k' : Core} (h : coreRest k = coreRest k') (n : Nat) : getQ k n = getQ k' n := by
  rw [getQ, un_eq_of_coreRest h, ← getQ]

/-! ### Appends -/

/-- The queue after an entry is appended at its tail. -/
def appended (q : Queue) : Queue := { q with ents := q.ents ++ [q.tail], tail := q.tail + 1, nops := q.nops + 1 }

/-- The core after an entry is appended at the tail of queue `n`, its waiters still waiting. -/
def withEntry (k : Core) (n : Nat) (bs : List Byte) : Core :=
  setQ (modSp k fun sl => slPut sl (entAddr (getQ k n) (getQ k n).tail) (bs.take (entBytes (getQ k n)))) n (appended (getQ k n))

theorem qAppend_done {k : Core} {n : Nat} (bs : List Byte) (hvalid : (getQ k n).valid = true) (hroom : qFull (getQ k n) = false)
    (hclean : entBytes (getQ k n) < 32 → sHas k.sp.bad (entAddr (getQ k n) (getQ k n).tail / 32) = false) :
    qAppend k n bs = (wakeAll (withEntry k n bs) n, .done (getQ k n).tail) := by
  have hclean' : (decide (entBytes (getQ k n) < 32) && sHas k.sp.bad (entAddr (getQ k n) (getQ k n).tail / 32)) = false := by
    rw [Bool.and_eq_false_iff, decide_eq_false_iff_not]
    exact (em _).elim (fun h => .inr (hclean h)) .inl
  have hopen : ¬ (!(getQ k n).valid || qFull (getQ k n)) = true := by simp [hvalid, hroom]
  rw [qAppend, if_neg hopen, if_neg (by simp [hclean'])]
  rfl

theorem qAppend_full {k : Core} {n : Nat} (bs : List Byte) (h : qFull (getQ k n) = true) : qAppend k n bs = (k, .full) := by
  simp [qAppend, h]

@[simp] theorem getQ_withEntry (k : Core) (n : Nat) (bs : List Byte) : getQ (withEntry k n bs) n = appended (getQ k n) :=
  getQ_setQ ..

/-- What an append leaves of all but the contexts. -/
theorem coreRest_append {k : Core} {n : Nat} (bs : List Byte) (hvalid : (getQ k n).valid = true) :
    coreRest (wakeAll (withEntry k n bs) n) = coreRest (setQ
      (modSp k fun sl => slPut sl (entAddr (getQ k n) (getQ k n).tail) (bs.take (entBytes (getQ k n)))) n
      { appended (getQ k n) with waiters := [] }) := by
  rw [coreRest_wakeAll, getQ_withEntry, withEntry, setQ_setQ _ _ _ (by exact hvalid)]

end Sys2Proof.Machine
end

section
/-! PROOFS. QRD and QPUT on a configured queue (R206, R254, R255, R256). -/

namespace Sys2Proof.Machine

section
variable {s : State} {l : Lcid} {c : CtxNo} {b : BitVec 54}

/-- An instruction that stays where it is, changing its core by `g`, which neither reads nor writes the contexts, and its
context by `f`. -/
theorem modCtxOf_modCore_fetched (s : State) (l : Lcid) (c : CtxNo) (g : Core → Core) (f : Ctx → Ctx)
    (hg : ∀ k xs, g { k with ctxs := xs } = { g k with ctxs := xs }) :
    onlyCore s (modCtxOf (modCore (fetched s l c) l g) l c f) l c
      (f { ctxOf s l c with slot := some ((ctxOf s l c).pc.toNat / 128) }) (g (getCore s l)) := by
  have hctxs : ∀ k, (g k).ctxs = k.ctxs := fun k => by rw [show g k = _ from hg k k.ctxs]
  have hctx : ∀ k c', getCtx (g k) c' = getCtx k c' := fun k c' => by rw [getCtx, hctxs, ← getCtx]
  have hrest : coreRest (g (getCore (fetched s l c) l)) = coreRest (g (getCore s l)) := by
    have hk : getCore (fetched s l c) l = { getCore s l with ctxs := (getCore (fetched s l c) l).ctxs } := by
      simp [fetched, modCtx, setCtx]
    rw [hk, hg]
    rfl
  refine ⟨?_, fun c' h => ?_, ?_, fun l' h => ?_, by simp [fetched]⟩
  · simp [fetched, ctxOf, hctx]
  · simp [fetched, ctxOf, hctx, getCtx_modCtx_other _ _ _ _ h]
  · simpa [fetched] using hrest
  · simp [fetched, modCtxOf, getCore_modCore_other _ _ _ _ h]

theorem writeG_writeP_slot (x : Ctx) (r p : Nat) (w : Word) (v : Bool) (n : Option Nat) :
    writeP (writeG { x with slot := n } r w) p v = { writeP (writeG x r w) p v with slot := n } := by
  rw [writeG_slot, writeP_slot]

/-! ### QRD -/

theorem exec_qrd_ring (h : issues s l c b (onlyFields b [(46, 4), (38, 4), (35, 3), (34, 1), (31, 3), (0, 6)]) anyRoom)
    (hin : boundSide (getCore s l) true (fld b 0 6) = none) (hout : boundSide (getCore s l) false (fld b 0 6) = none) :
    exec (.qrd l c b) s = .next (
      if !(getQ (getCore s l) (fld b 0 6)).valid ∨ entBytes (getQ (getCore s l) (fld b 0 6)) ≤ 8 * fld b 31 3 then
        precise (fetched s l c) l c sBOUNDS 3 (insWord 0x1C0 b)
      else if 2 ^ 32 ≤ (readG (ctxOf s l c) (fld b 38 4)).toNat then
        precise (fetched s l c) l c sBOUNDS 3 (readG (ctxOf s l c) (fld b 38 4))
      else qrdRing (fetched s l c) l c b (readG (ctxOf s l c) (fld b 38 4)).toNat) := by
  have hx : exec (.qrd l c b) s = .next (doQrd l c b s) := rfl
  rw [doQrd, issue_body _ _ _ _ _ _ _ _ _ h] at hx
  simpa only [boundSide_fetched, getQ_fetched, qnOf, hin, hout, getCtx_getCore, gAt, readG_fetched] using hx

theorem qrdRing_entry {gt n : Nat} {r : List Nat} (he : (getQ (getCore s l) (fld b 0 6)).ents = n :: r)
    (hp : poisonAt (getCore s l).sp (entAddr (getQ (getCore s l) (fld b 0 6)) n + 8 * fld b 31 3) 8 = none) :
    let k := getCore s l
    let q := getQ k (fld b 0 6)
    onlyCore s (qrdRing (fetched s l c) l c b gt) l c
      (completed (ctxOf s l c) fun x =>
        writeP (writeG x (fld b 46 4) (rdWord k.sp.mem (entAddr q n + 8 * fld b 31 3))) (fld b 35 3) true)
      (if b.getLsbD 34 then
        setQ k (fld b 0 6) { q with ents := r, held := if (ctxOf s l c).hasRec then q.held ++ [(n, c)] else q.held } else k) := by
  intro k q
  simp only [qrdRing, qnOf, getQ_fetched, sp_fetched, he, hp, popHead, getCtx_getCore, hasRec_fetched, slWord, bit_eq_getLsbD]
  split
  · exact finish_modCore_completed s l c
      (fun k => setQ k (fld b 0 6) { q with ents := r, held := if (ctxOf s l c).hasRec then q.held ++ [(n, c)] else q.held }) _
      (fun _ _ => rfl) fun _ _ => writeG_writeP_slot ..
  · exact finish_completed s l c _ fun _ _ => writeG_writeP_slot ..

theorem qrdRing_poison {gt n p : Nat} {r : List Nat} (he : (getQ (getCore s l) (fld b 0 6)).ents = n :: r)
    (hp : poisonAt (getCore s l).sp (entAddr (getQ (getCore s l) (fld b 0 6)) n + 8 * fld b 31 3) 8 = some p) :
    qrdRing (fetched s l c) l c b gt = precise (fetched s l c) l c sPOISON 3 (BitVec.ofNat 64 p) := by
  simp only [qrdRing, qnOf, getQ_fetched, sp_fetched, he, hp, wd]

theorem qrdRing_empty {gt : Nat} (hready : (ctxOf s l c).st = .ready) (he : (getQ (getCore s l) (fld b 0 6)).ents = []) :
    let x := ctxOf s l c
    let q := getQ (getCore s l) (fld b 0 6)
    onlyCore s (qrdRing (fetched s l c) l c b gt) l c
      { x with st := .waiting, slot := some (x.pc.toNat / 128), wait := .queue (fld b 0 6) (fld b 35 3) false, waitNo := x.waitNo + 1
               deadline := match x.deadline with | some d => some d | none => if gt = 0 then none else some (now s + gt + 1) }
      (setQ (getCore s l) (fld b 0 6) { q with waiters := q.waiters.filter (· != c) ++ [c] }) := by
  intro x q
  simp only [qrdRing, qnOf, getQ_fetched, he, qrdWait, Bool.false_eq_true, if_false]
  have hw := modCtxOf_modCore_fetched s l c
    (fun k => setQ k (fld b 0 6) { getQ k (fld b 0 6) with waiters := (getQ k (fld b 0 6)).waiters.filter (· != c) ++ [c] })
    (fun x => makeWait x (.queue (fld b 0 6) (fld b 35 3) false)
      (match x.deadline with | some d => some d | none => if gt = 0 then none else some (now s + gt + 1))) fun _ _ => rfl
  simp only [makeWait, setSt, hready] at hw
  exact hw

/-! ### QPUT -/

theorem issues_qputRoom (h : issues s l c b (onlyFields b [(42, 4), (35, 3), (0, 6)]) anyRoom)
    (hout : boundSide (getCore s l) false (fld b 0 6) = none) :
    issues s l c b (onlyFields b [(42, 4), (35, 3), (0, 6)]) (qputRoom b c) := by
  obtain ⟨h1, h2, h3, h4, -⟩ := h
  exact ⟨h1, h2, h3, h4, by simp [qputRoom, qnOf, hout]⟩

theorem exec_qput_invalid (h : issues s l c b (onlyFields b [(42, 4), (35, 3), (0, 6)]) anyRoom)
    (hin : boundSide (getCore s l) true (fld b 0 6) = none) (hout : boundSide (getCore s l) false (fld b 0 6) = none)
    (hv : (getQ (getCore s l) (fld b 0 6)).valid = false) :
    exec (.qput l c b) s = .next (precise (fetched s l c) l c sBOUNDS 3 (insWord 0x1C1 b)) := by
  have hx : exec (.qput l c b) s = .next (doQput l c b s) := rfl
  rw [doQput, issue_body _ _ _ _ _ _ _ _ _ (issues_qputRoom h hout)] at hx
  simpa only [boundSide_fetched, getQ_fetched, qnOf, hin, hout, hv, Bool.not_false, if_true] using hx

theorem qputFault_eq_none {sl : Slice} {a : Word} {n : Nat} (hn : 0 < n) (hin : a.toNat + n ≤ 2 ^ 21) (hal : a.toNat % n = 0)
    (hp : poisonAt sl a.toNat n = none) : qputFault sl a n = none := by
  have hlt : a.toNat < 2 ^ 21 := by omega
  simp only [qputFault, ownOff_of_lt hlt, hal, hp, ne_eq, not_true, if_false, Option.map_none, sliceBytes]
  exact if_neg (by omega)

/-- QPUT of an aligned, readable entry to a configured queue. -/
theorem exec_qput_valid (h : issues s l c b (onlyFields b [(42, 4), (35, 3), (0, 6)]) anyRoom)
    (hin : boundSide (getCore s l) true (fld b 0 6) = none) (hout : boundSide (getCore s l) false (fld b 0 6) = none)
    (hv : (getQ (getCore s l) (fld b 0 6)).valid = true) {a n : Nat} (ha : (readG (ctxOf s l c) (fld b 42 4)).toNat = a)
    (hn : entBytes (getQ (getCore s l) (fld b 0 6)) = n) (hfit : a + n ≤ 2 ^ 21) (hal : a % n = 0)
    (hp : poisonAt (getCore s l).sp a n = none) {k' : Core} {v : Bool}
    (hr : qputRing (getCore (fetched s l c) l) (fld b 0 6) (rdBytes (getCore s l).sp.mem a n) (senderWord s l c) = (k', .ok v)) :
    exec (.qput l c b) s = .next (finishP (setCore (fetched s l c) l k') l c b v) := by
  subst ha hn
  have hx : exec (.qput l c b) s = .next (doQput l c b s) := rfl
  rw [doQput, issue_body _ _ _ _ _ _ _ _ _ (issues_qputRoom h hout)] at hx
  have hfault := qputFault_eq_none (entBytes_pos _) hfit hal hp
  have ha : fld (readG (ctxOf s l c) (fld b 42 4)) 0 21 = (readG (ctxOf s l c) (fld b 42 4)).toNat :=
    fld_low_eq (by have := entBytes_pos (getQ (getCore s l) (fld b 0 6)); omega)
  simp only [boundSide_fetched, getQ_fetched, qnOf, hin, hout, hv, getCtx_getCore, gAt, readG_fetched, sp_fetched, hfault,
    ha, slRead, Bool.not_true, Bool.false_eq_true, if_false] at hx
  rw [show senderWord (fetched s l c) l c = senderWord s l c from rfl, hr] at hx
  exact hx

end

/-- The core after QPUT has given a queue an entry. -/
def withPut (k : Core) (n : Nat) (bs : List Byte) (who : Word) : Core := feedQueue (wakeAll (withEntry k n bs) n) n who

/-- All but the contexts after a put: the entry in the slice, the queue with it, its waiters gone and its feeder noted. -/
def putRest (k : Core) (n : Nat) (bs : List Byte) (who : Word) : Core :=
  setQ (modSp k fun sl => slPut sl (entAddr (getQ k n) (getQ k n).tail) (bs.take (entBytes (getQ k n)))) n
    { appended (getQ k n) with waiters := [], feeders := joinFeeder (getQ k n).feeders who }

section
variable {k : Core} {n : Nat} {bs : List Byte} {who : Word}

theorem coreRest_setQ_congr {k k' : Core} (h : coreRest k = coreRest k') (n : Nat) (q : Queue) :
    coreRest (setQ k n q) = coreRest (setQ k' n q) :=
  show setQ (coreRest k) n q = setQ (coreRest k') n q by rw [h]

theorem getQ_wakeAll_withEntry (hv : (getQ k n).valid = true) :
    getQ (wakeAll (withEntry k n bs) n) n = { appended (getQ k n) with waiters := [] } := by
  rw [getQ_eq_of_coreRest (coreRest_append bs hv), getQ_setQ]

theorem coreRest_withPut (hv : (getQ k n).valid = true) : coreRest (withPut k n bs who) = coreRest (putRest k n bs who) := by
  have hq := getQ_wakeAll_withEntry (bs := bs) hv
  rw [withPut, feedQueue_valid _ (by rw [hq]; exact hv), hq, coreRest_setQ_congr (coreRest_append bs hv),
    setQ_setQ _ _ _ (by exact hv), putRest]
  rfl

theorem getCtx_feedQueue (k : Core) (n : Nat) (who : Word) (w : CtxNo) : getCtx (feedQueue k n who) w = getCtx k w := by
  unfold feedQueue
  dsimp only
  split <;> rfl

theorem getCtx_withPut (w : CtxNo) :
    getCtx (withPut k n bs who) w = if w ∈ (getQ k n).waiters then wakeQrd (getCtx k w) else getCtx k w := by
  rw [withPut, getCtx_feedQueue, getCtx_wakeAll, getQ_withEntry]
  rfl

theorem qputRing_append (hkind : (getQ k n).kind ≠ 2) (hv : (getQ k n).valid = true) (hroom : qFull (getQ k n) = false)
    (hclean : entBytes (getQ k n) < 32 → sHas k.sp.bad (entAddr (getQ k n) (getQ k n).tail / 32) = false) :
    qputRing k n bs who = (withPut k n bs who, .ok true) := by
  rw [qputRing, if_neg hkind, qAppend_done bs hv hroom hclean]
  rfl

theorem qputRing_full (hkind : (getQ k n).kind ≠ 2) (hfull : qFull (getQ k n) = true) :
    qputRing k n bs who = (k, .ok false) := by
  rw [qputRing, if_neg hkind, qAppend_full bs hfull]

theorem qputRing_boom (hkind : (getQ k n).kind = 2) (hv : (getQ k n).valid = true) (hlen : bs.length = 64) :
    let r : BitVec 16 := BitVec.ofNat 16 (leNat (bs.drop 62))
    (boomTakes (getQ k n) r = false → qputRing k n bs who = (k, .ok false)) ∧
    (boomTakes (getQ k n) r = true → qputRing k n bs who =
      (setQ k n { boomAdd (getQ k n) r (boomVals (getQ k n) (bs.take (boomLen (getQ k n)))) with
        feeders := joinFeeder (getQ k n).feeders who }, .ok true)) := by
  intro r
  have htake : (bs.drop 62).take 2 = bs.drop 62 := List.take_of_length_le (by simp [hlen])
  rw [qputRing, if_pos hkind, htake]
  refine ⟨fun h => if_neg (by simp [r, h]), fun h => (if_pos h).trans ?_⟩
  have hv' : (boomAdd (getQ k n) r (boomVals (getQ k n) (bs.take (boomLen (getQ k n))))).valid = true := hv
  rw [feedQueue_valid _ (by rw [getQ_setQ]; exact hv'), getQ_setQ, setQ_setQ _ _ _ hv']
  rfl

end

section
variable {s : State} {l : Lcid} {c : CtxNo} {b : BitVec 54}

/-- R254: what a QPUT that appends an entry leaves. -/
theorem finishP_withPut {n : Nat} {bs : List Byte} {who : Word} (hv : (getQ (getCore s l) n).valid = true)
    (hc : c ∉ (getQ (getCore s l) n).waiters) :
    let t := finishP (setCore (fetched s l c) l (withPut (getCore (fetched s l c) l) n bs who)) l c b true
    ctxOf t l c = completed (ctxOf s l c) (fun x => writeP x (fld b 35 3) true) ∧
    (∀ w, w ≠ c → ctxOf t l w = if w ∈ (getQ (getCore s l) n).waiters then wakeQrd (ctxOf s l w) else ctxOf s l w) ∧
    coreRest (getCore t l) = coreRest (putRest (getCore s l) n bs who) ∧
    (∀ l', l' ≠ l → getCore t l' = getCore s l') ∧ stateRest t = stateRest s := by
  intro t
  have ht : t = finish (modCore (fetched s l c) l fun k => withPut k n bs who) l c fun x => writeP x (fld b 35 3) true := rfl
  rw [ht]
  refine ⟨?_, fun w hw => ?_, ?_, fun l' hl => ?_, by simp [finish, fetched]⟩
  · simp [finish, fetched, ctxOf, getCtx_withPut, hc, completed, writeP_slot]
  · simp [finish, fetched, ctxOf, getCtx_modCtx_other _ _ _ _ hw, getCtx_withPut]
  · have hk : getCore (fetched s l c) l = { getCore s l with ctxs := (getCore (fetched s l c) l).ctxs } := by
      simp [fetched, modCtx, setCtx]
    rw [finish, getCore_modCtxOf, coreRest_modCtx, getCore_modCore, coreRest_withPut (by rw [getQ_fetched]; exact hv), hk]
    rfl
  · simp [finish, fetched, modCtxOf, getCore_modCore_other _ _ _ _ hl]

theorem finishP_completed (s : State) (l : Lcid) (c : CtxNo) (b : BitVec 54) (v : Bool) :
    onlyCtx s (finishP (fetched s l c) l c b v) l c (completed (ctxOf s l c) fun x => writeP x (fld b 35 3) v) :=
  finish_completed s l c _ fun _ _ => writeP_slot ..

theorem finishP_setQ_completed (s : State) (l : Lcid) (c : CtxNo) (b : BitVec 54) (v : Bool) (n : Nat) (q : Queue) :
    onlyCore s (finishP (setCore (fetched s l c) l (setQ (getCore (fetched s l c) l) n q)) l c b v) l c
      (completed (ctxOf s l c) fun x => writeP x (fld b 35 3) v) (setQ (getCore s l) n q) :=
  finish_modCore_completed s l c (fun k => setQ k n q) _ (fun _ _ => rfl) fun _ _ => writeP_slot ..

/-- An instruction that writes the core back as it found it. -/
theorem setCore_getCore_fetched (s : State) (l : Lcid) (c : CtxNo) :
    onlyCtx s (finishP (setCore (fetched s l c) l (getCore (fetched s l c) l)) l c b v) l c
      (completed (ctxOf s l c) fun x => writeP x (fld b 35 3) v) :=
  finish_modCore_completed s l c id _ (fun _ _ => rfl) fun _ _ => writeP_slot ..

end

theorem length_rdBytes (m : Memory) (a n : Nat) : (rdBytes m a n).length = n := by
  rw [rdBytes, List.length_map, length_upto]

theorem sHas_false_of_clean {sl : Slice} {a n : Nat} (hn : 0 < n) (h : n < 32 → poisonAt sl a n = none) (hlt : n < 32) :
    sHas sl.bad (a / 32) = false :=
  not_sHas_of_poisonAt_none (h hlt) hn (le_refl _) (by omega)

/-- Settles O14. -/
theorem queueReadsAndWrites : Obligations.QueueReadsAndWrites := by
  unfold Obligations.QueueReadsAndWrites
  refine ⟨fun s l c b h => ?qrd, fun s l c b h => ?qput⟩
  case qrd =>
    intro k x qn q gt hin hout
    have hx := exec_qrd_ring h hin hout
    refine ⟨fun hbad => ⟨_, hx.trans ?_, rfl⟩, fun hv hw hgt => ⟨_, hx.trans ?_, rfl⟩, fun hv hw hgt => ?_⟩
    · rw [if_pos (by simpa using hbad)]
    · rw [if_neg (not_or.2 ⟨by simpa using hv, Nat.not_le.2 hw⟩), if_pos hgt]
    · rw [if_neg (not_or.2 ⟨by simpa using hv, Nat.not_le.2 hw⟩), if_neg (Nat.not_le.2 hgt)] at hx
      exact ⟨fun n r he hp => ⟨_, hx, qrdRing_entry he hp⟩, fun n r p he hp => ⟨_, hx, qrdRing_poison he hp⟩,
        fun he => ⟨_, hx, qrdRing_empty (ready_of_issues h) he⟩⟩
  case qput =>
    intro k x qn q a n put hin hout
    refine ⟨fun hv => ⟨_, exec_qput_invalid h hin hout hv, rfl⟩, fun hv hfit hal hp => ?_⟩
    have hput : q.kind ≠ 2 → qFull q = false → (n < 32 → poisonAt k.sp (entAddr q q.tail) n = none) → exec (.qput l c b) s =
        .next (finishP (setCore (fetched s l c) l
          (withPut (getCore (fetched s l c) l) qn (rdBytes k.sp.mem a n) (senderWord s l c))) l c b true) := by
      intro hkind hroom hclean
      refine exec_qput_valid h hin hout hv rfl rfl hfit hal hp (qputRing_append ?_ ?_ ?_ ?_) <;>
        simp only [getQ_fetched, sp_fetched]
      · exact hkind
      · exact hv
      · exact hroom
      · exact sHas_false_of_clean (entBytes_pos _) hclean
    refine ⟨?full, ?alone, ?waking, ?boom⟩
    case full =>
      intro hkind hfull
      exact ⟨_, exec_qput_valid h hin hout hv rfl rfl hfit hal hp (qputRing_full (by simpa using hkind) (by simpa using hfull)),
        setCore_getCore_fetched ..⟩
    case alone =>
      intro hkind hroom hwait hclean
      obtain ⟨h1, h2, h3, h4, h5⟩ := finishP_withPut (bs := rdBytes k.sp.mem a n) (who := senderWord s l c) (b := b) hv
        (by simp [hwait] : c ∉ q.waiters)
      refine ⟨_, hput hkind hroom hclean, h1, fun w hw => ?_, h3.trans ?_, h4, h5⟩
      · rw [h2 w hw, show (getQ (getCore s l) qn).waiters = [] from hwait, if_neg List.not_mem_nil]
      · rw [putRest, List.take_of_length_le (length_rdBytes ..).le, ← hwait]
        rfl
    case waking =>
      intro hkind hroom hc hclean
      obtain ⟨h1, h2, h3, -, -⟩ := finishP_withPut (bs := rdBytes k.sp.mem a n) (who := senderWord s l c) (b := b) hv hc
      have hq := getQ_eq_of_coreRest h3 qn
      rw [putRest, getQ_setQ] at hq
      refine ⟨_, hput hkind hroom hclean, h1, by rw [hq], fun w hw hwq => ?_, fun w hw hwn => ?_, by rw [hq]; rfl, ?_⟩
      · rw [h2 w (by rintro rfl; exact hc hw), if_pos hw, effSt_wakeQrd hwq]
      · rw [h2 w hw, if_neg hwn]
      · rw [sp_eq_of_coreRest h3, putRest, List.take_of_length_le (length_rdBytes ..).le]
        rfl
    case boom =>
      intro hkind bs rnd
      have hn : n = 64 := if_neg (by rw [hkind]; decide)
      rw [hn] at hfit hal hp
      obtain ⟨hno, hyes⟩ := qputRing_boom (k := getCore (fetched s l c) l) (n := qn) (who := senderWord s l c)
        (by rw [getQ_fetched]; exact hkind) (by rw [getQ_fetched]; exact hv) (length_rdBytes k.sp.mem a 64)
      rw [getQ_fetched] at hno hyes
      exact ⟨fun hr => ⟨_, exec_qput_valid h hin hout hv rfl hn hfit hal hp (hno hr), setCore_getCore_fetched ..⟩,
        fun hr => ⟨_, exec_qput_valid h hin hout hv rfl hn hfit hal hp (hyes hr), finishP_setQ_completed ..⟩⟩

end Sys2Proof.Machine
end

section
/-! PROOFS. QTEST, QCFG, the timeout of a QRD, and the release of a Boom round (R206, R253, R254, R256 to R258). -/

namespace Sys2Proof.Machine

section
variable {s : State} {l : Lcid} {c : CtxNo} {b : BitVec 54}

/-! ### QTEST and QCFG -/

theorem exec_qtest_ring (h : issues s l c b (onlyFields b [(35, 3), (0, 6)]) anyRoom)
    (hin : boundSide (getCore s l) true (fld b 0 6) = none) (hout : boundSide (getCore s l) false (fld b 0 6) = none) :
    exec (.qtest l c b) s = .next (
      if (getQ (getCore s l) (fld b 0 6)).valid then
        finishP (fetched s l c) l c b (!(getQ (getCore s l) (fld b 0 6)).ents.isEmpty)
      else precise (fetched s l c) l c sBOUNDS 3 (insWord 0x1C2 b)) := by
  have hx : exec (.qtest l c b) s = .next (doQtest l c b s) := rfl
  rw [doQtest, issue_body _ _ _ _ _ _ _ _ _ h] at hx
  simpa only [boundSide_fetched, getQ_fetched, qnOf, hin, hout, Option.map_none] using hx

theorem boomSlotsUsed_fetched (s : State) (l : Lcid) (c : CtxNo) (n : Nat) :
    boomSlotsUsed (getCore (fetched s l c) l) n = boomSlotsUsed (getCore s l) n := by
  simp only [boomSlotsUsed, un_fetched]

section
variable (h : issues s l c b (onlyFields b [(42, 4), (0, 6)]) anyRoom)
  (hin : boundSide (getCore s l) true (fld b 0 6) = none) (hout : boundSide (getCore s l) false (fld b 0 6) = none)
  {a : Nat} (ha : (readG (ctxOf s l c) (fld b 42 4)).toNat = a) (hlt : a < 2 ^ 21) (hal : a % 32 = 0)
  (hp : poisonAt (getCore s l).sp a 32 = none)

include h hin hout ha hlt hal hp

theorem exec_qcfg_reserved (hq : queueOf (fld b 0 6) (rdWord (getCore s l).sp.mem a) (rdWord (getCore s l).sp.mem (a + 8))
    (rdWord (getCore s l).sp.mem (a + 16)) (rdWord (getCore s l).sp.mem (a + 24)) = none) :
    exec (.qcfg l c b) s = .next (precise (fetched s l c) l c sRSVD 3 (insWord 0x1C3 b)) := by
  subst ha
  have hal' : fld (readG (ctxOf s l c) (fld b 42 4)) 0 5 = 0 := (fld_zero_eq_mod ..).trans hal
  have hx : exec (.qcfg l c b) s = .next (doQcfg l c b s) := rfl
  rw [doQcfg, issue_body _ _ _ _ _ _ _ _ _ h] at hx
  simpa only [boundSide_fetched, qnOf, hin, hout, Option.isSome_none, Bool.false_eq_true, or_self, if_false, getCtx_getCore,
    gAt, readG_fetched, hal', ne_eq, not_true, ownOff_of_lt hlt, sp_fetched, hp, slWord, hq] using hx

theorem exec_qcfg_image {v : Queue} (hq : queueOf (fld b 0 6) (rdWord (getCore s l).sp.mem a) (rdWord (getCore s l).sp.mem (a + 8))
      (rdWord (getCore s l).sp.mem (a + 16)) (rdWord (getCore s l).sp.mem (a + 24)) = some v)
    (hring : v.valid = true → v.base.toNat % entBytes v = 0 ∧ v.base.toNat + capOf v * entBytes v ≤ 2 ^ 21)
    (hslots : v.valid = true → v.kind = 2 → boomSlotsUsed (getCore s l) (fld b 0 6) + boomDepth v ≤ 32) :
    exec (.qcfg l c b) s = .next (
      if queueBusy (getQ (getCore s l) (fld b 0 6)) then precise (fetched s l c) l c sPERM 3 (insWord 0x1C3 b)
      else advance (setCore (fetched s l c) l (setQ (getCore (fetched s l c) l) (fld b 0 6) v)) l c) := by
  subst ha
  have hal' : fld (readG (ctxOf s l c) (fld b 42 4)) 0 5 = 0 := (fld_zero_eq_mod ..).trans hal
  have hx : exec (.qcfg l c b) s = .next (doQcfg l c b s) := rfl
  rw [doQcfg, issue_body _ _ _ _ _ _ _ _ _ h] at hx
  have hbase : ¬ (v.valid = true ∧ v.base.toNat % entBytes v ≠ 0) := fun ⟨hv, hb⟩ => hb (hring hv).1
  have hend : ¬ (v.valid = true ∧ sliceBytes < v.base.toNat + capOf v * entBytes v) :=
    fun ⟨hv, hb⟩ => Nat.not_lt.2 (hring hv).2 hb
  have hroom : ¬ (v.valid = true ∧ v.kind = 2 ∧ 32 < boomSlotsUsed (getCore s l) (fld b 0 6) + boomDepth v) :=
    fun ⟨hv, hk, hb⟩ => Nat.not_lt.2 (hslots hv hk) hb
  simpa only [boundSide_fetched, getQ_fetched, qnOf, hin, hout, Option.isSome_none, Bool.false_eq_true, or_self, if_false,
    getCtx_getCore, gAt, readG_fetched, hal', ne_eq, not_true, ownOff_of_lt hlt, sp_fetched, hp, slWord, hq,
    if_neg hbase, if_neg hend, boomSlotsUsed_fetched, if_neg hroom] using hx

end

/-! ### The timeout of a QRD -/

/-- What a change of one context and of its core's other parts leaves. -/
theorem modCtxOf_modCore_frame (s : State) (l : Lcid) (c : CtxNo) (g : Core → Core) (f : Ctx → Ctx)
    (hg : ∀ k c', getCtx (g k) c' = getCtx k c') :
    onlyCore s (modCtxOf (modCore s l g) l c f) l c (f (ctxOf s l c)) (g (getCore s l)) := by
  refine ⟨?_, fun c' h => ?_, ?_, fun l' h => ?_, by simp⟩
  · simp [ctxOf, hg]
  · simp [ctxOf, hg, getCtx_modCtx_other _ _ _ _ h]
  · simp
  · simp [modCtxOf, getCore_modCore_other _ _ _ _ h]

theorem modCtxOf_frame (s : State) (l : Lcid) (c : CtxNo) (f : Ctx → Ctx) :
    onlyCtx s (modCtxOf s l c f) l c (f (ctxOf s l c)) := by
  refine ⟨by simp, fun c' h => ctxOf_modCtxOf_other _ _ _ _ _ h, by simp, fun l' h => ?_, by simp [modCtxOf]⟩
  simp [modCtxOf, getCore_modCore_other _ _ _ _ h]

theorem setSt_of_not_held {x : Ctx} (h : x.st ≠ .held) (st : CtxSt) : setSt x st = { x with st := st } := if_neg h

theorem makeReady_of_not_held {x : Ctx} (h : x.st ≠ .held) :
    makeReady x = { x with st := .ready, wait := .none, deadline := none } := by
  rw [makeReady, setSt_of_not_held h]

theorem writeP_pc (x : Ctx) (p : Nat) (v : Bool) (a : BitVec 21) :
    writeP { x with pc := a } p v = { writeP x p v with pc := a } := by
  simp only [writeP]
  split <;> rfl

theorem doQrdTimeout_due {qn pd d : Nat} {link : Bool} (hst : (ctxOf s l c).st = .waiting)
    (hwait : (ctxOf s l c).wait = .queue qn pd link) (hd : (ctxOf s l c).deadline = some d) (hdue : d ≤ now s) :
    doQrdTimeout l c s = modCtxOf (modCore s l fun k =>
      setQ k qn { getQ k qn with waiters := (getQ k qn).waiters.filter (· != c) }) l c
        fun x => { writeP (makeReady x) pd false with pc := x.pc + 8 } := by
  have heff : effSt (ctxOf s l c) = .waiting := by simp [effSt, hst]
  have hdue' : due s (ctxOf s l c) = true := by simp [due, hd, hdue]
  simp only [doQrdTimeout, hwait, heff, hdue', and_self, if_true, abandonWait]

/-! ### The release of a Boom round -/

theorem length_wordBytes (ws : List Word) : (wordBytes ws).length = 8 * ws.length := by
  induction ws with
  | nil => rfl
  | cons w r ih =>
    rw [wordBytes] at ih ⊢
    rw [List.flatMap_cons, List.length_append, length_leBytes, ih, List.length_cons]
    omega

theorem length_boomEntry (q : Queue) : (boomEntry q).length = 8 := by
  simp [boomEntry, below]

theorem valid_of_boomReady {q : Queue} (h : boomReady q = true) : q.valid = true ∧ q.kind = 2 := by
  simp only [boomReady, Bool.and_eq_true, beq_iff_eq] at h
  exact h.1

/-- The core after the entry of a complete round is appended: NEXT is one higher, the round's working slot is free, and a Boom
that starts contexts has a start waiting. -/
def boomReleased (q : Queue) (n : Nat) (k : Core) : Core :=
  let v := getQ k n
  let k := setQ k n { v with next := v.next + 1, slots := tput BoomSlot.zero v.slots (boomIx q q.next) BoomSlot.zero }
  if boomStart q then modUn k fun u => { u with starts := u.starts ++ [.boom n q.tail (boomHidx q)] } else k

theorem boomReleased_fields (q : Queue) (n : Nat) (k : Core) :
    (getQ (boomReleased q n k) n).ents = (getQ k n).ents ∧ (getQ (boomReleased q n k) n).next = (getQ k n).next + 1 ∧
    (boomReleased q n k).sp = k.sp ∧
    (boomReleased q n k).un.starts = k.un.starts ++ (if boomStart q then [.boom n q.tail (boomHidx q)] else []) := by
  have hun (k : Core) (f : Units → Units) (hf : ∀ u, (f u).queues = u.queues) : getQ (modUn k f) n = getQ k n :=
    congrArg (tget Queue.zero · n) (hf k.un)
  unfold boomReleased
  cases boomStart q with
  | false => exact ⟨by simp, by simp, rfl, (List.append_nil _).symm⟩
  | true =>
    refine ⟨?_, ?_, rfl, rfl⟩ <;>
      simp only [if_true, hun _ (fun u => { u with starts := u.starts ++ [.boom n q.tail (boomHidx q)] }) fun _ => rfl, getQ_setQ]

theorem doBoomRoundRelease_ready {qn : BitVec 6} {q : Queue} (hq : getQ (getCore s l) qn.toNat = q) (hready : boomReady q = true)
    (hroom : qFull q = false) :
    doBoomRoundRelease l qn s = setCore s l (boomReleased q qn.toNat
      (wakeAll (withEntry (getCore s l) qn.toNat (wordBytes (boomEntry q))) qn.toNat)) := by
  subst hq
  obtain ⟨hv, hkind⟩ := valid_of_boomReady hready
  have hsize : entBytes (getQ (getCore s l) qn.toNat) = 64 := if_neg (by rw [hkind]; decide)
  have happ := qAppend_done (wordBytes (boomEntry (getQ (getCore s l) qn.toNat))) hv hroom (by rw [hsize]; omega)
  rw [doBoomRoundRelease, hready, happ]
  rfl

end

/-- Settles O15. -/
theorem queueTestsAndEvents : Obligations.QueueTestsAndEvents := by
  unfold Obligations.QueueTestsAndEvents
  refine ⟨fun s l c b hin hout => ⟨fun h => ⟨fun hv => ?_, fun hv => ?_⟩, fun h hlt hal hp => ⟨fun hq => ?_, fun v hq hring hslots => ?_⟩⟩,
    fun s l c qn pd link d hst hwait hd hdue => ?timeout, fun s l qn hawake hready hroom => ?boom⟩
  · exact ⟨_, (exec_qtest_ring h hin hout).trans (by rw [if_pos hv]), finishP_completed ..⟩
  · exact ⟨_, (exec_qtest_ring h hin hout).trans (by rw [if_neg (by simp [hv])]), rfl⟩
  · exact ⟨_, exec_qcfg_reserved h hin hout rfl hlt hal hp hq, rfl⟩
  · have hx := exec_qcfg_image h hin hout rfl hlt hal hp hq hring hslots
    refine ⟨fun hbusy => ⟨_, hx.trans (by rw [if_pos hbusy]), rfl⟩, fun hfree => ⟨_, hx.trans (by rw [if_neg (by simp [hfree])]), ?_⟩⟩
    exact finish_modCore_completed s l c (fun k => setQ k (fld b 0 6) v) id (fun _ _ => rfl) fun _ _ => rfl
  case timeout =>
    obtain ⟨h1, h2, h3, h4, -⟩ := modCtxOf_modCore_frame s l c
      (fun k => setQ k qn { getQ k qn with waiters := (getQ k qn).waiters.filter (· != c) })
      (fun x => { writeP (makeReady x) pd false with pc := x.pc + 8 }) fun _ _ => rfl
    refine ⟨_, congrArg Host.Outcome.next (doQrdTimeout_due hst hwait hd hdue), ?_, ?_, (sp_eq_of_coreRest h3).trans rfl, h2, h4⟩
    · rw [h1, makeReady_of_not_held (by rw [hst]; decide), ← writeP_pc]
    · rw [getQ_eq_of_coreRest h3, getQ_setQ]
  case boom =>
    obtain ⟨hv, hkind⟩ := valid_of_boomReady hready
    have hsize : entBytes (getQ (getCore s l) qn.toNat) = 64 := if_neg (by rw [hkind]; decide)
    have hrest := coreRest_append (k := getCore s l) (wordBytes (boomEntry (getQ (getCore s l) qn.toNat))) hv
    have hq := getQ_eq_of_coreRest hrest qn.toNat
    have hall : (wordBytes (boomEntry (getQ (getCore s l) qn.toNat))).take 64 = wordBytes (boomEntry (getQ (getCore s l) qn.toNat)) :=
      List.take_of_length_le (by rw [length_wordBytes, length_boomEntry])
    rw [getQ_setQ] at hq
    refine ⟨_, congrArg Host.Outcome.next ((awake_awake _ _ hawake).trans (doBoomRoundRelease_ready rfl hready hroom)), ?_⟩
    obtain ⟨h1, h2, h3, h4⟩ := boomReleased_fields (getQ (getCore s l) qn.toNat) qn.toNat
      (wakeAll (withEntry (getCore s l) qn.toNat (wordBytes (boomEntry (getQ (getCore s l) qn.toNat)))) qn.toNat)
    rw [getCore_setCore]
    refine ⟨h1.trans (by rw [hq]; rfl), h2.trans (by rw [hq]; rfl), h3.trans ?_, h4.trans (by rw [un_eq_of_coreRest hrest]; rfl),
      fun l' hl => getCore_setCore_other _ _ _ _ hl⟩
    rw [sp_eq_of_coreRest hrest, hsize, hall]
    rfl

end Sys2Proof.Machine
end

section
/-! PROOFS. The bound queues of channel endpoints, and the move of a word along a channel (R279, R282, R283, R293). -/

namespace Sys2Proof.Machine

section
variable {s : State} {l : Lcid} {c : CtxNo} {b : BitVec 54} {d : Nat}

theorem notOwner_eq_true {e : LinkEnd} (h : fld e.reg 44 9 ≠ c.toNat) : notOwner e c = true := by simpa [notOwner] using h

theorem notOwner_eq_false {e : LinkEnd} (h : fld e.reg 44 9 = c.toNat) : notOwner e c = false := by simp [notOwner, h]

@[simp] theorem getLink_setLink_out_in (k : Core) (d d' : Nat) (e : LinkEnd) :
    getLink (setLink k false d e) true d' = getLink k true d' := rfl

@[simp] theorem getLink_setLink_in_out (k : Core) (d d' : Nat) (e : LinkEnd) :
    getLink (setLink k true d e) false d' = getLink k false d' := rfl

theorem setLink_ctxs (k : Core) (inb : Bool) (d : Nat) (e : LinkEnd) (xs : Tbl Ctx) :
    setLink { k with ctxs := xs } inb d e = { setLink k inb d e with ctxs := xs } := by
  cases inb <;> rfl

/-! ### QRD -/

section
variable (h : issues s l c b (onlyFields b [(46, 4), (38, 4), (35, 3), (34, 1), (31, 3), (0, 6)]) anyRoom)
  (hin : boundSide (getCore s l) true (fld b 0 6) = some d)

include h hin

theorem exec_qrd_notOwner (hown : fld (getLink (getCore s l) true d).reg 44 9 ≠ c.toNat) :
    exec (.qrd l c b) s = .next (precise (fetched s l c) l c sPERM 3 (insWord 0x1C0 b)) := by
  have hx : exec (.qrd l c b) s = .next (doQrd l c b s) := rfl
  rw [doQrd, issue_body _ _ _ _ _ _ _ _ _ h] at hx
  simpa only [boundSide_fetched, getLink_fetched, qnOf, hin, notOwner_eq_true hown, if_true] using hx

theorem exec_qrd_link (hown : fld (getLink (getCore s l) true d).reg 44 9 = c.toNat) (hw : fld b 31 3 ≤ 3)
    (hgt : (readG (ctxOf s l c) (fld b 38 4)).toNat < 2 ^ 32) :
    exec (.qrd l c b) s = .next (qrdLink (fetched s l c) l c b d (readG (ctxOf s l c) (fld b 38 4)).toNat) := by
  have hx : exec (.qrd l c b) s = .next (doQrd l c b s) := rfl
  rw [doQrd, issue_body _ _ _ _ _ _ _ _ _ h] at hx
  simpa only [boundSide_fetched, getLink_fetched, qnOf, hin, notOwner_eq_false hown, Bool.false_eq_true, if_false,
    if_neg (Nat.not_lt.2 hw), getCtx_getCore, gAt, readG_fetched, if_neg (Nat.not_le.2 hgt)] using hx

end

/-- R282, R293: a word at the head of an inbound endpoint whose deliveries are not stopped. -/
theorem qrdLink_word {gt : Nat} {n : BitVec 32} {bs : List Byte} {r : List (BitVec 32 × List Byte × Bool)}
    (hheads : linkHeads (getLink (getCore s l) true d) = (n, bs, false) :: r) (hfull : keptFull (getLink (getCore s l) true d) = false) :
    onlyCore s (qrdLink (fetched s l c) l c b d gt) l c
      (completed (ctxOf s l c) fun x => writeP (writeG x (fld b 46 4)
        (BitVec.ofNat 64 (leNat ((bs.drop (8 * fld b 31 3)).take 8)))) (fld b 35 3) true)
      (if b.getLsbD 34 then setLink (getCore s l) true d (takeWord (getLink (getCore s l) true d)) else getCore s l) := by
  simp only [qrdLink, getLink_fetched, hheads, hfull, Bool.false_eq_true, if_false, bit_eq_getLsbD, wd]
  split
  · exact finish_modCore_completed s l c (fun k => setLink k true d (takeWord (getLink (getCore s l) true d))) _
      (fun _ _ => setLink_ctxs ..) fun _ _ => writeG_writeP_slot ..
  · exact finish_completed s l c _ fun _ _ => writeG_writeP_slot ..

theorem qrdLink_broken {gt : Nat} (hheads : linkHeads (getLink (getCore s l) true d) = [])
    (hbroken : (getLink (getCore s l) true d).broken = true) :
    qrdLink (fetched s l c) l c b d gt = finishP (fetched s l c) l c b false := by
  simp only [qrdLink, getLink_fetched, hheads, hbroken, if_true]

/-! ### QPUT -/

section
variable (h : issues s l c b (onlyFields b [(42, 4), (35, 3), (0, 6)]) anyRoom)
  (hout : boundSide (getCore s l) false (fld b 0 6) = some d)

include h hout

theorem issues_qputRoom_link (hroom : ((getLink (getCore s l) false d).broken || notOwner (getLink (getCore s l) false d) c ||
      decide ((getLink (getCore s l) false d).words.length < fld (getLink (getCore s l) false d).reg 56 7)) = true) :
    issues s l c b (onlyFields b [(42, 4), (35, 3), (0, 6)]) (qputRoom b c) := by
  obtain ⟨h1, h2, h3, h4, -⟩ := h
  exact ⟨h1, h2, h3, h4, by simpa only [qputRoom, qnOf, hout] using hroom⟩

theorem exec_qput_notOwner (hown : fld (getLink (getCore s l) false d).reg 44 9 ≠ c.toNat) :
    exec (.qput l c b) s = .next (precise (fetched s l c) l c sPERM 3 (insWord 0x1C1 b)) := by
  have hx : exec (.qput l c b) s = .next (doQput l c b s) := rfl
  have hn := notOwner_eq_true hown
  rw [doQput, issue_body _ _ _ _ _ _ _ _ _ (issues_qputRoom_link h hout (by simp [hn]))] at hx
  simpa only [boundSide_fetched, getLink_fetched, qnOf, hout, hn, if_true] using hx

theorem exec_qput_link (hown : fld (getLink (getCore s l) false d).reg 44 9 = c.toNat)
    (hbroken : (getLink (getCore s l) false d).broken = false)
    (hroom : (getLink (getCore s l) false d).words.length < fld (getLink (getCore s l) false d).reg 56 7)
    {a : Nat} (ha : (readG (ctxOf s l c) (fld b 42 4)).toNat = a) (hfit : a + 32 ≤ 2 ^ 21) (hal : a % 32 = 0)
    (hp : poisonAt (getCore s l).sp a 32 = none) :
    exec (.qput l c b) s = .next (finishP (setCore (fetched s l c) l
      (putLink (getCore (fetched s l c) l) d (rdBytes (getCore s l).sp.mem a 32))) l c b true) := by
  subst ha
  have hx : exec (.qput l c b) s = .next (doQput l c b s) := rfl
  rw [doQput, issue_body _ _ _ _ _ _ _ _ _ (issues_qputRoom_link h hout (by simp [hroom]))] at hx
  have hfault := qputFault_eq_none (by decide) hfit hal hp
  simpa only [boundSide_fetched, getLink_fetched, qnOf, hout, notOwner_eq_false hown, Bool.false_eq_true, if_false,
    getCtx_getCore, gAt, readG_fetched, sp_fetched, hfault, hbroken, slRead,
    fld_low_eq (show (readG (ctxOf s l c) (fld b 42 4)).toNat < 2 ^ 21 by omega)] using hx

end

/-! ### QTEST -/

theorem exec_qtest_link (h : issues s l c b (onlyFields b [(35, 3), (0, 6)]) anyRoom) {inb : Bool}
    (hb : boundSide (getCore s l) inb (fld b 0 6) = some d) (hin : inb = false → boundSide (getCore s l) true (fld b 0 6) = none) :
    exec (.qtest l c b) s = .next (
      if notOwner (getLink (getCore s l) inb d) c then precise (fetched s l c) l c sPERM 3 (insWord 0x1C2 b)
      else finishP (fetched s l c) l c b (!(linkHeads (getLink (getCore s l) inb d)).isEmpty)) := by
  have hx : exec (.qtest l c b) s = .next (doQtest l c b s) := rfl
  rw [doQtest, issue_body _ _ _ _ _ _ _ _ _ h] at hx
  cases inb with
  | true => simpa only [boundSide_fetched, getLink_fetched, qnOf, hb] using hx
  | false => simpa only [boundSide_fetched, getLink_fetched, qnOf, hb, hin rfl, Option.map_some] using hx

end

/-! ### The link unit (R279, R293) -/

theorem getLink_wakeReader (k : Core) (d : Nat) (inb : Bool) (d' : Nat) :
    getLink (wakeReader k d) inb d' = getLink k inb d' := by
  unfold wakeReader
  dsimp only
  split
  · split
    · rw [getLink_modCtx]
    · rfl
  · rfl

section
variable {s : State} {l m : Lcid} {d : BitVec 2} {err : WordErr} {side : Nat} {path : List Lcid} {n : BitVec 32} {bs : List Byte}
  {bad : Bool} {r : List (BitVec 32 × List Byte × Bool)}

/-- The state with the head word of the outbound endpoint gone. -/
def wordSent (s : State) (l : Lcid) (d : BitVec 2) (r : List (BitVec 32 × List Byte × Bool)) : State :=
  modCore s l fun k => setLink k false d.toNat { getLink (getCore s l) false d.toNat with words := r }

/-- The core with a word at the tail of its inbound endpoint. -/
def wordTaken (side : Nat) (n : BitVec 32) (bs : List Byte) (bad : Bool) (k : Core) : Core :=
  wakeReader (setLink k true side
    { getLink k true side with words := (getLink k true side).words ++ [(n, bs, bad)], top := n + 1 }) side

theorem doChannelWordDeliver_working (hw : (getLink (getCore s l) false d.toNat).words = (n, bs, bad) :: r)
    (hend : channelEnd l (getLink (getCore s l) false d.toNat) = some (m, side, path)) (hawake : asleep s = false)
    (hev : linkValid (getLink (getCore s l) false d.toNat) = true) (heb : (getLink (getCore s l) false d.toNat).broken = false)
    (hfv : linkValid (getLink (getCore s m) true side) = true) (hfb : (getLink (getCore s m) true side).broken = false) :
    doChannelWordDeliver l d err s =
      if seenBefore n (getLink (getCore s m) true side).top then wordSent s l d r
      else if linkDepth (getLink (getCore s m) true side) ≤ (getLink (getCore s m) true side).words.length then s
      else skidReport (modCore (wordSent s l d r) m (wordTaken side n bs (bad || err == .bad))) l d.toNat err := by
  have hgo : (asleep s || !linkValid (getLink (getCore s l) false d.toNat) || (getLink (getCore s l) false d.toNat).broken ||
      !linkValid (getLink (getCore s m) true side) || (getLink (getCore s m) true side).broken) = false := by
    simp [hawake, hev, heb, hfv, hfb]
  simp only [doChannelWordDeliver, hw, hend, hgo, Bool.false_eq_true, if_false]
  rfl

theorem getLink_wordSent_in (s : State) (l : Lcid) (d : BitVec 2) (r : List (BitVec 32 × List Byte × Bool)) (m : Lcid) (side : Nat) :
    getLink (getCore (wordSent s l d r) m) true side = getLink (getCore s m) true side := by
  by_cases h : m = l
  · subst h; simp [wordSent]
  · rw [wordSent, getCore_modCore_other _ _ _ _ h]

theorem getLink_wordTaken_out (k : Core) (d' : Nat) :
    getLink (wordTaken side n bs bad k) false d' = getLink k false d' := by
  rw [wordTaken, getLink_wakeReader, getLink_setLink_in_out]

theorem skidReport_none (s : State) (l : Lcid) (d : Nat) : skidReport s l d .none = s := rfl

theorem skidReport_cores (s : State) (l : Lcid) (d : Nat) (err : WordErr) : (skidReport s l d err).cores = s.cores := by
  cases err <;> rfl

end

/-- Settles O16. -/
theorem channels : Obligations.Channels := by
  unfold Obligations.Channels
  refine ⟨fun s l c b d => ⟨?qrd, ?qput, ?qtest⟩, ?deliver, fun s l d => ⟨skidReport_none s l d, skidReport_cores s l d⟩⟩
  case qrd =>
    intro h hin
    refine ⟨fun hown => ⟨_, exec_qrd_notOwner h hin hown, rfl⟩, fun hown hw hgt => ?_⟩
    have hx := exec_qrd_link h hin hown hw hgt
    refine ⟨fun n bs r he => ⟨_, hx, ?_⟩, fun n bs r he hwd hk => ⟨_, hx, ?_⟩, fun he hwd hb => ⟨_, hx, ?_⟩⟩
    · have hq := qrdLink_word (s := s) (c := c) (b := b) (gt := (readG (ctxOf s l c) (fld b 38 4)).toNat)
        (by rw [linkHeads, he]; rfl) (by simp [keptFull, he])
      simpa only [takeWord, he] using hq
    · have hq := qrdLink_word (s := s) (c := c) (b := b) (gt := (readG (ctxOf s l c) (fld b 38 4)).toNat)
        (by rw [linkHeads, he, hwd]; rfl) (by simpa [keptFull, he] using hk)
      simpa only [takeWord, he, hwd] using hq
    · rw [qrdLink_broken (by rw [linkHeads, he, hwd]; rfl) hb]
      exact finishP_completed ..
  case qput =>
    intro hout e a h
    exact ⟨fun hown => ⟨_, exec_qput_notOwner h hout hown, rfl⟩, fun hown hb hroom hfit hal hp =>
      ⟨_, exec_qput_link h hout hown hb hroom rfl hfit hal hp, finish_modCore_completed s l c
        (fun k => putLink k d _) _ (fun _ _ => rfl) fun _ _ => writeP_slot ..⟩⟩
  case qtest =>
    intro h inb hb hin
    have hx := exec_qtest_link h hb hin
    exact ⟨fun hown => ⟨_, hx.trans (by rw [if_pos (notOwner_eq_true hown)]), rfl⟩,
      fun hown => ⟨_, hx.trans (by rw [if_neg (by simp [notOwner_eq_false hown]), linkHeads]), finishP_completed ..⟩⟩
  case deliver =>
    intro s l m d err side path n bs bad r e f hw hend hawake hev heb hfv hfb
    have hx : exec (.channelWordDeliver l ⟨d, err⟩) s = .next (doChannelWordDeliver l d err s) := rfl
    rw [doChannelWordDeliver_working hw hend hawake hev heb hfv hfb] at hx
    refine ⟨fun hseen => ⟨_, hx.trans (by rw [if_pos hseen]; rfl), rfl⟩,
      fun hseen hfull => ⟨_, hx.trans (by rw [if_neg (by simp [f, hseen]), if_pos hfull]), rfl⟩,
      fun hseen hroom => ⟨_, hx.trans (by rw [if_neg (by simp [f, hseen]), if_neg (Nat.not_le.2 hroom)]), _, rfl, ?_, ?_, ?_, ?_⟩⟩
    · by_cases hl : l = m
      · subst hl
        rw [getCore_modCore, getLink_wordTaken_out, wordSent, getCore_modCore, getLink_setLink]
      · rw [getCore_modCore_other _ _ _ _ hl, wordSent, getCore_modCore, getLink_setLink]
    · rw [getCore_modCore, wordTaken, getLink_wakeReader, getLink_setLink, getLink_wordSent_in]
    · simp [wordSent]
    · intro l' hl hm
      rw [getCore_modCore_other _ _ _ _ hm, wordSent, getCore_modCore_other _ _ _ _ hl]

end Sys2Proof.Machine
end

section
/-! PROOFS. The obligation on messages fails: a started context reads 1 in p0 (Table 06.1, R189), so its predicates are not 0. -/

namespace Sys2Proof.Machine

/-- A position with a waiting fault notice, a valid fault handler, and every context FREE. -/
def noticeWaiting : State :=
  { State.reset with
    groves := [(0, { Grove.zero with siteOf := [(0, 1)] })]
    cores := [(0, { Core.zero with notices := [(1, 0, 0)], ht := [(0, 1 <<< 63)] })] }

/-- Refutes O17: the statement asks that a started context's predicates be 0, and Table 06.1 starts it with p0 reading 1, as
FAULT_NOTICE_START of `noticeWaiting` shows. -/
theorem not_messages : ¬ Obligations.Messages := by
  unfold Obligations.Messages
  rintro ⟨-, -, hstarts⟩
  have hfree : lowestFree (getCore noticeWaiting 0) = some 0 := by decide
  obtain ⟨-, -, hnotice⟩ := hstarts noticeWaiting 0 0 (by decide) hfree (by decide) (by decide)
  obtain ⟨t, hx, ⟨-, -, hp, -⟩, -⟩ := (hnotice 1 0 0 [] rfl).1 (by decide)
  have ht : exec (.faultNoticeStart 0) noticeWaiting = .next (doFaultNoticeStart 0 noticeWaiting) := rfl
  obtain rfl : doFaultNoticeStart 0 noticeWaiting = t := Host.Outcome.next.inj (ht.symm.trans hx)
  exact absurd hp (by decide)

end Sys2Proof.Machine
end

section
/-! PROOFS. The obligation on hauls fails at a core that lists two hauls of one number. -/

namespace Sys2Proof.Machine

/-- A part of two packets, the first of one byte, from 0x800 of the own slice. -/
def shortPart (dst : Word) : Xfer :=
  { dst := dst, src := 0x800, count := 2, conf := 0, phase := 0, tag := 0, data := [], bad := [], done := false, status := sOK
    detail := 0, retried := false, lost := false, tick := 0 }

/-- A haul of number 0 with one part. -/
def shortHaul (dst : Word) : HaulOp := ⟨0, 0, 0, 0, false, 0, [shortPart dst]⟩

/-- A core whose haul queue holds two hauls of number 0, and whose slice is poisoned where the first would write its first
byte. -/
def twinHauls : State :=
  { State.reset with
    groves := [(0, { Grove.zero with siteOf := [(0, 1)] })]
    cores := [(0, { Core.zero with
      sp := { Slice.zero with bad := [15] }
      un := { Units.zero with hauls := [shortHaul 511, shortHaul 1023] } })] }

/-- Refutes O18: the packet's poison is noted in every part that the haul's number finds. The model notes the address that the
packet was for, the statement one at the destination of the part changed, and in `twinHauls` these are 511 and 1023 for the
second haul of the number. -/
theorem not_hauls : ¬ Obligations.Hauls := by
  unfold Obligations.Hauls
  rintro ⟨-, hpackets⟩
  obtain ⟨hown, -⟩ := hpackets twinHauls 0 0 0 (shortHaul 511) (shortPart 511) (by decide) (by decide) (by decide) (by decide)
    (by decide) (by decide) (by decide)
  obtain ⟨t, hx, ht⟩ := hown 0x800 511 (by decide) (by decide)
  have hrun : exec (.haulPacketInject 0 0 0) twinHauls = .next (awake (doHaulPacketInject 0 0 0) twinHauls) := rfl
  obtain rfl : awake (doHaulPacketInject 0 0 0) twinHauls = t := Host.Outcome.next.inj (hrun.symm.trans hx)
  have hdetail := congrArg (fun t => (getCore t 0).un.hauls.map fun o => o.parts.map Xfer.detail) ht
  exact absurd hdetail (by decide)

end Sys2Proof.Machine
end

section
/-! PROOFS. Requests at a slice or a range, and responses at the core that asked (R237, R248, R250, R260, R300, R357, R416). -/

namespace Sys2Proof.Machine

/-- A command of the logic, while the logic has power. -/
theorem exec_awake {i : Instr} {s t : State} {f : State → State} (hawake : asleep s = false)
    (hx : exec i s = .next (awake f s)) (h : f s = t) : exec i s = .next t := by
  rw [hx, awake_awake _ _ hawake, h]

/-! ### Requests -/

section
variable {s : State} {l : Lcid} {p : Pkt}

theorem sliceRead_refused {st : Status} (h : sliceReqFault s l p = some st) :
    sliceRead s l p = reply s (posSide s l) p { Pkt.blank with kind := 2, arg0 := statusWord st } := by
  simp only [sliceRead, h]

theorem sliceRead_served (h : sliceReqFault s l p = none) :
    let r := slFetch (getCore s l).sp (reqOff p) p.len
    sliceRead s l p = reply s (.pos l) p
      { Pkt.blank with kind := 2, data := r.1, bad := r.2, len := p.len
                       arg0 := statusWord (okOf p (if r.2.isEmpty then sOK else sPOISON)) } := by
  simp only [sliceRead, h]

theorem sliceWrite_refused {st : Status} (h : sliceReqFault s l p = some st) :
    sliceWrite s l p = reply s (posSide s l) p { Pkt.blank with kind := 3, arg0 := statusWord st } := by
  simp only [sliceWrite, h]

/-- The acknowledgement of a write that met poison first at `bad`. -/
def writeAck (p : Pkt) : Option Nat → Pkt
  | none => { Pkt.blank with kind := 3, arg0 := statusWord (okOf p sOK) }
  | some q => { Pkt.blank with kind := 3, arg0 := statusWord sPOISON, arg1 := p.addr + wd (q - reqOff p) }

theorem sliceWrite_served (h : sliceReqFault s l p = none) :
    let r := slCopy (getCore s l).sp (reqOff p) p.data p.bad
    sliceWrite s l p = reply (modCore s l fun k => { k with sp := r.1 }) (.pos l) p (writeAck p r.2) := by
  intro r
  simp only [sliceWrite, h]
  cases r.2 with
  | none => simp only [r, writeAck]
  | some q => simp only [r, writeAck]

theorem doRdReq_grove {dg : Dg} {u : State} (h : takeReq s dg 0 = some (p, l, u)) : doRdReq (.grove dg) s = sliceRead u l p := by
  simp only [doRdReq, h]

theorem doWrReq_grove {dg : Dg} {u : State} (h : takeReq s dg 1 = some (p, l, u)) : doWrReq (.grove dg) s = sliceWrite u l p := by
  simp only [doWrReq, h]

end

section
variable {s u : State} {t : BitVec 2} {p : Pkt}

theorem extReqFault_past (h : rangeSize s p.part.toNat < reqOff p + p.len) : extReqFault s p = some sBOUNDS := if_pos h

theorem extReqFault_within (h : reqOff p + p.len ≤ rangeSize s p.part.toNat) : extReqFault s p = none := if_neg (Nat.not_lt.2 h)

theorem hbmServe_read (hk : p.kind = 0) :
    hbmServe s t p = if rangeSize s p.part.toNat < reqOff p + p.len then
        reply s (.ep (epHbm t)) p { Pkt.blank with kind := 2, arg0 := statusWord sBOUNDS }
      else
        let r := hbmFetch s p.part.toNat (reqOff p) p.len
        reply s (.ep (epHbm t)) p { Pkt.blank with kind := 2, data := r.1, bad := r.2, len := p.len
                                                   arg0 := statusWord (okOf p (if r.2.isEmpty then sOK else sPOISON)) } := by
  split
  · simp only [hbmServe, hk, if_true, extReqFault_past ‹_›]
  · simp only [hbmServe, hk, if_true, extReqFault_within (Nat.not_lt.1 ‹_›)]

theorem hbmServe_write (hk : p.kind = 1) :
    hbmServe s t p = if rangeSize s p.part.toNat < reqOff p + p.len then
        reply s (.ep (epHbm t)) p { Pkt.blank with kind := 3, arg0 := statusWord sBOUNDS }
      else
        let r := hbmStore s p.part.toNat (reqOff p) p.data p.bad
        reply r.1 (.ep (epHbm t)) p (writeAck p r.2) := by
  have hk0 : ¬ p.kind = 0 := by rw [hk]; decide
  split
  · simp only [hbmServe, if_neg hk0, extReqFault_past ‹_›]
  · simp only [hbmServe, if_neg hk0, extReqFault_within (Nat.not_lt.1 ‹_›)]
    cases hr : (hbmStore s p.part.toNat (reqOff p) p.data p.bad).2 with
    | none => simp only [writeAck]
    | some q => simp only [writeAck]

section
variable (hs : hbmServes s t = true) (ht : takeLanding s (epHbm t) (fun p => p.kind == 0 || p.kind == 1) = some (p, u))

include hs ht

theorem doHbmAccess_served (ups : List Upset) :
    doHbmAccess t ups s = hbmServe (ups.foldl (fun s w => hbmUpset s t w) u) t p := by
  simp only [doHbmAccess, hs, ht, Bool.not_true, Bool.false_eq_true, if_false]

theorem hbmTake_served {kind : BitVec 4} (hk : p.kind = kind) : hbmTake s t kind = hbmServe u t p := by
  simp only [hbmTake, ht, hk, hs, and_self, if_true]

end

end

/-! ### Responses -/

section
variable {u : State} {l : Lcid} {p : Pkt} {o : NarrowOut} {st : Status}

/-- R250: what the end of a narrow access with OK leaves. -/
structure NarrowEnded (u t : State) (l : Lcid) (o : NarrowOut) (v : Word) : Prop where
  narrows : (getCore t l).un.narrows = (getCore u l).un.narrows.filter fun n => n.tag != o.tag
  ready : o.dead = false → (ctxOf u l o.ctx).st = .waiting →
    (ctxOf t l o.ctx).st = .ready ∧ (ctxOf t l o.ctx).wait = .none ∧ (ctxOf t l o.ctx).pc = (ctxOf u l o.ctx).pc + 8
  loaded : o.dead = false → o.load = true → o.gs ≠ 0 → readG (ctxOf t l o.ctx) o.gs.toNat = v

theorem st_writeG (x : Ctx) (i : Nat) (v : Word) : (writeG x i v).st = x.st ∧ (writeG x i v).pc = x.pc := by
  unfold writeG
  split <;> exact ⟨rfl, rfl⟩

theorem readG_narrowReady (x : Ctx) (i : Nat) : readG (narrowReady x) i = readG x i := by
  unfold narrowReady makeReady setSt
  split <;> rfl

theorem narrowAnswer_ok (hst : st = sOK ∨ st = sRETRIED) (n : Nat) :
    NarrowEnded u (narrowAnswer u l o st n) l o (loadValue o.size o.sext n) := by
  have hgo : (decide (st = sOK) || decide (st = sRETRIED)) = true := by simpa using hst
  cases hd : o.dead with
  | true =>
    have ht : narrowAnswer u l o st n = modCore u l fun k => dropNarrow k o.tag := by
      simp only [narrowAnswer, hd, if_true]
    rw [ht]
    exact ⟨by rw [getCore_modCore]; rfl, fun h => by simp [hd] at h, fun h => by simp [hd] at h⟩
  | false =>
    have ht : narrowAnswer u l o st n = modCtxOf (modCore u l fun k => dropNarrow k o.tag) l o.ctx fun x =>
        narrowReady (if o.load then writeG x o.gs.toNat (loadValue o.size o.sext n) else x) := by
      simp only [narrowAnswer, hd, Bool.false_eq_true, if_false]
      exact if_pos hgo
    have hctx : ctxOf (modCore u l fun k => dropNarrow k o.tag) l o.ctx = ctxOf u l o.ctx := by
      rw [← getCtx_getCore, getCore_modCore]; rfl
    rw [ht]
    refine ⟨by rw [getCore_modCtxOf, getCore_modCore]; rfl, fun _ hw => ?_, fun _ hl hg => ?_⟩
    · have hfields : (if o.load then writeG (ctxOf u l o.ctx) o.gs.toNat (loadValue o.size o.sext n) else ctxOf u l o.ctx).st = .waiting ∧
          (if o.load then writeG (ctxOf u l o.ctx) o.gs.toNat (loadValue o.size o.sext n) else ctxOf u l o.ctx).pc = (ctxOf u l o.ctx).pc := by
        split
        · exact ⟨(st_writeG ..).1.trans hw, (st_writeG ..).2⟩
        · exact ⟨hw, rfl⟩
      obtain ⟨hst', hpc⟩ := hfields
      rw [ctxOf_modCtxOf, hctx, narrowReady, makeReady_of_not_held (by rw [hst']; decide)]
      exact ⟨rfl, rfl, congrArg (· + 8) hpc⟩
    · have hg' : o.gs.toNat % 16 ≠ 0 := by
        intro h0
        have := o.gs.isLt
        exact hg (BitVec.eq_of_toNat_eq (by simp; omega))
      rw [ctxOf_modCtxOf, hctx, if_pos hl, readG_narrowReady, readG_writeG _ _ _ hg']

theorem load_of_narrowByTag {k : Core} {load : Bool} {n : Nat} (h : narrowByTag k load n = some o) : o.load = load := by
  rw [narrowByTag, firstThat_eq_find?] at h
  have := List.find?_some h
  simp only [Bool.and_eq_true, beq_iff_eq] at this
  exact this.1.1

theorem doRdRsp_grove {s : State} {dg : Dg} (h : takeAtPos s dg 2 = some (p, l, u)) : doRdRsp (.grove dg) s = readDone u l p := by
  simp only [doRdRsp, h]

theorem doWrAck_grove {s : State} {dg : Dg} (h : takeArrived s dg (fun p => p.kind == 3) = some (p, u)) (hexit : p.exit = 0) :
    doWrAck (.grove dg) s = writeDone u (lcidOf dg p.dpos.toNat) p := by
  simp only [doWrAck, h, hexit, if_true]

theorem doCompl_grove {s : State} {dg : Dg} (h : takeAtPos s dg 5 = some (p, l, u)) : doCompl (.grove dg) s = complAtCore u l p := by
  simp only [doCompl, h]

theorem readDone_narrow (h : narrowByTag (getCore u l) true p.tag = some o) :
    readDone u l p = narrowAnswer u l o (readStatus p) (leNat p.data) := by
  simp only [readDone, h]

theorem writeDone_narrow (h : narrowByTag (getCore u l) false p.tag = some o) :
    writeDone u l p = narrowAnswer u l o (pktStatus p) 0 := by
  simp only [writeDone, h]

section
variable {n i : Nat} {x : Xfer}

theorem readDone_part (hno : narrowByTag (getCore u l) true p.tag = none) (hx : partByTag (getCore u l) 1 p.tag = some (n, i, x)) :
    readDone u l p = if goes (readStatus p) then
        let x' := { x with retried := x.retried || readStatus p == sRETRIED || p.retried }
        haulData (modPart u l n i fun _ => x') l n i x' p.data (badOf p)
      else stepPart u l n i fun x => endPart x (readStatus p) := by
  simp only [readDone, hno, hx]

theorem writeDone_part (hno : narrowByTag (getCore u l) false p.tag = none) (hx : partByTag (getCore u l) 2 p.tag = some (n, i, x)) :
    writeDone u l p = stepPart u l n i fun x =>
      if goes (pktStatus p) then
        confirmPacket u (if pktStatus p = sPOISON then notePoison x (x.dst + wd (packetAt x x.conf) + (p.arg1 - p.addr))
          else { x with retried := x.retried || pktStatus p == sRETRIED || p.retried })
      else endPart x (pktStatus p) := by
  simp only [writeDone, hno, hx]

end

section
variable {m : SentMsg}

theorem complAtCore_lost (h : ∀ o, sentOf (getCore u l) p (entryWords u p) = some o → o.lost = true) :
    complAtCore u l p = if fld ((entryWords u p).headD 0) 52 4 = 3 then
      markEntry u (postQ63 u l (entryWords u p)) l 63 p.bad else u := by
  cases hm : sentOf (getCore u l) p (entryWords u p) with
  | none => simp only [complAtCore, hm]
  | some o => simp only [complAtCore, hm, h o hm, if_true]

theorem complAtCore_sent (hm : sentOf (getCore u l) p (entryWords u p) = some m) (hlost : m.lost = false) :
    complAtCore u l p =
      let ws := entryWords u p
      let v := dropSent u l m.msg.mid
      if fld (ws.headD 0) 52 4 = 3 then markEntry v (postQ63 v l ws) l 63 p.bad
      else if hdrNotify m.msg.h then
        markEntry v (postEntry v l m.cq.toNat
          (if fld (ws.headD 0) 56 8 == 0 && (m.retried || p.retried) then putFld (ws.headD 0) 56 8 1 :: ws.tail else ws)) l m.cq.toNat p.bad
      else v := by
  simp only [complAtCore, hm, hlost, Bool.false_eq_true, if_false]

end

end

theorem writeAck_eq (p : Pkt) (r : Option Nat) : writeAck p r = (match r with
    | none => { Pkt.blank with kind := 3, arg0 := statusWord (okOf p sOK) }
    | some q => { Pkt.blank with kind := 3, arg0 := statusWord sPOISON, arg1 := p.addr + BitVec.ofNat 64 (q - reqOff p) }) := by
  cases r <;> rfl

/-- Settles O19. -/
theorem requestsAndResponses : Obligations.RequestsAndResponses := by
  unfold Obligations.RequestsAndResponses
  refine ⟨⟨fun s u dg p l hawake => ⟨?read, ?write⟩, fun s u t ups p hawake hs ht => ?hbm⟩, fun s u dg p l hawake => ⟨?rdRsp, ?wrAck, ?compl, ?lost⟩⟩
  case read =>
    intro h
    have hx {t : State} (ht : sliceRead u l p = t) : exec (.rdReq (.grove dg)) s = .next t :=
      exec_awake hawake rfl ((doRdReq_grove h).trans ht)
    exact ⟨fun st hst => ⟨_, hx (sliceRead_refused hst), rfl⟩, fun hok => ⟨_, hx (sliceRead_served hok), rfl⟩⟩
  case write =>
    intro h
    have hx {t : State} (ht : sliceWrite u l p = t) : exec (.wrReq (.grove dg)) s = .next t :=
      exec_awake hawake rfl ((doWrReq_grove h).trans ht)
    exact ⟨fun st hst => ⟨_, hx (sliceWrite_refused hst), rfl⟩,
      fun hok => ⟨_, hx (sliceWrite_served hok), congrArg (reply _ _ p) (writeAck_eq ..)⟩⟩
  case hbm =>
    intro v
    have hx {z : State} (hz : hbmServe v t p = z) : exec (.hbmAccess t ups) s = .next z :=
      exec_awake hawake rfl ((doHbmAccess_served hs ht ups).trans hz)
    have hnone : exec (.hbmAccess t []) s = .next (hbmServe u t p) :=
      exec_awake hawake rfl (doHbmAccess_served hs ht [])
    refine ⟨fun hk hpast => ⟨_, hx ((hbmServe_read hk).trans (if_pos hpast)), rfl⟩,
      fun hk hin => ⟨_, hx ((hbmServe_read hk).trans (if_neg (Nat.not_lt.2 hin))), rfl⟩,
      fun hk hpast => ⟨_, hx ((hbmServe_write hk).trans (if_pos hpast)), rfl⟩,
      fun hk hin => ⟨_, hx ((hbmServe_write hk).trans (if_neg (Nat.not_lt.2 hin))), congrArg (reply _ _ p) (writeAck_eq ..)⟩,
      fun hk _ => ⟨_, exec_awake hawake rfl (hbmTake_served hs ht hk), hnone⟩,
      fun hk _ => ⟨_, exec_awake hawake rfl (hbmTake_served hs ht hk), hnone⟩⟩
  case rdRsp =>
    intro h st
    have hx {t : State} (ht : readDone u l p = t) : exec (.rdRsp (.grove dg)) s = .next t :=
      exec_awake hawake rfl ((doRdRsp_grove h).trans ht)
    refine ⟨fun o ho hst => ?_, fun id i x hno hpart => ⟨fun hstop => ?_, fun hgo => ?_⟩⟩
    · obtain ⟨hnarrows, hready, hloaded⟩ := narrowAnswer_ok (u := u) (l := l) (o := o) hst (leNat p.data)
      exact ⟨_, hx (readDone_narrow ho), ⟨hnarrows, fun hd _ hw => hready hd hw⟩, hloaded⟩
    · exact ⟨_, hx ((readDone_part hno hpart).trans (if_neg (by simpa using hstop))), rfl⟩
    · exact ⟨_, hx ((readDone_part hno hpart).trans (if_pos hgo)), rfl⟩
  case wrAck =>
    rintro h hexit rfl st
    have hx {t : State} (ht : writeDone u (lcidOf dg p.dpos.toNat) p = t) : exec (.wrAck (.grove dg)) s = .next t :=
      exec_awake hawake rfl ((doWrAck_grove h hexit).trans ht)
    refine ⟨fun o ho hst => ?_, fun id i x hno hpart => ⟨fun hstop => ?_, fun hgo hclean => ?_, fun hbad => ?_⟩⟩
    · obtain ⟨hnarrows, hready, -⟩ := narrowAnswer_ok (u := u) (l := lcidOf dg p.dpos.toNat) (o := o) hst 0
      exact ⟨_, hx (writeDone_narrow ho), hnarrows, fun hd _ hw => hready hd hw⟩
    all_goals refine ⟨_, hx (writeDone_part hno hpart), congrArg (stepPart u _ id i) (funext fun y => ?_)⟩
    · exact if_neg (by simpa using hstop)
    · rw [if_pos hgo, if_neg hclean]
    · rw [if_pos (show goes (pktStatus p) = true by rw [show pktStatus p = _ from hbad]; decide), if_pos hbad]
      rfl
  case compl =>
    intro h o ho hlost ws v
    have hx := exec_awake (i := .compl (.grove dg)) hawake rfl ((doCompl_grove h).trans (complAtCore_sent ho hlost))
    refine ⟨fun hb => ⟨_, hx.trans (by rw [if_pos hb]), rfl⟩, fun hb hn => ⟨_, hx.trans (by rw [if_neg hb, if_neg (by simp [hn])]), rfl⟩,
      fun hb hn hr hpr => ⟨_, hx.trans (by rw [if_neg hb, if_pos hn, if_neg (by simp [hr, hpr])]), rfl⟩⟩
  case lost =>
    intro h ho ws
    exact ⟨_, exec_awake hawake rfl ((doCompl_grove h).trans (complAtCore_lost ho)), rfl⟩

end Sys2Proof.Machine
end

section
/-! PROOFS. Operations that are lost, and what is sent again after a blaze notice (R264, R265, R308). -/

namespace Sys2Proof.Machine

/-! ### Lost operations -/

theorem find?_map_same {α : Type} (p : α → Bool) (f : α → α) (h : ∀ a, p (f a) = p a) (l : List α) :
    (l.map f).find? p = (l.find? p).map f := by
  rw [List.find?_map]
  congr 2
  exact funext h

theorem firstThat_map_same {α : Type} {p : α → Bool} {f : α → α} (h : ∀ a, p (f a) = p a) {l : List α} {a : α}
    (ha : firstThat p l = some a) : firstThat p (l.map f) = some (f a) := by
  rw [firstThat_eq_find?] at ha ⊢
  rw [find?_map_same p f h, ha]
  rfl

section
variable {s : State} {l : Lcid} {o : OpRef} {x : Loss}

theorem lossOf_markLost_narrow {c : CtxNo} (h : lossOf s l (.narrow c) = some x) :
    lossOf (markLost s l (.narrow c)) l (.narrow c) = some { x with lost := true } := by
  simp only [lossOf, narrowOf, Option.map_eq_some_iff] at h
  obtain ⟨n, hn, rfl⟩ := h
  have hctx : n.ctx = c := by
    rw [firstThat_eq_find?] at hn
    simpa using List.find?_some hn
  have hmap := firstThat_map_same (p := fun o : NarrowOut => o.ctx == c)
    (f := fun n => if n.ctx = c then { n with lost := true } else n) (fun a => by split <;> rfl) hn
  rw [if_pos hctx] at hmap
  simp only [lossOf, narrowOf, markLost, getCore_modCore, modUn, hmap, Option.map_some]
  rfl

theorem lossOf_markLost_sync {n : Nat} (h : lossOf s l (.sync n) = some x) :
    lossOf (markLost s l (.sync n)) l (.sync n) = some { x with lost := true } := by
  simp only [lossOf, Option.map_eq_some_iff] at h
  obtain ⟨q, hq, rfl⟩ := h
  have htag : q.tag = n := by
    rw [firstThat_eq_find?] at hq
    have := List.find?_some hq
    simp only [Bool.and_eq_true, beq_iff_eq] at this
    exact this.1
  have hmap := firstThat_map_same (p := fun (q : SyncOut) => q.tag == n && !(q.dead && q.op == opAcq))
    (f := fun q => if q.tag = n then { q with lost := true } else q) (fun a => by split <;> rfl) hq
  rw [if_pos htag] at hmap
  simp only [lossOf, markLost, getCore_modCore, modUn, hmap, Option.map_some]
  rfl

theorem lossOf_markLost_send {n : Nat} (h : lossOf s l (.send n) = some x) :
    lossOf (markLost s l (.send n)) l (.send n) = some { x with lost := true } := by
  simp only [lossOf, Option.map_eq_some_iff] at h
  obtain ⟨q, hq, rfl⟩ := h
  have hid : q.msg.mid = n := by
    rw [firstThat_eq_find?] at hq
    simpa using List.find?_some hq
  have hmap := firstThat_map_same (p := fun (q : SentMsg) => q.msg.mid == n)
    (f := fun q => if q.msg.mid = n then { q with lost := true } else q) (fun a => by split <;> rfl) hq
  rw [if_pos hid] at hmap
  simp only [lossOf, markLost, getCore_modCore, modUn, hmap, Option.map_some]
  rfl

theorem findHaul_modPart {op i : Nat} {f : Xfer → Xfer} {h : HaulOp} (hh : findHaul (getCore s l) op = some h) :
    findHaul (getCore (modPart s l op i f) l) op = some { h with parts := h.parts.modify i f } := by
  have hid : h.id = op := by
    rw [findHaul, firstThat_eq_find?] at hh
    simpa using List.find?_some hh
  have hmap := firstThat_map_same (p := fun (o : HaulOp) => o.id == op)
    (f := fun o => if o.id = op then { o with parts := o.parts.modify i f } else o) (fun a => by split <;> rfl) hh
  rw [if_pos hid] at hmap
  simp only [findHaul, modPart, getCore_modCore, modUn, hmap]

theorem lossOf_markLost_xfer {op part : Nat} (h : lossOf s l (.xfer op part) = some x) :
    lossOf (markLost s l (.xfer op part)) l (.xfer op part) = some { x with lost := true } := by
  simp only [lossOf, partOfHaul, Option.bind_eq_some_iff] at h
  obtain ⟨y, ⟨q, hq, hy⟩, hx⟩ := h
  cases hd : y.done with
  | true => simp [hd] at hx
  | false =>
    simp only [hd, Bool.false_eq_true, if_false, Option.some.injEq] at hx
    subst hx
    have hpart : (q.parts.modify part fun x => { x with lost := true })[part]? = some { y with lost := true } := by
      rw [List.getElem?_modify_eq, hy]
      rfl
    simp only [lossOf, markLost, partOfHaul, findHaul_modPart hq, Option.bind_some, hpart, hd, Bool.false_eq_true, if_false]
    rfl

/-- R264: an operation marked lost is outstanding still, and lost. -/
theorem lossOf_markLost (h : lossOf s l o = some x) : lossOf (markLost s l o) l o = some { x with lost := true } := by
  cases o with
  | narrow c => exact lossOf_markLost_narrow h
  | sync n => exact lossOf_markLost_sync h
  | xfer op part => exact lossOf_markLost_xfer h
  | send n => exact lossOf_markLost_send h

theorem doRemoteTmoExpiry_overdue (h : lossOf s l o = some x) (hfar : x.fars ≠ [])
    (hdue : x.tick + remoteTmo (getCore s l) + 1 ≤ now s) : doRemoteTmoExpiry l o s = markLost s l o := by
  simp only [doRemoteTmoExpiry, h]
  exact if_pos ⟨hfar, hdue⟩

theorem doRemoteLostComplete_lost (h : lossOf s l o = some x) (hlost : x.lost = true) (hdue : x.tick + 50001 ≤ now s) :
    doRemoteLostComplete l o s = match x.fars with
      | d :: _ => reportLost (endOp s l o sLOST) l d
      | [] => endOp s l o sLOST := by
  simp only [doRemoteLostComplete, h]
  exact if_pos ⟨hlost, hdue⟩

end

/-! ### Resends (R308) -/

section
variable {s : State} {l : Lcid} {n : Nat} {o : NarrowOut}

/-- What a core sends again that awaits one narrow access alone. -/
theorem resendCore_narrow (hparts : staleParts s n (getCore s l) = []) (hsyncs : (getCore s l).un.syncs = [])
    (hsent : (getCore s l).un.sent = []) (hnarrows : (getCore s l).un.narrows = [o]) (hlost : o.lost = false) :
    resendCore n l s = if stale s n o.tick then resendNarrow s l o else s := by
  simp only [resendCore, hparts, hsyncs, hsent, hnarrows, List.filter_cons, List.filter_nil, List.foldl_nil, hlost, Bool.not_false,
    Bool.and_true]
  split <;> rfl

theorem resendNarrow_placed {a : Addr} (hnarrows : (getCore s l).un.narrows = [o]) (ha : addrOf o.addr = some a)
    (hvac : vacantAddr s a = false) (hcut : cutOff s (dgOf l) a = false) :
    resendNarrow s l o = sendTo (modCore s l fun k => modUn k fun u => { u with narrows := [{ o with tick := now s }] }) l
      { Pkt.blank with kind := if o.load then 0 else 1, addr := placeWord (place s l (corePart s l) a), tag := o.tag, sctx := o.ctx
                       len := o.size, retried := true, data := if o.load then [] else leBytes o.size o.value.toNat }
      (place s l (corePart s l) a) := by
  have hmap : (getCore s l).un.narrows.map (fun q => if q.tag = o.tag then { q with tick := now s } else q) =
      [{ o with tick := now s }] := by rw [hnarrows]; simp
  simp only [resendNarrow, ha, hvac, hcut, Bool.or_self, Bool.false_eq_true, if_false, modCore, modUn, hmap]

end

theorem doDetourResend_due {s : State} {f : Sender} {n : Nat} (hn : s.notice = some n) (hdue : n + 101 ≤ now s)
    (hworks : senderWorks s f = true) : doDetourResend f s = match f with
      | .core l => resendCore n l s
      | .unit dg => resendUnit n dg s
      | .pcie => (below 17).foldl (fun s f => (getFn s f).cmds.foldl (resendHost n f) s) s := by
  have hgo : n + 101 ≤ now s ∧ senderWorks s f = true := ⟨hdue, hworks⟩
  simp only [doDetourResend, hn, if_pos hgo]
  cases f <;> rfl

theorem resendPart_gone {s : State} {l : Lcid} {id i : Nat} {x : Xfer}
    (h : partPlace s l ((if x.phase = 1 then x.src else x.dst) + wd (packetAt x x.conf)) = none) :
    resendPart s l id i x = stepPart s l id i fun x => endPart x sVACANT := by
  simp only [resendPart, h]

theorem resendPart_placed {s : State} {l : Lcid} {id i : Nat} {x : Xfer} {pl : Place}
    (h : partPlace s l ((if x.phase = 1 then x.src else x.dst) + wd (packetAt x x.conf)) = some pl) :
    resendPart s l id i x = sendTo (modPart s l id i fun _ => { x with retried := true, tick := now s }) l
      { (if x.phase = 1 then haulReadPkt pl { x with retried := true, tick := now s }
          else haulWritePkt pl { x with retried := true, tick := now s }) with retried := true } pl := by
  simp only [resendPart, h]

/-- Settles O20. -/
theorem lossesAndResends : Obligations.LossesAndResends := by
  unfold Obligations.LossesAndResends
  refine ⟨fun s l o x hawake h => ⟨fun hfar hdue => ?_, fun hlost hdue => ?_⟩, fun s f n hawake hn hdue hworks => ?_,
    fun s l n o a hdue => ?_, fun s l id i x => ?_⟩
  · exact ⟨_, exec_awake hawake rfl (doRemoteTmoExpiry_overdue h hfar hdue), rfl, lossOf_markLost h⟩
  · refine ⟨_, exec_awake hawake rfl (doRemoteLostComplete_lost h hlost hdue), ?_⟩
    cases x.fars <;> rfl
  · refine ⟨_, exec_awake hawake rfl (doDetourResend_due hn hdue hworks), ?_⟩
    cases f <;> rfl
  · intro k hparts hsyncs hsent hnarrows hlost
    have hcore := resendCore_narrow hparts hsyncs hsent hnarrows hlost
    refine ⟨fun hnew => hcore.trans (if_neg (by simp [stale]; omega)), fun hold ha hvac hcut => ?_⟩
    exact (hcore.trans (if_pos (by simp [stale, hold, hdue]))).trans (resendNarrow_placed hnarrows ha hvac hcut)
  · intro w at'
    refine ⟨resendPart_gone, fun pl hpl => ⟨_, ?_, ?_, ?_, fun hphase => ?_, fun hphase => ?_, resendPart_placed hpl⟩⟩
    · rfl
    · split <;> rfl
    · split <;> rfl
    · rw [if_pos hphase]; exact ⟨rfl, rfl⟩
    · rw [if_neg hphase]; exact ⟨rfl, rfl, rfl⟩

end Sys2Proof.Machine
end

section
/-! PROOFS. A packet crosses a router; multicasts and management packets at one (R297 to R310). -/

namespace Sys2Proof.Machine

/-! ### Masks of groves (R309) -/

theorem below_pairwise_lt (n : Nat) : (below n).Pairwise (· < ·) := by
  rw [below, upto_eq_range']
  exact List.pairwise_lt_range' ..

/-- The numbers of the groves of a mask that satisfy `f`. -/
def maskNums (m : Nat) (f : Dg → Bool) : List Nat := (below 256).filter fun i => m.testBit i && f (BitVec.ofNat 8 i)

theorem maskPart_eq_sum (m : Nat) (f : Dg → Bool) : maskPart m f = ((maskNums m f).map fun i => 2 ^ i).sum := by
  rw [maskPart, maskDgs, List.filter_map, List.map_map, List.filter_filter, maskNums]
  congr 1
  rw [List.filter_congr fun i _ => show ((f ∘ BitVec.ofNat 8) i && m.testBit i) = (m.testBit i && f (BitVec.ofNat 8 i)) from Bool.and_comm ..]
  refine List.map_congr_left fun i hi => ?_
  have hlt : i < 256 := (mem_below ..).1 (List.mem_of_mem_filter hi)
  simp [Nat.mod_eq_of_lt hlt]

theorem testBit_maskPart (m : Nat) (f : Dg → Bool) (d : Dg) :
    (maskPart m f).testBit d.toNat = (m.testBit d.toNat && f d) := by
  have hsorted : (maskNums m f).SortedLT := ((below_pairwise_lt 256).filter _).sortedLT
  rw [Bool.eq_iff_iff, ← Nat.mem_bitIndices, maskPart_eq_sum, Nat.bitIndices_sum_map_two_pow hsorted, maskNums, List.mem_filter,
    mem_below, BitVec.ofNat_toNat, BitVec.setWidth_eq]
  exact and_iff_right d.isLt

theorem mem_maskDgs {m : Nat} {d : Dg} : d ∈ maskDgs m ↔ m.testBit d.toNat = true := by
  rw [maskDgs, List.mem_map]
  constructor
  · rintro ⟨i, hi, rfl⟩
    obtain ⟨hlt, hb⟩ := List.mem_filter.1 hi
    rw [mem_below] at hlt
    simpa [Nat.mod_eq_of_lt hlt] using hb
  · exact fun h => ⟨d.toNat, List.mem_filter.2 ⟨(mem_below ..).2 d.isLt, h⟩, by simp⟩

theorem maskPart_eq_zero {m : Nat} {f : Dg → Bool} (h : ∀ d ∈ maskDgs m, f d = false) : maskPart m f = 0 := by
  rw [maskPart, List.filter_eq_nil_iff.2 fun d hd => by simp [h d hd]]
  rfl

/-! ### Input buffers (R301) -/

theorem enterBuf_grown (g : Grove) (q : InPkt) :
    ∃ ws, (∀ w ∈ ws, w = q) ∧ (enterBuf g q).pkts = g.pkts ++ ws ∧ (enterBuf g q).arrived = g.arrived := by
  unfold enterBuf
  split
  · exact ⟨[], by simp, (List.append_nil _).symm, rfl⟩
  · exact ⟨[q], by simp, rfl, rfl⟩

theorem foldl_enterBuf_grown (l : List InPkt) (g : Grove) :
    ∃ ws, (∀ w ∈ ws, w ∈ l) ∧ (l.foldl enterBuf g).pkts = g.pkts ++ ws ∧ (l.foldl enterBuf g).arrived = g.arrived := by
  induction l generalizing g with
  | nil => exact ⟨[], by simp, (List.append_nil _).symm, rfl⟩
  | cons q r ih =>
    obtain ⟨vs, hvs, hpkts, harr⟩ := enterBuf_grown g q
    obtain ⟨ws, hws, hpkts', harr'⟩ := ih (enterBuf g q)
    refine ⟨vs ++ ws, fun w hw => ?_, ?_, harr'.trans harr⟩
    · rcases List.mem_append.1 hw with h | h
      · exact hvs w h ▸ List.mem_cons_self
      · exact List.mem_cons_of_mem _ (hws w h)
    · rw [List.foldl_cons, hpkts', hpkts, List.append_assoc]

/-- What waited for room follows what is in the buffers; nothing else of the router changes. -/
theorem refill_grown (g : Grove) :
    ∃ ws, (∀ w ∈ ws, w ∈ g.wait) ∧ (refill g).pkts = g.pkts ++ ws ∧ (refill g).arrived = g.arrived :=
  foldl_enterBuf_grown g.wait { g with wait := [] }

theorem mem_of_mem_bufHeads {seen : List (Nat × Nat × Bool)} {l : List InPkt} {q : InPkt} (h : q ∈ bufHeads seen l) : q ∈ l := by
  induction l generalizing seen with
  | nil => exact h
  | cons p r ih =>
    simp only [bufHeads] at h
    split at h
    · exact List.mem_cons_of_mem _ (ih h)
    · rcases List.mem_cons.1 h with rfl | h
      · exact List.mem_cons_self
      · exact List.mem_cons_of_mem _ (ih h)

/-! ### Arbitration (R43, R303) -/

theorem firstThat_some {α : Type} {p : α → Bool} {l : List α} {a : α} (h : firstThat p l = some a) : a ∈ l ∧ p a = true := by
  rw [firstThat_eq_find?] at h
  exact ⟨List.mem_of_find?_eq_some h, List.find?_some h⟩

/-- R303: where a channel has a packet, one is granted, and it is one that has. -/
theorem grantVc_some (o : OutSt) {vcs : List Nat} (h : vcs ≠ []) : ∃ v, grantVc o vcs = some v ∧ v ∈ vcs := by
  unfold grantVc
  split
  next v hv =>
    have := (firstThat_some hv).2
    simp only [Bool.and_eq_true, List.contains_iff_mem] at this
    exact ⟨v, rfl, this.1⟩
  next =>
    split
    · exact ⟨3, rfl, List.contains_iff_mem.1 ‹_›⟩
    split
    · exact ⟨1, rfl, List.contains_iff_mem.1 ‹_›⟩
    split
    next hb =>
      simp only [Bool.and_eq_true, List.contains_iff_mem] at hb
      cases o.reqLast
      · exact ⟨0, rfl, hb.1⟩
      · exact ⟨2, rfl, hb.2⟩
    next => exact ⟨vcs.head h, List.head?_eq_some_head h, List.head_mem h⟩

theorem leastOf_some {α : Type} {l : List (Nat × α)} (h : l ≠ []) : ∃ p, leastOf l = some p ∧ p ∈ l := by
  induction l with
  | nil => exact absurd rfl h
  | cons p r ih =>
    cases r with
    | nil => exact ⟨p, rfl, List.mem_cons_self⟩
    | cons p' r' =>
      obtain ⟨q, hq, hmem⟩ := ih (List.cons_ne_nil _ _)
      rw [leastOf, hq]
      dsimp only
      split
      · exact ⟨q, rfl, List.mem_cons_of_mem _ hmem⟩
      · exact ⟨p, rfl, List.mem_cons_self⟩

theorem foldl_max_mem (l : List Nat) (a : Nat) : l.foldl max a = a ∨ l.foldl max a ∈ l := by
  induction l generalizing a with
  | nil => exact .inl rfl
  | cons b r ih =>
    rw [List.foldl_cons]
    rcases ih (max a b) with h | h
    · rw [h]
      rcases max_choice a b with h' | h' <;> simp [h']
    · exact .inr (List.mem_cons_of_mem _ h)

theorem exists_top {l : List InPkt} (h : l ≠ []) :
    ∃ q ∈ l, q.pkt.hops.toNat = (l.map fun q => q.pkt.hops.toNat).foldl max 0 := by
  cases l with
  | nil => exact absurd rfl h
  | cons q r =>
    rw [List.map_cons, List.foldl_cons, Nat.zero_max]
    rcases foldl_max_mem (r.map fun q => q.pkt.hops.toNat) q.pkt.hops.toNat with heq | hmem
    · exact ⟨q, List.mem_cons_self, heq.symm⟩
    · obtain ⟨w, hw, he⟩ := List.mem_map.1 hmem
      exact ⟨w, List.mem_cons_of_mem _ hw, he⟩

/-- R43: where a channel's packets wait for an output, one of them is granted. -/
theorem grantPkt_some (out last : Nat) {l : List InPkt} (h : l ≠ []) : ∃ q, grantPkt out last l = some q ∧ q ∈ l := by
  have hsub : ∀ m : List InPkt, m ≠ [] → (∀ w ∈ m, w ∈ l) →
      ∃ q, (leastOf ((m.filter fun q => q.pkt.hops.toNat == (m.map fun q => q.pkt.hops.toNat).foldl max 0).map fun q =>
        ((q.port + 22 - last) % 23, q))).map Prod.snd = some q ∧ q ∈ l := by
    intro m hm hml
    obtain ⟨w, hw, htop⟩ := exists_top hm
    have hmem : w ∈ m.filter fun q => q.pkt.hops.toNat == (m.map fun q => q.pkt.hops.toNat).foldl max 0 :=
      List.mem_filter.2 ⟨hw, by simpa using htop⟩
    obtain ⟨p, hp, hpm⟩ := leastOf_some (List.ne_nil_of_mem (List.mem_map_of_mem (f := fun q : InPkt => ((q.port + 22 - last) % 23, q)) hmem))
    obtain ⟨q, hq, rfl⟩ := List.mem_map.1 hpm
    exact ⟨q, by rw [hp]; rfl, hml q (List.mem_of_mem_filter hq)⟩
  unfold grantPkt
  extract_lets late m top
  have hm : m ≠ [] ∧ ∀ w ∈ m, w ∈ l := by
    unfold m
    split
    next => exact ⟨h, fun _ hw => hw⟩
    next hl => exact ⟨fun hnil => hl (by rw [hnil]; rfl), fun _ hw => List.mem_of_mem_filter hw⟩
  exact hsub m hm.1 hm.2

/-! ### Forwarding -/

@[simp] theorem getGrove_raise (s : State) (x : Rpt) (d : Dg) : getGrove (raise s x) d = getGrove s d := rfl

@[simp] theorem getGrove_pushLanding (s : State) (e : Nat) (p : Pkt) (d : Dg) : getGrove (pushLanding s e p) d = getGrove s d := rfl

section
variable {s : State} {x y : BitVec 4} {h : Hop} {r : Dg}

theorem vcOf_lt (kind : BitVec 4) : vcOf kind ∈ [0, 1, 2, 3] := by
  unfold vcOf
  split <;> decide

/-- R302, R303: an output that a waiting packet may take grants one of them. -/
theorem exists_grant {o : Nat} (h : candidates s r o ≠ []) :
    ∃ v q p, grantVc (tget OutSt.zero (getGrove s r).outs o)
        (([0, 1, 2, 3] : List Nat).filter fun v => (candidates s r o).any fun q => vcOf q.pkt.kind == v) = some v ∧
      grantPkt o (tget 0 (tget OutSt.zero (getGrove s r).outs o).lastIn v)
        ((candidates s r o).filter fun q => vcOf q.pkt.kind == v) = some q ∧
      q ∈ candidates s r o ∧ leaving s r o q.pkt = some p := by
  obtain ⟨w, hw⟩ := List.exists_mem_of_ne_nil _ h
  have hvcs : (([0, 1, 2, 3] : List Nat).filter fun v => (candidates s r o).any fun q => vcOf q.pkt.kind == v) ≠ [] :=
    List.ne_nil_of_mem (List.mem_filter.2 ⟨vcOf_lt w.pkt.kind, List.any_eq_true.2 ⟨w, hw, by simp⟩⟩)
  obtain ⟨v, hv, hmem⟩ := grantVc_some (tget OutSt.zero (getGrove s r).outs o) hvcs
  obtain ⟨w', hw', hvc⟩ := List.any_eq_true.1 (List.mem_filter.1 hmem).2
  obtain ⟨q, hq, hqm⟩ := grantPkt_some o (tget 0 (tget OutSt.zero (getGrove s r).outs o).lastIn v)
    (List.ne_nil_of_mem ((List.mem_filter (p := fun q : InPkt => vcOf q.pkt.kind == v)).2 ⟨hw', hvc⟩))
  have hqc := List.mem_of_mem_filter hqm
  obtain ⟨p, hp, -⟩ := Option.any_eq_true _ _ |>.1 (List.mem_filter.1 hqc).2
  exact ⟨v, q, p, hv, hq, hqc, hp⟩

/-- The router's own state after a grant: what leaves by the output is gone, what waited for room may have entered. -/
def granted (s : State) (r : Dg) (o v : Nat) (q : InPkt) (p : Pkt) : Grove :=
  let g := getGrove s r
  let cs := candidates s r o
  let mine := cs.filter fun q => vcOf q.pkt.kind == v
  refill { g with
    pkts := (without r o g.pkts q p).map fun w =>
      if w != q && mine.contains w then { w with passed := tput 0 w.passed o (tget 0 w.passed o + 1) } else w
    outs := tput OutSt.zero g.outs o (noteGrant (tget OutSt.zero g.outs o)
      (([0, 1, 2, 3] : List Nat).filter fun v => cs.any fun q => vcOf q.pkt.kind == v) v q.port) }

theorem granted_stays (s : State) (r : Dg) (o v : Nat) (q : InPkt) (p : Pkt) :
    (∃ ws : List InPkt, (∀ w ∈ ws, w ∈ (getGrove s r).wait) ∧
      (granted s r o v q p).pkts.map InPkt.pkt = (without r o (getGrove s r).pkts q p).map InPkt.pkt ++ ws.map InPkt.pkt) ∧
    (granted s r o v q p).arrived = (getGrove s r).arrived := by
  unfold granted
  extract_lets g cs mine
  obtain ⟨ws, hws, hpkts, harr⟩ := refill_grown { g with
    pkts := (without r o g.pkts q p).map fun w =>
      if w != q && mine.contains w then { w with passed := tput 0 w.passed o (tget 0 w.passed o + 1) } else w
    outs := tput OutSt.zero g.outs o (noteGrant (tget OutSt.zero g.outs o)
      (([0, 1, 2, 3] : List Nat).filter fun v => cs.any fun q => vcOf q.pkt.kind == v) v q.port) }
  refine ⟨⟨ws, hws, ?_⟩, harr⟩
  rw [hpkts, List.map_append, List.map_map]
  congr 1
  refine List.map_congr_left fun w _ => ?_
  simp only [Function.comp_apply]
  split <;> rfl

theorem doPacketForward_bad (hawake : asleep s = false) (hr : dgAt x.toNat y.toNat = r) (hout : (getGrove s r).out = false)
    {q : InPkt} (hq : badHead (getGrove s r) = some q) : doPacketForward x y h s = dropKind s r q := by
  simp only [doPacketForward, hr, hout, hawake, hq, Bool.or_self, Bool.false_eq_true, if_false]

theorem doPacketForward_granted (hawake : asleep s = false) (hr : dgAt x.toNat y.toNat = r) (hout : (getGrove s r).out = false)
    (hbad : badHead (getGrove s r) = none) (hc : candidates s r (outNo h.out) ≠ []) :
    ∃ v q p, q ∈ candidates s r (outNo h.out) ∧ leaving s r (outNo h.out) q.pkt = some p ∧
      doPacketForward x y h s = linkChecks (linkChecks
        (deliver (setGrove s r (granted s r (outNo h.out) v q p)) r (outNo h.out)
          (h.errs.foldl afterLink ((comeErrs q h).foldl afterLink p)))
        (r, q.port) (comeErrs q h)) (receiver r (outNo h.out)) h.errs := by
  obtain ⟨v, q, p, hv, hq, hqc, hp⟩ := exists_grant hc
  refine ⟨v, q, p, hqc, hp, ?_⟩
  simp only [doPacketForward, hr, hout, hawake, hbad, hv, hq, hp, Bool.or_self, Bool.false_eq_true, if_false]
  rfl

theorem linkCheck_kept (s : State) (rx : Dg × Nat) (e : LinkErr) : (linkCheck s rx e).cores = s.cores ∧ (linkCheck s rx e).hbm = s.hbm := by
  cases e <;> exact ⟨rfl, rfl⟩

theorem linkChecks_kept (s : State) (rx : Dg × Nat) (es : List LinkErr) :
    (linkChecks s rx es).cores = s.cores ∧ (linkChecks s rx es).hbm = s.hbm := by
  induction es generalizing s with
  | nil => exact ⟨rfl, rfl⟩
  | cons e r ih => exact ⟨(ih _).1.trans (linkCheck_kept s rx e).1, (ih _).2.trans (linkCheck_kept s rx e).2⟩

theorem comeErrs_nil {q : InPkt} (h0 : h.come = []) : comeErrs q h = [] := by
  rw [comeErrs, h0, ite_self]

/-! ### Deliveries -/

theorem deliver_kept (s : State) (r : Dg) (o : Nat) (p : Pkt) : (deliver s r o p).cores = s.cores ∧ (deliver s r o p).hbm = s.hbm := by
  unfold deliver
  dsimp only
  split
  · split <;> exact ⟨rfl, rfl⟩
  · split <;> exact ⟨rfl, rfl⟩

theorem deliver_mesh {o : Nat} {p : Pkt} {n : Dg} (ho : o < 4) (hn : neighbour r o = some n) :
    deliver s r o p = modGrove s n fun g => { g with pkts := g.pkts ++
      [⟨inPortOf o, [], { atWay r p with hops := BitVec.ofNat 5 (min ((atWay r p).hops.toNat + 1) 31) }⟩] } := by
  simp only [deliver, ho, hn, if_true]
  rfl

theorem deliver_landing {o : Nat} {p : Pkt} (ho : o = 20 ∨ o = 21) : deliver s r o p = pushLanding s (atWay r p).ep (atWay r p) := by
  have h4 : ¬ o < 4 := by omega
  simp only [deliver, if_neg h4, if_pos ho]

theorem deliver_own {o : Nat} {p : Pkt} (h4 : 4 ≤ o) (ho : o < 20 ∨ 21 < o) :
    deliver s r o p = modGrove s r fun g => { g with arrived := g.arrived ++ [atWay r p] } := by
  have h4' : ¬ o < 4 := by omega
  have ho' : ¬ (o = 20 ∨ o = 21) := by omega
  simp only [deliver, if_neg h4', if_neg ho']

end

/-! ### Multicasts at their router (R309, R310) -/

section
variable {s : State} {r : Dg} {q : InPkt} {p : Pkt}

/-- The groves of a multicast's mask that its router still has to send on to. -/
def mcastRest (s : State) (r : Dg) (p : Pkt) : Nat := maskPart p.mask fun d => d != r && !(mcastDead s r p).testBit d.toNat

/-- The router once a multicast is served: the rest of its mask waits, and it leaves where there is none. -/
def mcastTaken (s : State) (r : Dg) (q : InPkt) (p : Pkt) : Grove → Grove := fun g =>
  refill { g with pkts := if mcastRest s r p = 0 then (getGrove s r).pkts.erase q
    else (getGrove s r).pkts.replace q { q with pkt := { p with mask := mcastRest s r p } } }

theorem doMcastWr_here (hout : (getGrove s r).out = false) (hq : firstThat (mcastHere s r) (bufHeads [] (getGrove s r).pkts) = some q) :
    let p := atWay r q.pkt
    let u := modGrove s r (mcastTaken s r q p)
    doMcastWr r s = (maskDgs (mcastDead s r p)).foldl (fun v d => mcastAck v r d p sVACANT)
      (if p.mask.testBit r.toNat then mcastLocal u r p else u) := by
  simp only [doMcastWr, hout, hq, Bool.false_eq_true, if_false]
  rfl

theorem mem_replace_of_mem {α : Type} [DecidableEq α] {l : List α} {a b : α} (h : a ∈ l) : b ∈ l.replace a b := by
  induction l with
  | nil => exact absurd h List.not_mem_nil
  | cons c l ih =>
    by_cases hc : a = c
    · subst hc; simp
    · have hbeq : (a == c) = false := beq_false_of_ne hc
      simp only [List.replace_cons, hbeq]
      exact List.mem_cons_of_mem _ (ih ((List.mem_cons.1 h).resolve_left hc))

/-- What of a multicast's mask is neither here nor cut off waits still. -/
theorem mcastTaken_waits {d : Dg} (hq : q ∈ (getGrove s r).pkts) (hd : p.mask.testBit d.toNat = true) (hr : d ≠ r)
    (hdead : (mcastDead s r p).testBit d.toNat = false) :
    ∃ w ∈ (mcastTaken s r q p (getGrove s r)).pkts, w.pkt.mask.testBit d.toNat = true := by
  have hbit : (mcastRest s r p).testBit d.toNat = true := by
    rw [mcastRest, testBit_maskPart, hd, hdead]
    simpa using hr
  have hrest : mcastRest s r p ≠ 0 := fun h0 => by rw [h0, Nat.zero_testBit] at hbit; exact absurd hbit (by decide)
  obtain ⟨ws, -, hpkts, -⟩ := refill_grown { getGrove s r with
    pkts := (getGrove s r).pkts.replace q { q with pkt := { p with mask := mcastRest s r p } } }
  refine ⟨{ q with pkt := { p with mask := mcastRest s r p } }, ?_, hbit⟩
  rw [mcastTaken, if_neg hrest, hpkts]
  exact List.mem_append_left _ (mem_replace_of_mem hq)

theorem mcastTaken_gone (hall : ∀ d ∈ maskDgs p.mask, d = r ∨ (mcastDead s r p).testBit d.toNat = true) :
    mcastTaken s r q p (getGrove s r) = refill { getGrove s r with pkts := (getGrove s r).pkts.erase q } := by
  have hrest : mcastRest s r p = 0 := maskPart_eq_zero fun d hd => by
    rcases hall d hd with h | h
    · simp [h]
    · simp [h]
  rw [mcastTaken, if_pos hrest]

theorem mcastLocal_fabric (hok : sliceReqFault s (lcidOf r p.dpos.toNat)
      { p with addr := BitVec.ofNat 64 (fld p.addr 0 21), len := p.data.length } = none) (hfab : p.fab.isSome) :
    (getCore (mcastLocal s r p) (lcidOf r p.dpos.toNat)).sp =
      (slCopy (getCore s (lcidOf r p.dpos.toNat)).sp (fld p.addr 0 21) p.data p.bad).1 := by
  have hok' : sliceReqFault s (lcidOf r p.dpos.toNat) { p with addr := wd (fld p.addr 0 21), len := p.data.length } = none := hok
  simp only [mcastLocal, hok', mcastAck, hfab, if_true, getCore_modCore]

end

/-- Settles O21. -/
theorem meshPackets : Obligations.MeshPackets := by
  unfold Obligations.MeshPackets
  refine ⟨fun s x y h hawake => ?forward, fun s r q hawake hout hq => ?mcast, fun s r p => ?locally, fun s u dg p hawake => ⟨?grove, ?lookout⟩⟩
  case forward =>
    intro r o g hout
    have hr : dgAt x.toNat y.toNat = r := rfl
    clear_value r
    refine ⟨fun q hq => ⟨_, congrArg Host.Outcome.next (doPacketForward_bad hawake hr hout hq), ?_, ?_, rfl⟩, fun hbad hc => ?_⟩
    · rw [dropKind, getGrove_raise, getGrove_modGrove]
    · simp [dropKind, raise]
    · obtain ⟨v, q, p, hqc, hp, hx⟩ := doPacketForward_granted hawake hr hout hbad hc
      refine ⟨_, congrArg Host.Outcome.next hx, _, q, p, rfl, fun he hcome => ?_, ?_, ?_, hqc, hp, ?_⟩
      · rw [he, comeErrs_nil hcome]; rfl
      · rw [(linkChecks_kept _ _ _).1, (linkChecks_kept _ _ _).1, (deliver_kept _ _ _ _).1]; rfl
      · rw [(linkChecks_kept _ _ _).2, (linkChecks_kept _ _ _).2, (deliver_kept _ _ _ _).2]; rfl
      · intro p' stays
        obtain ⟨hstays, harr⟩ := granted_stays s r o v q p
        refine ⟨fun n ho hn hne => ?_, fun ho => ?_, fun h4 ho => ?_, fun h4 => ?_⟩
        · simp only [stays]
          rw [deliver_mesh ho hn, getGrove_modGrove_other _ _ _ _ (Ne.symm hne), getGrove_setGrove, getGrove_modGrove,
            getGrove_setGrove_other _ _ _ _ hne]
          exact ⟨hstays, rfl, rfl⟩
        · rw [deliver_landing ho, getGrove_pushLanding, getGrove_setGrove]
          exact ⟨harr, tget_tput_same ..⟩
        · rw [deliver_own h4 ho, getGrove_modGrove, getGrove_setGrove, harr]
          exact ⟨rfl, rfl⟩
        · simp only [stays]
          by_cases ho : o = 20 ∨ o = 21
          · rw [deliver_landing ho, getGrove_pushLanding, getGrove_setGrove]
            exact hstays
          · rw [deliver_own h4 (by omega), getGrove_modGrove, getGrove_setGrove]
            exact hstays
  case mcast =>
    intro p dead
    have hmem : q ∈ (getGrove s r).pkts := mem_of_mem_bufHeads (firstThat_some hq).1
    refine ⟨_, exec_awake hawake rfl (doMcastWr_here hout hq), modGrove s r (mcastTaken s r q p), rfl, rfl, fun hall => ?_,
      fun d hd hr hdead => ?_⟩
    · rw [getGrove_modGrove, mcastTaken_gone hall]
    · rw [getGrove_modGrove]
      exact mcastTaken_waits hmem (mem_maskDgs.1 hd) hr hdead
  case locally => exact fun hok hfab => mcastLocal_fabric hok hfab
  case grove => exact fun h => ⟨_, exec_awake hawake rfl (by simp only [doMgt, h]), rfl⟩
  case lookout => exact fun h => ⟨_, exec_awake hawake rfl (by simp only [doMgt, h]), rfl⟩

end Sys2Proof.Machine
end

section
/-! PROOFS. The sync instructions at issue (R208, R266). -/

namespace Sys2Proof.Machine

/-! ### Changes of a core after an instruction -/

/-- A change of a core's parts that neither reads nor writes the contexts. -/
def CtxFree (g : Core → Core) : Prop := ∀ k xs, g { k with ctxs := xs } = { g k with ctxs := xs }

section
variable {s t : State} {l : Lcid} {c : CtxNo} {x : Ctx} {k : Core} {g : Core → Core}

theorem CtxFree.getCtx_eq (hg : CtxFree g) (k : Core) (c : CtxNo) : getCtx (g k) c = getCtx k c := by
  rw [getCtx, show (g k).ctxs = k.ctxs by rw [show g k = _ from hg k k.ctxs], ← getCtx]

theorem CtxFree.rest_congr (hg : CtxFree g) {k k' : Core} (h : coreRest k = coreRest k') : coreRest (g k) = coreRest (g k') := by
  have hrest : ∀ k, coreRest (g k) = g (coreRest k) := fun k => (hg k []).symm
  rw [hrest, hrest, h]

theorem onlyCore_modCore (h : onlyCore s t l c x k) (hg : CtxFree g) : onlyCore s (modCore t l g) l c x (g k) := by
  obtain ⟨h1, h2, h3, h4, h5⟩ := h
  refine ⟨?_, fun c' hc => ?_, ?_, fun l' hl => ?_, h5⟩
  · rw [← getCtx_getCore, getCore_modCore, hg.getCtx_eq, getCtx_getCore, h1]
  · rw [← getCtx_getCore, getCore_modCore, hg.getCtx_eq, getCtx_getCore, h2 c' hc]
  · rw [getCore_modCore, hg.rest_congr h3]
  · rw [getCore_modCore_other _ _ _ _ hl, h4 l' hl]

theorem onlyCore_modCtxOf (h : onlyCore s t l c x k) (f : Ctx → Ctx) : onlyCore s (modCtxOf t l c f) l c (f x) k := by
  obtain ⟨h1, h2, h3, h4, h5⟩ := h
  refine ⟨by rw [ctxOf_modCtxOf, h1], fun c' hc => ?_, ?_, fun l' hl => ?_, h5⟩
  · rw [ctxOf_modCtxOf_other _ _ _ _ _ hc, h2 c' hc]
  · rw [getCore_modCtxOf, coreRest_modCtx, h3]
  · rw [modCtxOf, getCore_modCore_other _ _ _ _ hl, h4 l' hl]

end

theorem ctxFree_modUn (f : Units → Units) : CtxFree fun k => modUn k f := fun _ _ => rfl

/-! ### Class 10 -/

section
variable {s : State} {l : Lcid} {c : CtxNo} {b : BitVec 54} {i : Instr} {n : Nat} {code : BitVec 4} {fs : List (Nat × Nat)}

/-- The operations with a timeout: SWAIT and SACQ. -/
def timedOp (code : BitVec 4) : Bool := code == opWait || code == opAcq

/-- The timeout that a sync instruction names. -/
def syncGt (s : State) (l : Lcid) (c : CtxNo) (b : BitVec 54) (code : BitVec 4) : Word :=
  if timedOp code then readG (ctxOf s l c) (fld b 38 4) else 0

theorem doSync_checked (h : issues s l c b (onlyFields b ((46, 4) :: fs)) anyRoom) :
    doSync l c n b code fs s =
      let name := readG (ctxOf s l c) (fld b 46 4)
      if !syncNameOk name then precise (fetched s l c) l c sBOUNDS 0 name
      else if 0xFFFFFFFF < (syncGt s l c b code).toNat then precise (fetched s l c) l c sBOUNDS 0 (syncGt s l c b code)
      else if !bit name 48 && !groveWorks s (syncDg name) then precise (fetched s l c) l c sVACANT 0 name
      else startSync (fetched s l c) l c code name (readG (ctxOf s l c) (fld b 42 4)) (syncGt s l c b code) (fld b 34 4) (fld b 31 3) := by
  rw [doSync, issue_body _ _ _ _ _ _ _ _ _ h]
  simp only [gAt, readG_fetched, syncGt, timedOp]
  rfl

/-- The operation that a sync instruction issues. -/
def syncIssued (s : State) (l : Lcid) (c : CtxNo) (b : BitVec 54) (code : BitVec 4) : SyncOut :=
  { tag := (getCore s l).un.tag, ctx := c, op := code, name := readG (ctxOf s l c) (fld b 46 4)
    gv := readG (ctxOf s l c) (fld b 42 4), gd := BitVec.ofNat 4 (fld b 34 4), pd := BitVec.ofNat 3 (fld b 31 3)
    waits := timedOp code, retry := false, cancel := false, dead := false, lost := false, seq := reqSeq s l, tick := now s }

/-- The context of a sync instruction once it is issued. -/
def syncIssuer (s : State) (l : Lcid) (c : CtxNo) (b : BitVec 54) (code : BitVec 4) : Ctx :=
  let x := completed (ctxOf s l c) id
  if timedOp code || code == opRd then
    { x with st := .waiting, wait := .sync (getCore s l).un.tag, waitNo := (ctxOf s l c).waitNo + 1
             deadline := if timedOp code && syncGt s l c b code != 0 then some (now s + (syncGt s l c b code).toNat + 1) else none }
  else x

/-- The state of a sync instruction before its packet is sent. -/
def syncEntered (s : State) (l : Lcid) (c : CtxNo) (b : BitVec 54) (code : BitVec 4) : State :=
  let v := modCore (advance (fetched s l c) l c) l bumpTag
  modCore (if timedOp code || code == opRd then modCtxOf v l c fun x => makeWait x (.sync (getCore s l).un.tag)
      (if timedOp code && syncGt s l c b code != 0 then some (now s + (syncGt s l c b code).toNat + 1) else none) else v) l
    fun k => modUn k fun u => { u with syncs := u.syncs ++ [syncIssued s l c b code] }

theorem syncStop_congr {s t : State} (h : stateRest t = stateRest s) (l : Lcid) (name : Word) :
    syncStop t l name = syncStop s l name := by
  have hrest : ∀ s, syncStop s l name = syncStop (stateRest s) l name := fun _ => rfl
  rw [hrest, h, ← hrest]

theorem startSync_travels (hstop : syncStop s l (readG (ctxOf s l c) (fld b 46 4)) = none) :
    startSync (fetched s l c) l c code (readG (ctxOf s l c) (fld b 46 4)) (readG (ctxOf s l c) (fld b 42 4))
      (syncGt s l c b code) (fld b 34 4) (fld b 31 3) = sendSync (syncEntered s l c b code) l (syncIssued s l c b code) := by
  have htag : (getCore (fetched s l c) l).un.tag = (getCore s l).un.tag := by rw [un_fetched]
  unfold syncEntered timedOp
  simp only [startSync, newTag, htag]
  rw [syncStop_congr (s := s), hstop]
  · rfl
  · split <;> simp [fetched, advance, finish]

theorem syncEntered_frame (h : issues s l c b (onlyFields b ((46, 4) :: fs)) anyRoom) :
    onlyCore s (syncEntered s l c b code) l c (syncIssuer s l c b code)
      (modUn (getCore s l) fun v => { v with tag := v.tag + 1, syncs := v.syncs ++ [syncIssued s l c b code] }) := by
  have hready : (completed (ctxOf s l c) id).st ≠ .held := by
    show (ctxOf s l c).st ≠ .held
    rw [ready_of_issues h]
    decide
  have hbump : onlyCore s (modCore (advance (fetched s l c) l c) l bumpTag) l c (completed (ctxOf s l c) id) (bumpTag (getCore s l)) :=
    onlyCore_modCore (advance_completed s l c) (ctxFree_modUn _)
  unfold syncEntered syncIssuer
  refine onlyCore_modCore (k := bumpTag (getCore s l)) ?_ (ctxFree_modUn fun u => { u with syncs := u.syncs ++ [syncIssued s l c b code] })
  dsimp only
  split
  · have hwait := onlyCore_modCtxOf hbump fun x => makeWait x (.sync (getCore s l).un.tag)
      (if timedOp code && syncGt s l c b code != 0 then some (now s + (syncGt s l c b code).toNat + 1) else none)
    rw [makeWait, setSt_of_not_held hready] at hwait
    exact hwait
  · exact hbump

end

/-- What the obligation says of one sync instruction, for each of the eight. -/
theorem doSync_answers {s : State} {l : Lcid} {c : CtxNo} {b : BitVec 54} {i : Instr} {n : Nat} {fs : List (Nat × Nat)}
    (code : BitVec 4) (hx : exec i s = .next (doSync l c n b code fs s))
    (h : issues s l c b (onlyFields b ((46, 4) :: fs)) anyRoom) :
    let name := readG (ctxOf s l c) (fld b 46 4)
    let gt := syncGt s l c b code
    (syncNameOk name = false → answers i s fun t => t = precise (fetched s l c) l c sBOUNDS 0 name) ∧
    (syncNameOk name = true → 0xFFFFFFFF < gt.toNat → answers i s fun t => t = precise (fetched s l c) l c sBOUNDS 0 gt) ∧
    (syncNameOk name = true → gt.toNat ≤ 0xFFFFFFFF →
      (name.getLsbD 48 = false → groveWorks s (syncDg name) = false →
        answers i s fun t => t = precise (fetched s l c) l c sVACANT 0 name) ∧
      (name.getLsbD 48 = true ∨ groveWorks s (syncDg name) = true → syncStop s l name = none → answers i s fun t => ∃ u o,
        t = sendSync u l o ∧ o.tag = (getCore s l).un.tag ∧ o.ctx = c ∧ o.op = code ∧ o.name = name ∧
        o.gv = readG (ctxOf s l c) (fld b 42 4) ∧ onlyCore s u l c (syncIssuer s l c b code)
          (modUn (getCore s l) fun v => { v with tag := v.tag + 1, syncs := v.syncs ++ [o] }))) := by
  intro name gt
  rw [doSync_checked h] at hx
  dsimp only at hx
  refine ⟨fun hbad => ⟨_, hx.trans (by rw [if_pos]; rw [hbad]; rfl), rfl⟩, fun hok hlong => ?_, fun hok hgt => ⟨fun hhere hvac => ?_, fun hgo hstop => ?_⟩⟩
  all_goals rw [if_neg (show ¬ (!syncNameOk (readG (ctxOf s l c) (fld b 46 4))) = true by rw [hok]; decide)] at hx
  · exact ⟨_, hx.trans (by rw [if_pos hlong]), rfl⟩
  all_goals rw [if_neg (Nat.not_lt.2 hgt)] at hx
  · rw [if_pos (by rw [bit_eq_getLsbD, hhere, hvac]; rfl)] at hx
    exact ⟨_, hx, rfl⟩
  · have hpass : ¬ (!bit name 48 && !groveWorks s (syncDg name)) = true := by
      rw [bit_eq_getLsbD]
      rcases hgo with h | h <;> simp [h]
    rw [if_neg hpass, startSync_travels hstop] at hx
    exact ⟨_, hx, _, _, rfl, rfl, rfl, rfl, rfl, rfl, syncEntered_frame h⟩

/-- Settles O22. -/
theorem syncInstructions : Obligations.SyncInstructions := by
  unfold Obligations.SyncInstructions
  intro s l c b k x name S
  exact ⟨fun h => doSync_answers opAdd rfl h, fun h => doSync_answers opArrive rfl h, fun h => doSync_answers opSet rfl h,
    fun h => doSync_answers opClr rfl h, fun h => doSync_answers opWait rfl h, fun h => doSync_answers opAcq rfl h,
    fun h => doSync_answers opRel rfl h, fun h => doSync_answers opRd rfl h⟩

end Sys2Proof.Machine
end

section
/-! PROOFS. A sync operation at its object, and its answer at the core (R267, R268, R565, Table 09.6). -/

namespace Sys2Proof.Machine

/-! ### Objects -/

@[simp] theorem getObj_setObj (g : Grove) (ix : Nat) (o : SyncObj) : getObj (setObj g ix o) ix = o := tget_tput_same ..

@[simp] theorem setObj_waiters (g : Grove) (ix : Nat) (o : SyncObj) : (setObj g ix o).waiters = g.waiters := rfl

theorem notifyEvent_groves (s : State) (dg : Dg) (ix : Nat) : (notifyEvent s dg ix).groves = s.groves :=
  foldl_keeps State.groves (fun s f => foldl_keeps State.groves (fun s v => by dsimp only; split <;> simp) (below 28) s) (below 17) s

theorem getGrove_notifyEvent (s : State) (dg : Dg) (ix : Nat) (d : Dg) : getGrove (notifyEvent s dg ix) d = getGrove s d := by
  rw [getGrove, notifyEvent_groves, ← getGrove]

/-- Table 09.6: the values that the operations without a wait leave. -/
theorem syncApply_unwaited {o : SyncObj} {op : BitVec 4} {gv : Word} (h : op = 6 ∨ op.toNat < 4) :
    syncApply o op gv = if op = 0 ∨ op = 6 then o.val + gv else if op = 2 then 1 else if op = 3 then 0
      else if fld o.val 0 32 + 1 = objParam o then BitVec.ofNat 64 ((fld o.val 32 32 + 1) % 2 ^ 32 * 2 ^ 32)
      else BitVec.ofNat 64 (fld o.val 32 32 * 2 ^ 32 + (fld o.val 0 32 + 1) % 2 ^ 32) := by
  have hcases : ∀ op : BitVec 4, op = 6 ∨ op.toNat < 4 → op = 0 ∨ op = 1 ∨ op = 2 ∨ op = 3 ∨ op = 6 := by decide
  rcases hcases op h with rfl | rfl | rfl | rfl | rfl
  · rw [if_pos (by decide)]; rfl
  · rw [if_neg (by decide), if_neg (by decide), if_neg (by decide)]; rfl
  · rw [if_neg (by decide), if_pos (by decide)]; rfl
  · rw [if_neg (by decide), if_neg (by decide), if_pos (by decide)]; rfl
  · rw [if_pos (by decide)]; rfl

section
variable {v : State} {dg : Dg} {ix : Nat} {op : BitVec 4} {gv feeder : Word} {p : Pkt}

/-- An operation applied: the object's value is the one that Table 09.6 gives, its configuration and the waiters stay, and its
waiters are served then. -/
theorem syncTake_served : ∃ w, syncTake v dg ix op gv feeder = serveWaiters w dg ix ∧
    (getObj (getGrove w dg) ix).cfg = (getObj (getGrove v dg) ix).cfg ∧ (getGrove w dg).waiters = (getGrove v dg).waiters ∧
    (getObj (getGrove w dg) ix).val = syncApply (getObj (getGrove v dg) ix) op gv := by
  refine ⟨_, rfl, ?_⟩
  have hg : getGrove (if op == opSet && (getObj (getGrove v dg) ix).val == 0 then notifyEvent v dg ix else v) dg = getGrove v dg := by
    split
    · exact getGrove_notifyEvent ..
    · rfl
  rw [getGrove_modGrove, hg, getObj_setObj]
  exact ⟨rfl, rfl, rfl⟩

theorem syncAt_fault {st : Status} (hop : (BitVec.ofNat 4 p.addr.toNat : BitVec 4) = op) (hfwd : op ≠ opForward)
    (h : syncCheck (getObj (getGrove v dg) (syncIx p.arg0)) p.part op p.arg1 = some st) : syncAt v dg p = syncAnswer v dg p st 0 0 := by
  simp only [syncAt, hop, h, hfwd, if_false]

section
variable (hop : (BitVec.ofNat 4 p.addr.toNat : BitVec 4) = op)
  (hok : syncCheck (getObj (getGrove v dg) (syncIx p.arg0)) p.part op p.arg1 = none)

include hop hok

theorem syncAt_read (h : op = opRd) : syncAt v dg p = syncAnswer v dg p sOK 0 (getObj (getGrove v dg) (syncIx p.arg0)).val := by
  subst h
  simp only [syncAt, hop, hok, if_true]

theorem syncAt_wait (h : op = opWait ∨ op = opAcq) : syncAt v dg p = syncWaitOp v dg (syncIx p.arg0) op p := by
  have hrd : op ≠ opRd := by rcases h with rfl | rfl <;> decide
  simp only [syncAt, hop, hok, if_neg hrd, if_pos h]

theorem syncAt_applied (hrd : op ≠ opRd) (hwait : ¬ (op = opWait ∨ op = opAcq)) (hfwd : op ≠ opForward)
    (hred : redOf v dg (syncIx p.arg0) = none) :
    syncAt v dg p = syncAnswer (syncTake v dg (syncIx p.arg0) op p.arg1 (feederOf v p)) dg p sOK 0 0 := by
  simp only [syncAt, hop, hok, if_neg hrd, if_neg hwait, hred, Option.isSome_none, Bool.false_eq_true, and_false, if_false, if_neg hfwd]

end

/-- R268: an SACQ that waits behind another. -/
def acqBehind (g : Grove) (ix : Nat) (op : BitVec 4) : Bool := op == opAcq && g.waiters.any fun w => w.obj == ix && w.op == opAcq

theorem syncWaitOp_holds (hc : condHolds (getObj (getGrove v dg) ix) op p.arg1 = true) (hb : acqBehind (getGrove v dg) ix op = false) :
    syncWaitOp v dg ix op p = syncAnswer (if op = opAcq then syncTake v dg ix op p.arg1 (feederOf v p) else v) dg p sOK 0
      (getObj (getGrove v dg) ix).val := by
  have hgo : (condHolds (getObj (getGrove v dg) ix) op p.arg1 && !acqBehind (getGrove v dg) ix op) = true := by rw [hc, hb]; rfl
  exact if_pos hgo

theorem syncWaitOp_waits (h : condHolds (getObj (getGrove v dg) ix) op p.arg1 = false ∨ acqBehind (getGrove v dg) ix op = true) :
    syncWaitOp v dg ix op p = if 4096 ≤ (getGrove v dg).waiters.length then syncAnswer v dg p sOK 2 0
      else modGrove v dg fun g => { g with waiters := g.waiters ++ [⟨ix, op, p.arg1, p⟩] } := by
  have hgo : ¬ (condHolds (getObj (getGrove v dg) ix) op p.arg1 && !acqBehind (getGrove v dg) ix op) = true := by
    rcases h with h | h <;> simp [h]
  exact if_neg hgo

theorem doSyncOp_taken {s u : State} (ht : takeArrived s dg (syncTakeable s false) = some (p, u))
    (hnew : takenBefore (getGrove u dg) p = false) (hworks : groveWorks (modGrove u dg fun g => noteTaken g p) dg = true)
    (hdg : syncDg p.arg0 = dg) (hred : redOf (modGrove u dg fun g => noteTaken g p) dg (syncIx p.arg0) = none) :
    doSyncOp dg s = syncAt (modGrove u dg fun g => noteTaken g p) dg p := by
  simp only [doSyncOp, ht, hnew, Bool.false_eq_true, if_false, syncOpAt, hworks, Bool.not_true, hdg, hred]

end

/-! ### Answers at the core -/

section
variable {u : State} {l : Lcid} {p : Pkt} {o : SyncOut}

theorem ctxOf_dropSync (c : CtxNo) (n : Nat) : ctxOf (dropSync u l n) l c = ctxOf u l c := by
  rw [dropSync, ← getCtx_getCore, getCore_modCore]
  rfl

theorem syncs_dropSync (n : Nat) : (getCore (dropSync u l n) l).un.syncs = (getCore u l).un.syncs.filter fun q => q.tag != n := by
  rw [dropSync, getCore_modCore]
  rfl

theorem syncs_syncReady (s : State) (f : Ctx → Ctx) : (getCore (syncReady s l o f) l).un.syncs = (getCore s l).un.syncs := by
  rw [syncReady, getCore_modCtxOf]
  rfl

theorem ctxOf_syncReady {s : State} {f : Ctx → Ctx} (hwait : (ctxOf s l o.ctx).wait = .sync o.tag) :
    ctxOf (syncReady s l o f) l o.ctx = f (makeReady (ctxOf s l o.ctx)) := by
  simp only [syncReady, ctxOf_modCtxOf, hwait, if_true]

theorem doSyncAns_grove {s : State} {dg : Dg} (h : takeArrived s dg (fun p => p.kind == 7) = some (p, u)) (hexit : p.exit = 0) :
    doSyncAns (.grove dg) s = syncAnswered u (lcidOf dg p.dpos.toNat) p := by
  simp only [doSyncAns, h, hexit, if_true]

theorem syncDone_ok {st : Status} {w : Word} (hst : st = sOK ∨ st = sRETRIED) : syncDone u l o st w =
    if o.op = opRd then syncReady u l o fun x => writeG x o.gd.toNat w
    else if o.waits then syncReady u l o fun x => writeP x o.pd.toNat true
    else u := by
  have hok : (st == sOK || st == sRETRIED) = true := by simpa using hst
  simp only [syncDone, hok, if_true]

theorem syncDone_failed {st : Status} {w : Word} (h1 : st ≠ sOK) (h2 : st ≠ sRETRIED) (hop : o.op ≠ opRd) (hw : o.waits = false) :
    syncDone u l o st w = syncFailed u l st o.name := by
  have hok : (st == sOK || st == sRETRIED) = false := by simp [h1, h2]
  simp only [syncDone, hok, if_neg hop, hw, Bool.false_eq_true, if_false]

section
variable (ho : syncByTag (getCore u l) p.tag = some o)

include ho

theorem syncAnswered_lost (hlost : o.lost = true) (hdead : o.dead = false) :
    let v := modCore u l fun k => modUn k fun w => { w with syncs := w.syncs.map fun q => if q.tag = o.tag then { q with retry := true } else q }
    syncAnswered u l p = if o.op = opAcq ∧ fld p.arg0 0 2 = 0 ∧ (pktStatus p = sOK ∨ pktStatus p = sRETRIED) then returnUnits v l o else v := by
  simp only [syncAnswered, ho, hlost, hdead, Bool.not_false, Bool.and_self, if_true]

theorem syncAnswered_live (hlost : o.lost = false) (hdead : o.dead = false) (hcode : fld p.arg0 0 2 ≠ 2) :
    syncAnswered u l p = if fld p.arg0 0 2 = 1 then syncTimedOut (dropSync u l o.tag) l o
      else syncDone (dropSync u l o.tag) l o (pktStatus p) p.arg1 := by
  simp only [syncAnswered, ho, hlost, hdead, Bool.not_false, Bool.false_and, Bool.false_eq_true, if_false, if_neg hcode]

end

/-! ### Waits (R268) -/

theorem doSyncWaitTimeout_due {s : State} {c : CtxNo} {n d : Nat} (hst : (ctxOf s l c).st = .waiting) (hwait : (ctxOf s l c).wait = .sync n)
    (hd : (ctxOf s l c).deadline = some d) (hdue : d ≤ now s) (ho : firstThat (fun o => o.tag == n) (getCore s l).un.syncs = some o) :
    doSyncWaitTimeout l c s =
      if o.lost then s
      else if o.retry then syncTimedOut (dropSync s l n) l o
      else sendCancel (modCore (modCtxOf s l c fun x => { x with deadline := none }) l fun k => modUn k fun u =>
        { u with syncs := u.syncs.map fun q => if q.tag = n then { q with cancel := true } else q }) l o := by
  have heff : effSt (ctxOf s l c) = .waiting := by simp [effSt, hst]
  have hgo : d ≤ now s ∧ effSt (ctxOf s l c) = .waiting := ⟨hdue, heff⟩
  simp only [doSyncWaitTimeout, hwait, hd, if_pos hgo, ho]

theorem doSyncRepresent_presents {s : State} {c : CtxNo}
    (ho : firstThat (fun o => o.ctx == c && o.retry && !o.dead && !o.lost && decide (o.tick < now s)) (getCore s l).un.syncs = some o)
    (hstop : syncStop s l o.name = none) :
    let o' := { o with retry := false, seq := reqSeq s l, tick := now s }
    doSyncRepresent l c s = sendSync (modCore s l fun k => modUn k fun u =>
      { u with syncs := u.syncs.map fun q => if q.tag = o.tag then o' else q }) l o' := by
  simp only [doSyncRepresent, ho, hstop]

end

/-! ### Cancels -/

/-- The waiter that a cancel names. -/
def sameIssuer (p : Pkt) (w : Waiter) : Bool :=
  w.pkt.tag == p.tag && match w.pkt.fab, p.fab with
    | some a, some b => a.srcDid == b.srcDid && a.srcLcid == b.srcLcid
    | none, none => w.pkt.src == p.src && w.pkt.spos == p.spos
    | _, _ => false

theorem cancelAt_eq (s : State) (dg : Dg) (p : Pkt) :
    cancelAt s dg p = if (getGrove s dg).waiters.any (sameIssuer p) then
      serveWaiters (syncAnswer (modGrove s dg fun g => { g with waiters := g.waiters.filter fun w => !sameIssuer p w }) dg p sOK 1 0)
        dg (syncIx p.arg0)
    else s := rfl

theorem doSyncCancel_taken {s u : State} {dg : Dg} {p : Pkt} (ht : takeArrived s dg (syncTakeable s true) = some (p, u))
    (hnew : takenBefore (getGrove u dg) p = false) : doSyncCancel dg s = cancelAt (modGrove u dg fun g => noteTaken g p) dg p := by
  simp only [doSyncCancel, ht, hnew, Bool.false_eq_true, if_false]

theorem noteTaken_waiters (g : Grove) (p : Pkt) : (noteTaken g p).waiters = g.waiters := rfl

/-- Settles O23. -/
theorem syncOperationsAnswered : Obligations.SyncOperationsAnswered := by
  unfold Obligations.SyncOperationsAnswered
  refine ⟨fun s u dg p op hawake ht hnew => ?object, fun s u dg p o hawake ht hexit => ?waiting, fun s u dg p o hawake ht hexit => ?going,
    fun s u dg p o hawake ht hexit => ?lost, fun s l c o hawake ho hstop => ?represent,
    fun s l c n d o hst hwait hd hdue ho => ?timeout, fun s u dg p hawake ht hnew => ?cancel⟩
  case object =>
    intro v ix o hworks hdg hred haddr hlt A
    have hop : (BitVec.ofNat 4 p.addr.toNat : BitVec 4) = op := by
      rw [haddr]
      apply BitVec.eq_of_toNat_eq
      simp
      omega
    have hfwd : op ≠ opForward := by rintro rfl; exact absurd hlt (by decide)
    have hx {t : State} (h : syncAt v dg p = t) : exec (.syncOp dg) s = .next t :=
      exec_awake hawake rfl ((doSyncOp_taken ht hnew hworks hdg hred).trans h)
    refine ⟨fun st hst => ⟨_, hx (syncAt_fault hop hfwd hst), rfl⟩, fun hok => ⟨fun h => ⟨_, hx (syncAt_read hop hok h), rfl⟩,
      fun h hc => ?_, fun h hc hroom => ?_, fun h hc hfull => ?_, fun h => ⟨fun hc hb => ?_, fun hc hroom => ?_⟩, fun h => ?_⟩⟩
    · subst h
      exact ⟨_, hx ((syncAt_wait hop hok (.inl rfl)).trans (syncWaitOp_holds hc rfl)), rfl⟩
    · have hw := (syncAt_wait hop hok (.inl h)).trans (syncWaitOp_waits (.inl hc))
      exact ⟨_, hx (hw.trans (if_neg (Nat.not_le.2 hroom))), rfl⟩
    · have hw := (syncAt_wait hop hok h).trans (syncWaitOp_waits (.inl hc))
      exact ⟨_, hx (hw.trans (if_pos hfull)), rfl⟩
    · subst h
      obtain ⟨w, hserve, -, -, hval⟩ := syncTake_served (v := v) (dg := dg) (ix := ix) (op := opAcq) (gv := p.arg1) (feeder := feederOf v p)
      refine ⟨_, hx ((syncAt_wait hop hok (.inr rfl)).trans (syncWaitOp_holds hc hb)), w, ?_, hval⟩
      rw [← hserve]
      rfl
    · subst h
      have hb : condHolds o opAcq p.arg1 = false ∨ acqBehind (getGrove v dg) ix opAcq = true := hc
      have hw := (syncAt_wait hop hok (.inr rfl)).trans (syncWaitOp_waits hb)
      refine ⟨_, hx (hw.trans (if_neg (Nat.not_le.2 hroom))), ?_, ?_⟩ <;> rw [getGrove_modGrove]
      rfl
    · have hrd : op ≠ opRd := by rintro rfl; rcases h with h | h <;> exact absurd h (by decide)
      have hwait : ¬ (op = opWait ∨ op = opAcq) := by rintro (rfl | rfl) <;> rcases h with h | h <;> exact absurd h (by decide)
      obtain ⟨w, hserve, hcfg, hwaiters, hval⟩ := syncTake_served (v := v) (dg := dg) (ix := ix) (op := op) (gv := p.arg1)
        (feeder := feederOf v p)
      refine ⟨_, hx (syncAt_applied hop hok hrd hwait hfwd hred), w, by rw [← hserve], hcfg, hwaiters, hval.trans (syncApply_unwaited h)⟩
  case waiting =>
    intro l x code R ho hlost hdead hst hwait go fine
    have hgo : makeReady (ctxOf (dropSync u l o.tag) l o.ctx) = go := by
      rw [ctxOf_dropSync, makeReady_of_not_held (by rw [hst]; decide)]
    have hwait' : (ctxOf (dropSync u l o.tag) l o.ctx).wait = .sync o.tag := by rw [ctxOf_dropSync]; exact hwait
    have hready {f : Ctx → Ctx} (h : syncAnswered u l p = syncReady (dropSync u l o.tag) l o f) : R fun y => y = f go := by
      refine ⟨_, exec_awake hawake rfl ((doSyncAns_grove ht hexit).trans h), ?_, ?_⟩
      · rw [syncs_syncReady, syncs_dropSync]
      · rw [ctxOf_syncReady hwait', hgo]
    have hdone (hcode : code = 0) := syncAnswered_live ho hlost hdead (show fld p.arg0 0 2 ≠ 2 by rw [show fld p.arg0 0 2 = 0 from hcode]; decide)
    refine ⟨fun hcode hfine hop hw => hready (f := fun y => writeP y o.pd.toNat true) ?_,
      fun hcode hfine hop => hready (f := fun y => writeG y o.gd.toNat p.arg1) ?_, fun hcode =>
      hready (f := fun y => writeP y o.pd.toNat false) ?_⟩
    · have hrd : o.op ≠ opRd := by intro h; rw [h] at hop; exact absurd hop (by decide)
      rw [hdone hcode, if_neg (by rw [show fld p.arg0 0 2 = 0 from hcode]; decide), syncDone_ok hfine, if_neg hrd, if_pos hw]
    · rw [hdone hcode, if_neg (by rw [show fld p.arg0 0 2 = 0 from hcode]; decide), syncDone_ok hfine,
        if_pos (show o.op = opRd from hop)]
    · rw [syncAnswered_live ho hlost hdead (by rw [show fld p.arg0 0 2 = 1 from hcode]; decide), if_pos hcode]
      rfl
  case going =>
    intro l ho hlost hdead hw hop hcode
    have hx := exec_awake (i := .syncAns (.grove dg)) hawake rfl ((doSyncAns_grove ht hexit).trans
      (syncAnswered_live ho hlost hdead (by rw [hcode]; decide)))
    rw [if_neg (by rw [hcode]; decide)] at hx
    refine ⟨fun hfine => ⟨_, hx, ?_⟩, fun h1 h2 => ⟨_, hx, syncDone_failed h1 h2 hop hw⟩⟩
    rw [syncDone_ok hfine, if_neg (show ¬ o.op = opRd from hop), hw, if_neg Bool.false_ne_true]
  case lost =>
    intro l ho hlost hdead v
    exact ⟨_, exec_awake hawake rfl ((doSyncAns_grove ht hexit).trans (syncAnswered_lost ho hlost hdead)), rfl⟩
  case represent => exact ⟨_, exec_awake hawake rfl (doSyncRepresent_presents ho hstop), rfl⟩
  case timeout =>
    have hx : exec (.syncWaitTimeout l c) s = .next (doSyncWaitTimeout l c s) := rfl
    rw [doSyncWaitTimeout_due hst hwait hd hdue ho] at hx
    refine ⟨fun hlost => ⟨_, hx.trans (by rw [if_pos hlost]), rfl⟩, fun hlost hretry => ?_, fun hlost hretry => ?_⟩
    all_goals rw [hlost, if_neg Bool.false_ne_true] at hx
    · exact ⟨_, hx.trans (by rw [if_pos hretry]), rfl⟩
    · refine ⟨_, hx.trans (by rw [hretry, if_neg Bool.false_ne_true]), _, rfl, ?_, ?_⟩
      · rw [← getCtx_getCore, getCore_modCore]
        exact ctxOf_modCtxOf ..
      · rw [getCore_modCore, getCore_modCtxOf]
        rfl
  case cancel =>
    intro same
    have hsame : same = sameIssuer p := rfl
    clear_value same
    subst hsame
    have hx := exec_awake (i := .syncCancel dg) hawake rfl (doSyncCancel_taken ht hnew)
    rw [cancelAt_eq, getGrove_modGrove, noteTaken_waiters] at hx
    refine ⟨fun hany => ⟨_, hx.trans (by rw [if_pos hany]), _, rfl, ?_⟩, fun hany => ⟨_, hx.trans (by rw [if_neg]; simpa using hany), rfl⟩⟩
    rw [getGrove_modGrove, getGrove_modGrove]
    rfl

end Sys2Proof.Machine
end

section
/-! PROOFS. END, PARK, SLEEP, SRSEED, WAKE, RESUME, CFREE and the timers (R65, R180, R185, R209). -/

namespace Sys2Proof.Machine

/-! ### What freeing a context leaves (R185) -/

theorem getCtx_clearRecord (k : Core) (c c' : CtxNo) : getCtx (clearRecord k c) c' = getCtx k c' := by
  unfold clearRecord
  split <;> rfl

/-- R172: a context that gives up the slot or round that started it is otherwise as before. -/
theorem dropSource_ctx (k : Core) (c : CtxNo) : ∃ v, getCtx (dropSource k c) c = { getCtx k c with src := v } := by
  unfold dropSource
  split
  · exact ⟨_, rfl⟩
  · exact ⟨_, getCtx_modCtx ..⟩
  · exact ⟨_, getCtx_modCtx ..⟩

theorem getCtx_dropSource_other (k : Core) {c c' : CtxNo} (h : c' ≠ c) : getCtx (dropSource k c) c' = getCtx k c' := by
  unfold dropSource
  split
  · rfl
  · exact getCtx_modCtx_other _ _ _ _ h
  · exact getCtx_modCtx_other _ _ _ _ h

section
variable (s : State) (l : Lcid) (c : CtxNo)

/-- The context is FREE; the other contexts, and the other cores, are as before. -/
def FreedOnly (t : State) : Prop :=
  (ctxOf t l c).st = .free ∧ (∀ c', c' ≠ c → ctxOf t l c' = ctxOf s l c') ∧ ∀ l', l' ≠ l → getCore t l' = getCore s l'

theorem ring_ctx (k : Core) (r : RingRegs) (c : CtxNo) : getCtx { k with ring := r } c = getCtx k c := rfl

theorem toFree_freedOnly : FreedOnly s l c (toFree s l c) := by
  have hunits := onlyUnits_abandonWait s l c
  unfold toFree
  refine ⟨?_, fun c' hc => ?_, fun l' hl => (getCore_modCore_other _ _ _ _ hl).trans (hunits.2 l' hl)⟩
  · rw [ctxOf_modCore, getCtx_modCtx]
    split <;> rfl
  · rw [ctxOf_modCore, getCtx_modCtx_other _ _ _ _ hc]
    rw [ring_ctx, dropAllHeld, getCtx_modUn, getCtx_dropSource_other _ hc, getCtx_modEng, getCtx_clearRecord]
    exact hunits.ctxOf c'

end

/-- The queues of a core that hold what its contexts have outstanding. -/
def outstandingOps (k : Core) : List MillOp × List VeOp × List BrandOp × List HaulOp × List SendOp :=
  (k.eng.millq, k.eng.veq, k.eng.brandq, k.un.hauls, k.un.msgq)

theorem busyCtx_congr {k k' : Core} (h : outstandingOps k' = outstandingOps k) (c : CtxNo) : busyCtx k' c = busyCtx k c := by
  simp only [outstandingOps, Prod.mk.injEq] at h
  obtain ⟨hm, hv, hb, hh, hs⟩ := h
  simp only [busyCtx, millPend, vePend, haulPend, sendPend, hm, hv, hb, hh, hs]

theorem outstandingOps_dropClaims (k : Core) (c : CtxNo) : outstandingOps (modEng k fun e => dropClaims e c) = outstandingOps k := by
  have h : ∀ e, ((dropClaims e c).millq, (dropClaims e c).veq, (dropClaims e c).brandq) = (e.millq, e.veq, e.brandq) := fun e =>
    foldl_keeps (fun e : Engines => (e.millq, e.veq, e.brandq)) (fun e i => by dsimp only; split <;> split <;> rfl) (below 8) e
  have hk := h k.eng
  simp only [Prod.mk.injEq] at hk
  obtain ⟨hm, hv, hb⟩ := hk
  simp only [outstandingOps, modEng, hm, hv, hb]

theorem outstandingOps_dropSource (k : Core) (c : CtxNo) : outstandingOps (dropSource k c) = outstandingOps k := by
  unfold dropSource
  split <;> rfl

theorem outstandingOps_clearRecord (k : Core) (c : CtxNo) : outstandingOps (clearRecord k c) = outstandingOps k := by
  unfold clearRecord
  split <;> rfl

section
variable (s : State) (l : Lcid) (c : CtxNo)

/-- R185: what waits for the context's sync operations no longer does; nothing else of its core changes. -/
theorem outstandingOps_abandonSyncs : outstandingOps (getCore (abandonSyncs s l c) l) = outstandingOps (getCore s l) := by
  have hfold : ∀ (os : List SyncOut) (t : State),
      (os.foldl (fun s o => if !o.retry && !o.cancel then sendCancel s l o else s) t).cores = t.cores := by
    intro os
    induction os with
    | nil => exact fun _ => rfl
    | cons o os ih =>
      intro t
      refine (ih _).trans ?_
      show (if (!o.retry && !o.cancel) = true then sendCancel t l o else t).cores = t.cores
      split
      · exact sendCancel_cores ..
      · rfl
  rw [abandonSyncs, getCore_of_cores (hfold _ _) l, getCore_modCore]
  rfl

theorem outstandingOps_abandonWait : outstandingOps (getCore (abandonWait s l c) l) = outstandingOps (getCore s l) := by
  unfold abandonWait
  split
  · rw [getCore_modCore]; rfl
  · exact outstandingOps_abandonSyncs s l c
  · rw [getCore_modCore]; rfl
  · rfl

theorem outstandingOps_toFree : outstandingOps (getCore (toFree s l c) l) = outstandingOps (getCore s l) := by
  rw [toFree, getCore_modCore]
  calc outstandingOps _ = outstandingOps (dropSource (modEng (clearRecord (getCore (abandonWait s l c) l) c)
        fun e => dropClaims e c) c) := rfl
    _ = _ := by rw [outstandingOps_dropSource, outstandingOps_dropClaims, outstandingOps_clearRecord, outstandingOps_abandonWait]

/-- A context that is to be freed, before it is looked at whether anything of it is outstanding. -/
def freeingState : State :=
  modCtxOf (abandonSyncs (abandonWait s l c) l c) l c fun x => { x with freeing := true, wait := .none, deadline := none }

theorem freeingState_frame :
    ctxOf (freeingState s l c) l c = { ctxOf s l c with freeing := true, wait := .none, deadline := none } ∧
      (∀ c', c' ≠ c → ctxOf (freeingState s l c) l c' = ctxOf s l c') ∧
      ∀ l', l' ≠ l → getCore (freeingState s l c) l' = getCore s l' := by
  have hunits := (onlyUnits_abandonWait s l c).trans (onlyUnits_abandonSyncs (abandonWait s l c) l c)
  obtain ⟨hat, hother, -, hcores, -⟩ := modCtxOf_frame (abandonSyncs (abandonWait s l c) l c) l c
    fun x => { x with freeing := true, wait := .none, deadline := none }
  rw [hunits.ctxOf] at hat
  exact ⟨hat, fun c' hc => (hother c' hc).trans (hunits.ctxOf c'), fun l' hl => (hcores l' hl).trans (hunits.2 l' hl)⟩

theorem outstandingOps_freeingState : outstandingOps (getCore (freeingState s l c) l) = outstandingOps (getCore s l) := by
  rw [freeingState, modCtxOf, getCore_modCore]
  exact (outstandingOps_abandonSyncs ..).trans (outstandingOps_abandonWait ..)

theorem freeCtx_eq : freeCtx s l c = if (ctxOf s l c).st = .free then freeingState s l c
    else if busyCtx (getCore s l) c then freeingState s l c else toFree (freeingState s l c) l c := by
  obtain ⟨hat, -, -⟩ := freeingState_frame s l c
  have hst : (ctxOf (freeingState s l c) l c).st = (ctxOf s l c).st := by rw [hat]
  have hfreeing : (ctxOf (freeingState s l c) l c).freeing = true := by rw [hat]
  show settle (freeingState s l c) l c = _
  simp only [settle, getCtx_getCore, hst, hfreeing, if_true, busyCtx_congr (outstandingOps_freeingState s l c)]

variable {s l c}

/-- R185: a context with nothing outstanding is freed at once. -/
theorem freeCtx_idle (h : (ctxOf s l c).st ≠ .free) (hidle : busyCtx (getCore s l) c = false) : FreedOnly s l c (freeCtx s l c) := by
  obtain ⟨-, hother, hcores⟩ := freeingState_frame s l c
  obtain ⟨hfree, hoth, hco⟩ := toFree_freedOnly (freeingState s l c) l c
  rw [freeCtx_eq, if_neg h, hidle, if_neg Bool.false_ne_true]
  exact ⟨hfree, fun c' hc => (hoth c' hc).trans (hother c' hc), fun l' hl => (hco l' hl).trans (hcores l' hl)⟩

/-- R185: a context with something outstanding is freed when that completes. -/
theorem freeCtx_busy (h : (ctxOf s l c).st ≠ .free) (hbusy : busyCtx (getCore s l) c = true) :
    freeCtx s l c = freeingState s l c := by
  rw [freeCtx_eq, if_neg h, if_pos hbusy]

/-- Freeing a context that is not FREE leaves every other context and every other core. -/
theorem freeCtx_others (h : (ctxOf s l c).st ≠ .free) :
    (∀ c', c' ≠ c → ctxOf (freeCtx s l c) l c' = ctxOf s l c') ∧ ∀ l', l' ≠ l → getCore (freeCtx s l c) l' = getCore s l' := by
  cases hb : busyCtx (getCore s l) c with
  | false => exact (freeCtx_idle h hb).2
  | true =>
    rw [freeCtx_busy h hb]
    exact (freeingState_frame s l c).2

end

/-! ### The instructions that name a target (R209) -/

section
variable {s : State} {l : Lcid} {c : CtxNo} {b : BitVec 54}

theorem targetOf_of_le {w : Word} (h : 512 ≤ w.toNat) : targetOf w = none := by
  have := w.isLt
  refine if_neg ?_
  simp only [fld, Nat.shiftRight_eq_div_pow]
  omega

theorem targetOf_of_lt {w : Word} (h : w.toNat < 512) : targetOf w = some (BitVec.ofNat 9 w.toNat) := by
  refine if_pos ?_
  simp only [fld, Nat.shiftRight_eq_div_pow]
  omega

/-- The register that names the target, and the target. -/
def targetWord (s : State) (l : Lcid) (c : CtxNo) (b : BitVec 54) : Word := readG (ctxOf s l c) (fld b 46 4)

def target (s : State) (l : Lcid) (c : CtxNo) (b : BitVec 54) : CtxNo := BitVec.ofNat 9 (targetWord s l c b).toNat

/-- What an instruction that names a target does, where it applies (`P`) and where it does not; `Y` is what it makes of the
target. -/
def targeted (s : State) (l : Lcid) (c : CtxNo) (b : BitVec 54) (i : Instr) (P : Prop) (Y : Ctx → Prop) : Prop :=
  (512 ≤ (targetWord s l c b).toNat → answers i s fun t => t = precise (fetched s l c) l c sBOUNDS 0 (targetWord s l c b)) ∧
  ((targetWord s l c b).toNat < 512 → target s l c b ≠ c →
    (P → answers i s fun t => ctxOf t l c = completed (ctxOf s l c) (fun x => writeP x (fld b 35 3) true) ∧
      Y (ctxOf t l (target s l c b))) ∧
    (¬ P → answers i s fun t => onlyCtx s t l c (completed (ctxOf s l c) fun x => writeP x (fld b 35 3) false)))

theorem ctxOf_fetched_other {c' : CtxNo} (h : c' ≠ c) : ctxOf (fetched s l c) l c' = ctxOf s l c' :=
  ctxOf_modCtxOf_other _ _ _ _ _ h

section
variable {i : Instr} {op : Nat} {fs : List (Nat × Nat)} {check : Ctx → Option (Status × Word)} {applies : CtxNo → Ctx → Bool}
  {f : State → CtxNo → State}
  (hi : exec i s = .next (doTargeted l c op b fs check applies f s))
  (h : issues s l c b (onlyFields b ((46, 4) :: (35, 3) :: fs)) anyRoom)

include hi h

theorem exec_targeted_bounds (hgc : 512 ≤ (targetWord s l c b).toNat) :
    exec i s = .next (precise (fetched s l c) l c sBOUNDS 0 (targetWord s l c b)) := by
  unfold targetWord at hgc ⊢
  rw [doTargeted, issue_body _ _ _ _ _ _ _ _ _ h] at hi
  have hno : targetOf (readG (ctxOf s l c) (fld b 46 4)) = none := targetOf_of_le hgc
  simpa only [gAt, readG_fetched, hno] using hi

theorem exec_targeted (hgc : (targetWord s l c b).toNat < 512) (htgt : target s l c b ≠ c)
    (hcheck : check (ctxOf (fetched s l c) l c) = none) :
    exec i s = .next (finish (if applies (target s l c b) (ctxOf s l (target s l c b)) then f (fetched s l c) (target s l c b)
        else fetched s l c) l c fun x => writeP x (fld b 35 3) (applies (target s l c b) (ctxOf s l (target s l c b)))) := by
  rw [doTargeted, issue_body _ _ _ _ _ _ _ _ _ h] at hi
  have hsome : targetOf (readG (ctxOf s l c) (fld b 46 4)) = some (target s l c b) := targetOf_of_lt hgc
  simpa only [gAt, readG_fetched, hsome, hcheck, ctxOf_fetched_other htgt] using hi

/-- The effect `f` keeps the issuing context, and makes of the target what `Y` says. -/
theorem answers_targeted {P : Prop} {Y : Ctx → Prop} (hcheck : check (ctxOf (fetched s l c) l c) = none)
    (happlies : target s l c b ≠ c → (applies (target s l c b) (ctxOf s l (target s l c b)) = true ↔ P))
    (heff : target s l c b ≠ c → P → ctxOf (f (fetched s l c) (target s l c b)) l c = ctxOf (fetched s l c) l c ∧
      Y (ctxOf (f (fetched s l c) (target s l c b)) l (target s l c b))) : targeted s l c b i P Y := by
  refine ⟨fun hgc => ⟨_, exec_targeted_bounds hi h hgc, rfl⟩, fun hgc htgt => ⟨fun hP => ?_, fun hP => ?_⟩⟩
  · have hx := exec_targeted hi h hgc htgt hcheck
    rw [(happlies htgt).2 hP, if_pos rfl] at hx
    obtain ⟨hself, hY⟩ := heff htgt hP
    obtain ⟨hat, -, -⟩ := finish_completed s l c (fun x => writeP x (fld b 35 3) true) fun x n => writeP_slot x _ _ n
    refine ⟨_, hx, ?_, ?_⟩
    · rw [← hat, finish, finish, ctxOf_modCtxOf, ctxOf_modCtxOf, hself]
    · rwa [finish, ctxOf_modCtxOf_other _ _ _ _ _ htgt]
  · have hx := exec_targeted hi h hgc htgt hcheck
    rw [Bool.eq_false_iff.2 fun ha => hP ((happlies htgt).1 ha), if_neg Bool.false_ne_true] at hx
    exact ⟨_, hx, finish_completed s l c (fun x => writeP x (fld b 35 3) false) fun x n => writeP_slot x _ _ n⟩

end

theorem faultedOther_iff {t : CtxNo} {x : Ctx} (h : t ≠ c) :
    faultedOther c t x = true ↔ x.st = .faulted ∧ x.freeing = false := by
  simp [faultedOther, h]

theorem wake_targeted (h : issues s l c b (onlyFields b [(46, 4), (35, 3)]) anyRoom) :
    targeted s l c b (.wake l c b) (effSt (ctxOf s l (target s l c b)) = .parked)
      fun z => z = makeReady (ctxOf s l (target s l c b)) := by
  have hx : exec (.wake l c b) s = .next (doWake l c b s) := rfl
  rw [doWake] at hx
  refine answers_targeted hx h rfl (fun _ => decide_eq_true_iff) fun htgt _ => ⟨?_, ?_⟩
  · exact ctxOf_modCtxOf_other _ _ _ _ _ htgt.symm
  · rw [ctxOf_modCtxOf, ctxOf_fetched_other htgt]

theorem cfree_targeted (h : issues s l c b (onlyFields b [(46, 4), (35, 3)]) anyRoom) {Y : Ctx → Prop}
    (hY : target s l c b ≠ c → (ctxOf s l (target s l c b)).st = .faulted →
      Y (ctxOf (freeCtx (fetched s l c) l (target s l c b)) l (target s l c b))) :
    targeted s l c b (.cfree l c b)
      ((ctxOf s l (target s l c b)).st = .faulted ∧ (ctxOf s l (target s l c b)).freeing = false) Y := by
  have hx : exec (.cfree l c b) s = .next (doCfree l c b s) := rfl
  rw [doCfree] at hx
  refine answers_targeted hx h rfl (fun htgt => faultedOther_iff htgt) fun htgt hf => ⟨?_, hY htgt hf.1⟩
  have hfaulted : (ctxOf (fetched s l c) l (target s l c b)).st = .faulted := by rw [ctxOf_fetched_other htgt]; exact hf.1
  exact (freeCtx_others (by simp [hfaulted])).1 c htgt.symm

theorem resume_targeted (h : issues s l c b (onlyFields b [(46, 4), (35, 3), (42, 4)]) anyRoom)
    (hlt : (readG (ctxOf s l c) (fld b 42 4)).toNat < 2 ^ 21) (hal : (readG (ctxOf s l c) (fld b 42 4)).toNat % 8 = 0) :
    targeted s l c b (.resume l c b)
      ((ctxOf s l (target s l c b)).st = .faulted ∧ (ctxOf s l (target s l c b)).freeing = false)
      fun z => z = { makeReady (ctxOf s l (target s l c b)) with
        pc := BitVec.ofNat 21 (readG (ctxOf s l c) (fld b 42 4)).toNat, slot := none } := by
  have hx : exec (.resume l c b) s = .next (doResume l c b s) := rfl
  rw [doResume] at hx
  have hhigh : fld (readG (ctxOf s l c) (fld b 42 4)) 21 43 = 0 := (fld_high_eq_zero_iff _).2 hlt
  have hlow : fld (readG (ctxOf s l c) (fld b 42 4)) 0 3 = 0 := (fld_zero_eq_mod ..).trans hal
  refine answers_targeted hx h ?_ (fun htgt => faultedOther_iff htgt) fun htgt _ => ⟨?_, ?_⟩
  · simp only [gAt, hhigh, hlow, ne_eq, not_true, if_false]
  · exact ctxOf_modCtxOf_other _ _ _ _ _ htgt.symm
  · rw [ctxOf_modCtxOf, ctxOf_fetched_other htgt]
    rfl

/-! ### END, PARK, SLEEP and SRSEED -/

/-- END as it issues: the context waits for its operations, and goes on at once where there are none. -/
theorem exec_ctxEnd (h : issues s l c b (onlyFields b []) anyRoom) :
    exec (.ctxEnd l c b) s = .next (settle (finish (fetched s l c) l c fun x => makeWait x .ending none) l c) := by
  have hx : exec (.ctxEnd l c b) s = .next (doCtxEnd l c b s) := rfl
  rwa [doCtxEnd, issue_body _ _ _ _ _ _ _ _ _ h] at hx

/-- A context that waits at its END. -/
theorem settle_ending (hst : (ctxOf s l c).st = .waiting) (hwait : (ctxOf s l c).wait = .ending)
    (hfree : (ctxOf s l c).freeing = false) :
    settle s l c = if millPend (getCore s l) c || vePend (getCore s l) c then s else toFree s l c := by
  simp [settle, getCtx_getCore, hst, hwait, hfree, effSt]

theorem ended_completed (h : issues s l c b (onlyFields b []) anyRoom) :
    onlyCtx s (finish (fetched s l c) l c fun x => makeWait x .ending none) l c
      (completed (ctxOf s l c) fun x => { x with st := .waiting, wait := .ending, waitNo := x.waitNo + 1 }) := by
  simpa using finish_wait_completed (ready_of_issues h) true .ending

theorem eng_eq_of_coreRest {k k' : Core} (h : coreRest k = coreRest k') : k.eng = k'.eng := by
  simpa [coreRest] using congrArg Core.eng h

theorem exec_ctxEnd_settled (h : issues s l c b (onlyFields b []) anyRoom) (hfree : (ctxOf s l c).freeing = false) :
    exec (.ctxEnd l c b) s = .next (if millPend (getCore s l) c || vePend (getCore s l) c then
        finish (fetched s l c) l c fun x => makeWait x .ending none
      else toFree (finish (fetched s l c) l c fun x => makeWait x .ending none) l c) := by
  obtain ⟨hat, -, hrest, -, -⟩ := ended_completed h
  have heng := eng_eq_of_coreRest hrest
  have hmill := congrArg (fun e : Engines => e.millq.any fun o => o.ctx == c) heng
  have hve := congrArg (fun e : Engines => e.veq.any fun o => o.ctx == c) heng
  rw [exec_ctxEnd h, settle_ending (congrArg Ctx.st hat) (congrArg Ctx.wait hat) ((congrArg Ctx.freeing hat).trans hfree),
    millPend, vePend, hmill, hve]
  rfl

theorem deadlineAt_fetched (n : Nat) : deadlineAt (fetched s l c) n = now s + n + 1 := rfl

theorem exec_park (h : issues s l c b (onlyFields b [(38, 4)]) anyRoom) :
    exec (.park l c b) s = .next (modCtxOf (finish (fetched s l c) l c fun x => setSt x .parked) l c fun x => { x with
      deadline := if (readG (ctxOf s l c) (fld b 38 4)).toNat = 0 then none
        else some (now s + (readG (ctxOf s l c) (fld b 38 4)).toNat + 1) }) := by
  have hx : exec (.park l c b) s = .next (doPark l c b s) := rfl
  rw [doPark, issue_body _ _ _ _ _ _ _ _ _ h] at hx
  simpa only [gAt, readG_fetched, deadlineAt_fetched] using hx

theorem exec_sleep (h : issues s l c b (onlyFields b [(38, 4)]) anyRoom) :
    exec (.sleep l c b) s = .next (if (readG (ctxOf s l c) (fld b 38 4)).toNat = 0 then advance (fetched s l c) l c
      else modCtxOf (advance (fetched s l c) l c) l c fun x =>
        makeWait x .timer (some (now s + (readG (ctxOf s l c) (fld b 38 4)).toNat + 1))) := by
  have hx : exec (.sleep l c b) s = .next (doSleep l c b s) := rfl
  rw [doSleep, issue_body _ _ _ _ _ _ _ _ _ h] at hx
  simpa only [gAt, readG_fetched, deadlineAt_fetched] using hx

theorem exec_srseed (h : issues s l c b (onlyFields b [(42, 4)]) anyRoom) :
    exec (.srseed l c b) s = .next (finish (fetched s l c) l c fun x => setSeed x (gAt x b 42)) := by
  have hx : exec (.srseed l c b) s = .next (doSrseed l c b s) := rfl
  rwa [doSrseed, issue_body _ _ _ _ _ _ _ _ _ h] at hx

/-! ### Timers (R65) -/

/-- R163: what READY makes of a context, HELD or not. -/
theorem makeReady_eq (x : Ctx) : makeReady x = if x.st = .held then { x with heldFrom := .ready, wait := .none, deadline := none }
    else { x with st := .ready, wait := .none, deadline := none } := by
  unfold makeReady setSt
  split <;> rfl

theorem due_of_le {x : Ctx} {d : Nat} (h : x.deadline = some d) (hd : d ≤ now s) : due s x = true := by
  simp [due, h, hd]

theorem exec_parkTimerExpiry (hst : effSt (ctxOf s l c) = .parked) (hdue : due s (ctxOf s l c) = true) :
    exec (.parkTimerExpiry l c) s = .next (modCtxOf s l c makeReady) := by
  have hx : exec (.parkTimerExpiry l c) s = .next (doParkTimerExpiry l c s) := rfl
  rwa [doParkTimerExpiry, if_pos ⟨hst, hdue⟩] at hx

theorem exec_sleepExpiry (hst : effSt (ctxOf s l c) = .waiting) (hwait : (ctxOf s l c).wait = .timer)
    (hdue : due s (ctxOf s l c) = true) : exec (.sleepExpiry l c) s = .next (modCtxOf s l c makeReady) := by
  have hx : exec (.sleepExpiry l c) s = .next (doSleepExpiry l c s) := rfl
  rwa [doSleepExpiry, if_pos ⟨hst, hwait, hdue⟩] at hx

end

/-- Settles O25. -/
theorem contextControlAndTimers : Obligations.ContextControlAndTimers := by
  unfold Obligations.ContextControlAndTimers
  refine ⟨fun s l c b => ⟨fun h => ⟨fun hpend hfree => ?pending, fun hmill hve hfree => ?ended⟩, fun h => ⟨?park, ?sleep⟩,
    fun h => ⟨_, exec_srseed h, finish_completed _ _ _ _ fun _ _ => rfl⟩,
    fun h => ⟨wake_targeted h, ?cfree, fun hidle hwait => ?cfreeIdle⟩, fun h hlt hal => resume_targeted h hlt hal⟩,
    fun s l c d hd hdue => ?timers⟩
  case pending =>
    have hx := exec_ctxEnd_settled h hfree
    rw [if_pos (by simpa using hpend)] at hx
    exact ⟨_, hx, ended_completed h⟩
  case ended =>
    have hx := exec_ctxEnd_settled h hfree
    rw [hmill, hve, if_neg (by decide)] at hx
    obtain ⟨-, hother, -, hcores, -⟩ := ended_completed h
    obtain ⟨hst, hoth, hco⟩ := toFree_freedOnly (finish (fetched s l c) l c fun x => makeWait x .ending none) l c
    exact ⟨_, hx, hst, fun c' hc => (hoth c' hc).trans (hother c' hc), fun l' hl => (hco l' hl).trans (hcores l' hl)⟩
  case park =>
    have hready := ready_of_issues h
    refine ⟨_, exec_park h, ?_⟩
    have hdone := onlyCore_modCtxOf (finish_fetched s l c fun x => setSt x .parked) fun x => { x with
      deadline := if (readG (ctxOf s l c) (fld b 38 4)).toNat = 0 then none
        else some (now s + (readG (ctxOf s l c) (fld b 38 4)).toNat + 1) }
    rw [setSt_of_not_held (by simp [hready])] at hdone
    exact hdone
  case sleep =>
    have hready := ready_of_issues h
    refine ⟨_, exec_sleep h, ?_⟩
    split
    · exact advance_completed s l c
    · have hdone := onlyCore_modCtxOf (advance_completed s l c) fun x =>
        makeWait x .timer (some (now s + (readG (ctxOf s l c) (fld b 38 4)).toNat + 1))
      rw [makeWait, setSt_of_not_held (by simp [completed, hready])] at hdone
      exact hdone
  case cfree =>
    refine cfree_targeted h (Y := fun z => z.st = .free ∨ z.st = .faulted ∧ z.freeing = true) fun htgt hf => ?_
    have hst := (congrArg Ctx.st (ctxOf_fetched_other (s := s) (l := l) htgt)).trans hf
    cases hb : busyCtx (getCore (fetched s l c) l) (target s l c b) with
    | false => exact .inl (freeCtx_idle (by simp [hst]) hb).1
    | true =>
      have hat := (freeingState_frame (fetched s l c) l (target s l c b)).1
      rw [freeCtx_busy (by simp [hst]) hb]
      rw [hat]
      exact .inr ⟨hst, rfl⟩
  case cfreeIdle =>
    refine cfree_targeted h (Y := fun z => z.st = .free) fun htgt hf => ?_
    have hst := (congrArg Ctx.st (ctxOf_fetched_other (s := s) (l := l) htgt)).trans hf
    refine (freeCtx_idle (by simp [hst]) ?_).1
    rw [fetched, modCtxOf, getCore_modCore]
    exact hidle
  case timers =>
    have hframe := modCtxOf_frame s l c makeReady
    rw [makeReady_eq] at hframe
    exact ⟨fun hst => ⟨_, exec_parkTimerExpiry hst (due_of_le hd hdue), hframe⟩,
      fun hst hwait => ⟨_, exec_sleepExpiry hst hwait (due_of_le hd hdue), hframe⟩⟩

end Sys2Proof.Machine
end

section
/-! PROOFS. RING and RING_COMPLETE (R480, R482, R293). -/

namespace Sys2Proof.Machine

section
variable {s : State} {l : Lcid} {c : CtxNo} {b : BitVec 54}

theorem hasRecord_fetched : hasRecord (getCore (fetched s l c) l) c = hasRecord (getCore s l) c := by
  rw [fetched, modCtxOf, getCore_modCore]
  rfl

/-- R480: RING as it issues. -/
theorem exec_ring (h : issues s l c b (onlyFields b [(42, 4)]) anyRoom) :
    exec (.ring l c b) s = .next (if hasRecord (getCore s l) c then
        finish (fetched s l c) l c fun x => makeWait x (.ring (gAt x b 42)) none
      else precise (fetched s l c) l c sBOUNDS 0 (insWord 0x300 b)) := by
  have hx : exec (.ring l c b) s = .next (doRing l c b s) := rfl
  rwa [doRing, issue_body _ _ _ _ _ _ _ _ _ h, hasRecord_fetched] at hx

theorem finish_ring_completed (h : (ctxOf s l c).st = .ready) :
    onlyCtx s (finish (fetched s l c) l c fun x => makeWait x (.ring (gAt x b 42)) none) l c
      (completed (ctxOf s l c) fun x =>
        { x with st := .waiting, wait := .ring (readG (ctxOf s l c) (fld b 42 4)), waitNo := x.waitNo + 1 }) := by
  have hfin := finish_fetched s l c fun x => makeWait x (.ring (gAt x b 42)) none
  rw [makeWait, setSt_of_not_held (by simp [h])] at hfin
  exact hfin

end

/-! ### The records (R480, R482) -/

section
variable (k : Core) (c : CtxNo)

/-- R482: the deferred releases leave of the context all but what it was started from and its deferrals. -/
theorem applyDeferred_ctx : ∃ v, getCtx (applyDeferred k c) c =
    { getCtx k c with src := v, defTd := 0, defAcc := 0, defMsg := false } := by
  unfold applyDeferred
  rw [getCtx_modCtx, getCtx_modEng, getCtx_modUn]
  split
  · obtain ⟨v, hv⟩ := dropSource_ctx k c
    exact ⟨v, by rw [hv]⟩
  · exact ⟨_, rfl⟩

theorem applyDeferred_ctx_other {c' : CtxNo} (h : c' ≠ c) : getCtx (applyDeferred k c) c' = getCtx k c' := by
  unfold applyDeferred
  rw [getCtx_modCtx_other _ _ _ _ h, getCtx_modEng, getCtx_modUn]
  split
  · exact getCtx_dropSource_other k h
  · rfl

/-- R132: an accumulator's record changes the slice alone. -/
theorem saveAccs_ctxs (rseq : Nat) (as : List Nat) : (as.foldl (fun k a => saveAcc k c rseq a) k).ctxs = k.ctxs := by
  induction as generalizing k with
  | nil => rfl
  | cons a as ih => exact ih _

/-- What keeps the links' retained words leaves all else of a core (R293). -/
theorem freeKept_links (k : Core) (c : CtxNo) : { freeKept k c with inL := [], outL := [] } = { k with inL := [], outL := [] } :=
  foldl_keeps (fun k : Core => { k with inL := [], outL := [] }) (fun k d => by dsimp only; split <;> split <;> rfl) (below 4) k

theorem freeKept_fields (k : Core) (c : CtxNo) :
    (freeKept k c).ctxs = k.ctxs ∧ (freeKept k c).sp = k.sp ∧ (freeKept k c).ring = k.ring ∧ (freeKept k c).un = k.un ∧
      (freeKept k c).notices = k.notices := by
  have h := freeKept_links k c
  simp only [Core.mk.injEq] at h
  obtain ⟨-, -, -, -, -, -, -, hctxs, -, hnotices, -, hsp, -, hun, -, -, hring⟩ := h
  exact ⟨hctxs, hsp, hring, hun, hnotices⟩

end

/-- R480: RING_COMPLETE once everything that the RING waits for has ended. -/
theorem exec_ringComplete {s : State} {l : Lcid} {c : CtxNo} {ga : Word} (hst : effSt (ctxOf s l c) = .waiting)
    (hwait : (ctxOf s l c).wait = .ring ga) (hdrained : ringDrained (getCore s l) c = true) :
    exec (.ringComplete l c) s = .next (setCore s l (modCtx (ringSave (getCore s l) c ga) c
      fun x => { makeReady x with hasRec := true })) := by
  have hx : exec (.ringComplete l c) s = .next (doRingComplete l c s) := rfl
  simpa only [doRingComplete, getCtx_getCore, hst, hwait, hdrained, ne_eq, not_true, if_false, if_true] using hx

theorem effSt_makeReady (x : Ctx) : effSt (makeReady x) = .ready := effSt_setSt x (by decide)

theorem makeReady_kept (x : Ctx) : (makeReady x).wait = .none ∧ (makeReady x).pc = x.pc ∧ (makeReady x).g = x.g ∧
    (makeReady x).defTd = x.defTd ∧ (makeReady x).defAcc = x.defAcc := by
  unfold makeReady setSt
  split <;> exact ⟨rfl, rfl, rfl, rfl, rfl⟩

theorem dropSource_ring (k : Core) (c : CtxNo) : (dropSource k c).ring = k.ring := by
  unfold dropSource
  split <;> rfl

theorem applyDeferred_ring (k : Core) (c : CtxNo) : (applyDeferred k c).ring = k.ring := by
  show (if (getCtx k c).defMsg then dropSource k c else k).ring = k.ring
  split
  · exact dropSource_ring k c
  · rfl

section
variable (k : Core) (c : CtxNo) (ga : Word)

/-- The number of the next record (R480). -/
def nextRseq (k : Core) : Nat := (k.ring.seq.toNat + 1) % 2 ^ 48

/-- The core with the accumulators' records written. -/
def accsSaved : Core :=
  ((below 8).filter (heldMask (applyDeferred k c).eng.accOwner c).testBit).foldl (fun k' a => saveAcc k' c (nextRseq k) a)
    (applyDeferred k c)

/-- The core with the context's record written too. -/
def recordSaved : Core :=
  modSp (accsSaved k c) fun sl => slPutWords sl
    (ctxRec (accsSaved k c) c (nextCopy (accsSaved k c).sp (ctxRec (accsSaved k c) c 0) (ctxRec (accsSaved k c) c 1)))
    (ctxRecWords (accsSaved k c) c (getCtx (accsSaved k c) c) (nextRseq k) ga (getCtx (accsSaved k c) c).pc
      (heldMask (applyDeferred k c).eng.tdOwner c) (heldMask (applyDeferred k c).eng.accOwner c))

theorem ringSave_eq : ringSave k c ga = freeKept { recordSaved k c ga with
    ring := { (recordSaved k c ga).ring with
      seq := BitVec.ofNat 48 (nextRseq k), replaying := sDel (recordSaved k c ga).ring.replaying c.toNat } } c := by
  have hseq : nextRseq k = nextRseq (applyDeferred k c) := by rw [nextRseq, nextRseq, applyDeferred_ring]
  rw [recordSaved, accsSaved, hseq]
  rfl

/-- The contexts after the records are written are those after the deferred releases. -/
theorem ringSave_ctx (c' : CtxNo) : getCtx (ringSave k c ga) c' = getCtx (applyDeferred k c) c' := by
  have hctxs : (ringSave k c ga).ctxs = (applyDeferred k c).ctxs := by
    rw [ringSave_eq]
    exact (freeKept_fields _ c).1.trans (saveAccs_ctxs (applyDeferred k c) c _ _)
  rw [getCtx, hctxs, getCtx]

end

/-- Settles O26. -/
theorem rings : Obligations.Rings := by
  unfold Obligations.Rings
  refine ⟨fun s l c b h => ⟨fun hrec => ?_, fun hrec => ?_⟩, fun s l c ga => ?_⟩
  · have hx := exec_ring h
    rw [hrec, if_pos rfl] at hx
    exact ⟨_, hx, finish_ring_completed (ready_of_issues h)⟩
  · have hx := exec_ring h
    rw [hrec, if_neg Bool.false_ne_true] at hx
    exact ⟨_, hx, rfl⟩
  · intro k x hst hwait hdrained
    obtain ⟨v, hv⟩ := applyDeferred_ctx k c
    obtain ⟨-, hsp, hring, -⟩ := freeKept_fields { recordSaved k c ga with ring := { (recordSaved k c ga).ring with
      seq := BitVec.ofNat 48 (nextRseq k), replaying := sDel (recordSaved k c ga).ring.replaying c.toNat } } c
    rw [← ringSave_eq] at hsp hring
    have hpc : (getCtx (accsSaved k c) c).pc = x.pc := by
      rw [getCtx, show (accsSaved k c).ctxs = (applyDeferred k c).ctxs from saveAccs_ctxs .., ← getCtx]
      simp only [hv]
      rfl
    obtain ⟨hw, hpc', hg, hdt, hda⟩ := makeReady_kept (getCtx (applyDeferred k c) c)
    have hctx : ctxOf (setCore s l (modCtx (ringSave k c ga) c fun x => { makeReady x with hasRec := true })) l c =
        { makeReady (getCtx (applyDeferred k c) c) with hasRec := true } := by
      rw [ctxOf, getCore_setCore, getCtx_modCtx, ringSave_ctx]
    refine ⟨_, exec_ringComplete hst hwait hdrained, ?_, ?_⟩
    · rw [getCore_setCore]
      refine hsp.trans ?_
      rw [← hpc]
      rfl
    · dsimp only
      rw [hctx]
      refine ⟨effSt_makeReady _, hw, rfl, hpc'.trans (by simp only [hv]; rfl), hg.trans (by simp only [hv]; rfl),
        hdt.trans (by simp only [hv]), hda.trans (by simp only [hv]), ?_, fun c' hc => ?_, fun l' hl => getCore_setCore_other _ _ _ _ hl⟩
      · rw [getCore_setCore]
        refine (congrArg (fun r : RingRegs => r.seq.toNat) hring).trans ?_
        exact (BitVec.toNat_ofNat ..).trans (Nat.mod_mod ..)
      · rw [ctxOf, getCore_setCore, getCtx_modCtx_other _ _ _ _ hc, ringSave_ctx, applyDeferred_ctx_other k c hc]
        rfl

end Sys2Proof.Machine
end

section
/-! PROOFS. The queries (R39, R103, R210, Table 07.18). -/

namespace Sys2Proof.Machine

section
variable {s : State} {l : Lcid} {c : CtxNo} {b : BitVec 54}

/-- A query's value reads no core but for the role register. -/
theorem qryValue_fetched (sel ix : Nat) :
    qryValue (fetched s l c) l c (ctxOf (fetched s l c) l c) sel ix = qryValue s l c (ctxOf s l c) sel ix := by
  have hrole : (getCore (fetched s l c) l).role = (getCore s l).role := by
    rw [fetched, modCtxOf, getCore_modCore]
    rfl
  have hctx : ctxOf (fetched s l c) l c = { ctxOf s l c with slot := some ((ctxOf s l c).pc.toNat / 128) } := by
    simp [fetched]
  rw [hctx]
  unfold qryValue
  split
  case h_30 => exact congrArg some hrole
  all_goals rfl

/-- R210: QRY as it issues. -/
theorem exec_qry (h : issues s l c b (onlyFields b [(46, 4), (42, 4), (0, 16)] && definedSel (fld b 0 16) &&
      (indexedSel (fld b 0 16) || fld b 42 4 == 0)) anyRoom) {o : Option Word}
    (ho : qryValue s l c (ctxOf s l c) (fld b 0 16) (readG (ctxOf s l c) (fld b 42 4)).toNat = o) :
    exec (.qry l c b) s = .next (match o with
      | some v => finish (fetched s l c) l c fun x => writeG x (fld b 46 4) v
      | none => precise (fetched s l c) l c sBOUNDS 0 (readG (ctxOf s l c) (fld b 42 4))) := by
  have hx : exec (.qry l c b) s = .next (doQry l c b s) := rfl
  rw [doQry, issue_body _ _ _ _ _ _ _ _ _ h] at hx
  simp only [gAt, readG_fetched, qryValue_fetched, ho] at hx
  cases o <;> exact hx

/-- The registers from GD up take the values in turn. -/
theorem writes_slot (gd : Nat) (ps : List (Word × Nat)) (x : Ctx) (n : Option Nat) :
    ps.foldl (fun x p => writeG x (gd + p.2) p.1) { x with slot := n } =
      { ps.foldl (fun x p => writeG x (gd + p.2) p.1) x with slot := n } := by
  induction ps generalizing x with
  | nil => rfl
  | cons p ps ih => rw [List.foldl_cons, writeG_slot, ih]; rfl

/-- R210: a query that writes several registers; `f` is what it makes of the context before. -/
theorem doMulti_completed {op n : Nat} {vals : State → Ctx → List Word} {f : Ctx → Ctx} {vs : List Word}
    (h : issues s l c b (onlyFields b [(46, 4)] && decide (1 ≤ fld b 46 4) && decide (fld b 46 4 + n ≤ 16)) anyRoom)
    (hvals : vals (fetched s l c) (ctxOf (fetched s l c) l c) = vs) (hf : ∀ (x : Ctx) m, f { x with slot := m } = { f x with slot := m }) :
    onlyCtx s (doMulti l c op b n vals f s) l c
      (completed (ctxOf s l c) fun x => vs.zipIdx.foldl (fun x p => writeG x (fld b 46 4 + p.2) p.1) (f x)) := by
  rw [doMulti, issue_body _ _ _ _ _ _ _ _ _ h]
  dsimp only
  rw [hvals]
  exact finish_completed s l c _ fun x m => by rw [hf, writes_slot]

end

/-- Settles O27. -/
theorem queries : Obligations.Queries := by
  unfold Obligations.Queries
  intro s l c b x gd sel ix
  refine ⟨fun h => ⟨fun v hv => ⟨_, exec_qry h hv, finish_completed _ _ _ _ fun x n => writeG_slot x _ _ n⟩,
    fun hv => ⟨_, exec_qry h hv, rfl⟩⟩, fun h => ?nsrd, fun h => ⟨?tlrd, ?tlclr, ?distrd⟩, ?sizes⟩
  case nsrd =>
    exact ⟨doNsrd l c b s, rfl, doMulti_completed (vals := fun _ x => [x.ns0, x.ns1]) (f := id) (vs := [x.ns0, x.ns1]) h
      (by simp [fetched, x]) fun _ _ => rfl⟩
  case tlrd =>
    exact ⟨doTlrd l c b s, rfl, doMulti_completed (vals := fun _ x => [x.tl0, x.tl1, x.tl2]) (f := id)
      (vs := [x.tl0, x.tl1, x.tl2]) h (by simp [fetched, x]) fun _ _ => rfl⟩
  case tlclr =>
    exact ⟨doTlclr l c b s, rfl, doMulti_completed (vals := fun _ x => [x.tl0, x.tl1, x.tl2]) (f := clearTally)
      (vs := [x.tl0, x.tl1, x.tl2]) h (by simp [fetched, x]) fun _ _ => rfl⟩
  case distrd =>
    exact ⟨doDistrd l c b s, rfl, doMulti_completed
      (vals := fun s _ => [distMem s (dgOf l), distGf s (dgOf l) false, distGf s (dgOf l) true]) (f := id) h rfl fun _ _ => rfl⟩
  case sizes =>
    exact ⟨rfl, rfl, rfl, rfl, rfl, rfl, rfl, rfl, rfl, rfl, rfl, rfl, rfl, rfl, rfl, rfl, rfl, rfl, rfl, rfl, rfl⟩

end Sys2Proof.Machine
end

section
/-! PROOFS. BROPEN, BRHASH, BRSEAL and the brand unit (R515 to R518). -/

namespace Sys2Proof.Machine

section
variable {s : State} {l : Lcid} {c : CtxNo} {b : BitVec 54}

/-! ### The address of a Brand (R515) -/

theorem fld_low7 (w : Word) : fld w 0 7 = w.toNat % 128 := fld_zero_eq_mod ..

theorem brandAddr_align {w : Word} (h : w.toNat % 128 ≠ 0) : brandAddr w = .inl sALIGN := by
  rw [brandAddr, fld_low7, if_pos h]

theorem brandAddr_bounds {w : Word} (h : w.toNat % 128 = 0) (hb : 2 ^ 21 < w.toNat + 17024) : brandAddr w = .inl sBOUNDS := by
  rw [brandAddr, fld_low7, if_neg (not_not.2 h)]
  rcases Nat.lt_or_ge w.toNat (2 ^ 21) with hlt | hle
  · rw [ownOff_of_lt hlt]
    exact if_pos hb
  · rw [ownOff_of_le hle]

theorem brandAddr_ok {w : Word} (h : w.toNat % 128 = 0) (hb : w.toNat + 17024 ≤ 2 ^ 21) : brandAddr w = .inr w.toNat := by
  rw [brandAddr, fld_low7, if_neg (not_not.2 h), ownOff_of_lt (by omega)]
  exact if_neg (Nat.not_lt.2 hb)

/-- The register that names the Brand. -/
def brandWord (s : State) (l : Lcid) (c : CtxNo) (b : BitVec 54) : Word := readG (ctxOf s l c) (fld b 46 4)

/-- R515: the faults of an instruction whose Brand is not aligned, or past the slice. -/
theorem answers_badBrand {i : Instr}
    (hi : ∀ st, brandAddr (brandWord s l c b) = .inl st → exec i s = .next (precise (fetched s l c) l c st 6 (brandWord s l c b))) :
    ((brandWord s l c b).toNat % 128 ≠ 0 →
      answers i s fun t => t = precise (fetched s l c) l c sALIGN 6 (brandWord s l c b)) ∧
    ((brandWord s l c b).toNat % 128 = 0 → 2 ^ 21 < (brandWord s l c b).toNat + 17024 →
      answers i s fun t => t = precise (fetched s l c) l c sBOUNDS 6 (brandWord s l c b)) :=
  ⟨fun h => ⟨_, hi _ (brandAddr_align h), rfl⟩, fun h hb => ⟨_, hi _ (brandAddr_bounds h hb), rfl⟩⟩

/-! ### BROPEN (R516) -/

theorem exec_bropen_bad (h : issues s l c b (onlyFields b [(46, 4)]) anyRoom) (st : Status)
    (ha : brandAddr (brandWord s l c b) = .inl st) :
    exec (.bropen l c b) s = .next (precise (fetched s l c) l c st 6 (brandWord s l c b)) := by
  have hx : exec (.bropen l c b) s = .next (doBropen l c b s) := rfl
  rw [brandWord] at ha ⊢
  rw [doBropen, issue_body _ _ _ _ _ _ _ _ _ h] at hx
  simpa only [gAt, readG_fetched, ha] using hx

/-- A new Brand written into the slice. -/
def newBrand (s : State) (l : Lcid) (c : CtxNo) (a : Nat) (k : Core) : Core :=
  modSp k fun sl => (below 3).foldl (fun sl p => slPut sl (brandPart a p) (List.replicate 5504 0)) (openBrand s l c sl a)

theorem ctxFree_modSp (f : Slice → Slice) : CtxFree fun k => modSp k f := fun _ _ => rfl

theorem ctxFree_newBrand (s : State) (l : Lcid) (c : CtxNo) (a : Nat) : CtxFree (newBrand s l c a) := ctxFree_modSp _

theorem openBrand_fetched (sl : Slice) (a : Nat) : openBrand (fetched s l c) l c sl a = openBrand s l c sl a := by
  have hgen : (getCore (fetched s l c) l).ring = (getCore s l).ring := by
    rw [fetched, modCtxOf, getCore_modCore]
    rfl
  simp only [openBrand, hgen]
  rfl

theorem exec_bropen (h : issues s l c b (onlyFields b [(46, 4)]) anyRoom) {a : Nat} (ha : brandAddr (brandWord s l c b) = .inr a) :
    exec (.bropen l c b) s = .next (advance (modCore (fetched s l c) l (newBrand s l c a)) l c) := by
  have hx : exec (.bropen l c b) s = .next (doBropen l c b s) := rfl
  rw [brandWord] at ha
  rw [doBropen, issue_body _ _ _ _ _ _ _ _ _ h] at hx
  simp only [gAt, readG_fetched, ha, openBrand_fetched] at hx
  exact hx

/-! ### BRHASH and BRSEAL at issue (R515, R516, R518) -/

/-- A Brand that takes data or a seal; one whose header is poisoned is found out later. -/
def brandTakes (sl : Slice) (a : Nat) : Prop :=
  (poisonAt sl a 1).isSome ∨ brandState sl a = brOpen ∨ brandState sl a = brFailed

theorem brandIssue_ok {w : Word} {go : Nat → State} {a : Nat} (ha : brandAddr w = .inr a) (hok : brandTakes (getCore s l).sp a) :
    brandIssue s l c w go = go a := by
  simp only [brandIssue, ha]
  exact if_pos hok

theorem brandIssue_refused {w : Word} {go : Nat → State} {a : Nat} (ha : brandAddr w = .inr a)
    (hok : ¬ brandTakes (getCore s l).sp a) : brandIssue s l c w go = precise s l c sBOUNDS 6 w := by
  simp only [brandIssue, ha]
  exact if_neg hok

theorem brandIssue_bad {w : Word} {go : Nat → State} {st : Status} (ha : brandAddr w = .inl st) :
    brandIssue s l c w go = precise s l c st 6 w := by
  simp only [brandIssue, ha]

/-- The issue of a BRHASH or a BRSEAL, `go` being what it does for a Brand that takes it. -/
structure BrandIssues (s : State) (l : Lcid) (c : CtxNo) (b : BitVec 54) (i : Instr) (go : Nat → State) : Prop where
  bad     : ∀ st, brandAddr (brandWord s l c b) = .inl st →
    exec i s = .next (precise (fetched s l c) l c st 6 (brandWord s l c b))
  refused : ∀ a, brandAddr (brandWord s l c b) = .inr a → ¬ brandTakes (getCore s l).sp a →
    exec i s = .next (precise (fetched s l c) l c sBOUNDS 6 (brandWord s l c b))
  ok      : ∀ a, brandAddr (brandWord s l c b) = .inr a → brandTakes (getCore s l).sp a → exec i s = .next (go a)

theorem brandIssues {i : Instr} {go : Nat → State}
    (hi : exec i s = .next (brandIssue (fetched s l c) l c (brandWord s l c b) go)) : BrandIssues s l c b i go := by
  refine ⟨fun st ha => ?_, fun a ha hno => ?_, fun a ha hok => ?_⟩
  · rwa [brandIssue_bad ha] at hi
  · rwa [brandIssue_refused ha (by rwa [sp_fetched])] at hi
  · rwa [brandIssue_ok ha (by rwa [sp_fetched])] at hi

theorem brhash_issues (h : issues s l c b (onlyFields b [(46, 4), (42, 4), (38, 4), (20, 2)] && fld b 20 2 != 3) haulRoom) :
    BrandIssues s l c b (.brhash l c b) fun a => pushBrand (advance (fetched s l c) l c) l
      ⟨c, a, .hash (readG (ctxOf s l c) (fld b 42 4)) (readG (ctxOf s l c) (fld b 38 4)).toNat (fld b 20 2)⟩ := by
  have hx : exec (.brhash l c b) s = .next (doBrhash l c b s) := rfl
  rw [doBrhash, issue_body _ _ _ _ _ _ _ _ _ h] at hx
  simp only [gAt, readG_fetched] at hx
  exact brandIssues hx

theorem brseal_issues (h : issues s l c b (onlyFields b [(46, 4), (22, 16), (0, 6)]) haulRoom) :
    BrandIssues s l c b (.brseal l c b) fun a => pushBrand
      (modCore (advance (fetched s l c) l c) l fun k => feedQueue k (fld b 0 6) (senderWord s l c)) l
      ⟨c, a, .seal (BitVec.ofNat 16 (fld b 22 16)) (BitVec.ofNat 6 (fld b 0 6)) none⟩ := by
  have hx : exec (.brseal l c b) s = .next (doBrseal l c b s) := rfl
  rw [doBrseal, issue_body _ _ _ _ _ _ _ _ _ h] at hx
  simp only [gAt, readG_fetched] at hx
  exact brandIssues hx

theorem ctxFree_modEng (f : Engines → Engines) : CtxFree fun k => modEng k f := fun _ _ => rfl

theorem feedQueue_invalid {k : Core} {n : Nat} (w : Word) (h : (getQ k n).valid = false) : feedQueue k n w = k := by
  rw [feedQueue, h]
  rfl

theorem ctxFree_feedQueue (n : Nat) (w : Word) : CtxFree fun k => feedQueue k n w := by
  intro k xs
  dsimp only
  cases h : (getQ k n).valid with
  | true => rw [feedQueue_valid w h, feedQueue_valid w (by exact h)]; rfl
  | false => rw [feedQueue_invalid w h, feedQueue_invalid w (by exact h)]

theorem pushBrand_eq (u : State) (o : BrandOp) : pushBrand u l o =
    beginSeal (modCore u l fun k => modEng k fun e => { e with brandq := e.brandq ++ [o] }) l := rfl

end

/-! ### The front of the brand unit's queue (R518) -/

section
variable {u : State} {l : Lcid} {c : CtxNo} {a : Nat} {tag : BitVec 16} {cq : BitVec 6} {r : List BrandOp}

/-- A BRSEAL that succeeds begins: its record is taken, and STATE becomes SEALING. -/
theorem beginSeal_begins (hq : (getCore u l).eng.brandq = ⟨c, a, .seal tag cq none⟩ :: r) (hok : sealStatus u l a = sOK) :
    beginSeal u l = modCore u l fun k => modEng (modSp k fun sl => setBrand sl a brSealing 0) fun e =>
      { e with brandq := ⟨c, a, .seal tag cq (some (brandRecord u l a))⟩ :: r } := by
  simp only [beginSeal, hq, hok, if_true]

theorem beginSeal_fails (hq : (getCore u l).eng.brandq = ⟨c, a, .seal tag cq none⟩ :: r) (hno : sealStatus u l a ≠ sOK) :
    beginSeal u l = u := by
  simp only [beginSeal, hq, hno, if_false]

theorem beginSeal_empty (hq : (getCore u l).eng.brandq = []) : beginSeal u l = u := by
  simp only [beginSeal, hq]

theorem beginSeal_other {o : BrandOp} (hq : (getCore u l).eng.brandq = o :: r) (ho : ∀ tag cq, o.work ≠ .seal tag cq none) :
    beginSeal u l = u := by
  obtain ⟨c, a, work⟩ := o
  simp only [beginSeal, hq]
  split
  case h_1 heq =>
    injection heq with ho' _
    injection ho' with _ _ hw
    exact absurd hw (ho _ _)
  · rfl

end

/-! ### The unit's completions (R516, R518) -/

section
variable {s : State} {l : Lcid} {c : CtxNo} {a : Nat} {r : List BrandOp}

/-- The front operation gone from the queue, before the next may begin. -/
def poppedBrand (s : State) (l : Lcid) : State :=
  modCore s l fun k => modEng k fun e => { e with brandq := e.brandq.drop 1 }

/-- Whatever the operation has written of the slice. -/
theorem poppedBrand_core {o : BrandOp} {v : State} {sl : Slice} (hq : (getCore s l).eng.brandq = o :: r)
    (hv : getCore v l = modSp (getCore s l) fun _ => sl) :
    (getCore (poppedBrand v l) l).sp = sl ∧ (getCore (poppedBrand v l) l).eng.brandq = r := by
  rw [poppedBrand, getCore_modCore, hv]
  exact ⟨rfl, congrArg (List.drop 1) hq⟩

section
variable {w : Word} {n p : Nat} {rr : RemoteRead} (hawake : asleep s = false) (hocc : occupied s l = true)
  (hq : (getCore s l).eng.brandq = ⟨c, a, .hash w n p⟩ :: r)

include hq

/-- The end of a BRHASH that has written `sl`. -/
theorem answers_brandHash {v : State} {sl : Slice} (hx : exec (.brandHashComplete l rr) s = .next (settle (popBrand v l) l c))
    (hv : getCore v l = modSp (getCore s l) fun _ => sl) :
    answers (.brandHashComplete l rr) s fun t => ∃ u, t = settle (beginSeal u l) l c ∧
      (getCore u l).sp = sl ∧ (getCore u l).eng.brandq = r :=
  ⟨_, hx, poppedBrand v l, rfl, poppedBrand_core hq hv⟩

include hawake hocc

theorem exec_brandHash : exec (.brandHashComplete l rr) s = .next (
    if (poisonAt (getCore s l).sp a 1).isSome ∨ brandState (getCore s l).sp a ≠ brOpen then settle (popBrand s l) l c
    else match brandData s l w n rr with
      | .wait => s
      | .fail st => settle (popBrand (failBrand s l a st) l) l c
      | .bytes bs =>
        if (poisonAt (getCore s l).sp (brandPart a p) 5504).isSome then settle (popBrand (failBrand s l a sPOISON) l) l c
        else settle (popBrand (modCore s l fun k => modSp k fun sl => slPut sl (brandPart a p)
          (partBytes (feedPart (n / 4096 + 2) (readPart (getCore s l).sp (brandPart a p)) bs))) l) l c) := by
  refine exec_awake hawake rfl ?_
  simp only [doBrandHashComplete, hocc, hq, Bool.not_true, Bool.false_eq_true, if_false] <;> rfl

end

section
variable {tag : BitVec 16} {cq : BitVec 6} {held : Option (List Byte)}

/-- R518: the status of a seal at its completion; one that has begun can only have been spoilt since. -/
theorem sealOut_eq : sealOut s l a held =
    (if held.isSome then
      if (poisonAt (getCore s l).sp a 128).isSome || (partFail (getCore s l).sp (a + 128) 336).isSome then sPOISON else sOK
     else sealStatus s l a, held.getD (brandRecord s l a)) := by
  cases held <;> rfl

/-- The state with a seal's record and signature written, or its failure. -/
def sealWritten (s : State) (l : Lcid) (a : Nat) (o : Status × List Byte) : State :=
  if o.1 = sOK then modCore s l fun k => modSp k fun sl => setBrand (slPut sl (a + 128) (o.2 ++ sig96 s o.2)) a brSealed 0
  else failBrand s l a o.1

theorem getCore_sealWritten (o : Status × List Byte) : getCore (sealWritten s l a o) l = modSp (getCore s l) fun _ =>
    if o.1 = sOK then setBrand (slPut (getCore s l).sp (a + 128) (o.2 ++ sig96 s o.2)) a brSealed 0
    else setBrand (getCore s l).sp a brFailed o.1.toNat := by
  unfold sealWritten
  split
  · exact getCore_modCore ..
  · exact getCore_modCore ..

theorem complWords_poppedBrand (o : Status × List Byte) (st : Status) (kind tag count : Nat) (mask detail : Word) :
    complWords (sealWritten s l a o) st kind tag count mask detail none =
      complWords (poppedBrand (sealWritten s l a o) l) st kind tag count mask detail none := rfl

theorem exec_brandSeal (hawake : asleep s = false) (hocc : occupied s l = true)
    (hq : (getCore s l).eng.brandq = ⟨c, a, .seal tag cq held⟩ :: r) :
    exec (.brandSealComplete l) s = .next (settle (postEntry (popBrand (sealWritten s l a (sealOut s l a held)) l) l cq.toNat
      (complWords (sealWritten s l a (sealOut s l a held)) (sealOut s l a held).1 6 tag.toNat 0 0 (BitVec.ofNat 64 (a + 128)) none))
        l c) := by
  refine exec_awake hawake rfl ?_
  simp only [doBrandSealComplete, hocc, hq, Bool.not_true, Bool.false_eq_true, if_false]
  rfl

end

end

theorem onlyCore_refl (s : State) (l : Lcid) (c : CtxNo) : onlyCore s s l c (ctxOf s l c) (getCore s l) :=
  ⟨rfl, fun _ _ => rfl, rfl, fun _ _ => rfl, rfl⟩

/-- Settles O28. -/
theorem brands : Obligations.Brands := by
  unfold Obligations.Brands
  refine ⟨fun s l c b => ?issue, fun u l c a tag cq r o => ?front, fun s l c a w n p r rr hawake hocc => ?hash,
    fun s l c a tag cq r held hawake hocc => ?sealing⟩
  case issue =>
    intro k x gx a R
    refine ⟨fun h => ⟨answers_badBrand (exec_bropen_bad h), fun hal hb => ?_⟩, fun h => answers_badBrand (brhash_issues h).bad,
      fun h => answers_badBrand (brseal_issues h).bad, fun hal hb => ⟨fun h => ⟨fun hok => ?_, fun hno => ?_⟩,
      fun h => ⟨fun hok => ?_, fun hno => ?_⟩⟩⟩
    · exact ⟨_, exec_bropen h (brandAddr_ok hal hb), finish_modCore_completed _ _ _ _ _ (ctxFree_newBrand s l c _) fun _ _ => rfl⟩
    · exact ⟨_, (brhash_issues h).ok _ (brandAddr_ok hal hb) hok, _, pushBrand_eq ..,
        onlyCore_modCore (advance_completed s l c) (ctxFree_modEng _)⟩
    · exact ⟨_, (brhash_issues h).refused _ (brandAddr_ok hal hb) hno, rfl⟩
    · exact ⟨_, (brseal_issues h).ok _ (brandAddr_ok hal hb) hok, _, pushBrand_eq ..,
        onlyCore_modCore (onlyCore_modCore (advance_completed s l c) (ctxFree_feedQueue _ _)) (ctxFree_modEng _)⟩
    · exact ⟨_, (brseal_issues h).refused _ (brandAddr_ok hal hb) hno, rfl⟩
  case front =>
    refine ⟨fun hq hok => ?_, beginSeal_fails, beginSeal_empty, beginSeal_other⟩
    rw [beginSeal_begins hq hok]
    exact onlyCore_modCore (onlyCore_refl u l c) (fun _ _ => rfl)
  case hash =>
    intro sl E hq
    have hx := exec_brandHash (rr := rr) hawake hocc hq
    refine ⟨fun hbad => ?_, fun hgood hopen => ?_⟩
    · rw [if_pos hbad] at hx
      exact answers_brandHash hq hx rfl
    · rw [if_neg (by simp [hgood, hopen, sl])] at hx
      refine ⟨fun hd => ⟨_, ?_, rfl⟩, fun st hd => ?_, fun bs hd hbad => ?_, fun bs hd hgood => ?_⟩
      all_goals simp only [hd] at hx
      · exact hx
      · exact answers_brandHash hq hx (getCore_modCore ..)
      · rw [if_pos hbad] at hx
        exact answers_brandHash hq hx (getCore_modCore ..)
      · rw [if_neg (by simp [show poisonAt (getCore s l).sp (brandPart a p) 5504 = none from hgood])] at hx
        exact answers_brandHash hq hx (getCore_modCore ..)
  case sealing =>
    intro spoilt st rec' hq
    have hx := exec_brandSeal hawake hocc hq
    rw [complWords_poppedBrand, sealOut_eq] at hx
    exact ⟨_, hx, _, rfl, (poppedBrand_core hq (getCore_sealWritten _)).2, (poppedBrand_core hq (getCore_sealWritten _)).1⟩

end Sys2Proof.Machine
end

section
/-! PROOFS. Rejected writes (R558, R559, Table 22.2). -/

namespace Sys2Proof.Machine

/-! ### The write-reject registers -/

/-- The fields of a word of VALID, a 4-bit reason, a 5-bit writer, a 16-bit count and a 26-bit offset. -/
theorem rejectWord_fields {reason writer n off : Nat} (hr : reason < 16) (hw : writer < 32) (hn : n < 2 ^ 16) (ho : off < 2 ^ 26) :
    let v : Word := wd (2 ^ 63 + reason % 16 * 2 ^ 56 + writer % 32 * 2 ^ 48 + n * 2 ^ 32 + off % 2 ^ 26)
    v.getLsbD 63 = true ∧ fld v 56 4 = reason ∧ fld v 48 5 = writer ∧ fld v 0 26 = off ∧ fld v 32 16 = n := by
  intro v
  have hv : v.toNat = 2 ^ 63 + reason * 2 ^ 56 + writer * 2 ^ 48 + n * 2 ^ 32 + off := by
    simp only [v, wd, BitVec.toNat_ofNat]
    omega
  refine ⟨?_, ?_, ?_, ?_, ?_⟩
  · rw [BitVec.getLsbD, Nat.testBit_eq_decide_div_mod_eq, hv, decide_eq_true_eq]
    omega
  all_goals
    simp only [fld, Nat.shiftRight_eq_div_pow, hv]
    omega

/-- R559: what a rejected write changes. -/
theorem reject_fields (s : State) {blk reason writer off : Nat} (hr : reason < 16) (hw : writer < 32) (ho : off < 2 ^ 26) :
    let t := reject s blk reason writer off
    let v := wrejWord t blk
    v.getLsbD 63 = true ∧ fld v 56 4 = reason ∧ fld v 48 5 = writer ∧ fld v 0 26 = off ∧
      fld v 32 16 = min (fld (wrejWord s blk) 32 16 + 1) 0xFFFF ∧ (∀ b, b ≠ blk → wrejWord t b = wrejWord s b) ∧
      { t with wrej := [] } = { s with wrej := [] } := by
  intro t v
  have hv : v = wd (2 ^ 63 + reason % 16 * 2 ^ 56 + writer % 32 * 2 ^ 48 + satAdd 16 (fld (wrejWord s blk) 32 16) 1 * 2 ^ 32 +
    off % 2 ^ 26) := tget_tput_same ..
  have hcount : satAdd 16 (fld (wrejWord s blk) 32 16) 1 < 2 ^ 16 := by
    unfold satAdd
    omega
  obtain ⟨hvalid, hreason, hwriter, hoff, hn⟩ := rejectWord_fields hr hw hcount ho
  rw [← hv] at hvalid hreason hwriter hoff hn
  exact ⟨hvalid, hreason, hwriter, hoff, hn, fun b hb => tget_tput_other _ _ _ _ _ hb, rfl⟩

/-! ### Writes of a core's registers (Table 22.2) -/

section
variable {s : State} {l : Lcid} {w : Wr} {off : Nat} {reserved cond : Bool} {f : State → State}

theorem byLookout_of_ne (h : w.writer.toNat ≠ 31) : byLookout w.writer.toNat = false := by
  simpa [byLookout, lookoutWriter] using h

/-- R367: a function that does not serve writes nothing. -/
theorem coreSet_unserved (h : w.writer.toNat ≠ 31) (hfn : fnServes s w.writer.toNat = false) :
    coreSet s l w off reserved cond f = s := by
  simp [coreSet, coreWrite, guardWrite, byLookout_of_ne h, hfn]

theorem coreSet_other (h : w.writer.toNat ≠ 31) (hfn : fnServes s w.writer.toNat = true) :
    coreSet s l w off reserved cond f =
      reject (hostAccess s w.writer.toNat) (writerBlk w.writer.toNat) 3 w.writer.toNat (coreBlk l + off) := by
  simp [coreSet, coreWrite, guardWrite, byLookout_of_ne h, hfn]

section
variable (h : w.writer.toNat = 31) (hfused : fusedCore s l = false)

include h hfused

/-- The Lookout's write at a position that no site serves. -/
theorem coreSet_vacant (hocc : occupied s l = false) :
    coreSet s l w off reserved cond f = reject s (coreBlk l) 5 w.writer.toNat (coreBlk l + off) := by
  simp [coreSet, coreWrite, guardWrite, h, byLookout, lookoutWriter, coreGone, hfused, hocc, hostAccess]

theorem coreSet_occupied (hocc : occupied s l = true) : coreSet s l w off reserved cond f =
    if reserved then reject s (coreBlk l) 1 w.writer.toNat (coreBlk l + off)
    else if !(cond && !asleep s) then reject s (coreBlk l) 2 w.writer.toNat (coreBlk l + off) else f s := by
  simp [coreSet, coreWrite, guardWrite, h, byLookout, lookoutWriter, coreGone, hfused, hocc, hostAccess]

end

end

/-- Settles O29. -/
theorem rejectedWrites : Obligations.RejectedWrites := by
  unfold Obligations.RejectedWrites
  refine ⟨fun s blk reason writer off _ hr hw ho => reject_fields s hr hw ho, fun s l w inb d => ?_⟩
  intro n v off
  refine ⟨fun h hfn => ⟨_, rfl, coreSet_unserved h hfn⟩, fun h hfn => ⟨_, rfl, coreSet_other h hfn⟩, fun h hfused =>
    ⟨fun hocc => ⟨_, rfl, coreSet_vacant h hfused hocc⟩, fun hocc => ?_⟩⟩
  have hx : exec (.linkRegisterWrite l inb d w) s = .next (doLinkRegisterWrite l inb d w s) := rfl
  rw [doLinkRegisterWrite, coreSet_occupied h hfused hocc] at hx
  refine ⟨fun hres => ?_, fun hres hno => ?_, fun hres hidle hawake => ?_⟩
  · rw [if_pos hres] at hx
    exact ⟨_, hx, by simp only [off, Nat.add_assoc, n]⟩
  · have hcond : (!(roleIdle (getCore s l) && !asleep s)) = true := by
      rcases hno with h | h <;> simp [h]
    rw [if_neg (by simpa [v] using hres), if_pos hcond] at hx
    exact ⟨_, hx, by simp only [off, Nat.add_assoc, n]⟩
  · rw [if_neg (by simpa [v] using hres), if_neg (by simp [hidle, hawake])] at hx
    refine ⟨_, hx, ?_, stateRest_modCore .., fun l' hl => getCore_modCore_other _ _ _ _ hl⟩
    rw [getCore_modCore]
    exact getLink_setLink ..

end Sys2Proof.Machine
end

section
/-! PROOFS. The Lookout's context commands and HOLD_ALL (R164, R185, Tables 06.11 to 06.13). -/

namespace Sys2Proof.Machine

/-! ### Start records (R481) and the contexts that a start makes (Table 06.1) -/

/-- What a start record leaves: every other context, and of this one all but the note that it has a record. -/
theorem startRecord_frame (k : Core) (c : CtxNo) :
    (startRecord k c).un = k.un ∧ (startRecord k c).notices = k.notices ∧
    (∀ c', c' ≠ c → getCtx (startRecord k c) c' = getCtx k c') ∧
    ∃ b, getCtx (startRecord k c) c = { getCtx k c with hasRec := b } := by
  unfold startRecord
  split
  · extract_lets x rseq n ws k1
    obtain ⟨hctxs, -, -, hun, hnotices⟩ := freeKept_fields { k1 with ring := { k1.ring with seq := BitVec.ofNat 48 rseq } } c
    refine ⟨hun, hnotices, fun c' h => ?_, true, ?_⟩
    · rw [getCtx_modCtx_other _ _ _ _ h, getCtx, hctxs]
      rfl
    · rw [getCtx_modCtx, getCtx, hctxs]
      rfl
  · exact ⟨rfl, rfl, fun _ _ => rfl, _, rfl⟩

/-- Table 06.1: the values that a start gives a context. -/
def startValues (k : Core) (pc : BitVec 21) (g1 g2 g3 : Word) (origin : BitVec 2) (hidx : BitVec 12) (src : StartSrc) : Ctx :=
  writeG (writeG (writeG { Ctx.zero with st := .ready, pc := pc, origin := origin, handler := hidx, src := src
                                         epoch := BitVec.ofNat 16 (fld k.role 48 16) } 1 g1) 2 g2) 3 g3

section
variable (k : Core) (c : CtxNo) (pc : BitVec 21) (g1 g2 g3 : Word) (origin : BitVec 2) (hidx : BitVec 12) (src : StartSrc)

theorem startCtx_frame :
    let k' := startCtx k c pc g1 g2 g3 origin hidx src
    k'.un = k.un ∧ k'.notices = k.notices ∧ (∀ c', c' ≠ c → getCtx k' c' = getCtx k c') ∧
    ∃ b, getCtx k' c = { startValues k pc g1 g2 g3 origin hidx src with hasRec := b } := by
  intro k'
  obtain ⟨h1, h2, h3, b, h4⟩ := startRecord_frame (setCtx k c (startValues k pc g1 g2 g3 origin hidx src)) c
  rw [getCtx_setCtx] at h4
  exact ⟨h1, h2, fun c' h => (h3 c' h).trans (getCtx_setCtx_other _ _ _ _ h), b, h4⟩

theorem startValues_fields :
    let x := startValues k pc g1 g2 g3 origin hidx src
    x.st = .ready ∧ x.pc = pc ∧ x.src = src ∧ x.origin = origin :=
  ⟨rfl, rfl, rfl, rfl⟩

/-- A start by the Lookout leaves every register zero (Table 06.12). -/
theorem readG_startValues_zero (i : Nat) : readG (startValues k pc 0 0 0 origin hidx src) i = 0 := by
  unfold readG
  split <;> rfl

end

/-! ### The commands (Tables 06.12 and 06.13) -/

section
variable {k : Core} (pc : Nat)

theorem cmdOk_hold : cmdOk k 1 pc = true ↔ k.recHold = false ∧ ((getCtx k k.ctxSel).st = .ready ∨ (getCtx k k.ctxSel).st = .waiting ∨
    (getCtx k k.ctxSel).st = .parked ∨ (getCtx k k.ctxSel).st = .faulted) := by
  simp only [cmdOk, Bool.and_eq_true, Bool.or_eq_true, Bool.not_eq_true', decide_eq_true_iff, or_assoc]

theorem cmdOk_release : cmdOk k 2 pc = true ↔ k.recHold = false ∧ (getCtx k k.ctxSel).st = .held ∧
    (getCtx k k.ctxSel).byRec = false ∧ k.ctrl.getLsbD 1 = false := by
  simp only [cmdOk, Bool.and_eq_true, Bool.not_eq_true', decide_eq_true_iff, bit_eq_getLsbD, and_assoc]

theorem cmdOk_free : cmdOk k 3 pc = true ↔ k.recHold = false ∧ ((getCtx k k.ctxSel).st = .held ∨ (getCtx k k.ctxSel).st = .faulted) := by
  simp only [cmdOk, Bool.and_eq_true, Bool.or_eq_true, Bool.not_eq_true', decide_eq_true_iff]

theorem cmdOk_start : cmdOk k 4 pc = true ↔ k.recHold = false ∧ (getCtx k k.ctxSel).st = .free ∧
    (k.ctrl.getLsbD 1 = false ∧ k.recHold = false) ∧ pc % 8 = 0 := by
  simp only [cmdOk, Bool.and_eq_true, Bool.not_eq_true', decide_eq_true_iff, mayStart, bit_eq_getLsbD, beq_iff_eq, and_assoc]

theorem cmdOk_freeAll : cmdOk k 5 pc = true ↔ k.recHold = false ∧ quietCore k = true := by
  simp only [cmdOk, Bool.and_eq_true, Bool.not_eq_true']

end

section
variable {s : State} {l : Lcid} {w : Wr} (h : w.writer.toNat = 31) (hfused : fusedCore s l = false)
  (hocc : occupied s l = true) (hawake : asleep s = false)

/-- The address that a START names. -/
def cmdPc (w : Wr) : Nat := fld (mergeHalf w.half 0 w.value) 32 21

include h hfused hocc hawake

theorem ctxCmd_lookout {code : Nat} (hcode : code < 6) : ctxCmd code l w s =
    if code == 4 && sweptPos s l then
      { s with check := { s.check with starts := s.check.starts ++ [(l, (getCore s l).ctxSel, BitVec.ofNat 21 (cmdPc w))] } }
    else if cmdOk (getCore s l) code (cmdPc w) then runCmd s l code (cmdPc w) else modCore s l rejectCmd := by
  rw [ctxCmd, coreSet_occupied h hfused hocc, if_neg (by simpa using hcode), if_neg (by simp [hawake])]
  rfl

theorem ctxCmd_rejected {code : Nat} (hcode : code < 6) (hswept : code = 4 → sweptPos s l = false)
    (hok : cmdOk (getCore s l) code (cmdPc w) = false) :
    ctxCmd code l w s = setCore s l { getCore s l with rejected := true } := by
  rw [ctxCmd_lookout h hfused hocc hawake hcode, if_neg, hok, if_neg Bool.false_ne_true]
  · rfl
  · simpa using hswept

theorem ctxCmd_accepted {code : Nat} (hcode : code < 6) (hswept : code = 4 → sweptPos s l = false)
    (hok : cmdOk (getCore s l) code (cmdPc w) = true) : ctxCmd code l w s = runCmd s l code (cmdPc w) := by
  rw [ctxCmd_lookout h hfused hocc hawake hcode, if_neg, if_pos hok]
  simpa using hswept

theorem doHoldAll_lookout : doHoldAll l w s = modCore s l fun k => setCtrl k (ctrlBits (mergeHalf w.half k.ctrl w.value)) := by
  rw [doHoldAll, coreSet_occupied h hfused hocc, if_neg Bool.false_ne_true, if_neg (by simp [hawake])]

end

/-! ### FREE_ALL -/

theorem mem_of_tget_ne {α : Type} {d : α} {t : Tbl α} {i : Nat} (h : tget d t i ≠ d) : (i, tget d t i) ∈ t := by
  induction t with
  | nil => exact absurd rfl h
  | cons p r ih =>
    obtain ⟨j, v⟩ := p
    rw [tget] at h ⊢
    split at h
    case isTrue hj => rw [if_pos hj, hj]; exact List.mem_cons_self
    case isFalse hj => rw [if_neg hj]; exact List.mem_cons_of_mem _ (ih h)

/-- Every context of core `l` is FREE, or HELD with nothing outstanding; the other cores are those of `s`. -/
def QuietFrom (s : State) (l : Lcid) (t : State) : Prop :=
  (∀ c, (ctxOf t l c).st = .free ∨ (ctxOf t l c).st = .held ∧ busyCtx (getCore t l) c = false) ∧
    ∀ l', l' ≠ l → getCore t l' = getCore s l'

theorem outstandingOps_freeCtx (s : State) (l : Lcid) (c : CtxNo) :
    outstandingOps (getCore (freeCtx s l c) l) = outstandingOps (getCore s l) := by
  rw [freeCtx_eq]
  split_ifs
  · exact outstandingOps_freeingState s l c
  · exact outstandingOps_freeingState s l c
  · exact (outstandingOps_toFree ..).trans (outstandingOps_freeingState s l c)

section
variable {s t : State} {l : Lcid}

/-- A context of a quiet core is FREE once it is freed; the others are as before. -/
theorem QuietFrom.freed (hq : QuietFrom s l t) (c : CtxNo) : FreedOnly t l c (freeCtx t l c) := by
  obtain ⟨hctx, -⟩ := hq
  rcases hctx c with hfree | ⟨hheld, hidle⟩
  · obtain ⟨hat, hother, hcores⟩ := freeingState_frame t l c
    rw [freeCtx_eq, if_pos hfree]
    exact ⟨by rw [hat]; exact hfree, hother, hcores⟩
  · exact freeCtx_idle (by simp [hheld]) hidle

theorem QuietFrom.freeCtx (hq : QuietFrom s l t) (c : CtxNo) : QuietFrom s l (freeCtx t l c) := by
  obtain ⟨hfree, hother, hcores⟩ := hq.freed c
  obtain ⟨hctx, hco⟩ := hq
  refine ⟨fun c' => ?_, fun l' hl => (hcores l' hl).trans (hco l' hl)⟩
  by_cases hc : c' = c
  · subst hc
    exact .inl hfree
  · rw [hother c' hc, busyCtx_congr (outstandingOps_freeCtx t l c)]
    exact hctx c'

/-- Every context freed in turn is FREE, and so is every one that was. -/
theorem QuietFrom.foldl (hq : QuietFrom s l t) (cs : List CtxNo) :
    QuietFrom s l (cs.foldl (fun s c => Machine.freeCtx s l c) t) ∧
      ∀ c, (ctxOf t l c).st = .free ∨ c ∈ cs → (ctxOf (cs.foldl (fun s c => Machine.freeCtx s l c) t) l c).st = .free := by
  induction cs generalizing t with
  | nil => exact ⟨hq, fun c hc => hc.elim id fun h => absurd h List.not_mem_nil⟩
  | cons a r ih =>
    obtain ⟨hfree, hother, -⟩ := hq.freed a
    obtain ⟨hquiet, hr⟩ := ih (hq.freeCtx a)
    refine ⟨hquiet, fun c hc => hr c ?_⟩
    by_cases hca : c = a
    · subst hca
      exact .inl hfree
    · rw [hother c hca]
      exact hc.imp id fun hmem => (List.mem_cons.1 hmem).resolve_left hca

theorem quietFrom_of_quietCore (h : quietCore (getCore s l) = true) : QuietFrom s l s := by
  refine ⟨fun c => ?_, fun _ _ => rfl⟩
  by_cases hz : getCtx (getCore s l) c = Ctx.zero
  · left
    rw [← getCtx_getCore, hz]
    rfl
  · have hq := List.all_eq_true.1 h _ (mem_of_tget_ne hz)
    simpa [quietCtx, getCtx_getCore] using hq

/-- The HELD contexts of a core are among those that FREE_ALL frees. -/
theorem mem_heldOrFaulted {k : Core} {c : CtxNo} (h : (getCtx k c).st = .held) : c ∈ heldOrFaulted k := by
  have hz : getCtx k c ≠ Ctx.zero := fun h0 => by rw [h0] at h; exact absurd h (by decide)
  refine List.mem_map.2 ⟨_, List.mem_filter.2 ⟨mem_of_tget_ne hz, ?_⟩, by simp⟩
  have h' : (tget Ctx.zero k.ctxs c.toNat).st = .held := h
  simp [h']

theorem freeAll_free (h : quietCore (getCore s l) = true) :
    let t := (heldOrFaulted (getCore s l)).foldl (fun s c => Machine.freeCtx s l c) s
    (∀ c, (ctxOf t l c).st = .free) ∧ ∀ l', l' ≠ l → getCore t l' = getCore s l' := by
  have hq := quietFrom_of_quietCore h
  obtain ⟨⟨-, hcores⟩, hfree⟩ := hq.foldl (heldOrFaulted (getCore s l))
  refine ⟨fun c => hfree c ?_, hcores⟩
  exact (hq.1 c).imp id fun hheld => mem_heldOrFaulted hheld.1

end

/-- Settles O30. -/
theorem contextCommands : Obligations.ContextCommands := by
  unfold Obligations.ContextCommands
  intro s l w h hfused hocc hawake k c x v pc others rejected
  refine ⟨fun hno => ⟨_, rfl, ?_⟩, fun hno => ⟨_, rfl, ?_⟩, fun hno => ⟨_, rfl, ?_⟩, fun hsw hno => ⟨_, rfl, ?_⟩,
    fun hsw => ⟨_, rfl, ?_⟩, fun hno => ⟨_, rfl, ?_⟩, fun hrec hst => ⟨_, rfl, ?hold⟩, fun hrec hst hby hall => ⟨_, rfl, ?release⟩,
    fun hrec hst => ⟨_, rfl, ?free⟩, fun hrec hsw hst hall hpc => ⟨_, rfl, ?start⟩, fun hrec hquiet => ⟨_, rfl, ?freeAll⟩, ?holdAll⟩
  · exact ctxCmd_rejected h hfused hocc hawake (by decide) (by simp) hno
  · exact ctxCmd_rejected h hfused hocc hawake (by decide) (by simp) hno
  · exact ctxCmd_rejected h hfused hocc hawake (by decide) (by simp) hno
  · exact ctxCmd_rejected h hfused hocc hawake (by decide) (fun _ => hsw) hno
  · rw [ctxCmd_lookout h hfused hocc hawake (by decide), hsw]
    rfl
  · exact ctxCmd_rejected h hfused hocc hawake (by decide) (by simp) hno
  case hold =>
    have hx : x.st ≠ .free ∧ x.st ≠ .held := by rcases hst with h | h | h | h <;> simp [h]
    rw [ctxCmd_accepted h hfused hocc hawake (by decide) (by simp) ((cmdOk_hold _).2 ⟨hrec, hst⟩)]
    have hframe := modCtxOf_frame s l c fun x => holdCtx x false
    rw [holdCtx, if_neg hx.1, if_neg hx.2] at hframe
    exact hframe
  case release =>
    rw [ctxCmd_accepted h hfused hocc hawake (by decide) (by simp) ((cmdOk_release _).2 ⟨hrec, hst, hby, hall⟩)]
    have hframe := modCtxOf_frame s l c releaseCtx
    rw [releaseCtx, if_pos hst] at hframe
    exact hframe
  case free =>
    have hne : x.st ≠ .free := by rcases hst with h | h <;> simp [h]
    rw [ctxCmd_accepted h hfused hocc hawake (by decide) (by simp) ((cmdOk_free _).2 ⟨hrec, hst⟩)]
    refine ⟨freeCtx_others hne, fun hidle => (freeCtx_idle hne hidle).1, fun hbusy => ?_⟩
    have hx : runCmd s l 3 (cmdPc w) = freeingState s l c := freeCtx_busy hne hbusy
    rw [hx, (freeingState_frame s l c).1]
    exact ⟨rfl, rfl⟩
  case start =>
    rw [ctxCmd_accepted h hfused hocc hawake (by decide) (fun _ => hsw)
      ((cmdOk_start _).2 ⟨hrec, hst, ⟨hall, hrec⟩, hpc⟩)]
    obtain ⟨-, -, hother, b, hself⟩ := startCtx_frame k c (BitVec.ofNat 21 (cmdPc w)) 0 0 0 2 0 .none
    have hctx : ctxOf (runCmd s l 4 (cmdPc w)) l c =
        { startValues k (BitVec.ofNat 21 (cmdPc w)) 0 0 0 2 0 .none with hasRec := b } := by
      rw [← hself, ← getCtx_getCore]
      exact congrArg (getCtx · c) (getCore_setCore ..)
    obtain ⟨hready, hpc', -, horigin⟩ := startValues_fields k (BitVec.ofNat 21 (cmdPc w)) 0 0 0 2 0 .none
    dsimp only [others]
    rw [hctx]
    refine ⟨hready, hpc', horigin, fun i => readG_startValues_zero k (BitVec.ofNat 21 (cmdPc w)) 2 0 .none i, fun c' hc => ?_,
      fun l' hl => getCore_setCore_other _ _ _ _ hl⟩
    rw [← getCtx_getCore, ← getCtx_getCore, ← hother c' hc]
    exact congrArg (getCtx · c') (getCore_setCore ..)
  case freeAll =>
    rw [ctxCmd_accepted h hfused hocc hawake (by decide) (by simp) ((cmdOk_freeAll _).2 ⟨hrec, hquiet⟩)]
    exact freeAll_free hquiet
  case holdAll =>
    intro u hrec hu
    refine ⟨_, rfl, ?_⟩
    rw [doHoldAll_lookout h hfused hocc hawake]
    refine ⟨rfl, ?_, fun l' hl => getCore_modCore_other _ _ _ _ hl⟩
    rw [getCore_modCore]
    exact (if_neg (by simpa using hrec)).trans (if_pos hu)

end Sys2Proof.Machine
end

section
/-! PROOFS. Roles (R174, R175), the configuration of sync objects (R270), and the assignment of groves (R415, R524, R562). -/

namespace Sys2Proof.Machine

/-- R558: the Lookout's write of a register that it may write, of a block that is there. -/
theorem guardWrite_lookout_judged (s : State) (blk off : Nat) (reserved cond : Bool) (f : State → State) :
    guardWrite s 31 blk off true none reserved cond f =
      if reserved then reject s blk 1 31 off else if !cond then reject s blk 2 31 off else f s := rfl

/-! ### Roles -/

theorem units_nothing_waits {u : Units} (hhold : u.hold = []) (hstarts : u.starts = []) :
    { u with hold := [], starts := [] } = u := by
  obtain ⟨⟩ := u
  simp only at hhold hstarts
  subst hhold hstarts
  rfl

/-- Nothing waits at a core: nothing is bounced. -/
theorem bounceWaiting_idle {s : State} {l : Lcid} (st : Status) (hhold : (getCore s l).un.hold = [])
    (hstarts : (getCore s l).un.starts = []) : getCore (bounceWaiting s l st) l = getCore s l := by
  simp only [bounceWaiting, hhold, hstarts, List.filterMap_nil, List.map_nil, List.append_nil, List.foldl_nil]
  rw [getCore_modCore, modUn]
  simp only [hstarts, List.filter_nil, units_nothing_waits hhold hstarts]

section
variable {s : State} {l : Lcid} {w : Wr} (h : w.writer.toNat = 31) (hfused : fusedCore s l = false)
  (hocc : occupied s l = true) (hawake : asleep s = false)

include h hfused hocc hawake

theorem doCoreRoleWrite_lookout (v : Word) (hv : mergeHalf w.half (getCore s l).role w.value = v) :
    doCoreRoleWrite l w s = if roleIdle (getCore s l) = true ∧ fld v 44 4 = (corePart s l).toNat then setRole s l v
      else reject s (coreBlk l) 2 31 (coreBlk l + 0x10) := by
  subst hv
  rw [doCoreRoleWrite, coreSet_occupied h hfused hocc, if_neg Bool.false_ne_true, h, hawake, Bool.not_false, Bool.and_true]
  by_cases hok : roleIdle (getCore s l) = true ∧ fld (mergeHalf w.half (getCore s l).role w.value) 44 4 = (corePart s l).toNat
  · rw [if_pos hok, if_neg]
    simp [hok.1, hok.2]
  · rw [if_neg hok, if_pos]
    simpa [imp_iff_not_or] using hok

end

/-! ### Sync objects -/

section
variable {s : State} {dg : Dg} {n : BitVec 7} {w : Wr} (h : w.writer.toNat = 31) (hfused : (getGrove s dg).fused = false)

/-- The value that a write gives an object's configuration. -/
def cfgWritten (s : State) (dg : Dg) (n : BitVec 7) (w : Wr) : Word :=
  syncCfgBits (mergeHalf w.half (getObj (getGrove s dg) n.toNat).cfg w.value)

include h hfused

theorem doSyncCfgWrite_lookout {v : Word} (hv : cfgWritten s dg n w = v) : doSyncCfgWrite dg n w s =
    if syncCfgBad v then reject s (groveBlk dg) 1 31 (groveBlk dg + 0x1000 + 16 * n.toNat)
    else if !!((getGrove s dg).waiters.any fun x => x.obj == n.toNat) then
      reject s (groveBlk dg) 2 31 (groveBlk dg + 0x1000 + 16 * n.toNat)
    else modGrove s dg fun g => setObj g n.toNat (freshObj (getObj g n.toNat) v) := by
  have hgone : groveGone s 31 dg = none := by rw [groveGone, hfused]; rfl
  subst hv
  rw [doSyncCfgWrite, h, hgone, show groveWriter s 31 dg = true from rfl]
  exact guardWrite_lookout_judged ..

end

/-! ### Partition assignment (R415, R524, R562) -/

section
variable {s : State} {dg : Dg} {w : Wr} (h : w.writer.toNat = 31) (hfused : (getGrove s dg).fused = false)

/-- A roll or a recalibration runs in the grove, or an earlier write waits for one. -/
def moveWaits (s : State) (dg : Dg) : Bool :=
  (groveServed s dg && !(pgroveWord s dg).getLsbD 63) || s.live.moves.any fun m => m.1 == dg

theorem doGroveMove_eq : doGroveMove dg w s =
    if moveWaits s dg then { s with live := { s.live with moves := s.live.moves ++ [(dg, w)] } } else partGroveWrite dg w s := by
  simp only [doGroveMove, moveWaits, Bool.or_eq_true, bit_eq_getLsbD]

/-- The value that a write gives PART_GROVEk. -/
def assignment (s : State) (dg : Dg) (w : Wr) : Word :=
  keepFields (mergeHalf w.half (pgroveWord s dg) w.value) [(4, 1), (0, 4)]

/-- R415, R562: the write takes an idle grove out of its partition. -/
def releases (s : State) (dg : Dg) (v : Word) : Bool := bit (pgroveWord s dg) 4 && !bit v 4 && groveIdle s dg

/-- The write puts an unassigned grove into a partition. -/
def joins (s : State) (dg : Dg) (v : Word) : Bool := !bit (pgroveWord s dg) 4 && !bit (pgroveWord s dg) 63 && bit v 4

include h hfused

theorem partGroveWrite_lookout {v : Word} (hv : assignment s dg w = v) : partGroveWrite dg w s =
    if !((releases s dg v || joins s dg v) && !partLocked s dg (fld v 0 4)) then reject s 0x2000 2 31 (0x2000 + 8 * dg.toNat)
    else if joins s dg v then { s with pgrove := tput 0x10 s.pgrove dg.toNat v }
    else { s with pgrove := tput 0x10 s.pgrove dg.toNat (wd (2 ^ 63 + fld v 0 4)), sanDue := tput 0 s.sanDue dg.toNat (now s + 51) } := by
  have hgone : groveGone s 31 dg = none := by rw [groveGone, hfused]; rfl
  subst hv
  rw [partGroveWrite, h, hgone]
  exact guardWrite_lookout_judged ..

theorem partGroveWrite_locked (hlock : partLocked s dg (fld (assignment s dg w) 0 4) = true) :
    partGroveWrite dg w s = reject s 0x2000 2 31 (0x2000 + 8 * dg.toNat) := by
  rw [partGroveWrite_lookout h hfused rfl, hlock, Bool.not_true, Bool.and_false, Bool.not_false, if_pos rfl]

variable {v : Word} (hv : assignment s dg w = v) (hlock : partLocked s dg (fld v 0 4) = false)

include hv hlock

theorem partGroveWrite_joins (hj : joins s dg v = true) :
    partGroveWrite dg w s = { s with pgrove := tput 0x10 s.pgrove dg.toNat v } := by
  rw [partGroveWrite_lookout h hfused hv, hlock, hj, Bool.or_true, Bool.not_false, Bool.and_true, Bool.not_true,
    if_neg Bool.false_ne_true, if_pos rfl]

theorem partGroveWrite_releases (hr : releases s dg v = true) (hj : joins s dg v = false) :
    partGroveWrite dg w s = { s with
      pgrove := tput 0x10 s.pgrove dg.toNat (wd (2 ^ 63 + fld v 0 4)), sanDue := tput 0 s.sanDue dg.toNat (now s + 51) } := by
  rw [partGroveWrite_lookout h hfused hv, hlock, hr, hj, Bool.true_or, Bool.not_false, Bool.and_true, Bool.not_true,
    if_neg Bool.false_ne_true, if_neg Bool.false_ne_true]

end

/-- What a write of one PART_GROVEk makes of the registers. -/
theorem pgroveWord_tput {s t : State} {dg : Dg} {word : Word} (hfused : (getGrove s dg).fused = false) (hgroves : t.groves = s.groves)
    (hp : t.pgrove = tput 0x10 s.pgrove dg.toNat word) :
    pgroveWord t dg = word ∧ ∀ d, d ≠ dg → pgroveWord t d = pgroveWord s d := by
  have hsame : ∀ d, getGrove t d = getGrove s d := fun d => by rw [getGrove, hgroves, getGrove]
  refine ⟨?_, fun d hd => ?_⟩
  · rw [pgroveWord, hsame, hfused, if_neg Bool.false_ne_true, hp, tget_tput_same]
  · rw [pgroveWord, hsame, hp, tget_tput_other _ _ _ _ _ fun h => hd (BitVec.eq_of_toNat_eq h), pgroveWord]

/-! ### Sanitising (R415) -/

/-- What sanitising leaves of a position. -/
structure Sanitised (k : Core) : Prop where
  mem    : k.sp.mem = []
  bad    : k.sp.bad = []
  acc    : k.eng.acc = []
  owners : k.eng.tdOwner = []
  queues : k.un.queues = []

/-- Every position of the grove is sanitised, and no grove's FUSED has changed since `s`. -/
structure GroveSanitised (s : State) (dg : Dg) (t : State) : Prop where
  cores : ∀ l, dgOf l = dg → Sanitised (getCore t l)
  fused : ∀ d, (getGrove t d).fused = (getGrove s d).fused

namespace GroveSanitised

variable {s t : State} {dg : Dg}

/-- A change of one core that leaves a sanitised position so. -/
theorem modCore (ht : GroveSanitised s dg t) (l : Lcid) {f : Core → Core} (hf : ∀ k, Sanitised k → Sanitised (f k)) :
    GroveSanitised s dg (modCore t l f) := by
  refine ⟨fun l' hl' => ?_, ht.fused⟩
  by_cases h : l' = l
  · subst h
    rw [getCore_modCore]
    exact hf _ (ht.cores l' hl')
  · rw [getCore_modCore_other _ _ _ _ h]
    exact ht.cores l' hl'

theorem modGrove (ht : GroveSanitised s dg t) (d : Dg) {f : Grove → Grove} (hf : ∀ g, (f g).fused = g.fused) :
    GroveSanitised s dg (modGrove t d f) := by
  refine ⟨ht.cores, fun d' => ?_⟩
  by_cases h : d' = d
  · subst h
    rw [getGrove_modGrove, hf]
    exact ht.fused d'
  · rw [getGrove_modGrove_other _ _ _ _ h]
    exact ht.fused d'

theorem raise (ht : GroveSanitised s dg t) (r : Rpt) : GroveSanitised s dg (raise t r) := ⟨ht.cores, ht.fused⟩

theorem enterBuf_fused (g : Grove) (q : InPkt) : (enterBuf g q).fused = g.fused := by
  unfold enterBuf
  split <;> rfl

theorem sendUnit (ht : GroveSanitised s dg t) (d : Dg) (p : Pkt) : GroveSanitised s dg (sendUnit t d p) := by
  unfold Machine.sendUnit inject injectAs
  refine modGrove (modGrove ht _ ?_) _ ?_
  · exact fun _ => rfl
  · exact fun g => enterBuf_fused g _

/-- A reply of a grove's own unit. -/
theorem reply (ht : GroveSanitised s dg t) (d : Dg) (req p : Pkt) : GroveSanitised s dg (reply t (.unit d) req p) := by
  have hvia : ∀ q, GroveSanitised s dg (sendVia t (.unit d) q) := fun q => ht.sendUnit d q
  have hfar : ∀ q did src dst, GroveSanitised s dg (sendFar t (.unit d) q did src dst) := fun q did src dst => by
    unfold sendFar
    split
    · exact hvia _
    · exact ht
  unfold Machine.reply
  split
  · exact hfar ..
  · dsimp only
    split_ifs <;> exact hvia _

theorem loseEntry (ht : GroveSanitised s dg t) (l : Lcid) (w : Word) : GroveSanitised s dg (loseEntry t l w) := by
  unfold Machine.loseEntry
  refine raise (modCore ht l ?_) _
  exact fun k hk => ⟨hk.mem, hk.bad, hk.acc, hk.owners, hk.queues⟩

/-- What happens at a position of another grove. -/
theorem setCore_away (ht : GroveSanitised s dg t) {l : Lcid} (hl : dgOf l ≠ dg) (k : Core) : GroveSanitised s dg (setCore t l k) :=
  ⟨fun l' hl' => by
    rw [getCore_setCore_other _ _ _ _ fun h : l' = l => hl (h.symm ▸ hl')]
    exact ht.cores l' hl', ht.fused⟩

/-- A sanitised position has no completion queue: an entry for it is lost. -/
theorem postQ63 (ht : GroveSanitised s dg t) (l : Lcid) (ws : List Word) : GroveSanitised s dg (postQ63 t l ws) := by
  unfold Machine.postQ63
  dsimp only
  by_cases hl : dgOf l = dg
  · have hq : getQ (getCore t l) 63 = Queue.zero := by rw [getQ, (ht.cores l hl).queues]; rfl
    rw [hq]
    exact ht.loseEntry l _
  · split
    · split
      · exact ht.setCore_away hl _
      · exact ht.loseEntry l _
    · exact ht.loseEntry l _

theorem dropSync (ht : GroveSanitised s dg t) (l : Lcid) (n : Nat) : GroveSanitised s dg (dropSync t l n) :=
  ht.modCore l fun _ hk => ⟨hk.mem, hk.bad, hk.acc, hk.owners, hk.queues⟩

theorem syncReady (ht : GroveSanitised s dg t) (l : Lcid) (o : SyncOut) (f : Ctx → Ctx) : GroveSanitised s dg (syncReady t l o f) := by
  unfold Machine.syncReady modCtxOf
  refine modCore ht l ?_
  exact fun _ hk => ⟨hk.mem, hk.bad, hk.acc, hk.owners, hk.queues⟩

theorem syncDone (ht : GroveSanitised s dg t) (l : Lcid) (o : SyncOut) (st : Status) (v : Word) :
    GroveSanitised s dg (syncDone t l o st v) := by
  have hfailed : GroveSanitised s dg (if (st == sOK || st == sRETRIED) then t else syncFailed t l st o.name) := by
    split
    · exact ht
    · exact ht.postQ63 l _
  unfold Machine.syncDone
  dsimp only
  split
  · exact hfailed.syncReady l o _
  · split
    · exact hfailed.syncReady l o _
    · exact hfailed

theorem foldl {α : Type} {f : State → α → State} (hf : ∀ t a, GroveSanitised s dg t → GroveSanitised s dg (f t a)) (as : List α)
    (ht : GroveSanitised s dg t) : GroveSanitised s dg (as.foldl f t) := by
  induction as generalizing t with
  | nil => exact ht
  | cons a r ih => exact ih (hf t a ht)

/-- R268: the operations that wait at the router's objects end. -/
theorem endWaiters (ht : GroveSanitised s dg t) (d : Dg) (st : Status) : GroveSanitised s dg (endWaiters t d (.unit d) st) := by
  unfold Machine.endWaiters
  refine foldl (fun t w ht => ?_) _ (ht.modGrove d fun _ => rfl)
  split
  · exact ht.reply d _ _
  · dsimp only
    split
    · split
      · exact ht.dropSync _ _
      · exact (ht.dropSync _ _).syncDone _ _ _ _
    · exact ht

end GroveSanitised

theorem sanitised_sanitiseCore (k : Core) : Sanitised (sanitiseCore k) := ⟨rfl, rfl, rfl, rfl, rfl⟩

theorem lcidOf_posOf (l : Lcid) : lcidOf (dgOf l) (posOf l) = l := by
  apply BitVec.eq_of_toNat_eq
  have := l.isLt
  simp only [lcidOf, dgOf, posOf, BitVec.extractLsb'_toNat, BitVec.toNat_ofNat, Nat.shiftRight_eq_div_pow]
  omega

/-- The positions sanitised in turn. -/
theorem sanitised_foldl (dg : Dg) (ns : List Nat) (t : State) {l : Lcid} (hl : dgOf l = dg)
    (h : posOf l ∈ ns ∨ Sanitised (getCore t l)) :
    Sanitised (getCore (ns.foldl (fun s n => modCore s (lcidOf dg n) sanitiseCore) t) l) := by
  induction ns generalizing t with
  | nil => exact h.resolve_left List.not_mem_nil
  | cons n r ih =>
    refine ih _ ?_
    by_cases hn : lcidOf dg n = l
    · subst hn
      rw [getCore_modCore]
      exact .inr (sanitised_sanitiseCore _)
    · rw [getCore_modCore_other _ _ _ _ (Ne.symm hn)]
      refine h.imp (fun hmem => (List.mem_cons.1 hmem).resolve_left fun h0 => hn ?_) id
      rw [← h0, ← hl, lcidOf_posOf]

theorem groves_foldl_sanitiseCore (dg : Dg) (ns : List Nat) (s : State) :
    (ns.foldl (fun s n => modCore s (lcidOf dg n) sanitiseCore) s).groves = s.groves :=
  foldl_keeps (f := fun s n => modCore s (lcidOf dg n) sanitiseCore) State.groves (fun _ _ => rfl) ns s

theorem groveSanitised_sanitiseGrove (s : State) (dg : Dg) : GroveSanitised s dg (sanitiseGrove s dg) := by
  have hcores : GroveSanitised s dg ((below 16).foldl (fun s n => modCore s (lcidOf dg n) sanitiseCore) s) := by
    refine ⟨fun l hl => sanitised_foldl dg _ s hl (.inl ?_), fun d => ?_⟩
    · rw [mem_below]
      exact Nat.mod_lt _ (by decide)
    · rw [getGrove, groves_foldl_sanitiseCore, getGrove]
  unfold sanitiseGrove
  refine GroveSanitised.modGrove (hcores.endWaiters dg sBOUNDS) dg ?_
  exact fun _ => rfl

theorem doSanitiseComplete_sanitised {s : State} {dg : Dg} (h : (pgroveWord s dg).getLsbD 63 = true) :
    doSanitiseComplete dg s = { sanitiseGrove s dg with
      pgrove := tput 0x10 (sanitiseGrove s dg).pgrove dg.toNat (wd ((pgroveWord s dg).toNat % 2 ^ 63))
      sanDue := tput 0 (sanitiseGrove s dg).sanDue dg.toNat 0 } := by
  rw [doSanitiseComplete]
  exact if_pos h

/-- Settles O31. -/
theorem rolesObjectsAndGroves : Obligations.RolesObjectsAndGroves := by
  unfold Obligations.RolesObjectsAndGroves
  refine ⟨⟨fun s l w h hfused hocc hawake => ?role, fun s dg n w h hfused => ?object⟩, fun s dg w h hfused => ?grove⟩
  case role =>
    intro k v e
    have hx : exec (.coreRoleWrite l w) s = .next (doCoreRoleWrite l w s) := rfl
    rw [doCoreRoleWrite_lookout h hfused hocc hawake v rfl] at hx
    refine ⟨fun hno => ⟨_, hx.trans (congrArg _ (if_neg ?_)), rfl⟩, fun hidle hpart =>
      ⟨_, hx.trans (congrArg _ (if_pos ⟨hidle, hpart⟩)), _, rfl, fun hhold hstarts => ?_, rfl, ?_,
        fun l' hl => getCore_modCore_other _ _ _ _ hl, ?_⟩⟩
    · rintro ⟨hidle, hpart⟩
      exact hno.elim (fun h0 => absurd (h0.symm.trans hidle) Bool.false_ne_true) fun h0 => h0 hpart
    · exact bounceWaiting_idle _ (by rw [getCore_modCore]; exact hhold) (by rw [getCore_modCore]; exact hstarts)
    · rw [getCore_modCore]
    · rw [getCore_modCore]
      rfl
  case object =>
    intro g v blk
    have hx : exec (.syncCfgWrite dg n w) s = .next (doSyncCfgWrite dg n w s) := rfl
    rw [doSyncCfgWrite_lookout h hfused rfl] at hx
    have hany : (!!((getGrove s dg).waiters.any fun x => x.obj == n.toNat)) = true ↔ ∃ x ∈ g.waiters, x.obj = n.toNat := by simp [g]
    refine ⟨fun hbad => ⟨_, hx.trans (congrArg _ (if_pos hbad)), rfl⟩, fun hgood hwait => ?_, fun hgood hwait => ?_⟩
    · exact ⟨_, hx.trans (congrArg _ ((if_neg (Bool.eq_false_iff.1 hgood)).trans (if_pos (hany.2 hwait)))), rfl⟩
    · have hno : ¬ (!!((getGrove s dg).waiters.any fun x => x.obj == n.toNat)) = true := fun ha =>
        let ⟨x, hm, he⟩ := hany.1 ha; hwait x hm he
      refine ⟨_, hx.trans (congrArg _ ((if_neg (Bool.eq_false_iff.1 hgood)).trans (if_neg hno))), ?_⟩
      dsimp only
      rw [getGrove_modGrove, getObj_setObj]
      exact ⟨rfl, rfl, rfl, fun m hm => tget_tput_other _ _ _ _ _ hm, rfl, rfl⟩
  case grove =>
    intro old v P waits
    have hwaits : waits = moveWaits s dg := rfl
    refine ⟨fun hw => ?_, fun hw hlock => ?_, fun hw hlock => ⟨fun h4 h63 hv => ?_, fun h4 hv hidle => ?_⟩, fun h63 => ?_⟩
    · have hx := (doGroveMove_eq (w := w)).trans (if_pos (hwaits.symm.trans hw))
      exact ⟨⟨_, congrArg Host.Outcome.next hx, rfl⟩, ⟨_, congrArg Host.Outcome.next hx, rfl⟩⟩
    · have hx := ((doGroveMove_eq (w := w)).trans (if_neg (Bool.eq_false_iff.1 (hwaits.symm.trans hw)))).trans
        (partGroveWrite_locked h hfused hlock)
      exact ⟨⟨_, congrArg Host.Outcome.next hx, rfl⟩, ⟨_, congrArg Host.Outcome.next hx, rfl⟩⟩
    · have hj : joins s dg v = true := by
        rw [joins, bit_eq_getLsbD, bit_eq_getLsbD, bit_eq_getLsbD, h4, h63, hv]
        rfl
      have hx := ((doGroveMove_eq (w := w)).trans (if_neg (Bool.eq_false_iff.1 (hwaits.symm.trans hw)))).trans
        (partGroveWrite_joins h hfused rfl hlock hj)
      obtain ⟨hword, hother⟩ := pgroveWord_tput (t := { s with pgrove := tput 0x10 s.pgrove dg.toNat v }) hfused rfl rfl
      exact ⟨_, congrArg Host.Outcome.next hx, hword, rfl, rfl, hother⟩
    · have hr : releases s dg v = true := by
        rw [releases, bit_eq_getLsbD, bit_eq_getLsbD, h4, hv, hidle]
        rfl
      have hj : joins s dg v = false := by
        rw [joins, bit_eq_getLsbD, h4]
        rfl
      have hx := ((doGroveMove_eq (w := w)).trans (if_neg (Bool.eq_false_iff.1 (hwaits.symm.trans hw)))).trans
        (partGroveWrite_releases h hfused rfl hlock hr hj)
      obtain ⟨hword, hother⟩ := pgroveWord_tput (t := { s with
        pgrove := tput 0x10 s.pgrove dg.toNat (wd (2 ^ 63 + fld v 0 4)), sanDue := tput 0 s.sanDue dg.toNat (now s + 51) })
          hfused rfl rfl
      exact ⟨_, congrArg Host.Outcome.next hx, hword, rfl, rfl, hother⟩
    · have hsan := groveSanitised_sanitiseGrove s dg
      refine ⟨_, congrArg Host.Outcome.next (doSanitiseComplete_sanitised h63), ?_, ?_, fun l hl => ?_⟩
      · refine (pgroveWord_tput (s := sanitiseGrove s dg) (t := { sanitiseGrove s dg with
          pgrove := tput 0x10 (sanitiseGrove s dg).pgrove dg.toNat (wd ((pgroveWord s dg).toNat % 2 ^ 63))
          sanDue := tput 0 (sanitiseGrove s dg).sanDue dg.toNat 0 }) ((hsan.fused dg).trans hfused) ?_ ?_).1
        · rfl
        · rfl
      · show (getGrove (sanitiseGrove s dg) dg).objs = []
        rw [sanitiseGrove, getGrove_modGrove]
      · obtain ⟨hmem, hbad, hacc, howners, hqueues⟩ := hsan.cores l hl
        exact ⟨hmem, hbad, hacc, howners, hqueues⟩

end Sys2Proof.Machine
end

section
/-! PROOFS. The tick, the discipline of the time base, and PACE_TIME (R62 to R65). -/

namespace Sys2Proof.Machine

/-! ### What the work of a tick leaves of the state -/

/-- The time base and the parts of the state that no packet, no report and no port of a tick touches. -/
def timeParts (s : State) : Pace × Tbl Grove × Hbm := (s.pace, s.groves, s.hbm)

section
variable (s : State)

theorem timeParts_foldl {α : Type} {f : State → α → State} (h : ∀ s a, timeParts (f s a) = timeParts s) (as : List α) :
    timeParts (as.foldl f s) = timeParts s := by
  induction as generalizing s with
  | nil => rfl
  | cons a r ih => exact (ih _).trans (h s a)

theorem timeParts_loseRoutes : timeParts (loseRoutes s) = timeParts s := by
  exact timeParts_foldl (f := countStray) s (fun _ _ => rfl) (strayPkts s)

theorem timeParts_isolateDry : timeParts (isolateDry s) = timeParts s := by
  unfold isolateDry
  split
  · rfl
  · refine timeParts_foldl s (fun s k => ?_) _
    split
    · exact timeParts_loseRoutes _
    · rfl

theorem timeParts_loseHost : timeParts (loseHost s) = timeParts s := by
  unfold loseHost
  refine timeParts_foldl _ (fun s c => ?_) _
  split <;> rfl

theorem timeParts_modPort (k : Nat) (f : Port → Port) : timeParts (modPort s k f) = timeParts s := rfl

theorem timeParts_tickPorts : timeParts (tickPorts s) = timeParts s := by
  refine timeParts_foldl (f := portTick) s (fun s k => ?_) _
  rw [portTick, sendCtls, timeParts_modPort, timeParts_modPort]

theorem timeParts_trackQuiets : timeParts (trackQuiets s) = timeParts s := rfl

theorem timeParts_tickShapers : timeParts (tickShapers s) = timeParts s := by
  simp only [timeParts, tickShapers]

theorem timeParts_tickColls : timeParts (tickColls s) = timeParts s := rfl

/-- What the device does at a tick while it is awake. -/
theorem timeParts_awakeWork : timeParts (awake (fun s => trackQuiets (loseHost (isolateDry (tickPorts (tickShapers (tickColls s)))))) s) =
    timeParts s := by
  unfold awake
  split
  · rfl
  · rw [timeParts_trackQuiets, timeParts_loseHost, timeParts_isolateDry, timeParts_tickPorts, timeParts_tickShapers,
      timeParts_tickColls]

end

/-! ### The counter (R62, R65) -/

/-- R62: a correction within 200 ppm is what a reference cycle adds to its 10 ns. -/
theorem cycleStep_eq {c : Int} (hlo : -8589934 ≤ c) (hhi : c ≤ 8589934) : (cycleStep c : Int) = 10 * 2 ^ 32 + c := by
  unfold cycleStep
  omega

theorem cycleStep_pos (c : Int) : 0 < cycleStep c := by
  unfold cycleStep
  omega

/-- The multiple of 1,000 ns that comes next. -/
def nextTick (p : Pace) : Nat := (p.ns.toNat / 1000 + 1) * 1000 * 2 ^ 32

/-- The reference cycles to the first that reaches the next multiple of 1,000 ns. -/
def cyclesToTick (p : Pace) : Nat := (nextTick p - fullCount p + cycleStep p.corr - 1) / cycleStep p.corr

theorem nextCount_eq (p : Pace) : nextCount p = fullCount p + cyclesToTick p * cycleStep p.corr := rfl

theorem nextCount_reaches {p : Pace} (h : p.frac < 2 ^ 32) :
    nextTick p ≤ nextCount p ∧ nextCount p < nextTick p + cycleStep p.corr := by
  have hlt : fullCount p < nextTick p := by
    unfold fullCount nextTick
    omega
  have hpos := cycleStep_pos p.corr
  rw [nextCount_eq, cyclesToTick]
  generalize cycleStep p.corr = c at hpos
  generalize nextTick p = g at hlt
  generalize fullCount p = f at hlt
  have hdiv := Nat.div_add_mod (g - f + c - 1) c
  have hmod := Nat.mod_lt (g - f + c - 1) hpos
  rw [Nat.mul_comm] at hdiv
  omega

/-! ### The tick (R65) -/

section
variable {s : State}

/-- The tick counted, before anything else of it. -/
def ticked (s : State) : State := oscHold { s with pace := { s.pace with ticks := s.pace.ticks + 1 } }

theorem ticked_fields : now (ticked s) = now s + 1 ∧ (ticked s).pace = { s.pace with ticks := s.pace.ticks + 1 } ∧
    (ticked s).cores = s.cores ∧ (ticked s).groves = s.groves ∧ (ticked s).hbm = s.hbm ∧ timeRuns (ticked s) = timeRuns s := by
  unfold ticked oscHold
  split <;> exact ⟨rfl, rfl, rfl, rfl, rfl, rfl⟩

theorem exec_timeTick : exec .timeTick s = .next (if timeRuns s then tickWork (ticked s) else ticked s) := by
  have hx : exec .timeTick s = .next (doTimeTick s) := rfl
  obtain ⟨-, -, -, -, -, hruns⟩ := ticked_fields (s := s)
  rw [← hruns]
  exact hx

/-- The state after a tick's count and its work at ports, before the waiting procedures look again. -/
def tickCounted (s : State) : State :=
  awake (fun s => trackQuiets (loseHost (isolateDry (tickPorts (tickShapers (tickColls s))))))
    { ticked s with pace := lockStep (countOn (ticked s).pace) }

theorem lockStep_fields (p : Pace) : (lockStep p).ns = p.ns ∧ (lockStep p).frac = p.frac ∧ (lockStep p).ticks = p.ticks := by
  unfold lockStep
  split
  · split <;> exact ⟨rfl, rfl, rfl⟩
  · exact ⟨rfl, rfl, rfl⟩

theorem tickCounted_fields : now (tickCounted s) = now s + 1 ∧ (tickCounted s).groves = s.groves ∧ (tickCounted s).hbm = s.hbm ∧
    (tickCounted s).pace.ns = BitVec.ofNat 64 (nextCount s.pace / 2 ^ 32) ∧
    (tickCounted s).pace.frac = nextCount s.pace % 2 ^ 32 := by
  obtain ⟨-, hpace, -, hgroves, hhbm, -⟩ := ticked_fields (s := s)
  obtain ⟨hns, hfrac, hticks⟩ := lockStep_fields (countOn { s.pace with ticks := s.pace.ticks + 1 })
  have h : timeParts (tickCounted s) = _ := timeParts_awakeWork { ticked s with pace := lockStep (countOn (ticked s).pace) }
  simp only [timeParts, Prod.mk.injEq, hpace, hgroves, hhbm] at h
  obtain ⟨hp, hg, hh⟩ := h
  exact ⟨(congrArg Pace.ticks hp).trans hticks, hg, hh, (congrArg Pace.ns hp).trans hns, (congrArg Pace.frac hp).trans hfrac⟩

end

/-! ### The discipline of the time base (R62 to R64) -/

section
variable {s : State} {off : Int}

/-- What hearing the source with an offset leaves. -/
structure Heard (s : State) (off : Int) (t : State) : Prop where
  offset   : t.pace.offset = off
  heard    : t.pace.heard = now s
  holdover : t.pace.holdover = (s.pace.holdover && !decide (off.natAbs ≤ 500))
  lock     : t.pace.locked = (s.pace.locked && decide (off.natAbs ≤ 500))
  corrLow  : -8589934 ≤ t.pace.corr
  corrHigh : t.pace.corr ≤ 8589934
  sign     : t.pace.corr.sign = -off.sign
  ns       : t.pace.ns = s.pace.ns
  ticks    : now t = now s
  cores    : t.cores = s.cores

/-- R62: a size within 200 ppm against the offset's sign. -/
theorem correction_bounds (off : Int) (n : Nat) :
    -8589934 ≤ -(off.sign * (n % 8589934 + 1 : Nat)) ∧ -(off.sign * (n % 8589934 + 1 : Nat)) ≤ 8589934 ∧
      (-(off.sign * (n % 8589934 + 1 : Nat))).sign = -off.sign := by
  have hlt : n % 8589934 < 8589934 := Nat.mod_lt _ (by decide)
  rcases Int.lt_trichotomy off 0 with h | h | h
  · rw [Int.sign_eq_neg_one_of_neg h]
    refine ⟨by omega, by omega, ?_⟩
    rw [Int.sign_eq_one_of_pos (by omega)]
    rfl
  · subst h
    simp
  · rw [Int.sign_eq_one_of_pos h]
    refine ⟨by omega, by omega, ?_⟩
    rw [Int.sign_eq_neg_one_of_neg (by omega)]

theorem hearSource_heard (s : State) (off : Int) : Heard s off (hearSource s off) := by
  obtain ⟨hlo, hhi, hsign⟩ := correction_bounds off (Config.freeWord s.freeCtr).toNat
  unfold hearSource
  dsimp only
  split
  · exact ⟨rfl, rfl, rfl, rfl, hlo, hhi, hsign, rfl, rfl, rfl⟩
  · exact ⟨rfl, rfl, rfl, rfl, hlo, hhi, hsign, rfl, rfl, rfl⟩

theorem Heard.answers {t : State} {i : Instr} (h : Heard s off t) (hx : exec i s = .next t) :
    answers i s fun t => t.pace.offset = off ∧ t.pace.heard = now s ∧
      t.pace.holdover = (s.pace.holdover && !decide (off.natAbs ≤ 500)) ∧
      t.pace.locked = (s.pace.locked && decide (off.natAbs ≤ 500)) ∧ -8589934 ≤ t.pace.corr ∧ t.pace.corr ≤ 8589934 ∧
      t.pace.corr.sign = -off.sign ∧ t.pace.ns = s.pace.ns ∧ now t = now s ∧ t.cores = s.cores :=
  ⟨t, hx, h.offset, h.heard, h.holdover, h.lock, h.corrLow, h.corrHigh, h.sign, h.ns, h.ticks, h.cores⟩

theorem exec_ppsEdge (hruns : timeRuns s = true) (hsrc : s.pace.src = 1) : exec (.ppsEdge off) s = .next (hearSource s off) := by
  have hx : exec (.ppsEdge off) s = .next (doPpsEdge off s) := rfl
  rwa [doPpsEdge, if_pos (by simp [hruns, hsrc])] at hx

theorem exec_ptpSync {d : Nat} (hruns : timeRuns s = true) (hsrc : s.pace.src = 2) (hd : d ≤ 127) :
    exec (.ptpSync d off) s = .next (hearSource s off) := by
  have hx : exec (.ptpSync d off) s = .next (doPtpSync d off s) := rfl
  rwa [doPtpSync, if_pos (by simp [hruns, hsrc, hd])] at hx

/-- R63: a source that has been silent for too long. -/
theorem exec_holdover (hruns : timeRuns s = true) (hno : s.pace.holdover = false)
    (hsilent : (s.pace.src = 1 ∧ s.pace.heard + 1500001 ≤ now s) ∨ (s.pace.src = 2 ∧ s.pace.heard + 3000001 ≤ now s)) :
    exec .holdover s = .next (timeWarning { s with pace := { s.pace with holdover := true, locked := false, goodFrom := none } }) := by
  have hx : exec .holdover s = .next (doHoldover s) := rfl
  rw [doHoldover, if_pos] at hx
  · exact hx
  · rcases hsilent with ⟨hsrc, ht⟩ | ⟨hsrc, ht⟩
    · simp [hruns, hno, hsrc, silence]
      omega
    · simp [hruns, hno, hsrc, silence]
      omega

/-! ### PACE_TIME (R62) -/

theorem doPaceTimeSet_lookout {w : Wr} (h : w.writer.toNat = 31) : doPaceTimeSet w s =
    if !!s.cruise.wasReady then reject s 0x1000 2 31 0x1318
    else { s with pace := { s.pace with ns := mergeHalf w.half s.pace.ns w.value } } := by
  rw [doPaceTimeSet, paceWrite, h, show byPf0 31 = true from rfl]
  exact guardWrite_lookout_judged ..

end

/-- Settles O32. -/
theorem timeBase : Obligations.TimeBase := by
  unfold Obligations.TimeBase
  refine ⟨fun s => ⟨fun hruns => ?stands, fun hruns hfrac => ?runs⟩, fun c => cycleStep_eq, fun s off hruns =>
    ⟨fun hsrc => (hearSource_heard s off).answers (exec_ppsEdge hruns hsrc),
      fun d hsrc hd => (hearSource_heard s off).answers (exec_ptpSync hruns hsrc hd)⟩,
    fun s hruns hno hsilent => ⟨_, exec_holdover hruns hno hsilent, rfl, rfl, rfl⟩,
    fun s w h => ⟨fun hready => ?set, fun hready => ?late⟩⟩
  case stands =>
    obtain ⟨hnow, hpace, hcores, -⟩ := ticked_fields (s := s)
    have hx := exec_timeTick (s := s)
    rw [hruns, if_neg Bool.false_ne_true] at hx
    exact ⟨_, hx, hnow, by rw [hpace], hcores⟩
  case runs =>
    have hx := exec_timeTick (s := s)
    rw [hruns, if_pos rfl] at hx
    obtain ⟨hnow, hgroves, hhbm, hns, hfr⟩ := tickCounted_fields (s := s)
    obtain ⟨hlow, hhigh⟩ := nextCount_reaches hfrac
    exact ⟨_, hx, tickCounted s, rfl, hnow, hgroves, hhbm, cyclesToTick s.pace, hlow, hhigh, hns, hfr⟩
  case set =>
    have hx := doPaceTimeSet_lookout (s := s) h
    rw [hready] at hx
    exact ⟨_, rfl, hx⟩
  case late =>
    have hx := doPaceTimeSet_lookout (s := s) h
    rw [hready] at hx
    exact ⟨_, rfl, hx⟩

end Sys2Proof.Machine
end

section
/-! PROOFS. Governor intervals, recalibration and the thermal trip (R53 to R61, R524, R529). -/

namespace Sys2Proof.Machine

/-! ### The regions -/

/-- Entries of a table written one by one, each with a value of its own. -/
theorem tget_foldl_tput {α : Type} [DecidableEq α] (d : α) (g : Nat → α) (ns : List Nat) (t : Tbl α) (i : Nat) :
    tget d (ns.foldl (fun t n => tput d t n (g n)) t) i = if i ∈ ns then g i else tget d t i := by
  induction ns generalizing t with
  | nil => rfl
  | cons n r ih =>
    rw [List.foldl_cons, ih]
    by_cases hr : i ∈ r
    · rw [if_pos hr, if_pos (List.mem_cons_of_mem _ hr)]
    · rw [if_neg hr]
      by_cases hn : i = n
      · subst hn
        rw [tget_tput_same, if_pos List.mem_cons_self]
      · rw [tget_tput_other _ _ _ _ _ hn, if_neg fun h => (List.mem_cons.1 h).elim hn hr]

theorem getRegion_mapRegions (s : State) (f : Nat → Region → Region) {r : Nat} (hr : r < 64) :
    getRegion (mapRegions s f) r = f r (getRegion s r) := by
  have h := tget_foldl_tput Region.zero (fun r => f r (getRegion s r)) (below 64) [] r
  rw [if_pos (by rw [mem_below]; exact hr)] at h
  simp only [getRegion, mapRegions] at h ⊢
  exact h

/-- What the reports and the readings that are not the regions' leave as it is. -/
def governed (s : State) : Tbl Core × BitVec 64 × BitVec 16 × BitVec 16 × Bool :=
  (s.cores, s.pace.ns, s.pace.pkgW, s.pace.limit, s.pace.capped)

/-- What heat makes of a region. -/
def heat (s : State) (r : Nat) : BitVec 16 × Bool := ((getRegion s r).temp, (getRegion s r).thermal)

/-- Every part of the interval from the readings on keeps these. -/
def GovKept (s t : State) : Prop := governed t = governed s ∧ ∀ r, r < 64 → heat t r = heat s r

namespace GovKept

variable {s t u : State}

theorem refl (s : State) : GovKept s s := ⟨rfl, fun _ _ => rfl⟩

theorem trans (h : GovKept s t) (h' : GovKept t u) : GovKept s u :=
  ⟨h'.1.trans h.1, fun r hr => (h'.2 r hr).trans (h.2 r hr)⟩

theorem raise (s : State) (r : Rpt) : GovKept s (raise s r) := ⟨rfl, fun _ _ => rfl⟩

theorem signalVec (s : State) (f v : Nat) : GovKept s (signalVec s f v) := ⟨rfl, fun _ _ => rfl⟩

theorem mapRegions (s : State) {f : Nat → Region → Region} (hf : ∀ r g, ((f r g).temp, (f r g).thermal) = (g.temp, g.thermal)) :
    GovKept s (mapRegions s f) :=
  ⟨by simp only [governed, Machine.mapRegions], fun r hr => by rw [heat, getRegion_mapRegions s f hr]; exact hf _ _⟩

theorem of_pace (hp : t.pace = s.pace) (hc : t.cores = s.cores) : GovKept s t :=
  ⟨by simp only [governed, hp, hc], fun r _ => by simp only [heat, getRegion, hp]⟩

/-- Any change of the rest of the pace block. -/
theorem pace (s : State) {p : Pace} (h : (p.ns, p.pkgW, p.limit, p.capped, p.regions) =
    (s.pace.ns, s.pace.pkgW, s.pace.limit, s.pace.capped, s.pace.regions)) : GovKept s { s with pace := p } := by
  simp only [Prod.mk.injEq] at h
  obtain ⟨hns, hw, hlim, hcap, hreg⟩ := h
  exact ⟨by simp only [governed, hns, hw, hlim, hcap], fun r _ => by simp only [heat, getRegion, hreg]⟩

theorem foldl {α : Type} {f : State → α → State} (h : ∀ s a, GovKept s (f s a)) (as : List α) (s : State) :
    GovKept s (as.foldl f s) := by
  induction as generalizing s with
  | nil => exact refl s
  | cons a r ih => exact (h s a).trans (ih _)

end GovKept

section
variable (s : State) (q : GovReadings)

theorem govKept_takeAvs : GovKept s (takeAvs s q) :=
  (GovKept.pace s rfl).trans (GovKept.foldl (fun s _ => GovKept.raise s _) _ _)

theorem govKept_skewStep : GovKept s (skewStep s) := by
  unfold skewStep
  extract_lets on was s1 p s2
  have h1 : GovKept s s1 := by
    unfold s1
    exact GovKept.mapRegions s fun _ _ => rfl
  clear_value s1
  have h2 : GovKept s s2 := h1.trans (GovKept.pace s1 rfl)
  clear_value s2
  split
  · split
    · exact h2
    · exact h2.trans ((GovKept.pace s2 (p := { s2.pace with skewSeen := true }) rfl).trans
        ((GovKept.raise _ _).trans (GovKept.signalVec _ _ _)))
  · exact h2

theorem govKept_throttleReports (old : List Nat) : GovKept s (throttleReports s old) := by
  unfold throttleReports
  dsimp only
  split
  · exact GovKept.foldl (fun s _ => GovKept.raise s _) _ _
  · exact (GovKept.foldl (fun s _ => GovKept.raise s _) _ _).trans (GovKept.signalVec _ _ _)

end

/-! ### Recalibration (R54, R55, R529) -/

section
variable (s : State) (r step : Nat) (temp : Int)

theorem recalDone_fields (p : Pace) : (recalDone p r).regions = p.regions ∧ (recalDone p r).ns = p.ns ∧
    (recalDone p r).pkgW = p.pkgW ∧ (recalDone p r).limit = p.limit ∧ (recalDone p r).capped = p.capped := by
  unfold recalDone
  split <;> exact ⟨rfl, rfl, rfl, rfl, rfl⟩

/-- R54, R55: the calibration of a region. -/
theorem calibrate_eq (g : Region) :
    let need := (step * 112 + 99) / 100
    let trim := min need 63
    calibrate s g step temp = { g with
      trim := trim, tooLong := decide (63 < need), calV := g.vnow, calTemp := temp, calTick := now s
      longUp := if g.calV < g.vnow then decide (g.trim < trim) else g.longUp
      longDown := if g.vnow < g.calV then decide (g.trim < trim) else g.longDown } := by
  intro need trim
  have hup : (if g.vnow != g.calV && decide (g.calV < g.vnow) then decide (g.trim < trim) else g.longUp) =
      if g.calV < g.vnow then decide (g.trim < trim) else g.longUp :=
    if_congr (by simp; omega) rfl rfl
  have hdown : (if g.vnow != g.calV && decide (g.vnow < g.calV) then decide (g.trim < trim) else g.longDown) =
      if g.vnow < g.calV then decide (g.trim < trim) else g.longDown :=
    if_congr (by simp; omega) rfl rfl
  rw [← hup, ← hdown]
  rfl

/-- A region's calibration stored, and the commanded recalibration gone on, before what it reports. -/
def recalStored : State :=
  { s with pace := recalDone { s.pace with
      regions := tput Region.zero s.pace.regions r (calibrate s (getRegion s r) step temp) } r }

theorem getRegion_recalStored : getRegion (recalStored s r step temp) r = calibrate s (getRegion s r) step temp := by
  obtain ⟨hreg, -⟩ := recalDone_fields r { s.pace with
    regions := tput Region.zero s.pace.regions r (calibrate s (getRegion s r) step temp) }
  rw [getRegion, recalStored]
  simp only [hreg, tget_tput_same]

theorem govKept_recalStored : GovKept s (recalStored s r step temp) := by
  obtain ⟨hreg, hns, hw, hlim, hcap⟩ := recalDone_fields r { s.pace with
    regions := tput Region.zero s.pace.regions r (calibrate s (getRegion s r) step temp) }
  refine ⟨by simp only [governed, recalStored, hns, hw, hlim, hcap], fun r' _ => ?_⟩
  by_cases h : r' = r
  · subst h
    rw [heat, getRegion_recalStored]
    rfl
  · have hother : getRegion (recalStored s r step temp) r' = getRegion s r' := by
      rw [getRegion, recalStored]
      simp only [hreg]
      exact tget_tput_other _ _ _ _ _ h
    rw [heat, hother, heat]

/-- R54, R55: what a recalibration reports changes no region and no core. -/
theorem recalRegion_stored : (recalRegion s r step temp).pace = (recalStored s r step temp).pace ∧
    (recalRegion s r step temp).cores = s.cores := by
  unfold recalRegion
  extract_lets g h p s1 s2
  have h2 : s2.pace = s1.pace ∧ s2.cores = s1.cores := by
    unfold s2
    split <;> exact ⟨rfl, rfl⟩
  split
  · exact h2
  · exact h2

theorem getRegion_recalRegion : getRegion (recalRegion s r step temp) r = calibrate s (getRegion s r) step temp := by
  rw [getRegion, (recalRegion_stored s r step temp).1]
  exact getRegion_recalStored ..

theorem govKept_recalRegion : GovKept s (recalRegion s r step temp) :=
  (govKept_recalStored s r step temp).trans
    (GovKept.of_pace (recalRegion_stored s r step temp).1 (recalRegion_stored s r step temp).2)

theorem govKept_recalStep (q : GovReadings) : GovKept s (recalStep s q) := by
  refine GovKept.foldl (fun s r => ?_) _ _
  split
  · exact govKept_recalRegion ..
  · exact .refl s

end

/-! ### The interval (R57 to R61) -/

section
variable (s : State) (q : GovReadings)

/-- R57, R61: what an interval's readings make of a region. -/
def readRegion (r : Nat) (g : Region) : Region :=
  let temp := match q.temps[r]? with | some t => if sensing s r then g.temp else BitVec.ofInt 16 t | none => g.temp
  let hot := decide (1600 ≤ signed 16 temp.toNat) || (g.thermal && decide (1520 < signed 16 temp.toNat))
  { g with temp := temp, thermal := hot, pace := match q.paces[r]? with | some v => BitVec.ofNat 12 (min v 4095) | none => g.pace }

theorem foldl_paceCores {f : State → Nat → State} (h : ∀ s t, (f s t).cores = s.cores ∧ (f s t).pace = s.pace) (ts : List Nat)
    (u : State) : (ts.foldl f u).cores = u.cores ∧ (ts.foldl f u).pace = u.pace :=
  Prod.mk.inj (foldl_keeps (fun s : State => (s.cores, s.pace)) (fun s t => Prod.ext (h s t).1 (h s t).2) ts u)

/-- R58, R61: the package's readings. -/
def readPackage (p : Pace) (q : GovReadings) : Pace :=
  { p with pkgW := BitVec.ofNat 16 (min q.watts 65535), peakW := q.peak
           amps := (below 4).foldl (fun t i => tput 0 t i (q.amps.getD i 0)) [] }

theorem takeReadings_fields : (takeReadings s q).cores = s.cores ∧
    (takeReadings s q).pace = readPackage (mapRegions s (readRegion s q)).pace q := by
  unfold takeReadings
  refine ⟨(foldl_paceCores (fun u t => ?_) (below 4) _).1.trans ?_, (foldl_paceCores (fun u t => ?_) (below 4) _).2.trans ?_⟩
  · split <;> exact ⟨rfl, rfl⟩
  · simp only [mapRegions]
  · split <;> exact ⟨rfl, rfl⟩
  · rfl

/-- An interval after its readings and reports, before the voltages. -/
def intervalRead (s : State) (q : GovReadings) : State :=
  throttleReports (skewStep (takeAvs (takeReadings s q) q)) ((below 64).filter fun r => (getRegion s r).thermal)

theorem govKept_intervalRead : GovKept (takeReadings s q) (intervalRead s q) :=
  (govKept_takeAvs _ q).trans ((govKept_skewStep _).trans (govKept_throttleReports _ _))

/-- R61: the region's voltage taken, and whether power held it back. -/
def voltRegion (vs : List Nat) (capped : Bool) (r : Nat) (g : Region) : Region :=
  { g with vnow := vs.getD r 0, pwr := capped && decide (vs.getD r 0 < g.vnow) }

/-- R58: the package is at its cap. -/
def atCap (s : State) : Bool := decide (98 * s.pace.limit.toNat < 100 * s.pace.pkgW.toNat)

/-- The voltages set, before any recalibration that is due. -/
def intervalSet (s : State) : State :=
  let v := mapRegions s (voltRegion (nextVs s) (atCap s))
  setRails { v with pace := { v.pace with capped := atCap s } } (railFor v)

theorem intervalSet_fields : (intervalSet s).cores = s.cores ∧ (intervalSet s).pace.ns = s.pace.ns ∧
    (intervalSet s).pace.pkgW = s.pace.pkgW ∧ (intervalSet s).pace.limit = s.pace.limit ∧
    (intervalSet s).pace.capped = atCap s ∧ ∀ r, r < 64 → heat (intervalSet s) r = heat s r := by
  have hmap := GovKept.mapRegions s (f := voltRegion (nextVs s) (atCap s)) fun _ _ => rfl
  have hheat := hmap.2
  have hgov := hmap.1
  unfold intervalSet
  extract_lets v
  have hv : v = mapRegions s (voltRegion (nextVs s) (atCap s)) := rfl
  rw [← hv] at hheat hgov
  clear_value v
  simp only [governed, Prod.mk.injEq] at hgov
  obtain ⟨hcores, hns, hw, hlim, -⟩ := hgov
  exact ⟨hcores, hns, hw, hlim, rfl, hheat⟩

theorem exec_governorInterval (hon : regionsOn s = true) (hgap : gapOpen s = false) :
    exec (.governorInterval q) s = .next (recalStep (intervalSet (intervalRead s q)) q) := by
  have hx : exec (.governorInterval q) s = .next (doGovernorInterval q s) := rfl
  rw [doGovernorInterval, if_neg (by simp [hon, hgap])] at hx
  exact hx

/-- A region's reading in an interval, its sensor not under recalibration. -/
theorem readRegion_heat {r : Nat} {v : Int} (hv : q.temps[r]? = some v) (hbusy : s.pace.recalBusy = false) (g : Region) :
    (readRegion s q r g).temp = BitVec.ofInt 16 v ∧ (readRegion s q r g).thermal =
      (decide (1600 ≤ (BitVec.ofInt 16 v).toInt) || (g.thermal && decide (1520 < (BitVec.ofInt 16 v).toInt))) := by
  have hs : sensing s r = false := by simp [sensing, hbusy]
  simp only [readRegion, hv, hs, Bool.false_eq_true, if_false, signed_eq_toInt, BitVec.ofNat_toNat, BitVec.setWidth_eq, and_self]

theorem getRegion_takeReadings {r : Nat} (hr : r < 64) : getRegion (takeReadings s q) r = readRegion s q r (getRegion s r) := by
  rw [← getRegion_mapRegions s (readRegion s q) hr, getRegion, (takeReadings_fields s q).2]
  simp only [getRegion, readPackage]

end

/-- R529: a write with GO while a recalibration runs is rejected. -/
theorem doPaceRecal_lookout {s : State} {w : Wr} (h : w.writer.toNat = 31) : doPaceRecal w s =
    if !!(bit (halfBits w.half w.value) 63 && s.pace.recalBusy) then reject s 0x1000 2 31 0x1020
    else if bit (halfBits w.half w.value) 63 then
      { s with pace := { s.pace with
          recal := keepFields (halfBits w.half w.value) [(61, 1), (6, 1), (0, 6)], recalBusy := true
          recalLeft := if bit (halfBits w.half w.value) 6 then below 64 else [fld (halfBits w.half w.value) 0 6] } }
    else s := by
  rw [doPaceRecal, paceWrite, h, show byPf0 31 = true from rfl]
  exact guardWrite_lookout_judged ..

/-! ### The thermal trip (R53) -/

theorem exec_thermalTrip {s : State} (h : alive s = true) (r : BitVec 6) (temp : Int) :
    exec (.thermalTrip r temp) s = .next (if temp < 1760 then s else switchOff { s with pace := { s.pace with
      regions := tput Region.zero s.pace.regions r.toNat { getRegion s r.toNat with temp := BitVec.ofInt 16 temp } } }) := by
  have hx : exec (.thermalTrip r temp) s = .next (doThermalTrip r temp s) := rfl
  simpa [doThermalTrip, h] using hx

/-- Settles O33. -/
theorem paceAndThermal : Obligations.PaceAndThermal := by
  unfold Obligations.PaceAndThermal
  refine ⟨fun s q hon hgap => ⟨_, exec_governorInterval s q hon hgap, ?interval⟩, fun s r step temp hon hgap => ⟨fun hw => ?_, fun hw => ?_⟩,
    fun s w h => ⟨fun hgo hbusy => ?_, fun hgo hbusy => ?_⟩, fun s r temp h => ⟨fun ht => ?_, fun ht => ?_⟩⟩
  case interval =>
    obtain ⟨hcores, hpace⟩ := takeReadings_fields s q
    obtain ⟨hread, hheat⟩ := govKept_intervalRead s q
    obtain ⟨hsetC, hsetN, hsetW, hsetL, hsetCap, hsetH⟩ := intervalSet_fields (intervalRead s q)
    obtain ⟨hrecal, hrecalH⟩ := govKept_recalStep (intervalSet (intervalRead s q)) q
    simp only [governed, Prod.mk.injEq] at hread hrecal
    obtain ⟨hrC, hrN, hrW, hrL, -⟩ := hread
    obtain ⟨htC, htN, htW, -, htCap⟩ := hrecal
    have hlim : (intervalRead s q).pace.limit = s.pace.limit := by rw [hrL, hpace]; simp only [readPackage, mapRegions]
    have hns : (takeReadings s q).pace.ns = s.pace.ns := by rw [hpace]; simp only [readPackage, mapRegions]
    refine ⟨?_, ?_, (htN.trans hsetN).trans (hrN.trans hns), (htC.trans hsetC).trans (hrC.trans hcores), fun r v hr hv hbusy => ?_⟩
    · rw [htW, hsetW, hrW, hpace]
      rfl
    · rw [htCap, hsetCap, htW, hsetW, atCap, hlim]
    · have hall := ((hrecalH r hr).trans (hsetH r hr)).trans (hheat r hr)
      obtain ⟨htemp, hthermal⟩ := readRegion_heat s q hv hbusy (getRegion s r)
      rw [heat, heat, getRegion_takeReadings s q hr, htemp, hthermal] at hall
      exact Prod.mk.inj hall
  · have hx : exec (.regionRecalibration r step temp) s = .next (doRegionRecalibration r step temp s) := rfl
    rw [doRegionRecalibration, if_neg (by simp [hw])] at hx
    exact ⟨_, hx, rfl⟩
  · have hx : exec (.regionRecalibration r step temp) s = .next (doRegionRecalibration r step temp s) := rfl
    rw [doRegionRecalibration, if_pos (by simp [hw, hon, hgap])] at hx
    refine ⟨_, hx, ?_, (recalRegion_stored ..).2⟩
    rw [getRegion_recalRegion]
    exact calibrate_eq ..
  · have hx := doPaceRecal_lookout (s := s) h
    rw [if_pos (by simpa [bit_eq_getLsbD] using ⟨hgo, hbusy⟩)] at hx
    exact ⟨_, rfl, hx⟩
  · have hx := doPaceRecal_lookout (s := s) h
    rw [if_neg (by simp [hbusy]), if_pos (by simpa [bit_eq_getLsbD] using hgo)] at hx
    refine ⟨_, congrArg Host.Outcome.next hx, rfl, if_congr Iff.rfl rfl rfl, rfl⟩
  · have hx := exec_thermalTrip h r temp
    rw [if_pos ht] at hx
    exact ⟨_, hx, rfl⟩
  · have hx := exec_thermalTrip h r temp
    rw [if_neg (Int.not_lt.2 ht)] at hx
    refine ⟨_, hx, rfl, rfl, rfl, rfl, rfl, ?_⟩
    simp [alive, switchOff]

end Sys2Proof.Machine
end

section
/-! PROOFS. The loss and return of the clocks (R422, R545), and the assignment deadline (R439). -/

namespace Sys2Proof.Machine

section
variable {s : State}

theorem exec_refclkLoss (h : s.pins.refclk = true) : exec .refclkLoss s = .next (
    if s.cruise.ready then clockReport (pcieReset { s with pins := { s.pins with refclk := false } }) 1
    else { s with pins := { s.pins with refclk := false } }) := by
  have hx : exec .refclkLoss s = .next (doRefclkLoss s) := rfl
  rw [doRefclkLoss, if_neg (by simp [h])] at hx
  exact hx

theorem exec_refclkReturn {x : CruiseIn} (h : s.pins.refclk = false) :
    exec (.refclkReturn x) s = .next (resumeCruise { s with pins := { s.pins with refclk := true } } x) := by
  have hx : exec (.refclkReturn x) s = .next (doRefclkReturn x s) := rfl
  rwa [doRefclkReturn, if_neg (by simp [h])] at hx

theorem exec_mclk25Loss (h : s.pins.mclk = true) : exec .mclk25Loss s = .next (
    if 2 ≤ s.cruise.phase.toNat then clockReport { s with pins := { s.pins with mclk := false } } 2
    else { s with pins := { s.pins with mclk := false } }) := by
  have hx : exec .mclk25Loss s = .next (doMclk25Loss s) := rfl
  rw [doMclk25Loss, if_neg (by simp [h])] at hx
  simpa only [decide_eq_true_eq] using hx

theorem exec_mclk25Start {x : CruiseIn} (h : s.pins.mclk = false) : exec (.mclk25Start x) s = .next (
    if s.cruise.running && s.cruise.phase == 1 then resumeCruise { s with pins := { s.pins with mclk := true, osc := false } } x
    else { s with pins := { s.pins with mclk := true, osc := false } }) := by
  have hx : exec (.mclk25Start x) s = .next (doMclk25Start x s) := rfl
  rw [doMclk25Start, if_neg (by simp [h])] at hx
  exact hx

theorem exec_assignmentDeadline {x : ReadyIn} (hrun : s.cruise.running = true) (hphase : s.cruise.phase = 8)
    (hnone : s.errs.assign = none) : exec (.assignmentDeadline x) s = .next (finishCruise s x) := by
  have hx : exec (.assignmentDeadline x) s = .next (doAssignmentDeadline x s) := rfl
  rwa [doAssignmentDeadline, if_pos (by simp [hrun, hphase, hnone])] at hx

end

/-- Settles O35. -/
theorem clocksAndDeadline : Obligations.ClocksAndDeadline := by
  unfold Obligations.ClocksAndDeadline
  refine ⟨fun s h => ⟨_, exec_refclkLoss h, rfl⟩, fun s x h => ⟨_, exec_refclkReturn h, rfl⟩,
    fun s h => ⟨_, exec_mclk25Loss h, ?_⟩, fun s x h => ⟨_, exec_mclk25Start h, rfl⟩,
    fun s x hrun hphase hnone => ⟨_, exec_assignmentDeadline hrun hphase hnone, rfl⟩⟩
  split
  · exact ⟨rfl, rfl, List.length_append ..⟩
  · exact ⟨rfl, rfl, rfl⟩

end Sys2Proof.Machine
end

section
/-! PROOFS. Flits, IDENT, lane maps, retrains and retries of a Gwynfold port (R323 to R328, R336, R338). -/

namespace Sys2Proof.Machine

/-! ### What FEC counts leave of a port (R323) -/

/-- The time, the device's role in its fabric, and what a port's counts do not touch of it. -/
structure FecKept (k : Nat) (s t : State) : Prop where
  time   : now t = now s
  rxAck  : (getPort t k).rxAck = (getPort s k).rxAck
  serves : portUpFor t k = portUpFor s k

theorem FecKept.trans {k : Nat} {s t u : State} (h : FecKept k s t) (h' : FecKept k t u) : FecKept k s u :=
  ⟨h'.time.trans h.time, h'.rxAck.trans h.rxAck, h'.serves.trans h.serves⟩

theorem FecKept.modPort {k : Nat} (s : State) {f : Port → Port} (hf : ∀ p, ((f p).rxAck, (f p).st) = (p.rxAck, p.st)) :
    FecKept k s (modPort s k f) := by
  obtain ⟨hack, hst⟩ := Prod.mk.inj (hf (getPort s k))
  refine ⟨rfl, by rw [getPort_modPort, hack], ?_⟩
  simp only [portUpFor, portIn, getPort_modPort, hst]
  rfl

theorem FecKept.raise {k : Nat} (s : State) (r : Rpt) : FecKept k s (raise s r) := ⟨rfl, rfl, rfl⟩

theorem FecKept.raiseEv {k : Nat} (s : State) (r : Rpt) (e : Ev) : FecKept k s (raiseEv s r e) := ⟨rfl, rfl, rfl⟩

theorem fecKept_fecOne (k : Nat) (s : State) (c : FecWord) : FecKept k s (fecOne k s c) := by
  unfold fecOne
  dsimp only
  split
  · exact ⟨rfl, rfl, rfl⟩
  · split
    · refine FecKept.trans (FecKept.modPort s ?_) (FecKept.raiseEv _ _ _)
      exact fun _ => rfl
    · split
      · refine FecKept.trans (FecKept.trans (FecKept.modPort s ?_) (FecKept.raise _ _)) (FecKept.raiseEv _ _ _)
        exact fun _ => rfl
      · refine FecKept.trans (FecKept.modPort s ?_) (FecKept.raise _ _)
        exact fun _ => rfl

theorem fecKept_fecCount (s : State) (k : Nat) (f : Flit) : FecKept k s (fecCount s k f) := by
  unfold fecCount
  generalize f.fec = cs
  induction cs generalizing s with
  | nil => exact ⟨rfl, rfl, rfl⟩
  | cons c r ih => exact (fecKept_fecOne k s c).trans (ih _)

/-! ### DATA_FLIT (R327) -/

section
variable {s : State} {k : BitVec 4} {f : Flit}

theorem exec_dataFlit_down (h : (getPort s k.toNat).st ≠ 3) : exec (.dataFlit k f) s = .next s := by
  have hx : exec (.dataFlit k f) s = .next (doDataFlit k f s) := rfl
  rwa [doDataFlit, if_pos h] at hx

/-- A data flit in an awake device wakes nothing. -/
theorem fireWake_active (src : Nat) (h : s.dorm.st = .active) : fireWake s src = s := by
  simp [fireWake, h]

/-- A flit at a port that is UP. -/
theorem exec_dataFlit_up (h : (getPort s k.toNat).st = 3) (hactive : f.typ = 1 → portUpFor s k.toNat = true → s.dorm.st = .active) :
    exec (.dataFlit k f) s = .next (
      let c := fecCount s k.toNat f
      let u := fun resend => modPort c k.toNat fun p => takeAck (now s) resend p f
      if flitBad f then sendAck (modPort c k.toNat fun p => { p with nak := true }) k.toNat
      else if f.typ = 1 then
        (if portUpFor s k.toNat = true then
          (if f.seq = (getPort s k.toNat).rxAck + 1 then
            pump (sendAck (acceptFlit (u true) k.toNat f) k.toNat) k.toNat
           else sendAck c k.toNat)
         else c)
      else pump (u (portUpFor s k.toNat)) k.toNat) := by
  have hx : exec (.dataFlit k f) s = .next (doDataFlit k f s) := rfl
  have hwake : (if f.typ = 1 ∧ portUpFor s k.toNat = true then fireWake s 2 else s) = s := by
    split
    · next hd => exact fireWake_active 2 (hactive hd.1 hd.2)
    · rfl
  obtain ⟨htime, hack, hserves⟩ := fecKept_fecCount s k.toNat f
  rw [doDataFlit] at hx
  simp only [ne_eq, h, not_true, if_false, hwake, htime, hack, hserves] at hx
  exact hx

/-! ### IDENT and LANE_MAP (R326, R336) -/

section
variable {did : Did} {v : Bool} {n : BitVec 4}

/-- The port that knows its peer, its own IDENT answered. -/
def identified (s : State) (k : BitVec 4) (did : Did) (v : Bool) (n : BitVec 4) : State :=
  answerIdent (modPort s k.toNat fun p => { p with known := true, peerOk := v, peerDid := did, peerPort := n }) k.toNat

theorem exec_ident : exec (.ident k did v n) s = .next (
    if (getPort s k.toNat).st = 3 ∨ ((getPort s k.toNat).st = 2 ∧ (getPort s k.toNat).upFrom.isSome = true) then
      (if (getPort s k.toNat).st = 2 then enterUp (identified s k did v n) k.toNat else recheckPort (identified s k did v n) k.toNat)
    else s) := rfl

end

theorem exec_laneMap {lg : BitVec 4} {ph : BitVec 5} {sq : BitVec 12} (h : (getPort s k.toNat).st = 3) (hph : ph.toNat < 18) :
    exec (.laneMap k lg ph sq) s = .next (takeMap s k.toNat lg.toNat ph.toNat sq) := by
  have hx : exec (.laneMap k lg ph sq) s = .next (doLaneMap k lg ph sq s) := rfl
  rwa [doLaneMap, if_pos ⟨h, hph⟩] at hx

section
variable {i x : Nat} {sq : BitVec 12} {n : Nat}

/-- R336: the answer to the port's own first lane move. -/
theorem takeMap_mine {j : LaneJob} {r : List LaneJob} (hj : (getPort s n).jobs = j :: r) (hl : j.logical = i) (hn : j.new = x)
    (hs : j.seq = some sq) :
    takeMap s n i x sq = pump (modPort s n fun p => { dropMaps p with jobs := { j with agreed := true } :: r }) n := by
  simp only [takeMap, hj, hl, hn, hs, beq_self_eq_true, Bool.and_self, if_true, modPort]

theorem takeMap_theirs (h : ∀ j r, (getPort s n).jobs = j :: r → ¬(j.logical = i ∧ j.new = x ∧ j.seq = some sq)) :
    takeMap s n i x sq = modPort s n fun p => { sendCtl p (ctlData s n (.laneMap i x sq)) with pendMap := some (i, x, sq) } := by
  unfold takeMap
  dsimp only
  split
  case h_1 j r hj => rw [if_neg (by simpa [and_assoc] using h j r hj)]
  case h_2 hj => rw [if_neg Bool.false_ne_true]

end

/-! ### Training (R328, R553) -/

/-- A port that has left UP for TRAINING; its replay buffer keeps its flits. -/
def InTraining (s t : State) (n : Nat) : Prop :=
  (getPort t n).st = 2 ∧ (getPort t n).retrains.toNat = min ((getPort s n).retrains.toNat + 1) 0xFFFF ∧
    (getPort t n).replay.map TxFlit.seq = (getPort s n).replay.map TxFlit.seq ∧ t.cores = s.cores

theorem inTraining_enterTraining (s : State) (n : Nat) (own : Bool) : InTraining s (enterTraining (sendRetrain s n own) n) n := by
  have hport : getPort (enterTraining (sendRetrain s n own) n) n = _ := getPort_modPort (sendRetrain s n own) n fun p => { p with
    st := 2, retrains := BitVec.ofNat 16 (satAdd 16 p.retrains.toNat 1), attempts := 0, upFrom := none
    replay := p.replay.map fun f => { f with naks := 0 } }
  have hsent : getPort (sendRetrain s n own) n = _ := getPort_modPort ..
  rw [hsent] at hport
  refine ⟨by rw [hport], ?_, ?_, rfl⟩
  · rw [hport]
    exact toNat_satAdd
  · rw [hport]
    exact List.map_map ..

theorem exec_retrain {byPeer : Bool} (h : (getPort s k.toNat).st = 3)
    (hwhy : (byPeer || (getPort s k.toNat).replay.any fun f => decide (16 ≤ f.naks)) = true) :
    exec (.retrain k byPeer) s = .next (enterTraining (sendRetrain s k.toNat !byPeer) k.toNat) := by
  have hx : exec (.retrain k byPeer) s = .next (doRetrain k byPeer s) := rfl
  rw [doRetrain] at hx
  rwa [if_pos ⟨h, hwhy⟩] at hx

theorem exec_ackTimeout (h : (getPort s k.toNat).st = 3) (hne : (getPort s k.toNat).replay ≠ [])
    (hold : (getPort s k.toNat).progress + 101 ≤ now s) :
    exec (.ackTimeout k) s = .next (enterTraining (sendRetrain s k.toNat true) k.toNat) := by
  have hx : exec (.ackTimeout k) s = .next (doAckTimeout k s) := rfl
  rw [doAckTimeout] at hx
  rwa [if_pos ⟨h, hne, hold⟩] at hx

theorem exec_trainingAttemptEnd {ok : Bool} (h : (getPort s k.toNat).st = 2) : exec (.trainingAttemptEnd k ok) s = .next (
    if ok then
      if (getPort s k.toNat).upFrom.isSome then s
      else if (getPort s k.toNat).known then enterUp (sendCtls (modPort s k.toNat (trained (now s))) k.toNat) k.toNat
      else sendCtls (modPort s k.toNat (trained (now s))) k.toNat
    else if (getPort s k.toNat).attempts < 2 then modPort s k.toNat fun p =>
      { p with attempts := p.attempts + 1, upFrom := none, ctl := p.ctl.filter (· != .ident) }
    else enterDown s k.toNat) := by
  have hx : exec (.trainingAttemptEnd k ok) s = .next (doTrainingAttemptEnd k ok s) := rfl
  rw [doTrainingAttemptEnd] at hx
  simpa only [ne_eq, h, not_true, if_false] using hx

/-- R553: a DOWN port trains again. -/
def retryPort (s : State) (n : Nat) : State :=
  if (getPort s n).st = 1 then
    modPort (portSignal s n) n fun p => { p with st := 2, attempts := 0, upFrom := none, known := false, txSeq := 0, rxAck := 0xFFF }
  else s

theorem exec_portTrainingRetry : exec .portTrainingRetry s = .next ((below 16).foldl retryPort s) := rfl

theorem retryPort_same (s : State) (n : Nat) :
    (getPort (retryPort s n) n).st = if (getPort s n).st = 1 then 2 else (getPort s n).st := by
  unfold retryPort
  split
  · rw [getPort_modPort]
  · rfl

theorem retryPort_other (s : State) {n m : Nat} (h : m ≠ n) : getPort (retryPort s n) m = getPort s m := by
  unfold retryPort
  split
  · rw [getPort_modPort_other _ _ _ _ h]
    rfl
  · rfl

theorem retryPort_foldl (ns : List Nat) (s : State) (m : Nat) :
    (getPort (ns.foldl retryPort s) m).st = (if m ∈ ns ∧ (getPort s m).st = 1 then 2 else (getPort s m).st) ∧
      (ns.foldl retryPort s).cores = s.cores := by
  induction ns generalizing s with
  | nil => simp
  | cons n r ih =>
    obtain ⟨hst, hcores⟩ := ih (retryPort s n)
    refine ⟨hst.trans ?_, hcores.trans ?_⟩
    · by_cases hm : m = n
      · subst hm
        rw [retryPort_same]
        by_cases hs : (getPort s m).st = 1
        · simp [hs]
        · rw [if_neg hs, if_neg fun h => hs h.2, if_neg fun h => hs h.2]
      · rw [retryPort_other s hm]
        exact if_congr (by rw [List.mem_cons, or_iff_right hm]) rfl rfl
    · unfold retryPort
      split <;> rfl

/-! ### LANE_RETRAIN (R338) -/

theorem exec_laneRetrain {w : Wr} {ok : Bool} (h : w.writer.toNat = 31) {job : Option LaneJob}
    (hjob : moveLane (now s) (getPort s k.toNat) (fld (halfBits w.half w.value) 56 5) (some ok) = job) :
    exec (.laneRetrain k w ok) s = .next (
      if decide (17 < fld (halfBits w.half w.value) 56 5) then reject s 0x7000 1 31 (0x7000 + (0x108 + 0x20 * k.toNat))
      else if !((getPort s k.toNat).st != 0 && (!bit (halfBits w.half w.value) 63 || (job.isSome && !retrains (getPort s k.toNat)))) then
        reject s 0x7000 2 31 (0x7000 + (0x108 + 0x20 * k.toNat))
      else job.elim s fun j => if bit (halfBits w.half w.value) 63 then modPort s k.toNat fun p => addJob p j else s) := by
  have hx : exec (.laneRetrain k w ok) s = .next (doLaneRetrain k w ok s) := rfl
  rw [doLaneRetrain, gfWrite, h, show byPf0 31 = true from rfl, hjob] at hx
  cases job with
  | none => exact hx.trans (congrArg Host.Outcome.next (guardWrite_lookout_judged ..))
  | some j => exact hx.trans (congrArg Host.Outcome.next (guardWrite_lookout_judged ..))

end

/-- Settles O36. -/
theorem portEvents : Obligations.PortEvents := by
  unfold Obligations.PortEvents
  intro s k p data
  refine ⟨fun f hst => ⟨_, exec_dataFlit_down hst, rfl⟩, fun f hst hactive => ?flit, fun did v n => ?ident, fun lg ph sq hst hph => ?map,
    ?training, fun hst => ?attempt, ⟨_, exec_portTrainingRetry, ?_⟩, fun w ok h => ?lane⟩
  case flit =>
    have hx := exec_dataFlit_up hst hactive
    intro c u
    refine ⟨fun hbad => ⟨_, hx.trans (congrArg _ (if_pos hbad)), rfl⟩, fun hgood htyp => ?_, fun hgood htyp hdata => ?_,
      fun hgood htyp hdata => ?_⟩
    all_goals rw [hgood, if_neg Bool.false_ne_true] at hx
    · rw [if_neg htyp] at hx
      exact ⟨_, hx, rfl⟩
    · rw [if_pos htyp, show portUpFor s k.toNat = false from hdata, if_neg Bool.false_ne_true] at hx
      exact ⟨_, hx, rfl⟩
    · rw [if_pos htyp, show portUpFor s k.toNat = true from hdata, if_pos rfl] at hx
      exact ⟨_, hx, rfl⟩
  case ident =>
    intro u
    refine ⟨fun h2 hup => ⟨_, (exec_ident (s := s)).trans (congrArg _ ((if_pos (.inr ⟨h2, hup⟩)).trans (if_pos h2))), rfl⟩,
      fun h3 => ⟨_, (exec_ident (s := s)).trans (congrArg _ ((if_pos (.inl h3)).trans (if_neg ?_))), rfl⟩,
      fun h3 hno => ⟨_, (exec_ident (s := s)).trans (congrArg _ (if_neg ?_)), rfl⟩⟩
    · rw [show (getPort s k.toNat).st = 3 from h3]
      decide
    · rintro (h | ⟨h2, hup⟩)
      · exact h3 h
      · exact hno.elim (fun h => h h2) fun h => by rw [show (getPort s k.toNat).upFrom = none from h] at hup; cases hup
  case map =>
    refine ⟨fun j r hj hl hn hs => ⟨_, exec_laneMap hst hph, takeMap_mine hj hl hn hs⟩,
      fun hno => ⟨_, exec_laneMap hst hph, takeMap_theirs hno⟩⟩
  case training =>
    intro T hst
    refine ⟨⟨_, exec_retrain hst rfl, inTraining_enterTraining s k.toNat false⟩, fun f hf hnaks => ⟨_, exec_retrain hst ?_,
      inTraining_enterTraining s k.toNat true⟩, fun hne hold => ⟨_, exec_ackTimeout hst hne hold, inTraining_enterTraining s k.toNat true⟩⟩
    rw [Bool.false_or, List.any_eq_true]
    exact ⟨f, hf, decide_eq_true hnaks⟩
  case attempt =>
    refine ⟨fun hup => ⟨_, (exec_trainingAttemptEnd hst).trans (congrArg _ ((if_pos rfl).trans (if_pos hup))), rfl⟩,
      fun hno => ⟨_, (exec_trainingAttemptEnd hst).trans (congrArg _ ((if_pos rfl).trans (if_neg ?_))), rfl⟩,
      fun hfew => ⟨_, (exec_trainingAttemptEnd hst).trans (congrArg _ ((if_neg Bool.false_ne_true).trans (if_pos hfew))), ?_⟩,
      fun hmany => ⟨_, (exec_trainingAttemptEnd hst).trans (congrArg _ ((if_neg Bool.false_ne_true).trans
        (if_neg (Nat.not_lt.2 hmany)))), rfl⟩⟩
    · rw [show (getPort s k.toNat).upFrom = none from hno]
      decide
    · exact getPort_modPort ..
  case lane =>
    intro v reg
    have hreg : 0x7000 + (0x108 + 0x20 * k.toNat) = reg := by omega
    have hx := exec_laneRetrain (s := s) (k := k) (ok := ok) h rfl
    rw [hreg] at hx
    refine ⟨fun hbad => ⟨_, hx.trans (congrArg _ (if_pos (decide_eq_true hbad))), rfl⟩, fun hst => ⟨fun hgo hlane => ?_,
      fun hgo hlane => ⟨fun hno => ?_, fun j hj hre => ?_⟩⟩⟩
    all_goals
      rw [if_neg (by simpa using Nat.le_of_lt_succ hlane)] at hx
      have hst' : ((getPort s k.toNat).st != 0) = true := bne_iff_ne.2 hst
      rw [hst', bit_eq_getLsbD, show (halfBits w.half w.value).getLsbD 63 = _ from hgo] at hx
    · rw [if_neg (by simp)] at hx
      refine ⟨_, hx, ?_⟩
      cases moveLane (now s) (getPort s k.toNat) (fld (halfBits w.half w.value) 56 5) (some ok) <;> rfl
    · rw [if_pos] at hx
      · exact ⟨_, hx, rfl⟩
      · rcases hno with hno | hre
        · rw [show moveLane (now s) (getPort s k.toNat) (fld (halfBits w.half w.value) 56 5) (some ok) = none from hno]
          rfl
        · simp [show retrains (getPort s k.toNat) = true from hre]
    · rw [show moveLane (now s) (getPort s k.toNat) (fld (halfBits w.half w.value) 56 5) (some ok) = some j from hj,
        show retrains (getPort s k.toNat) = false from hre] at hx
      exact ⟨_, hx, rfl⟩
  · obtain ⟨hst, hcores⟩ := retryPort_foldl (below 16) s k.toNat
    refine ⟨hst.trans (if_congr ?_ rfl rfl), hcores⟩
    simp [k.isLt, p]

end Sys2Proof.Machine
end

section
/-! PROOFS. Where the next fabric packet goes (R331 to R334, R341, R344). -/

namespace Sys2Proof.Machine

/-! ### The switch, case by case -/

section
variable {s : State} {k : Nat} {p : FPkt}

theorem switchPkt_aged (h : aged s p = true) : switchPkt s k p = some (discardAged s p) := by
  rw [switchPkt, if_pos h]

theorem dropRouteless_transit (h : p.arr.isSome) : dropRouteless s p = routeReport (countNoRoute s 1) sNOROUTE p.dstDid := if_pos h

/-- A device without a DID of its own routes nothing. -/
theorem switchPkt_withoutDid (h : aged s p = false) (hd : hasDid s = false) : switchPkt s k p = some (dropRouteless s p) := by
  simp [switchPkt, h, hd]

theorem switchPkt_mcast (h : aged s p = false) (hd : hasDid s = true) (hm : p.mcast = true) :
    switchPkt s k p = some (switchMcast s k p) := by
  simp [switchPkt, h, hd, hm]

theorem switchPkt_local (h : aged s p = false) (hd : hasDid s = true) (hm : p.mcast = false) (hown : p.dstDid = ownDid s)
    (he : early s p = false) : switchPkt s k p = some (deliverLocal s k p) := by
  simp [switchPkt, h, hd, hm, hown, he]

section
variable (h : aged s p = false) (hd : hasDid s = true) (hm : p.mcast = false) (hown : p.dstDid ≠ ownDid s)
include h hd hm hown

/-- R344: a packet of a held DID. -/
theorem switchPkt_held (hheld : heldDid s p.dstDid = true) : switchPkt s k p = storePkt s p := by
  simp [switchPkt, h, hd, hm, hown, hheld]

theorem switchPkt_route (hheld : heldDid s p.dstDid = false) {j : Nat} {lv : BitVec 2} (he : egressPort s p = .port j lv) :
    switchPkt s k p = some (pump (toEgress s j { p with level := lv }) j) := by
  simp [switchPkt, h, hd, hm, hown, hheld, he]

theorem switchPkt_routeless (hheld : heldDid s p.dstDid = false) (he : egressPort s p = .none) :
    switchPkt s k p = some (dropRouteless s p) := by
  simp [switchPkt, h, hd, hm, hown, hheld, he]

end

theorem storePkt_room (h : holdRoom s p = true) : storePkt s p = some { s with gf := { s.gf with stored := s.gf.stored ++ [p] } } :=
  if_pos h

/-- A packet that its age or its kind takes past those of its flow, and one with none before it, is switched at once. -/
theorem switchFlow_clear (h : aged s p = true ∨ p.mcast = true ∨
    ((s.gf.stored.any fun q => flowOf q == flowOf p) = false ∧ (s.gf.moved.any fun q => flowOf q == flowOf p) = false)) :
    switchFlow s k p = switchPkt s k p := by
  unfold switchFlow
  rcases h with h | h | ⟨hs, hm⟩
  · simp [h]
  · simp [h]
  · simp [hs, hm]

theorem switchFlow_kept (h : aged s p = false) (hm : p.mcast = false) (hkept : (s.gf.stored.any fun q => flowOf q == flowOf p) = true) :
    switchFlow s k p = storePkt s p := by
  simp [switchFlow, h, hm, hkept]

end

/-! ### The first packet that can go (R333) -/

section
variable {take : FPkt → State} {k : Nat} {p : FPkt} {r : List FPkt}

theorem switchFirst_head {t : State} (h : switchFlow (take p) k p = some t) : switchFirst take k [] (p :: r) = some (p, t) := by
  simp [switchFirst, h]

theorem switchFirst_alone (h : switchFlow (take p) k p = none) : switchFirst take k [] [p] = none := by
  simp [switchFirst, h]

/-- A packet that must wait lets the next go, of another flow. -/
theorem switchFirst_second {q : FPkt} {t : State} (h : switchFlow (take p) k p = none) (hflow : flowOf q ≠ flowOf p)
    (hq : switchFlow (take q) k q = some t) : switchFirst take k [] (p :: q :: r) = some (q, t) := by
  simp [switchFirst, h, hflow.symm, hq]

end

/-! ### An arrival port -/

section
variable {s t : State} {k : Nat} {p q : FPkt} {r : List FPkt}

/-- The state with a port's arrivals changed. -/
def withInbox (s : State) (k : Nat) (l : List FPkt) : State := { s with gf := { s.gf with inbox := tput [] s.gf.inbox k l } }

theorem switchPort_head (hl : tget [] s.gf.inbox k = p :: r) (h : switchFlow (withInbox s k r) k p = some t) :
    switchPort s k = freeBuffer t k p := by
  have hfirst := switchFirst_head (take := fun p' => withInbox s k ((p :: r).erase p')) (r := r) (k := k) (p := p) (t := t)
    (by simpa using h)
  simp only [withInbox] at hfirst
  simp only [switchPort, hl, hfirst]

theorem switchPort_waits (hl : tget [] s.gf.inbox k = [p]) (h : switchFlow (withInbox s k []) k p = none) : switchPort s k = s := by
  have hfirst := switchFirst_alone (take := fun p' => withInbox s k ([p].erase p')) (k := k) (p := p) (by simpa using h)
  simp only [withInbox] at hfirst
  simp only [switchPort, hl, hfirst]

theorem switchPort_second (hl : tget [] s.gf.inbox k = p :: q :: r) (h : switchFlow (withInbox s k (q :: r)) k p = none)
    (hflow : flowOf q ≠ flowOf p) (hq : switchFlow (withInbox s k (p :: r)) k q = some t) : switchPort s k = freeBuffer t k q := by
  have hne : p ≠ q := fun he => hflow (he ▸ rfl)
  have hfirst := switchFirst_second (take := fun p' => withInbox s k ((p :: q :: r).erase p')) (k := k) (p := p) (r := r)
    (by simpa using h) hflow (t := t) (by simpa [List.erase_cons, hne] using hq)
  simp only [withInbox] at hfirst
  simp only [switchPort, hl, hfirst]

end

/-! ### The device's own packets, the hold store, and those beside the switch -/

section
variable {s t : State}

theorem switchOwn_skip {k : Nat} {r : List Nat} (h : ownPkts s k = []) : switchOwn s (k :: r) = switchOwn s r := by
  simp [switchOwn, h, switchFirst]

theorem switchOwn_drop {l r : List Nat} (h : ∀ k ∈ l, ownPkts s k = []) : switchOwn s (l ++ r) = switchOwn s r := by
  induction l with
  | nil => rfl
  | cons k l ih =>
    rw [List.cons_append, switchOwn_skip (h k (List.mem_cons_self ..)), ih fun j hj => h j (List.mem_cons_of_mem _ hj)]

theorem switchOwn_head {k : Nat} {r : List Nat} {p : Pkt} {f : FabRef} {l : List Pkt} (hl : tget [] s.landing (epPort k) = p :: l)
    (hf : p.fab = some f) (h : switchFlow { s with landing := tput [] s.landing (epPort k) l } k (toFabric p f) = some t) :
    switchOwn s (k :: r) = t := by
  have hown : ownPkts s k = (p, toFabric p f) :: l.filterMap fun p => p.fab.map fun f => (p, toFabric p f) := by
    simp [ownPkts, hl, hf]
  simp [switchOwn, hown, switchFirst, firstThat, hl, h]

/-- The ports from `k` on, after those below it. -/
theorem below_split {k n : Nat} (h : k < n) : ∃ r, below n = below k ++ k :: r := by
  refine ⟨(List.range' (k + 1) (n - k - 1)), ?_⟩
  rw [below, upto_eq_range', below, upto_eq_range']
  have hn : n = k + (1 + (n - k - 1)) := by omega
  conv_lhs => rw [hn]
  rw [← List.range'_append_1, ← List.range'_append_1]
  simp

theorem switchHeld_head {p : FPkt} {r : List FPkt} (hfree : heldDid s p.dstDid = false ∨ aged s p = true)
    (h : switchPkt (unstore s p) ((p.arr.map BitVec.toNat).getD 0) p = some t) : switchHeld s [] (p :: r) = t := by
  rcases hfree with hfree | hfree <;> simp [switchHeld, hfree, h]

theorem unstore_stored {p : FPkt} {r : List FPkt} (hm : s.gf.moved = []) (hs : s.gf.stored = p :: r) :
    unstore s p = { s with gf := { s.gf with stored := r } } := by
  simp [unstore, hm, hs]

theorem unstore_moved {p : FPkt} {r : List FPkt} (hm : s.gf.moved = p :: r) :
    unstore s p = { s with gf := { s.gf with moved := r } } := by
  simp [unstore, hm]

end

/-! ### FABRIC_PACKET -/

section
variable {s : State} (h : asleep s = false)
include h

theorem exec_fabricPacket_from (k : BitVec 4) : exec (.fabricPacket (.port k)) s = .next (switchPort s k.toNat) := by
  have hx : exec (.fabricPacket (.port k)) s = .next (doFabricPacket (.port k) s) := rfl
  rwa [show doFabricPacket (.port k) s = switchPort s k.toNat by simp [doFabricPacket, h]] at hx

theorem exec_fabricPacket_own : exec (.fabricPacket .own) s = .next (switchOwn s (below 16)) := by
  have hx : exec (.fabricPacket .own) s = .next (doFabricPacket .own s) := rfl
  rwa [show doFabricPacket .own s = switchOwn s (below 16) by simp [doFabricPacket, h]] at hx

theorem exec_fabricPacket_held : exec (.fabricPacket .held) s = .next (switchHeld s [] (s.gf.moved ++ s.gf.stored)) := by
  have hx : exec (.fabricPacket .held) s = .next (doFabricPacket .held s) := rfl
  rwa [show doFabricPacket .held s = switchHeld s [] (s.gf.moved ++ s.gf.stored) by simp [doFabricPacket, h]] at hx

end

/-- The packet at the head of a port's arrivals, once the switch takes it. -/
theorem exec_fabricPacket_port {s v : State} {k : BitVec 4} {p : FPkt} {r : List FPkt} (h : asleep s = false)
    (hl : tget [] s.gf.inbox k.toNat = p :: r) (hv : switchFlow (withInbox s k.toNat r) k.toNat p = some v) :
    answers (.fabricPacket (.port k)) s fun t => t = freeBuffer v k.toNat p :=
  ⟨_, exec_fabricPacket_from h k, switchPort_head hl hv⟩

/-- Settles O37: the switch case by case (`switchPkt`), the flow that keeps a packet back (`switchFlow`), and the first packet
that can go (`switchFirst`). -/
theorem fabricPackets : Obligations.FabricPackets := by
  unfold Obligations.FabricPackets
  refine ⟨fun s k p r hawake hl => ?port, fun s k p f r hawake hskip hl hf v hv => ?own, fun s p r hawake hfree => ?held⟩
  case port =>
    intro u F kept beside
    have go {v : State} (hv : switchFlow u k.toNat p = some v) : F v := exec_fabricPacket_port hawake hl hv
    refine ⟨fun hold => go ((switchFlow_clear (.inl hold)).trans (switchPkt_aged hold)), fun hage => ⟨?kept, ?free⟩, fun hwait =>
      ⟨fun hr => ⟨_, exec_fabricPacket_from hawake k, switchPort_waits (hr ▸ hl) (hr ▸ hwait)⟩,
        fun q r' hr hflow v hv => ⟨_, exec_fabricPacket_from hawake k, switchPort_second (hr ▸ hl) (hr ▸ hwait) hflow hv⟩⟩⟩
    case kept =>
      exact fun hm hkept hroom => go ((switchFlow_kept hage hm hkept).trans (storePkt_room hroom))
    case free =>
      intro hclear
      have hsw : switchFlow u k.toNat p = switchPkt u k.toNat p := switchFlow_clear (.inr hclear)
      refine ⟨fun hd harr => go (hsw.trans ((switchPkt_withoutDid hage hd).trans (congrArg some (dropRouteless_transit harr)))),
        fun hd => ⟨fun hm => go (hsw.trans (switchPkt_mcast hage hd hm)),
          fun hm hown he => go (hsw.trans (switchPkt_local hage hd hm hown he)), fun hm hown => ?_⟩⟩
      exact ⟨fun hheld hroom => go (hsw.trans ((switchPkt_held hage hd hm hown hheld).trans (storePkt_room hroom))), fun hheld =>
        ⟨fun j lv he => go (hsw.trans (switchPkt_route hage hd hm hown hheld he)), fun he harr =>
          go (hsw.trans ((switchPkt_routeless hage hd hm hown hheld he).trans (congrArg some (dropRouteless_transit harr))))⟩⟩
  case own =>
    obtain ⟨l, hsplit⟩ := below_split k.isLt
    refine ⟨_, exec_fabricPacket_own hawake, ?_⟩
    rw [show below 16 = below k.toNat ++ k.toNat :: l from hsplit, switchOwn_drop fun j hj => hskip j ((mem_below _ _).1 hj)]
    exact switchOwn_head hl hf hv
  case held =>
    intro H
    refine ⟨fun hm hs v hv => ⟨_, exec_fabricPacket_held hawake, ?_⟩, fun hm v hv => ⟨_, exec_fabricPacket_held hawake, ?_⟩⟩
    · rw [hm, hs]
      exact switchHeld_head hfree (unstore_stored hm hs ▸ hv)
    · rw [hm]
      exact switchHeld_head hfree (unstore_moved hm ▸ hv)

end Sys2Proof.Machine
end

section
/-! PROOFS. Routing entries, holds, shapers and congestion samples (R340, R343 to R347). -/

namespace Sys2Proof.Machine

/-! ### The GF_ registers -/

section
variable {s : State} {w : Wr} (h : w.writer.toNat = 31)
include h

/-- A write of a GF_ register by the Lookout. -/
theorem gfWrite_lookout (off : Nat) (reserved cond : Bool) (f : State → State) :
    gfWrite s w off reserved cond f =
      if reserved then reject s 0x7000 1 31 (0x7000 + off) else if !cond then reject s 0x7000 2 31 (0x7000 + off) else f s := by
  rw [gfWrite, h, show byPf0 31 = true from rfl]
  exact guardWrite_lookout_judged ..

theorem gfWrite_taken {off : Nat} {reserved cond : Bool} {f : State → State} (hr : reserved = false) (hc : cond = true) :
    gfWrite s w off reserved cond f = f s := by
  rw [gfWrite_lookout h, hr, hc]
  rfl

theorem gfWrite_reserved {off : Nat} {reserved cond : Bool} {f : State → State} (hr : reserved = true) :
    gfWrite s w off reserved cond f = reject s 0x7000 1 31 (0x7000 + off) := by
  rw [gfWrite_lookout h, if_pos hr]

theorem gfWrite_outOfState {off : Nat} {reserved cond : Bool} {f : State → State} (hr : reserved = false) (hc : cond = false) :
    gfWrite s w off reserved cond f = reject s 0x7000 2 31 (0x7000 + off) := by
  rw [gfWrite_lookout h, hr, hc]
  rfl

end

/-! ### The active bank (R344) -/

theorem countStray_active (s : State) (p : FPkt) : (countStray s p).gf.active = s.gf.active := rfl

theorem foldl_countStray_active (l : List FPkt) (s : State) : (l.foldl countStray s).gf.active = s.gf.active := by
  induction l generalizing s with
  | nil => rfl
  | cons p l ih => exact (ih _).trans (countStray_active s p)

theorem setActive_active (s : State) (b : Bool) : (setActive s b).gf.active = b := by
  unfold setActive
  split
  · assumption
  · exact foldl_countStray_active _ { s with gf := { s.gf with active := b } }

theorem doBankSwap_active {s : State} {w : Wr} (h : w.writer.toNat = 31) : (doBankSwap w s).gf.active =
    (mergeHalf w.half (BitVec.ofNat 64 (if s.gf.active then 1 else 0)) w.value).getLsbD 0 := by
  rw [doBankSwap, gfWrite_taken h rfl rfl, setActive_active]
  rfl

/-! ### Shapers (R345, R346) -/

theorem shaperOf_modShaper (s : State) (k p : Nat) (f : Shaper → Shaper) : shaperOf (modShaper s k p f) k p = f (shaperOf s k p) :=
  tget_tput_same ..

/-- A write of GF_SHAPER_CFG within its ranges, at a port that is not fused. -/
theorem shaperWrite_taken {s : State} {w : Wr} (h : w.writer.toNat = 31) {v : Word}
    (hv : v = mergeHalf w.half (shaperCfg (shaperOf s (selShaper s).1 (selShaper s).2)) w.value) (hrate : fld v 32 20 ≤ 400000)
    (hburst : 1024 ≤ fld v 0 24) (hst : (getPort s (selShaper s).1).st ≠ 0) :
    shaperOf (shaperWrite w s) (selShaper s).1 (selShaper s).2 =
      { shaperOf s (selShaper s).1 (selShaper s).2 with
        nextRate := fld v 32 20, burst := fld v 0 24
        tokens := if (halfBits w.half w.value).getLsbD 63 then 0 else (shaperOf s (selShaper s).1 (selShaper s).2).tokens } := by
  subst hv
  rw [shaperWrite]
  dsimp only
  rw [gfWrite_taken h, shaperOf_modShaper]
  · rfl
  · simpa using ⟨hrate, hburst⟩
  · exact bne_iff_ne.2 hst

section
variable {s : State} {k n : BitVec 4}

/-- The bucket of a port and a partition changed, and a packet at the tail of the port's egress queue. -/
def shaperSent (s : State) (k n : Nat) (p : FPkt) (r : List (FPkt × Nat)) : State :=
  let u := modShaper s k n fun h => { h with queue := r, tokens := h.tokens - fLength p }
  { u with gf := { u.gf with egress := tput [] u.gf.egress k (egressOf u k ++ [p]) } }

theorem shaperOf_shaperSent (p : FPkt) (r : List (FPkt × Nat)) : shaperOf (shaperSent s k.toNat n.toNat p r) k.toNat n.toNat =
    { shaperOf s k.toNat n.toNat with queue := r, tokens := (shaperOf s k.toNat n.toNat).tokens - fLength p } :=
  shaperOf_modShaper s _ _ fun h => { h with queue := r, tokens := h.tokens - fLength p }

theorem egressOf_shaperSent (p : FPkt) (r : List (FPkt × Nat)) :
    egressOf (shaperSent s k.toNat n.toNat p r) k.toNat = egressOf s k.toNat ++ [p] := tget_tput_same ..

variable (hawake : asleep s = false)
include hawake

theorem exec_shaperSend {p : FPkt} {at' : Nat} {r : List (FPkt × Nat)} (hq : (shaperOf s k.toNat n.toNat).queue = (p, at') :: r) :
    exec (.shaperSend k n) s = .next (
      if (shaperOf s k.toNat n.toNat).rate = 0 ∨ (shaperOf s k.toNat n.toNat).tokens ≤ 0 then s
      else pump (shaperSent s k.toNat n.toNat p r) k.toNat) := by
  refine exec_awake hawake rfl ?_
  rw [doShaperSend]
  dsimp only
  rw [hq]
  rfl

/-- The packet that a frozen bucket has kept too long taken from it. -/
def shaperFailed (s : State) (k n : Nat) (q : FPkt) : State :=
  modShaper s k n fun h => { h with
    queue := h.queue.filter fun x => x.1 != q, fails := BitVec.ofNat 16 (satAdd 16 h.fails.toNat 1) }

theorem exec_shaperFrozenTimeout {q : FPkt} (hq : frozenDue s (shaperOf s k.toNat n.toNat) = some q) :
    ∃ t, exec (.shaperFrozenTimeout k n) s = .next t ∧
      (∀ o, opOf (shaperFailed s k.toNat n.toNat q) q = some o → t = endOp (shaperFailed s k.toNat n.toNat q) q.srcLcid o sFROZEN) ∧
      (opOf (shaperFailed s k.toNat n.toNat q) q = none →
        (∀ m, (fromFabric q).msg = some m → t = if q.kind = 4 ∧ hdrHost m.h = true then
          endHostMsg (shaperFailed s k.toNat n.toNat q) (hdrRef m.h) sFROZEN else shaperFailed s k.toNat n.toNat q) ∧
        ((fromFabric q).msg = none → t = shaperFailed s k.toNat n.toNat q)) := by
  refine ⟨_, exec_awake hawake rfl rfl, fun o ho => ?_, fun ho => ⟨fun m hm => ?_, fun hm => ?_⟩⟩ <;> rw [doShaperFrozenTimeout]
  all_goals
    dsimp only
    rw [hq]
    dsimp only
    simp only [shaperFailed] at ho
    rw [ho]
  · rfl
  · dsimp only
    rw [hm]
    rfl
  · dsimp only
    rw [hm]
    rfl

end

/-! ### Congestion maps (R347) -/

section
variable {s : State} {n : Nat}

/-- The map with one more sample. -/
def mapSampled (s : State) (n : Nat) : State :=
  { s with gf := { s.gf with openMap := addSample s n s.gf.openMap, openN := s.gf.openN + 1
                             openAt := if s.gf.openN = 0 then s.pace.ns else s.gf.openAt } }

theorem doCongestionSample_open (hat : now s % 100 = 0) (h : s.gf.openN + 1 < s.gf.samples.toNat) :
    doCongestionSample n s = mapSampled s n := by
  rw [doCongestionSample, if_neg (not_not.2 hat)]
  dsimp only
  rw [if_pos h, mapSampled]

/-- A full map closed: what the device keeps of it. -/
theorem doCongestionSample_full (hat : now s % 100 = 0) (h : s.gf.samples.toNat ≤ s.gf.openN + 1) :
    let t := doCongestionSample n s
    t.gf = { s.gf with openMap := [], openN := 0, openAt := 0, epoch := s.gf.epoch + 1
                       closed := closedMap (s.gf.epoch + 1) (s.gf.openN + 1) (if s.gf.openN = 0 then s.pace.ns else s.gf.openAt)
                         (addSample s n s.gf.openMap) } ∧
      t.cores = s.cores := by
  rw [doCongestionSample, if_neg (not_not.2 hat)]
  dsimp only
  rw [if_neg (Nat.not_lt.2 h)]
  exact ⟨rfl, rfl⟩

end

/-- Settles O38: the GF_ registers through `gfWrite`, the active bank through `setActive`, the buckets and the maps. -/
theorem fabricControl : Obligations.FabricControl := by
  unfold Obligations.FabricControl
  refine ⟨fun s w hw => ?registers, fun s k n p at' r hawake => ?shapers, fun s n => ?samples⟩
  case registers =>
    intro i e j m
    have hrt : exec (.routingEntryWrite false w) s = .next (doRoutingEntryWrite false w s) := rfl
    have hmc : exec (.routingEntryWrite true w) s = .next (doRoutingEntryWrite true w s) := rfl
    rw [doRoutingEntryWrite, if_neg Bool.false_ne_true] at hrt
    rw [doRoutingEntryWrite, if_pos rfl] at hmc
    refine ⟨fun hgood hbank hports => ⟨_, hrt, gfWrite_taken hw hgood ?_⟩, fun hbad => ⟨_, hrt, gfWrite_reserved hw hbad⟩,
      fun hgood hno => ⟨_, hrt, gfWrite_outOfState hw hgood ?_⟩, fun hbank hports => ⟨_, hmc, gfWrite_taken hw rfl ?_⟩,
      ⟨_, rfl, ?_⟩, fun h => ?_, ?_⟩
    · exact Bool.and_eq_true_iff.2 ⟨bne_iff_ne.2 hbank, congrArg not hports⟩
    · refine Bool.and_eq_false_iff.2 (hno.imp (fun hbank => ?_) fun hports => congrArg not hports)
      exact bne_eq_false_iff_eq.2 hbank
    · exact Bool.and_eq_true_iff.2 ⟨bne_iff_ne.2 hbank, congrArg not hports⟩
    · exact doBankSwap_active hw
    · intro v
      have hx : exec (.didHold h w) s = .next (doDidHold h w s) := rfl
      refine ⟨fun hon hlt => ⟨_, hx, ?_⟩, fun hoff => ⟨_, hx, gfWrite_taken hw ?_ rfl⟩⟩
      · refine (gfWrite_reserved hw (Bool.and_eq_true_iff.2 ⟨hon, decide_eq_true hlt⟩)).trans ?_
        rw [← Nat.add_assoc]
      · refine Bool.and_eq_false_iff.2 (hoff.imp id fun hle => ?_)
        exact decide_eq_false (Nat.not_lt.2 hle)
    · intro b h v hrate hburst hst h'
      exact ⟨⟨_, rfl, shaperWrite_taken hw rfl hrate hburst hst⟩, ⟨_, rfl, shaperWrite_taken hw rfl hrate hburst hst⟩⟩
  case shapers =>
    intro h hq
    have hx := exec_shaperSend hawake hq
    refine ⟨fun hno => ⟨_, hx.trans (congrArg _ (if_pos hno)), rfl⟩,
      fun hrate htok => ⟨_, hx.trans (congrArg _ (if_neg ?_)), _, rfl, ?_, ?_, rfl⟩, fun q hdue => ?_⟩
    · rintro (h0 | hle)
      · exact hrate h0
      · exact absurd hle (Int.not_le.2 htok)
    · exact shaperOf_shaperSent p r
    · exact egressOf_shaperSent p r
    · obtain ⟨t, ht, hop, hnone⟩ := exec_shaperFrozenTimeout hawake hdue
      refine ⟨t, ht, shaperFailed s k.toNat n.toNat q, fun _ => rfl, shaperOf_modShaper .., ?_⟩
      split
      next o ho => exact hop o ho
      next ho =>
        split
        next m hm => exact (hnone ho).1 m hm
        next hm => exact (hnone ho).2 hm
  case samples =>
    refine ⟨fun hno => ⟨_, rfl, if_pos hno⟩, fun hat hopen => ⟨_, rfl, ?_⟩, fun hat hfull => ⟨_, rfl, ?_⟩⟩
    · rw [doCongestionSample_open hat hopen]
      simp only [mapSampled, and_self]
    · obtain ⟨hgf, hcores⟩ := doCongestionSample_full (n := n) hat hfull
      simp only [hgf, hcores, and_self]

end Sys2Proof.Machine
end

section
/-! PROOFS. HBM_RANGEn, fills, and the scrubs (R227, R354, R362, R363). -/

namespace Sys2Proof.Machine

/-! ### Writes of HBM_RANGEn (R354) -/

theorem rangeWrite_lookout {s : State} {n : BitVec 4} {w : Wr} (h : w.writer.toNat = 31) (htrng : s.sec.trngOk = true) {v : Word}
    (hv : v = rangeFields (mergeHalf w.half (rangeRead s n.toNat) w.value)) :
    rangeWrite n w s =
      if rangeReserved v then reject s 0x6000 1 31 (0x6000 + 8 * n.toNat)
      else if !rangeCond s n.toNat v then reject s 0x6000 2 31 (0x6000 + 8 * n.toNat)
      else applyRange s n.toNat v := by
  subst hv
  rw [rangeWrite]
  simp only [h, htrng, Bool.not_true, Bool.and_false, Bool.false_eq_true, if_false]
  rw [show rangeWriter s n.toNat 31 = true from rfl]
  exact guardWrite_lookout_judged ..

section
variable {s : State} {n : Nat} {v : Word}

/-- What an accepted write leaves of the state: the cores, the stacks, the other ranges and their keys. -/
theorem applyRange_frame :
    let t := applyRange s n v
    (∀ m, m ≠ n → rangeWord t m = rangeWord s m) ∧ t.cores = s.cores ∧ t.hbm.stk = s.hbm.stk ∧
      ∀ m, m ≠ n → tget [] t.hbm.keys m = tget [] s.hbm.keys m := by
  unfold applyRange removeRange
  dsimp only
  split
  · exact ⟨fun m hm => tget_tput_other _ _ _ _ _ hm, rfl, rfl, fun m hm => tget_tput_other _ _ _ _ _ hm⟩
  · split
    · exact ⟨fun m hm => tget_tput_other _ _ _ _ _ hm, rfl, rfl, fun m hm => tget_tput_other _ _ _ _ _ hm⟩
    · split
      · exact ⟨fun _ _ => rfl, rfl, rfl, fun _ _ => rfl⟩
      · exact ⟨fun m hm => tget_tput_other _ _ _ _ _ hm, rfl, rfl, fun _ _ => rfl⟩

theorem applyRange_creation (hv : v.getLsbD 63 = true) (hold : (rangeWord s n).getLsbD 63 = false) :
    rangeWord (applyRange s n v) n = v ∧ tget [] (applyRange s n v).hbm.keys n = (drawKey s).2 := by
  simp only [applyRange, bit_eq_getLsbD, hv, hold, Bool.not_true, Bool.not_false, if_true, if_neg Bool.false_ne_true]
  exact ⟨tget_tput_same .., tget_tput_same ..⟩

theorem applyRange_removal (hv : v.getLsbD 63 = false) :
    (rangeWord (applyRange s n v) n).getLsbD 63 = false ∧ tget 0 (applyRange s n v).hbm.grow n = 0 ∧
      tget [] (applyRange s n v).hbm.keys n = [] := by
  have hword : rangeWord (removeRange s n v) n = wd (v.toNat % 2 ^ 63) := tget_tput_same ..
  simp only [applyRange, bit_eq_getLsbD, hv, Bool.not_false, if_true, hword]
  refine ⟨?_, tget_tput_same .., tget_tput_same ..⟩
  have hlt : v.toNat % 2 ^ 63 < 2 ^ 63 := Nat.mod_lt _ (Nat.two_pow_pos 63)
  rw [wd, BitVec.getLsbD_ofNat, Nat.testBit_lt_two_pow hlt]
  decide

theorem applyRange_growth (hv : v.getLsbD 63 = true) (hold : (rangeWord s n).getLsbD 63 = true)
    (hready : (rangeWord s n).getLsbD 62 = true) :
    rangeWord (applyRange s n v) n = rangeWord s n ∧ tget 0 (applyRange s n v).hbm.grow n = fld v 40 8 := by
  simp only [applyRange, bit_eq_getLsbD, hv, hold, hready, Bool.not_true, if_neg Bool.false_ne_true, if_true]
  exact ⟨rfl, tget_tput_same ..⟩

end

theorem answers_rangeWrite {s : State} {n : BitVec 4} {w : Wr} {P : State → Prop} (h : P (rangeWrite n w s)) :
    answers (.rangeCreation n w) s P ∧ answers (.rangeRemoval n w) s P ∧ answers (.rangeGrowth n w) s P :=
  ⟨⟨_, rfl, h⟩, ⟨_, rfl, h⟩, ⟨_, rfl, h⟩⟩

section
variable {s : State} {n : BitVec 4} {w : Wr} (h : w.writer.toNat = 31) (htrng : s.sec.trngOk = true) {v : Word}
  (hv : v = rangeFields (mergeHalf w.half (rangeRead s n.toNat) w.value))
include h htrng hv

theorem rangeWrite_reserved (hr : rangeReserved v = true) : rangeWrite n w s = reject s 0x6000 1 31 (0x6000 + 8 * n.toNat) :=
  (rangeWrite_lookout h htrng hv).trans (if_pos hr)

theorem rangeWrite_outOfState (hr : rangeReserved v = false) (hc : rangeCond s n.toNat v = false) :
    rangeWrite n w s = reject s 0x6000 2 31 (0x6000 + 8 * n.toNat) := by
  rw [rangeWrite_lookout h htrng hv, hr, hc]
  rfl

theorem rangeWrite_taken (hr : rangeReserved v = false) (hc : rangeCond s n.toNat v = true) :
    rangeWrite n w s = applyRange s n.toNat v := by
  rw [rangeWrite_lookout h htrng hv, hr, hc]
  rfl

end

/-! ### The zero-fill of a range (R354, R362) -/

/-- A table filtered by its keys. -/
theorem tget_filter {α : Type} (d : α) (q : Nat → Bool) (t : Tbl α) (k : Nat) :
    tget d (t.filter fun p => q p.1) k = if q k then tget d t k else d := by
  induction t with
  | nil => simp [tget]
  | cons p t ih =>
    obtain ⟨j, v⟩ := p
    rw [List.filter_cons]
    by_cases hjk : j = k
    · subst hjk
      cases hq : q j <;> simp [tget, hq, ih]
    · cases hq : q j <;> simp [tget, hjk, ih]

theorem rdByte_zeroUnits (k : Stack) (u n a : Nat) : rdByte (zeroUnits k u n).mem a =
    if u * 0x10000000 ≤ a ∧ a < (u + n) * 0x10000000 then 0 else rdByte k.mem a := by
  refine (tget_filter (0 : Byte) (fun a => decide (a < u * 0x10000000) || decide ((u + n) * 0x10000000 ≤ a)) k.mem a).trans ?_
  by_cases hin : u * 0x10000000 ≤ a ∧ a < (u + n) * 0x10000000
  · rw [if_pos hin, if_neg]
    simp only [Bool.or_eq_true, decide_eq_true_eq]
    omega
  · rw [if_neg hin, if_pos]
    · rfl
    · simp only [Bool.or_eq_true, decide_eq_true_eq]
      omega

theorem not_mem_bad_zeroUnits {k : Stack} {u n a : Nat} (hlo : u * 0x10000000 ≤ a) (hhi : a < (u + n) * 0x10000000) :
    a / 64 ∉ (zeroUnits k u n).bad := by
  simp only [zeroUnits, List.mem_filter, Bool.or_eq_true, decide_eq_true_eq]
  omega

theorem mem_rangeStacks_lt {w : Word} {t : Nat} (h : t ∈ rangeStacks w) : t < 4 := by
  unfold rangeStacks at h
  split at h
  · obtain rfl := List.mem_singleton.1 h
    exact Nat.mod_lt _ (by decide)
  · exact (mem_below _ _).1 h

theorem rangeStacks_nodup (w : Word) : (rangeStacks w).Nodup := by
  unfold rangeStacks
  split
  · exact List.nodup_singleton _
  · exact below_nodup 4

/-- Each stack of a list zeroed once. -/
theorem getStack_zeroed (u n : Nat) (k : BitVec 2) (ts : List Nat) (s : State) (hts : ∀ t ∈ ts, t < 4) (hnodup : ts.Nodup) :
    getStack (ts.foldl (fun s t => modStack s (BitVec.ofNat 2 t) fun k => zeroUnits k u n) s) k =
      if k.toNat ∈ ts then zeroUnits (getStack s k) u n else getStack s k := by
  induction ts generalizing s with
  | nil => rfl
  | cons t ts ih =>
    obtain ⟨htail, hnodup⟩ := List.nodup_cons.1 hnodup
    have ht : t < 4 := hts t (List.mem_cons_self ..)
    have htn : (BitVec.ofNat 2 t).toNat = t := Nat.mod_eq_of_lt ht
    rw [List.foldl_cons, ih _ (fun j hj => hts j (List.mem_cons_of_mem _ hj)) hnodup]
    by_cases hk : k.toNat = t
    · have hkt : k = BitVec.ofNat 2 t := BitVec.eq_of_toNat_eq (hk.trans htn.symm)
      rw [if_neg (hk ▸ htail), if_pos (hk ▸ List.mem_cons_self ..), hkt, getStack_modStack]
    · have hkt : k ≠ BitVec.ofNat 2 t := fun h => hk (h ▸ htn)
      rw [getStack_modStack_other _ _ _ _ hkt]
      simp [hk]

theorem getStack_fillUnits (s : State) (w : Word) (u n : Nat) (k : BitVec 2) :
    getStack (fillUnits s w u n) k = if k.toNat ∈ rangeStacks w then zeroUnits (getStack s k) u n else getStack s k :=
  getStack_zeroed u n k _ s (fun _ => mem_rangeStacks_lt) (rangeStacks_nodup w)

theorem fillUnits_cores (s : State) (w : Word) (u n : Nat) : (fillUnits s w u n).cores = s.cores := by
  unfold fillUnits
  generalize rangeStacks w = ts
  induction ts generalizing s with
  | nil => rfl
  | cons t ts ih => exact ih _

/-- The fill of a range that a creation began. -/
theorem exec_rangeFillComplete {s : State} {n : BitVec 4} (hv : (rangeWord s n.toNat).getLsbD 63 = true)
    (hr : (rangeWord s n.toNat).getLsbD 62 = false) :
    ∃ t, exec (.rangeFillComplete n) s = .next t ∧ rangeWord t n.toNat = putFld (rangeWord s n.toNat) 62 1 1 ∧
      t.cores = s.cores ∧ ∀ k, getStack t k =
        getStack (fillUnits s (rangeWord s n.toNat) (fld (rangeWord s n.toNat) 32 8) (fld (rangeWord s n.toNat) 40 8)) k := by
  have hx : exec (.rangeFillComplete n) s = .next (doRangeFillComplete n s) := rfl
  simp only [doRangeFillComplete, bit_eq_getLsbD, hv, hr, Bool.not_true, Bool.not_false, if_neg Bool.false_ne_true, if_true] at hx
  exact ⟨_, hx, tget_tput_same .., fillUnits_cores .., fun _ => rfl⟩

/-! ### The patrol and the scratchpad's scrubber (R227, R363) -/

theorem getStack_raiseEv (s : State) (r : Rpt) (e : Ev) (k : BitVec 2) : getStack (raiseEv s r e) k = getStack s k := rfl

section
variable {s : State} {k : BitVec 2} {u : Upset}

/-- An error that a granule meets leaves its stack in service. -/
theorem hbmServes_hbmUpset : hbmServes (hbmUpset s k u) k = hbmServes s k := by
  have hmod (f : Stack → Stack) (hf : (f (getStack s k)).selfRef = (getStack s k).selfRef) (r : Rpt) (e : Ev) :
      hbmServes (raiseEv (modStack s k f) r e) k = hbmServes s k := by
    rw [hbmServes, getStack_raiseEv, getStack_modStack, hf, hbmServes]
  unfold hbmUpset
  dsimp only
  split
  · rfl
  · split
    · exact hmod _ rfl _ _
    · exact hmod _ rfl _ _

theorem hbmUpset_corrected (hat : u.at' < 0x30000000) (hgood : sHas (getStack s k).bad u.at' = false) (hc : u.correctable = true) :
    getStack (hbmUpset s k u) k =
      { getStack s k with corrected := BitVec.ofNat 32 (satAdd 32 (getStack s k).corrected.toNat 1) } := by
  simp only [hbmUpset, Nat.mod_eq_of_lt hat, hgood, hc, if_neg Bool.false_ne_true, if_true]
  rw [getStack_raiseEv, getStack_modStack]

theorem hbmUpset_marked (hat : u.at' < 0x30000000) (hgood : sHas (getStack s k).bad u.at' = false) (hc : u.correctable = false) :
    getStack (hbmUpset s k u) k =
      { getStack s k with bad := sIns (getStack s k).bad u.at'
                          uncorr := BitVec.ofNat 16 (satAdd 16 (getStack s k).uncorr.toNat 1) } := by
  simp only [hbmUpset, Nat.mod_eq_of_lt hat, hgood, hc, if_neg Bool.false_ne_true]
  rw [getStack_raiseEv, getStack_modStack]

theorem hbmUpset_cores : (hbmUpset s k u).cores = s.cores := by
  unfold hbmUpset
  dsimp only
  split
  · rfl
  · split <;> rfl

variable {first n : Nat} {ups : List Upset}

theorem exec_patrolScrub (hs : hbmServes s k = true) : exec (.patrolScrub k first n ups) s =
    .next ((ups.filter fun u => first ≤ u.at' && u.at' < first + n).foldl (fun s u => hbmUpset s k u) s) := by
  have hx : exec (.patrolScrub k first n ups) s = .next (doPatrolScrub k first n ups s) := rfl
  rwa [doPatrolScrub, if_pos hs] at hx

theorem exec_patrolScrub_none (hs : hbmServes s k = true) (h : ∀ v ∈ ups, v.at' < first ∨ first + n ≤ v.at') :
    exec (.patrolScrub k first n ups) s = .next s := by
  rw [exec_patrolScrub hs, List.filter_eq_nil_iff.2 fun v hv => ?_]
  · rfl
  · have := h v hv
    simp only [Bool.and_eq_true, decide_eq_true_eq]
    omega

theorem exec_patrolScrub_cons (hs : hbmServes s k = true) (hlo : first ≤ u.at') (hhi : u.at' < first + n) :
    exec (.patrolScrub k first n (u :: ups)) s = exec (.patrolScrub k first n ups) (hbmUpset s k u) := by
  rw [exec_patrolScrub hs, exec_patrolScrub (hbmServes_hbmUpset.trans hs), List.filter_cons_of_pos, List.foldl_cons]
  simp [hlo, hhi]

end

theorem scrub_slUpset (s : State) (l : Lcid) (u : Upset) : (getCore (slUpset s l u) l).sp.scrub = (getCore s l).sp.scrub := by
  have hset (k : Core) (r : Rpt) (e : Ev) : getCore (raiseEv (setCore s l k) r e) l = k := getCore_setCore s l k
  unfold slUpset
  dsimp only
  split
  · rfl
  · split <;> rw [hset] <;> rfl

theorem exec_scrubStep {s : State} {l : Lcid} {ups : List Upset} (hw : sliceWorks s l = true) (hawake : asleep s = false) :
    exec (.scrubStep l ups) s = .next (modCore (ups.foldl (fun s u => slUpset s l u) s) l fun k =>
      modSp k fun sl => { sl with scrub := (sl.scrub % 16384 + 1) % 16384 }) := by
  have hx : exec (.scrubStep l ups) s = .next (doScrubStep l ups s) := rfl
  simpa only [doScrubStep, hw, hawake, Bool.not_true, Bool.or_false, if_neg Bool.false_ne_true] using hx

theorem scrub_foldl_slUpset (l : Lcid) (ups : List Upset) (s : State) :
    (getCore (ups.foldl (fun s u => slUpset s l u) s) l).sp.scrub = (getCore s l).sp.scrub := by
  induction ups generalizing s with
  | nil => rfl
  | cons u ups ih => exact (ih _).trans (scrub_slUpset s l u)

/-- Settles O40: the range write by its three acceptances, the fill stack by stack, the patrol error by error, the scrubber. -/
theorem externalMemory : Obligations.ExternalMemory := by
  unfold Obligations.ExternalMemory
  refine ⟨fun s n w hw htrng => ?ranges, fun s n => ?fill, fun s k first n u hs => ?patrol, fun s l ups hw hawake => ?scrub⟩
  case ranges =>
    intro old v W
    have hv : v = rangeFields (mergeHalf w.half (rangeRead s n.toNat) w.value) := rfl
    clear_value v
    refine ⟨fun hres => answers_rangeWrite (rangeWrite_reserved hw htrng hv hres),
      fun hres hno => answers_rangeWrite (rangeWrite_outOfState hw htrng hv hres hno), fun hres hyes => answers_rangeWrite ?_⟩
    rw [rangeWrite_taken hw htrng hv hres hyes]
    obtain ⟨hothers, hcores, hstk, hkeys⟩ := applyRange_frame (s := s) (n := n.toNat) (v := v)
    exact ⟨hothers, hcores, hstk, hkeys, applyRange_creation, applyRange_removal, applyRange_growth⟩
  case fill =>
    intro w hv hr
    obtain ⟨t, ht, hword, hcores, hstack⟩ := exec_rangeFillComplete hv hr
    refine ⟨t, ht, hword, hcores, fun k => ?_⟩
    intro lo hi
    refine ⟨fun a ha => ?_, fun a hk hlo hhi => ?_⟩
    all_goals rw [hstack k, getStack_fillUnits]
    · split
      · next hk =>
        rw [rdByte_zeroUnits, if_neg]
        rintro ⟨h1, h2⟩
        exact ha.elim (fun h => h hk) (fun h => h.elim (fun h => absurd h1 (Nat.not_le.2 h)) fun h => absurd h2 (Nat.not_lt.2 h))
      · rfl
    · rw [if_pos hk, rdByte_zeroUnits, if_pos ⟨hlo, hhi⟩]
      exact ⟨rfl, not_mem_bad_zeroUnits hlo hhi⟩
  case patrol =>
    refine ⟨fun ups hups => ⟨_, exec_patrolScrub_none hs hups, rfl⟩, fun ups hlo hhi => exec_patrolScrub_cons hs hlo hhi,
      fun hlo hhi hat hgood => ⟨_, (exec_patrolScrub_cons hs hlo hhi).trans (exec_patrolScrub_none (hbmServes_hbmUpset.trans hs) (by simp)),
        ?_⟩⟩
    cases hc : u.correctable with
    | true =>
      rw [hbmUpset_corrected hat hgood hc, hbmUpset_cores]
      exact ⟨rfl, rfl, fun _ => ⟨by rw [toNat_satAdd, show (2 ^ 32 - 1 : Nat) = 0xFFFFFFFF by norm_num], rfl⟩, fun h => absurd h (by decide)⟩
    | false =>
      rw [hbmUpset_marked hat hgood hc, hbmUpset_cores]
      exact ⟨rfl, rfl, fun h => absurd h (by decide), fun _ => ⟨toNat_satAdd, rfl⟩⟩
  case scrub =>
    refine ⟨_, exec_scrubStep hw hawake, ?_, fun hups => ?_⟩
    · rw [getCore_modCore]
      show ((getCore (ups.foldl (fun s u => slUpset s l u) s) l).sp.scrub % 16384 + 1) % 16384 = _
      rw [scrub_foldl_slUpset]
    · subst hups
      rw [getCore_modCore]
      exact ⟨rfl, rfl⟩

end Sys2Proof.Machine
end

section
/-! PROOFS. Reports, records and the head of an error log (R459, R461, R463, R471). -/

namespace Sys2Proof.Machine

/-! ### REPORT (R459) -/

section
variable {s : State} {r : Rpt} {rest : List Rpt}

/-- The state with its first report taken off. -/
def reportTaken (s : State) (rest : List Rpt) : State := { s with errs := { s.errs with reports := rest } }

theorem exec_report (h : s.errs.reports = r :: rest) : exec .report s = .next (
    if absorbed s r then reportTaken s rest else takeReport (reportTaken s rest) r) := by
  have hx : exec .report s = .next (doReport s) := rfl
  rw [doReport, h] at hx
  exact hx

theorem takeReport_match (h : ∃ e ∈ (getComb s (combOf r)).die, matchesRec e r = true) :
    takeReport s r = matchRecord s (combOf r) r :=
  if_pos (List.any_eq_true.2 h)

theorem takeReport_open (h : ∀ e ∈ (getComb s (combOf r)).die, matchesRec e r = false) : takeReport s r = openRecord s (combOf r) r :=
  if_neg fun hany => by
    obtain ⟨e, he, hm⟩ := List.any_eq_true.1 hany
    rw [h e he] at hm
    cases hm

end

theorem mergeReport_match {t : Nat} {e : LogEnt} {r : Rpt} (h : matchesRec e r = true) :
    (mergeReport t r e).count = min (e.count + 1) 0xFFFFFFFF ∧ (mergeReport t r e).last = r.time ∧
      (mergeReport t r e).seq = e.seq ∧ (mergeReport t r e).opened = e.opened := by
  rw [mergeReport, if_pos h]
  exact ⟨rfl, rfl, rfl, rfl⟩

/-! ### A new record (R459, R463) -/

section
variable {s : State} {i : Nat} {r : Rpt}

theorem getComb_recordSignals : getComb (recordSignals s r) i = getComb s i := by
  unfold recordSignals
  dsimp only
  split <;> rfl

/-- A settled combiner with fewer than 64 open records takes the report, or loses it while the die is full. -/
theorem openRecord_settled (hset : settleComb s i = s) (hopen : (openRecs (getComb s i)).length < 64) :
    openRecord s i r = if 1024 ≤ (getComb s i).die.length then loseReport s i r
      else recordSignals (modComb s i fun c => addEntry c
        { r := r, count := 1, last := r.time, opened := true, lastTick := now s, openTick := now s, seq := 0
          evs := rptEvs r, sev0 := r.sev }) r := by
  have hclose (e : LogEnt) :
      (if 64 ≤ (openRecs (getComb s i)).length then modComb s i fun c => closeRec c e.seq else s) = s := if_neg (Nat.not_le.2 hopen)
  unfold openRecord
  simp only [hclose]
  split <;> rw [hset] <;> rfl

/-- A report lost: how often, of which classes, and the gap that it opens or widens. -/
theorem getComb_loseReport : ∃ g, getComb (loseReport s i r) i =
    { getComb s i with
      gap := some g, lost := min ((getComb s i).lost + 1) (2 ^ 64 - 1), armed := false
      ovf := tput 0 (getComb s i).ovf r.cls.toNat (BitVec.ofNat 16 (satAdd 16 (tget 0 (getComb s i).ovf r.cls.toNat).toNat 1)) } := by
  have hsig : getComb (if (getComb s i).armed then signalVec s 0 (192 + i) else s) i = getComb s i := by split <;> rfl
  unfold loseReport
  dsimp only
  rw [getComb_modComb, hsig]
  exact ⟨_, rfl⟩

end

/-! ### RECORD_CLOSE and ERR_HEAD_WRITE (R461, R471) -/

theorem exec_recordClose {s : State} {i : BitVec 2} {q : BitVec 32} {e : LogEnt}
    (h : firstThat (fun (e : LogEnt) => e.seq % 2 ^ 32 == q.toNat && recordDue s e) (getComb s i.toNat).die = some e) :
    exec (.recordClose i q) s = .next (settleComb (modComb s i.toNat fun c => closeRec c e.seq) i.toNat) := by
  have hx : exec (.recordClose i q) s = .next (doRecordClose i q s) := rfl
  rw [doRecordClose, h] at hx
  exact hx

/-- How far a write moves HEAD. -/
def headMoves (s : State) (i : Nat) (w : Wr) : Nat :=
  headStep (getComb s i) (fld (mergeHalf w.half (BitVec.ofNat 64 (getComb s i).head) w.value) 0 32)

theorem exec_errHeadWrite {s : State} {i : BitVec 2} {w : Wr} (h : w.writer.toNat = 31) : exec (.errHeadWrite i w) s = .next (
    if (getComb s i.toNat).tail - (getComb s i.toNat).head < headMoves s i.toNat w then reject s 0x4000 1 31 (0x4108 + 0x100 * i.toNat)
    else advanceHead s i.toNat ((getComb s i.toNat).head + headMoves s i.toNat w)) := by
  have hx : exec (.errHeadWrite i w) s = .next (doErrHeadWrite i w s) := rfl
  rw [doErrHeadWrite] at hx
  simp only [errWrite, h, show byPf0 31 = true from rfl] at hx
  rw [hx, guardWrite_lookout_judged, errBlk, ← Nat.add_assoc]
  simp only [decide_eq_true_eq]
  rfl

/-- Settles O41: the report through `takeReport`, the new record of a settled combiner, the close, the head. -/
theorem errorLogs : Obligations.ErrorLogs := by
  unfold Obligations.ErrorLogs
  refine ⟨fun s r rest h => ?report, fun e r t h => mergeReport_match h, fun s i r hset hopen => ⟨fun hroom => ?opened, fun hfull => ?full⟩,
    fun s i q e h => ⟨_, exec_recordClose h, rfl⟩, fun s i w hw => ?head⟩
  case report =>
    intro i c
    have hx := exec_report h
    refine ⟨fun habs => ⟨_, hx.trans (congrArg _ (if_pos habs)), rfl⟩, fun habs hmatch => ?_, fun habs hno => ?_⟩
    all_goals rw [habs, if_neg Bool.false_ne_true] at hx
    · rw [takeReport_match (s := reportTaken s rest) hmatch] at hx
      have hc : getComb (matchRecord (reportTaken s rest) i r) i = { c with die := c.die.map (mergeReport (now s) r) } :=
        getComb_modComb ..
      exact ⟨_, hx, rfl, rfl, congrArg Comb.die hc, (congrArg Comb.tail hc).trans rfl, fun j hj => getComb_modComb_other _ _ _ _ hj⟩
    · rw [takeReport_open (s := reportTaken s rest) hno] at hx
      exact ⟨_, hx, rfl⟩
  case opened =>
    intro c
    have hc : c = _ := congrArg (getComb · i) ((openRecord_settled (r := r) hset hopen).trans (if_neg (Nat.not_le.2 hroom)))
    rw [getComb_recordSignals, getComb_modComb] at hc
    rw [hc]
    exact ⟨rfl, _, rfl, rfl, rfl, rfl, rfl⟩
  case full =>
    intro c
    have hc : c = _ := congrArg (getComb · i) ((openRecord_settled (r := r) hset hopen).trans (if_pos hfull))
    obtain ⟨g, hg⟩ := getComb_loseReport (s := s) (i := i) (r := r)
    rw [hg] at hc
    rw [hc]
    refine ⟨rfl, rfl, rfl, ?_⟩
    rw [tget_tput_same]
    exact toNat_satAdd
  case head =>
    intro c step
    have hx := exec_errHeadWrite (s := s) (i := i) hw
    exact ⟨fun hlt => ⟨_, hx.trans (congrArg _ (if_pos hlt)), rfl⟩,
      fun hle => ⟨_, hx.trans (congrArg _ (if_neg (Nat.not_lt.2 hle))), rfl⟩⟩

end Sys2Proof.Machine
end

section
/-! PROOFS. Hardware faults of a core, the fault agent, and the record of a Snag (R454, R465, R472 to R476). -/

namespace Sys2Proof.Machine

/-! ### A hardware fault (R18, R181, R454) -/

section
variable {s : State} {l : Lcid} {c : CtxNo} {e : SiteEngine} {tw : Bool}

/-- R454: the entry of a hardware fault into a context in any state but FREE and FAULTED. -/
theorem faultCtx_internal {unit : Nat} {pc : BitVec 21} {d : Word} (hfree : (ctxOf s l c).st ≠ .free)
    (hfault : effSt (ctxOf s l c) ≠ .faulted) :
    FaultEntered (ctxOf s l c) (ctxOf (faultCtx s l c sINTERNAL false unit pc d) l c) (fr0Of sINTERNAL false unit pc) d := by
  have hun := onlyUnits_abandonWait s l c
  simp only [faultCtx, if_neg hfree, if_neg hfault, show hardware sINTERNAL = true from rfl, if_true]
  rw [ctxOf_modCore, getCtx_recoveryHold, getCore_modCore, getCtx_bumpFaults, getCtx_modCtx]
  refine faultEntered_hold ⟨?_, rfl, rfl, ?_⟩
  · exact effSt_setSt _ (by decide)
  · rw [show getCtx (getCore (abandonWait s l c) l) c = ctxOf s l c from hun.ctxOf c]
    simp only [setSt]
    split <;> rfl

/-- The report of a hardware fault. -/
def internalRpt (s : State) (l : Lcid) (e : SiteEngine) (tw : Bool) : Rpt :=
  rptCore s l { rpt 2 sINTERNAL 1 0 (sitePsid s l tw (engineCode e)) with d0 := wd (sitePsid s l tw 7).toNat }

variable (hawake : asleep s = false) (hocc : occupied s l = true)
include hawake hocc

theorem exec_coreInternalFault (hsite : siteThere s l tw = true) (c : Option CtxNo) :
    exec (.coreInternalFault l ⟨e, c, tw⟩) s = .next (raiseEv (modCore (internalEntry s l e (sitePsid s l tw 7) c) l recoveryHold)
      (internalRpt s l e tw) (.internal (sitePsid s l tw 7))) := by
  refine exec_awake hawake rfl ?_
  simp only [doCoreInternalFault, hocc, hsite, Bool.and_self, Bool.not_true, if_neg Bool.false_ne_true]
  rfl

omit hocc in
/-- A fault of a site that the position does not have. -/
theorem exec_coreInternalFault_noSite (hsite : siteThere s l tw = false) (c : Option CtxNo) :
    exec (.coreInternalFault l ⟨e, c, tw⟩) s = .next s := by
  refine exec_awake hawake rfl ?_
  simp only [doCoreInternalFault, hsite, Bool.and_false, Bool.not_false, if_true]

end

/-! ### The fault agent (R465, R472 to R476) -/

section
variable {s : State} {i : BitVec 2} {q : BitVec 32} {e : LogEnt}

/-- An entry's events taken from it. -/
def eventsTaken (e x : LogEnt) : LogEnt := if x.seq = e.seq then { x with evs := [] } else x

theorem evs_eventsTaken {x : LogEnt} (h : (eventsTaken e x).seq = e.seq) : (eventsTaken e x).evs = [] := by
  unfold eventsTaken at h ⊢
  split
  · rfl
  · next hne =>
    rw [if_neg hne] at h
    exact absurd h hne

/-- The combiner with an entry's events taken. -/
def agentTook (s : State) (i : Nat) (e : LogEnt) : State :=
  modComb s i fun c => { c with die := c.die.map (eventsTaken e), spill := c.spill.map (eventsTaken e) }

theorem evs_agentTook {i : Nat} {x : LogEnt} (hx : x ∈ (getComb (agentTook s i e) i).die ++ (getComb (agentTook s i e) i).spill)
    (hseq : x.seq = e.seq) : x.evs = [] := by
  rw [agentTook, getComb_modComb, List.mem_append] at hx
  obtain hx | hx := hx <;>
  · obtain ⟨y, -, rfl⟩ := List.mem_map.1 hx
    exact evs_eventsTaken hseq

variable (he : firstThat (fun (e : LogEnt) => e.seq % 2 ^ 32 == q.toNat && !e.evs.isEmpty)
  ((getComb s i.toNat).spill ++ (getComb s i.toNat).die) = some e)
include he

theorem exec_faultAgentAction_waits (h : inTurn s e = false ∨ gapOpen s = true) : exec (.faultAgentAction i q) s = .next s := by
  have hx : exec (.faultAgentAction i q) s = .next (doFaultAgentAction i q s) := rfl
  rw [doFaultAgentAction] at hx
  dsimp only at hx
  rw [he] at hx
  exact hx.trans (congrArg _ (if_pos (by rcases h with h | h <;> simp [h])))

theorem exec_faultAgentAction {t : State} (hturn : inTurn s e = true) (hgap : gapOpen s = false)
    (hnone : e.evs.filterMap (fun v => if v.2.1 then evSite v.1 else none) = [] →
      t = e.evs.foldl (actOne i.toNat e.seq) (agentTook s i.toNat e))
    (hsome : ∀ p r, e.evs.filterMap (fun v => if v.2.1 then evSite v.1 else none) = p :: r →
      t = oneRecovery (agentTook s i.toNat e) (psidDg p) fun s => serveEarlier (e.evs.foldl (actOne i.toNat e.seq) s) (psidDg p)) :
    exec (.faultAgentAction i q) s = .next t := by
  have hx : exec (.faultAgentAction i q) s = .next (doFaultAgentAction i q s) := rfl
  rw [doFaultAgentAction] at hx
  dsimp only at hx
  rw [he] at hx
  dsimp only at hx
  rw [hturn, hgap, Bool.not_true, Bool.false_or, if_neg Bool.false_ne_true] at hx
  split at hx
  next p r hp => exact hx.trans (congrArg _ (hsome p r hp).symm)
  next hp => exact hx.trans (congrArg _ (hnone hp).symm)

end

/-! ### SNAG_RECORD (R494 to R496) -/

section
variable {s : State} {ms : List (Lcid × CtxNo)} {m n : Lcid × CtxNo} {r : List (Lcid × CtxNo)}

/-- A cycle of waits that no detector has recorded, each of them quiet for long enough. -/
def NewSnag (s : State) (ms : List (Lcid × CtxNo)) : Prop :=
  ms.Nodup ∧ (∀ p ∈ cyclePairs ms, quietEdge s p.1 p.2 = true) ∧ ∀ p ∈ s.snags, ms ∉ p.2.live

theorem newSnag_iff : NewSnag s ms ↔
    (!(s.snags.any fun p => p.2.live.contains ms) && ms.Nodup && (cyclePairs ms).all fun p => quietEdge s p.1 p.2) = true := by
  simp only [NewSnag, Bool.and_eq_true, Bool.not_eq_true', List.any_eq_false, List.contains_eq_mem, decide_eq_true_eq, List.all_eq_true]
  tauto

theorem doSnagRecord_new (hms : fromClosing s ms = m :: n :: r) (h : NewSnag s (m :: n :: r)) :
    doSnagRecord ms s = recordSnag s m (m :: n :: r) := by
  rw [doSnagRecord, hms]
  exact if_pos (newSnag_iff.1 h)

theorem doSnagRecord_other (hms : fromClosing s ms = m :: n :: r) (h : ¬NewSnag s (m :: n :: r)) : doSnagRecord ms s = s := by
  rw [doSnagRecord, hms]
  exact if_neg fun hyes => h (newSnag_iff.2 hyes)

/-- What the record of a Snag leaves: the detector's count, its record, one report, and no core's change. -/
theorem recordSnag_frame :
    let t := recordSnag s m ms
    let i := standOf (dgOf m.1)
    getSnag t i = { getSnag s i with
      count := BitVec.ofNat 32 (satAdd 32 (getSnag s i).count.toNat 1), next := (getSnag s i).next + 1
      recs := tput [] (getSnag s i).recs (getSnag s i).next.toNat (snagRecordWords s (satAdd 32 (getSnag s i).count.toNat 1) ms)
      live := (getSnag s i).live ++ [ms] } ∧
    t.errs.reports.length = s.errs.reports.length + 1 ∧ t.cores = s.cores := by
  unfold recordSnag
  dsimp only
  split
  · exact ⟨tget_tput_same .., List.length_append, rfl⟩
  · exact ⟨tget_tput_same .., List.length_append, rfl⟩

end

/-- Settles O42: the fault's entry (`faultCtx_internal`), the agent's turn, and the cycle that a detector records. -/
theorem faultsAndSnags : Obligations.FaultsAndSnags := by
  unfold Obligations.FaultsAndSnags
  refine ⟨fun s l e tw hawake hocc => ?fault, fun s l e c tw hawake hocc hsite hfree hnot => ?entered, fun s i q e => ?agent,
    fun s ms m n r hms => ?snag⟩
  case fault =>
    refine ⟨fun hsite => ⟨_, exec_coreInternalFault hawake hocc hsite none, getCore_modCore .., ?_, fun l' hl =>
      getCore_modCore_other _ _ _ _ hl, List.length_append, ?_⟩, fun hno c => ⟨_, exec_coreInternalFault_noSite hawake hno c, rfl⟩⟩
    · exact congrArg Core.recHold (getCore_modCore s l recoveryHold)
    · exact List.mem_append_right _ (List.mem_singleton_self _)
  case entered =>
    obtain ⟨hst, h0, h1, -⟩ := faultEntered_hold (faultCtx_internal (unit := engineUnit e) (pc := (ctxOf s l c).pc)
      (d := wd (sitePsid s l tw 7).toNat) hfree hnot)
    have hctx (v : State) (r : Rpt) (ev : Ev) : ctxOf (raiseEv (modCore v l recoveryHold) r ev) l c = holdCtx (ctxOf v l c) true :=
      (ctxOf_modCore ..).trans (getCtx_recoveryHold _ c)
    refine ⟨_, exec_coreInternalFault hawake hocc hsite (some c), ?_⟩
    beta_reduce
    rw [hctx]
    exact ⟨hst, h0, h1, congrArg Core.recHold (getCore_modCore _ l recoveryHold)⟩
  case agent =>
    intro c he sites act
    refine ⟨fun hno => ⟨_, exec_faultAgentAction_waits he hno, rfl⟩, fun hturn hgap =>
      ⟨_, exec_faultAgentAction he hturn hgap (fun hnone => ?_) fun p r hsome => ?_, agentTook s i.toNat e, rfl, fun x => evs_agentTook, rfl⟩⟩
    · rw [show sites = [] from hnone]
    · rw [show sites = p :: r from hsome]
  case snag =>
    intro ok i
    refine ⟨fun hok => ⟨_, rfl, ?_⟩, fun hno => ⟨_, rfl, doSnagRecord_other hms hno⟩⟩
    rw [doSnagRecord_new hms hok]
    obtain ⟨hsnag, hreports, hcores⟩ := recordSnag_frame (s := s) (m := m) (ms := m :: n :: r)
    rw [show getSnag _ i = _ from hsnag]
    exact ⟨toNat_satAdd, rfl, hreports, hcores, tget_tput_same ..⟩

end Sys2Proof.Machine
end

section
/-! PROOFS. The obligation on register writes fails for HBM_RANGEn while the TRNG fails its health test. -/

namespace Sys2Proof.Machine

/-- The reset state, whose PCIe link does not serve, with a TRNG that has failed its health test (R412). -/
def starvedReset : State := { State.reset with sec := { State.reset.sec with trngOk := false } }

/-- A range word that creates a range: VALID, BASE 1, SIZE 1. -/
def creationWord : Word := 0x8000010100000000

/-- Refutes O43: PF0's write of HBM_RANGE0 while the function does not serve is ignored by `guardWrite`, but `rangeWrite` reports
the key that the failed TRNG cannot draw (R412) all the same, so that the state is not as before. -/
theorem not_registerWrites : ¬ Obligations.RegisterWrites := by
  unfold Obligations.RegisterWrites
  rintro ⟨-, hignored, -⟩
  obtain ⟨t, hx, ht⟩ := hignored starvedReset 0 0x6000 8 creationWord (by decide) (by decide)
  have hrun : exec (.registerWrite 0 0x6000 8 creationWord) starvedReset =
      .next (doRegisterWrite 0 0x6000 8 creationWord starvedReset) := rfl
  obtain rfl : doRegisterWrite 0 0x6000 8 creationWord starvedReset = t := Host.Outcome.next.inj (hrun.symm.trans hx)
  exact absurd (congrArg (fun t => t.errs.reports.length) ht) (by decide)

end Sys2Proof.Machine
end

section
/-! PROOFS. Doorbells (R372). -/

namespace Sys2Proof.Machine

/-! ### Functions and their pairs -/

theorem sHas_sIns (t : NatSet) (k : Nat) : sHas (sIns t k) k = true := by
  induction t with
  | nil => simp [sIns, sHas]
  | cons j r ih =>
    simp only [sHas, sIns] at ih ⊢
    split
    · simp
    · split
      · next h => simp [h]
      · simp only [List.contains_cons, ih, Bool.or_true]

/-- R381: a vector signalled, by whether it is unmasked. -/
theorem signalFn_cases (n : Fn) (v : Nat) :
    (sHas n.unmasked v = true → signalFn n v = { n with sent := tput 0 n.sent v (tget 0 n.sent v + 1) }) ∧
      (sHas n.unmasked v = false → signalFn n v = { n with pend := sIns n.pend v }) :=
  ⟨fun h => if_pos h, fun h => if_neg (by simp [h])⟩

theorem signalFn_kept (n : Fn) (v : Nat) :
    (signalFn n v).dbErr = n.dbErr ∧ (signalFn n v).pairs = n.pairs ∧ (signalFn n v).cmds = n.cmds := by
  unfold signalFn
  split <;> exact ⟨rfl, rfl, rfl⟩

theorem getFn_signalVec (s : State) (f v : Nat) : getFn (signalVec s f v) f = signalFn (getFn s f) v := getFn_modFn ..

theorem pairOf_setPair (s : State) (f : HostFn) (q : Nat) (p : Option Qp) :
    let t := modFn s f.val fun n => setPair n q p
    pairOf t f q = p ∧ (∀ q', q' ≠ q → pairOf t f q' = pairOf s f q') ∧ (getFn t f.val).cmds = (getFn s f.val).cmds := by
  simp only [pairOf, getFn_modFn]
  exact ⟨tget_tput_same .., fun q' hq => tget_tput_other _ _ _ _ _ hq, rfl⟩

/-! ### Doorbells -/

section
variable {s : State} {f : HostFn}

/-- R372: a doorbell discarded, with DB_ERR and vector 128. -/
theorem doorbellError_frame :
    let t := doorbellError s f
    (getFn t f.val).dbErr = true ∧ (∀ q', pairOf t f q' = pairOf s f q') ∧ t.cores = s.cores ∧
      (sHas (getFn s f.val).unmasked 128 = true → tget 0 (getFn t f.val).sent 128 = tget 0 (getFn s f.val).sent 128 + 1) ∧
      (sHas (getFn s f.val).unmasked 128 = false → sHas (getFn t f.val).pend 128 = true) := by
  intro t
  have hfn : getFn t f.val = signalFn { getFn s f.val with dbErr := true } 128 := by
    simp only [t, doorbellError, getFn_signalVec, getFn_modFn]
  obtain ⟨hon, hoff⟩ := signalFn_cases { getFn s f.val with dbErr := true } 128
  obtain ⟨herr, hpairs, -⟩ := signalFn_kept { getFn s f.val with dbErr := true } 128
  refine ⟨hfn ▸ herr, fun q' => ?_, rfl, fun h => ?_, fun h => ?_⟩
  · rw [pairOf, getPair, hfn, hpairs]
    rfl
  · rw [hfn, hon h]
    exact tget_tput_same ..
  · rw [hfn, hoff h]
    exact sHas_sIns ..

variable {off : BitVec 12} {at' : Nat} {v : Word} {ring : HostFn → Nat → Nat → State → State}

theorem bar2Write_unserved (h : fnServes s f.val = false) : bar2Write f off at' v ring s = s := by
  simp [bar2Write, h]

section
variable (hserves : fnServes s f.val = true) (hactive : s.dorm.st = .active)
include hserves hactive

/-- A write where no doorbell lies. -/
theorem bar2Write_elsewhere (h : 0x800 ≤ off.toNat ∨ off.toNat % 16 ≠ at') : bar2Write f off at' v ring s = s := by
  have hnone : bellPair off at' = none := if_neg (by omega)
  simp only [bar2Write, hserves, hnone, Bool.not_true, if_neg Bool.false_ne_true, fireWake_active 0 hactive]

theorem bar2Write_bell (hlo : off.toNat < 0x800) (hat : off.toNat % 16 = at') :
    bar2Write f off at' v ring s = ring f (off.toNat / 16) (fld v 0 12) s := by
  have hsome : bellPair off at' = some (off.toNat / 16) := if_pos ⟨hlo, hat⟩
  simp only [bar2Write, hserves, hsome, Bool.not_true, if_neg Bool.false_ne_true, fireWake_active 0 hactive]

end

variable {q ix : Nat} {p : Qp}

theorem ringSqTail_none (h : pairOf s f q = none) : ringSqTail f q ix s = doorbellError s f := by
  rw [ringSqTail, h]

theorem ringCqHead_none (h : pairOf s f q = none) : ringCqHead f q ix s = doorbellError s f := by
  rw [ringCqHead, h]

variable (h : pairOf s f q = some p) (hsvc : p.svc = none)
include h hsvc

theorem ringSqTail_host : ringSqTail f q ix s =
    if p.sqSize ≤ ix ∨ p.sqSize - 1 < p.sqTail - p.sqHead + ahead p.sqSize p.sqTail ix then doorbellError s f
    else modFn s f.val fun n => setPair n q (some { p with sqTail := p.sqTail + ahead p.sqSize p.sqTail ix }) := by
  rw [ringSqTail, h]
  simp [hsvc]

theorem ringCqHead_host : ringCqHead f q ix s =
    if p.cqSize ≤ ix ∨ p.cqTail < p.cqHead + ahead p.cqSize p.cqHead ix then doorbellError s f
    else modFn s f.val fun n => setPair n q (some { p with cqHead := p.cqHead + ahead p.cqSize p.cqHead ix }) := by
  rw [ringCqHead, h]
  simp [hsvc]

end

/-- Settles O44: the write of BAR2 finds a pair or none, and the pair takes the index or is left with DB_ERR. -/
theorem doorbells : Obligations.Doorbells := by
  unfold Obligations.Doorbells
  intro s f off v q ix sq cq
  have hsq : exec sq s = .next (bar2Write f off 0 v ringSqTail s) := rfl
  have hcq : exec cq s = .next (bar2Write f off 8 v ringCqHead s) := rfl
  refine ⟨fun hno => ⟨⟨_, hsq, bar2Write_unserved hno⟩, ⟨_, hcq, bar2Write_unserved hno⟩⟩, fun hserves hhi => ?_, fun hno => ?_,
    fun hserves hactive => ?_⟩
  · simp [bar2Read, hserves, hhi]
  · simp [bar2Read, hno]
  · intro E
    have error {i : Instr} {t : State} (hx : exec i s = .next t) (ht : t = doorbellError s f) : E i :=
      ⟨t, hx, ht ▸ doorbellError_frame⟩
    refine ⟨fun ho => ⟨_, hsq, bar2Write_elsewhere hserves hactive ho⟩, fun ho => ⟨_, hcq, bar2Write_elsewhere hserves hactive ho⟩,
      fun hlo hnone => ⟨fun hat => ?_, fun hat => ?_⟩, fun hlo p hp hsvc => ?_⟩
    · exact error hsq ((bar2Write_bell hserves hactive hlo hat).trans (ringSqTail_none hnone))
    · exact error hcq ((bar2Write_bell hserves hactive hlo hat).trans (ringCqHead_none hnone))
    · intro d e
      have hs (hat : off.toNat % 16 = 0) := (bar2Write_bell (v := v) (ring := ringSqTail) hserves hactive hlo hat).trans
        (ringSqTail_host (ix := ix) hp hsvc)
      have hc (hat : off.toNat % 16 = 8) := (bar2Write_bell (v := v) (ring := ringCqHead) hserves hactive hlo hat).trans
        (ringCqHead_host (ix := ix) hp hsvc)
      obtain ⟨hsame, hother, hcmds⟩ := pairOf_setPair s f q (some { p with sqTail := p.sqTail + d })
      obtain ⟨csame, cother, ccmds⟩ := pairOf_setPair s f q (some { p with cqHead := p.cqHead + e })
      refine ⟨fun hat hbad => error hsq ((hs hat).trans (if_pos hbad)), fun hat hix hfits => ⟨_, hsq, ?_⟩,
        fun hat hbad => error hcq ((hc hat).trans (if_pos hbad)), fun hat hix hfits => ⟨_, hcq, ?_⟩⟩
      · rw [(hs hat).trans (if_neg (not_or.2 ⟨Nat.not_le.2 hix, Nat.not_lt.2 hfits⟩))]
        exact ⟨hsame, hcmds, hother⟩
      · rw [(hc hat).trans (if_neg (not_or.2 ⟨Nat.not_le.2 hix, Nat.not_lt.2 hfits⟩))]
        exact ⟨csame, ccmds, cother⟩

end Sys2Proof.Machine
end

section
/-! PROOFS. EN, the fetch of commands, CREATE_QP and DELETE_QP (R375, R376, R380, R387). -/

namespace Sys2Proof.Machine

/-! ### A pair that stops (R380) -/

section
variable {s : State} {f : HostFn} {q : Nat} {p : Qp}

/-- A command of the pair is in flight: that it is stopped takes nothing away yet. -/
theorem settlePair_busy (hp : pairOf s f q = some p) (hbusy : pairBusy (getFn s f.val) q = true) : settlePair s f q = s := by
  rw [pairOf] at hp
  simp only [settlePair, hp, hbusy, Bool.or_true, if_true]

/-- A DELETE_QP that named the pair, answered. -/
def pairGone (q : Nat) (c : HostCmd) : HostCmd :=
  if cmdOpc c.words = 2 ∧ c.begun = true ∧ c.fin = none ∧ fld (c.words.getD 3 0) 0 7 = q then { c with fin := some (sOK, 0) } else c

theorem settlePair_idle (hp : pairOf s f q = some p) (hstop : p.stop = true) (hidle : pairBusy (getFn s f.val) q = false) :
    settlePair s f q = modFn s f.val fun n =>
      { setPair n q none with rdy := if q = 0 then false else n.rdy, cmds := n.cmds.map (pairGone q) } := by
  rw [pairOf] at hp
  simp only [settlePair, hp, hstop, hidle, Bool.not_true, Bool.or_false, if_neg Bool.false_ne_true]
  rfl

theorem pairBusy_iff {n : Fn} : pairBusy n q = true ↔ ∃ c ∈ n.cmds, c.q.toNat = q ∧ c.dead = false := by
  simp [pairBusy]

theorem pairBusy_eq_false {n : Fn} (h : ∀ c ∈ n.cmds, c.q.toNat ≠ q ∨ c.dead = true) : pairBusy n q = false := by
  rw [Bool.eq_false_iff, ne_eq, pairBusy_iff]
  rintro ⟨c, hc, hq, hdead⟩
  rcases h c hc with h | h
  · exact h hq
  · rw [hdead] at h
    cases h

end

/-! ### CQ_ENABLE (R375, R380) -/

section
variable {s : State} {f : HostFn}

/-- What an accepted write of EN does. -/
def enabled (s : State) (f : HostFn) : State :=
  modFn s f.val fun n => { setPair n 0 (some (newQp n.asq n.acq true none)) with en := true, rdy := true }

/-- EN taken away, its pair to stop. -/
def disabled (s : State) (f : HostFn) : State :=
  modFn s f.val fun n => { setPair n 0 ((getPair n 0).map fun p => { p with stop := true }) with en := false }

theorem exec_cqEnable_on (hen : (getFn s f.val).en = false) : exec (.cqEnable f ⟨31, .full, 1⟩) s = .next (
    if (!(getFn s f.val).rdy && fld (getFn s f.val).asq 0 12 != 0 && fld (getFn s f.val).acq 0 12 != 0) = true then enabled s f
    else reject s (0x10000 + 0x1000 * f.val) 2 31 (0x10000 + 0x1000 * f.val)) := by
  have hx : exec (.cqEnable f ⟨31, .full, 1⟩) s = .next (doCqEnable f ⟨31, .full, 1⟩ s) := rfl
  have hone : bit (mergeHalf .full (wd (bitAt false 0)) 1) 0 = true := by decide
  rw [hx, doCqEnable]
  simp only [hen, hone, show cqWriter ((31 : BitVec 5).toNat) f = true from rfl]
  rw [show (31 : BitVec 5).toNat = 31 from rfl, guardWrite_lookout_judged]
  cases h : (!(getFn s f.val).rdy && fld (getFn s f.val).asq 0 12 != 0 && fld (getFn s f.val).acq 0 12 != 0) <;> rfl

theorem exec_cqEnable_off (hen : (getFn s f.val).en = true) :
    exec (.cqEnable f ⟨31, .full, 0⟩) s = .next (settlePair (disabled s f) f 0) := by
  have hx : exec (.cqEnable f ⟨31, .full, 0⟩) s = .next (doCqEnable f ⟨31, .full, 0⟩ s) := rfl
  have hzero : bit (mergeHalf .full (wd (bitAt true 0)) 0) 0 = false := by decide
  rw [hx, doCqEnable]
  simp only [hen, hzero, show cqWriter ((31 : BitVec 5).toNat) f = true from rfl]
  rw [show (31 : BitVec 5).toNat = 31 from rfl, guardWrite_lookout_judged]
  rfl

theorem disabled_kept : (getFn (disabled s f) f.val).en = false ∧ (getFn (disabled s f) f.val).rdy = (getFn s f.val).rdy ∧
    (getFn (disabled s f) f.val).cmds = (getFn s f.val).cmds := by
  rw [disabled, getFn_modFn]
  exact ⟨rfl, rfl, rfl⟩

theorem pairOf_disabled {p : Qp} (hp : pairOf s f 0 = some p) : pairOf (disabled s f) f 0 = some { p with stop := true } := by
  rw [pairOf] at hp
  rw [pairOf, disabled, getFn_modFn, hp]
  exact tget_tput_same ..

end

/-! ### COMMAND_FETCH (R376) -/

section
variable {s : State} {f : HostFn} {q : BitVec 7} {ws : List Word} {p' : Qp}

theorem svc_servicePair (s : State) (f : HostFn) (p : Qp) : (servicePair s f p).svc = p.svc := by
  unfold servicePair
  split <;> rfl

/-- What keeps a pair's next command in its ring. -/
def fetchWaits (s : State) (f : HostFn) (q : BitVec 7) (p : Qp) : Bool :=
  dormBusy s || gapOpen s || p.stop || (q.toNat == 0 && !(getFn s f.val).en) || (p.svc.isNone && !fnServes s f.val) ||
    p.sqTail ≤ p.sqHead || !cqRoom p

/-- The words of the command at an SQ's head: those that the host gives, or a service pair's own. -/
def fetchedWords (s : State) (f : HostFn) (p : Qp) (ws : List Word) : List Word :=
  if p.svc.isSome then
    (below 8).map fun i => wd (leNat (((hbmFetch s (fnPart f).toNat (fld p.sqBase 0 38 + 64 * (p.sqHead % p.sqSize)) 64).1.drop (8 * i)).take 8))
  else ws

theorem exec_commandFetch (hp : pairOf s f q.toNat = some p') : exec (.commandFetch f q ws) s = .next (
    if fetchWaits s f q (servicePair s f p') then s
    else modFn s f.val fun n =>
      { setPair n q.toNat (some { servicePair s f p' with
          sqHead := (servicePair s f p').sqHead + 1, resv := (servicePair s f p').resv + 1 }) with
        cmds := n.cmds ++ [newCmd q (fetchedWords s f (servicePair s f p') ws)
          (((servicePair s f p').sqHead + 1) % (servicePair s f p').sqSize) (getFn s f.val).nseq (freshRef s f)
          ((cmdFault s f q.toNat (servicePair s f p').svc.isSome (fetchedWords s f (servicePair s f p') ws)).map fun st => (st, 0))]
        nseq := n.nseq + 1 }) := by
  have hx : exec (.commandFetch f q ws) s = .next (doCommandFetch f q ws s) := rfl
  rw [doCommandFetch, hp] at hx
  exact hx

theorem fetchWaits_iff {p : Qp} (hsvc : p.svc = p'.svc) : fetchWaits s f q p = true ↔
    dormBusy s = true ∨ gapOpen s = true ∨ p.stop = true ∨ (q = 0 ∧ (getFn s f.val).en = false) ∨
      (p'.svc.isSome = false ∧ fnServes s f.val = false) ∨ p.sqTail ≤ p.sqHead ∨ p.cqSize ≤ p.cqTail + p.resv - p.cqHead := by
  have hq : q.toNat = 0 ↔ q = 0 := ⟨fun h => BitVec.eq_of_toNat_eq h, fun h => h ▸ rfl⟩
  simp [fetchWaits, cqRoom, hsvc, hq, or_assoc]

end

/-! ### CREATE_QP and DELETE_QP -/

section
variable {s : State} {r : CmdRef} {c : HostCmd}

theorem mem_of_running {opc : Nat} (h : running s r opc = some c) :
    c ∈ (getFn s r.f.val).cmds ∧ cmdOpc c.words = opc ∧ c.fin = none := by
  unfold running at h
  split at h
  next d hd =>
    obtain ⟨hcond, hdc⟩ := Option.ite_none_right_eq_some.1 h
    obtain rfl := Option.some.inj hdc
    simp only [Bool.and_eq_true, beq_iff_eq, Option.isNone_iff_eq_none] at hcond
    refine ⟨?_, hcond.1.1, hcond.1.2⟩
    have hnamed : d ∈ (getFn s r.f.val).cmds.filter fun c => c.q == r.q && c.cid == r.cid := by
      rw [cmdOf] at hd
      generalize (getFn s r.f.val).cmds.filter (fun c => c.q == r.q && c.cid == r.cid) = named at hd ⊢
      cases hf : firstThat (fun (c : HostCmd) => !c.dead) named with
      | some e =>
        rw [hf] at hd
        exact Option.some.inj hd ▸ (firstThat_some hf).1
      | none =>
        rw [hf] at hd
        exact List.mem_of_head? hd
    exact List.mem_of_mem_filter hnamed
  next => cases h

theorem pairOf_endCmd (f : HostFn) (q : Nat) (st : Status) (res : Word) : pairOf (endCmd s r c st res) f q = pairOf s f q := by
  by_cases hf : f.val = r.f.val
  · rw [pairOf, endCmd, modCmd, hf, getFn_modFn, pairOf, ← hf]
    rfl
  · rw [pairOf, endCmd, modCmd, getFn_modFn_other _ _ _ _ hf]
    rfl

theorem exec_createQp (h : running s r 0x01 = some c) : exec (.createQp r) s = .next (
    if (pairOf s r.f (fld (c.words.getD 3 0) 0 7)).isSome then endCmd s r c sPERM 0
    else endCmd (modFn s r.f.val fun n => setPair n (fld (c.words.getD 3 0) 0 7) (some (newQp (c.words.getD 1 0) (c.words.getD 2 0)
      ((c.words.getD 3 0).getLsbD 7)
      (if (c.words.getD 3 0).getLsbD 8 then some (c.words.getD 4 0, c.words.getD 5 0, c.words.getD 6 0) else none)))) r c sOK 0) := by
  have hx : exec (.createQp r) s = .next (doCreateQp r s) := rfl
  rw [doCreateQp, runCmdNow_running _ _ _ _ _ h] at hx
  refine hx.trans (congrArg _ ?_)
  dsimp only
  split <;> rfl

theorem exec_deleteQp_none (h : running s r 0x02 = some c) (hp : pairOf s r.f (fld (c.words.getD 3 0) 0 7) = none) :
    exec (.deleteQp r) s = .next (endCmd s r c sBOUNDS 0) := by
  have hx : exec (.deleteQp r) s = .next (doDeleteQp r s) := rfl
  rw [doDeleteQp, h] at hx
  dsimp only at hx
  rwa [hp] at hx

/-- The DELETE_QP begun, its pair to stop. -/
def deleting (s : State) (r : CmdRef) (c : HostCmd) (p : Qp) : State :=
  modFn (modCmd s r.f.val c.seq fun c => { c with begun := true }) r.f.val fun n =>
    setPair n (fld (c.words.getD 3 0) 0 7) (some { p with stop := true })

theorem exec_deleteQp {p : Qp} (h : running s r 0x02 = some c) (hp : pairOf s r.f (fld (c.words.getD 3 0) 0 7) = some p) :
    exec (.deleteQp r) s = .next (settlePair (deleting s r c p) r.f (fld (c.words.getD 3 0) 0 7)) := by
  have hx : exec (.deleteQp r) s = .next (doDeleteQp r s) := rfl
  rw [doDeleteQp, h] at hx
  dsimp only at hx
  rwa [hp] at hx

/-- What the begun DELETE_QP leaves: the pair stops, every other pair is as before, and the command has begun. -/
theorem deleting_frame (p : Qp) :
    pairOf (deleting s r c p) r.f (fld (c.words.getD 3 0) 0 7) = some { p with stop := true } ∧
      (∀ q', q' ≠ fld (c.words.getD 3 0) 0 7 → pairOf (deleting s r c p) r.f q' = pairOf s r.f q') ∧
      (getFn (deleting s r c p) r.f.val).cmds =
        (getFn s r.f.val).cmds.map fun d => if d.seq = c.seq then { d with begun := true } else d := by
  simp only [deleting, modCmd, pairOf, getFn_modFn]
  exact ⟨tget_tput_same .., fun q' hq => tget_tput_other _ _ _ _ _ hq, rfl⟩

theorem pairBusy_deleting (p : Qp) (q : Nat) :
    pairBusy (getFn (deleting s r c p) r.f.val) q = pairBusy (getFn s r.f.val) q := by
  obtain ⟨-, -, hcmds⟩ := deleting_frame (s := s) (r := r) (c := c) p
  rw [pairBusy, hcmds, List.any_map, pairBusy]
  refine congrArg ((getFn s r.f.val).cmds.any ·) (funext fun d => ?_)
  simp only [Function.comp]
  split <;> rfl

/-- The command itself, begun. -/
theorem begun_mem_deleting (p : Qp) (hc : c ∈ (getFn s r.f.val).cmds) :
    { c with begun := true } ∈ (getFn (deleting s r c p) r.f.val).cmds := by
  obtain ⟨-, -, hcmds⟩ := deleting_frame (s := s) (r := r) (c := c) p
  rw [hcmds]
  exact List.mem_map.2 ⟨c, hc, if_pos rfl⟩

end

/-- Settles O45: EN, the fetch, and the pairs that CREATE_QP makes and DELETE_QP stops (`settlePair`). -/
theorem queuePairs : Obligations.QueuePairs := by
  unfold Obligations.QueuePairs
  refine ⟨fun s f => ?enable, fun s f q ws p' hp => ?fetch, fun s r c hrun => ?create, fun s r c hrun => ?delete⟩
  case enable =>
    intro n
    refine ⟨fun hen hrdy hasq hacq => ⟨_, (exec_cqEnable_on hen).trans (congrArg _ (if_pos ?_)), ?_⟩,
      fun hen hno => ⟨_, (exec_cqEnable_on hen).trans (congrArg _ (if_neg ?_)), rfl⟩, fun hen p hp => ?_⟩
    · rw [show (getFn s f.val).rdy = false from hrdy]
      simpa using ⟨hasq, hacq⟩
    · simp only [enabled, pairOf, getFn_modFn]
      exact ⟨trivial, trivial, tget_tput_same .., rfl, rfl⟩
    · rintro h
      simp only [Bool.and_eq_true, bne_iff_ne] at h
      exact hno.elim h.1.2 h.2
    · have hx := exec_cqEnable_off hen
      have hstop := pairOf_disabled hp
      obtain ⟨hoff, hrdy, hcmds⟩ := disabled_kept (s := s) (f := f)
      have hq (c : HostCmd) : c.q.toNat = 0 ↔ c.q = 0 := ⟨fun h => BitVec.eq_of_toNat_eq h, fun h => h ▸ rfl⟩
      refine ⟨fun hidle => ?_, fun ⟨c, hc, hc0, hdead⟩ => ?_⟩
      · have hnot : pairBusy (getFn (disabled s f) f.val) 0 = false :=
          pairBusy_eq_false fun c hc => by
            rw [hcmds] at hc
            exact (hidle c hc).imp_left fun h0 => fun h => h0 ((hq c).1 h)
        rw [settlePair_idle hstop rfl hnot] at hx
        refine ⟨_, hx, ?_⟩
        simp only [pairOf, getFn_modFn]
        exact ⟨hoff, if_pos trivial, tget_tput_same .., rfl⟩
      · rw [settlePair_busy hstop (pairBusy_iff.2 ⟨c, hcmds ▸ hc, (hq c).2 hc0, hdead⟩)] at hx
        exact ⟨_, hx, hoff, hrdy, hstop, rfl⟩
  case fetch =>
    intro n p svc at'
    have hx := exec_commandFetch (ws := ws) hp
    have hwaits : fetchWaits s f q p = true ↔ _ := fetchWaits_iff (svc_servicePair s f p')
    refine ⟨fun hwait => ⟨_, hx.trans (congrArg _ (if_pos (hwaits.2 hwait))), rfl⟩,
      fun hdorm hgap hstop hen hserves hhead hroom vs hhost hsvc => ?_⟩
    have hgo : ¬fetchWaits s f q p = true := fun h => by
      rcases hwaits.1 h with h | h | h | ⟨hq, h⟩ | ⟨hs, h⟩ | h | h
      · exact absurd h (by simp [hdorm])
      · exact absurd h (by simp [hgap])
      · exact absurd h (by simp [hstop])
      · exact absurd h (by simp [show (getFn s f.val).en = true from hen hq])
      · exact absurd h (by simp [hserves hs])
      · omega
      · omega
    have hvs : fetchedWords s f p ws = vs := by
      have hs : p.svc = p'.svc := svc_servicePair s f p'
      unfold fetchedWords
      rw [hs]
      split
      · next hyes => exact (hsvc hyes).symm
      · next hno => exact (hhost (by simpa [svc] using hno)).symm
    have hs : p.svc.isSome = svc := congrArg Option.isSome (svc_servicePair s f p')
    refine ⟨_, hx.trans (congrArg _ (if_neg hgo)), ?_⟩
    simp only [pairOf, getFn_modFn]
    refine ⟨tget_tput_same .., ?_, rfl⟩
    rw [← hvs, ← hs]
    rfl
  case create =>
    intro w q
    refine ⟨fun hsome => ⟨_, (exec_createQp hrun).trans (congrArg _ (if_pos hsome)), endCmd_ended .., fun q' => pairOf_endCmd ..⟩,
      fun hnone => ⟨_, (exec_createQp hrun).trans (congrArg _ (if_neg ?_)), ?_, rfl, ?_, fun q' hq => ?_⟩⟩
    · rw [show pairOf s r.f (fld (c.words.getD 3 0) 0 7) = none from hnone]
      exact Bool.false_ne_true
    · rw [ended, endCmd, modCmd, getFn_modFn, getFn_modFn]
      rfl
    · rw [pairOf_endCmd]
      exact (pairOf_setPair s r.f q _).1
    · rw [pairOf_endCmd]
      exact (pairOf_setPair s r.f q _).2.1 q' hq
  case delete =>
    intro q
    obtain ⟨hmem, hopc, hfin⟩ := mem_of_running hrun
    refine ⟨fun hnone => ⟨_, exec_deleteQp_none hrun hnone, endCmd_ended .., fun q' => pairOf_endCmd ..⟩, fun p hp => ?_⟩
    have hx := exec_deleteQp hrun hp
    obtain ⟨hstop, hothers, -⟩ := deleting_frame (s := s) (r := r) (c := c) p
    have hbegun := begun_mem_deleting p hmem
    refine ⟨fun hidle => ?_, fun hbusy => ?_⟩
    · rw [settlePair_idle hstop rfl ((pairBusy_deleting p q).trans (pairBusy_eq_false hidle))] at hx
      refine ⟨_, hx, ?_⟩
      simp only [pairOf, getFn_modFn] at hothers ⊢
      refine ⟨tget_tput_same .., fun q' hq => (tget_tput_other _ _ _ _ _ hq).trans (hothers q' hq), rfl,
        pairGone q { c with begun := true }, List.mem_map_of_mem hbegun, ?_⟩
      rw [pairGone, if_pos ⟨hopc, rfl, hfin, rfl⟩]
      exact ⟨rfl, rfl⟩
    · rw [settlePair_busy hstop ((pairBusy_deleting p q).trans (pairBusy_iff.2 hbusy))] at hx
      exact ⟨_, hx, hstop, hothers, rfl, _, hbegun, rfl, rfl, hfin⟩

end Sys2Proof.Machine
end

section
/-! PROOFS. DMA of plain bytes, and accesses of the host window (R374, R383). -/

namespace Sys2Proof.Machine

/-! ### Bytes written -/

theorem wrBytes_append (m : Memory) (a : Nat) (xs ys : List Byte) :
    wrBytes m a (xs ++ ys) = wrBytes (wrBytes m a xs) (a + xs.length) ys := by
  induction xs generalizing m a with
  | nil => rfl
  | cons x xs ih =>
    rw [List.cons_append, wrBytes, ih, wrBytes, List.length_cons, show a + 1 + xs.length = a + (xs.length + 1) by omega]

theorem wrBytes_take_drop (m : Memory) (a k : Nat) (bs : List Byte) :
    wrBytes (wrBytes m a (bs.take k)) (a + k) (bs.drop k) = wrBytes m a bs := by
  by_cases h : k ≤ bs.length
  · conv_rhs => rw [← List.take_append_drop k bs, wrBytes_append, List.length_take_of_le h]
  · rw [List.drop_of_length_le (by omega), List.take_of_length_le (by omega)]
    rfl

/-- The bytes of a memory after a write: those written, and the others as before. -/
theorem rdByte_wrBytes_getD (m : Memory) (a : Nat) (bs : List Byte) (i : Nat) (h : i < bs.length) :
    rdByte (wrBytes m a bs) (a + i) = bs.getD i 0 := by
  rw [rdByte_wrBytes_in _ _ _ _ h, List.getD_eq_getElem _ _ h]

theorem getD_rdBytes (m : Memory) (a n i : Nat) (h : i < n) : (rdBytes m a n).getD i 0 = rdByte m (a + i) := by
  simp [rdBytes, upto_eq_range', h]

/-! ### A slice written (R226) -/

theorem sHas_sDel {t : NatSet} {j : Nat} (k : Nat) (h : sHas t j = false) : sHas (sDel t k) j = false := by
  simp only [sHas, sDel, List.contains_eq_mem, decide_eq_false_iff_not, List.mem_filter, not_and] at h ⊢
  exact fun hmem => absurd hmem h

/-- Clean bytes copied to chunks none of which is marked are written, and no poison is met. -/
theorem slCopyGo_clean (n : Nat) (sl : Slice) (a : Nat) (bs : List (Byte × Bool)) (hfuel : a % 32 + bs.length ≤ 32 * n)
    (hclean : ∀ p ∈ bs, p.2 = false) (hbad : ∀ ch, a / 32 ≤ ch → 32 * ch < a + bs.length → sHas sl.bad ch = false) :
    ∃ bad, slCopyGo n sl a bs none = ({ sl with mem := wrBytes sl.mem a (bs.map Prod.fst), bad := bad }, none) := by
  induction n generalizing sl a bs with
  | zero =>
    obtain rfl : bs = [] := List.eq_nil_of_length_eq_zero (by omega)
    exact ⟨sl.bad, rfl⟩
  | succ n ih =>
    cases bs with
    | nil => exact ⟨sl.bad, rfl⟩
    | cons b r =>
      generalize hbs : b :: r = bs at *
      have hne : 0 < bs.length := by rw [← hbs]; exact Nat.zero_lt_succ _
      have htaint : (bs.take (32 - a % 32)).any Prod.snd = false := by
        rw [List.any_eq_false]
        exact fun p hp => by simp [hclean p (List.mem_of_mem_take hp)]
      have hhere : sHas sl.bad (a / 32) = false := hbad _ (Nat.le_refl _) (by omega)
      have hroom : (a + (32 - a % 32)) % 32 = 0 := by omega
      have hgo : slCopyGo (n + 1) sl a bs none = slCopyGo n
          { sl with mem := wrBytes sl.mem a ((bs.take (32 - a % 32)).map Prod.fst)
                    bad := if ((bs.take (32 - a % 32)).length == 32) = true then sDel sl.bad (a / 32) else sl.bad }
          (a + (32 - a % 32)) (bs.drop (32 - a % 32)) none := by
        rw [← hbs] at htaint ⊢
        simp [slCopyGo, htaint, hhere]
      obtain ⟨bad, hrest⟩ := ih
        { sl with mem := wrBytes sl.mem a ((bs.take (32 - a % 32)).map Prod.fst)
                  bad := if ((bs.take (32 - a % 32)).length == 32) = true then sDel sl.bad (a / 32) else sl.bad }
        (a + (32 - a % 32)) (bs.drop (32 - a % 32)) (by rw [hroom, List.length_drop]; omega)
        (fun p hp => hclean p (List.mem_of_mem_drop hp)) (fun ch hlo hhi => by
          rw [List.length_drop] at hhi
          have hch : sHas sl.bad ch = false := hbad ch (by omega) (by omega)
          dsimp only
          split
          · exact sHas_sDel _ hch
          · exact hch)
      refine ⟨bad, hgo.trans (hrest.trans ?_)⟩
      rw [List.map_take, List.map_drop, wrBytes_take_drop]

theorem slCopy_clean {sl : Slice} {a : Nat} {bs : List Byte} (h : poisonAt sl a bs.length = none) :
    ∃ bad, slCopy sl a bs [] = ({ sl with mem := wrBytes sl.mem a bs, bad := bad }, none) := by
  by_cases hnil : bs = []
  · subst hnil
    exact ⟨sl.bad, rfl⟩
  have hpos : 0 < bs.length := List.length_pos_of_ne_nil hnil
  have hmap : (bs.zipIdx.map fun p => (p.1, sHas [] p.2)).map Prod.fst = bs := by
    rw [List.map_map]
    exact List.zipIdx_map_fst ..
  obtain ⟨bad, hgo⟩ := slCopyGo_clean (bs.length / 32 + 2) sl a (bs.zipIdx.map fun p => (p.1, sHas [] p.2))
    (by rw [List.length_map, List.length_zipIdx]; omega)
    (fun p hp => by
      obtain ⟨q, -, rfl⟩ := List.mem_map.1 hp
      rfl)
    (fun ch hlo hhi => by
      rw [List.length_map, List.length_zipIdx] at hhi
      exact not_sHas_of_poisonAt_none h hpos hlo hhi)
  rw [hmap] at hgo
  exact ⟨bad, hgo⟩

/-! ### Host memory -/

theorem foldl_wrByte (bs : List Byte) (a k : Nat) (h : Memory × NatSet) :
    ((bs.zipIdx k).foldl (fun (h : Memory × NatSet) p =>
      if sHas [] p.2 then (h.1, sIns h.2 (a + p.2)) else (wrByte h.1 (a + p.2) p.1, sDel h.2 (a + p.2))) h).1 =
      wrBytes h.1 (a + k) bs := by
  induction bs generalizing k h with
  | nil => rfl
  | cons b bs ih =>
    rw [List.zipIdx_cons, List.foldl_cons, ih]
    rfl

/-- Clean bytes written to host memory. -/
theorem hostWrite_mem (s : State) (a : Nat) (bs : List Byte) : (hostWrite s a bs []).host.mem = wrBytes s.host.mem a bs :=
  foldl_wrByte bs a 0 (s.host.mem, s.host.hbad)

/-! ### DMA_TO_DEV and DMA_FROM_DEV (R383) -/

section
variable {s : State} {r : CmdRef} {c : HostCmd} {d : HostData}

/-- The bytes that a DMA command names, and the offset of its device address within its space. -/
def dmaLen (c : HostCmd) : Nat := fld (c.words.getD 3 0) 0 32
def dmaOff (c : HostCmd) : Nat := if fld (c.words.getD 2 0) 62 2 = 1 then fld (c.words.getD 2 0) 0 21 else fld (c.words.getD 2 0) 0 38

theorem wholePackets_all {a n len : Nat} (h : len ≤ n) : wholePackets a n len = len := if_pos h

theorem wholePackets_lt {a n len : Nat} (h : n < len) : wholePackets a n len < len := by
  rw [wholePackets, if_neg (Nat.not_le.2 h)]
  omega

/-- The first poisoned byte of those that came and are wanted. -/
def dmaHurt (d : HostData) (len : Nat) : Option Nat := firstThat (fun i => d.bad.contains i) (below (min len d.bytes.length))

/-- How far a transfer to the device goes. -/
def dmaEnd (c : HostCmd) (d : HostData) : Nat :=
  (dmaHurt d (dmaLen c)).elim (wholePackets (dmaOff c) d.bytes.length (dmaLen c))
    fun i => min (wholePackets (dmaOff c) d.bytes.length (dmaLen c)) (poisonEnd (dmaOff c) i (dmaLen c))

/-- What a transfer to the device writes. -/
def dmaStored (s : State) (r : CmdRef) (c : HostCmd) (d : HostData) : State × Bool :=
  devStore s (fnPart r.f) (c.words.getD 2 0) (d.bytes.take (dmaEnd c d)) (d.bad.filter fun i => decide (i < dmaEnd c d))

theorem dmaHurt_clean (h : d.bad = []) (len : Nat) : dmaHurt d len = none := by
  rw [dmaHurt, firstThat_eq_find?, List.find?_eq_none]
  simp [h]

theorem dmaHurt_first {len i : Nat} (hi : i ∈ d.bad) (hlen : i < len) (hbytes : i < d.bytes.length) (hfirst : ∀ j < i, j ∉ d.bad) :
    dmaHurt d len = some i := by
  obtain ⟨l, hl⟩ := below_split (k := i) (n := min len d.bytes.length) (by omega)
  rw [dmaHurt, hl, firstThat_eq_find?, List.find?_append, List.find?_eq_none.2 fun j hj => by
    simp [hfirst j ((mem_below _ _).1 hj)]]
  simp [hi]

section
variable {st : Status} (h : dmaFault s r.f c.words d = some st)
include h

theorem exec_dmaToDev_fault (hrun : running s r 0x10 = some c) : exec (.dmaToDev r d) s = .next (endCmd s r c st 0) := by
  have hx : exec (.dmaToDev r d) s = .next (doDmaToDev r d s) := rfl
  have hbody : dmaToDev r.f d c s = (s, st, 0) := by rw [dmaToDev, h]
  rwa [doDmaToDev, runCmdNow_running _ _ _ _ _ hrun, hbody] at hx

theorem exec_dmaFromDev_fault (hrun : running s r 0x11 = some c) : exec (.dmaFromDev r d) s = .next (endCmd s r c st 0) := by
  have hx : exec (.dmaFromDev r d) s = .next (doDmaFromDev r d s) := rfl
  have hbody : dmaFromDev r.f d c s = (s, st, 0) := by rw [dmaFromDev, h]
  rwa [doDmaFromDev, runCmdNow_running _ _ _ _ _ hrun, hbody] at hx

end

section
variable (h : dmaFault s r.f c.words d = none)
include h

theorem exec_dmaToDev (hrun : running s r 0x10 = some c) : exec (.dmaToDev r d) s = .next (endCmd (dmaStored s r c d).1 r c
    (if (dmaHurt d (dmaLen c)).isSome then sPOISON else if dmaEnd c d < dmaLen c then sBOUNDS
      else if (dmaStored s r c d).2 then sPOISON else sOK) (wd (dmaEnd c d))) := by
  have hx : exec (.dmaToDev r d) s = .next (doDmaToDev r d s) := rfl
  rw [doDmaToDev, runCmdNow_running _ _ _ _ _ hrun, dmaToDev, h] at hx
  rw [dmaStored, dmaEnd]
  cases hhurt : dmaHurt d (dmaLen c) <;>
  · simp only [dmaHurt, dmaLen] at hhurt
    simp only [hhurt] at hx
    exact hx

theorem exec_dmaFromDev (hrun : running s r 0x11 = some c) (hlive : c.dead = false) : exec (.dmaFromDev r d) s = .next (
    endCmd (scatter s (if cmdList c.words then d.addrs.zip d.counts else [(c.words.getD 1 0, dmaLen c)])
        (devFetch s (fnPart r.f) (c.words.getD 2 0) (dmaLen c)).1 (devFetch s (fnPart r.f) (c.words.getD 2 0) (dmaLen c)).2)
      r c (if (devFetch s (fnPart r.f) (c.words.getD 2 0) (dmaLen c)).2.isEmpty then sOK else sPOISON) (wd (dmaLen c))) := by
  have hx : exec (.dmaFromDev r d) s = .next (doDmaFromDev r d s) := rfl
  rw [doDmaFromDev, runCmdNow_running _ _ _ _ _ hrun, dmaFromDev, h] at hx
  simp only [hlive, if_neg Bool.false_ne_true] at hx
  exact hx

theorem exec_dmaToDev_whole (hrun : running s r 0x10 = some c) (hclean : d.bad = []) (hn : dmaLen c ≤ d.bytes.length) :
    exec (.dmaToDev r d) s = .next (endCmd (devStore s (fnPart r.f) (c.words.getD 2 0) (d.bytes.take (dmaLen c)) []).1 r c
      (if (devStore s (fnPart r.f) (c.words.getD 2 0) (d.bytes.take (dmaLen c)) []).2 then sPOISON else sOK) (wd (dmaLen c))) := by
  have hend : dmaEnd c d = dmaLen c := by rw [dmaEnd, dmaHurt_clean hclean, Option.elim, wholePackets_all hn]
  have hx := exec_dmaToDev h hrun
  rw [dmaStored, hend, dmaHurt_clean hclean, hclean, Option.isSome_none, if_neg Bool.false_ne_true, if_neg (Nat.lt_irrefl _)] at hx
  exact hx

end

/-- A command without a list that names no bytes ends at once, and one with bytes is checked at its device address. -/
theorem dmaFault_plain (hlist : cmdList c.words = false) :
    dmaFault s r.f c.words d = if dmaLen c = 0 then some sOK else devFault s r.f (c.words.getD 2 0) (dmaLen c) := by
  simp [dmaFault, listOk, hlist, dmaLen]

theorem devStore_slice {part : BitVec 4} {a : Word} {bs : List Byte} (hslice : fld a 62 2 = 1)
    (hclean : poisonAt (getCore s (BitVec.ofNat 12 (fld a 21 12))).sp (fld a 0 21) bs.length = none) :
    ∃ q, devStore s part a bs [] = (q, false) ∧ q.host = s.host ∧
      (getCore q (BitVec.ofNat 12 (fld a 21 12))).sp.mem =
        wrBytes (getCore s (BitVec.ofNat 12 (fld a 21 12))).sp.mem (fld a 0 21) bs ∧
      ∀ l', l' ≠ BitVec.ofNat 12 (fld a 21 12) → getCore q l' = getCore s l' := by
  obtain ⟨bad, hcopy⟩ := slCopy_clean hclean
  rw [devStore, if_pos hslice]
  simp only [hcopy]
  refine ⟨_, rfl, rfl, ?_, fun l' hl => getCore_modCore_other _ _ _ _ hl⟩
  rw [getCore_modCore]
  rfl

theorem getCore_endCmd (s : State) (r : CmdRef) (c : HostCmd) (st : Status) (res : Word) (l : Lcid) :
    getCore (endCmd s r c st res) l = getCore s l := rfl

theorem devFetch_slice {part : BitVec 4} {a : Word} {n : Nat} (hslice : fld a 62 2 = 1)
    (hclean : (getCore s (BitVec.ofNat 12 (fld a 21 12))).sp.bad = []) :
    devFetch s part a n = (rdBytes (getCore s (BitVec.ofNat 12 (fld a 21 12))).sp.mem (fld a 0 21) n, []) := by
  rw [devFetch, if_pos hslice, slFetch, hclean]
  rfl

end

/-! ### The host window (R374) -/

section
variable {s : State} {f : HostFn} {off n : Nat} {w : BarWrite}

/-- A write through the window, its poison noted. -/
def barNoted (s : State) (w : BarWrite) : State := if w.bad then noteAer s 12 else s

theorem exec_hostWindowRead (hserves : fnServes s f.val = true) : exec (.hostWindowRead f off n) s = .next (windowTake ⟨f, off, n, none⟩ s) := by
  have hx : exec (.hostWindowRead f off n) s = .next (doHostWindowRead f off n s) := rfl
  rwa [doHostWindowRead, hserves, Bool.not_true, if_neg Bool.false_ne_true] at hx

theorem exec_hostWindowWrite (hserves : fnServes s f.val = true) :
    exec (.hostWindowWrite f off w) s = .next (windowTake ⟨f, off, w.data.length, some w⟩ (barNoted s w)) := by
  have hx : exec (.hostWindowWrite f off w) s = .next (doHostWindowWrite f off w s) := rfl
  have hserves' : fnServes (barNoted s w) f.val = true := by
    unfold barNoted
    split <;> exact hserves
  rwa [doHostWindowWrite, show (if w.bad then noteAer s 12 else s) = barNoted s w from rfl, hserves', Bool.not_true,
    if_neg Bool.false_ne_true] at hx

theorem windowTake_active {r : WinReq} (h : s.dorm.st = .active) : windowTake r s = windowAccess r s := by
  have hawake : asleep s = false := by simp [asleep, h]
  simp only [windowTake, fireWake_active 0 h, hawake, if_neg Bool.false_ne_true]

/-- R447: while the device wakes an access waits. -/
theorem windowTake_waking {r : WinReq} (h : s.dorm.st = .waking) :
    windowTake r s = { s with host := { s.host with winq := s.host.winq ++ [r] } } := by
  have hwake : fireWake s 0 = s := by simp [fireWake, h]
  have hasleep : asleep s = true := by simp [asleep, h]
  simp only [windowTake, hwake, hasleep, if_true]

theorem windowAccess_read {p : BitVec 4} {o : Nat} (h : windowReach s f off n = some (p, o)) :
    windowAccess ⟨f, off, n, none⟩ s = { s with host := { s.host with
      reads := s.host.reads ++ [some ((hbmFetch s p.toNat o n).1, !(hbmFetch s p.toNat o n).2.isEmpty)] } } := by
  simp only [windowAccess, h]

theorem windowAccess_readRefused (h : windowReach s f off n = none) : windowAccess ⟨f, off, n, none⟩ s = refuseRead s := by
  simp only [windowAccess, h]

theorem windowAccess_write {p : BitVec 4} {o : Nat} (h : windowReach s f off w.data.length = some (p, o)) :
    windowAccess ⟨f, off, w.data.length, some w⟩ s = (hbmStore s p.toNat o w.data (if w.bad then below w.data.length else [])).1 := by
  simp only [windowAccess, h]

theorem windowAccess_writeRefused (h : windowReach s f off w.data.length = none) (hoff : off < 2 ^ 34) :
    windowAccess ⟨f, off, w.data.length, some w⟩ s = signalVec (modFn s f.val fun n => { n with winErr := true }) f.val 128 := by
  simp only [windowAccess, h, if_pos hoff]

theorem winErr_signalFn (n : Fn) (v : Nat) : (signalFn n v).winErr = n.winErr := by
  unfold signalFn
  split <;> rfl

end

/-- A whole granule of clean bytes written to a pseudo-channel in service. -/
theorem hbmStore_granule {s : State} {n off : Nat} {bs : List Byte} (hlen : bs.length = 64) (hoff : off % 64 = 0)
    (hgood : chRetired (getStack s (hbmPlace s n off).1) (hbmPlace s n off).1 ((hbmPlace s n off).2 / 64) = false) :
    ∃ bad, (hbmStore s n off bs []).1 = modStack s (hbmPlace s n off).1 fun k =>
      { k with mem := wrBytes k.mem (hbmPlace s n off).2 bs, bad := bad } := by
  have hmarks : bs.zipIdx.map (fun p => (p.1, sHas [] p.2)) = bs.map fun b => (b, false) := by
    conv_rhs => rw [← List.zipIdx_map_fst 0 bs, List.map_map]
    rfl
  have hmap : (bs.map fun b => (b, false)).map Prod.fst = bs := by
    rw [List.map_map]
    exact List.map_id bs
  have hany : (bs.map fun b => (b, false)).any Prod.snd = false := by simp
  have hcons : ∃ b r, bs.map (fun b => (b, false)) = b :: r := by
    cases bs with
    | nil => cases hlen
    | cons b r => exact ⟨_, _, rfl⟩
  have hstep : hbmStore s n off bs [] = hbmStoreGo (bs.length / 64 + 2) s n off (bs.map fun b => (b, false)) none := by
    rw [hbmStore, hmarks]
  rw [hstep, hlen, show 64 / 64 + 2 = 3 from rfl]
  have hl : (bs.map fun b => (b, false)).length = 64 := by rw [List.length_map, hlen]
  generalize bs.map (fun b => (b, false)) = l at hmap hany hcons hl
  have htake : l.take (64 - off % 64) = l := List.take_of_length_le (by omega)
  have hdrop : l.drop (64 - off % 64) = [] := List.drop_of_length_le (by omega)
  obtain ⟨b, r, hcons⟩ := hcons
  have hgran : granWrite (getStack s (hbmPlace s n off).1) (hbmPlace s n off).1 (hbmPlace s n off).2 l =
      ({ getStack s (hbmPlace s n off).1 with
        mem := wrBytes (getStack s (hbmPlace s n off).1).mem (hbmPlace s n off).2 bs
        bad := sDel (getStack s (hbmPlace s n off).1).bad ((hbmPlace s n off).2 / 64) }, false) := by
    simp [granWrite, hl, hgood, hany, hmap]
  refine ⟨sDel (getStack s (hbmPlace s n off).1).bad ((hbmPlace s n off).2 / 64), ?_⟩
  rw [hcons] at htake hdrop hgran ⊢
  simp only [hbmStoreGo, htake, hdrop, hgran]
  rfl

/-- Settles O47: the checks of a transfer, the bytes that it moves, and the window inside and outside the range. -/
theorem hostTransfers : Obligations.HostTransfers := by
  unfold Obligations.HostTransfers
  refine ⟨fun s r c d => ?dma, fun s r c d hrun hlist => ?toDev, fun s r c d hrun hlist => ?fromDev,
    fun s f off n hserves hactive => ?read, fun s f off n w hserves hasleep hwaking => ?wakes,
    fun s f off bs poisoned hserves hactive hoff => ?write⟩
  case dma =>
    intro a n off
    refine ⟨fun st hst => ⟨fun hrun => ⟨_, exec_dmaToDev_fault hst hrun, rfl⟩, fun hrun => ⟨_, exec_dmaFromDev_fault hst hrun, rfl⟩⟩,
      fun hnone => ⟨fun hrun => ⟨fun hclean hn => ⟨_, exec_dmaToDev_whole hnone hrun hclean hn, rfl⟩, fun hclean hn => ?_,
        fun i hi hlen hbytes hfirst => ?_⟩, fun hrun hlive => ?_⟩⟩
    · have hend : dmaEnd c d = wholePackets off d.bytes.length n := by rw [dmaEnd, dmaHurt_clean hclean]; rfl
      have hx := exec_dmaToDev hnone hrun
      have hlt : wholePackets off d.bytes.length n < dmaLen c := wholePackets_lt hn
      rw [dmaStored, hend, dmaHurt_clean hclean, hclean, Option.isSome_none, if_neg Bool.false_ne_true, if_pos hlt] at hx
      exact ⟨_, hx, rfl⟩
    · have hend : dmaEnd c d = min (wholePackets off d.bytes.length n) (poisonEnd off i n) := by
        rw [dmaEnd, show dmaHurt d (dmaLen c) = some i from dmaHurt_first hi hlen hbytes hfirst]; rfl
      have hx := exec_dmaToDev hnone hrun
      rw [dmaStored, hend, show dmaHurt d (dmaLen c) = some i from dmaHurt_first hi hlen hbytes hfirst, Option.isSome_some,
        if_pos rfl] at hx
      exact ⟨_, hx, rfl⟩
    · refine ⟨_, exec_dmaFromDev hnone hrun hlive, ?_⟩
      simp only [List.isEmpty_iff]
      rfl
  case toDev =>
    intro a l o n
    have hfault := dmaFault_plain (s := s) (r := r) (d := d) hlist
    refine ⟨fun hn => ⟨_, exec_dmaToDev_fault (hfault.trans (if_pos hn)) hrun, endCmd_ended .., rfl⟩,
      fun st hn hst => ⟨_, exec_dmaToDev_fault ((hfault.trans (if_neg hn)).trans hst) hrun, endCmd_ended .., rfl⟩,
      fun hn hok hslice hlen hclean hpoison => ?_⟩
    have hx := exec_dmaToDev_whole ((hfault.trans (if_neg hn)).trans hok) hrun hclean (Nat.le_of_eq hlen.symm)
    rw [show d.bytes.take (dmaLen c) = d.bytes from List.take_of_length_le (Nat.le_of_eq hlen)] at hx
    obtain ⟨q, hstore, hhost, hmem, hothers⟩ := devStore_slice (part := fnPart r.f) (bs := d.bytes) hslice (hlen ▸ hpoison)
    rw [hstore] at hx
    have hended : ended q (endCmd q r c sOK (BitVec.ofNat 64 n)) r c sOK (BitVec.ofNat 64 n) := endCmd_ended ..
    rw [ended, show getFn q r.f.val = getFn s r.f.val by rw [getFn, hhost, getFn]] at hended
    refine ⟨_, hx, hended, fun i hi => ?_, fun i hi => ?_, hothers⟩ <;> rw [getCore_endCmd, hmem]
    · exact rdByte_wrBytes_getD _ _ _ _ (hlen ▸ hi)
    · exact rdByte_wrBytes_out _ _ _ _ (hlen ▸ hi)
  case fromDev =>
    intro a sl n h hn hok hslice hclean hlive
    have hfault := dmaFault_plain (s := s) (r := r) (d := d) hlist
    have hx := exec_dmaFromDev ((hfault.trans (if_neg hn)).trans hok) hrun hlive
    rw [devFetch_slice hslice hclean, hlist, if_neg Bool.false_ne_true] at hx
    have hmem : ∀ t : State, t.host.mem = wrBytes s.host.mem h (rdBytes sl.mem (fld a 0 21) n) →
        (∀ i, i < n → rdByte t.host.mem (h + i) = rdByte sl.mem (fld a 0 21 + i)) ∧
          ∀ i, i < h ∨ h + n ≤ i → rdByte t.host.mem i = rdByte s.host.mem i := fun t ht => by
      rw [ht]
      have hlen := length_rdBytes sl.mem (fld a 0 21) n
      exact ⟨fun i hi => (rdByte_wrBytes_getD _ _ _ _ (hlen.symm ▸ hi)).trans (getD_rdBytes _ _ _ _ hi),
        fun i hi => rdByte_wrBytes_out _ _ _ _ (hlen.symm ▸ hi)⟩
    refine ⟨_, hx, endCmd_ended .., rfl, hmem _ ?_⟩
    refine (hostWrite_mem s h _).trans ?_
    rw [List.take_of_length_le (Nat.le_of_eq (length_rdBytes ..))]
    rfl
  case read =>
    have hx := exec_hostWindowRead (off := off) (n := n) hserves
    rw [windowTake_active hactive] at hx
    refine ⟨fun p o hreach => ⟨_, hx.trans (congrArg _ (windowAccess_read hreach)), rfl, rfl, rfl⟩,
      fun hnone => ⟨_, hx.trans (congrArg _ (windowAccess_readRefused hnone)), rfl, rfl, rfl⟩⟩
  case wakes =>
    refine ⟨⟨_, exec_hostWindowRead hserves, windowTake_waking hwaking⟩, fun hgood => ⟨_, exec_hostWindowWrite hserves, ?_⟩⟩
    rw [show barNoted s w = s from if_neg (by simp [hgood])]
    exact windowTake_waking hwaking
  case write =>
    intro w u
    have hx := exec_hostWindowWrite (off := off) (w := ⟨bs, poisoned⟩) hserves
    have hu : barNoted s ⟨bs, poisoned⟩ = u := rfl
    have hreach : windowReach u f off bs.length = windowReach s f off bs.length := by
      cases poisoned <;> rfl
    have hactive' : u.dorm.st = .active := by cases poisoned <;> exact hactive
    rw [hu, windowTake_active hactive'] at hx
    refine ⟨fun p o hr => ⟨_, hx, windowAccess_write (w := ⟨bs, poisoned⟩) (hreach.trans hr)⟩, fun hr => ?_,
      fun p o hr hlen hoff' hgood hch => ?_⟩
    · rw [windowAccess_writeRefused (w := ⟨bs, poisoned⟩) (hreach.trans hr) hoff] at hx
      refine ⟨_, hx, ?_, ?_, ?_⟩
      · rw [getFn_signalVec, winErr_signalFn, getFn_modFn]
      · cases poisoned <;> rfl
      · cases poisoned <;> rfl
    · subst hgood
      rw [windowAccess_write (w := ⟨bs, false⟩) (hreach.trans hr)] at hx
      obtain ⟨bad, hstore⟩ := hbmStore_granule hlen hoff' hch
      have hx' : exec w s = .next (hbmStore s p.toNat o bs []).1 := hx
      rw [hstore] at hx'
      refine ⟨_, hx', rfl, fun i hi => ?_, fun i hi => ?_, fun k' hk => getStack_modStack_other _ _ _ _ hk⟩
      · rw [getStack_modStack]
        exact rdByte_wrBytes_getD _ _ _ _ (hlen.symm ▸ hi)
      · rw [getStack_modStack]
        exact rdByte_wrBytes_out _ _ _ _ (hlen.symm ▸ hi)

end Sys2Proof.Machine
end

section
/-! PROOFS. What a change of role, an unload and a core reset leave: the host interface, and the roles and CORE_CTRL of the other
cores (Table 06.7). -/

namespace Sys2Proof.Machine

/-! ### The host interface -/

@[simp] theorem host_modCore (s : State) (l : Lcid) (f : Core → Core) : (modCore s l f).host = s.host := rfl

theorem host_sendLanding (s : State) (e : Nat) (p : Pkt) : (sendLanding s e p).host = s.host := by
  unfold sendLanding
  split <;> rfl

theorem host_sendVia (s : State) (f : Side) (p : Pkt) : (sendVia s f p).host = s.host := by
  cases f with
  | pos l => rfl
  | unit dg => rfl
  | ep e => exact host_sendLanding s e p

theorem host_sendFar (s : State) (f : Side) (p : Pkt) (d : Did) (src : Lcid) (dst : Option Lcid) :
    (sendFar s f p d src dst).host = s.host := by
  unfold sendFar
  split
  · split
    · rfl
    · exact host_sendVia ..
  · rfl

theorem host_answerMsg (s : State) (f : Side) (m : Msg) (st : Status) (kind : Nat) : (answerMsg s f m st kind).host = s.host := by
  unfold answerMsg
  dsimp only
  split
  · exact host_sendFar ..
  · split <;> exact host_sendVia ..

theorem cores_answerMsg (s : State) (f : Side) (m : Msg) (st : Status) (kind : Nat) : (answerMsg s f m st kind).cores = s.cores := by
  unfold answerMsg
  dsimp only
  split
  · exact sendFar_cores ..
  · split <;> exact sendVia_cores ..

theorem host_sendCancel (s : State) (l : Lcid) (o : SyncOut) : (sendCancel s l o).host = s.host := by
  unfold sendCancel
  split <;> rfl

theorem host_unitCancel (s : State) (l : Lcid) (o : SyncOut) : (unitCancel s l o).host = s.host := by
  unfold unitCancel
  split <;> rfl

theorem host_foldl {α : Type} {f : State → α → State} (h : ∀ s a, (f s a).host = s.host) (as : List α) (s : State) :
    (as.foldl f s).host = s.host := by
  induction as generalizing s with
  | nil => rfl
  | cons a as ih => exact (ih _).trans (h s a)

theorem host_ite {p : Prop} [Decidable p] {s t u : State} (ht : t.host = s.host) (hu : u.host = s.host) :
    (if p then t else u).host = s.host := by
  split <;> assumption

theorem host_abandonSyncs (s : State) (l : Lcid) (c : CtxNo) : (abandonSyncs s l c).host = s.host := by
  rw [abandonSyncs]
  rw [host_foldl (fun s o => host_ite (host_sendCancel s l o) rfl), host_modCore]

theorem host_abandonWait (s : State) (l : Lcid) (c : CtxNo) : (abandonWait s l c).host = s.host := by
  unfold abandonWait
  split
  · rfl
  · exact host_abandonSyncs ..
  · rfl
  · rfl

theorem host_toFree (s : State) (l : Lcid) (c : CtxNo) : (toFree s l c).host = s.host := by
  rw [toFree, host_modCore, host_abandonWait]

theorem host_settle (s : State) (l : Lcid) (c : CtxNo) : (settle s l c).host = s.host := by
  unfold settle
  dsimp only
  refine host_ite rfl (host_ite (host_ite rfl (host_toFree ..)) (host_ite ?_ rfl))
  split
  · exact host_ite rfl (host_toFree ..)
  · exact host_ite rfl rfl
  · exact host_ite rfl rfl
  · rfl

theorem host_freeCtx (s : State) (l : Lcid) (c : CtxNo) : (freeCtx s l c).host = s.host := by
  rw [freeCtx, host_settle, modCtxOf, host_modCore, host_abandonSyncs, host_abandonWait]

theorem host_coreBounce (s : State) (l : Lcid) (m : Msg) (st : Status) : (coreBounce s l m st).host = s.host := by
  rw [coreBounce, bounce, host_answerMsg, host_modCore]

theorem host_bounceWaiting (s : State) (l : Lcid) (st : Status) : (bounceWaiting s l st).host = s.host := by
  rw [bounceWaiting]
  rw [host_foldl (fun s m => host_coreBounce s l m st), host_modCore]

theorem host_unbindCore (s : State) (l : Lcid) : (unbindCore s l).host = s.host := by
  rw [unbindCore, host_modCore]
  refine host_foldl (fun s p => host_foldl (fun s d => ?_) _ s) _ s
  dsimp only
  split
  · exact host_ite rfl rfl
  · rfl

theorem host_changeRole (s : State) (l : Lcid) (v : Word) : (changeRole s l v).host = s.host := by
  rw [changeRole, setRole, host_bounceWaiting, host_modCore, host_unbindCore, host_foldl (fun s c => host_freeCtx s l c)]

theorem host_writeResident (s : State) (l : Lcid) : (writeResident s l).host = s.host := by
  rw [writeResident, host_modCore]

theorem host_unloadCore (part : BitVec 4) (s : State) (l : Lcid) : (unloadCore part s l).host = s.host := by
  rw [unloadCore, host_writeResident, host_changeRole]

theorem host_cancelAll (s : State) (l : Lcid) (gone : Bool) : (cancelAll s l gone).host = s.host := by
  rw [cancelAll]
  rw [host_foldl (fun s o => host_ite (host_unitCancel s l o) (host_sendCancel s l o)), host_modCore]

theorem host_resetCore (s : State) (l : Lcid) : (resetCore s l).host = s.host := by
  rw [resetCore, host_writeResident, host_modCore, discardCore, host_modCore, host_cancelAll, host_bounceWaiting]

theorem host_forceUnload (part : BitVec 4) (s : State) (l : Lcid) : (forceUnload part s l).host = s.host := by
  rw [forceUnload, host_modCore, host_resetCore, host_unbindCore]

/-! ### Roles and CORE_CTRL -/

/-- What a seat's core is told: its role and CORE_CTRL. -/
def seat (k : Core) : Word × Word := (k.role, k.ctrl)

/-- From `s` to `t` every core keeps its role and CORE_CTRL. -/
structure SeatsKept (s t : State) : Prop where
  at' : ∀ l, seat (getCore t l) = seat (getCore s l)

namespace SeatsKept

variable {s t u : State}

theorem refl (s : State) : SeatsKept s s := ⟨fun _ => rfl⟩

theorem trans (h : SeatsKept s t) (h' : SeatsKept t u) : SeatsKept s u := ⟨fun l => (h'.at' l).trans (h.at' l)⟩

theorem of_cores (h : t.cores = s.cores) : SeatsKept s t := ⟨fun l => congrArg seat (getCore_of_cores h l)⟩

theorem modCore (s : State) (l : Lcid) {f : Core → Core} (hf : ∀ k, seat (f k) = seat k) :
    SeatsKept s (Machine.modCore s l f) := ⟨fun l' => by
  by_cases hl : l' = l
  · rw [hl, getCore_modCore, hf]
  · rw [getCore_modCore_other _ _ _ _ hl]⟩

theorem ite {p : Prop} [Decidable p] (ht : SeatsKept s t) (hu : SeatsKept s u) : SeatsKept s (if p then t else u) := by
  split <;> assumption

theorem foldl {α : Type} {f : State → α → State} (h : ∀ s a, SeatsKept s (f s a)) (as : List α) (s : State) :
    SeatsKept s (as.foldl f s) := by
  induction as generalizing s with
  | nil => exact refl s
  | cons a as ih => exact (h s a).trans (ih _)

theorem of_onlyUnits {l : Lcid} (h : OnlyUnits l s t) : SeatsKept s t := ⟨fun l' => by
  obtain ⟨⟨u, hat⟩, hother⟩ := h
  by_cases hl : l' = l
  · rw [hl, hat]
    rfl
  · rw [hother l' hl]⟩

end SeatsKept

theorem seat_clearRecord (k : Core) (c : CtxNo) : seat (clearRecord k c) = seat k := by
  unfold clearRecord
  split <;> rfl

theorem seat_dropSource (k : Core) (c : CtxNo) : seat (dropSource k c) = seat k := by
  unfold dropSource
  split <;> rfl

theorem seat_modCtx (k : Core) (c : CtxNo) (f : Ctx → Ctx) : seat (modCtx k c f) = seat k := rfl

theorem seat_freed (k : Core) (ids : NatSet) : seat { k with ring := { k.ring with replaying := ids } } = seat k := rfl

theorem seat_dropAllHeld (k : Core) (c : CtxNo) : seat (dropAllHeld k c) = seat k := rfl

theorem seat_modEng (k : Core) (f : Engines → Engines) : seat (modEng k f) = seat k := rfl

theorem seatsKept_toFree (s : State) (l : Lcid) (c : CtxNo) : SeatsKept s (toFree s l c) := by
  rw [toFree]
  refine (SeatsKept.of_onlyUnits (onlyUnits_abandonWait s l c)).trans (SeatsKept.modCore _ l fun k => ?_)
  rw [seat_modCtx, seat_freed, seat_dropAllHeld, seat_dropSource, seat_modEng, seat_clearRecord]

theorem seatsKept_modCtxOf (s : State) (l : Lcid) (c : CtxNo) (f : Ctx → Ctx) : SeatsKept s (modCtxOf s l c f) :=
  SeatsKept.modCore s l fun _ => rfl

theorem seatsKept_settle (s : State) (l : Lcid) (c : CtxNo) : SeatsKept s (settle s l c) := by
  unfold settle
  dsimp only
  refine SeatsKept.ite (.refl s) (SeatsKept.ite (SeatsKept.ite (.refl s) (seatsKept_toFree ..)) (SeatsKept.ite ?_ (.refl s)))
  split
  · exact SeatsKept.ite (.refl s) (seatsKept_toFree ..)
  · exact SeatsKept.ite (.refl s) (seatsKept_modCtxOf ..)
  · exact SeatsKept.ite (.refl s) (seatsKept_modCtxOf ..)
  · exact .refl s

theorem seatsKept_freeCtx (s : State) (l : Lcid) (c : CtxNo) : SeatsKept s (freeCtx s l c) := by
  rw [freeCtx]
  exact ((SeatsKept.of_onlyUnits ((onlyUnits_abandonWait s l c).trans (onlyUnits_abandonSyncs _ l c))).trans
    (seatsKept_modCtxOf ..)).trans (seatsKept_settle ..)

theorem seatsKept_coreBounce (s : State) (l : Lcid) (m : Msg) (st : Status) : SeatsKept s (coreBounce s l m st) := by
  rw [coreBounce, bounce]
  exact (SeatsKept.of_onlyUnits (OnlyUnits.modUn s l _)).trans (SeatsKept.of_cores (cores_answerMsg ..))

theorem seatsKept_bounceWaiting (s : State) (l : Lcid) (st : Status) : SeatsKept s (bounceWaiting s l st) := by
  rw [bounceWaiting]
  exact (SeatsKept.of_onlyUnits (OnlyUnits.modUn s l _)).trans (SeatsKept.foldl (fun s m => seatsKept_coreBounce s l m st) _ _)

theorem seat_setLink (k : Core) (inn : Bool) (d : Nat) (e : LinkEnd) : seat (setLink k inn d e) = seat k := by
  unfold setLink
  split <;> rfl

theorem seatsKept_unbindCore (s : State) (l : Lcid) : SeatsKept s (unbindCore s l) := by
  rw [unbindCore]
  refine (SeatsKept.foldl (fun s p => SeatsKept.foldl (fun s d => ?_) _ s) _ s).trans (SeatsKept.modCore _ l fun _ => rfl)
  dsimp only
  split
  · exact SeatsKept.ite ((SeatsKept.modCore _ _ fun k => seat_setLink k ..).trans (SeatsKept.modCore _ _ fun k => seat_setLink k ..))
      (.refl _)
  · exact .refl _

theorem seatsKept_writeResident (s : State) (l : Lcid) : SeatsKept s (writeResident s l) := by
  have hwrite (f : Slice → Slice) (ht : Tbl Word) : SeatsKept s (modCore s l fun k => { modSp k f with ht := ht }) :=
    SeatsKept.modCore s l fun _ => rfl
  exact hwrite _ _

/-! ### Table 06.7 -/

/-- A core's role says what the value written says, but for EPOCH. -/
def HasRole (k : Core) (v : Word) : Prop :=
  fld k.role 28 16 = fld v 28 16 ∧ fld k.role 44 4 = fld v 44 4 ∧ fld k.role 0 27 = fld v 0 27

theorem fld_lt {w : Nat} (x : BitVec w) (lo len : Nat) : fld x lo len < 2 ^ len := Nat.mod_lt _ (Nat.two_pow_pos len)

/-- The fields of a role (Table 06.5) that a word is put together from. -/
theorem fld_roleWord {v : Word} {e part program logical : Nat} (hv : v = wd (e * 2 ^ 48 + part * 2 ^ 44 + program * 2 ^ 28 + logical))
    (hpart : part < 2 ^ 4) (hprogram : program < 2 ^ 16) (hlogical : logical < 2 ^ 27) :
    fld v 28 16 = program ∧ fld v 44 4 = part ∧ fld v 0 27 = logical := by
  have hn : v.toNat = (e * 2 ^ 48 + part * 2 ^ 44 + program * 2 ^ 28 + logical) % 2 ^ 64 := by rw [hv, wd, BitVec.toNat_ofNat]
  simp only [fld, Nat.shiftRight_eq_div_pow, hn]
  refine ⟨?_, ?_, ?_⟩ <;> omega

theorem ctrl_of_seat {k k' : Core} (h : seat k' = seat k) : k'.ctrl = k.ctrl := congrArg Prod.snd h

theorem hasRole_of_seat {k k' : Core} {v : Word} (h : seat k' = seat k) (hr : HasRole k v) : HasRole k' v := by
  have hrole : k'.role = k.role := congrArg Prod.fst h
  rw [HasRole, hrole]
  exact hr

section
variable (s : State) (l : Lcid) (v : Word)

/-- R174: the core has the role that is written, and every other core keeps its own; CORE_CTRL stays. -/
theorem setRole_seats : HasRole (getCore (setRole s l v) l) v ∧ (getCore (setRole s l v) l).ctrl = (getCore s l).ctrl ∧
    ∀ l', l' ≠ l → seat (getCore (setRole s l v) l') = seat (getCore s l') := by
  rw [setRole]
  have hkept := seatsKept_bounceWaiting (modCore s l fun k => { k with
    role := wd (nextEpoch (fld k.role 48 16) * 2 ^ 48 + fld v 44 4 * 2 ^ 44 + fld v 28 16 * 2 ^ 28 + fld v 0 27) }) l sSTALE
  refine ⟨hasRole_of_seat (hkept.at' l) ?_, ?_, fun l' hl => (hkept.at' l').trans (by rw [getCore_modCore_other _ _ _ _ hl])⟩
  · rw [getCore_modCore]
    exact fld_roleWord rfl (fld_lt ..) (fld_lt ..) (fld_lt ..)
  · refine (ctrl_of_seat (hkept.at' l)).trans ?_
    rw [getCore_modCore]

theorem changeRole_seats : HasRole (getCore (changeRole s l v) l) v ∧ (getCore (changeRole s l v) l).ctrl = (getCore s l).ctrl ∧
    ∀ l', l' ≠ l → seat (getCore (changeRole s l v) l') = seat (getCore s l') := by
  rw [changeRole]
  have hkept : SeatsKept s (unbindCore ((heldOrFaulted (getCore s l)).foldl (fun s c => freeCtx s l c) s) l) :=
    (SeatsKept.foldl (fun s c => seatsKept_freeCtx s l c) _ s).trans (seatsKept_unbindCore ..)
  obtain ⟨hrole, hctrl, hothers⟩ := setRole_seats (unbindCore ((heldOrFaulted (getCore s l)).foldl (fun s c => freeCtx s l c) s) l) l v
  exact ⟨hrole, hctrl.trans (ctrl_of_seat (hkept.at' l)), fun l' hl => (hothers l' hl).trans (hkept.at' l')⟩

theorem unloadCore_seats (part : BitVec 4) : HasRole (getCore (unloadCore part s l) l) (roleValue part 0 0) ∧
    (getCore (unloadCore part s l) l).ctrl = (getCore s l).ctrl ∧
    ∀ l', l' ≠ l → seat (getCore (unloadCore part s l) l') = seat (getCore s l') := by
  rw [unloadCore]
  obtain ⟨hrole, hctrl, hothers⟩ := changeRole_seats s l (roleValue part 0 0)
  have hkept := seatsKept_writeResident (changeRole s l (roleValue part 0 0)) l
  exact ⟨hasRole_of_seat (hkept.at' l) hrole, (ctrl_of_seat (hkept.at' l)).trans hctrl,
    fun l' hl => (hkept.at' l').trans (hothers l' hl)⟩

end

/-- The role that a LOAD or UNLOAD writes (Table 06.5). -/
theorem fld_roleValue (part : BitVec 4) (program logical : Nat) (hprogram : program < 2 ^ 16) :
    fld (roleValue part program logical) 28 16 = program ∧ fld (roleValue part program logical) 44 4 = part.toNat ∧
      fld (roleValue part program logical) 0 27 = logical % 2 ^ 27 := by
  refine fld_roleWord (e := 0) ?_ part.isLt hprogram (Nat.mod_lt _ (Nat.two_pow_pos 27))
  rw [Nat.zero_mul, Nat.zero_add, roleValue]

/-- Steps each of which gives one core a role, and leaves the host interface and every other core's seat. -/
structure GivesRoles {α : Type} (f : State → α → State) (key : α → Lcid) (val : α → Word) : Prop where
  host  : ∀ s a, (f s a).host = s.host
  role  : ∀ s a, HasRole (getCore (f s a) (key a)) (val a)
  ctrl  : ∀ s a, (getCore (f s a) (key a)).ctrl = (getCore s (key a)).ctrl
  other : ∀ s a l, l ≠ key a → seat (getCore (f s a) l) = seat (getCore s l)

/-- One after another they give each core its role, the last one that names it where several do. -/
theorem GivesRoles.foldl {α : Type} {f : State → α → State} {key : α → Lcid} {val : α → Word} (h : GivesRoles f key val)
    (as : List α) (hsame : ∀ a ∈ as, ∀ b ∈ as, key a = key b → val a = val b) (s : State) :
    (as.foldl f s).host = s.host ∧ (∀ a ∈ as, HasRole (getCore (as.foldl f s) (key a)) (val a)) ∧
      (∀ l, (∀ a ∈ as, key a ≠ l) → seat (getCore (as.foldl f s) l) = seat (getCore s l)) ∧
      ∀ l, (getCore (as.foldl f s) l).ctrl = (getCore s l).ctrl := by
  induction as generalizing s with
  | nil => exact ⟨rfl, fun a ha => (List.not_mem_nil ha).elim, fun _ _ => rfl, fun _ => rfl⟩
  | cons b as ih =>
    obtain ⟨hhost, hin, hout, hctrl⟩ := ih (fun a ha c hc => hsame a (List.mem_cons_of_mem _ ha) c (List.mem_cons_of_mem _ hc)) (f s b)
    refine ⟨hhost.trans (h.host s b), fun a ha => ?_, fun l hl => ?_, fun l => (hctrl l).trans ?_⟩
    · by_cases hlater : ∃ c ∈ as, key c = key a
      · obtain ⟨c, hc, hkey⟩ := hlater
        have hrole := hin c hc
        rwa [hkey, hsame c (List.mem_cons_of_mem _ hc) a ha hkey] at hrole
      · obtain rfl : a = b := (List.mem_cons.1 ha).resolve_right fun hmem => hlater ⟨a, hmem, rfl⟩
        exact hasRole_of_seat (hout (key a) fun c hc hkey => hlater ⟨c, hc, hkey⟩) (h.role s a)
    · exact (hout l fun a ha => hl a (List.mem_cons_of_mem _ ha)).trans (h.other s b l (hl b (List.mem_cons_self ..)).symm)
    · by_cases hl : l = key b
      · rw [hl, h.ctrl]
      · exact ctrl_of_seat (h.other s b l hl)

theorem givesRoles_changeRole {α : Type} (key : α → Lcid) (val : α → Word) :
    GivesRoles (fun s a => changeRole s (key a) (val a)) key val where
  host s a := host_changeRole s (key a) (val a)
  role s a := (changeRole_seats s (key a) (val a)).1
  ctrl s a := (changeRole_seats s (key a) (val a)).2.1
  other s a := (changeRole_seats s (key a) (val a)).2.2

/-- Cores unloaded one after another have PROGRAM 0. -/
theorem givesRoles_unloadCore (part : BitVec 4) : GivesRoles (unloadCore part) id fun _ => roleValue part 0 0 where
  host s l := host_unloadCore part s l
  role s l := (unloadCore_seats s l part).1
  ctrl s l := (unloadCore_seats s l part).2.1
  other s l := (unloadCore_seats s l part).2.2

end Sys2Proof.Machine
end

section
/-! PROOFS. LOAD, UNLOAD, host messages and FLR (R286, R371, R384, R386, R395). -/

namespace Sys2Proof.Machine

/-! ### The cores that masks name -/

theorem toNat_lcidOf {g n : Nat} (hg : g < 256) (hn : n < 16) : (lcidOf (BitVec.ofNat 8 g) n).toNat = g * 16 + n := by
  rw [lcidOf, BitVec.toNat_ofNat, BitVec.toNat_ofNat]
  omega

/-- The cores of one grove that a mask names. -/
def namedAt (pos g : Nat) : List Lcid := (below 16).filterMap fun n => if pos.testBit n then some (lcidOf (BitVec.ofNat 8 g) n) else none

theorem toNat_of_mem_namedAt {pos g : Nat} {l : Lcid} (hg : g < 256) (h : l ∈ namedAt pos g) : l.toNat / 16 = g := by
  obtain ⟨n, hn, hl⟩ := List.mem_filterMap.1 h
  obtain ⟨-, hl⟩ := Option.ite_none_right_eq_some.1 hl
  obtain rfl := Option.some.inj hl
  have hn : n < 16 := (mem_below _ _).1 hn
  rw [toNat_lcidOf hg hn]
  omega

theorem namedAt_nodup {pos g : Nat} (hg : g < 256) : (namedAt pos g).Nodup := by
  refine List.pairwise_filterMap.2 ((below_nodup 16).imp_of_mem fun {a b} ha hb hab x hx y hy hxy => hab ?_)
  obtain ⟨-, hx⟩ := Option.ite_none_right_eq_some.1 hx
  obtain ⟨-, hy⟩ := Option.ite_none_right_eq_some.1 hy
  have h := congrArg BitVec.toNat ((Option.some.inj hx).trans (hxy.trans (Option.some.inj hy).symm))
  rw [toNat_lcidOf hg ((mem_below _ _).1 ha), toNat_lcidOf hg ((mem_below _ _).1 hb)] at h
  omega

/-- No core is named twice. -/
theorem namedCores_nodup (pos : Nat) (masks : List Word) : (namedCores pos masks).Nodup := by
  refine List.nodup_flatMap.2 ⟨fun g hg => ?_, (below_nodup 256).imp_of_mem fun {a b} ha hb hab => ?_⟩
  · split
    · exact namedAt_nodup ((mem_below _ _).1 hg)
    · exact List.nodup_nil
  · simp only [Function.onFun]
    split
    · split
      · exact fun l hla hlb => hab ((toNat_of_mem_namedAt ((mem_below _ _).1 ha) hla).symm.trans
          (toNat_of_mem_namedAt ((mem_below _ _).1 hb) hlb))
      · exact List.disjoint_nil_right _
    · exact List.disjoint_nil_left _

/-! ### Cores taken by a command -/

/-- A change of some cores touches nothing but the cores. -/
theorem foldl_modCore_rest (f : Core → Core) (ls : List Lcid) (s : State) :
    ∃ cs, ls.foldl (fun s l => modCore s l f) s = { s with cores := cs } := by
  induction ls generalizing s with
  | nil => exact ⟨s.cores, rfl⟩
  | cons l ls ih =>
    obtain ⟨cs, hcs⟩ := ih (modCore s l f)
    exact ⟨cs, hcs.trans rfl⟩

theorem getCore_foldl_modCore (f : Core → Core) (ls : List Lcid) (s : State) (h : ls.Nodup) (l : Lcid) :
    getCore (ls.foldl (fun s l => modCore s l f) s) l = if l ∈ ls then f (getCore s l) else getCore s l := by
  induction ls generalizing s with
  | nil => rfl
  | cons j ls ih =>
    obtain ⟨hj, h⟩ := List.nodup_cons.1 h
    rw [List.foldl_cons, ih _ h]
    by_cases hl : l = j
    · subst hl
      rw [if_neg hj, if_pos (List.mem_cons_self ..), getCore_modCore]
    · rw [getCore_modCore_other _ _ _ _ hl]
      simp [hl]

section
variable {s : State} {r : CmdRef} {c : HostCmd} {ls : List Lcid}

/-- R386 step 3: the command has taken its cores and holds them. -/
def coresTaken (s : State) (r : CmdRef) (c : HostCmd) (ls : List Lcid) : State :=
  modCmd (ls.foldl (fun s l => modCore s l quiesce) s) r.f.val c.seq fun c => { c with begun := true, cores := ls }

/-- But for the cores that are taken and the command, nothing changes. -/
theorem coresTaken_rest : ∃ cs, coresTaken s r c ls =
    modCmd { s with cores := cs } r.f.val c.seq fun c => { c with begun := true, cores := ls } := by
  obtain ⟨cs, hcs⟩ := foldl_modCore_rest quiesce ls s
  exact ⟨cs, by rw [coresTaken, hcs]⟩

theorem getCore_coresTaken (h : ls.Nodup) (l : Lcid) :
    getCore (coresTaken s r c ls) l = if l ∈ ls then quiesce (getCore s l) else getCore s l :=
  getCore_foldl_modCore quiesce ls s h l

theorem coresTaken_same (s : State) (r : CmdRef) (c : HostCmd) (ls : List Lcid) : (coresTaken s r c ls).check = s.check ∧ (∀ l, occupied (coresTaken s r c ls) l = occupied s l) := by
  obtain ⟨cs, hcs⟩ := coresTaken_rest (s := s) (r := r) (c := c) (ls := ls)
  rw [hcs]
  exact ⟨rfl, fun _ => rfl⟩

/-- The command itself, begun, with its cores. -/
theorem mem_coresTaken (hc : c ∈ (getFn s r.f.val).cmds) :
    { c with begun := true, cores := ls } ∈ (getFn (coresTaken s r c ls) r.f.val).cmds := by
  obtain ⟨cs, hcs⟩ := coresTaken_rest (s := s) (r := r) (c := c) (ls := ls)
  rw [hcs, modCmd, getFn_modFn]
  exact List.mem_map.2 ⟨c, hc, if_pos rfl⟩

/-- A command that is in flight where its outcome is set has that outcome. -/
theorem fin_endCmd {u : State} {d : HostCmd} {st : Status} {res : Word} (hd : d ∈ (getFn u r.f.val).cmds) (hseq : d.seq = c.seq) :
    ∃ e ∈ (getFn (endCmd u r c st res) r.f.val).cmds, e.seq = c.seq ∧ e.fin = some (st, res) := by
  rw [endCmd, modCmd, getFn_modFn]
  exact ⟨{ d with begun := true, fin := some (st, res) }, List.mem_map.2 ⟨d, hd, if_pos hseq⟩, hseq, rfl⟩

/-- A command with its cores taken, after steps that leave the host interface. -/
theorem fin_endCmd_taken {u : State} {st : Status} {res : Word} (hc : c ∈ (getFn s r.f.val).cmds)
    (hhost : u.host = (coresTaken s r c ls).host) :
    ∃ e ∈ (getFn (endCmd u r c st res) r.f.val).cmds, e.seq = c.seq ∧ e.fin = some (st, res) := by
  refine fin_endCmd (d := { c with begun := true, cores := ls }) ?_ rfl
  rw [getFn, hhost, ← getFn]
  exact mem_coresTaken hc

end

/-! ### Host messages (R384) -/

section
variable {s : State} {r : CmdRef} {c : HostCmd} {d : HostData} (hrun : running s r 0x12 = some c) (hbegun : c.begun = false)
include hrun hbegun

theorem exec_hostMsg_fault {st : Status} (h : hostMsgFault s r.f d (hostHdr s c.ref d.bytes) = some st) :
    exec (.hostMsg r d) s = .next (endCmd s r c st 0) := by
  have hx : exec (.hostMsg r d) s = .next (doHostMsg r d s) := rfl
  rw [doHostMsg, hrun] at hx
  dsimp only at hx
  rwa [hbegun, if_neg Bool.false_ne_true, h] at hx

theorem exec_hostMsg (h : hostMsgFault s r.f d (hostHdr s c.ref d.bytes) = none) :
    exec (.hostMsg r d) s = .next (injectHostMsg s r c d (hostHdr s c.ref d.bytes)) := by
  have hx : exec (.hostMsg r d) s = .next (doHostMsg r d s) := rfl
  rw [doHostMsg, hrun] at hx
  dsimp only at hx
  rwa [hbegun, if_neg Bool.false_ne_true, h] at hx

end

section
variable {s : State} {r : CmdRef} {c : HostCmd} {d : HostData} {h : Hdr}

/-- The packet that brings a host message to its target, before it is addressed. -/
def hostMsgPkt (s : State) (r : CmdRef) (c : HostCmd) (d : HostData) (h : Hdr) : Pkt :=
  let m : Msg := { h := h, data := (d.bytes.drop 32).take (hdrLen h), bad := [], part := hostMsgPart s r.f h, mid := c.ref, due := 0,
                   again := false }
  { msgPkt m with part := m.part }

/-- The command begun. -/
def cmdBegun (s : State) (r : CmdRef) (c : HostCmd) : State := modCmd s r.f.val c.seq fun c => { c with begun := true }

theorem injectHostMsg_far {did : Did} (hfar : hdrFar s h = some did) : injectHostMsg s r c d h =
    sendFar (modCmd (cmdBegun s r c) r.f.val c.seq fun e => { e with wire := some ({ hostMsgPkt s r c d h with
        fab := some ⟨if hasDid s then ownDid s else 0, did, 0, some (hdrDst h), 0, false⟩ }, now s) })
      (.ep epPcie) (hostMsgPkt s r c d h) did 0 (some (hdrDst h)) := by
  have hfar' : hdrFar (cmdBegun s r c) h = some did := hfar
  rw [injectHostMsg]
  simp only [cmdBegun] at hfar'
  simp only [hfar']
  rfl

variable (hnear : hdrFar s h = none)
include hnear

theorem injectHostMsg_vacant
    (hno : hostReaches s ((hostMsgPkt s r c d h).toCore (hdrDst h)).addr (dgOf (hdrDst h)) = false) :
    injectHostMsg s r c d h = endCmd (cmdBegun s r c) r c sVACANT 0 := by
  have hnear' : hdrFar (cmdBegun s r c) h = none := hnear
  rw [injectHostMsg]
  simp only [cmdBegun] at hnear'
  simp only [hnear']
  exact if_neg (Bool.eq_false_iff.1 hno)

theorem injectHostMsg_sent
    (hyes : hostReaches s ((hostMsgPkt s r c d h).toCore (hdrDst h)).addr (dgOf (hdrDst h)) = true) :
    ∃ v, injectHostMsg s r c d h =
        sendLanding v epPcie { (hostMsgPkt s r c d h).toCore (hdrDst h) with srcl := true, sep := epPcie } ∧
      v.groves = s.groves ∧ v.cores = s.cores ∧ v.landing = s.landing := by
  have hnear' : hdrFar (cmdBegun s r c) h = none := hnear
  rw [injectHostMsg]
  simp only [cmdBegun] at hnear'
  simp only [hnear']
  exact ⟨_, if_pos hyes, rfl, rfl, rfl⟩

end

/-! ### The steps of a LOAD on a core -/

/-- What the binding of channels and the start of a context leave of a core. -/
def loaded (k : Core) : Word × Word × Tbl Word := (k.role, k.un.area, k.ht)

theorem loaded_setLink (k : Core) (inn : Bool) (d : Nat) (e : LinkEnd) : loaded (setLink k inn d e) = loaded k := by
  unfold setLink
  split <;> rfl

theorem loaded_setCtrl (k : Core) (v : Word) : loaded (setCtrl k v) = loaded k := by
  unfold setCtrl
  dsimp only
  split_ifs <;> rfl

theorem ctrl_setCtrl (k : Core) (v : Word) : (setCtrl k v).ctrl = v := by
  unfold setCtrl
  dsimp only
  split_ifs <;> rfl

theorem loaded_freeKept (k : Core) (c : CtxNo) : loaded (freeKept k c) = loaded k :=
  (congrArg loaded (freeKept_links k c) : _)

theorem loaded_startCtx (k : Core) (c : CtxNo) (pc : BitVec 21) (g1 g2 g3 : Word) (origin : BitVec 2) (hidx : BitVec 12)
    (src : StartSrc) : loaded (startCtx k c pc g1 g2 g3 origin hidx src) = loaded k := by
  unfold startCtx startRecord
  dsimp only
  split
  · exact loaded_freeKept ..
  · rfl

theorem loaded_openCore (d : LoadData) (k : Core) : loaded (openCore d k) = loaded k := by
  unfold openCore
  dsimp only
  split
  · exact (loaded_startCtx ..).trans (loaded_setCtrl ..)
  · exact loaded_setCtrl ..

/-- Context 0 of a core that the load starts. -/
theorem openCore_started {d : LoadData} {k : Core} (h : (ldWord d 9).getLsbD 21 = true) :
    (getCtx (openCore d k) 0).pc = BitVec.ofNat 21 (fld (ldWord d 9) 0 21) ∧ (getCtx (openCore d k) 0).st = .ready := by
  have hopen : openCore d k = startCtx (setCtrl k (wd ((ldWord d 11).toNat + 1))) 0 (BitVec.ofNat 21 (fld (ldWord d 9) 0 21)) 0 0 0 2 0 .none :=
    if_pos h
  obtain ⟨-, -, -, b, hctx⟩ := startCtx_frame (setCtrl k (wd ((ldWord d 11).toNat + 1))) 0 (BitVec.ofNat 21 (fld (ldWord d 9) 0 21))
    0 0 0 2 0 .none
  rw [hopen, hctx]
  exact ⟨rfl, rfl⟩

theorem tget_foldl_zipIdx (hs : List Word) (k : Nat) (t : Tbl Word) (n : Nat) :
    tget 0 ((hs.zipIdx k).foldl (fun t p => tput 0 t p.2 p.1) t) n =
      if k ≤ n ∧ n < k + hs.length then hs.getD (n - k) 0 else tget 0 t n := by
  induction hs generalizing k t with
  | nil => simp
  | cons h hs ih =>
    rw [List.zipIdx_cons, List.foldl_cons, ih]
    by_cases hn : n = k
    · subst hn
      simp
    · rw [tget_tput_other _ _ _ _ _ hn]
      by_cases hin : k ≤ n ∧ n < k + (h :: hs).length
      · rw [if_pos hin, if_pos (by simp at hin; omega), show n - k = (n - (k + 1)) + 1 by omega, List.getD_cons_succ]
      · rw [if_neg hin, if_neg (by simp at hin; omega)]

/-- Bindings of channels change no core but at its links. -/
theorem loaded_bindChans (cs : List ChanRec) (s : State) :
    (cs.foldl bindChan s).host = s.host ∧ ∀ l, loaded (getCore (cs.foldl bindChan s) l) = loaded (getCore s l) := by
  have hmod (s : State) (m : Lcid) (inn : Bool) (d : Nat) (e : LinkEnd) (l : Lcid) :
      loaded (getCore (modCore s m fun k => setLink k inn d e) l) = loaded (getCore s l) := by
    by_cases hl : l = m
    · rw [hl, getCore_modCore, loaded_setLink]
    · rw [getCore_modCore_other _ _ _ _ hl]
  induction cs generalizing s with
  | nil => exact ⟨rfl, fun _ => rfl⟩
  | cons c cs ih =>
    obtain ⟨hhost, hl⟩ := ih (bindChan s c)
    exact ⟨hhost, fun l => (hl l).trans ((hmod ..).trans (hmod ..))⟩

/-! ### LOAD (R386) -/

section
variable (s : State) (part : BitVec 4) (d : LoadData) (ls : List Lcid)

/-- The cores with the roles of a load, and then with its image, handlers and area. -/
def rolesLoaded : State :=
  (ls.zipIdx).foldl (fun s p => changeRole s p.1 (roleValue part (fld (ldWord d 0) 48 16) (fld (ldWord d 0) 0 27 + p.2))) s

def imagesLoaded : State := ls.foldl (fun s l => modCore s l (loadCore d)) (rolesLoaded s part d ls)

def channelsBound : State :=
  if ldWord d 8 == 0 then imagesLoaded s part d ls else (chanRecs d.channels).foldl bindChan (imagesLoaded s part d ls)

def coresOpened : State := ls.foldl (fun s l => modCore s l (openCore d)) (channelsBound s part d ls)

theorem host_of_rest {s t : State} (h : ∃ cs, t = { s with cores := cs }) : t.host = s.host := by
  obtain ⟨cs, rfl⟩ := h
  rfl

theorem channelsBound_kept : (channelsBound s part d ls).host = (imagesLoaded s part d ls).host ∧
    ∀ l, loaded (getCore (channelsBound s part d ls) l) = loaded (getCore (imagesLoaded s part d ls) l) := by
  unfold channelsBound
  split
  · exact ⟨rfl, fun _ => rfl⟩
  · exact loaded_bindChans ..

theorem zipIdx_index {ls : List Lcid} (h : ls.Nodup) : ∀ a ∈ ls.zipIdx, ∀ b ∈ ls.zipIdx, a.1 = b.1 → a.2 = b.2 := by
  rintro ⟨x, i⟩ ha ⟨y, j⟩ hb rfl
  have hi := List.mem_zipIdx_iff_getElem?.1 ha
  have hj := List.mem_zipIdx_iff_getElem?.1 hb
  exact (List.getElem?_inj (List.getElem?_eq_some_iff.1 hi).1 h).1 (hi.trans hj.symm)

theorem rolesLoaded_roles {ls : List Lcid} (h : ls.Nodup) : (rolesLoaded s part d ls).host = s.host ∧
    ∀ i l, ls[i]? = some l → HasRole (getCore (rolesLoaded s part d ls) l)
      (roleValue part (fld (ldWord d 0) 48 16) (fld (ldWord d 0) 0 27 + i)) := by
  obtain ⟨hhost, hrole, -⟩ := (givesRoles_changeRole (fun p : Lcid × Nat => p.1)
    fun p => roleValue part (fld (ldWord d 0) 48 16) (fld (ldWord d 0) 0 27 + p.2)).foldl ls.zipIdx
    (fun a ha b hb hab => by rw [zipIdx_index h a ha b hb hab]) s
  exact ⟨hhost, fun i l hi => hrole (l, i) (List.mem_zipIdx_iff_getElem?.2 hi)⟩

theorem loadNow_host {ls : List Lcid} (h : ls.Nodup) : (loadNow s part d ls).host = s.host := by
  calc (loadNow s part d ls).host = (coresOpened s part d ls).host := rfl
    _ = (channelsBound s part d ls).host := host_of_rest (foldl_modCore_rest ..)
    _ = (imagesLoaded s part d ls).host := (channelsBound_kept ..).1
    _ = (rolesLoaded s part d ls).host := host_of_rest (foldl_modCore_rest ..)
    _ = s.host := (rolesLoaded_roles s part d h).1

/-- What a load leaves in the core at its place `i` of the list. -/
theorem loadNow_core {ls : List Lcid} (h : ls.Nodup) {i : Nat} {l : Lcid} (hi : ls[i]? = some l) :
    let k := getCore (loadNow s part d ls) l
    fld k.role 28 16 = fld (ldWord d 0) 48 16 ∧ fld k.role 44 4 = part.toNat ∧
      fld k.role 0 27 = (fld (ldWord d 0) 0 27 + i) % 2 ^ 27 ∧ k.un.area = ldWord d 10 ∧
      (∀ n, n < d.handlers.length → tget 0 k.ht n = d.handlers.getD n 0) ∧
      ((ldWord d 9).getLsbD 21 = true → (getCtx k 0).pc = BitVec.ofNat 21 (fld (ldWord d 9) 0 21) ∧ (getCtx k 0).st = .ready) := by
  intro k
  have hmem : l ∈ ls := List.mem_of_getElem? hi
  have hopened : k = openCore d (getCore (channelsBound s part d ls) l) :=
    (getCore_foldl_modCore (openCore d) ls (channelsBound s part d ls) h l).trans (if_pos hmem)
  have himage : getCore (imagesLoaded s part d ls) l = loadCore d (getCore (rolesLoaded s part d ls) l) :=
    (getCore_foldl_modCore (loadCore d) ls (rolesLoaded s part d ls) h l).trans (if_pos hmem)
  have hloaded : loaded k = loaded (loadCore d (getCore (rolesLoaded s part d ls) l)) := by
    rw [hopened, loaded_openCore, (channelsBound_kept s part d ls).2 l, himage]
  obtain ⟨hrole, harea, hht⟩ : k.role = (getCore (rolesLoaded s part d ls) l).role ∧ k.un.area = ldWord d 10 ∧
      k.ht = (d.handlers.zipIdx).foldl (fun t p => tput 0 t p.2 p.1) [] :=
    ⟨congrArg Prod.fst hloaded, congrArg (·.2.1) hloaded, congrArg (·.2.2) hloaded⟩
  obtain ⟨hprogram, hpart, hlogical⟩ := (rolesLoaded_roles s part d h).2 i l hi
  obtain ⟨vprogram, vpart, vlogical⟩ := fld_roleValue part (fld (ldWord d 0) 48 16) (fld (ldWord d 0) 0 27 + i) (fld_lt ..)
  rw [hrole]
  refine ⟨hprogram.trans vprogram, hpart.trans vpart, hlogical.trans vlogical, harea, fun n hn => ?_, fun hstart => ?_⟩
  · rw [hht, tget_foldl_zipIdx, if_pos ⟨Nat.zero_le _, by omega⟩, Nat.sub_zero]
  · rw [hopened]
    exact openCore_started hstart

end

section
variable {s : State} {r : CmdRef} {c : HostCmd} {d : LoadData} (hrun : running s r 0x20 = some c) (hbegun : c.begun = false)
include hrun

theorem exec_hostLoad_fault {st : Status} {res : Word} (hcores : c.cores = [])
    (h : loadFault s r.f c.seq (cmdPart r.f c.words) d = some (st, res)) : exec (.hostLoad r d) s = .next (endCmd s r c st res) := by
  have hx : exec (.hostLoad r d) s = .next (doHostLoad r d s) := rfl
  rw [doHostLoad, hrun] at hx
  dsimp only at hx
  rwa [h, hcores] at hx

include hbegun

/-- R386 steps 3 to 5, of a LOAD whose checks pass, at its first turn. -/
theorem exec_hostLoad (h : loadFault s r.f c.seq (cmdPart r.f c.words) d = none) :
    let u := coresTaken s r c (ldCores d)
    let part := cmdPart r.f c.words
    exec (.hostLoad r d) s = .next (
      if (ldCores d).any fun l => !quietCore (getCore u l) || groveSounds u (dgOf l) || sweptPos u l then u
      else if ldWord d 8 != 0 && (chanRecs d.channels).any (chanBlocked u (ldCores d)) then
        endCmd ((ldCores d).foldl (unloadCore part) u) r c sPERM
          (loadResult none (((chanRecs d.channels).findIdx? (chanBlocked u (ldCores d))).getD 0xFFFF))
      else (firstThat (fun l => loadPoison d (getCore u l)) (ldCores d)).elim
        (endCmd (loadNow u part d (ldCores d)) r c sOK (loadResult none 0xFFFF)) fun l =>
          endCmd ((ldCores d).foldl (unloadCore part) (loadNow u part d (ldCores d))) r c sPOISON (loadResult (some l) 0xFFFF)) := by
  intro u part
  have hx : exec (.hostLoad r d) s = .next (doHostLoad r d s) := rfl
  rw [doHostLoad, hrun] at hx
  dsimp only at hx
  rw [h] at hx
  simp only [hbegun, if_neg Bool.false_ne_true] at hx
  cases hp : firstThat (fun l => loadPoison d (getCore u l)) (ldCores d) <;>
  · simp only [u, coresTaken] at hp
    rw [hp] at hx
    exact hx

end

/-! ### UNLOAD -/

theorem clearProgram_core (s : State) (l : Lcid) :
    fld (getCore (clearProgram s l) l).role 28 16 = 0 ∧ ∀ l', l' ≠ l → getCore (clearProgram s l) l' = getCore s l' := by
  rw [clearProgram]
  refine ⟨?_, fun l' hl => getCore_modCore_other _ _ _ _ hl⟩
  rw [getCore_modCore]
  have hlt := (getCore s l).role.isLt
  simp only [fld, wd, BitVec.toNat_ofNat, Nat.shiftRight_eq_div_pow]
  omega

/-- Vacant positions cleared one after another lose their programs; the other cores are as before. -/
theorem foldl_clearProgram (ls : List Lcid) (s : State) :
    let t := ls.foldl clearProgram s
    t.host = s.host ∧ (∀ l, l ∈ ls ∨ fld (getCore s l).role 28 16 = 0 → fld (getCore t l).role 28 16 = 0) ∧
      ∀ l, l ∉ ls → getCore t l = getCore s l := by
  induction ls generalizing s with
  | nil => exact ⟨rfl, fun l hl => hl.resolve_left List.not_mem_nil, fun _ _ => rfl⟩
  | cons j ls ih =>
    obtain ⟨hhost, hzero, hout⟩ := ih (clearProgram s j)
    obtain ⟨hj, hothers⟩ := clearProgram_core s j
    refine ⟨hhost, fun l hl => ?_, fun l hl => ?_⟩
    · by_cases hlj : l = j
      · exact hzero l (.inr (hlj ▸ hj))
      · refine hzero l (hl.imp (fun hmem => (List.mem_cons.1 hmem).resolve_left hlj) fun h0 => ?_)
        rwa [hothers l hlj]
    · obtain ⟨hne, hnot⟩ := not_or.1 (List.mem_cons.not.1 hl)
      exact (hout l hnot).trans (hothers l hne)

/-- The occupied cores of a list unloaded and the vacant positions cleared. -/
theorem unloaded_seats (part : BitVec 4) (occ : Lcid → Bool) (all : List Lcid) (u : State) :
    let t := (all.filter fun l => !occ l).foldl clearProgram ((all.filter occ).foldl (unloadCore part) u)
    t.host = u.host ∧ (∀ l ∈ all, fld (getCore t l).role 28 16 = 0) ∧
      ∀ l ∈ all.filter occ, fld (getCore t l).role 44 4 = part.toNat ∧ (getCore t l).ctrl = (getCore u l).ctrl := by
  obtain ⟨hhost, hroles, -, hctrl⟩ := (givesRoles_unloadCore part).foldl (all.filter occ) (fun _ _ _ _ _ => rfl) u
  obtain ⟨hhost', hzero, hout⟩ := foldl_clearProgram (all.filter fun l => !occ l) ((all.filter occ).foldl (unloadCore part) u)
  obtain ⟨vprogram, vpart, -⟩ := fld_roleValue part 0 0 (by decide)
  refine ⟨hhost'.trans hhost, fun l hl => hzero l ?_, fun l hl => ?_⟩
  · cases ho : occ l with
    | true => exact .inr ((hroles l (List.mem_filter.2 ⟨hl, ho⟩)).1.trans vprogram)
    | false => exact .inl (List.mem_filter.2 ⟨hl, by rw [ho]; rfl⟩)
  · have hno : l ∉ all.filter fun l => !occ l := fun h => by
      have := (List.mem_filter.1 h).2
      rw [(List.mem_filter.1 hl).2] at this
      cases this
    rw [hout l hno]
    exact ⟨(hroles l hl).2.1.trans vpart, hctrl l⟩

/-- HOLD_ALL stands in CORE_CTRL of a core that is quiesced. -/
theorem holdAll_quiesce (k : Core) : (quiesce k).ctrl.getLsbD 1 = true := by
  rw [quiesce, ctrl_setCtrl, wd, BitVec.getLsbD_ofNat, Nat.testBit_eq_decide_div_mod_eq]
  simp only [Bool.and_eq_true, decide_eq_true_eq]
  omega

section
variable {s : State} {r : CmdRef} {c : HostCmd}

/-- The cores that an UNLOAD names, and whether it may have them. -/
def unloadAll (c : HostCmd) : List Lcid := namedCores (fld (c.words.getD 3 0) 0 16) (c.words.drop 4)
def unloadTaken (s : State) (r : CmdRef) (c : HostCmd) : Bool :=
  (unloadAll c).any fun l => partOf s (dgOf l) != some (cmdPart r.f c.words) || coreTaken s r.f c.seq l

variable (hrun : running s r 0x21 = some c) (hbegun : c.begun = false)
include hrun hbegun

theorem exec_hostUnload_perm (h : unloadTaken s r c = true) : exec (.hostUnload r) s = .next (endCmd s r c sPERM 0) := by
  have hx : exec (.hostUnload r) s = .next (doHostUnload r s) := rfl
  rw [doHostUnload, hrun] at hx
  dsimp only at hx
  rw [hbegun, Bool.not_false, Bool.true_and] at hx
  exact hx.trans (congrArg _ (if_pos h))

theorem exec_hostUnload (h : unloadTaken s r c = false) :
    let named := (unloadAll c).filter (occupied s)
    let u := coresTaken s r c named
    exec (.hostUnload r) s = .next (
      if named.any fun l => !quietCore (getCore u l) then u
      else endCmd (((unloadAll c).filter fun l => !occupied s l).foldl clearProgram
        (named.foldl (unloadCore (cmdPart r.f c.words)) u)) r c sOK 0) := by
  intro named u
  have hocc : (fun l => !occupied s l) = fun l => !occupied u l := funext fun l => by rw [(coresTaken_same ..).2]
  have hx : exec (.hostUnload r) s = .next (doHostUnload r s) := rfl
  rw [doHostUnload, hrun] at hx
  dsimp only at hx
  rw [hbegun, Bool.not_false, Bool.true_and] at hx
  refine hx.trans (congrArg _ ((if_neg (Bool.eq_false_iff.1 h)).trans ?_))
  simp only [if_neg Bool.false_ne_true, List.filter_filter, Bool.and_self]
  rw [hocc]
  rfl

end

/-! ### FLR (R371, R395) -/

section
variable (s : State) (f : HostFn)

/-- A function reset, its write-reject register too. -/
def flrReset : State := { modFn s f.val flrFn with wrej := tput 0 s.wrej (cqBlk f) 0 }

theorem tdiLocked_flrReset (hf : f.val ≠ 0) : tdiLocked (flrReset s f) (f.val - 1) = tdiLocked s (f.val - 1) := by
  have hsucc : f.val - 1 + 1 = f.val := by omega
  have hfn : getFn (flrReset s f) f.val = flrFn (getFn s f.val) := getFn_modFn ..
  simp only [tdiLocked, hsucc, hfn]
  rfl

/-- R395: the TDI of a locked partition unlocked, its cores unloaded and its range removed. -/
theorem forceUnlock_host (n : Nat) : ∃ t, forceUnlock s n = modFn t (n + 1) (fun m => { m with tdi := .unlocked }) ∧
    t.host = s.host ∧ (rangeWord t n).getLsbD 63 = false := by
  rw [forceUnlock]
  refine ⟨_, rfl, host_foldl (fun s l => host_forceUnload _ s l) _ s, ?_⟩
  rw [rangeWord, removeRange]
  dsimp only
  rw [tget_tput_same]
  decide

end

section
variable {s : State} {f : HostFn}

theorem exec_flr_locked (hf : f.val ≠ 0) (hlock : tdiLocked s (f.val - 1) = true) :
    exec (.flr f) s = .next (signalVec (forceUnlock (flrReset s f) (f.val - 1)) f.val 128) := by
  have hx : exec (.flr f) s = .next (doFlr f s) := rfl
  rw [doFlr] at hx
  exact hx.trans (congrArg _ (congrArg (signalVec · f.val 128)
    (if_pos ⟨Nat.pos_of_ne_zero hf, (tdiLocked_flrReset s f hf).trans hlock⟩)))

theorem exec_flr (h : f.val = 0 ∨ tdiLocked s (f.val - 1) = false) :
    exec (.flr f) s = .next (signalVec (modFn (flrReset s f) f.val fun n => { n with tdi := .unlocked }) f.val 128) := by
  have hx : exec (.flr f) s = .next (doFlr f s) := rfl
  rw [doFlr] at hx
  refine hx.trans (congrArg _ (congrArg (signalVec · f.val 128) (if_neg ?_)))
  rintro ⟨hpos, hlock⟩
  have hf : f.val ≠ 0 := Nat.pos_iff_ne_zero.1 hpos
  rcases h with h | h
  · exact hf h
  · rw [← tdiLocked_flrReset s f hf, show tdiLocked (flrReset s f) (f.val - 1) = true from hlock] at h
    cases h

/-- The function after its reset: its vector 128 is signalled, and the rest of it is as `flrFn` leaves it. -/
theorem getFn_flr {t : State} (h : t.host = (flrReset s f).host) :
    getFn (signalVec (modFn t f.val fun n => { n with tdi := .unlocked }) f.val 128) f.val =
      signalFn { flrFn (getFn s f.val) with tdi := .unlocked } 128 ∧
    ∀ g : HostFn, g ≠ f → getFn (signalVec (modFn t f.val fun n => { n with tdi := .unlocked }) f.val 128) g.val = getFn s g.val := by
  have hfn (g : Nat) : getFn t g = getFn (modFn s f.val flrFn) g := by rw [getFn, h]; rfl
  refine ⟨?_, fun g hg => ?_⟩
  · rw [getFn_signalVec, getFn_modFn, hfn, getFn_modFn]
  · have hne : g.val ≠ f.val := fun h => hg (Fin.ext h)
    rw [signalVec, getFn_modFn_other _ _ _ _ hne, getFn_modFn_other _ _ _ _ hne, hfn, getFn_modFn_other _ _ _ _ hne]

end

/-- Settles O48: the message through `injectHostMsg`, LOAD and UNLOAD through the roles of their cores (`GivesRoles`), FLR through
the functions. -/
theorem loadsAndFunctions : Obligations.LoadsAndFunctions := by
  unfold Obligations.LoadsAndFunctions
  refine ⟨fun s r c d hrun hbegun st hst => ⟨_, exec_hostMsg_fault hrun hbegun hst, endCmd_ended .., rfl, rfl, rfl⟩,
    fun s r c d hrun hbegun => ?message, fun s r c d hrun hbegun hcores => ?load, fun s r c hrun hbegun hcores => ?unload,
    fun s f hf hlock => ?locked, fun s f h => ?flr⟩
  case message =>
    intro h l m u p q hok
    have hx := exec_hostMsg hrun hbegun hok
    refine ⟨fun did hdid => ⟨_, hx, injectHostMsg_far hdid⟩, fun hnear hno => ?_, fun hnear hyes => ?_⟩
    · rw [injectHostMsg_vacant hnear hno] at hx
      exact ⟨_, hx, endCmd_ended .., rfl⟩
    · obtain ⟨v, hv, hframe⟩ := injectHostMsg_sent (d := d) (r := r) (c := c) hnear hyes
      exact ⟨_, hx, v, hv, hframe⟩
  case load =>
    intro part cores waits poisoned bound
    have hnodup : cores.Nodup := namedCores_nodup ..
    obtain ⟨hmem, -, hfin⟩ := mem_of_running hrun
    obtain ⟨hcheck, -⟩ := coresTaken_same s r c cores
    have hcore (l : Lcid) (hl : l ∈ cores) : getCore (coresTaken s r c cores) l = quiesce (getCore s l) :=
      (getCore_coresTaken hnodup l).trans (if_pos hl)
    have hwaits : (cores.any fun l => !quietCore (getCore (coresTaken s r c cores) l) || groveSounds (coresTaken s r c cores) (dgOf l) ||
        sweptPos (coresTaken s r c cores) l) = true ↔ ∃ l ∈ cores, waits l := by
      rw [List.any_eq_true]
      refine exists_congr fun l => and_congr_right fun hl => ?_
      rw [hcore l hl, groveSounds, sweptPos, hcheck]
      simp [waits, groveSounds, sweptPos, or_assoc]
    have hbound : (ldWord d 8 != 0 && (chanRecs d.channels).any (chanBlocked (coresTaken s r c cores) cores)) = true ↔ bound := by
      rw [Bool.and_eq_true, bne_iff_ne, List.any_eq_true]
      exact Iff.rfl
    refine ⟨fun st res hst => ⟨_, exec_hostLoad_fault hrun hcores hst, endCmd_ended .., rfl⟩, fun hok hwait => ?_,
      fun hok hgo hb => ?_, fun hok hgo hb hp => ?_, fun hok hgo hb hp => ?_⟩
    all_goals
      have hx := exec_hostLoad hrun hbegun hok
    · refine ⟨_, hx.trans (congrArg _ (if_pos (hwaits.2 hwait))), hcore, fun l hl => (getCore_coresTaken hnodup l).trans (if_neg hl),
        _, mem_coresTaken hmem, rfl, rfl, hfin, rfl⟩
    all_goals
      replace hx := hx.trans (congrArg _ (if_neg fun h => by
        obtain ⟨l, hl, hw⟩ := hwaits.1 h
        exact hgo l hl hw))
    · obtain ⟨hhost, -⟩ := (givesRoles_unloadCore part).foldl cores (fun _ _ _ _ _ => rfl) (coresTaken s r c cores)
      obtain ⟨e, he, hseq, hfin⟩ := fin_endCmd_taken (st := sPERM) (res := loadResult none
        (((chanRecs d.channels).findIdx? (chanBlocked (coresTaken s r c cores) cores)).getD 0xFFFF)) hmem hhost
      exact ⟨_, hx.trans (congrArg _ (if_pos (hbound.2 hb))), e, he, _, hseq, hfin⟩
    all_goals
      replace hx := hx.trans (congrArg _ (if_neg fun h => hb (hbound.1 h)))
      have hload := loadNow_host (coresTaken s r c cores) part d hnodup
    · obtain ⟨l, hl, hpois⟩ := hp
      cases hfirst : firstThat (fun l => loadPoison d (getCore (coresTaken s r c cores) l)) cores with
      | none =>
        rw [firstThat_eq_find?, List.find?_eq_none] at hfirst
        exact absurd (by rw [hcore l hl]; exact hpois) (hfirst l hl)
      | some m =>
        rw [show firstThat _ (ldCores d) = some m from hfirst] at hx
        obtain ⟨hhost, hroles, -⟩ := (givesRoles_unloadCore part).foldl cores (fun _ _ _ _ _ => rfl)
          (loadNow (coresTaken s r c cores) part d cores)
        obtain ⟨e, he, hseq, hfin⟩ := fin_endCmd_taken (st := sPOISON) (res := loadResult (some m) 0xFFFF) hmem (hhost.trans hload)
        exact ⟨_, hx, fun l hl => (hroles l hl).1.trans (fld_roleValue part 0 0 (by decide)).1, e, he, _, hseq, hfin⟩
    · have hnone : firstThat (fun l => loadPoison d (getCore (coresTaken s r c cores) l)) cores = none := by
        rw [firstThat_eq_find?, List.find?_eq_none]
        intro l hl
        rw [hcore l hl]
        exact fun h => hp ⟨l, hl, h⟩
      rw [show firstThat _ (ldCores d) = none from hnone] at hx
      refine ⟨_, hx, fin_endCmd_taken hmem hload, ⟨coresTaken s r c cores, rfl, hcore⟩, fun i l hi => ?_⟩
      exact loadNow_core (coresTaken s r c cores) part d hnodup hi
  case unload =>
    intro part all named may
    have hnodup : named.Nodup := (namedCores_nodup ..).filter _
    obtain ⟨hmem, -, hfin⟩ := mem_of_running hrun
    have hmay : unloadTaken s r c = false ↔ may := by
      rw [unloadTaken, List.any_eq_false]
      refine forall_congr' fun l => forall_congr' fun hl => ?_
      simp [part]
    have hcore (l : Lcid) (hl : l ∈ named) : getCore (coresTaken s r c named) l = quiesce (getCore s l) :=
      (getCore_coresTaken hnodup l).trans (if_pos hl)
    have hquiet : (named.any fun l => !quietCore (getCore (coresTaken s r c named) l)) = true ↔
        ∃ l ∈ named, quietCore (quiesce (getCore s l)) = false := by
      rw [List.any_eq_true]
      refine exists_congr fun l => and_congr_right fun hl => ?_
      rw [hcore l hl, Bool.not_eq_true']
    refine ⟨fun hno => ⟨_, exec_hostUnload_perm hrun hbegun ?_, endCmd_ended .., rfl⟩, fun hyes hbusy => ?_, fun hyes hidle => ?_⟩
    · rw [← Bool.not_eq_false]
      exact fun h => hno (hmay.1 h)
    · refine ⟨_, (exec_hostUnload hrun hbegun (hmay.2 hyes)).trans (congrArg _ (if_pos (hquiet.2 hbusy))), hcore,
        fun l hl => (getCore_coresTaken hnodup l).trans (if_neg hl), _, mem_coresTaken hmem, rfl, rfl, hfin, rfl⟩
    · have hx := (exec_hostUnload hrun hbegun (hmay.2 hyes)).trans (congrArg _ (if_neg fun h => by
        obtain ⟨l, hl, hq⟩ := hquiet.1 h
        rw [hidle l hl] at hq
        cases hq))
      obtain ⟨hhost, hzero, hnamed⟩ := unloaded_seats part (occupied s) all (coresTaken s r c named)
      refine ⟨_, hx, fin_endCmd_taken hmem hhost, hzero, fun l hl => ?_⟩
      obtain ⟨hpart, hctrl⟩ := hnamed l hl
      refine ⟨hzero l (List.mem_of_mem_filter hl), hpart, ?_⟩
      exact (congrArg (BitVec.getLsbD · 1) (hctrl.trans (congrArg Core.ctrl (hcore l hl)))).trans (holdAll_quiesce _)
  case locked =>
    obtain ⟨t, hforce, hhost, hrange⟩ := forceUnlock_host (flrReset s f) (f.val - 1)
    have hsucc : f.val - 1 + 1 = f.val := by omega
    have hx := exec_flr_locked hf hlock
    rw [hforce, hsucc] at hx
    obtain ⟨hself, hothers⟩ := getFn_flr hhost
    refine ⟨_, hx, ?_, ?_, ?_, hrange, hothers⟩ <;> rw [hself]
    · exact (signalFn_kept ..).2.1
    · rw [signalFn]; split <;> rfl
    · rw [signalFn]; split <;> rfl
  case flr =>
    obtain ⟨hself, hothers⟩ := getFn_flr (s := s) (f := f) (t := flrReset s f) rfl
    refine ⟨_, exec_flr h, ?_⟩
    beta_reduce
    intro n
    have hn : n = signalFn { flrFn (getFn s f.val) with tdi := .unlocked } 128 := hself
    refine ⟨?_, ?_, ?_, ?_, ?_, ?_, ?_, ?_, ?_, ?_, ?_, ?_, tget_tput_same .., rfl, rfl, hothers⟩
    all_goals
      rw [hn, signalFn]
      split <;> rfl

end Sys2Proof.Machine
end

section
/-! PROOFS. Collectives: definition, deletion, the exchange (R320, R388, R389). -/

namespace Sys2Proof.Machine

/-! ### Definition and deletion -/

/-- A command's outcome, on a state whose commands are those of the state before. -/
theorem ended_endCmd {s u : State} (r : CmdRef) (c : HostCmd) (st : Status) (res : Word)
    (h : (getFn u r.f.val).cmds = (getFn s r.f.val).cmds) : ended s (endCmd u r c st res) r c st res :=
  (endCmd_ended u r c st res).trans (congrArg _ h)

/-- The collective that COLL_DEFINE defines, the image and the list as they were read. -/
def collNew (s : State) (r : CmdRef) (hc : HostCmd) (d : CollData) : Coll :=
  let c : Coll :=
    { part := cmdPart r.f hc.words, id := BitVec.ofNat 16 (fld (hc.words.getD 3 0) 48 16), kind := BitVec.ofNat 2 (fld (hc.words.getD 3 0) 32 2)
      image := d.image, dids := d.dids, done := hc.words.getD 4 0, fn := r.f, members := imageMembers s d.image, ready := false, since := 0
      result := none, phase := 0, acks := 0 }
  { c with phase := fld (getObj (getGrove s (redRoot (collRed c))) (syncIx (d.image.getD 5 0))).val 32 32 }

theorem Coll.ext_fields {c d : Coll} (hpart : c.part = d.part) (hid : c.id = d.id) (hkind : c.kind = d.kind) (himage : c.image = d.image)
    (hdids : c.dids = d.dids) (hdone : c.done = d.done) (hfn : c.fn = d.fn) (hmembers : c.members = d.members) (hready : c.ready = d.ready)
    (hsince : c.since = d.since) (hresult : c.result = d.result) (hphase : c.phase = d.phase) (hacks : c.acks = d.acks) : c = d := by
  cases c
  cases d
  simp only [Coll.mk.injEq]
  exact ⟨hpart, hid, hkind, himage, hdids, hdone, hfn, hmembers, hready, hsince, hresult, hphase, hacks⟩

section
variable {s : State} {r : CmdRef} {hc : HostCmd} {d : CollData}

/-- What COLL_DEFINE reads. -/
def collRead (s : State) (r : CmdRef) (hc : HostCmd) (d : CollData) : CollData :=
  collInput s r.f ((pairOf s r.f hc.q.toNat).any fun p => p.svc.isSome) hc.words d

theorem exec_collDefine_fault (hrun : running s r 0x30 = some hc) {st : Status}
    (h : collFault s (collNew s r hc (collRead s r hc d)) (fld (hc.words.getD 3 0) 0 16) = some st) :
    exec (.collDefine r d) s = .next (endCmd s r hc st 0) := by
  have hx : exec (.collDefine r d) s = .next (doCollDefine r d s) := rfl
  rw [doCollDefine, runCmdNow_running _ _ _ _ _ hrun] at hx
  rw [collRead] at h
  cases hp : pairOf s r.f hc.q.toNat <;> rw [hp] at h hx <;> rw [collNew] at h <;> dsimp only [Option.any] at h hx <;> rw [h] at hx <;> exact hx

theorem exec_collDefine (hrun : running s r 0x30 = some hc)
    (h : collFault s (collNew s r hc (collRead s r hc d)) (fld (hc.words.getD 3 0) 0 16) = none) :
    exec (.collDefine r d) s = .next (
      let c := collNew s r hc (collRead s r hc d)
      let u := if fld (hc.words.getD 3 0) 32 2 = 2 then s else (armRed s c.image (some (c.part, c.id))).1
      endCmd { u with host := { u.host with colls := u.host.colls ++ [c] } } r hc sOK (wd (BitVec.ofNat 16 (fld (hc.words.getD 3 0) 48 16)).toNat)) := by
  have hx : exec (.collDefine r d) s = .next (doCollDefine r d s) := rfl
  rw [doCollDefine, runCmdNow_running _ _ _ _ _ hrun] at hx
  rw [collRead] at h ⊢
  cases hp : pairOf s r.f hc.q.toNat <;> rw [hp] at h hx <;> rw [collNew] at h <;> dsimp only [Option.any] at h hx <;> rw [h] at hx <;> exact hx

end

/-- A collective that passes its checks has an image that arms. -/
theorem armFault_of_collFault {s : State} {c : Coll} {n : Nat} (h : collFault s c n = none) : armFault s c.image = none := by
  unfold collFault at h
  split at h
  · cases h
  split at h
  · cases h
  split at h
  · cases h
  split at h
  · cases h
  · assumption

theorem armRed_none {s : State} {image : List Word} (coll : Option (BitVec 4 × BitVec 16)) (h : armFault s image = none) :
    (armRed s image coll).1 = { s with reds := s.reds ++ [freshRed image (imageMembers s image) coll] } := by
  rw [armRed, h]

/-- What disarming a list of reductions changes: the groves' packets, and the reductions of those anchors. -/
theorem foldl_disarm (l : List Red) (s : State) :
    let t := l.foldl (fun s r => disarm (dropRedPkts s (redAnchor r)) (redAnchor r)) s
    t.host = s.host ∧ t.cores = s.cores ∧ ∀ q ∈ t.reds, q ∈ s.reds ∧ ∀ r ∈ l, redAnchor q ≠ redAnchor r := by
  induction l generalizing s with
  | nil => exact ⟨rfl, rfl, fun q hq => ⟨hq, fun _ h => by cases h⟩⟩
  | cons r l ih =>
    obtain ⟨hhost, hcores, hreds⟩ := ih (disarm (dropRedPkts s (redAnchor r)) (redAnchor r))
    refine ⟨hhost, hcores, fun q hq => ?_⟩
    obtain ⟨hq, hl⟩ := hreds q hq
    obtain ⟨hq, hr⟩ := List.mem_filter.1 hq
    refine ⟨hq, fun r' hr' => ?_⟩
    rcases List.mem_cons.1 hr' with rfl | hr'
    · simpa using hr
    · exact hl r' hr'

/-- A collective gone: none of its identity is left, and no reduction of it. -/
theorem dropColl_frame (s : State) (c : Coll) :
    (dropColl s c).host = { s.host with colls := s.host.colls.filter fun d => !(d.part == c.part && d.id == c.id) } ∧
    (dropColl s c).cores = s.cores ∧ ∀ q ∈ (dropColl s c).reds, q.coll ≠ some (c.part, c.id) := by
  obtain ⟨hhost, hcores, hreds⟩ := foldl_disarm (s.reds.filter fun r => r.coll == some (c.part, c.id)) s
  refine ⟨?_, hcores, fun q hq hcoll => ?_⟩
  · rw [← hhost]
    rfl
  · obtain ⟨hq, hne⟩ := hreds q hq
    exact hne q (List.mem_filter.2 ⟨hq, by simpa using hcoll⟩) rfl

theorem collOf_dropColl (s : State) (c : Coll) : collOf (dropColl s c) c.part c.id = none := by
  rw [collOf, (dropColl_frame s c).1, firstThat_eq_find?, List.find?_eq_none]
  intro d hd
  have h := (List.mem_filter.1 hd).2
  rw [Bool.not_eq_true'] at h
  exact Bool.eq_false_iff.1 h

theorem collOf_some {s : State} {part : BitVec 4} {id : BitVec 16} {c : Coll} (h : collOf s part id = some c) : c.part = part ∧ c.id = id := by
  simpa using (firstThat_some h).2

section
variable {s : State} {r : CmdRef} {hc : HostCmd} (hrun : running s r 0x31 = some hc)
include hrun

theorem exec_collDelete_none (h : collOf s (cmdPart r.f hc.words) (BitVec.ofNat 16 (fld (hc.words.getD 3 0) 48 16)) = none) :
    exec (.collDelete r) s = .next (endCmd s r hc sBOUNDS 0) := by
  have hx : exec (.collDelete r) s = .next (doCollDelete r s) := rfl
  rw [doCollDelete, runCmdNow_running _ _ _ _ _ hrun, h] at hx
  exact hx

theorem exec_collDelete {c : Coll} (h : collOf s (cmdPart r.f hc.words) (BitVec.ofNat 16 (fld (hc.words.getD 3 0) 48 16)) = some c) :
    exec (.collDelete r) s = .next (endCmd (dropColl s c) r hc sOK 0) := by
  have hx : exec (.collDelete r) s = .next (doCollDelete r s) := rfl
  rw [doCollDelete, runCmdNow_running _ _ _ _ _ hrun, h] at hx
  exact hx

end

/-! ### The exchange -/

/-- The state that an exchange which waits for nothing begins from. -/
def exchangeBegun (s : State) (c : Coll) : State := restColl (if redRepro (collRed c) then s else countFast s (some c.part)) c

theorem peers_exchangeBegun (s : State) (c : Coll) : peers (exchangeBegun s c) c = peers s c := by
  unfold exchangeBegun
  split <;> rfl

theorem peerGone_exchangeBegun (s : State) (c : Coll) (x : CollExchange) (d : Did) : peerGone (exchangeBegun s c) c x d = peerGone s c x d := by
  unfold exchangeBegun
  split <;> rfl

/-- The exchange of a collective waits: for its local phase, an acknowledgement of its last multicast, or a device. -/
def exchangeWaits (s : State) (c : Coll) (x : CollExchange) : Bool :=
  !phaseDone s c || c.acks != 0 || (peers s c).any fun d => (peerGone s c x d).isNone

theorem exchangeWaits_iff (s : State) (c : Coll) (x : CollExchange) :
    exchangeWaits s c x = true ↔ phaseDone s c = false ∨ c.acks ≠ 0 ∨ ∃ d ∈ peers s c, peerGone s c x d = none := by
  simp [exchangeWaits, or_assoc]

section
variable {s : State} {part : BitVec 4} {id : BitVec 16} {x : CollExchange} {c : Coll} (hawake : asleep s = false)
  (hc : collOf s part id = some c)
include hawake hc

theorem exec_exchange_waits (h : exchangeWaits s c x = true) : exec (.collectiveExchange part id x) s = .next s := by
  refine exec_awake hawake rfl ?_
  rw [doCollectiveExchange, hc]
  exact if_pos h

theorem exec_exchange_lost (h : exchangeWaits s c x = false) (hlost : ∃ d ∈ peers s c, peerGone s c x d = some true) :
    exec (.collectiveExchange part id x) s =
      .next (dropColl (serviceEvent (collArrive (collRecord (exchangeBegun s c) (collRed c) sLOST) c) (some (c.part.toNat + 1))) c) := by
  obtain ⟨d, hd, hgone⟩ := hlost
  refine exec_awake hawake rfl ?_
  rw [doCollectiveExchange, hc]
  refine (if_neg (Bool.eq_false_iff.1 h)).trans (if_pos (List.any_eq_true.2 ⟨d, ?_, ?_⟩))
  · exact (peers_exchangeBegun s c).symm ▸ hd
  · exact beq_iff_eq.2 ((peerGone_exchangeBegun s c x d).trans hgone)

/-- The results folded, and what of them is written. -/
theorem exec_exchange (h : exchangeWaits s c x = false) (hall : ∀ d ∈ peers s c, peerGone s c x d = some false) :
    exec (.collectiveExchange part id x) s = .next (
      let u := exchangeBegun s c
      let acc := if c.kind = 2 then addChunks (collRed c) (collRed c) (localChunks u c) else foldDevices u c x
      let v := if c.kind = 2 || (peers s c).isEmpty then u
        else modCore u (redDest acc) fun k => modSp k fun sl => (below (redChunks acc)).foldl (writeChunk acc) sl
      let w := collRecord (if c.kind = 0 then v else multicast v c) acc (redStatus acc)
      if c.kind = 0 then collArrive w c else w) := by
  refine exec_awake hawake rfl ?_
  rw [doCollectiveExchange, hc]
  refine (if_neg (Bool.eq_false_iff.1 h)).trans ((if_neg ?_).trans ?_)
  · rw [List.any_eq_true]
    rintro ⟨d, hd, hgone⟩
    have hd : d ∈ peers s c := (peers_exchangeBegun s c) ▸ hd
    have hgone := (peerGone_exchangeBegun s c x d).symm.trans (beq_iff_eq.1 hgone)
    rw [hall d hd] at hgone
    cases hgone
  · dsimp only
    rw [← peers_exchangeBegun s c]
    rfl

end

theorem below_eq_range (n : Nat) : below n = List.range n := by
  rw [below, upto_eq_range', List.range_eq_range']

/-- Settles O49. -/
theorem collectives : Obligations.Collectives := by
  unfold Obligations.Collectives
  refine ⟨?define, ?delete, ?exchange⟩
  case define =>
    intro s r hc d' hrun d w id anchor c hpart hid hkind himage hdids hdone hfn hmembers hready hsince hresult hacks hphase
    have hnew : c = collNew s r hc (collRead s r hc d') := by
      refine Coll.ext_fields hpart hid hkind himage hdids hdone hfn hmembers hready hsince hresult ?_ hacks
      rw [hphase]
      show fld (getObj (getGrove s (redRoot (freshRed c.image c.members none))) _).val 32 32 = _
      rw [himage, hmembers]
      rfl
    refine ⟨fun st hst => ?_, fun hok => ?_⟩
    · rw [hnew] at hst
      exact ⟨_, exec_collDefine_fault hrun hst, endCmd_ended .., rfl, rfl⟩
    · have harm := armFault_of_collFault hok
      rw [hnew] at hok
      have hx := exec_collDefine hrun hok
      rw [← hnew] at hx
      dsimp only at hx
      rw [armRed_none _ harm] at hx
      refine ⟨_, hx, ?_⟩
      beta_reduce
      rw [← himage, hmembers, ← himage, hpart, hid]
      split
      · exact ⟨ended_endCmd _ _ _ _ rfl, rfl, rfl, rfl⟩
      · exact ⟨ended_endCmd _ _ _ _ rfl, rfl, rfl, rfl⟩
  case delete =>
    intro s r hc hrun part id
    refine ⟨fun h => ⟨_, exec_collDelete_none hrun h, endCmd_ended .., rfl⟩, fun h => ?_⟩
    obtain ⟨c, h⟩ := Option.isSome_iff_exists.1 h
    obtain ⟨hpart, hid⟩ := collOf_some h
    obtain ⟨hhost, hcores, hreds⟩ := dropColl_frame s c
    refine ⟨_, exec_collDelete hrun h, ended_endCmd _ _ _ _ ?_, ?_, ?_, hcores⟩
    · rw [getFn, hhost]
      rfl
    · rw [← hpart, ← hid]
      exact collOf_dropColl s c
    · rw [← hpart, ← hid]
      exact hreds
  case exchange =>
    intro s part id x c hawake hc u
    refine ⟨fun h => ⟨_, exec_exchange_waits hawake hc ((exchangeWaits_iff s c x).2 h), rfl⟩, fun hdone hacks hall => ?_,
      fun hdone hacks hsome hlost => ?_⟩
    · have hgo : exchangeWaits s c x = false := by
        rw [Bool.eq_false_iff, Ne, exchangeWaits_iff]
        rintro (h | h | ⟨d, hd, h⟩)
        · exact Bool.noConfusion (h.symm.trans hdone)
        · exact h hacks
        · cases h.symm.trans (hall d hd)
      have hx := exec_exchange hawake hc hgo hall
      refine ⟨fun hkind => ⟨_, hx, ?_⟩, fun hkind => ⟨_, hx, ?_⟩⟩
      · simp only [hkind, if_false, decide_false, Bool.false_or, List.isEmpty_iff, below_eq_range]
        split <;> rfl
      · have hzero : c.kind ≠ 0 := by rw [hkind]; decide
        simp only [hkind, if_true, decide_true, Bool.true_or]
        rfl
    · have hgo : exchangeWaits s c x = false := by
        rw [Bool.eq_false_iff, Ne, exchangeWaits_iff]
        rintro (h | h | ⟨d, hd, h⟩)
        · exact Bool.noConfusion (h.symm.trans hdone)
        · exact h hacks
        · exact absurd (hsome d hd) (by rw [h]; decide)
      obtain ⟨rfl, rfl⟩ := collOf_some hc
      exact ⟨_, exec_exchange_lost hawake hc hgo hlost, collOf_dropColl .., rfl⟩

end Sys2Proof.Machine
end

section
/-! PROOFS. Checkpoint slots, transfers and their NVMe completions (R390, R391). -/

namespace Sys2Proof.Machine

/-! ### Slots and commands of a function -/

theorem slotOf_setSlot (s : State) (f n : Nat) (v : Option Slot) : slotOf (setSlot s f n v) f n = v := by
  rw [slotOf, setSlot, getFn_modFn]
  exact tget_tput_same ..

theorem slotOf_setSlot_other (s : State) (f : Nat) {n m : Nat} (v : Option Slot) (h : m ≠ n) : slotOf (setSlot s f n v) f m = slotOf s f m := by
  rw [slotOf, setSlot, getFn_modFn]
  exact tget_tput_other _ _ _ _ _ h

theorem cmds_setSlot (s : State) (f n : Nat) (v : Option Slot) : (getFn (setSlot s f n v) f).cmds = (getFn s f).cmds := by
  rw [setSlot, getFn_modFn]

theorem cmdBySeq_setSlot (s : State) (f n : Nat) (v : Option Slot) (q : Nat) : cmdBySeq (setSlot s f n v) f q = cmdBySeq s f q := by
  rw [cmdBySeq, cmds_setSlot]
  rfl

theorem slotOf_modCmd (s : State) (f q : Nat) (g : HostCmd → HostCmd) (n : Nat) : slotOf (modCmd s f q g) f n = slotOf s f n := by
  rw [slotOf, modCmd, getFn_modFn]
  rfl

theorem slotOf_endCmd (s : State) (r : CmdRef) (c : HostCmd) (st : Status) (res : Word) (n : Nat) :
    slotOf (endCmd s r c st res) r.f.val n = slotOf s r.f.val n := slotOf_modCmd ..

/-- A change of a command that leaves its number. -/
theorem cmdBySeq_modCmd {s : State} {f q : Nat} {g : HostCmd → HostCmd} (hg : ∀ d, (g d).seq = d.seq) :
    cmdBySeq (modCmd s f q g) f q = (cmdBySeq s f q).map g := by
  have hseq : ((fun c : HostCmd => c.seq == q) ∘ fun c => if c.seq = q then g c else c) = fun c => c.seq == q := by
    funext d
    dsimp only [Function.comp]
    split
    · rw [hg]
    · rfl
  rw [cmdBySeq, cmdBySeq, modCmd, getFn_modFn, firstThat_eq_find?, firstThat_eq_find?, List.find?_map, hseq]
  cases h : (getFn s f).cmds.find? fun c => c.seq == q with
  | none => rfl
  | some d => exact congrArg some (if_pos (beq_iff_eq.1 (List.find?_some (p := fun d : HostCmd => d.seq == q) h)))

/-- The number of a command names it, where no other has it. -/
theorem cmdBySeq_of_mem {s : State} {f : Nat} {c : HostCmd} (hmem : c ∈ (getFn s f).cmds) (huniq : ∀ d ∈ (getFn s f).cmds, d.seq = c.seq → d = c) :
    cmdBySeq s f c.seq = some c := by
  rw [cmdBySeq, firstThat_eq_find?]
  cases h : (getFn s f).cmds.find? fun d => d.seq == c.seq with
  | none => exact absurd (beq_self_eq_true c.seq) (List.find?_eq_none.1 h c hmem)
  | some d => rw [huniq d (List.mem_of_find?_eq_some h) (beq_iff_eq.1 (List.find?_some (p := fun d : HostCmd => d.seq == c.seq) h))]

theorem cmdBySeq_some {s : State} {f q : Nat} {c : HostCmd} (h : cmdBySeq s f q = some c) : c ∈ (getFn s f).cmds ∧ c.seq = q := by
  obtain ⟨hmem, hseq⟩ := firstThat_some h
  exact ⟨hmem, beq_iff_eq.1 hseq⟩

/-- An NVMe command outstanding on a slot, and its command. -/
theorem nvmeOf_some {s : State} {f slot id : Nat} {c : HostCmd} {e : Nvme} (h : nvmeOf s f slot id = some (c, e)) :
    c ∈ (getFn s f).cmds ∧ ckSlot c = slot ∧ c.fin = none ∧ e.id = id ∧ e.ok = none := by
  obtain ⟨hmem, -⟩ := firstThat_some h
  obtain ⟨d, hd, hsome⟩ := List.mem_filterMap.1 hmem
  obtain ⟨⟨hslot, hfin⟩, hmap⟩ := Option.ite_none_right_eq_some.1 hsome
  obtain ⟨e', he, heq⟩ := Option.map_eq_some_iff.1 hmap
  cases heq
  obtain ⟨-, hcond⟩ := firstThat_some he
  rw [Bool.and_eq_true, beq_iff_eq, Option.isNone_iff_eq_none] at hcond
  exact ⟨hd, hslot, Option.isNone_iff_eq_none.1 hfin, hcond⟩

/-! ### What stores and signals leave -/

theorem hbmStoreGo_frame (n : Nat) (s : State) (k off : Nat) (bs : List (Byte × Bool)) (e : Option Nat) :
    (hbmStoreGo n s k off bs e).1.host = s.host ∧ (hbmStoreGo n s k off bs e).1.cores = s.cores := by
  induction n generalizing s off bs e with
  | zero => exact ⟨rfl, rfl⟩
  | succ n ih =>
    cases bs with
    | nil => exact ⟨rfl, rfl⟩
    | cons b bs => exact ih ..

theorem hbmStore_frame (s : State) (k off : Nat) (bs : List Byte) (bad : NatSet) :
    (hbmStore s k off bs bad).1.host = s.host ∧ (hbmStore s k off bs bad).1.cores = s.cores := hbmStoreGo_frame ..

theorem spoilRest_host (s : State) (f : HostFn) (c : HostCmd) : (spoilRest s f c).host = s.host := by
  unfold spoilRest
  split
  · rfl
  · exact (hbmStore_frame ..).1

/-- A signal leaves the slots and the commands of every function. -/
theorem getFn_signalVec_kept (s : State) (g v f : Nat) :
    (getFn (signalVec s g v) f).slots = (getFn s f).slots ∧ (getFn (signalVec s g v) f).cmds = (getFn s f).cmds := by
  by_cases h : f = g
  · subst h
    rw [getFn_signalVec]
    refine ⟨?_, (signalFn_kept ..).2.2⟩
    unfold signalFn
    split <;> rfl
  · rw [signalVec, getFn_modFn_other _ _ _ _ h]
    exact ⟨rfl, rfl⟩

theorem getFn_serviceEvent_kept (s : State) (vf : Option Nat) (f : Nat) :
    (getFn (serviceEvent s vf) f).slots = (getFn s f).slots ∧ (getFn (serviceEvent s vf) f).cmds = (getFn s f).cmds := by
  obtain ⟨hslots, hcmds⟩ := getFn_signalVec_kept s 0 131 f
  cases vf with
  | none => exact ⟨hslots, hcmds⟩
  | some g =>
    obtain ⟨hslots', hcmds'⟩ := getFn_signalVec_kept (signalVec s 0 131) g 131 f
    exact ⟨hslots'.trans hslots, hcmds'.trans hcmds⟩

/-! ### The end of a transfer that failed -/

/-- A transfer of which a command failed: its slot is detached, and it ends REMOTE_LOST. -/
theorem ckFail_frame {s : State} {f : HostFn} {c : HostCmd} (flush : Bool) (hc : cmdBySeq s f.val c.seq = some c) :
    slotOf (ckFail s f c flush) f.val (ckSlot c) = none ∧
    ∃ d ∈ (getFn (ckFail s f c flush) f.val).cmds, d.seq = c.seq ∧ ∃ res, d.fin = some (sLOST, res) := by
  obtain ⟨hslots, hcmds⟩ := getFn_serviceEvent_kept (setSlot s f.val (ckSlot c) none) (if f.val = 0 then none else some f.val) f.val
  have hfn : getFn (spoilRest (serviceEvent (setSlot s f.val (ckSlot c) none) (if f.val = 0 then none else some f.val)) f c) f.val =
      getFn (serviceEvent (setSlot s f.val (ckSlot c) none) (if f.val = 0 then none else some f.val)) f.val := by
    rw [getFn, spoilRest_host]
    rfl
  constructor
  · rw [ckFail, slotOf_modCmd, slotOf, hfn, hslots]
    exact slotOf_setSlot ..
  · have hend : cmdBySeq (ckFail s f c flush) f.val c.seq =
        some { c with begun := true, fin := some (sLOST, if flush then 0 else ckResult c) } := by
      refine (cmdBySeq_modCmd ?_).trans ?_
      · exact fun d => rfl
      · rw [cmdBySeq, hfn, hcmds, cmds_setSlot]
        exact congrArg (Option.map _) hc
    obtain ⟨hmem, hseq⟩ := cmdBySeq_some hend
    exact ⟨_, hmem, hseq, _, rfl⟩

/-! ### Pieces issued -/

/-- One piece issued: the slot's tail and the doorbell, and the record of it. -/
theorem issueNvme_frame (s : State) (f : HostFn) (c : HostCmd) (v : Slot) (off len : Nat) :
    let t := issueNvme s f c v off len false
    t.cores = s.cores ∧
    slotOf t f.val (ckSlot c) = some { v with tail := (v.tail + 1) % slotSize v, nextId := v.nextId + 1 } ∧
    t.host.bus = s.host.bus ++ [(v.words.getD 1 0, wd ((v.tail + 1) % slotSize v))] ∧
    ∃ page, cmdBySeq t f.val c.seq = (cmdBySeq s f.val c.seq).map fun d =>
      { d with nv := d.nv ++ [⟨page, v.nextId, off, len, now s, false, none⟩], nvNext := off + len } := by
  refine ⟨rfl, ?_, rfl, pickPage (freshWord s).2 (((ckOff c + off) % 4096 + len + 4095) / 4096), ?_⟩
  · exact (slotOf_modCmd ..).trans (slotOf_setSlot ..)
  · refine (cmdBySeq_modCmd ?_).trans ?_
    · exact fun d => rfl
    · rw [cmdBySeq_setSlot]
      rfl

section
variable {s : State} {f : HostFn} {q : Nat} {c : HostCmd} (hc : cmdBySeq s f.val q = some c)
include hc

/-- Nothing is issued of a transfer that has been issued whole. -/
theorem issueAll_issued (n : Nat) (h : ckLen c ≤ c.nvNext) : issueAll n s f q = s := by
  cases n with
  | zero => rfl
  | succ n =>
    rw [issueAll, hc]
    dsimp only
    cases slotOf s f.val (ckSlot c) with
    | none => rfl
    | some v => exact if_pos (by simp [h])

theorem issueAll_piece (n : Nat) {v : Slot} (hv : slotOf s f.val (ckSlot c) = some v) (hfin : c.fin = none) (hbad : c.nvBad = none)
    (hleft : c.nvNext < ckLen c) (hroom : outstanding s f.val (ckSlot c) + 1 < slotSize v)
    (hclean : pieceBad s f c c.nvNext (min (slotMax v) (ckLen c - c.nvNext)) = false) :
    issueAll (n + 1) s f q = issueAll n (issueNvme s f c v c.nvNext (min (slotMax v) (ckLen c - c.nvNext)) false) f q := by
  rw [issueAll, hc]
  dsimp only
  rw [hv]
  refine (if_neg ?_).trans (if_neg ?_)
  · have hroom' : ¬slotSize v - 1 ≤ outstanding s f.val (ckSlot c) := by omega
    simp [hfin, hbad, hroom', hleft]
  · exact Bool.eq_false_iff.1 hclean

omit hc in
/-- A transfer with a command outstanding waits for it. -/
theorem ckAdvance_waits {u : State} {d : HostCmd} (hissue : issueAll 4096 s f q = u) (hd : cmdBySeq u f.val q = some d)
    (hwait : d.nv.all (fun e => e.ok.isSome) = false) : ckAdvance s f q = u := by
  rw [ckAdvance, hissue]
  dsimp only
  rw [hd]
  exact if_pos (by simp [hwait])

/-- A transfer issued whole, every piece of it confirmed, ends with its length. -/
theorem ckAdvance_ends {v : Slot} (hv : slotOf s f.val (ckSlot c) = some v) (hfin : c.fin = none) (hbad : c.nvBad = none)
    (hnext : c.nvNext = ckLen c) (hall : c.nv.all (fun e => e.ok.isSome) = true) (hfua : cmdFua c.words = false) :
    ckAdvance s f q = modCmd s f.val q fun c => { c with fin := some (sOK, wd (ckLen c)) } := by
  rw [ckAdvance, issueAll_issued hc _ hnext.ge]
  dsimp only
  rw [hc]
  refine (if_neg (by simp [hfin, hall])).trans ?_
  rw [hbad]
  dsimp only
  rw [hv]
  exact (if_neg hnext.not_lt).trans (if_neg (by simp [hfua]))

end

/-! ### A completion taken -/

theorem takeCqEntry_frame (s : State) (f n : Nat) (v : Slot) (id : Nat) (sf : BitVec 16) :
    let t := takeCqEntry s f n v id sf
    t.cores = s.cores ∧ (∀ q, cmdBySeq t f q = cmdBySeq s f q) ∧
    slotOf t f n = some { v with head := (v.head + 1) % slotSize v, phase := v.phase != ((v.head + 1) % slotSize v == 0) } ∧
    t.host.bus = s.host.bus ++ [(v.words.getD 2 0, wd ((v.head + 1) % slotSize v))] :=
  ⟨rfl, fun q => cmdBySeq_setSlot s f n _ q, slotOf_setSlot s f n _, rfl⟩

/-- An outcome marked: the transfer's commands of that identifier have it. -/
theorem cmdBySeq_markNvme (s : State) (f q id : Nat) (ok : Bool) (sf : BitVec 16) :
    cmdBySeq (markNvme s f q id ok sf) f q = (cmdBySeq s f q).map fun c =>
      { c with nv := c.nv.map fun e => if e.id = id then { e with ok := some ok } else e, nvSf := if ok then c.nvSf else sf } :=
  cmdBySeq_modCmd fun _ => rfl

section
variable {s : State} {f : HostFn} {slot : BitVec 3} {id : Nat} {c : HostCmd} {e : Nvme} (hnv : nvmeOf s f.val slot.toNat id = some (c, e))
include hnv

/-- The NVMe command failed: its slot is not attached, and its transfer has ended REMOTE_LOST. -/
def TransferFailed (f : HostFn) (slot : BitVec 3) (c : HostCmd) (t : State) : Prop :=
  slotOf t f.val slot.toNat = none ∧ ∃ d ∈ (getFn t f.val).cmds, d.seq = c.seq ∧ ∃ res, d.fin = some (sLOST, res)

theorem ckFail_marked {u : State} (sf : BitVec 16) (hu : cmdBySeq u f.val c.seq = some c) :
    ∃ d, cmdBySeq (markNvme u f.val c.seq id false sf) f.val c.seq = some d ∧
      TransferFailed f slot c (ckFail (markNvme u f.val c.seq id false sf) f d e.flush) := by
  have hmark := cmdBySeq_markNvme u f.val c.seq id false sf
  rw [hu] at hmark
  refine ⟨_, hmark, ?_⟩
  rw [TransferFailed, ← (nvmeOf_some hnv).2.1]
  exact ckFail_frame e.flush hmark

theorem exec_nvmeTimeout_early (h : now s < e.tick + 5000001) : exec (.nvmeTimeout f slot id) s = .next s := by
  have hx : exec (.nvmeTimeout f slot id) s = .next (doNvmeTimeout f slot id s) := rfl
  rw [doNvmeTimeout, hnv] at hx
  exact hx.trans (congrArg _ (if_pos h))

variable (hc : cmdBySeq s f.val c.seq = some c)
include hc

theorem nvmeTimeout_fails (h : e.tick + 5000001 ≤ now s) : answers (.nvmeTimeout f slot id) s (TransferFailed f slot c) := by
  have hx : exec (.nvmeTimeout f slot id) s = .next (doNvmeTimeout f slot id s) := rfl
  rw [doNvmeTimeout, hnv] at hx
  dsimp only at hx
  obtain ⟨d, hd, hfail⟩ := ckFail_marked hnv 0 hc
  rw [if_neg h.not_gt, hd] at hx
  exact ⟨_, hx, hfail⟩

variable {v : Slot} (hv : slotOf s f.val slot.toNat = some v)
include hv

theorem nvmeCompletion_fails {sf : BitVec 16} (bs : List Byte) (h : sf ≠ 0) :
    answers (.nvmeCompletion f slot id sf bs) s (TransferFailed f slot c) := by
  have hx : exec (.nvmeCompletion f slot id sf bs) s = .next (doNvmeCompletion f slot id sf bs s) := rfl
  rw [doNvmeCompletion, hnv, hv] at hx
  dsimp only at hx
  obtain ⟨d, hd, hfail⟩ := ckFail_marked hnv (u := takeCqEntry s f.val slot.toNat v id sf) sf
    (((takeCqEntry_frame s f.val slot.toNat v id sf).2.1 c.seq).trans hc)
  rw [if_neg h, beq_false_of_ne h, hd] at hx
  exact ⟨_, hx, hfail⟩

omit hnv hc hv in
/-- The data of a read that has completed goes to its range: what the functions hold stays. -/
theorem readStored_frame (u : State) (stored : Bool) (n off : Nat) (bs : List Byte) :
    (if stored then u else (hbmStore u n off bs []).1).host = u.host ∧ (if stored then u else (hbmStore u n off bs []).1).cores = u.cores := by
  cases stored
  · exact hbmStore_frame ..
  · exact ⟨rfl, rfl⟩

/-- A completion with success of a transfer's one piece. -/
theorem nvmeCompletion_ends (bs : List Byte) (hone : c.nv = [e]) (hlen : c.nvNext = ckLen c) (hbad : c.nvBad = none)
    (hfua : cmdFua c.words = false) :
    answers (.nvmeCompletion f slot id 0 bs) s fun t =>
      slotOf t f.val slot.toNat = some { v with head := (v.head + 1) % slotSize v, phase := v.phase != ((v.head + 1) % slotSize v == 0) } ∧
      (∃ d ∈ (getFn t f.val).cmds, d.seq = c.seq ∧ d.fin = some (sOK, BitVec.ofNat 64 (ckLen c))) ∧
      t.host.bus = s.host.bus ++ [(v.words.getD 2 0, BitVec.ofNat 64 ((v.head + 1) % slotSize v))] ∧ t.cores = s.cores := by
  have hx : exec (.nvmeCompletion f slot id 0 bs) s = .next (doNvmeCompletion f slot id 0 bs s) := rfl
  rw [doNvmeCompletion, hnv, hv] at hx
  dsimp only at hx
  rw [if_pos rfl, show ((0 : BitVec 16) == 0) = true from rfl] at hx
  obtain ⟨-, hslot, hfin, -, -⟩ := nvmeOf_some hnv
  obtain ⟨hcores, hcmd, hhead, hbus⟩ := takeCqEntry_frame s f.val slot.toNat v id 0
  have hmark := cmdBySeq_markNvme (takeCqEntry s f.val slot.toNat v id 0) f.val c.seq id true 0
  rw [hcmd, hc] at hmark
  obtain ⟨huhost, hucores⟩ := readStored_frame (markNvme (takeCqEntry s f.val slot.toNat v id 0) f.val c.seq id true 0)
    (ckWrite c || e.flush) (fnPart f).toNat (ckOff c + e.off) (bs.take e.len)
  revert hx huhost hucores
  generalize (if (ckWrite c || e.flush) = true then _ else _ : State) = u
  intro hx huhost hucores
  have hucmd : cmdBySeq u f.val c.seq = _ := (by rw [cmdBySeq, getFn, huhost]; rfl : _ = cmdBySeq _ f.val c.seq).trans hmark
  have huslot : slotOf u f.val slot.toNat = _ :=
    (by rw [slotOf, getFn, huhost]; rfl : _ = slotOf _ f.val slot.toNat).trans ((slotOf_modCmd ..).trans hhead)
  have hend := ckAdvance_ends hucmd ((congrArg (slotOf u f.val) hslot).trans huslot) hfin hbad hlen
    (by simp [hone, (nvmeOf_some hnv).2.2.2.1]) hfua
  rw [hend] at hx
  have hfinal := cmdBySeq_modCmd (s := u) (f := f.val) (q := c.seq) (g := fun c => { c with fin := some (sOK, wd (ckLen c)) }) fun _ => rfl
  rw [hucmd] at hfinal
  obtain ⟨hmem, hseq⟩ := cmdBySeq_some hfinal
  refine ⟨_, hx, (slotOf_modCmd ..).trans huslot, ⟨_, hmem, hseq, rfl⟩, ?_, hucores.trans hcores⟩
  exact (congrArg HostSide.bus huhost).trans hbus

end

/-! ### Attachments and transfers at their commands -/

section
variable {s : State} {r : CmdRef} {c : HostCmd}

theorem exec_ckptAttach (hrun : running s r 0x38 = some c) (hsize : fld (c.words.getD 3 0) 32 12 ≠ 0) :
    exec (.ckptAttach r) s = .next (if (slotOf s r.f.val (fld (c.words.getD 5 0) 0 3)).isSome then endCmd s r c sPERM 0
      else endCmd (setSlot s r.f.val (fld (c.words.getD 5 0) 0 3) (some ⟨c.words, 0, 0, 0, true⟩)) r c sOK 0) := by
  have hx : exec (.ckptAttach r) s = .next (doCkptAttach r s) := rfl
  rw [doCkptAttach, runCmdNow_running _ _ _ _ _ hrun] at hx
  dsimp only at hx
  rw [if_neg hsize] at hx
  rw [hx]
  split <;> rfl

theorem exec_ckptDetach (hrun : running s r 0x39 = some c) :
    exec (.ckptDetach r) s = .next (if (slotOf s r.f.val (fld (c.words.getD 5 0) 0 3)).isSome
      then endCmd (setSlot s r.f.val (fld (c.words.getD 5 0) 0 3) none) r c sOK 0 else endCmd s r c sBOUNDS 0) := by
  have hx : exec (.ckptDetach r) s = .next (doCkptDetach r s) := rfl
  rw [doCkptDetach, runCmdNow_running _ _ _ _ _ hrun] at hx
  rw [hx]
  dsimp only
  cases slotOf s r.f.val (fld (c.words.getD 5 0) 0 3) <;> rfl

/-- A slot set as a command ends: the other slots stay. -/
theorem slotOf_endCmd_setSlot (n : Nat) (v : Option Slot) (st : Status) (res : Word) :
    let t := endCmd (setSlot s r.f.val n v) r c st res
    ended s t r c st res ∧ slotOf t r.f.val n = v ∧ t.cores = s.cores ∧ ∀ m, m ≠ n → slotOf t r.f.val m = slotOf s r.f.val m :=
  ⟨ended_endCmd _ _ _ _ (cmds_setSlot ..), (slotOf_endCmd ..).trans (slotOf_setSlot ..), rfl,
    fun _ h => (slotOf_endCmd ..).trans (slotOf_setSlot_other _ _ _ h)⟩

/-- A transfer that has begun. -/
def ckBegun (s : State) (r : CmdRef) (c : HostCmd) : State := modCmd s r.f.val c.seq fun c => { c with begun := true }

variable {opc : Nat} (hrun : running s r opc = some c) (hbegun : c.begun = false)
include hrun hbegun

theorem ckTransfer_fault {st : Status} (h : ckFault s r.f c = some st) : ckTransfer opc r s = endCmd s r c st 0 := by
  rw [ckTransfer, hrun]
  dsimp only
  rw [hbegun, h]
  rfl

theorem ckTransfer_begins (h : ckFault s r.f c = none) : ckTransfer opc r s = ckAdvance (ckBegun s r c) r.f c.seq := by
  rw [ckTransfer, hrun]
  dsimp only
  rw [hbegun, h]
  rfl

end

theorem ckFault_unattached {s : State} {f : HostFn} {c : HostCmd} (h : slotOf s f.val (ckSlot c) = none) : ckFault s f c = some sBOUNDS := by
  rw [ckFault, h]

section
variable {s : State} {f : HostFn} {c : HostCmd} {v : Slot} (hv : slotOf s f.val (ckSlot c) = some v)
include hv

theorem ckFault_empty (h : ckLen c = 0) : ckFault s f c = some sOK := by
  rw [ckFault, hv]
  exact (if_neg (by rw [h, Nat.zero_mod]; exact fun hne => hne rfl)).trans (if_pos h)

theorem ckFault_blocks (h : ckLen c % slotLba v ≠ 0) : ckFault s f c = some sRSVD := by
  rw [ckFault, hv]
  exact if_pos h

theorem ckLen_pos (h : ckFault s f c = none) : 0 < ckLen c := by
  refine Nat.pos_of_ne_zero fun hz => ?_
  rw [ckFault_empty hv hz] at h
  cases h

end

/-- Bytes outstanding are those before: the mark that a transfer has begun is no NVMe command. -/
theorem outstanding_ckBegun (s : State) (r : CmdRef) (c : HostCmd) (n : Nat) :
    outstanding (ckBegun s r c) r.f.val n = outstanding s r.f.val n := by
  rw [outstanding, outstanding, ckBegun, modCmd, getFn_modFn]
  dsimp only
  rw [List.map_map]
  refine congrArg List.sum (List.map_congr_left fun d _ => ?_)
  dsimp only [Function.comp]
  split <;> rfl

/-- A transfer of one piece: its entry, its doorbell, and the record of it. -/
theorem ckAdvance_onePiece {s : State} {r : CmdRef} {c : HostCmd} {v : Slot} (hmem : c ∈ (getFn s r.f.val).cmds) (hfin : c.fin = none)
    (huniq : ∀ d ∈ (getFn s r.f.val).cmds, d.seq = c.seq → d = c) (hv : slotOf s r.f.val (ckSlot c) = some v) (hpos : 0 < ckLen c)
    (hnv : c.nv = []) (hnext : c.nvNext = 0) (hbad : c.nvBad = none) (hmax : ckLen c ≤ slotMax v)
    (hroom : outstanding s r.f.val (ckSlot c) + 1 < slotSize v) (hclean : pieceBad s r.f c 0 (ckLen c) = false) :
    let t := ckAdvance (ckBegun s r c) r.f c.seq
    t.cores = s.cores ∧ (slotOf t r.f.val (ckSlot c)).map Slot.tail = some ((v.tail + 1) % slotSize v) ∧
      t.host.bus = s.host.bus ++ [(v.words.getD 1 0, BitVec.ofNat 64 ((v.tail + 1) % slotSize v))] ∧
      ∃ e, (∃ d ∈ (getFn t r.f.val).cmds, d.seq = c.seq ∧ d.fin = none ∧ d.nv = [e]) ∧
        e.id = v.nextId ∧ e.off = 0 ∧ e.len = ckLen c ∧ e.ok = none := by
  have hbegun : cmdBySeq (ckBegun s r c) r.f.val c.seq = some { c with begun := true } := by
    refine (cmdBySeq_modCmd ?_).trans ?_
    · exact fun d => rfl
    · rw [cmdBySeq_of_mem hmem huniq]
      rfl
  have hpiece : min (slotMax v) (ckLen c - 0) = ckLen c := by omega
  have hfirst : issueAll 4096 (ckBegun s r c) r.f c.seq =
      issueAll 4095 (issueNvme (ckBegun s r c) r.f { c with begun := true } v 0 (ckLen c) false) r.f c.seq := by
    have h := issueAll_piece (v := v) hbegun 4095 ((slotOf_modCmd ..).trans hv) hfin hbad (by rw [show HostCmd.nvNext _ = 0 from hnext]; exact hpos)
      (by rw [outstanding_ckBegun]; exact hroom) (by rw [show HostCmd.nvNext _ = 0 from hnext]; exact (congrArg (pieceBad s r.f c 0) hpiece).trans hclean)
    rw [show HostCmd.nvNext { c with begun := true } = 0 from hnext] at h
    exact h.trans (congrArg (fun n => issueAll 4095 (issueNvme (ckBegun s r c) r.f { c with begun := true } v 0 n false) r.f c.seq) hpiece)
  obtain ⟨hcores, htail, hbus, page, hcmd⟩ := issueNvme_frame (ckBegun s r c) r.f { c with begun := true } v 0 (ckLen c)
  rw [hbegun] at hcmd
  rw [issueAll_issued hcmd _ (Nat.le_of_eq (Nat.zero_add _).symm)] at hfirst
  rw [ckAdvance_waits hfirst hcmd (by simp)]
  obtain ⟨hmem', hseq⟩ := cmdBySeq_some hcmd
  exact ⟨hcores, congrArg (Option.map Slot.tail) htail, hbus, _, ⟨_, hmem', hseq, hfin, congrArg (· ++ _) hnv⟩, rfl, rfl, rfl, rfl⟩

/-- What a transfer of no bytes, of a part of a block, or to a slot that is not attached ends with, and what any other begins. -/
theorem ckTransfer_answers {s : State} {r : CmdRef} {c : HostCmd} {opc : Nat} {i : Instr} (hbegun : c.begun = false)
    (hrun : running s r opc = some c) (hx : exec i s = .next (ckTransfer opc r s)) :
    (∀ st, ckFault s r.f c = some st → answers i s fun t => ended s t r c st 0 ∧ t.cores = s.cores ∧ t.host.bus = s.host.bus) ∧
    (ckFault s r.f c = none → exec i s = .next (ckAdvance (ckBegun s r c) r.f c.seq)) :=
  ⟨fun _ h => ⟨_, hx.trans (congrArg _ (ckTransfer_fault hrun hbegun h)), endCmd_ended .., rfl, rfl⟩,
    fun h => hx.trans (congrArg _ (ckTransfer_begins hrun hbegun h))⟩

/-- Settles O50. -/
theorem checkpoints : Obligations.Checkpoints := by
  unfold Obligations.Checkpoints
  refine ⟨?attach, ?detach, ?transfer, ?nvme⟩
  case attach =>
    intro s r c hrun n hsize
    have hx := exec_ckptAttach hrun hsize
    refine ⟨fun h => ⟨_, hx.trans (congrArg _ (if_pos h)), endCmd_ended .., slotOf_endCmd s r c _ _⟩, fun h => ?_⟩
    obtain ⟨hended, hslot, hcores, hothers⟩ := slotOf_endCmd_setSlot (s := s) (r := r) (c := c) n (some ⟨c.words, 0, 0, 0, true⟩) sOK 0
    exact ⟨_, hx.trans (congrArg _ (if_neg (Option.not_isSome_iff_eq_none.2 h))), hended, hslot, hcores, hothers⟩
  case detach =>
    intro s r c hrun n
    have hx := exec_ckptDetach hrun
    refine ⟨fun h => ⟨_, hx.trans (congrArg _ (if_neg (Option.not_isSome_iff_eq_none.2 h))), endCmd_ended ..⟩, fun h => ?_⟩
    obtain ⟨hended, hslot, hcores, hothers⟩ := slotOf_endCmd_setSlot (s := s) (r := r) (c := c) n none sOK 0
    exact ⟨_, hx.trans (congrArg _ (if_pos h)), hended, hslot, hcores, hothers⟩
  case transfer =>
    intro s r c hbegun F G
    have hG (opc : Nat) (i : Instr) (hrun : running s r opc = some c) (hx : exec i s = .next (ckTransfer opc r s)) : G i := by
      obtain ⟨hfault, hbegins⟩ := ckTransfer_answers hbegun hrun hx
      obtain ⟨hmem, -, hfin⟩ := mem_of_running hrun
      refine ⟨fun h => hfault _ (ckFault_unattached h), fun v hv h => hfault _ (ckFault_empty hv h), fun v hv h => hfault _ (ckFault_blocks hv h),
        fun h => ⟨_, hbegins h, rfl⟩, fun v hok hv huniq hnv hnext hbad hmax hroom hclean => ⟨_, hbegins hok, ?_⟩⟩
      exact ckAdvance_onePiece hmem hfin huniq hv (ckLen_pos hv hok) hnv hnext hbad hmax hroom hclean
    exact ⟨fun hrun => hG _ _ hrun rfl, fun hrun => hG _ _ hrun rfl⟩
  case nvme =>
    intro s f slot id c e v hnv hv huniq Failed
    have hc : cmdBySeq s f.val c.seq = some c := cmdBySeq_of_mem (nvmeOf_some hnv).1 huniq
    refine ⟨fun sf bs hsf => nvmeCompletion_fails hnv hc hv bs hsf, fun h => ⟨_, exec_nvmeTimeout_early hnv h, rfl⟩,
      fun h => nvmeTimeout_fails hnv hc h, fun bs hone _ _ _ hnext hbad hfua => ?_⟩
    exact nvmeCompletion_ends hnv hc hv bs hone hnext hbad hfua

end Sys2Proof.Machine
end

section
/-! PROOFS. The obligation on link security fails for measurements asked for in a session that is not open. -/

namespace Sys2Proof.Machine

/-- The reset state of a device whose life cycle attests, with no session open. -/
def attestingReset : State := { State.reset with sec := { State.reset.sec with life := .provisioned } }

/-- Refutes O52: GET_MEASUREMENTS of index 0 that names session 1, which is not open, answers an error, and not the count of
blocks: the clause on index 0 says nothing of the session (R394). -/
theorem not_linkSecurity : ¬ Obligations.LinkSecurity := by
  unfold Obligations.LinkSecurity
  rintro ⟨-, -, hmeas, -⟩
  obtain ⟨-, hattests⟩ := hmeas attestingReset 0 false [] (some 1)
  obtain ⟨hcount, -⟩ := hattests (by decide)
  obtain ⟨t, hx, ht⟩ := hcount rfl
  have hrun : exec (.getMeasurements 0 false [] (some 1)) attestingReset = .next (doGetMeasurements 0 false [] (some 1) attestingReset) := rfl
  obtain rfl : doGetMeasurements 0 false [] (some 1) attestingReset = t := Host.Outcome.next.inj (hrun.symm.trans hx)
  exact absurd ht (by decide)

end Sys2Proof.Machine
end

section
/-! PROOFS. Tokens and the life cycle, the sanitising sequence, COMMIT, the owner chain, firmware slots (R398 to R412). -/

namespace Sys2Proof.Machine

/-! ### What an unload, an aborted reduction and a sanitised grove leave -/

/-- From `s` to `t` the Warden, the host interface and the external memory are as before, and a router of whose objects no operation
waits has none. -/
structure MeshOnly (s t : State) : Prop where
  sec : t.sec = s.sec
  host : t.host = s.host
  hbm : t.hbm = s.hbm
  waiters : ∀ d, (getGrove s d).waiters = [] → (getGrove t d).waiters = []

namespace MeshOnly

variable {s t u : State}

theorem refl (s : State) : MeshOnly s s := ⟨rfl, rfl, rfl, fun _ h => h⟩

theorem trans (h : MeshOnly s t) (h' : MeshOnly t u) : MeshOnly s u :=
  ⟨h'.sec.trans h.sec, h'.host.trans h.host, h'.hbm.trans h.hbm, fun d hd => h'.waiters d (h.waiters d hd)⟩

theorem modCore (s : State) (l : Lcid) (f : Core → Core) : MeshOnly s (modCore s l f) := ⟨rfl, rfl, rfl, fun _ h => h⟩

theorem raise (s : State) (r : Rpt) : MeshOnly s (raise s r) := ⟨rfl, rfl, rfl, fun _ h => h⟩

theorem modGrove (s : State) (dg : Dg) {f : Grove → Grove} (hf : ∀ g, g.waiters = [] → (f g).waiters = []) :
    MeshOnly s (modGrove s dg f) := by
  refine ⟨rfl, rfl, rfl, fun d hd => ?_⟩
  by_cases h : d = dg
  · subst h
    rw [getGrove_modGrove]
    exact hf _ hd
  · rwa [getGrove_modGrove_other _ _ _ _ h]

theorem ite {p : Prop} [Decidable p] (ht : MeshOnly s t) (hu : MeshOnly s u) : MeshOnly s (if p then t else u) := by
  split <;> assumption

theorem foldl {α : Type} {f : State → α → State} (hf : ∀ s a, MeshOnly s (f s a)) (as : List α) (s : State) : MeshOnly s (as.foldl f s) := by
  induction as generalizing s with
  | nil => exact refl s
  | cons a as ih => exact (hf s a).trans (ih _)

theorem enterBuf_waiters (g : Grove) (q : InPkt) : (enterBuf g q).waiters = g.waiters := by
  unfold enterBuf
  split <;> rfl

theorem inject (s : State) (dg : Dg) (port : Nat) (p : Pkt) : MeshOnly s (inject s dg port p) := by
  unfold Machine.inject injectAs
  refine trans (modGrove s (seqAt dg port p).1 ?_) (modGrove _ dg ?_)
  · exact fun _ h => h
  · exact fun g h => (enterBuf_waiters g _).trans h

theorem sendLanding (s : State) (e : Nat) (p : Pkt) : MeshOnly s (sendLanding s e p) := by
  unfold Machine.sendLanding
  split
  · exact inject ..
  · exact refl s

theorem sendVia (s : State) (f : Side) (p : Pkt) : MeshOnly s (sendVia s f p) := by
  cases f with
  | pos l => exact inject ..
  | unit dg => exact inject ..
  | ep e => exact sendLanding ..

theorem sendFar (s : State) (f : Side) (p : Pkt) (d : Did) (src : Lcid) (dst : Option Lcid) : MeshOnly s (sendFar s f p d src dst) := by
  unfold Machine.sendFar
  split
  · split
    · exact ⟨rfl, rfl, rfl, fun _ h => h⟩
    · exact sendVia ..
  · exact refl s

theorem reply (s : State) (f : Side) (req p : Pkt) : MeshOnly s (reply s f req p) := by
  unfold Machine.reply
  split
  · exact sendFar ..
  · exact ite (sendVia ..) (ite (sendVia ..) (sendVia ..))

theorem answerMsg (s : State) (f : Side) (m : Msg) (st : Status) (kind : Nat) : MeshOnly s (answerMsg s f m st kind) := by
  unfold Machine.answerMsg
  exact ite (sendFar ..) (ite (sendVia ..) (sendVia ..))

theorem loseEntry (s : State) (l : Lcid) (w : Word) : MeshOnly s (loseEntry s l w) := by
  unfold Machine.loseEntry
  exact (modCore ..).trans (raise ..)

theorem postQ63 (s : State) (l : Lcid) (ws : List Word) : MeshOnly s (postQ63 s l ws) := by
  unfold Machine.postQ63
  dsimp only
  split
  · split
    · exact ⟨rfl, rfl, rfl, fun _ h => h⟩
    · exact loseEntry ..
  · exact loseEntry ..

theorem syncReady (s : State) (l : Lcid) (o : SyncOut) (f : Ctx → Ctx) : MeshOnly s (syncReady s l o f) := by
  unfold Machine.syncReady modCtxOf
  exact modCore ..

theorem syncDone (s : State) (l : Lcid) (o : SyncOut) (st : Status) (v : Word) : MeshOnly s (syncDone s l o st v) := by
  unfold Machine.syncDone
  have hfailed : MeshOnly s (if (st == sOK || st == sRETRIED) then s else syncFailed s l st o.name) := ite (refl s) (postQ63 ..)
  exact ite (hfailed.trans (syncReady ..)) (ite (hfailed.trans (syncReady ..)) hfailed)

theorem endWaiters (s : State) (dg : Dg) (st : Status) : MeshOnly s (endWaiters s dg (.unit dg) st) := by
  unfold Machine.endWaiters
  refine (modGrove s dg ?_).trans (foldl (fun s w => ?_) _ _)
  · exact fun _ _ => rfl
  · split
    · exact reply ..
    · dsimp only
      split
      · split
        · exact modCore ..
        · exact (modCore ..).trans (syncDone ..)
      · exact refl s

theorem sanitiseGrove (s : State) (dg : Dg) : MeshOnly s (sanitiseGrove s dg) := by
  unfold Machine.sanitiseGrove
  refine ((foldl (fun s n => modCore s _ _) _ s).trans (endWaiters ..)).trans (modGrove _ dg ?_)
  exact fun _ h => h

theorem cancelAll (s : State) (l : Lcid) (gone : Bool) : MeshOnly s (cancelAll s l gone) := by
  unfold Machine.cancelAll
  refine (modCore ..).trans (foldl (fun s o => ite ?_ ?_) _ _)
  · unfold unitCancel
    split
    · exact inject ..
    · exact refl s
  · unfold sendCancel
    split
    · exact inject ..
    · exact refl s

theorem bounceWaiting (s : State) (l : Lcid) (st : Status) : MeshOnly s (bounceWaiting s l st) := by
  unfold Machine.bounceWaiting
  exact (modCore ..).trans (foldl (fun s m => (modCore ..).trans (answerMsg ..)) _ _)

theorem unbindCore (s : State) (l : Lcid) : MeshOnly s (unbindCore s l) := by
  unfold Machine.unbindCore
  refine (foldl (fun s p => foldl (fun s d => ?_) _ s) _ s).trans (modCore ..)
  dsimp only
  split
  · exact ite ((modCore ..).trans (modCore ..)) (refl s)
  · exact refl s

theorem forceUnload (part : BitVec 4) (s : State) (l : Lcid) : MeshOnly s (forceUnload part s l) := by
  unfold Machine.forceUnload resetCore discardCore writeResident
  exact (unbindCore ..).trans ((bounceWaiting ..).trans ((cancelAll ..).trans
    ((modCore ..).trans ((modCore ..).trans ((modCore ..).trans (modCore ..))))))

theorem clearProgram (s : State) (l : Lcid) : MeshOnly s (clearProgram s l) := modCore ..

theorem refill_waiters (g : Grove) : (refill g).waiters = g.waiters := by
  have hfold (l : List InPkt) (g : Grove) : (l.foldl enterBuf g).waiters = g.waiters := by
    induction l generalizing g with
    | nil => rfl
    | cons q l ih => exact (ih _).trans (enterBuf_waiters g q)
  exact hfold _ _

theorem dropRedPkts (s : State) (name : Word) : MeshOnly s (dropRedPkts s name) := by
  refine ⟨rfl, rfl, rfl, fun d hd => ?_⟩
  unfold Machine.dropRedPkts getGrove
  dsimp only
  rw [tget_tmap _ _ (by rfl), refill_waiters]
  exact hd

theorem serveList_nil (o : SyncObj) (ix : Nat) (b : Bool) (v : Word) : serveList o ix b [] v = ([], v, []) := by rw [serveList]

theorem serveWaiters (s : State) (dg : Dg) (ix : Nat) : MeshOnly s (serveWaiters s dg ix) := by
  unfold Machine.serveWaiters
  refine trans (t := setGrove s dg _) ⟨rfl, rfl, rfl, fun d hd => ?_⟩ (foldl (fun s w => reply ..) _ _)
  by_cases h : d = dg
  · subst h
    rw [getGrove_setGrove, hd, serveList_nil]
    rfl
  · rwa [getGrove_setGrove_other _ _ _ _ h]

theorem advanceAnchor (s : State) (r : Red) : MeshOnly s (advanceAnchor s r) := by
  unfold Machine.advanceAnchor
  refine trans (modGrove s (redRoot r) ?_) (serveWaiters ..)
  exact fun _ h => h

theorem countAbort (s : State) (dg : Dg) :
    MeshOnly s (Machine.modGrove s dg fun g => { g with aborts := BitVec.ofNat 16 (satAdd 16 g.aborts.toNat 1) }) := by
  refine modGrove s dg ?_
  exact fun _ h => h

theorem disarm (s : State) (name : Word) : MeshOnly s (disarm s name) := ⟨rfl, rfl, rfl, fun _ h => h⟩

theorem abortRed (s : State) (r : Red) : MeshOnly s (abortRed s r) := by
  unfold Machine.abortRed
  have hrecord : MeshOnly s (if occupied s (redDest r) then Machine.modCore s (redDest r) fun k => modSp k fun sl =>
      slPutWords sl (fld (redWord r 2) 0 21) (redRecord r sVACANT) else s) := ite (modCore ..) (refl s)
  exact (((hrecord.trans (countAbort ..)).trans (dropRedPkts ..)).trans (advanceAnchor ..)).trans (disarm ..)

theorem abortReds (s : State) : MeshOnly s (s.reds.foldl Machine.abortRed s) := foldl abortRed _ s

end MeshOnly

/-! ### The sanitising sequence -/

/-- A VF's interface once the links are shut down. -/
theorem tdiOf_setTdi (s : State) (n m : Nat) (t : Tdi) : tdiOf (setTdi s n t) m = if m = n then t else tdiOf s m := by
  split
  next h =>
    subst h
    rw [tdiOf, setTdi, getFn_modFn]
  next h => rw [tdiOf, setTdi, getFn_modFn_other _ _ _ _ (by omega), tdiOf]

/-- The interface of VF `n` unlocked, by force where it is locked. -/
def shutTdi (s : State) (n : Nat) : State := if tdiLocked s n then forceUnlock s n else setTdi s n .unlocked

theorem shutTdi_host (s : State) (n : Nat) : (shutTdi s n).host = (setTdi s n .unlocked).host := by
  unfold shutTdi
  split
  · obtain ⟨t, ht, hhost, -⟩ := forceUnlock_host (s := s) n
    rw [ht, modFn, setTdi, modFn, getFn, getFn, hhost]
  · rfl

theorem shutTdi_kept (s : State) (n : Nat) :
    (shutTdi s n).sec = s.sec ∧ ∀ d, (getGrove s d).waiters = [] → (getGrove (shutTdi s n) d).waiters = [] := by
  unfold shutTdi
  split
  · have h := MeshOnly.foldl (MeshOnly.forceUnload (BitVec.ofNat 4 n))
      (((below 4096).map (BitVec.ofNat 12)).filter fun l => partOf s (dgOf l) == some (BitVec.ofNat 4 n) && occupied s l) s
    exact ⟨h.sec, h.waiters⟩
  · exact ⟨rfl, fun _ h => h⟩

theorem tdiOf_foldl_shutTdi (ns : List Nat) (s : State) (m : Nat) (h : m ∈ ns ∨ tdiOf s m = .unlocked) :
    tdiOf (ns.foldl shutTdi s) m = .unlocked := by
  induction ns generalizing s with
  | nil => exact h.resolve_left List.not_mem_nil
  | cons n ns ih =>
    refine ih _ ?_
    have hstep : tdiOf (shutTdi s n) m = if m = n then .unlocked else tdiOf s m := by
      rw [← tdiOf_setTdi, tdiOf, getFn, shutTdi_host, ← getFn, ← tdiOf]
    rw [hstep]
    rcases h with h | h
    · rcases List.mem_cons.1 h with rfl | h
      · exact .inr (if_pos rfl)
      · exact .inl h
    · exact .inr (by rw [h, ite_self])

theorem foldl_shutTdi_kept (ns : List Nat) (s : State) :
    (ns.foldl shutTdi s).sec = s.sec ∧ ∀ d, (getGrove s d).waiters = [] → (getGrove (ns.foldl shutTdi s) d).waiters = [] := by
  induction ns generalizing s with
  | nil => exact ⟨rfl, fun _ h => h⟩
  | cons n ns ih =>
    obtain ⟨hsec, hwaiters⟩ := shutTdi_kept s n
    obtain ⟨hsec', hwaiters'⟩ := ih (shutTdi s n)
    exact ⟨hsec'.trans hsec, fun d hd => hwaiters' d (hwaiters d hd)⟩

/-- The interfaces shut, every session closed and every stream made insecure. -/
def linksShut (ns ms : List Nat) (s : State) : State :=
  let s := ns.foldl shutTdi s
  { s with host := { s.host with sess := [], ide := ms.foldl (fun t n => tput .zero t n { tget .zero t n with st := 2, key := [] }) s.host.ide } }

theorem linksShut_kept (ns ms : List Nat) (s : State) :
    (linksShut ns ms s).sec = s.sec ∧ (linksShut ns ms s).host.sess = [] ∧ (∀ n ∈ ns, tdiOf (linksShut ns ms s) n = .unlocked) ∧
    ∀ d, (getGrove s d).waiters = [] → (getGrove (linksShut ns ms s) d).waiters = [] := by
  obtain ⟨hsec, hwaiters⟩ := foldl_shutTdi_kept ns s
  exact ⟨hsec, rfl, fun n hn => tdiOf_foldl_shutTdi ns s n (.inl hn), hwaiters⟩

theorem sanLinks_eq (s : State) : sanLinks s = linksShut (below 16) (below ideStreams) s := by
  unfold sanLinks linksShut
  generalize below 16 = ns
  generalize below ideStreams = ms
  rfl

/-- Step 2: no session is left, and no interface is locked. -/
theorem sanLinks_shut (s : State) :
    (sanLinks s).sec = s.sec ∧ (sanLinks s).host.sess = [] ∧ (∀ n, n < 16 → tdiOf (sanLinks s) n = .unlocked) ∧
    ∀ d, (getGrove s d).waiters = [] → (getGrove (sanLinks s) d).waiters = [] := by
  obtain ⟨hsec, hsess, htdi, hwaiters⟩ := linksShut_kept (below 16) (below ideStreams) s
  rw [sanLinks_eq]
  exact ⟨hsec, hsess, fun n hn => htdi n ((mem_below _ _).2 hn), hwaiters⟩

/-- Step 3: no collective is left. -/
theorem sanLoads_gone (s : State) :
    (sanLoads s).sec = s.sec ∧ (sanLoads s).host = { s.host with colls := [] } ∧
    ∀ d, (getGrove s d).waiters = [] → (getGrove (sanLoads s) d).waiters = [] := by
  have hcores := MeshOnly.foldl (f := fun s l => if occupied s l then forceUnload (corePart s l) s l else clearProgram s l)
    (fun s l => .ite (.forceUnload _ s l) (.clearProgram s l)) (loadedCores s) s
  have h := hcores.trans (MeshOnly.abortReds _)
  refine ⟨h.sec, ?_, h.waiters⟩
  rw [← h.host]
  rfl

/-- Step 4: no range is valid. -/
theorem foldl_removeRange (ns : List Nat) (s : State) :
    let t := ns.foldl (fun s n => removeRange s n (rangeFields (rangeWord s n))) s
    t.sec = s.sec ∧ t.host = s.host ∧ t.groves = s.groves ∧
    ∀ n, n ∈ ns ∨ (rangeWord s n).getLsbD 63 = false → (rangeWord t n).getLsbD 63 = false := by
  induction ns generalizing s with
  | nil => exact ⟨rfl, rfl, rfl, fun n h => h.resolve_left List.not_mem_nil⟩
  | cons m ns ih =>
    obtain ⟨hsec, hhost, hgroves, hrange⟩ := ih (removeRange s m (rangeFields (rangeWord s m)))
    refine ⟨hsec, hhost, hgroves, fun n h => hrange n ?_⟩
    by_cases hn : n = m
    · subst hn
      refine .inr ?_
      rw [rangeWord, removeRange, tget_tput_same]
      rw [wd, BitVec.getLsbD_ofNat, Nat.testBit_lt_two_pow (Nat.mod_lt _ (by decide)), Bool.and_false]
    · rw [List.mem_cons, or_iff_right hn] at h
      refine h.imp_right fun h => ?_
      rwa [rangeWord, removeRange, tget_tput_other _ _ _ _ _ hn]

theorem endWaiters_none {s : State} {dg : Dg} (h : (getGrove s dg).waiters = []) (f : Side) (st : Status) :
    endWaiters s dg f st = modGrove s dg fun g => { g with waiters := [] } := by
  rw [endWaiters, h]
  rfl

/-- A grove of whose objects no operation waits: what its sanitising makes of the positions. -/
theorem sanitised_sanitiseGrove {s : State} {dg : Dg} (hw : (getGrove s dg).waiters = []) {l : Lcid}
    (h : dgOf l = dg ∨ Sanitised (getCore s l)) : Sanitised (getCore (sanitiseGrove s dg) l) := by
  have hfold : Sanitised (getCore ((below 16).foldl (fun s n => modCore s (lcidOf dg n) sanitiseCore) s) l) := by
    rcases h with hl | h
    · exact sanitised_foldl dg _ s hl (.inl ((mem_below _ _).2 (Nat.mod_lt _ (by decide))))
    · generalize below 16 = ns
      induction ns generalizing s with
      | nil => exact h
      | cons n ns ih =>
        refine ih (s := modCore s (lcidOf dg n) sanitiseCore) hw ?_
        by_cases hn : l = lcidOf dg n
        · rw [hn, getCore_modCore]
          exact sanitised_sanitiseCore _
        · rwa [getCore_modCore_other _ _ _ _ hn]
  have hnone : (getGrove ((below 16).foldl (fun s n => modCore s (lcidOf dg n) sanitiseCore) s) dg).waiters = [] := by
    rw [getGrove, groves_foldl_sanitiseCore]
    exact hw
  rw [sanitiseGrove]
  generalize (below 16).foldl (fun s n => modCore s (lcidOf dg n) sanitiseCore) s = u at hfold hnone ⊢
  rw [endWaiters_none hnone]
  exact hfold

theorem foldl_sanitiseGrove (ds : List Nat) {s : State} (hw : ∀ d, (getGrove s d).waiters = []) {l : Lcid}
    (h : (dgOf l).toNat ∈ ds ∨ Sanitised (getCore s l)) :
    Sanitised (getCore (ds.foldl (fun s d => sanitiseGrove s (BitVec.ofNat 8 d)) s) l) := by
  induction ds generalizing s with
  | nil => exact h.resolve_left List.not_mem_nil
  | cons d ds ih =>
    refine ih (s := sanitiseGrove s (BitVec.ofNat 8 d)) (fun d' => (MeshOnly.sanitiseGrove s _).waiters d' (hw d')) ?_
    by_cases hd : dgOf l = BitVec.ofNat 8 d
    · exact .inr (sanitised_sanitiseGrove (hw _) (.inl hd))
    · refine h.imp (fun hmem => (List.mem_cons.1 hmem).resolve_left fun heq => hd ?_) fun h => sanitised_sanitiseGrove (hw _) (.inr h)
      rw [← heq, BitVec.ofNat_toNat, BitVec.setWidth_eq]

/-- Steps 4 and 5: no range is valid, and every core is sanitised. -/
theorem sanGroves_sanKeys (s : State) :
    let t := sanGroves (sanKeys s)
    t.sec = s.sec ∧ t.host = s.host ∧ (∀ n, n < 16 → (rangeWord t n).getLsbD 63 = false) ∧
    ((∀ d, (getGrove s d).waiters = []) → ∀ l, Sanitised (getCore t l)) := by
  obtain ⟨hsec, hhost, hgroves, hrange⟩ := foldl_removeRange (below 16) s
  have h : MeshOnly (sanKeys s) (sanGroves (sanKeys s)) := MeshOnly.foldl (fun s d => MeshOnly.sanitiseGrove s _) (below 256) _
  refine ⟨h.sec.trans hsec, h.host.trans hhost, fun n hn => ?_, fun hw l => ?_⟩
  · rw [rangeWord, h.hbm]
    exact hrange n (.inl ((mem_below _ _).2 hn))
  · refine foldl_sanitiseGrove (below 256) (fun d => ?_) (.inl ((mem_below _ _).2 (dgOf l).isLt))
    rw [getGrove, show (sanKeys s).groves = s.groves from hgroves]
    exact hw d

/-- Steps 6 and 7. -/
def sanEnd (s : State) (cmd : Nat) : State := sanForce (sanRetire (sanFuse s cmd) cmd) cmd

theorem sanEnd_sec (s : State) (cmd : Nat) :
    (sanEnd s cmd).sec.busy = false ∧ (sanEnd s cmd).sec.pending = none ∧ (sanEnd s cmd).sec.changed = true ∧
    (cmd = 2 → (sanEnd s cmd).sec.life = .service ∧ (sanEnd s cmd).sec.entries = min 32 (s.sec.entries + 1)) ∧
    (cmd = 4 → (sanEnd s cmd).sec.life = .retired ∧ (sanEnd s cmd).sec.secret = false) := by
  refine ⟨rfl, rfl, rfl, ?_, ?_⟩
  · rintro rfl
    exact ⟨rfl, rfl⟩
  · rintro rfl
    exact ⟨rfl, rfl⟩

theorem sanEnd_rest (s : State) (cmd : Nat) :
    (sanEnd s cmd).hbm = s.hbm ∧ (sanEnd s cmd).cores = s.cores ∧ (sanEnd s cmd).host = (signalVec s 0 198).host := by
  have h : (sanRetire (sanFuse s cmd) cmd).hbm = s.hbm ∧ (sanRetire (sanFuse s cmd) cmd).cores = s.cores ∧
      (sanRetire (sanFuse s cmd) cmd).host = s.host := by
    unfold sanRetire sanFuse
    split <;> exact ⟨rfl, rfl, rfl⟩
  obtain ⟨hhbm, hcores, hhost⟩ := h
  refine ⟨hhbm, hcores, ?_⟩
  rw [sanEnd, sanForce, secSignal, signalVec, signalVec, modFn, modFn, getFn, getFn, hhost]

theorem tdiOf_signalVec (s : State) (v n : Nat) : tdiOf (signalVec s 0 v) n = tdiOf s n := by
  rw [tdiOf, signalVec, getFn_modFn_other _ _ _ _ (Nat.succ_ne_zero n), tdiOf]

theorem tdiLocked_of_unlocked {s : State} {n : Nat} (h : tdiOf s n = .unlocked) : tdiLocked s n = false := by
  unfold tdiLocked
  rw [tdiOf] at h
  rw [h]

/-- The whole sequence from step 2. -/
theorem sanSequence (s : State) (n : Nat) :
    let t := sanTail (sanLoads (sanLinks s)) n
    t.sec.busy = false ∧ t.sec.pending = none ∧ t.sec.changed = true ∧ t.host.sess = [] ∧ t.host.colls = [] ∧
    (∀ n, n < 16 → tdiLocked t n = false ∧ (rangeWord t n).getLsbD 63 = false) ∧
    ((∀ d, (getGrove s d).waiters = []) → ∀ l, (getCore t l).sp.mem = [] ∧ (getCore t l).eng.acc = []) ∧
    (n = 2 → t.sec.life = .service ∧ t.sec.entries = min 32 (s.sec.entries + 1)) ∧
    (n = 4 → t.sec.life = .retired ∧ t.sec.secret = false) := by
  obtain ⟨hsec₁, hsess, htdi, hw₁⟩ := sanLinks_shut s
  obtain ⟨hsec₂, hhost₂, hw₂⟩ := sanLoads_gone (sanLinks s)
  obtain ⟨hsec₃, hhost₃, hrange, hcores⟩ := sanGroves_sanKeys (sanLoads (sanLinks s))
  revert hsec₃ hhost₃ hrange hcores
  rw [show sanTail (sanLoads (sanLinks s)) n = sanEnd (sanGroves (sanKeys (sanLoads (sanLinks s)))) n from rfl]
  generalize sanGroves (sanKeys (sanLoads (sanLinks s))) = v
  generalize sanLoads (sanLinks s) = u₂ at *
  generalize sanLinks s = u₁ at *
  intro hsec₃ hhost₃ hrange hcores
  obtain ⟨hbusy, hpending, hchanged, hservice, hretire⟩ := sanEnd_sec v n
  obtain ⟨hhbm, hcore, hhost⟩ := sanEnd_rest v n
  have hvhost : v.host = { u₁.host with colls := [] } := hhost₃.trans hhost₂
  rw [hsec₃, hsec₂, hsec₁] at hservice
  refine ⟨hbusy, hpending, hchanged, ?_, ?_, fun m hm => ⟨tdiLocked_of_unlocked ?_, ?_⟩, fun hw l => ?_, hservice, hretire⟩
  · rw [hhost]
    exact (congrArg HostSide.sess hvhost).trans hsess
  · rw [hhost]
    exact congrArg HostSide.colls hvhost
  · rw [tdiOf, getFn, hhost, ← getFn, ← tdiOf, tdiOf_signalVec, tdiOf, getFn, hvhost]
    exact htdi m hm
  · rw [rangeWord, hhbm]
    exact hrange m hm
  · rw [getCore, hcore, ← getCore]
    have h := hcores (fun d => hw₂ d (hw₁ d (hw d))) l
    exact ⟨h.mem, h.acc⟩

/-! ### Tokens -/

/-- A token's status as the Warden shows it, with the nonce that follows it. -/
def tokenShown (s : State) (bs : List Byte) (rejected : BitVec 16) : State :=
  newNonce { s with sec := { s.sec with result := tokStatus s bs, command := BitVec.ofNat 8 (tokCmd bs), done := true, rejected := rejected } }

theorem runToken_rejected {s : State} {bs : List Byte} (h : tokStatus s bs ≠ sOK) :
    runToken s bs = tokenShown s bs (BitVec.ofNat 16 (satAdd 16 s.sec.rejected.toNat 1)) := by
  rw [runToken, if_neg h, if_neg h]
  rfl

theorem runToken_accepted {s : State} {bs : List Byte} (h : tokStatus s bs = sOK) :
    runToken s bs = applyToken (tokenShown s bs s.sec.rejected) bs := by
  rw [runToken, if_pos h, if_pos h]
  rfl

section
variable {s : State} {bs : List Byte} {n : Nat} (hup : lookoutUp s = true) (hbusy : s.sec.busy = false) (hcmd : tokCmd bs = n)
include hup hbusy hcmd

theorem doToken_mctp : doToken n (.mctp bs) s = runToken s bs := by
  rw [doToken]
  exact if_pos (by simp [hup, hbusy, hcmd])

end

/-- SEC_MBOX_CTRL written by the Lookout: COMMIT, then SUBMIT, where the Warden is free and a COMMIT may be. -/
theorem mboxCtrl_lookout {s : State} {w : Wr} (hw : w.writer.toNat = 31) :
    mboxCtrl w s = if !(!s.sec.busy && (!bit (halfBits w.half w.value) 1 || mayCommit s)) then reject s secBlk 2 31 (secBlk + 0x40)
      else
        let u := if bit (halfBits w.half w.value) 1 then commit s else s
        if bit (halfBits w.half w.value) 0 then submit u else u := by
  rw [mboxCtrl, secWrite, hw]
  exact guardWrite_lookout_judged ..

/-- SUBMIT written by the Lookout: the mailbox's token is that of a message, and the mailbox is cleared. -/
theorem doToken_mailbox {s : State} {w : Wr} {n : Nat} (hup : lookoutUp s = true) (hbusy : s.sec.busy = false) (hw : w.writer.toNat = 31)
    (hsubmit : fld (halfBits w.half w.value) 0 2 = 1) (hcmd : tokCmd (mboxBytes s) = n) :
    doToken n (.mailbox w) s = doToken n (.mctp (mboxBytes s)) { s with sec := { s.sec with mbox := [] } } := by
  have hlow : (halfBits w.half w.value).toNat % 4 = 1 := by
    rw [← hsubmit, fld_zero_eq_mod]
    rfl
  have hbit0 : bit (halfBits w.half w.value) 0 = true := by
    rw [bit, Nat.testBit_zero]
    exact decide_eq_true (by omega)
  have hbit1 : bit (halfBits w.half w.value) 1 = false := by
    rw [bit, Nat.testBit_succ, Nat.testBit_zero]
    exact decide_eq_false (by omega)
  rw [doToken_mctp (s := { s with sec := { s.sec with mbox := [] } }) hup hbusy hcmd, doToken]
  refine (if_pos (by simp [hbit0, hcmd])).trans ?_
  rw [mboxCtrl_lookout hw, hbit0, hbit1, hbusy]
  rfl

/-! ### COMMIT, firmware slots, the random number generator -/

/-- A slot replaced: what the Warden holds besides. -/
theorem putSlot_kept (s : State) (b : Bool) (v : FwSlot) :
    let t := putSlot s b v
    t.cores = s.cores ∧ t.sec.life = s.sec.life ∧ t.sec.svnFused = s.sec.svnFused ∧ t.sec.revoked = s.sec.revoked ∧ t.sec.run = s.sec.run ∧
    t.sec.next = s.sec.next ∧ t.sec.recovery = s.sec.recovery ∧ fwSlot t b = v ∧ fwSlot t (!b) = fwSlot s (!b) := by
  cases b <;> exact ⟨rfl, rfl, rfl, rfl, rfl, rfl, rfl, rfl, rfl⟩

/-- A slot that may no longer be used is not valid. -/
def dropStale (s : State) (b : Bool) : State :=
  if slotStale s (fwSlot s b) then putSlot s b { fwSlot s b with valid := false } else s

theorem dropStale_kept (s : State) (b : Bool) :
    let t := dropStale s b
    t.cores = s.cores ∧ t.sec.life = s.sec.life ∧ t.sec.svnFused = s.sec.svnFused ∧ t.sec.revoked = s.sec.revoked := by
  unfold dropStale
  split
  · obtain ⟨hcores, hlife, hsvn, hrevoked, -⟩ := putSlot_kept s b { fwSlot s b with valid := false }
    exact ⟨hcores, hlife, hsvn, hrevoked⟩
  · exact ⟨rfl, rfl, rfl, rfl⟩

theorem commit_kept (s : State) :
    (commit s).sec.svnFused = s.sec.svnRun ∧ (commit s).cores = s.cores ∧ (commit s).sec.life = s.sec.life ∧
    (commit s).sec.revoked = s.sec.revoked ||| BitVec.ofNat 4 (hdrNum (fwSlot s s.sec.run).lookout 12 4) := by
  obtain ⟨u, hu, hcores, hlife, hsvn, hrevoked⟩ : ∃ u, commit s = dropStale (dropStale u false) true ∧ u.cores = s.cores ∧
      u.sec.life = s.sec.life ∧ u.sec.svnFused = s.sec.svnRun ∧
      u.sec.revoked = s.sec.revoked ||| BitVec.ofNat 4 (hdrNum (fwSlot s s.sec.run).lookout 12 4) := ⟨_, rfl, rfl, rfl, rfl, rfl⟩
  obtain ⟨hcores₁, hlife₁, hsvn₁, hrevoked₁⟩ := dropStale_kept u false
  obtain ⟨hcores₂, hlife₂, hsvn₂, hrevoked₂⟩ := dropStale_kept (dropStale u false) true
  rw [hu]
  exact ⟨hsvn₂.trans (hsvn₁.trans hsvn), hcores₂.trans (hcores₁.trans hcores), hlife₂.trans (hlife₁.trans hlife),
    hrevoked₂.trans (hrevoked₁.trans hrevoked)⟩

/-- COMMIT written by the Lookout. -/
theorem exec_commit (s : State) :
    exec (.commit ⟨31, .full, 2⟩) s = .next (if !s.sec.busy && mayCommit s then commit s else reject s 0x3000 2 31 0x3040) := by
  have hx : exec (.commit ⟨31, .full, 2⟩) s = .next (doCommit ⟨31, .full, 2⟩ s) := rfl
  have hbit0 : bit (halfBits .full (2 : Word)) 0 = false := by decide
  have hbit1 : bit (halfBits .full (2 : Word)) 1 = true := by decide
  rw [hx, doCommit]
  dsimp only
  rw [if_pos hbit1, mboxCtrl_lookout rfl]
  dsimp only
  rw [hbit0, hbit1, Bool.not_true, Bool.false_or]
  cases !s.sec.busy && mayCommit s <;> rfl

/-- The slot that does not run, written. -/
theorem doFirmwareUpdate_taken {s : State} {b : Bool} {w k : FwImage} (hup : lookoutUp s = true ∨ s.sec.recovery = true)
    (hsmbus : s.sec.recovery = true → b = true) (hbusy : s.sec.busy = false) :
    doFirmwareUpdate b w k s =
      let v : FwSlot := ⟨w, k, imageOk s 1 w && imageOk s 2 k⟩
      let t := putSlot s (!s.sec.run) v
      if t.sec.recovery && v.valid then { t with sec := { t.sec with next := !s.sec.run } } else t := by
  rw [doFirmwareUpdate]
  refine if_neg ?_
  cases hr : s.sec.recovery
  · simp [hbusy, hup.resolve_right (by simp [hr])]
  · simp [hbusy, hsmbus hr]

/-- Settles O53. -/
theorem lifeCycle : Obligations.LifeCycle := by
  unfold Obligations.LifeCycle
  refine ⟨?token, ?mailbox, ?sequence, ?commit, ?chain, ?trng, ?firmware⟩
  case token =>
    intro s bs hup hbusy st F
    have hF (i : Instr) (n : Nat) (hx : exec i s = .next (doToken n (.mctp bs) s)) : F i n := by
      intro hcmd
      rw [doToken_mctp hup hbusy hcmd] at hx
      refine ⟨fun hst => ?_, fun hst => ?_⟩
      · rw [runToken_rejected hst] at hx
        exact ⟨_, hx, rfl, rfl, rfl, rfl, toNat_satAdd, rfl, rfl, rfl⟩
      · rw [runToken_accepted hst, applyToken] at hx
        refine ⟨_, hx, ?_⟩
        split <;> exact ⟨hst, rfl, rfl⟩
    refine ⟨hF _ _ rfl, hF _ _ rfl, hF _ _ rfl, hF _ _ rfl, fun hst => ?_⟩
    have hx (i : Instr) (n : Nat) (hx : exec i s = .next (doToken n (.mctp bs) s)) (hcmd : tokCmd bs = n) :
        exec i s = .next (applyToken (tokenShown s bs s.sec.rejected) bs) := by
      rw [hx, doToken_mctp hup hbusy hcmd, runToken_accepted hst]
    refine ⟨fun hcmd => ⟨_, hx _ 1 rfl hcmd, ?_⟩, fun hcmd => ⟨_, hx _ 3 rfl hcmd, ?_⟩, fun hcmd => ⟨_, hx _ 2 rfl hcmd, ?_⟩,
      fun hcmd => ⟨_, hx _ 4 rfl hcmd, ?_⟩⟩ <;> rw [applyToken, hcmd]
    · exact ⟨rfl, rfl, rfl, rfl⟩
    · exact ⟨rfl, rfl, rfl, rfl⟩
    · exact ⟨rfl, rfl, rfl, rfl, rfl⟩
    · exact ⟨rfl, rfl, rfl, rfl, rfl⟩
  case mailbox =>
    intro s w hup hbusy hw hsubmit bs u
    refine ⟨fun h => ?_, fun h => ?_, fun h => ?_, fun h => ?_⟩ <;>
      exact congrArg Host.Outcome.next (doToken_mailbox hup hbusy hw hsubmit h)
  case sequence =>
    intro s
    refine ⟨fun hat hflight => ?_, fun n _ => sanSequence s n⟩
    unfold sanStep
    split
    · rw [sanDo, hat]
      exact if_pos hflight
    · rfl
  case commit =>
    intro s
    have hx := exec_commit s
    refine ⟨fun hbusy hmay => ⟨_, hx.trans (congrArg _ (if_pos (by simp [hbusy, hmay]))), commit_kept s⟩, fun h =>
      ⟨_, hx.trans (congrArg _ (if_neg ?_)), rfl⟩⟩
    rcases h with h | h <;> simp [h]
  case chain =>
    intro s bs ok
    have hx : exec (.ownerChainWrite bs) s = .next (doOwnerChainWrite bs s) := rfl
    have hok : (lookoutUp s && s.sec.life == .deployed && !sHas s.sec.badKeys 4 && Config.chainCertifies bs s.sec.owner) = true ↔ ok := by
      simp [ok, and_assoc]
    exact ⟨fun h => ⟨_, hx.trans (congrArg _ (if_pos (hok.2 h))), rfl⟩, fun h => ⟨_, hx.trans (congrArg _ (if_neg fun h' => h (hok.1 h'))), rfl⟩⟩
  case trng =>
    intro s
    exact ⟨⟨_, rfl, rfl⟩, _, rfl, rfl, rfl, List.length_append⟩
  case firmware =>
    intro s b w k hup hsmbus hbusy
    have hx : exec (.firmwareUpdate b w k) s = .next (doFirmwareUpdate b w k s) := rfl
    rw [doFirmwareUpdate_taken hup hsmbus hbusy] at hx
    obtain ⟨hcores, -, -, -, hrun, hnext, hrecovery, hnew, hold⟩ := putSlot_kept s (!s.sec.run) ⟨w, k, imageOk s 1 w && imageOk s 2 k⟩
    rw [Bool.not_not] at hold
    refine ⟨_, hx, ?_⟩
    dsimp only
    rw [hrecovery]
    split
    next => exact ⟨hnew, hold, hcores, hrun, rfl⟩
    next => exact ⟨hnew, hold, hcores, hrun, hnext⟩

end Sys2Proof.Machine
end

section
/-! PROOFS. Activation, fallback and the roll of the resident image (R524 to R528). -/

namespace Sys2Proof.Machine

/-! ### Activation -/

section
variable {s : State} {a : ActivateIn} (hphase : 3 ≤ s.cruise.phase.toNat)
include hphase

theorem exec_activate_waits (h : gapOpen s = true ∨ s.live.waiting ≠ []) : exec (.activateFirmware a) s = .next (waitActivation s a (now s)) := by
  have hx : exec (.activateFirmware a) s = .next (doActivateFirmware a s) := rfl
  rw [doActivateFirmware, if_neg hphase.not_gt] at hx
  exact hx.trans (congrArg _ (if_pos (by simpa using h)))

theorem exec_activate_decided (hgap : gapOpen s = false) (hnone : s.live.waiting = []) :
    exec (.activateFirmware a) s = .next (decideActivation s a (now s)) := by
  have hx : exec (.activateFirmware a) s = .next (doActivateFirmware a s) := rfl
  rw [doActivateFirmware, if_neg hphase.not_gt] at hx
  exact hx.trans (congrArg _ (if_neg (by simp [hgap, hnone])))

end

theorem decideActivation_refused {s : State} {a : ActivateIn} {n : Nat} (h : activateRefused s a = true) :
    decideActivation s a n = activateAnswer s sPERM := if_pos h

theorem decideActivation_waits {s : State} {a : ActivateIn} {n : Nat} (h : activateRefused s a = false)
    (hwait : exchanging s = true ∨ procedureRuns s = true) : decideActivation s a n = waitActivation s a n :=
  (if_neg (Bool.eq_false_iff.1 h)).trans (if_pos (Bool.or_eq_true_iff.2 hwait))

theorem decideActivation_runs {s : State} {a : ActivateIn} {n : Nat} (h : activateRefused s a = false)
    (hexchange : exchanging s = false) (hproc : procedureRuns s = false) : decideActivation s a n = handoff s a :=
  (if_neg (Bool.eq_false_iff.1 h)).trans (if_neg (by simp [hexchange, hproc]))

/-- A handoff: the other slot's Lookout runs, measured, and the gap is open. -/
theorem handoff_frame (s : State) (a : ActivateIn) :
    let t := handoff s a
    t.sec.run = !s.sec.run ∧ t.sec.life = s.sec.life ∧ t.live.fn = a.fn ∧ t.live.red = a.reduce ∧ t.cores = s.cores ∧ t.groves = s.groves ∧
    t.live.answers = s.live.answers ∧ gapOpen t = true ∧ t.sec.meas3 = imageDigest 2 (fwSlot s (!s.sec.run)).lookout ∧
    (t.live.roll = s.live.roll ∨ t.live.roll = workingGroves s) := by
  unfold handoff
  dsimp only
  refine ⟨rfl, rfl, rfl, rfl, rfl, rfl, rfl, rfl, rfl, ?_⟩
  split
  · exact .inr rfl
  · exact .inl rfl

/-! ### The roll -/

/-- A write where no chunk is poisoned. -/
theorem slWriteGo_clean (n : Nat) (sl : Slice) (a : Nat) (bs : List Byte) (e : Option Nat) (hfuel : a % 32 + bs.length ≤ 32 * n)
    (hbad : sl.bad = []) : (slWriteGo n sl a bs e).1.mem = wrBytes sl.mem a bs := by
  induction n generalizing sl a bs e with
  | zero =>
    obtain rfl : bs = [] := List.eq_nil_of_length_eq_zero (by omega)
    rfl
  | succ n ih =>
    cases bs with
    | nil => rfl
    | cons b r =>
      generalize hbs : b :: r = bs at *
      have hne : 0 < bs.length := by rw [← hbs]; exact Nat.zero_lt_succ _
      have hclean : sHas sl.bad (a / 32) = false := by rw [hbad]; rfl
      have hroom : (a + (32 - a % 32)) % 32 = 0 := by omega
      have hgo : slWriteGo (n + 1) sl a bs e = slWriteGo n
          { sl with mem := wrBytes sl.mem a (bs.take (32 - a % 32))
                    bad := if ((bs.take (32 - a % 32)).length == 32) = true then sDel sl.bad (a / 32) else sl.bad }
          (a + (32 - a % 32)) (bs.drop (32 - a % 32)) e := by
        rw [← hbs]
        simp [slWriteGo, hclean]
      rw [hgo, ih _ _ _ _ (by rw [hroom, List.length_drop]; omega) (by rw [hbad]; split <;> rfl), wrBytes_take_drop]

theorem slPut_clean {sl : Slice} {a : Nat} {bs : List Byte} (hbad : sl.bad = []) : (slPut sl a bs).mem = wrBytes sl.mem a bs :=
  slWriteGo_clean _ sl a bs none (by omega) hbad

/-- A core whose slice holds the resident image that a measurement names. -/
def residentCore (m : List Byte) (n : Nat) (k : Core) : Core :=
  { modSp k (fun sl => slPut sl 0 ((below n).map (Config.residentByte m))) with
    ht := (below 4096).foldl (fun t i => tput 0 t i (Config.residentHandler m i)) [] }

theorem writeResident_eq (s : State) (l : Lcid) : writeResident s l = modCore s l (residentCore s.sec.meas4 residentBytes) := by
  unfold writeResident residentCore
  rfl

theorem sec_modCore (s : State) (l : Lcid) (f : Core → Core) : (modCore s l f).sec = s.sec := rfl

theorem foldl_writeResident (ls : List Lcid) (s : State) :
    ls.foldl writeResident s = ls.foldl (fun t l => modCore t l (residentCore s.sec.meas4 residentBytes)) s := by
  induction ls generalizing s with
  | nil => rw [List.foldl_nil, List.foldl_nil]
  | cons l ls ih => rw [List.foldl_cons, List.foldl_cons, ih, writeResident_eq, sec_modCore]

theorem rdByte_residentCore {m : List Byte} {n : Nat} {k : Core} (hbad : k.sp.bad = []) {i : Nat} (hi : i < n) :
    rdByte (residentCore m n k).sp.mem i = Config.residentByte m i := by
  have h : (residentCore m n k).sp.mem = wrBytes k.sp.mem 0 ((below n).map (Config.residentByte m)) := by
    unfold residentCore modSp
    exact slPut_clean hbad
  have hlen : i < ((below n).map (Config.residentByte m)).length := by simpa [below, upto_eq_range'] using hi
  have hrd := rdByte_wrBytes_in k.sp.mem 0 ((below n).map (Config.residentByte m)) i hlen
  rw [Nat.zero_add] at hrd
  rw [h, hrd, List.getElem_map]
  simp [below, upto_eq_range']

theorem rollSeats_nodup (s : State) (dg : Dg) : (rollSeats s dg).Nodup := by
  refine List.Nodup.filter _ (List.Nodup.map_on (fun a ha b hb hab => ?_) (below_nodup 16))
  have h := congrArg BitVec.toNat hab
  rw [lcidOf, lcidOf, BitVec.toNat_ofNat, BitVec.toNat_ofNat] at h
  have ha := (mem_below _ _).1 ha
  have hb := (mem_below _ _).1 hb
  have hd := dg.isLt
  omega

theorem freeSeat_free {s : State} {l : Lcid} (h : allFree (getCore s l) = true) : freeSeat s l = s := by
  have hnone : (getCore s l).ctxs.filter (fun p => p.2.st ≠ .free && !p.2.freeing) = [] := by
    rw [List.filter_eq_nil_iff]
    intro p hp
    have hst := List.all_eq_true.1 h p hp
    simp [of_decide_eq_true hst]
  rw [freeSeat, hnone]
  rfl

theorem serviceCtxs_free {s : State} {l : Lcid} (h : allFree (getCore s l) = true) : serviceCtxs s l = [] := by
  have hnone : (getCore s l).ctxs.filter (fun p => p.2.st ≠ .free && !p.2.freeing && p.2.origin == 2) = [] := by
    rw [List.filter_eq_nil_iff]
    intro p hp
    have hst := List.all_eq_true.1 h p hp
    simp [of_decide_eq_true hst]
  rw [serviceCtxs, hnone]
  rfl

/-- Seats whose contexts are FREE already. -/
theorem foldl_freeSeat_free (ls : List Lcid) (s : State) (h : ∀ l ∈ ls, allFree (getCore s l) = true) : ls.foldl freeSeat s = s := by
  induction ls with
  | nil => rfl
  | cons l ls ih =>
    rw [List.foldl_cons, freeSeat_free (h l List.mem_cons_self)]
    exact ih fun j hj => h j (List.mem_cons_of_mem _ hj)

/-- The seats of a grove's roll written, its services started again, and the next grove due. -/
def rollEnded (s : State) (seats : List Lcid) (freed : List (Lcid × CtxNo)) : State :=
  let v := freed.foldl restartService (seats.foldl writeResident s)
  { v with live := { v.live with roll := v.live.roll.drop 1, freed := [], rolling := false } }

/-- A roll that begins or goes on: sweeps of the grove abandoned, its contexts freed. -/
def rollBegun (s : State) (dg : Dg) : State :=
  let w := (s.check.sweeps.filter fun w => psidDg w.psid == dg).foldl dropSweep s
  (rollSeats w dg).foldl freeSeat { w with live := { w.live with
    freed := w.live.freed ++ (rollSeats w dg).flatMap (serviceCtxs w), rolling := true } }

theorem exec_roll_nothing {s : State} {dg : Dg} (h : s.live.roll.head? ≠ some dg ∨ rollDeferred s dg = true ∨ gapOpen s = true) :
    exec (.residentImageRoll dg) s = .next s := by
  have hx : exec (.residentImageRoll dg) s = .next (doResidentImageRoll dg s) := rfl
  exact hx.trans (congrArg _ (if_pos h))

section
variable {s : State} {dg : Dg} (hhead : s.live.roll.head? = some dg) (hdeferred : rollDeferred s dg = false) (hgap : gapOpen s = false)
include hhead hdeferred hgap

/-- The roll of the next grove: what is written once all of it is quiet. -/
theorem exec_roll :
    let w := (s.check.sweeps.filter fun w => psidDg w.psid == dg).foldl dropSweep s
    exec (.residentImageRoll dg) s = .next (
      if (rollSeats w dg).all fun l => quietCore (getCore (rollBegun s dg) l) && allFree (getCore (rollBegun s dg) l) then
        rollEnded (rollBegun s dg) (rollSeats w dg) (w.live.freed ++ (rollSeats w dg).flatMap (serviceCtxs w))
      else rollBegun s dg) := by
  have hx : exec (.residentImageRoll dg) s = .next (doResidentImageRoll dg s) := rfl
  exact hx.trans (congrArg _ (if_neg (by simp [hhead, hdeferred, hgap])))

end

/-- A quiet grove of which nothing is left to free: its seats hold the image, and nothing else changes. -/
theorem rollEnded_quiet {s u : State} {dg : Dg} (hu : u = { s with live := u.live }) (hroll : u.live.roll = s.live.roll) :
    let t := rollEnded u (rollSeats s dg) []
    t.live.roll = s.live.roll.drop 1 ∧ stateRest { t with live := s.live } = stateRest s ∧
    (∀ l ∈ rollSeats s dg, ∀ i, i < 0x40000 → (getCore s l).sp.bad = [] → rdByte (getCore t l).sp.mem i = Config.residentByte s.sec.meas4 i) ∧
    ∀ l, l ∉ rollSeats s dg → getCore t l = getCore s l := by
  have hcore (l : Lcid) : getCore (rollEnded u (rollSeats s dg) []) l =
      if l ∈ rollSeats s dg then residentCore u.sec.meas4 residentBytes (getCore u l) else getCore u l := by
    rw [rollEnded, foldl_writeResident]
    exact getCore_foldl_modCore _ _ _ (rollSeats_nodup s dg) l
  obtain ⟨cs, hcs⟩ := foldl_modCore_rest (residentCore u.sec.meas4 residentBytes) (rollSeats s dg) u
  have hrest : rollEnded u (rollSeats s dg) [] =
      { u with cores := cs, live := { u.live with roll := u.live.roll.drop 1, freed := [], rolling := false } } := by
    rw [rollEnded, foldl_writeResident, List.foldl_nil, hcs]
  have hget (l : Lcid) : getCore u l = getCore s l := by
    rw [hu]
    rfl
  have hsec : u.sec = s.sec := by
    rw [hu]
  refine ⟨?_, ?_, fun l hl i hi hbad => ?_, fun l hl => ?_⟩
  · rw [hrest, ← hroll]
  · rw [hrest, hu]
    rfl
  · rw [hcore, if_pos hl, hsec, hget]
    exact rdByte_residentCore hbad hi
  · rw [hcore, if_neg hl, hget]

/-- Settles O54. -/
theorem liveService : Obligations.LiveService := by
  unfold Obligations.LiveService
  refine ⟨?activate, ?answered, ?exchange, ?fallback, ?roll⟩
  case activate =>
    intro s a hphase A
    refine ⟨fun h => ⟨_, exec_activate_waits hphase h, rfl⟩, fun hgap hnone => ?_⟩
    have hx := exec_activate_decided (a := a) hphase hgap hnone
    refine ⟨fun h => ⟨_, hx.trans (congrArg _ (decideActivation_refused h)), rfl⟩, fun h hwait =>
      ⟨_, hx.trans (congrArg _ (decideActivation_waits h hwait)), ?_⟩, fun h hexchange hproc =>
      ⟨_, hx.trans (congrArg _ (decideActivation_runs h hexchange hproc)), handoff_frame s a⟩⟩
    rw [waitActivation, hnone]
    rfl
  case answered =>
    intro s h hlast
    rw [activationStep, hlast]
    refine ⟨fun hdown htick => if_pos ?_, fun hor => if_neg ?_⟩
    · rw [hdown, decide_eq_true (show h.tick + gapSpan ≤ now s from htick)]
      rfl
    · rcases hor with hdown | htick
      · simp [hdown]
      · rw [decide_eq_false (show ¬ h.tick + gapSpan ≤ now s from htick.not_ge), Bool.and_false]
        exact Bool.false_ne_true
  case exchange =>
    intro s a n r hwaiting hexchange
    have hx : exec .activationExchangeTimeout s = .next (doActivationExchangeTimeout s) := rfl
    rw [doActivationExchangeTimeout, hwaiting] at hx
    exact ⟨fun h => ⟨_, hx.trans (congrArg _ (if_pos ⟨h, hexchange⟩)), rfl⟩,
      fun h => ⟨_, hx.trans (congrArg _ (if_neg fun h' => h.not_ge h'.1)), rfl⟩⟩
  case fallback =>
    intro s b
    have hx : exec (.handoffFallback b) s = .next (doHandoffFallback b s) := rfl
    refine ⟨fun hnone => ?_, fun h hlast => ?_⟩
    · rw [doHandoffFallback, hnone] at hx
      exact ⟨_, hx, rfl⟩
    rw [doHandoffFallback, hlast] at hx
    refine ⟨fun hor => ⟨_, hx.trans (congrArg _ (if_pos (by simpa using hor))), rfl⟩, fun hdown htick => ?_⟩
    have hx := hx.trans (congrArg _ (if_neg (by simpa [hdown] using htick)))
    refine ⟨?_, ?_⟩
    · rintro rfl
      exact ⟨_, hx, rfl, rfl, rfl, rfl, rfl, rfl, rfl, rfl, rfl, List.length_append⟩
    · rintro rfl
      exact ⟨_, hx, rfl⟩
  case roll =>
    intro s dg
    refine ⟨fun h => ⟨_, exec_roll_nothing h, rfl⟩, fun hhead hdeferred hgap => ?_, fun hhead hdeferred hgap hfreed hsweeps hquiet => ?_⟩
    · intro w seats freed u rest
      have hx := exec_roll hhead hdeferred hgap
      have hrest : (seats.all fun l => quietCore (getCore u l) && allFree (getCore u l)) = true ↔ rest := by
        rw [List.all_eq_true]
        simp only [Bool.and_eq_true]
        rfl
      exact ⟨fun h => ⟨_, hx.trans (congrArg _ (if_neg fun h' => h (hrest.1 h'))), rfl⟩,
        fun h => ⟨_, hx.trans (congrArg _ (if_pos (hrest.2 h))), rfl⟩⟩
    · have hx := exec_roll hhead hdeferred hgap
      have hnone : (s.check.sweeps.filter fun w => psidDg w.psid == dg) = [] := by
        rw [List.filter_eq_nil_iff]
        exact fun w hw h => hsweeps w hw (beq_iff_eq.1 h)
      have hservices : (rollSeats s dg).flatMap (serviceCtxs s) = [] :=
        List.flatMap_eq_nil_iff.2 fun l hl => serviceCtxs_free (hquiet l hl).2
      have hbegun : rollBegun s dg = { s with live := { s.live with freed := [], rolling := true } } := by
        rw [rollBegun, hnone, List.foldl_nil, hservices, hfreed, List.append_nil]
        exact foldl_freeSeat_free _ _ fun l hl => (hquiet l hl).2
      dsimp only at hx
      rw [hnone, List.foldl_nil, hservices, hfreed, List.append_nil, hbegun] at hx
      refine ⟨_, hx.trans (congrArg _ (if_pos ?_)), rollEnded_quiet rfl rfl⟩
      rw [List.all_eq_true]
      exact fun l hl => Bool.and_eq_true_iff.2 (hquiet l hl)

end Sys2Proof.Machine
end

section
/-! PROOFS. Dormant: requests and refusals, entry, wake (R444 to R449, R360). -/

namespace Sys2Proof.Machine

/-! ### The response of an accepted command -/

theorem mem_roomForToken {ts : List Token} {t : Token} (h : t ∈ roomForToken ts) : t ∈ ts := by
  unfold roomForToken at h
  split at h
  · exact h
  · split at h
    · exact List.mem_of_mem_eraseIdx h
    · exact h

theorem tokens_opened (s : State) (m : Mgmt) (opc : Nat) :
    (opened s m opc).errs.tokens =
      roomForToken ((s.errs.tokens.filter fun t => t.done.isNone || now s < t.tick + 24 * hour).filter fun t =>
        t.done.isNone || now s < t.tick + 24 * hour) ++
      [⟨m.step, BitVec.ofNat 8 opc, mgmtDigest m, none, now s, m.args, false, false⟩] := rfl

/-- The entry of a command that was accepted. -/
theorem tokenOf_opened {s : State} {m : Mgmt} {opc : Nat} {bad : Bool} (h : accepted s m opc bad) :
    tokenOf (opened s m opc) m.step = some ⟨m.step, BitVec.ofNat 8 opc, mgmtDigest m, none, now s, m.args, false, false⟩ := by
  obtain ⟨-, -, -, -, -, -, hfree⟩ := h
  rw [tokenOf, tokens_opened, firstThat_eq_find?, List.find?_append, List.find?_eq_none.2, Option.none_or]
  · exact List.find?_cons_of_pos (beq_self_eq_true m.step)
  · intro t ht hstep
    have ht := List.mem_of_mem_filter (mem_roomForToken ht)
    exact hfree t (List.mem_of_mem_filter ht) (beq_iff_eq.1 hstep)

theorem finishToken_some {s : State} {step : Word} {t : Token} (h : tokenOf s step = some t) (st : Status) (ws : List Word) :
    finishToken s step st ws = { s with errs := { s.errs with
      tokens := s.errs.tokens.map fun u => if u.step == step then { u with done := some ⟨step, st, 0, ws, t.digest⟩, tick := now s } else u
      answers := s.errs.answers ++ [⟨step, st, 0, ws, t.digest⟩] } } := by
  rw [finishToken, h]

/-- The body of an accepted command, which has left the error log as it found it, answers. -/
theorem responded_finishToken {s u : State} {m : Mgmt} {opc : Nat} {bad : Bool} (h : accepted s m opc bad)
    (hu : u.errs = (opened s m opc).errs) (st : Status) (ws : List Word) : responded s (finishToken u m.step st ws) m st ws := by
  have htoken : tokenOf u m.step = _ := (congrArg (fun e : Errs => firstThat (fun (t : Token) => t.step == m.step) e.tokens) hu).trans
    (tokenOf_opened h)
  rw [finishToken_some htoken, responded]
  dsimp only
  rw [hu]
  rfl

/-- What a finished command leaves: all but the error log. -/
theorem finishToken_rest (s : State) (step : Word) (st : Status) (ws : List Word) : ∃ e, finishToken s step st ws = { s with errs := e } := by
  unfold finishToken
  split
  · exact ⟨s.errs, rfl⟩
  · exact ⟨_, rfl⟩

theorem opened_rest (s : State) (m : Mgmt) (opc : Nat) : opened s m opc = { s with errs := (opened s m opc).errs } := rfl

/-- The entries in progress that stand in the table once a command is accepted: those before, and its own. -/
theorem any_tokens_opened (s : State) (m : Mgmt) (opc : Nat) {p : Token → Bool} (hdone : ∀ t, p t = true → t.done = none)
    (hown : p ⟨m.step, BitVec.ofNat 8 opc, mgmtDigest m, none, now s, m.args, false, false⟩ = false) :
    (opened s m opc).errs.tokens.any p = s.errs.tokens.any p := by
  have hfresh (l : List Token) : (l.filter fun t => t.done.isNone || now s < t.tick + 24 * hour).any p = l.any p := by
    rw [Bool.eq_iff_iff, List.any_eq_true, List.any_eq_true]
    refine ⟨fun ⟨t, ht, hp⟩ => ⟨t, List.mem_of_mem_filter ht, hp⟩, fun ⟨t, ht, hp⟩ => ⟨t, List.mem_filter.2 ⟨ht, ?_⟩, hp⟩⟩
    rw [hdone t hp]
    rfl
  have hroom (l : List Token) : (roomForToken l).any p = l.any p := by
    unfold roomForToken
    split
    · rfl
    · split
      next i hi =>
        obtain ⟨hlt, hat, -⟩ := List.findIdx?_eq_some_iff_getElem.1 hi
        have hnot : p l[i] = false := by
          rw [Bool.eq_false_iff]
          intro hp
          rw [hdone _ hp] at hat
          cases hat
        have hsplit : l.take i ++ l[i] :: l.drop (i + 1) = l := by rw [List.cons_getElem_drop_succ, List.take_append_drop]
        rw [List.eraseIdx_eq_take_drop_succ, ← congrArg (List.any · p) hsplit, List.any_append, List.any_append, List.any_cons, hnot, Bool.false_or]
      · rfl
  rw [tokens_opened, List.any_append, hroom, hfresh, hfresh, List.any_cons, hown, List.any_nil, Bool.or_false, Bool.or_false]

/-! ### The refusals -/

/-- What Table 16.5 asks of the state. -/
theorem dormFault_of_tokens (s : State) (d : Dorm) (e : Errs)
    (h : (e.tokens.any fun t => t.done.isNone && !t.left && t.opc == 9) = s.errs.tokens.any fun t => t.done.isNone && !t.left && t.opc == 9) :
    dormFault { s with dorm := d, errs := e } = dormFault s := by
  have hload : loadRuns { s with dorm := d, errs := e } = loadRuns s := rfl
  have hunsaved : unsaved { s with dorm := d, errs := e } = unsaved s := rfl
  have hservice : serviceRuns { s with dorm := d, errs := e } = serviceRuns s := by
    unfold serviceRuns
    dsimp only
    rw [h]
    rfl
  rw [dormFault, dormFault, hload, hunsaved, hservice]

theorem dormFault_opened (s : State) (m : Mgmt) (d : Dorm) : dormFault { opened s m 0x0B with dorm := d } = dormFault s := by
  refine dormFault_of_tokens s d (opened s m 0x0B).errs (any_tokens_opened s m 0x0B (fun t h => ?_) rfl)
  rw [Bool.and_eq_true, Bool.and_eq_true] at h
  exact Option.isNone_iff_eq_none.1 h.1.1

/-! ### HOLD_ALL -/

theorem ctrl_putFld_off (x : Word) : (putFld x 1 1 (bitAt false 0)).getLsbD 1 = false := by
  rw [putFld, BitVec.getLsbD_ofNat, Nat.testBit_eq_decide_div_mod_eq]
  simp only [fld, bitAt, Nat.shiftRight_eq_div_pow]
  rw [Bool.and_eq_false_iff]
  refine .inr (decide_eq_false ?_)
  simp
  omega

/-- A core of which HOLD_ALL is written 0. -/
theorem setCtrl_off (k : Core) : (setCtrl k (putFld k.ctrl 1 1 (bitAt false 0))).ctrl.getLsbD 1 = false ∧
    (setCtrl k (putFld k.ctrl 1 1 (bitAt false 0))).sp = k.sp := by
  rw [ctrl_setCtrl]
  refine ⟨ctrl_putFld_off _, ?_⟩
  unfold setCtrl
  dsimp only
  split_ifs <;> rfl

/-- HOLD_ALL written 0 in a list of cores. -/
theorem foldl_holdOff (ls : List Lcid) (s : State) :
    let t := ls.foldl (fun s l => setHoldAll s l false) s
    (∃ cs, t = { s with cores := cs } ∧ (ls = [] → cs = s.cores)) ∧ (∀ l, l ∉ ls → getCore t l = getCore s l) ∧
    (∀ l, (getCore t l).sp = (getCore s l).sp) ∧
    ∀ l, l ∈ ls ∨ (getCore s l).ctrl.getLsbD 1 = false → (getCore t l).ctrl.getLsbD 1 = false := by
  induction ls generalizing s with
  | nil => exact ⟨⟨s.cores, rfl, fun _ => rfl⟩, fun _ _ => rfl, fun _ => rfl, fun l h => h.resolve_left List.not_mem_nil⟩
  | cons j ls ih =>
    obtain ⟨⟨cs, hcs, -⟩, hother, hsp, hoff⟩ := ih (setHoldAll s j false)
    have hj : getCore (setHoldAll s j false) j = setCtrl (getCore s j) (putFld (getCore s j).ctrl 1 1 (bitAt false 0)) := getCore_modCore ..
    have hne (l : Lcid) (hl : l ≠ j) : getCore (setHoldAll s j false) l = getCore s l := getCore_modCore_other _ _ _ _ hl
    refine ⟨⟨cs, hcs, fun h => by cases h⟩, fun l hl => ?_, fun l => ?_, fun l hl => ?_⟩
    · rw [List.mem_cons, not_or] at hl
      exact (hother l hl.2).trans (hne l hl.1)
    · refine (hsp l).trans ?_
      by_cases h : l = j
      · rw [h, hj]
        exact (setCtrl_off _).2
      · rw [hne l h]
    · refine hoff l ?_
      by_cases h : l = j
      · rw [h, hj]
        exact .inr (setCtrl_off _).1
      · rw [hne l h]
        exact hl.imp_left fun hmem => (List.mem_cons.1 hmem).resolve_left h

/-- What entry has held, released: the cores whose HOLD_ALL entry has set, and no other. -/
theorem undoHolds_frame (s : State) :
    (∃ cs, undoHolds s = { s with cores := cs, dorm := { s.dorm with held := [] } } ∧ (s.dorm.held = [] → cs = s.cores)) ∧
    (∀ l, (∀ n ∈ s.dorm.held, BitVec.ofNat 12 n ≠ l) → getCore (undoHolds s) l = getCore s l) ∧
    ∀ l : Lcid, l.toNat ∈ s.dorm.held → (getCore (undoHolds s) l).ctrl.getLsbD 1 = false := by
  obtain ⟨⟨cs, hcs, hnone⟩, hother, -, hoff⟩ := foldl_holdOff (s.dorm.held.map (BitVec.ofNat 12)) s
  rw [List.foldl_map] at hcs hother hoff
  refine ⟨⟨cs, ?_, fun h => hnone (by rw [h]; rfl)⟩, fun l hl => hother l ?_, fun l hl => hoff l (.inl ?_)⟩
  · rw [undoHolds]
    dsimp only
    rw [hcs]
  · rw [List.mem_map]
    rintro ⟨n, hn, hnl⟩
    exact hl n hn hnl
  · rw [List.mem_map]
    exact ⟨_, hl, by rw [BitVec.ofNat_toNat, BitVec.setWidth_eq]⟩

/-- A refusal: recorded, and what entry has held released. -/
theorem refuseDormant_frame (s : State) (st : Status) :
    ∃ cs, refuseDormant s st = { s with cores := cs, dorm := { s.dorm with held := [], st := .active, refusal := st } } ∧
      (s.dorm.held = [] → cs = s.cores) := by
  obtain ⟨⟨cs, hcs, hnone⟩, -⟩ := undoHolds_frame s
  refine ⟨cs, ?_, hnone⟩
  rw [refuseDormant, hcs]

/-! ### Entry -/

theorem foldl_cores {α : Type} {f : State → α → State} (h : ∀ s a, ∃ cs, f s a = { s with cores := cs }) (as : List α) (s : State) :
    ∃ cs, as.foldl f s = { s with cores := cs } := by
  induction as generalizing s with
  | nil => exact ⟨s.cores, rfl⟩
  | cons a as ih =>
    obtain ⟨cs, hcs⟩ := h s a
    obtain ⟨cs', hcs'⟩ := ih (f s a)
    exact ⟨cs', by rw [List.foldl_cons, hcs', hcs]⟩

/-- HOLD_ALL set in every core, and what of it is noted. -/
theorem holdAllCores_frame (s : State) : ∃ cs held, holdAllCores s = { s with cores := cs, dorm := { s.dorm with held := held } } := by
  unfold holdAllCores
  generalize allCores s = ls
  induction ls generalizing s with
  | nil => exact ⟨s.cores, s.dorm.held, rfl⟩
  | cons l ls ih =>
    rw [List.foldl_cons]
    split
    · exact ih s
    · exact ih _

/-- A change of every stack of a list. -/
theorem foldl_modStack (f : Stack → Stack) (ns : List Nat) (s : State) :
    ∃ h, ns.foldl (fun s t => modStack s (BitVec.ofNat 2 t) f) s = { s with hbm := h } := by
  induction ns generalizing s with
  | nil => exact ⟨s.hbm, rfl⟩
  | cons n ns ih => exact ih _

theorem foldl_modStack_at {f : Stack → Stack} {p : Stack → Prop} (hf : ∀ k, p (f k)) (ns : List Nat) (s : State) (k : BitVec 2)
    (h : k.toNat ∈ ns ∨ p (getStack s k)) : p (getStack (ns.foldl (fun s t => modStack s (BitVec.ofNat 2 t) f) s) k) := by
  induction ns generalizing s with
  | nil => exact h.resolve_left List.not_mem_nil
  | cons n ns ih =>
    refine ih _ ?_
    by_cases hn : k = BitVec.ofNat 2 n
    · subst hn
      exact .inr ((getStack_modStack s _ f).symm ▸ hf _)
    · dsimp only
      rw [getStack_modStack_other _ _ _ _ hn]
      refine h.imp_left fun hmem => (List.mem_cons.1 hmem).resolve_left fun heq => hn ?_
      rw [← heq, BitVec.ofNat_toNat, BitVec.setWidth_eq]

theorem foldl_modStack_kept {β : Type} {f : Stack → Stack} {g : Stack → β} (hg : ∀ k, g (f k) = g k) (ns : List Nat) (s : State) (k : BitVec 2) :
    g (getStack (ns.foldl (fun s t => modStack s (BitVec.ofNat 2 t) f) s) k) = g (getStack s k) := by
  induction ns generalizing s with
  | nil => rfl
  | cons n ns ih =>
    refine (ih _).trans ?_
    by_cases hn : k = BitVec.ofNat 2 n
    · subst hn
      exact (congrArg g (getStack_modStack s _ f)).trans (hg _)
    · exact congrArg g (getStack_modStack_other _ _ _ _ hn)

theorem tget_foldl_clear (ns : List Nat) (t : Tbl (List Pkt)) (e : Nat) (h : e ∈ ns ∨ tget [] t e = []) :
    tget [] (ns.foldl (fun t e => tput [] t e []) t) e = [] := by
  induction ns generalizing t with
  | nil => exact h.resolve_left List.not_mem_nil
  | cons n ns ih =>
    refine ih _ ?_
    by_cases hn : e = n
    · exact .inr (by rw [hn, tget_tput_same])
    · rw [tget_tput_other _ _ _ _ _ hn]
      exact h.imp_left fun hmem => (List.mem_cons.1 hmem).resolve_left hn

/-- Table 16.6 steps 3 to 5. -/
theorem sleepNow_frame (s : State) :
    let t := sleepNow s
    t.dorm.st = .dormant ∧ t.dorm.slept = true ∧ t.dorm.portsIdle = true ∧ t.dorm.entries.toNat = min (s.dorm.entries.toNat + 1) 0xFFFF ∧
    ∀ k : BitVec 2, (getStack t k).selfRef = (getStack s k).trained ∧ tget [] t.landing k.toNat = [] := by
  have hsave := foldl_cores (f := saveCore) fun s l => ⟨_, rfl⟩
  have hdrop := foldl_cores (f := fun (s : State) (p : Nat × Nat × Ctx) => modCore s (BitVec.ofNat 12 p.1) fun k => { k with ctxs := [] })
    fun s p => ⟨_, rfl⟩
  obtain ⟨cs, hcs⟩ := hsave (allCores s) s
  have hself (k : BitVec 2) (u : State) (hu : u = { s with cores := cs }) :
      (getStack ((below 4).foldl (fun s t => modStack s (BitVec.ofNat 2 t) fun k => { k with selfRef := k.trained }) u) k).selfRef =
        (getStack s k).trained := by
    refine (foldl_modStack_at (f := fun k => { k with selfRef := k.trained }) (p := fun k => k.selfRef = k.trained) (fun _ => rfl) (below 4) u k
      (.inl ((mem_below _ _).2 k.isLt))).trans ?_
    refine (foldl_modStack_kept (f := fun k => { k with selfRef := k.trained }) (g := Stack.trained) (fun _ => rfl) (below 4) u k).trans ?_
    rw [hu]
    rfl
  obtain ⟨hb, hhb⟩ := foldl_modStack (fun k => { k with selfRef := k.trained }) (below 4) { s with cores := cs }
  have hself := fun k => hself k _ rfl
  rw [hhb] at hself
  choose ds hds using hdrop
  rw [sleepNow, hcs]
  dsimp only
  rw [hhb, hds]
  refine ⟨rfl, rfl, rfl, toNat_satAdd, fun k => ⟨hself k, ?_⟩⟩
  exact tget_foldl_clear _ _ _ (.inl ((mem_below _ _).2 k.isLt))

/-- Entry goes on. -/
theorem dormStep_entering {s : State} (hst : s.dorm.st = .entering) (hok : dormFault s = none) :
    dormStep s = if (below 17).any fun f => !(getFn s f).cmds.isEmpty then s
      else if allQuiet (holdAllCores s) then sleepNow (holdAllCores s) else holdAllCores s := by
  rw [dormStep, if_neg (not_not_intro hst), hok]

/-! ### Requests -/

theorem requestDormant_refused {s : State} {st : Status} (h : dormFault s = some st) : requestDormant s = (refuseDormant s st, st) := by
  rw [requestDormant, h]

/-- DEV_DORMANT_CTRL written whole by the Lookout, with REQ and the PCIe wake source. -/
theorem exec_dormant_reg {s : State} {v : Word} (hreq : v.getLsbD 63 = true) (hsource : v.getLsbD 33 = true) :
    exec (.dormant (.reg ⟨31, .full, v⟩)) s = .next (if s.dorm.st = .active then
      (requestDormant { s with dorm := { s.dorm with wakeEn := BitVec.ofNat 4 (fld v 32 4), timer := BitVec.ofNat 32 (fld v 0 32) } }).1
    else reject s 0 2 31 0x118) := by
  have hx : exec (.dormant (.reg ⟨31, .full, v⟩)) s = .next (doDormant (.reg ⟨31, .full, v⟩) s) := rfl
  rw [hx, doDormant]
  dsimp only
  have hreq' : bit (halfBits .full v) 63 = true := hreq
  have hmerge : mergeHalf .full (dormCtrl s) v = v := rfl
  rw [if_pos hreq', dormCtrlWrite]
  dsimp only
  rw [hreq', hmerge, show bit v 33 = true from hsource]
  refine congrArg Host.Outcome.next ((guardWrite_lookout_judged ..).trans ?_)
  rw [Bool.not_true, if_neg Bool.false_ne_true, Bool.false_or]
  by_cases h : s.dorm.st = .active
  · rw [if_pos h, h]
    rfl
  · rw [if_neg h, beq_false_of_ne h]
    rfl

/-- DORMANT by command: a refusal is its answer. -/
theorem exec_dormant_cmd {s : State} {m : Mgmt} (h : accepted s m 0x0B (dormArgsBad m.args)) (hactive : s.dorm.st = .active) {st : Status}
    (hfault : dormFault s = some st) :
    ∃ u : State, exec (.dormant (.cmd m)) s = .next (finishToken u m.step st []) ∧ u.errs = (opened s m 0x0B).errs ∧
      u.dorm.refusal = st ∧ u.dorm.st = .active := by
  have hx : exec (.dormant (.cmd m)) s = .next (doDormant (.cmd m) s) := rfl
  rw [doDormant] at hx
  dsimp only at hx
  rw [withToken_accepted _ _ _ _ _ h, if_neg (not_not_intro (show (opened s m 0x0B).dorm.st = .active from hactive)),
    requestDormant_refused (show dormFault { opened s m 0x0B with dorm := _ } = some st from (dormFault_opened s m _).trans hfault)] at hx
  refine ⟨_, hx, ?_⟩
  obtain ⟨cs, hcs, -⟩ := refuseDormant_frame { opened s m 0x0B with dorm := { (opened s m 0x0B).dorm with
    wakeEn := BitVec.ofNat 4 (fld (m.args.getD 1 0) 0 4), timer := BitVec.ofNat 32 (fld (m.args.getD 0 0) 0 32) } } st
  dsimp only
  rw [hcs]
  exact ⟨rfl, rfl, rfl⟩

/-! ### Wake -/

/-- From `s` to `t` the power state, the pins and the external memory are as before. -/
structure DormKept (s t : State) : Prop where
  dorm : t.dorm = s.dorm
  pins : t.pins = s.pins
  hbm : t.hbm = s.hbm

namespace DormKept

variable {s t u : State}

theorem refl (s : State) : DormKept s s := ⟨rfl, rfl, rfl⟩

theorem trans (h : DormKept s t) (h' : DormKept t u) : DormKept s u :=
  ⟨h'.dorm.trans h.dorm, h'.pins.trans h.pins, h'.hbm.trans h.hbm⟩

theorem modCore (s : State) (l : Lcid) (f : Core → Core) : DormKept s (modCore s l f) := ⟨rfl, rfl, rfl⟩

theorem ite {p : Prop} [Decidable p] (ht : DormKept s t) (hu : DormKept s u) : DormKept s (if p then t else u) := by
  split <;> assumption

theorem foldl {α : Type} {f : State → α → State} (hf : ∀ s a, DormKept s (f s a)) (as : List α) (s : State) : DormKept s (as.foldl f s) := by
  induction as generalizing s with
  | nil => exact refl s
  | cons a as ih => exact (hf s a).trans (ih _)

theorem sendCancel (s : State) (l : Lcid) (o : SyncOut) : DormKept s (sendCancel s l o) := by
  unfold Machine.sendCancel
  split
  · exact ⟨rfl, rfl, rfl⟩
  · exact refl s

theorem abandonSyncs (s : State) (l : Lcid) (c : CtxNo) : DormKept s (abandonSyncs s l c) := by
  unfold Machine.abandonSyncs
  exact (modCore ..).trans (foldl (fun s o => ite (sendCancel ..) (refl s)) _ _)

theorem abandonWait (s : State) (l : Lcid) (c : CtxNo) : DormKept s (abandonWait s l c) := by
  unfold Machine.abandonWait
  split
  · exact modCore ..
  · exact abandonSyncs ..
  · exact modCore ..
  · exact refl s

theorem programFault (s : State) (l : Lcid) (c : CtxNo) (cause : Status) (r0 detail : Word) : DormKept s (programFault s l c cause r0 detail) := by
  unfold Machine.programFault
  split
  · exact ⟨rfl, rfl, rfl⟩
  · exact modCore ..

theorem faultCtx (s : State) (l : Lcid) (c : CtxNo) (cause : Status) (imp : Bool) (unit : Nat) (pc : BitVec 21) (detail : Word) :
    DormKept s (faultCtx s l c cause imp unit pc detail) := by
  unfold Machine.faultCtx
  exact ite (refl s) (ite (modCore ..) (((abandonWait ..).trans (modCore ..)).trans (ite (modCore ..) (programFault ..))))

theorem slUpset (s : State) (l : Lcid) (u : Upset) : DormKept s (slUpset s l u) := by
  unfold Machine.slUpset
  exact ite (refl s) (ite ⟨rfl, rfl, rfl⟩ ⟨rfl, rfl, rfl⟩)

theorem wakeCtx (upsets : List (Lcid × Upset)) (s : State) (p : Nat × Nat × Ctx) : DormKept s (wakeCtx upsets s p) := by
  unfold Machine.wakeCtx
  dsimp only
  split
  · exact (modCore ..).trans (faultCtx ..)
  · exact modCore ..

end DormKept

theorem granWrite_selfRef (k : Stack) (t : BitVec 2) (off : Nat) (part : List (Byte × Bool)) : (granWrite k t off part).1.selfRef = k.selfRef := by
  unfold granWrite
  dsimp only
  split_ifs <;> rfl

theorem hbmStoreGo_selfRef (n : Nat) (s : State) (m off : Nat) (bs : List (Byte × Bool)) (e : Option Nat) :
    ∃ h, (hbmStoreGo n s m off bs e).1 = { s with hbm := h } ∧
      ∀ k, (getStack { s with hbm := h } k).selfRef = (getStack s k).selfRef := by
  induction n generalizing s off bs e with
  | zero => exact ⟨s.hbm, rfl, fun _ => rfl⟩
  | succ n ih =>
    cases bs with
    | nil => exact ⟨s.hbm, rfl, fun _ => rfl⟩
    | cons b bs =>
      generalize hbs : b :: bs = cs
      obtain ⟨h, hh, hself⟩ := ih (modStack s (hbmPlace s m off).1 fun _ =>
          (granWrite (getStack s (hbmPlace s m off).1) (hbmPlace s m off).1 (hbmPlace s m off).2 (cs.take (64 - off % 64))).1)
        (off + (64 - off % 64)) (cs.drop (64 - off % 64))
        (match e with
          | some x => some x
          | none => if (granWrite (getStack s (hbmPlace s m off).1) (hbmPlace s m off).1 (hbmPlace s m off).2 (cs.take (64 - off % 64))).2
            then some (off + ((cs.take (64 - off % 64)).findIdx? Prod.snd).getD 0) else none)
      refine ⟨h, ?_, fun k => ?_⟩
      · rw [← hbs] at hh ⊢
        exact hh
      · refine (hself k).trans ?_
        by_cases hk : k = (hbmPlace s m off).1
        · rw [hk, getStack_modStack, granWrite_selfRef]
        · rw [getStack_modStack_other _ _ _ _ hk]

/-- A window access leaves the power state and what the cores and groves are. -/
theorem windowAccess_kept (r : WinReq) (s : State) :
    let t := windowAccess r s
    t.dorm = s.dorm ∧ t.pins = s.pins ∧ t.cores = s.cores ∧ t.groves = s.groves ∧ ∀ k, (getStack t k).selfRef = (getStack s k).selfRef := by
  unfold windowAccess
  split
  · exact ⟨rfl, rfl, rfl, rfl, fun _ => rfl⟩
  · exact ⟨rfl, rfl, rfl, rfl, fun _ => rfl⟩
  next w p o _ _ =>
    obtain ⟨h, hh, hself⟩ := hbmStoreGo_selfRef (w.data.length / 64 + 2) s p.toNat o
      (w.data.zipIdx.map fun q => (q.1, sHas (if w.bad then below w.data.length else []) q.2)) none
    rw [show (hbmStore s p.toNat o w.data (if w.bad then below w.data.length else [])).1 = { s with hbm := h } from hh]
    exact ⟨rfl, rfl, rfl, rfl, hself⟩
  · split
    · exact ⟨rfl, rfl, rfl, rfl, fun _ => rfl⟩
    · exact ⟨rfl, rfl, rfl, rfl, fun _ => rfl⟩

theorem foldl_windowAccess_kept (rs : List WinReq) (s : State) :
    let t := rs.foldl (fun s r => windowAccess r s) s
    t.dorm = s.dorm ∧ t.pins = s.pins ∧ t.cores = s.cores ∧ t.groves = s.groves ∧ ∀ k, (getStack t k).selfRef = (getStack s k).selfRef := by
  induction rs generalizing s with
  | nil => exact ⟨rfl, rfl, rfl, rfl, fun _ => rfl⟩
  | cons r rs ih =>
    obtain ⟨hdorm, hpins, hcores, hgroves, hself⟩ := windowAccess_kept r s
    obtain ⟨hdorm', hpins', hcores', hgroves', hself'⟩ := ih (windowAccess r s)
    exact ⟨hdorm'.trans hdorm, hpins'.trans hpins, hcores'.trans hcores, hgroves'.trans hgroves, fun k => (hself' k).trans (hself k)⟩

/-- HOLD_ALL cleared in every occupied core. -/
theorem releaseAllCores_frame (s : State) :
    (∃ cs, releaseAllCores s = { s with cores := cs, dorm := { s.dorm with held := [] } }) ∧
    ∀ l, (getCore (releaseAllCores s) l).sp = (getCore s l).sp ∧
      (getCore (releaseAllCores s) l).ctrl.getLsbD 1 = ((getCore s l).ctrl.getLsbD 1 && !occupied s l) := by
  obtain ⟨⟨cs, hcs, -⟩, hother, hsp, hoff⟩ := foldl_holdOff (allCores s) s
  have hmem (l : Lcid) : l ∈ allCores s ↔ occupied s l = true := by
    rw [allCores, List.mem_filter, and_iff_right]
    exact List.mem_map.2 ⟨l.toNat, (mem_below _ _).2 l.isLt, by rw [BitVec.ofNat_toNat, BitVec.setWidth_eq]⟩
  refine ⟨⟨cs, ?_⟩, fun l => ⟨hsp l, ?_⟩⟩
  · rw [releaseAllCores]
    dsimp only
    rw [hcs]
  · cases hl : occupied s l
    · rw [Bool.not_false, Bool.and_true]
      exact congrArg (fun k : Core => k.ctrl.getLsbD 1) (hother l fun h => by
        rw [(hmem l).1 h] at hl
        cases hl)
    · rw [Bool.not_true, Bool.and_false]
      exact hoff l (.inl ((hmem l).2 hl))

/-- The saved contexts restored, all of them read whole: slices and CORE_CTRL are as before. -/
theorem foldl_wakeCtx_whole (ps : List (Nat × Nat × Ctx)) (s : State) :
    (∃ cs, ps.foldl (wakeCtx []) s = { s with cores := cs }) ∧
    ∀ l, (getCore (ps.foldl (wakeCtx []) s) l).sp = (getCore s l).sp ∧ (getCore (ps.foldl (wakeCtx []) s) l).ctrl = (getCore s l).ctrl := by
  induction ps generalizing s with
  | nil => exact ⟨⟨s.cores, rfl⟩, fun _ => ⟨rfl, rfl⟩⟩
  | cons p ps ih =>
    obtain ⟨⟨cs, hcs⟩, hcore⟩ := ih (wakeCtx [] s p)
    refine ⟨⟨cs, hcs⟩, fun l => ?_⟩
    obtain ⟨hsp, hctrl⟩ := hcore l
    have hstep : wakeCtx [] s p = modCore s (BitVec.ofNat 12 p.1) fun k => modCtx k (BitVec.ofNat 9 p.2.1) fun _ => p.2.2 := rfl
    rw [List.foldl_cons, hsp, hctrl, hstep]
    by_cases hl : l = BitVec.ofNat 12 p.1
    · rw [hl, getCore_modCore]
      exact ⟨rfl, rfl⟩
    · rw [getCore_modCore_other _ _ _ _ hl]
      exact ⟨rfl, rfl⟩

/-- The stacks out of self-refresh, the link out of L1, and the saved state taken (Table 16.7 steps 1 and 2). -/
def powered (s : State) : State :=
  let s := (below 4).foldl (fun s t => modStack s (BitVec.ofNat 2 t) fun k => { k with selfRef := false }) s
  let s := { s with host := { s.host with link := { s.host.link with inL1 := false } } }
  { s with dorm := { s.dorm with saved := [], dueTick := none } }

theorem powered_frame (s : State) :
    (∃ h, powered s = { s with hbm := h, host := { s.host with link := { s.host.link with inL1 := false } }, dorm := { s.dorm with saved := [], dueTick := none } }) ∧
    ∀ k, (getStack (powered s) k).selfRef = false := by
  obtain ⟨h, hh⟩ := foldl_modStack (fun k => { k with selfRef := false }) (below 4) s
  refine ⟨⟨h, ?_⟩, fun k => ?_⟩
  · rw [powered]
    dsimp only
    rw [hh]
  · exact foldl_modStack_at (f := fun k => { k with selfRef := false }) (p := fun k => k.selfRef = false) (fun _ => rfl) (below 4) s k
      (.inl ((mem_below _ _).2 k.isLt))

/-- The saved state read: what its reading meets, and its contexts. -/
def restored (ups : List (Lcid × Upset)) (saved : List (Nat × Nat × Ctx)) (s : State) : State :=
  saved.foldl (wakeCtx ups) (ups.foldl (fun s u => if occupied s u.1 then slUpset s u.1 u.2 else s) s)

theorem dormKept_restored (ups : List (Lcid × Upset)) (saved : List (Nat × Nat × Ctx)) (s : State) : DormKept s (restored ups saved s) :=
  (DormKept.foldl (fun s u => .ite (.slUpset s u.1 u.2) (.refl s)) ups s).trans (DormKept.foldl (DormKept.wakeCtx ups) saved _)

theorem serveWindow_kept (s : State) :
    let t := serveWindow s
    t.dorm = s.dorm ∧ t.pins = s.pins ∧ t.cores = s.cores ∧ t.groves = s.groves ∧ ∀ k, (getStack t k).selfRef = (getStack s k).selfRef :=
  foldl_windowAccess_kept s.host.winq { s with host := { s.host with winq := [] } }

/-- Table 16.7 steps 4 and 5: the holds released, and the device awake. -/
def awakened (us : Nat) (s : State) : State :=
  let s := setRails (releaseAllCores s) (railFor s)
  { s with
    quiets := s.quiets.map fun q => (q.1, q.2.1, { q.2.2 with quiet := now s })
    dorm := { s.dorm with st := .active, slept := false, portsIdle := false, lastUs := BitVec.ofNat 16 (min us 65535) }
    pins := { s.pins with wake := false } }

theorem toNat_lastUs (us : Nat) : (BitVec.ofNat 16 (min us 65535)).toNat = min us 65535 := by
  rw [BitVec.toNat_ofNat, Nat.mod_eq_of_lt]
  omega

theorem awakened_frame (us : Nat) (s : State) :
    let t := serveWindow (awakened us s)
    t.dorm.st = .active ∧ t.dorm.saved = s.dorm.saved ∧ t.pins.wake = false ∧ t.dorm.lastUs.toNat = min us 65535 ∧ t.groves = s.groves ∧
    (∀ k, (getStack t k).selfRef = (getStack s k).selfRef) ∧
    ∀ l, (getCore t l).sp = (getCore s l).sp ∧ (getCore t l).ctrl.getLsbD 1 = ((getCore s l).ctrl.getLsbD 1 && !occupied s l) := by
  obtain ⟨⟨cs, hcs⟩, hcore⟩ := releaseAllCores_frame s
  obtain ⟨hdorm, hpins, hcores, hgroves, hself⟩ := serveWindow_kept (awakened us s)
  have hcore' (l : Lcid) : getCore (serveWindow (awakened us s)) l = getCore (releaseAllCores s) l := getCore_of_cores hcores l
  refine ⟨?_, ?_, ?_, ?_, ?_, fun k => (hself k).trans ?_, fun l => ?_⟩
  · rw [hdorm]
    rfl
  · rw [hdorm, awakened, hcs]
    rfl
  · rw [hpins]
    rfl
  · rw [hdorm]
    exact toNat_lastUs us
  · rw [hgroves, awakened, hcs]
    rfl
  · rw [awakened, hcs]
    rfl
  · rw [hcore']
    exact hcore l

theorem doWakeFromDormant_slept {s : State} (us : Nat) (ups : List (Lcid × Upset)) (hst : s.dorm.st = .waking) (hslept : s.dorm.slept = true) :
    doWakeFromDormant us ups s = serveWindow (awakened us (restored ups s.dorm.saved (powered s))) := by
  obtain ⟨h, hh⟩ := foldl_modStack (fun k => { k with selfRef := false }) (below 4) s
  rw [doWakeFromDormant, if_neg (not_not_intro hst), hslept, if_neg (by decide), powered]
  dsimp only
  rw [hh]
  rfl

theorem doWakeFromDormant_entering {s : State} (us : Nat) (ups : List (Lcid × Upset)) (hst : s.dorm.st = .waking) (hslept : s.dorm.slept = false) :
    doWakeFromDormant us ups s = undoEntry us s := by
  rw [doWakeFromDormant, if_neg (not_not_intro hst), hslept]
  rfl

/-- Settles O55. -/
theorem dormantState : Obligations.DormantState := by
  unfold Obligations.DormantState
  refine ⟨?refused, ?taken, ?entry, ?command, ?rejected, ?quiet, ?timer, ?wake, ?asleep⟩
  case refused =>
    intro s v hactive hreq hsource st hfault
    have hx := (exec_dormant_reg (s := s) hreq hsource).trans (congrArg _ (if_pos hactive))
    rw [requestDormant_refused ((dormFault_of_tokens s _ s.errs rfl).trans hfault)] at hx
    obtain ⟨cs, hcs, hnone⟩ := refuseDormant_frame
      { s with dorm := { s.dorm with wakeEn := BitVec.ofNat 4 (fld v 32 4), timer := BitVec.ofNat 32 (fld v 0 32) } } st
    rw [hcs] at hx
    exact ⟨_, hx, rfl, rfl, rfl, BitVec.toNat_ofNat .. |>.trans (Nat.mod_eq_of_lt (fld_lt ..)), hnone, rfl⟩
  case taken =>
    intro s v hactive hreq hsource hfault u b
    have hx := (exec_dormant_reg (s := s) hreq hsource).trans (congrArg _ (if_pos hactive))
    rw [requestDormant, dormFault_of_tokens s _ s.errs rfl, hfault] at hx
    exact ⟨_, hx, rfl⟩
  case entry =>
    intro s hst hfault
    have hstep := dormStep_entering hst hfault
    refine ⟨fun ⟨f, hf, hcmds⟩ => hstep.trans (if_pos ?_), fun hnone hquiet => ?_⟩
    · exact List.any_eq_true.2 ⟨f, (mem_below _ _).2 hf, by simpa using hcmds⟩
    · have hidle : ¬((below 17).any fun f => !(getFn s f).cmds.isEmpty) = true := by
        rw [List.any_eq_true]
        rintro ⟨f, hf, hcmds⟩
        rw [hnone f ((mem_below _ _).1 hf)] at hcmds
        cases hcmds
      obtain ⟨cs, held, hheld⟩ := holdAllCores_frame s
      have hframe := sleepNow_frame (holdAllCores s)
      rw [hheld] at hframe
      intro t
      have ht : t = sleepNow (holdAllCores s) := hstep.trans ((if_neg hidle).trans (if_pos hquiet))
      rw [ht, hheld]
      exact hframe
  case command =>
    intro s m haccepted hactive st hfault
    obtain ⟨u, hx, herrs, hrefusal, hst⟩ := exec_dormant_cmd haccepted hactive hfault
    obtain ⟨e, he⟩ := finishToken_rest u m.step st []
    refine ⟨_, hx, responded_finishToken haccepted herrs st [], ?_, ?_⟩
    · rw [he]
      exact hrefusal
    · rw [he]
      exact hst
  case rejected =>
    intro s v hreq hsource hst
    exact ⟨_, (exec_dormant_reg hreq hsource).trans (congrArg _ (if_neg hst)), rfl⟩
  case quiet =>
    intro s hst hquiet
    have hx : exec .dormantQuietTimeout s = .next (doDormantQuietTimeout s) := rfl
    refine ⟨fun hlate => ?_, fun hearly => ⟨_, hx.trans (congrArg _ (if_neg fun h => hearly.not_ge h.2.1)), rfl⟩⟩
    obtain ⟨cs, hcs, -⟩ := refuseDormant_frame s sQTIMEOUT
    exact ⟨_, hx.trans (congrArg _ ((if_pos ⟨hst, hlate, hquiet⟩).trans hcs)), rfl, rfl, rfl⟩
  case timer =>
    intro s n hst hdue
    have hx : exec .dormantTimerExpiry s = .next (doDormantTimerExpiry s) := rfl
    rw [doDormantTimerExpiry, hdue] at hx
    have hfire (b : Bool) (hb : s.dorm.wakeEn.getLsbD 3 = b) :
        (((s.dorm.st == .dormant || s.dorm.st == .entering) && bit s.dorm.wakeEn 3) = true ↔ b = true) := by
      rw [hst, show bit s.dorm.wakeEn 3 = b from hb]
      simp
    refine ⟨fun hearly => ⟨_, hx.trans (congrArg _ (if_neg fun h => hearly.not_ge h.2)), rfl⟩, fun hlate hen => ?_, fun hlate hen => ?_⟩
    · exact ⟨_, hx.trans (congrArg _ ((if_pos ⟨hst, hlate⟩).trans (if_pos ((hfire _ hen).2 rfl)))), rfl, rfl, rfl, rfl⟩
    · exact ⟨_, hx.trans (congrArg _ ((if_pos ⟨hst, hlate⟩).trans (if_neg fun h => Bool.false_ne_true ((hfire _ hen).1 h)))), hst, rfl⟩
  case wake =>
    intro s us
    have hx (ups : List (Lcid × Upset)) : exec (.wakeFromDormant us ups) s = .next (doWakeFromDormant us ups s) := rfl
    obtain ⟨⟨hb, hpowered⟩, hself⟩ := powered_frame s
    refine ⟨fun ups hst => ⟨_, (hx ups).trans (congrArg _ (if_pos hst)), rfl⟩, fun ups hst hslept => ?_, fun ups hst hslept => ?_,
      fun hst hslept => ?_⟩
    · obtain ⟨⟨cs, hcs, -⟩, hother, hoff⟩ := undoHolds_frame s
      have hx := (hx ups).trans (congrArg _ (doWakeFromDormant_entering us ups hst hslept))
      rw [undoEntry] at hx
      refine ⟨_, hx, rfl, rfl, toNat_lastUs us, ?_, ?_, ?_, hother, hoff⟩
      all_goals
        rw [hcs]
    · have hx := (hx ups).trans (congrArg _ (doWakeFromDormant_slept us ups hst hslept))
      obtain ⟨hactive, hsaved, hpin, hlast, -, hstacks, -⟩ := awakened_frame us (restored ups s.dorm.saved (powered s))
      have hkept := dormKept_restored ups s.dorm.saved (powered s)
      refine ⟨_, hx, hactive, hsaved.trans ?_, hpin, hlast, fun k => (hstacks k).trans ?_⟩
      · rw [hkept.dorm, hpowered]
      · rw [getStack, hkept.hbm]
        exact hself k
    · have hx := (hx []).trans (congrArg _ (doWakeFromDormant_slept us [] hst hslept))
      obtain ⟨hactive, hsaved, hpin, hlast, hgroves, hstacks, hcore⟩ := awakened_frame us (restored [] s.dorm.saved (powered s))
      have hkept := dormKept_restored [] s.dorm.saved (powered s)
      obtain ⟨⟨cs, hcs⟩, hwhole⟩ := foldl_wakeCtx_whole s.dorm.saved (powered s)
      have hrestored : restored [] s.dorm.saved (powered s) = s.dorm.saved.foldl (wakeCtx []) (powered s) := rfl
      have hgroves' : (restored [] s.dorm.saved (powered s)).groves = s.groves := by rw [hrestored, hcs, hpowered]
      refine ⟨_, hx, hactive, hsaved.trans ?_, hpin, hlast, hgroves.trans hgroves', fun k => (hstacks k).trans ?_, fun l => ?_⟩
      · rw [hkept.dorm, hpowered]
      · rw [getStack, hkept.hbm]
        exact hself k
      · obtain ⟨hsp, hctrl⟩ := hcore l
        obtain ⟨hsp', hctrl'⟩ := hwhole l
        have hget : getCore (powered s) l = getCore s l := by rw [hpowered]; rfl
        have hocc : occupied (restored [] s.dorm.saved (powered s)) l = occupied s l := by
          rw [occupied, groveWorks, getGrove, hgroves']
          rfl
        rw [hget] at hsp' hctrl'
        rw [hrestored] at hsp hctrl hocc
        rw [hsp'] at hsp
        rw [hctrl', hocc] at hctrl
        exact ⟨hsp, hctrl⟩
  case asleep =>
    intro s l hasleep
    refine ⟨fun ups => ⟨_, rfl, if_pos (by rw [hasleep, Bool.or_true])⟩, fun d e => ⟨_, rfl, ?_⟩⟩
    beta_reduce
    rw [doChannelWordDeliver]
    split
    · exact if_pos (by rw [hasleep]; rfl)
    · rfl

end Sys2Proof.Machine
end

section
/-! PROOFS. What the maintenance of the device leaves: the twin mismatches (Table 19.10, R512), the fault manager's tokens, the blazed sites, what
the ports are. -/

namespace Sys2Proof.Machine

/-! ### The sites of a grove -/

/-- From `g` to `h` a grove's fuse is as before, and its blazed sites stay blazed. -/
structure SitesKept (g h : Grove) : Prop where
  fused : h.fused = g.fused
  blazed : ∀ n, (tget Site.zero g.sites n).blazed = true → (tget Site.zero h.sites n).blazed = true

namespace SitesKept

variable {g h k : Grove}

theorem of_eq (hfused : h.fused = g.fused) (hsites : h.sites = g.sites) : SitesKept g h := ⟨hfused, fun n hn => by rw [hsites]; exact hn⟩

theorem trans (h₁ : SitesKept g h) (h₂ : SitesKept h k) : SitesKept g k := ⟨h₂.fused.trans h₁.fused, fun n hn => h₂.blazed n (h₁.blazed n hn)⟩

theorem enterBuf (g : Grove) (q : InPkt) : SitesKept g (enterBuf g q) := by
  unfold Machine.enterBuf
  split <;> exact of_eq rfl rfl

theorem refill (g : Grove) : SitesKept g (refill g) := by
  have hfold (l : List InPkt) (g : Grove) : SitesKept g (l.foldl Machine.enterBuf g) := by
    induction l generalizing g with
    | nil => exact of_eq rfl rfl
    | cons q l ih => exact (enterBuf g q).trans (ih _)
  exact (of_eq rfl rfl : SitesKept g { g with wait := [] }).trans (hfold _ _)

theorem refillOf (hkept : SitesKept g h) : SitesKept g (Machine.refill h) := hkept.trans (refill h)

/-- A site written that is blazed if it was. -/
theorem site {n : Nat} {t : Site} (ht : (tget Site.zero g.sites n).blazed = true → t.blazed = true) :
    SitesKept g { g with sites := tput Site.zero g.sites n t } := by
  refine ⟨rfl, fun i hi => ?_⟩
  dsimp only
  by_cases h : i = n
  · subst h
    rw [tget_tput_same]
    exact ht hi
  · rw [tget_tput_other _ _ _ _ _ h]
    exact hi

/-- Positions seated anew. -/
theorem newSeats {p : Nat} {ns : List Nat} (h : newSeats g p ns = some k) : SitesKept g k := by
  have hseat {g k : Grove} {n : Nat} (h : newSeat g p n = some k) : SitesKept g k := by
    unfold newSeat at h
    split at h
    · cases h
    · dsimp only at h
      split at h
      · cases h
        exact of_eq rfl rfl
      · split at h <;>
        · cases h
          exact of_eq rfl rfl
  have hfold (ns : List Nat) (o : Option Grove) (hns : ns.foldl (fun o n => o.bind fun g => newSeat g p n) o = some k) :
      ∃ g, o = some g ∧ SitesKept g k := by
    induction ns generalizing o with
    | nil => exact ⟨k, hns, of_eq rfl rfl⟩
    | cons n ns ih =>
      obtain ⟨g, hg, hkept⟩ := ih _ hns
      obtain ⟨f, hf, hfg⟩ := Option.bind_eq_some_iff.1 hg
      exact ⟨f, hf, (hseat hfg).trans hkept⟩
  obtain ⟨f, hf, hkept⟩ := hfold ns (some g) h
  obtain rfl := Option.some.inj hf
  exact hkept

end SitesKept

/-! ### States -/

/-- From `s` to `t` the counted twin mismatches, and those that are unexplained, are as before; so are the fault manager's answers and tokens, the
assignment and the DID, the active bank and the state of every port. The sites that are blazed stay so. -/
structure MaintenanceKept (s t : State) : Prop where
  twins : t.check.twins = s.check.twins
  odd : t.check.odd = s.check.odd
  answers : t.errs.answers = s.errs.answers
  tokens : t.errs.tokens = s.errs.tokens
  assign : t.errs.assign = s.errs.assign
  did : t.did = s.did
  active : t.gf.active = s.gf.active
  port : ∀ k, (getPort t k).st = (getPort s k).st
  sites : ∀ dg, SitesKept (getGrove s dg) (getGrove t dg)

namespace MaintenanceKept

variable {s t u : State}

theorem refl (s : State) : MaintenanceKept s s := ⟨rfl, rfl, rfl, rfl, rfl, rfl, rfl, fun _ => rfl, fun _ => .of_eq rfl rfl⟩

theorem trans (h : MaintenanceKept s t) (h' : MaintenanceKept t u) : MaintenanceKept s u where
  twins := h'.twins.trans h.twins
  odd := h'.odd.trans h.odd
  answers := h'.answers.trans h.answers
  tokens := h'.tokens.trans h.tokens
  assign := h'.assign.trans h.assign
  did := h'.did.trans h.did
  active := h'.active.trans h.active
  port k := (h'.port k).trans (h.port k)
  sites dg := (h.sites dg).trans (h'.sites dg)

theorem of_groves (htwins : t.check.twins = s.check.twins) (hodd : t.check.odd = s.check.odd) (herrs : t.errs = s.errs) (hdid : t.did = s.did)
    (hgf : t.gf = s.gf) (hsites : ∀ dg, SitesKept (getGrove s dg) (getGrove t dg)) : MaintenanceKept s t :=
  ⟨htwins, hodd, congrArg Errs.answers herrs, congrArg Errs.tokens herrs, congrArg Errs.assign herrs, hdid, congrArg Gf.active hgf,
    fun k => by rw [getPort, getPort, hgf], hsites⟩

/-- What is kept, but for the sites that more may be blazed of. -/
def kept (s : State) : Check × List MgmtResp × List Token × Option Assign × Word × Bool × Tbl Port × Tbl Grove :=
  (s.check, s.errs.answers, s.errs.tokens, s.errs.assign, s.did, s.gf.active, s.gf.ports, s.groves)

theorem of_same (h : kept t = kept s) : MaintenanceKept s t := by
  simp only [kept, Prod.mk.injEq] at h
  obtain ⟨hcheck, hanswers, htokens, hassign, hdid, hactive, hports, hgroves⟩ := h
  refine ⟨congrArg Check.twins hcheck, congrArg Check.odd hcheck, hanswers, htokens, hassign, hdid, hactive, fun k => ?_, fun dg => ?_⟩
  · rw [getPort, getPort, hports]
  · rw [getGrove, getGrove, hgroves]
    exact .of_eq rfl rfl

theorem modCore (s : State) (l : Lcid) (f : Core → Core) : MaintenanceKept s (modCore s l f) := of_same rfl

theorem setGrove (s : State) (dg : Dg) (g : Grove) (hg : SitesKept (getGrove s dg) g) : MaintenanceKept s (setGrove s dg g) := by
  refine of_groves rfl rfl rfl rfl rfl fun d => ?_
  by_cases h : d = dg
  · subst h
    rw [getGrove_setGrove]
    exact hg
  · rw [getGrove_setGrove_other _ _ _ _ h]
    exact .of_eq rfl rfl

theorem modGrove (s : State) (dg : Dg) (f : Grove → Grove) (hf : ∀ g, SitesKept g (f g)) :
    MaintenanceKept s (modGrove s dg f) := setGrove s dg _ (hf _)

theorem raise (s : State) (r : Rpt) : MaintenanceKept s (raise s r) := of_same rfl

theorem ite {p : Prop} [Decidable p] (ht : MaintenanceKept s t) (hu : MaintenanceKept s u) : MaintenanceKept s (if p then t else u) := by
  split <;> assumption

theorem foldl {α : Type} {f : State → α → State} (hf : ∀ s a, MaintenanceKept s (f s a)) (as : List α) (s : State) : MaintenanceKept s (as.foldl f s) := by
  induction as generalizing s with
  | nil => exact refl s
  | cons a as ih => exact (hf s a).trans (ih _)

/-! ### Packets and answers -/

theorem injectAs (s : State) (dg : Dg) (port : Nat) (p : Pkt) (q : Nat) : MaintenanceKept s (injectAs s dg port p q) :=
  modGrove s dg _ fun g => .enterBuf g _

theorem inject (s : State) (dg : Dg) (port : Nat) (p : Pkt) : MaintenanceKept s (inject s dg port p) := by
  unfold Machine.inject
  refine (modGrove _ _ _ ?_).trans (injectAs ..)
  exact fun _ => .of_eq rfl rfl

theorem sendCancel (s : State) (l : Lcid) (o : SyncOut) : MaintenanceKept s (sendCancel s l o) := by
  unfold Machine.sendCancel
  split
  · exact inject ..
  · exact refl s

theorem unitCancel (s : State) (l : Lcid) (o : SyncOut) : MaintenanceKept s (unitCancel s l o) := by
  unfold Machine.unitCancel
  split
  · exact inject ..
  · exact refl s

theorem cancelAll (s : State) (l : Lcid) (gone : Bool) : MaintenanceKept s (cancelAll s l gone) := by
  unfold Machine.cancelAll
  exact (modCore ..).trans (foldl (fun s o => ite (unitCancel ..) (sendCancel ..)) _ _)

theorem sendLanding (s : State) (e : Nat) (p : Pkt) : MaintenanceKept s (sendLanding s e p) := by
  unfold Machine.sendLanding
  split
  · exact inject ..
  · exact refl s

theorem sendVia (s : State) (f : Side) (p : Pkt) : MaintenanceKept s (sendVia s f p) := by
  cases f with
  | pos l => exact inject ..
  | unit dg => exact inject ..
  | ep e => exact sendLanding ..

theorem sendFar (s : State) (f : Side) (p : Pkt) (d : Did) (src : Lcid) (dst : Option Lcid) : MaintenanceKept s (sendFar s f p d src dst) := by
  unfold Machine.sendFar
  split
  · split
    · exact of_same rfl
    · exact sendVia ..
  · exact refl s

theorem answerMsg (s : State) (f : Side) (m : Msg) (st : Status) (kind : Nat) : MaintenanceKept s (answerMsg s f m st kind) := by
  unfold Machine.answerMsg
  exact ite (sendFar ..) (ite (sendVia ..) (sendVia ..))

theorem reply (s : State) (f : Side) (req p : Pkt) : MaintenanceKept s (reply s f req p) := by
  unfold Machine.reply
  split
  · exact sendFar ..
  · exact ite (sendVia ..) (ite (sendVia ..) (sendVia ..))

theorem loseEntry (s : State) (l : Lcid) (w : Word) : MaintenanceKept s (loseEntry s l w) := of_same rfl

theorem postQ63 (s : State) (l : Lcid) (ws : List Word) : MaintenanceKept s (postQ63 s l ws) := by
  unfold Machine.postQ63
  dsimp only
  split
  · split
    · exact of_same rfl
    · exact loseEntry ..
  · exact loseEntry ..

theorem syncReady (s : State) (l : Lcid) (o : SyncOut) (f : Ctx → Ctx) : MaintenanceKept s (syncReady s l o f) := of_same rfl

theorem syncDone (s : State) (l : Lcid) (o : SyncOut) (st : Status) (v : Word) : MaintenanceKept s (syncDone s l o st v) := by
  unfold Machine.syncDone
  have hfailed : MaintenanceKept s (if (st == sOK || st == sRETRIED) then s else syncFailed s l st o.name) := ite (refl s) (postQ63 ..)
  exact ite (hfailed.trans (syncReady ..)) (ite (hfailed.trans (syncReady ..)) hfailed)

theorem endWaiters (s : State) (dg : Dg) (f : Side) (st : Status) : MaintenanceKept s (endWaiters s dg f st) := by
  unfold Machine.endWaiters
  refine (modGrove _ _ _ ?_).trans (foldl (fun s w => ?_) _ _)
  · exact fun _ => .of_eq rfl rfl
  · split
    · exact reply ..
    · dsimp only
      split
      · split
        · exact modCore ..
        · exact (modCore ..).trans (syncDone ..)
      · exact refl s

theorem serveWaiters (s : State) (dg : Dg) (ix : Nat) : MaintenanceKept s (serveWaiters s dg ix) := by
  unfold Machine.serveWaiters
  refine (setGrove _ _ _ ?_).trans (foldl (fun s w => reply ..) _ _)
  exact .of_eq rfl rfl

/-! ### Reductions -/

theorem disarm (s : State) (name : Word) : MaintenanceKept s (disarm s name) := of_same rfl

theorem dropRedPkts (s : State) (name : Word) : MaintenanceKept s (dropRedPkts s name) := by
  refine of_groves rfl rfl rfl rfl rfl fun dg => ?_
  unfold Machine.dropRedPkts
  dsimp only [getGrove]
  rw [tget_tmap]
  · refine .refillOf ?_
    exact .of_eq rfl rfl
  · rfl

theorem advanceAnchor (s : State) (r : Red) : MaintenanceKept s (advanceAnchor s r) := by
  unfold Machine.advanceAnchor
  refine (modGrove _ _ _ ?_).trans (serveWaiters ..)
  exact fun _ => .of_eq rfl rfl

theorem abortRed (s : State) (r : Red) : MaintenanceKept s (abortRed s r) := by
  unfold Machine.abortRed
  have hrecord : MaintenanceKept s (if occupied s (redDest r) then Machine.modCore s (redDest r) fun k => modSp k fun sl =>
      slPutWords sl (fld (redWord r 2) 0 21) (redRecord r sVACANT) else s) := ite (modCore ..) (refl s)
  refine (((hrecord.trans (modGrove _ _ _ ?_)).trans (dropRedPkts ..)).trans (advanceAnchor ..)).trans (disarm ..)
  exact fun _ => .of_eq rfl rfl

theorem redVacant (s : State) (l : Lcid) : MaintenanceKept s (redVacant s l) := foldl abortRed _ s

theorem redRootLost (s : State) (dg : Dg) : MaintenanceKept s (redRootLost s dg) :=
  foldl (fun s r => (dropRedPkts s (redAnchor r)).trans (disarm _ _)) _ s

theorem setRed (s : State) (r : Red) : MaintenanceKept s (setRed s r) := of_same rfl

theorem sendMember (s : State) (name : Word) (l : Lcid) : MaintenanceKept s (sendMember s name l) := by
  unfold Machine.sendMember
  split
  · exact refl s
  · exact ite ((setRed ..).trans (inject ..)) (refl s)

theorem restartRed (s : State) (r : Red) : MaintenanceKept s (restartRed s r) := by
  unfold Machine.restartRed
  refine (((dropRedPkts ..).trans (modGrove _ _ _ ?_)).trans (setRed ..)).trans (foldl (fun s l => (sendMember ..).trans (sendMember ..)) _ _)
  exact fun _ => .of_eq rfl rfl

theorem redRouterLost (s : State) (dg : Dg) (names : List Word) : MaintenanceKept s (redRouterLost s dg names) := foldl restartRed _ s

/-! ### Positions, sites and routers -/

theorem programFault (s : State) (l : Lcid) (c : CtxNo) (cause : Status) (r0 detail : Word) : MaintenanceKept s (programFault s l c cause r0 detail) := by
  unfold Machine.programFault
  split <;> exact of_same rfl

theorem tellLost (l : Lcid) (s : State) (c : CtxNo) : MaintenanceKept s (tellLost l s c) := by
  unfold Machine.tellLost
  exact ite (refl s) (ite (programFault ..) (raise ..))

theorem replayCore (s : State) (l : Lcid) (psid : BitVec 24) (adopted : Bool) : MaintenanceKept s (replayCore s l psid adopted) := by
  unfold Machine.replayCore
  exact ((((cancelAll ..).trans (modCore ..)).trans (modCore ..)).trans (foldl (tellLost l) _ _)).trans (modCore ..)

theorem replaySame (s : State) (l : Lcid) : MaintenanceKept s (replaySame s l) := by
  unfold Machine.replaySame
  exact ite (refl s) ((replayCore ..).trans (raise ..))

theorem breakChannel (s : State) (l : Lcid) (d : Nat) : MaintenanceKept s (breakChannel s l d) := by
  unfold Machine.breakChannel
  dsimp only
  split
  · exact refl s
  · exact of_same rfl

theorem breakChannels (s : State) (ends : Lcid → Bool) (crosses : Dg → Bool) : MaintenanceKept s (breakChannels s ends crosses) := by
  unfold Machine.breakChannels
  refine foldl (fun s p => foldl (fun s d => ?_) _ s) _ s
  dsimp only
  split
  · exact ite (breakChannel ..) (refl s)
  · exact refl s

theorem discardCore (s : State) (l : Lcid) (gone : Bool) : MaintenanceKept s (discardCore s l gone) := by
  unfold Machine.discardCore
  exact (cancelAll ..).trans (modCore ..)

theorem vacate (s : State) (l : Lcid) (psid : BitVec 24) : MaintenanceKept s (vacate s l psid) := by
  unfold Machine.vacate
  refine (((((discardCore ..).trans (modGrove _ _ _ ?_)).trans (foldl (fun s m => answerMsg ..) _ _)).trans (breakChannels ..)).trans
    (redVacant ..)).trans (raise ..)
  exact fun _ => .of_eq rfl rfl

theorem dropSweep (s : State) (w : Sweep) : MaintenanceKept s (dropSweep s w) := by
  unfold Machine.dropSweep
  dsimp only
  split <;> exact of_groves rfl rfl rfl rfl rfl fun _ => .of_eq rfl rfl

theorem dropSweeps (s : State) (dg : Dg) (ns : List Nat) : MaintenanceKept s (dropSweeps s dg ns) := foldl dropSweep _ s

theorem restGrove (s : State) (dg : Dg) : MaintenanceKept s (restGrove s dg) := of_same rfl

theorem reseat (s : State) (l : Lcid) (ns : List Nat) (psid : BitVec 24) : MaintenanceKept s (reseat s l ns psid) := by
  unfold Machine.reseat
  split
  next g hseats =>
    exact ((((setGrove s _ g (.newSeats hseats)).trans (dropSweeps ..)).trans (restGrove ..)).trans (replayCore ..)).trans (raise ..)
  · exact vacate ..

theorem enterBlaze (s : State) (psid : BitVec 24) : MaintenanceKept s (enterBlaze s psid) := by
  unfold Machine.enterBlaze
  exact ite (refl s) (of_same rfl)

theorem markBlazed (dg : Dg) (s : State) (n : Nat) : MaintenanceKept s (markBlazed dg s n) := by
  unfold Machine.markBlazed Machine.modSite
  exact (modGrove s dg _ fun _ => .site fun _ => rfl).trans (enterBlaze ..)

theorem remap (s : State) (dg : Dg) : MaintenanceKept s (remap s dg) := modGrove _ _ _ fun _ => .of_eq rfl rfl

theorem blazeSites (s : State) (dg : Dg) (sites : List Nat) : MaintenanceKept s (blazeSites s dg sites) := by
  unfold Machine.blazeSites
  have h := fun ns (seats : List Nat) (g : Nat → List Nat) (p : Nat → BitVec 24) =>
    (foldl (markBlazed dg) ns s).trans (foldl (fun s n => reseat s (lcidOf dg n) (g n) (p n)) seats _)
  exact ite (h _ _ _ _) ((h _ _ _ _).trans (remap ..))

theorem spendSites (s : State) (dg : Dg) (sites : List Nat) : MaintenanceKept s (spendSites s dg sites) := by
  unfold Machine.spendSites
  exact (foldl (fun s n => raise ..) _ s).trans (blazeSites ..)

theorem modSite (s : State) (dg : Dg) (n : Nat) (f : Site → Site) (hf : ∀ t, (f t).blazed = t.blazed) :
    MaintenanceKept s (modSite s dg n f) :=
  modGrove s dg _ fun _ => .site fun h => (hf _).trans h

theorem substitute (s : State) (psid : BitVec 24) (most : Nat) (get : Site → List Nat) {put : Site → List Nat → Site}
    (hput : ∀ t l, (put t l).blazed = t.blazed) : MaintenanceKept s (substitute s psid most get put) := by
  unfold Machine.substitute
  refine ite (refl s) (ite (spendSites ..) ?_)
  have h : MaintenanceKept s (Machine.raise (Machine.modSite s (BitVec.ofNat 8 (fld psid 16 8)) (fld psid 11 5) fun t =>
      put t (get t ++ [fld psid 0 8])) (repairRpt sOK 1 2 psid)) :=
    (modSite _ _ _ _ fun t => hput t _).trans (raise ..)
  dsimp only
  split
  · exact ite (h.trans (replaySame ..)) h
  · exact h

theorem substColumn (s : State) (psid : BitVec 24) : MaintenanceKept s (substColumn s psid) := substitute s psid _ _ fun _ _ => rfl

theorem substLane (s : State) (psid : BitVec 24) : MaintenanceKept s (substLane s psid) := substitute s psid _ _ fun _ _ => rfl

theorem blazeSite (s : State) (dg : Dg) (n : Nat) : MaintenanceKept s (blazeSite s dg n) := blazeSites ..

theorem actSite (s : State) (e : Ev) : MaintenanceKept s (actSite s e).1 := by
  cases e with
  | accWord p => exact blazeSite ..
  | internal p => exact blazeSite ..
  | column p => exact substColumn ..
  | lane p => exact substLane ..
  | _ => exact refl s

theorem markServed (s : State) (dg : Dg) (f : Ev × Word) (action : Nat) : MaintenanceKept s (markServed s dg f action) := of_same rfl

theorem serveEarlier (s : State) (dg : Dg) : MaintenanceKept s (serveEarlier s dg) := by
  unfold Machine.serveEarlier
  exact foldl (fun (s : State) (f : Ev × Word) => (actSite s f.1).trans (markServed ..)) _ s

theorem dropPkts (s : State) (r : Dg) : MaintenanceKept s (dropPkts s r) := by
  unfold Machine.dropPkts
  refine foldl (fun s _ => modGrove s _ _ fun _ => .refillOf ?_) _ s
  exact .of_eq rfl rfl

theorem rebuildDetours (s : State) : MaintenanceKept s (rebuildDetours s) := by
  unfold Machine.rebuildDetours
  refine foldl (fun s _ => modGrove _ _ _ ?_) _ s
  exact fun _ => .of_eq rfl rfl

theorem landAs (s : State) (e : Nat) (p : Pkt) : MaintenanceKept s (landAs s e p) := by
  unfold Machine.landAs
  split
  · exact injectAs ..
  · exact refl s

theorem routerAway (s : State) (dg : Dg) {off : Grove → Grove} (hoff : ∀ g, SitesKept g (off g)) {mid : State → State} (hmid : ∀ s, MaintenanceKept s (mid s)) :
    MaintenanceKept s (routerAway s dg off mid) := by
  unfold Machine.routerAway
  have h := (((((((modGrove s dg off hoff).trans (dropPkts _ dg)).trans (hmid _)).trans (rebuildDetours ..)).trans
    (redRouterLost _ dg (lostReds s dg))).trans (foldl (fun s p => landAs s p.sep p) (landingWait (getGrove s dg)) _)).trans
    (foldl remap (((below 256).map (BitVec.ofNat 8)).filter fun a => remapped s dg a || a == dg) _))
  exact h.trans (of_same rfl)

theorem blazeRouter (s : State) (dg : Dg) (site : Nat) : MaintenanceKept s (blazeRouter s dg site) := by
  unfold Machine.blazeRouter
  refine ite (refl s) ?_
  refine (((((enterBlaze ..).trans (endWaiters ..)).trans (foldl (fun s n => discardCore ..) _ _)).trans (redRootLost ..)).trans
    (routerAway _ dg ?_ fun s => (breakChannels ..).trans (foldl (fun s n => redVacant ..) _ _))).trans (raise ..)
  exact fun _ => .of_eq rfl rfl

theorem blazeUnit (s : State) (psid : BitVec 24) : MaintenanceKept s (blazeUnit s psid) := by
  unfold Machine.blazeUnit
  exact ite ((serveEarlier ..).trans (spendSites ..)) (blazeRouter ..)

theorem badReducer (s : State) (psid : BitVec 24) : MaintenanceKept s (badReducer s psid) := by
  unfold Machine.badReducer
  refine ite (refl s) ((modSite _ _ _ _ ?_).trans (raise ..))
  exact fun _ => rfl

/-! ### Kernels -/

theorem kernAcc (p : BitVec 24) (s : State) (a : KernelAcc) : MaintenanceKept s (kernAcc p s a) := by
  unfold Machine.kernAcc
  exact ite (of_same rfl) (of_same rfl)

theorem countFail (s : State) (dg : Dg) : MaintenanceKept s (countFail s dg) := by
  have h : MaintenanceKept s { s with check := { s.check with fails := BitVec.ofNat 16 (satAdd 16 s.check.fails.toNat 1) } } :=
    of_groves rfl rfl rfl rfl rfl fun _ => .of_eq rfl rfl
  unfold Machine.countFail
  refine h.trans (modGrove _ _ _ ?_)
  exact fun _ => .of_eq rfl rfl

theorem kernReport (s : State) (r : KernelRun) (attempt : Nat) (words : List Word) : MaintenanceKept s (kernReport s r attempt words) := by
  unfold Machine.kernReport
  exact (countFail ..).trans (raise ..)

theorem runKernel (s : State) (r : KernelRun) : MaintenanceKept s (runKernel s r) := by
  unfold Machine.runKernel
  have haccs : MaintenanceKept s (if kernFam r.kernel = 1 then r.accs.foldl (Machine.kernAcc r.psid) s else s) := ite (foldl (kernAcc r.psid) _ s) (refl s)
  exact ite (ite ((haccs.trans (kernReport ..)).trans (kernReport ..)) (haccs.trans (kernReport ..))) haccs

theorem countRun (s : State) (dg : Dg) : MaintenanceKept s (countRun s dg) := by
  have h : MaintenanceKept s { s with check := { s.check with runs := BitVec.ofNat 16 (satAdd 16 s.check.runs.toNat 1) } } :=
    of_groves rfl rfl rfl rfl rfl fun _ => .of_eq rfl rfl
  unfold Machine.countRun
  refine h.trans (modGrove _ _ _ ?_)
  exact fun _ => .of_eq rfl rfl

theorem countRuns (s : State) (units : List (BitVec 24)) : MaintenanceKept s (countRuns s units) :=
  foldl (fun s p => countRun s (psidDg p)) _ s

end MaintenanceKept

end Sys2Proof.Machine
end

section
/-! PROOFS. Sweeps, CHECK and Twin (R455, R497 to R506, R511, R512, R521). -/

namespace Sys2Proof.Machine

/-! ### Kernels that pass -/

theorem mem_insBy {α : Type} {f : α → Nat} {a b : α} {l : List α} (h : b ∈ insBy f a l) : b = a ∨ b ∈ l := by
  induction l with
  | nil => exact .inl (List.mem_singleton.1 h)
  | cons c l ih =>
    rw [insBy] at h
    split at h
    · rcases List.mem_cons.1 h with rfl | h
      · exact .inr List.mem_cons_self
      · exact (ih h).imp_right (List.mem_cons_of_mem _)
    · exact List.mem_cons.1 h

theorem mem_sortBy {α : Type} {f : α → Nat} {b : α} {l : List α} (h : b ∈ sortBy f l) : b ∈ l := by
  have hfold (l r : List α) (h : b ∈ l.foldl (fun r a => insBy f a r) r) : b ∈ l ∨ b ∈ r := by
    induction l generalizing r with
    | nil => exact .inr h
    | cons a l ih =>
      rcases ih _ h with h | h
      · exact .inl (List.mem_cons_of_mem _ h)
      · exact (mem_insBy h).imp_left fun heq => List.mem_cons.2 (.inl heq)
  exact (hfold l [] h).resolve_right List.not_mem_nil

theorem mem_inOrder {r : KernelRun} {runs : List KernelRun} (h : r ∈ inOrder runs) : r ∈ runs := List.mem_of_mem_filter (mem_sortBy h)

/-- A run that passes and meets no accumulator error. -/
def Passes (s : State) (r : KernelRun) : Prop := kernFails s r = false ∧ r.accs = []

theorem runKernel_passes {s : State} {r : KernelRun} (h : Passes s r) : runKernel s r = s := by
  obtain ⟨hpass, haccs⟩ := h
  rw [runKernel, haccs, List.foldl_nil, ite_self]
  exact if_neg (Bool.eq_false_iff.1 hpass)

theorem foldl_runKernel_passes {s : State} {runs : List KernelRun} (h : ∀ r ∈ runs, Passes s r) : runs.foldl runKernel s = s := by
  induction runs with
  | nil => rfl
  | cons r rs ih =>
    rw [List.foldl_cons, runKernel_passes (h r List.mem_cons_self)]
    exact ih fun q hq => h q (List.mem_cons_of_mem _ hq)

/-- Sweeps counted: the runs of the Stand, and those of each grove. -/
structure Counted (s t : State) : Prop where
  eq : ∃ n gs, t = { s with check := { s.check with runs := n }, groves := gs }
  grove : ∀ d, ∃ w, getGrove t d = { getGrove s d with check := w }

namespace Counted

variable {s t u : State}

theorem refl (s : State) : Counted s s := ⟨⟨s.check.runs, s.groves, rfl⟩, fun d => ⟨(getGrove s d).check, rfl⟩⟩

theorem trans (h : Counted s t) (h' : Counted t u) : Counted s u := by
  obtain ⟨n, gs, ht⟩ := h.eq
  obtain ⟨n', gs', hu⟩ := h'.eq
  refine ⟨⟨n', gs', by rw [hu, ht]⟩, fun d => ?_⟩
  obtain ⟨w, hw⟩ := h.grove d
  obtain ⟨w', hw'⟩ := h'.grove d
  exact ⟨w', by rw [hw', hw]⟩

theorem countRun (s : State) (dg : Dg) : Counted s (countRun s dg) := by
  refine ⟨⟨_, _, rfl⟩, fun d => ?_⟩
  unfold Machine.countRun
  by_cases h : d = dg
  · subst h
    exact ⟨_, getGrove_modGrove ..⟩
  · exact ⟨(getGrove s d).check, getGrove_modGrove_other _ _ _ _ h⟩

theorem countRuns (s : State) (units : List (BitVec 24)) : Counted s (countRuns s units) := by
  unfold Machine.countRuns
  generalize units.filter isSite = l
  induction l generalizing s with
  | nil => exact refl s
  | cons p l ih => exact (countRun s _).trans (ih _)

theorem spentParts (h : Counted s t) (p : BitVec 24) : spentParts t p = spentParts s p := by
  obtain ⟨w, hw⟩ := h.grove (psidDg p)
  rw [Machine.spentParts, hw]
  rfl

theorem occupied (h : Counted s t) (l : Lcid) : occupied t l = occupied s l := by
  obtain ⟨w, hw⟩ := h.grove (dgOf l)
  rw [Machine.occupied, groveWorks, hw]
  rfl

theorem getCore (h : Counted s t) (l : Lcid) : getCore t l = getCore s l := by
  obtain ⟨n, gs, ht⟩ := h.eq
  rw [ht]
  rfl

end Counted

/-- Units whose kernels all pass: their sweeps are counted, and no more. -/
theorem testUnits_passes {s : State} {runs : List KernelRun} (units : List (BitVec 24)) (h : ∀ r ∈ runs, Passes s r) :
    testUnits s units runs = (countRuns s units, ⟨units, [], []⟩) := by
  have hcounted := Counted.countRuns s units
  have hmine (r : KernelRun) (hr : r ∈ inOrder (runs.filter fun r => units.contains (unitOf r.psid))) : Passes s r :=
    h r (List.mem_of_mem_filter (mem_inOrder hr))
  have hruns : (inOrder (runs.filter fun r => units.contains (unitOf r.psid))).foldl runKernel (countRuns s units) = countRuns s units := by
    refine foldl_runKernel_passes fun r hr => ?_
    obtain ⟨n, gs, ht⟩ := hcounted.eq
    rw [ht]
    exact hmine r hr
  have hagain : (inOrder (runs.filter fun r => units.contains (unitOf r.psid))).filter (kernFailsAgain s) = [] := by
    rw [List.filter_eq_nil_iff]
    intro r hr
    rw [kernFailsAgain, (hmine r hr).1]
    exact Bool.false_ne_true
  have hfailed : (units.filter fun u => (inOrder (runs.filter fun r => units.contains (unitOf r.psid))).any fun r =>
      unitOf r.psid == u && kernFails s r) = [] := by
    rw [List.filter_eq_nil_iff]
    intro u _ hu
    obtain ⟨r, hr, hfail⟩ := List.any_eq_true.1 hu
    rw [(hmine r hr).1, Bool.and_false] at hfail
    cases hfail
  have hacted : (units.filter fun u => decide (spentParts s u < spentParts (countRuns s units) u)) = [] := by
    rw [List.filter_eq_nil_iff]
    intro u _ hu
    rw [hcounted.spentParts] at hu
    exact Nat.lt_irrefl _ (of_decide_eq_true hu)
  have hact : actKernels (countRuns s units) [] = countRuns s units := rfl
  rw [testUnits, hruns, hagain, hact, hfailed, hacted]

/-! ### Scheduled sweeps -/

section
variable {s : State} {p : BitVec 24} {runs : List KernelRun}

theorem exec_kakSweep_held {h : CheckHold} (hh : firstThat (fun (h : CheckHold) => h.psid == p && holdQuiet s h) s.check.hold = some h) :
    exec (.kakSweep p runs) s = .next (endHeld s h runs) := by
  have hx : exec (.kakSweep p runs) s = .next (doKakSweep p runs s) := rfl
  rwa [doKakSweep, hh] at hx

theorem exec_kakSweep (hno : ∀ h ∈ s.check.hold, h.psid ≠ p ∨ holdQuiet s h = false) :
    exec (.kakSweep p runs) s = .next (if s.check.owed.contains (unitOf p) then endOwed s p runs
      else if s.check.period = 0 || dormBusy s || gapOpen s || underSweep s (unitOf p) || !unitIdle s p then s else beginSweep s p runs) := by
  have hx : exec (.kakSweep p runs) s = .next (doKakSweep p runs s) := rfl
  have hnone : firstThat (fun (h : CheckHold) => h.psid == p && holdQuiet s h) s.check.hold = none := by
    rw [firstThat_eq_find?, List.find?_eq_none]
    intro h hh hcond
    rw [Bool.and_eq_true, beq_iff_eq] at hcond
    rcases hno h hh with hne | hquiet
    · exact hne hcond.1
    · rw [hquiet] at hcond
      exact Bool.false_ne_true hcond.2
  rwa [doKakSweep, hnone] at hx

end

theorem recHold_recoveryHold (k : Core) : (recoveryHold k).recHold = true := rfl

/-- A scheduled sweep begins: what it holds, and what it notes. -/
theorem beginSweep_frame (s : State) (p : BitVec 24) (runs : List KernelRun) :
    ∃ w : Sweep, (beginSweep s p runs).check.sweeps = s.check.sweeps ++ [w] ∧ w.psid = unitOf p ∧ w.tick = now s ∧
      w.runs = inOrder (runs.filter fun r => unitOf r.psid == unitOf p) ∧ (isSite (unitOf p) = true → w.seat = sweepSeat s (unitOf p)) ∧
      (∀ l, w.held = some l → (getCore (beginSweep s p runs) l).recHold = true) ∧
      (w.held = none → (beginSweep s p runs).cores = s.cores) ∧ (beginSweep s p runs).check.runs = s.check.runs ∧
      (beginSweep s p runs).errs.reports = s.errs.reports := by
  rw [beginSweep]
  dsimp only
  generalize hheld : (if spareSite s (psidDg (unitOf p)) (psidSite (unitOf p)) then if isSite (unitOf p) then sweepSeat s (unitOf p) else none
    else none) = held
  cases held with
  | none => exact ⟨_, rfl, rfl, rfl, rfl, fun h => if_pos h, fun l hl => (by cases hl), fun _ => rfl, rfl, rfl⟩
  | some l =>
    refine ⟨_, rfl, rfl, rfl, rfl, fun h => if_pos h, fun j hj => ?_, fun hl => (by cases hl), rfl, rfl⟩
    obtain rfl := Option.some.inj hj
    exact congrArg Core.recHold (getCore_modCore s l recoveryHold)

/-- A site's sweep that ends with all its kernels passed: its window is left zero, and the sweep is counted. -/
theorem endSweep_passes {s : State} {w : Sweep} (hsite : isSite w.psid = true) (hheld : w.held = none)
    (hblazed : (tget Site.zero (getGrove s (psidDg w.psid)).sites (psidSite w.psid)).blazed = false) (hpass : ∀ r ∈ w.runs, Passes s r) :
    endSweep s w = countRun (zeroWindow { s with check := { s.check with sweeps := s.check.sweeps.erase w } } w.seat) (psidDg w.psid) := by
  have hdrop : dropSweep s w = { s with check := { s.check with sweeps := s.check.sweeps.erase w } } := by rw [dropSweep, hheld]
  have hpass' (t : State) (ht : t = { s with check := { s.check with sweeps := s.check.sweeps.erase w } }) (r : KernelRun) (hr : r ∈ w.runs) :
      Passes (zeroWindow t w.seat) r := by
    rw [ht]
    unfold zeroWindow
    split
    · exact hpass r hr
    · exact hpass r hr
  rw [endSweep, hdrop]
  refine (if_neg ?_).trans ?_
  · rw [Bool.and_eq_true, hsite]
    exact fun h => Bool.false_ne_true (hblazed.symm.trans h.2)
  · rw [sweep, testUnits_passes _ (hpass' _ rfl), countRuns, List.filter_cons_of_pos hsite]
    rfl

/-- The window that a sweep leaves zero, in a slice without poison. -/
theorem rdByte_zeroWindow {s : State} {l : Lcid} (hbad : (getCore s l).sp.bad = []) {i : Nat} (hlo : 0x1F0000 ≤ i) (hhi : i < 0x200000) :
    rdByte (getCore (zeroWindow s (some l)) l).sp.mem i = 0 := by
  have hwindow (n : Nat) (bs : List Byte) (hbs : bs = List.replicate n 0) (hn : i < 0x1F0000 + n) :
      rdByte (slPut (getCore s l).sp 0x1F0000 bs).mem i = 0 := by
    obtain ⟨j, rfl⟩ := Nat.exists_eq_add_of_le hlo
    have hj : j < bs.length := by
      rw [hbs, List.length_replicate]
      omega
    rw [slPut_clean hbad, rdByte_wrBytes_in _ _ _ _ hj]
    subst hbs
    exact List.getElem_replicate ..
  rw [zeroWindow, getCore_modCore]
  exact hwindow 0x10000 _ rfl (by omega)

/-! ### CHECK -/

section
variable {s : State} {m : Mgmt} {runs : List KernelRun} {segs : List SegmentRun} (haccepted : accepted s m 5 (checkBad m.args))
include haccepted

theorem exec_mgmtCheck : exec (.mgmtCheck m runs segs) s = .next (runCheck (opened s m 5) ⟨m.step, m.args, runs, segs⟩) := by
  have hx : exec (.mgmtCheck m runs segs) s = .next (doMgmtCheck m runs segs s) := rfl
  rwa [doMgmtCheck, withToken_accepted _ _ _ _ _ haccepted] at hx

end

/-- KIND, SCOPE and the target of a CHECK. -/
def checkKind (c : CheckWait) : Nat := fld (c.args.getD 0 0) 0 2
def checkScope (c : CheckWait) : Nat := fld (c.args.getD 0 0) 8 2
def checkPsid (c : CheckWait) : BitVec 24 := BitVec.ofNat 24 (fld (c.args.getD 1 0) 0 24)

/-- The Sounding that a CHECK asks for, with the segments of its target. -/
def soundOf (s : State) (c : CheckWait) : Sound :=
  ⟨checkScope c, checkPsid c, c.step, now s,
    c.segs.filter fun r => soundsOver ⟨checkScope c, checkPsid c, c.step, now s, [], true, [], []⟩ r.psid, true, [], []⟩

section
variable {s : State} {c : CheckWait}

theorem runCheck_gone (h : checkGone s (checkScope c) (checkPsid c) = true) : runCheck s c = finishToken s c.step sBOUNDS [] := if_pos h

variable (hthere : checkGone s (checkScope c) (checkPsid c) = false)
include hthere

theorem runCheck_perm (h : checkPerm s (checkKind c) (checkScope c) (checkPsid c) = true) : runCheck s c = finishToken s c.step sPERM [] :=
  (if_neg (Bool.eq_false_iff.1 hthere)).trans (if_pos h)

variable (hmay : checkPerm s (checkKind c) (checkScope c) (checkPsid c) = false)
include hmay

theorem runCheck_waits (h : checkSwept s (checkScope c) (checkPsid c) = true) :
    runCheck s c = { s with check := { s.check with waits := s.check.waits ++ [c] } } :=
  (if_neg (Bool.eq_false_iff.1 hthere)).trans ((if_neg (Bool.eq_false_iff.1 hmay)).trans (if_pos h))

variable (hfree : checkSwept s (checkScope c) (checkPsid c) = false)
include hfree

theorem runCheck_sound (h : checkKind c = 1) : runCheck s c = startSound s (soundOf s c) :=
  (if_neg (Bool.eq_false_iff.1 hthere)).trans ((if_neg (Bool.eq_false_iff.1 hmay)).trans ((if_neg (Bool.eq_false_iff.1 hfree)).trans (if_pos h)))

theorem runCheck_soundWaits (h : checkKind c = 1) (hwait : soundWaits s (soundOf s c) = true) :
    runCheck s c = { s with check := { s.check with sounding := s.check.sounding ++ [{ soundOf s c with runs := false }] } } :=
  (runCheck_sound hthere hmay hfree h).trans (if_pos hwait)

theorem runCheck_soundBegins (h : checkKind c = 1) (hwait : soundWaits s (soundOf s c) = false) : runCheck s c = beginSound s (soundOf s c) :=
  (runCheck_sound hthere hmay hfree h).trans (if_neg (Bool.eq_false_iff.1 hwait))

theorem runCheck_known (h : checkKind c = 0) :
    runCheck s c =
      let q := testUnits s (freeUnits s (checkScope c) (checkPsid c)) c.runs
      heldRun c.runs (checkSeats s (checkScope c) (checkPsid c)) ⟨[], checkPsid c, c.step, now s, q.2⟩ q.1 :=
  (if_neg (Bool.eq_false_iff.1 hthere)).trans ((if_neg (Bool.eq_false_iff.1 hmay)).trans ((if_neg (Bool.eq_false_iff.1 hfree)).trans
    (if_neg fun h1 => absurd (h.symm.trans h1) (by decide))))

end

/-- What a refused CHECK leaves. -/
theorem refused_check {s : State} {m : Mgmt} {bad : Bool} (h : accepted s m 5 bad) (st : Status) (ws : List Word) {u : State}
    (herrs : u.errs = (opened s m 5).errs) (hcores : u.cores = s.cores) :
    responded s (finishToken u m.step st ws) m st ws ∧ (finishToken u m.step st ws).cores = s.cores := by
  obtain ⟨e, he⟩ := finishToken_rest u m.step st ws
  refine ⟨responded_finishToken h herrs st ws, ?_⟩
  rw [he]
  exact hcores

theorem tallyWord_passed (units : List (BitVec 24)) : tallyWord ⟨units, [], []⟩ = BitVec.ofNat 64 (units.length % 65536 * 2 ^ 32) := by
  simp only [tallyWord, checkResult, List.length_nil, Nat.zero_mod, Nat.zero_mul, Nat.add_zero]
  rfl

/-- A checking hold that begins at a position which is not quiet. -/
theorem heldRun_waits {s : State} {runs : List KernelRun} {l : Lcid} {rest : List Lcid} (h : CheckHold) (hocc : occupied s l = true)
    (hbusy : quietCore (recoveryHold (getCore s l)) = false) :
    heldRun runs (l :: rest) h s = { modCore s l recoveryHold with check := { s.check with
      hold := s.check.hold ++ [{ h with lcids := l :: rest, tick := now s }] } } := by
  rw [heldRun, hocc]
  refine (if_neg (by decide)).trans (if_neg ?_)
  have hquiet : holdQuiet (modCore s l recoveryHold) { h with lcids := l :: rest, tick := now s } = quietCore (getCore (modCore s l recoveryHold) l) := rfl
  rw [show now (modCore s l recoveryHold) = now s from rfl, hquiet, getCore_modCore, hbusy]
  exact Bool.false_ne_true

theorem occupied_of_mem_checkSeats {s : State} {scope : Nat} {p : BitVec 24} {l : Lcid} (h : l ∈ checkSeats s scope p) : occupied s l = true := by
  unfold checkSeats at h
  exact (Bool.and_eq_true_iff.1 (List.mem_filter.1 h).2).1

/-! ### Checking holds that time out -/

theorem releaseHold_frame (s : State) (h : CheckHold) :
    ∃ cs, releaseHold s h = { s with cores := cs, check := { s.check with hold := s.check.hold.erase h } } := by
  rw [releaseHold]
  dsimp only
  split
  · unfold releasePos
    split
    · exact ⟨s.cores, rfl⟩
    · exact ⟨_, rfl⟩
  · exact ⟨s.cores, rfl⟩

theorem exec_holdTimeout {s : State} {l : Lcid} {h : CheckHold}
    (hh : firstThat (fun (h : CheckHold) => h.lcids.head? == some l && !holdQuiet s h && decide (h.tick + 100001 ≤ now s)) s.check.hold = some h) :
    exec (.checkingHoldTimeout l) s = .next (finishToken (releaseHold s h) h.step sQTIMEOUT [tallyWord h.tally]) := by
  have hx : exec (.checkingHoldTimeout l) s = .next (doCheckingHoldTimeout l s) := rfl
  rwa [doCheckingHoldTimeout, hh] at hx

theorem exec_holdTimeout_none {s : State} {l : Lcid}
    (hh : firstThat (fun (h : CheckHold) => h.lcids.head? == some l && !holdQuiet s h && decide (h.tick + 100001 ≤ now s)) s.check.hold = none) :
    exec (.checkingHoldTimeout l) s = .next s := by
  have hx : exec (.checkingHoldTimeout l) s = .next (doCheckingHoldTimeout l s) := rfl
  rwa [doCheckingHoldTimeout, hh] at hx

/-! ### Twin mismatches -/

theorem exec_twinMismatch_none {s : State} {l : Lcid} {runs : List KernelRun} (hawake : asleep s = false) (h : twinSite s l = none) :
    exec (.twinMismatch l runs) s = .next s := by
  refine exec_awake hawake rfl ?_
  rw [doTwinMismatch, h]

/-- The pair of a position's site and its twin. -/
def twinPair (s : State) (l : Lcid) (n : Nat) : BitVec 24 × BitVec 24 := (psidOf (dgOf l) (siteNo s l) 7 0xFF, psidOf (dgOf l) n 7 0xFF)

/-- The mismatch withheld, and both sites' sweeps counted. -/
def mismatched (s : State) (l : Lcid) (n : Nat) : State := countRuns (withhold s l n) [(twinPair s l n).1, (twinPair s l n).2]

theorem mismatched_frame (s : State) (l : Lcid) (n : Nat) :
    (mismatched s l n).check.twins.toNat = min (s.check.twins.toNat + 1) 0xFFFF ∧ (mismatched s l n).check.odd = s.check.odd ∧
    getCore (mismatched s l n) l = recoveryHold (getCore s l) ∧ (mismatched s l n).errs.reports.length = s.errs.reports.length + 1 ∧
    now (mismatched s l n) = now s := by
  have hcounted := Counted.countRuns (withhold s l n) [(twinPair s l n).1, (twinPair s l n).2]
  obtain ⟨k, gs, heq⟩ := hcounted.eq
  have heq : mismatched s l n = _ := heq
  refine ⟨?_, ?_, (hcounted.getCore l).trans (getCore_modCore (countTwin s (dgOf l)) l recoveryHold), ?_, ?_⟩
  · rw [heq]
    exact toNat_satAdd
  · rw [heq]
    rfl
  · rw [heq]
    exact List.length_append
  · rw [heq]
    rfl

/-- The list of unexplained mismatches once one of `pair` stands beside it. -/
theorem oddTwin_before {s : State} {l : Lcid} {pair : BitVec 24 × BitVec 24} (h : ∃ q ∈ s.check.odd, q.1 = pair ∧ now s < q.2 + hour) :
    ∃ u, oddTwin s l pair = blazeUnit u pair.2 ∧ u.cores = s.cores ∧ u.check.twins = s.check.twins ∧ ∀ q ∈ u.check.odd, q.1 ≠ pair := by
  obtain ⟨q, hmem, hpair, hfresh⟩ := h
  have hbefore : (s.check.odd.any fun p => p.1 == pair && decide (now s < p.2 + hour)) = true :=
    List.any_eq_true.2 ⟨q, hmem, Bool.and_eq_true_iff.2 ⟨beq_iff_eq.2 hpair, decide_eq_true hfresh⟩⟩
  rw [oddTwin]
  dsimp only
  rw [hbefore]
  refine ⟨_, if_pos rfl, rfl, rfl, fun p hp heq => ?_⟩
  obtain ⟨_, hkeep⟩ := List.mem_filter.1 ((List.mem_append.1 hp).resolve_right List.not_mem_nil)
  rw [heq, beq_self_eq_true] at hkeep
  exact Bool.false_ne_true ((Bool.and_false _).symm.trans hkeep)

theorem oddTwin_first {s : State} {l : Lcid} {pair : BitVec 24 × BitVec 24} (h : ∀ q ∈ s.check.odd, q.1 ≠ pair ∨ q.2 + hour ≤ now s) :
    ∃ u, oddTwin s l pair = replaySame u l ∧ u.cores = s.cores ∧ u.errs = s.errs ∧ u.check.twins = s.check.twins ∧
      (pair, now s) ∈ u.check.odd := by
  have hbefore : (s.check.odd.any fun p => p.1 == pair && decide (now s < p.2 + hour)) = false := by
    rw [List.any_eq_false]
    intro q hmem hq
    obtain ⟨hpair, hfresh⟩ := Bool.and_eq_true_iff.1 hq
    exact (h q hmem).elim (fun hne => hne (beq_iff_eq.1 hpair)) (Nat.not_le.2 (of_decide_eq_true hfresh))
  rw [oddTwin]
  dsimp only
  rw [hbefore]
  exact ⟨_, if_neg Bool.false_ne_true, rfl, rfl, rfl, List.mem_append.2 (.inr (List.mem_singleton.2 rfl))⟩

theorem oddTwin_twins (s : State) (l : Lcid) (pair : BitVec 24 × BitVec 24) : (oddTwin s l pair).check.twins = s.check.twins := by
  by_cases h : ∃ q ∈ s.check.odd, q.1 = pair ∧ now s < q.2 + hour
  · obtain ⟨u, hu, _, htwins, _⟩ := oddTwin_before (l := l) h
    rw [hu, (MaintenanceKept.blazeUnit u pair.2).twins, htwins]
  · obtain ⟨u, hu, _, _, htwins, _⟩ := oddTwin_first (l := l) fun q hq =>
      (Decidable.em (q.1 = pair)).elim (fun he => .inr (Nat.not_lt.1 fun hlt => h ⟨q, hq, he, hlt⟩)) .inl
    rw [hu, (MaintenanceKept.replaySame u l).twins, htwins]

/-- What the sweeps of a pair of sites lead to, once their mismatch is counted. -/
def sweptTwins (l : Lcid) (runs : List KernelRun) (pair : BitVec 24 × BitVec 24) (u : State) : State :=
  let units := [pair.1, pair.2]
  let mine := inOrder (runs.filter fun r => units.contains (unitOf r.psid))
  let t := mine.foldl runKernel u
  let red := mine.filter fun r => kernFam r.kernel == 3 && kernFailsAgain t r
  let t := red.foldl (fun s r => badReducer s r.psid) t
  match badSites t units mine with
  | [] => if red.isEmpty then oddTwin t l pair else replaySame t l
  | ns => spendSites (serveEarlier t (dgOf l)) (dgOf l) ns

theorem sweptTwins_twins (l : Lcid) (runs : List KernelRun) (pair : BitVec 24 × BitVec 24) (u : State) :
    (sweptTwins l runs pair u).check.twins = u.check.twins := by
  have hruns (u : State) (qs : List KernelRun) : MaintenanceKept u (qs.foldl runKernel u) := .foldl .runKernel qs u
  have hred (u : State) (qs : List KernelRun) : MaintenanceKept u (qs.foldl (fun s r => badReducer s r.psid) u) := by
    refine MaintenanceKept.foldl ?_ qs u
    exact fun u r => MaintenanceKept.badReducer u r.psid
  rw [sweptTwins]
  generalize inOrder (runs.filter fun r => [pair.1, pair.2].contains (unitOf r.psid)) = mine
  generalize hred' : mine.filter (fun r => kernFam r.kernel == 3 && kernFailsAgain (mine.foldl runKernel u) r) = red
  have hkept := (hruns u mine).trans (hred (mine.foldl runKernel u) red)
  rw [← hkept.twins]
  split
  · split
    · exact oddTwin_twins ..
    · exact (MaintenanceKept.replaySame ..).twins
  · exact ((MaintenanceKept.serveEarlier ..).trans (.spendSites ..)).twins

section
variable {s : State} {l : Lcid} {n : Nat} (hawake : asleep s = false) (htwin : twinSite s l = some n) (hocc : occupied s l = true)
include hawake htwin hocc

/-- A mismatch that the sweeps do not explain. -/
theorem exec_twinMismatch_odd : exec (.twinMismatch l []) s = .next (oddTwin (mismatched s l n) l (twinPair s l n)) := by
  refine exec_awake hawake rfl ?_
  rw [doTwinMismatch, htwin]
  dsimp only
  rw [hocc]
  rfl

theorem exec_twinMismatch_eq (runs : List KernelRun) : exec (.twinMismatch l runs) s = .next (sweptTwins l runs (twinPair s l n) (mismatched s l n)) := by
  refine exec_awake hawake rfl ?_
  rw [doTwinMismatch, htwin]
  dsimp only
  rw [hocc]
  rfl

theorem exec_twinMismatch (runs : List KernelRun) :
    ∃ t, exec (.twinMismatch l runs) s = .next t ∧ t.check.twins = (mismatched s l n).check.twins :=
  ⟨_, exec_twinMismatch_eq hawake htwin hocc runs, sweptTwins_twins ..⟩

end

/-! ### CHECK once its target is free -/

/-- All of a CHECK's kernels pass: what has been tested before the holds. -/
theorem runCheck_passes {s : State} {c : CheckWait} (hthere : checkGone s (checkScope c) (checkPsid c) = false)
    (hmay : checkPerm s (checkKind c) (checkScope c) (checkPsid c) = false) (hfree : checkSwept s (checkScope c) (checkPsid c) = false)
    (h : checkKind c = 0) (hpass : ∀ r ∈ c.runs, Passes s r) :
    runCheck s c = heldRun c.runs (checkSeats s (checkScope c) (checkPsid c))
      ⟨[], checkPsid c, c.step, now s, ⟨freeUnits s (checkScope c) (checkPsid c), [], []⟩⟩
      (countRuns s (freeUnits s (checkScope c) (checkPsid c))) := by
  rw [runCheck_known hthere hmay hfree h, testUnits_passes _ hpass]

theorem Counted.errs {s t : State} (h : Counted s t) : t.errs = s.errs := by
  obtain ⟨n, gs, ht⟩ := h.eq
  rw [ht]

theorem Counted.cores {s t : State} (h : Counted s t) : t.cores = s.cores := by
  obtain ⟨n, gs, ht⟩ := h.eq
  rw [ht]

theorem Counted.holds {s t : State} (h : Counted s t) : t.check.hold = s.check.hold ∧ now t = now s := by
  obtain ⟨n, gs, ht⟩ := h.eq
  rw [ht]
  exact ⟨rfl, rfl⟩

section
variable {s : State} {m : Mgmt} {runs : List KernelRun} (haccepted : accepted s m 5 (checkBad m.args)) (units : List (BitVec 24)) (p : BitVec 24)
include haccepted

/-- A known-answer CHECK with nothing to hold answers with the counts. -/
theorem heldRun_nil :
    responded s (heldRun runs [] ⟨[], p, m.step, now (opened s m 5), ⟨units, [], []⟩⟩ (countRuns (opened s m 5) units)) m sOK
      [BitVec.ofNat 64 (units.length % 65536 * 2 ^ 32)] ∧
    (heldRun runs [] ⟨[], p, m.step, now (opened s m 5), ⟨units, [], []⟩⟩ (countRuns (opened s m 5) units)).cores = s.cores := by
  have hcounted := Counted.countRuns (opened s m 5) units
  rw [heldRun, endKak, tallyWord_passed]
  exact refused_check haccepted sOK _ hcounted.errs hcounted.cores

omit haccepted in
/-- A known-answer CHECK whose first position is busy holds it, and waits. -/
theorem heldRun_busy {l : Lcid} {rest : List Lcid} (hocc : occupied (opened s m 5) l = true)
    (hbusy : quietCore (recoveryHold (getCore s l)) = false) :
    let t := heldRun runs (l :: rest) ⟨[], p, m.step, now (opened s m 5), ⟨units, [], []⟩⟩ (countRuns (opened s m 5) units)
    (getCore t l).recHold = true ∧ (∀ l', l' ≠ l → getCore t l' = getCore s l') ∧ t.errs.answers = s.errs.answers ∧
      ∃ h : CheckHold, t.check.hold = s.check.hold ++ [h] ∧ h.lcids = l :: rest ∧ h.step = m.step ∧ h.tick = now s ∧ h.psid = p := by
  have hcounted := Counted.countRuns (opened s m 5) units
  obtain ⟨hholds, hnow⟩ := hcounted.holds
  have hcore (l' : Lcid) : getCore (countRuns (opened s m 5) units) l' = getCore s l' := hcounted.getCore l'
  dsimp only
  generalize countRuns (opened s m 5) units = u at hcounted hholds hnow hcore
  have hanswers : u.errs.answers = s.errs.answers := (congrArg Errs.answers hcounted.errs).trans rfl
  rw [heldRun_waits _ ((hcounted.occupied l).trans hocc) (by rw [hcore]; exact hbusy)]
  refine ⟨congrArg Core.recHold (getCore_modCore u l recoveryHold), fun l' hl => ?_, hanswers, _,
    congrArg (· ++ [_]) hholds, rfl, rfl, hnow, rfl⟩
  exact (getCore_modCore_other u l l' recoveryHold hl).trans (hcore l')

end

/-! ### The sweeps of a tick -/

section
variable {s : State} {w : Sweep} (hsweeps : s.check.sweeps = [w]) (hwaits : s.check.waits = []) (hstarts : s.check.starts = [])
include hsweeps hwaits hstarts

theorem sweepStep_early (h : now s < w.tick + sweepSpan s w) : sweepStep s = s := by
  have hnone : ([w].filter fun w => decide (w.tick + sweepSpan s w ≤ now s)) = [] :=
    List.filter_cons_of_neg fun hd => absurd (of_decide_eq_true hd) (Nat.not_le.2 h)
  rw [sweepStep, hsweeps, hnone]
  exact if_pos (by rw [List.foldl_nil, hwaits, hstarts]; rfl)

omit hwaits hstarts in
theorem sweepStep_late (h : w.tick + sweepSpan s w ≤ now s) (hw : (endSweep s w).check.waits = [] ∧ (endSweep s w).check.starts = []) :
    sweepStep s = endSweep s w := by
  have hone : ([w].filter fun w => decide (w.tick + sweepSpan s w ≤ now s)) = [w] := List.filter_cons_of_pos (decide_eq_true h)
  rw [sweepStep, hsweeps, hone]
  exact if_pos (by rw [List.foldl_cons, List.foldl_nil, hw.1, hw.2]; rfl)

end

/-- What counting a sweep and clearing its window leave. -/
theorem countRun_zeroWindow (s : State) (seat : Option Lcid) (dg : Dg) :
    (countRun (zeroWindow s seat) dg).check = { s.check with runs := BitVec.ofNat 16 (satAdd 16 s.check.runs.toNat 1) } ∧
    (countRun (zeroWindow s seat) dg).errs = s.errs ∧ (countRun (zeroWindow s seat) dg).cores = (zeroWindow s seat).cores := by
  cases seat with
  | none => exact ⟨rfl, rfl, rfl⟩
  | some l => exact ⟨rfl, rfl, rfl⟩

/-- Settles O56. -/
theorem checking : Obligations.Checking := by
  unfold Obligations.Checking
  refine ⟨fun s p runs h hh => ⟨_, exec_kakSweep_held hh, rfl⟩, fun s p runs hno => ⟨fun howed => ?_, fun howed hmay => ?_, fun howed hmay => ?_⟩,
    fun s w hsweeps hwaits hstarts => ⟨sweepStep_early hsweeps hwaits hstarts, fun hlate hsite _ hheld hblazed hpass => ?_⟩,
    fun s m runs segs haccepted => ⟨fun hgone => ?_, fun hthere hperm => ?_, fun hthere hmay hswept => ?_, fun hthere hmay hfree hkind =>
      ⟨fun hwait => ?_, fun hwait => ?_⟩, fun hthere hmay hfree hkind => ⟨?_, fun hseats hpass => ?_, fun l r hseats hpass hbusy => ?_⟩⟩,
    fun s l h hh => ⟨_, exec_holdTimeout hh, rfl⟩, fun s l h hhold hl hbusy => ⟨fun hearly => ?_, fun hlate => ?_⟩,
    fun s l runs hawake => ⟨fun htwin => ⟨_, exec_twinMismatch_none hawake htwin, rfl⟩, fun n htwin hocc =>
      ⟨?_, fun hruns hodd => ?_, fun hruns hodd => ?_⟩⟩⟩
  · exact ⟨_, (exec_kakSweep hno).trans (congrArg _ (if_pos howed)), rfl⟩
  · refine ⟨_, (exec_kakSweep hno).trans (congrArg _ ((if_neg (Bool.eq_false_iff.1 howed)).trans (if_pos ?_))), rfl⟩
    simpa only [Bool.or_eq_true, decide_eq_true_eq, Bool.not_eq_true', ne_eq, not_and_or, not_not, Bool.not_eq_false, Bool.not_eq_true,
      or_assoc] using hmay
  · obtain ⟨hperiod, hdorm, hgap, hunder, hidle⟩ := hmay
    refine ⟨_, (exec_kakSweep hno).trans (congrArg _ ((if_neg (Bool.eq_false_iff.1 howed)).trans (if_neg ?_))), beginSweep_frame s p runs⟩
    rw [hdorm, hgap, hunder, hidle, decide_eq_false hperiod]
    exact Bool.false_ne_true
  · have hend := endSweep_passes hsite hheld hblazed hpass
    obtain ⟨hcheck, herrs, hcores⟩ := countRun_zeroWindow { s with check := { s.check with sweeps := s.check.sweeps.erase w } } w.seat
      (psidDg w.psid)
    rw [← hend] at hcheck herrs hcores
    dsimp only
    rw [sweepStep_late hsweeps hlate ⟨(congrArg Check.waits hcheck).trans hwaits, (congrArg Check.starts hcheck).trans hstarts⟩]
    refine ⟨?_, (congrArg Check.fails hcheck).trans rfl, ?_, (congrArg Errs.reports herrs).trans rfl, fun l hl hbad i hlo hhi => ?_⟩
    · rw [hcheck]
      exact toNat_satAdd
    · rw [hcheck, hsweeps]
      exact List.erase_cons_head ..
    · rw [getCore_of_cores hcores, hl]
      exact rdByte_zeroWindow (s := { s with check := { s.check with sweeps := s.check.sweeps.erase w } }) hbad hlo hhi
  · exact ⟨_, (exec_mgmtCheck haccepted).trans (congrArg _ (runCheck_gone (c := ⟨m.step, m.args, runs, segs⟩) hgone)), refused_check haccepted _ _ rfl rfl⟩
  · exact ⟨_, (exec_mgmtCheck haccepted).trans (congrArg _ (runCheck_perm (c := ⟨m.step, m.args, runs, segs⟩) hthere hperm)), refused_check haccepted _ _ rfl rfl⟩
  · exact ⟨_, (exec_mgmtCheck haccepted).trans (congrArg _ (runCheck_waits (c := ⟨m.step, m.args, runs, segs⟩) hthere hmay hswept)), rfl⟩
  · exact ⟨_, (exec_mgmtCheck haccepted).trans (congrArg _ (runCheck_soundWaits (c := ⟨m.step, m.args, runs, segs⟩) hthere hmay hfree hkind hwait)), rfl⟩
  · exact ⟨_, (exec_mgmtCheck haccepted).trans (congrArg _ (runCheck_soundBegins (c := ⟨m.step, m.args, runs, segs⟩) hthere hmay hfree hkind hwait)), rfl⟩
  · exact ⟨_, (exec_mgmtCheck haccepted).trans (congrArg _ (runCheck_known (c := ⟨m.step, m.args, runs, segs⟩) hthere hmay hfree hkind)), rfl⟩
  · have hx := (exec_mgmtCheck (runs := runs) (segs := segs) haccepted).trans (congrArg _ (runCheck_passes (c := ⟨m.step, m.args, runs, segs⟩) hthere hmay hfree hkind hpass))
    refine ⟨_, hx, ?_⟩
    have hseats' : checkSeats (opened s m 5) (checkScope ⟨m.step, m.args, runs, segs⟩) (checkPsid ⟨m.step, m.args, runs, segs⟩) = [] := hseats
    rw [hseats']
    exact heldRun_nil haccepted _ _
  · have hx := (exec_mgmtCheck (runs := runs) (segs := segs) haccepted).trans (congrArg _ (runCheck_passes (c := ⟨m.step, m.args, runs, segs⟩) hthere hmay hfree hkind hpass))
    refine ⟨_, hx, ?_⟩
    have hseats' : checkSeats (opened s m 5) (checkScope ⟨m.step, m.args, runs, segs⟩) (checkPsid ⟨m.step, m.args, runs, segs⟩) = l :: r := hseats
    rw [hseats']
    exact heldRun_busy _ _ (occupied_of_mem_checkSeats (hseats'.symm ▸ List.mem_cons_self)) hbusy
  · refine ⟨_, exec_holdTimeout_none ?_, rfl⟩
    rw [firstThat_eq_find?, hhold, List.find?_cons_of_neg, List.find?_nil]
    intro hcond
    exact absurd (of_decide_eq_true (Bool.and_eq_true_iff.1 hcond).2) (by omega)
  · refine ⟨_, exec_holdTimeout (h := h) ?_, ?_⟩
    · rw [firstThat_eq_find?, hhold, List.find?_cons_of_pos]
      rw [hl, hbusy, beq_self_eq_true]
      exact decide_eq_true hlate
    · obtain ⟨cs, hrel⟩ := releaseHold_frame s h
      rw [hrel]
      refine ⟨?_, fun k hk => ?_⟩
      · obtain ⟨e, he⟩ := finishToken_rest { s with cores := cs, check := { s.check with hold := s.check.hold.erase h } } h.step sQTIMEOUT
          [tallyWord h.tally]
        rw [he]
        dsimp only
        rw [hhold]
        exact List.erase_cons_head ..
      · have hk' : tokenOf { s with cores := cs, check := { s.check with hold := s.check.hold.erase h } } h.step = some k := hk
        rw [finishToken_some hk']
  · obtain ⟨t, ht, htwins⟩ := exec_twinMismatch hawake htwin hocc runs
    exact ⟨t, ht, (congrArg BitVec.toNat htwins).trans (mismatched_frame s l n).1⟩
  · obtain ⟨-, hold, hcore, -, hnow⟩ := mismatched_frame s l n
    obtain ⟨u, hu, hcores, -, hnone⟩ := oddTwin_before (s := mismatched s l n) (l := l) (pair := twinPair s l n) (by rw [hold, hnow]; exact hodd)
    subst hruns
    exact ⟨_, exec_twinMismatch_odd hawake htwin hocc, u, hu, (getCore_of_cores hcores l).trans hcore, hnone⟩
  · obtain ⟨-, hold, hcore, hreports, hnow⟩ := mismatched_frame s l n
    obtain ⟨u, hu, hcores, herrs, -, hmem⟩ := oddTwin_first (s := mismatched s l n) (l := l) (pair := twinPair s l n)
      (by rw [hold, hnow]; exact hodd)
    subst hruns
    refine ⟨_, exec_twinMismatch_odd hawake htwin hocc, ?_, u, hu, (getCore_of_cores hcores l).trans hcore, herrs ▸ hreports⟩
    rw [hu, (MaintenanceKept.replaySame u l).odd, ← hnow]
    exact hmem

end Sys2Proof.Machine
end

section
/-! PROOFS. How a fault-manager command is checked and repeated (R466 to R470). -/

namespace Sys2Proof.Machine

/-- Command `i` answers with the response `r` of status, STATE and words, and changes nothing else. -/
def AnswersAs (s : State) (m : Mgmt) (i : Instr) (st : Status) (state : BitVec 2) (ws : List Word) : Prop :=
  answers i s fun t => t.errs.answers = s.errs.answers ++ [⟨m.step, st, state, ws, mgmtDigest m⟩] ∧ { t with errs := s.errs } = s

section
variable {s : State} {m : Mgmt} {i : Instr} {opc : Nat} {bad : Bool}

theorem answersAs_of_exec {st : Status} {state : Nat} {ws : List Word} (hx : exec i s = .next (answer s m st state ws)) :
    AnswersAs s m i st (BitVec.ofNat 2 state) ws := ⟨_, hx, rfl, rfl⟩

/-- R470: a command whose token stands in the table, not left. -/
theorem withToken_repeats {body : State → State} (hup : lookoutUp s = true) (hopc : mgmtOpc m = opc) (hrsvd : mgmtRsvd m = false)
    (hstep : m.step ≠ 0) (hsess : hasSession s m.sess = true) {k : Token}
    (hk : firstThat (fun (t : Token) => t.step == m.step) (freshTokens s) = some k) (hleft : k.left = false) :
    ∃ u, u = { s with errs := { s.errs with tokens := freshTokens s } } ∧
      withToken s m opc false body = repeatToken u m (BitVec.ofNat 8 opc) k := by
  refine ⟨_, rfl, ?_⟩
  have htoken : tokenOf { s with errs := { s.errs with tokens := freshTokens s } } m.step = some k := hk
  have hrow : ¬ (!lookoutUp s || mgmtOpc m != opc) = true := by
    rw [hup, hopc, bne_self_eq_false]
    decide
  have hargs : ¬ (mgmtRsvd m || m.step == 0 || false) = true := by
    rw [hrsvd, beq_eq_false_iff_ne.2 hstep]
    decide
  have hsession : ¬ (!hasSession s m.sess) = true := by
    rw [hsess]
    decide
  rw [withToken, if_neg hrow, if_neg hargs, if_neg hsession]
  dsimp only
  rw [htoken]
  refine if_neg ?_
  rw [hleft]
  exact Bool.false_ne_true

/-- The rules for command `i`, whose row is a command with a token. -/
structure TokenRules (s : State) (m : Mgmt) (i : Instr) (opc : Nat) (bad : Bool) : Prop where
  other : lookoutUp s = false ∨ mgmtOpc m ≠ opc → answers i s fun t => t = s
  rsvd : lookoutUp s = true → mgmtOpc m = opc → mgmtRsvd m = true ∨ m.step = 0 ∨ bad = true → AnswersAs s m i sRSVD 0 []
  perm : lookoutUp s = true → mgmtOpc m = opc → mgmtRsvd m = false → m.step ≠ 0 → bad = false → hasSession s m.sess = false →
    AnswersAs s m i sPERM 0 []
  repeats : lookoutUp s = true → mgmtOpc m = opc → mgmtRsvd m = false → m.step ≠ 0 → bad = false → hasSession s m.sess = true →
    ∀ k, firstThat (fun (t : Token) => t.step == m.step) (freshTokens s) = some k → k.left = false →
      (k.opc ≠ BitVec.ofNat 8 opc ∨ k.digest ≠ mgmtDigest m → AnswersAs s m i sPERM 0 []) ∧
      (k.opc = BitVec.ofNat 8 opc → k.digest = mgmtDigest m →
        (k.done = none → AnswersAs s m i sOK 1 []) ∧ ∀ r, k.done = some r → AnswersAs s m i r.status 2 r.words)

theorem tokenRules {body : State → State} (hx : exec i s = .next (withToken s m opc bad body)) : TokenRules s m i opc bad where
  other h := by
    refine ⟨_, hx.trans (congrArg _ (if_pos ?_)), rfl⟩
    rcases h with h | h
    · rw [h]
      rfl
    · rw [bne_iff_ne.2 h, Bool.or_true]
  rsvd hup hopc h := answersAs_of_exec (hx.trans (congrArg _ (withToken_rsvd s m opc bad body hup hopc h)))
  perm hup hopc hrsvd hstep hbad hsess := by
    subst hbad
    exact answersAs_of_exec (hx.trans (congrArg _ (withToken_perm s m opc body hup hopc hrsvd hstep hsess)))
  repeats hup hopc hrsvd hstep hbad hsess k hk hleft := by
    subst hbad
    obtain ⟨u, rfl, hu⟩ := withToken_repeats (body := body) hup hopc hrsvd hstep hsess hk hleft
    have hx := hx.trans (congrArg _ hu)
    rw [repeatToken] at hx
    refine ⟨fun hother => ⟨_, hx.trans (congrArg _ (if_pos ?_)), rfl, rfl⟩, fun hopcode hdigest => ?_⟩
    · exact Bool.or_eq_true_iff.2 (hother.imp bne_iff_ne.2 bne_iff_ne.2)
    · rw [hopcode, hdigest, bne_self_eq_false, bne_self_eq_false, if_neg (by decide)] at hx
      refine ⟨fun hdone => ?_, fun r hdone => ?_⟩
      · rw [hdone] at hx
        exact ⟨_, hx, rfl, rfl⟩
      · rw [hdone] at hx
        exact ⟨_, hx, rfl, rfl⟩

/-- The rules for command `i`, whose row is a command without a token. -/
theorem tokenless_other {words : State → Status × List Word} (hx : exec i s = .next (withoutToken s m opc bad words))
    (h : lookoutUp s = false ∨ mgmtOpc m ≠ opc) : answers i s fun t => t = s := by
  refine ⟨_, hx.trans (congrArg _ (if_pos ?_)), rfl⟩
  rcases h with h | h
  · rw [h]
    rfl
  · rw [bne_iff_ne.2 h, Bool.or_true]

theorem tokenless_rsvd {words : State → Status × List Word} (hx : exec i s = .next (withoutToken s m opc bad words)) (hup : lookoutUp s = true)
    (hopc : mgmtOpc m = opc) (h : mgmtRsvd m = true ∨ m.step ≠ 0 ∨ bad = true) : AnswersAs s m i sRSVD 0 [] := by
  refine answersAs_of_exec (state := 0) (hx.trans (congrArg _ ((if_neg ?_).trans (if_pos ?_))))
  · rw [hup, hopc, bne_self_eq_false]
    decide
  · rw [Bool.or_eq_true, Bool.or_eq_true, bne_iff_ne, or_assoc]
    exact h

/-- R468: a command of an undefined code. -/
theorem undefined_answers {o : BitVec 8} (hup : lookoutUp s = true) (hopc : mgmtOpc m = o.toNat) (hcode : o = 0 ∨ 13 ≤ o.toNat)
    (hstatus : o ≠ 0x10) (hlog : o ≠ 0x11) : AnswersAs s m (.mgmtUndefined o m) sUNDEF 0 [] := by
  have hx : exec (.mgmtUndefined o m) s = .next (doMgmtUndefined o m s) := rfl
  refine answersAs_of_exec (state := 0) (hx.trans (congrArg _ (if_neg ?_)))
  have hrange : ¬ (1 ≤ o.toNat ∧ o.toNat ≤ 12) := by
    rcases hcode with rfl | hcode
    · decide
    · omega
  simp only [hup, hopc, bne_self_eq_false, Bool.not_true, Bool.or_false, Bool.or_eq_true, Bool.and_eq_true, decide_eq_true_eq, hrange, hstatus,
    hlog, or_false, not_false_eq_true]

end

/-- Settles O57. -/
theorem managementTokens : Obligations.ManagementTokens := by
  unfold Obligations.ManagementTokens
  intro s m
  have hT {i : Instr} {opc : Nat} {bad : Bool} (h : TokenRules s m i opc bad) :=
    And.intro h.other fun hup hopc => And.intro (h.rsvd hup hopc) (And.intro (h.perm hup hopc) (h.repeats hup hopc))
  have hR {i : Instr} {opc : Nat} {bad : Bool} {words : State → Status × List Word} (hx : exec i s = .next (withoutToken s m opc bad words)) :=
    And.intro (tokenless_other hx) (tokenless_rsvd hx)
  have hlog : exec (.mgmtReadLog m) s = .next (doMgmtReadLog m s) := rfl
  rw [doMgmtReadLog] at hlog
  have hreset (x : CruiseIn) : exec (.mgmtReset m x) s = .next (doMgmtReset m x s) := rfl
  simp only [doMgmtReset] at hreset
  have hdormant : exec (.dormant (.cmd m)) s = .next (doDormant (.cmd m) s) := rfl
  rw [doDormant] at hdormant
  exact ⟨fun x => hT (tokenRules rfl), fun runs segs => hT (tokenRules rfl), fun x => hT (tokenRules (hreset x)), hT (tokenRules rfl), hT (tokenRules rfl),
    hT (tokenRules hdormant), hT (tokenRules rfl), ⟨hR rfl, hR hlog⟩, fun o hup hopc hcode hstatus hlog => undefined_answers hup hopc hcode hstatus hlog⟩

end Sys2Proof.Machine
end

section
/-! PROOFS. The fault-manager commands once accepted: what ports, routes and the topology check leave (R337, R343, R439). -/

namespace Sys2Proof.Machine

namespace MaintenanceKept

variable {s t : State}

theorem modPort (s : State) (k : Nat) (f : Port → Port) (hf : ∀ p, (f p).st = p.st := by exact fun _ => rfl) : MaintenanceKept s (modPort s k f) := by
  have hport (j : Nat) : (getPort (Machine.modPort s k f) j).st = (getPort s j).st := by
    by_cases h : j = k
    · subst h
      rw [getPort_modPort]
      exact hf _
    · rw [getPort_modPort_other _ _ _ _ h]
  exact ⟨rfl, rfl, rfl, rfl, rfl, rfl, rfl, hport, fun _ => .of_eq rfl rfl⟩

theorem modFn (s : State) (f : Nat) (g : Fn → Fn) : MaintenanceKept s (modFn s f g) := of_same rfl

theorem pushLanding (s : State) (e : Nat) (p : Pkt) : MaintenanceKept s (pushLanding s e p) := of_same rfl

theorem bounce (s : State) (f : Side) (m : Msg) (st : Status) : MaintenanceKept s (bounce s f m st) := answerMsg ..

/-! ### Routes -/

theorem countStray (s : State) (p : FPkt) : MaintenanceKept s (countStray s p) := of_same rfl

theorem loseRoutes (s : State) : MaintenanceKept s (loseRoutes s) := by
  unfold Machine.loseRoutes
  exact (foldl countStray _ s).trans (of_same rfl)

theorem discardAged (s : State) (p : FPkt) : MaintenanceKept s (discardAged s p) := of_same rfl

theorem remapAll (s : State) : MaintenanceKept s (remapAll s) := by
  unfold Machine.remapAll
  exact foldl (fun s d => remap s (BitVec.ofNat 8 d)) _ s

/-! ### Packets at a port -/

theorem setLane_st (p : Port) (i phys : Nat) : (setLane p i phys).st = p.st := rfl

theorem endJob_st (p : Port) : (endJob p).st = p.st := by
  unfold endJob
  split <;> rfl

theorem sendData_st (p : Port) (bs : List Byte) (bad : NatSet) (pkts : List FPkt) : (sendData p bs bad pkts).st = p.st := by
  unfold sendData
  dsimp only [putFlit]
  split
  · split
    · exact endJob_st p
    · rfl
  · rfl

theorem sendPkts_st (p : Port) (qs : List FPkt) : (sendPkts p qs).st = p.st := by
  have hfold (bs : List (List Byte × Nat)) (bad : List Byte × Nat → NatSet) (pkts : List Byte × Nat → List FPkt) (p : Port) :
      (bs.foldl (fun p b => sendData p b.1 (bad b) (pkts b)) p).st = p.st := by
    induction bs generalizing p with
    | nil => rfl
    | cons b bs ih => exact (ih _).trans (sendData_st p _ _ _)
  exact hfold _ _ _ p

theorem settleMaps_st (p : Port) : (settleMaps p).st = p.st := by
  have hjob : (match p.jobs with | j :: _ => if j.agreed then endJob p else p | [] => p).st = p.st := by
    split
    · split
      · exact endJob_st p
      · rfl
    · rfl
  unfold settleMaps
  dsimp only [dropMaps]
  split
  · exact hjob
  · exact hjob

theorem pump (s : State) (k : Nat) : MaintenanceKept s (pump s k) := by
  unfold Machine.pump
  have hold : MaintenanceKept s ((pick s k).old.foldl Machine.discardAged
      { s with gf := { s.gf with egress := tput [] s.gf.egress k (pick s k).keep } }) :=
    (of_same rfl : MaintenanceKept s { s with gf := { s.gf with egress := tput [] s.gf.egress k (pick s k).keep } }).trans (foldl discardAged _ _)
  exact ite hold (hold.trans (modPort _ _ _ fun p => sendPkts_st p _))

theorem injectPort (s : State) (k : Nat) (r : Dg) (p : Pkt) : MaintenanceKept s (injectPort s k r p) := inject ..

theorem refuseFar (s : State) (k : Nat) (p : Pkt) : MaintenanceKept s (refuseFar s k p) := by
  unfold Machine.refuseFar
  dsimp only
  split
  · exact reply ..
  · exact reply ..
  · exact reply ..
  · split
    · exact bounce ..
    · exact refl s
  · exact refl s

theorem deliverGrove (s : State) (k : Nat) (dg : Dg) (p : Pkt) : MaintenanceKept s (deliverGrove s k dg p) := by
  unfold Machine.deliverGrove
  split
  · exact refuseFar ..
  · exact ite (refuseFar ..) (injectPort ..)

theorem noteSeq (s : State) (p : FPkt) : MaintenanceKept s (noteSeq s p) := by
  unfold Machine.noteSeq
  exact ite (of_same rfl) (refl s)

theorem deliverLocal (s : State) (k : Nat) (q : FPkt) : MaintenanceKept s (deliverLocal s k q) := by
  unfold Machine.deliverLocal
  refine ite (raise ..) (ite (refl s) ((noteSeq s q).trans (ite (pushLanding ..) ?_)))
  split
  · exact deliverGrove ..
  · exact ite (pushLanding ..) (deliverGrove ..)
  · split
    · exact injectPort ..
    · exact refl _
  · exact pushLanding ..
  · exact deliverGrove ..

theorem toEgress (s : State) (k : Nat) (p : FPkt) : MaintenanceKept s (toEgress s k p) := by
  unfold Machine.toEgress
  exact ite (of_same rfl) (of_same rfl)

theorem countNoRoute (s : State) (n : Nat) : MaintenanceKept s (countNoRoute s n) := of_same rfl

theorem dropRouteless (s : State) (p : FPkt) : MaintenanceKept s (dropRouteless s p) := by
  unfold Machine.dropRouteless
  exact ite (of_same rfl) (refl s)

theorem switchMcast (s : State) (k : Nat) (p : FPkt) : MaintenanceKept s (switchMcast s k p) := by
  unfold Machine.switchMcast
  have h := fun (js : List Nat) n => (foldl (fun s j => toEgress s j p) js s).trans (countNoRoute _ n)
  exact ite ((h _ _).trans (deliverLocal ..)) (h _ _)

theorem storePkt {p : FPkt} (h : storePkt s p = some t) : MaintenanceKept s t := by
  unfold Machine.storePkt at h
  split at h
  · obtain rfl := Option.some.inj h
    exact of_same rfl
  · cases h

theorem switchPkt {k : Nat} {p : FPkt} (h : switchPkt s k p = some t) : MaintenanceKept s t := by
  unfold Machine.switchPkt at h
  split at h
  · obtain rfl := Option.some.inj h
    exact discardAged ..
  split at h
  · obtain rfl := Option.some.inj h
    exact dropRouteless ..
  split at h
  · obtain rfl := Option.some.inj h
    exact switchMcast ..
  split at h
  · split at h
    · cases h
    · obtain rfl := Option.some.inj h
      exact deliverLocal ..
  split at h
  · exact storePkt h
  split at h
  · obtain rfl := Option.some.inj h
    exact (toEgress ..).trans (pump ..)
  · cases h
  · obtain rfl := Option.some.inj h
    exact dropRouteless ..

theorem movePkt (s : State) (k : Nat) (p : FPkt) : MaintenanceKept s (movePkt s k p) := by
  unfold Machine.movePkt
  refine ite (countNoRoute ..) ?_
  split
  next t ht => exact switchPkt ht
  · exact of_same rfl

theorem noteResent (s : State) (p : FPkt) : MaintenanceKept s (noteResent s p) := by
  unfold Machine.noteResent
  refine ite ?_ (refl s)
  split
  · exact modCore ..
  · exact refl s

theorem movePort (s : State) (k : Nat) : MaintenanceKept s (movePort s k) := by
  have hport := modPort s k (fun p => { settleMaps p with replay := [], used := [], owed := [], rxBuf := [], rxBad := [], nak := false, ctl := [] })
    settleMaps_st
  have hshapers (qs : List Nat) (s : State) : MaintenanceKept s (qs.foldl (fun s q => modShaper s k q fun h => { h with queue := [] }) s) := by
    refine foldl (fun _ _ => ?_) qs s
    exact of_same rfl
  unfold Machine.movePort
  refine (((hport.trans ?_).trans (hshapers _ _)).trans (foldl noteResent _ _)).trans (foldl (fun s p => movePkt s k p) _ _)
  exact of_same rfl

/-! ### The topology check -/

theorem checkPort (s : State) (k : Nat) : MaintenanceKept s (checkPort s k) := by
  have hreports (u : State) (h : MaintenanceKept s u) (a b : Bool) : MaintenanceKept s
      (if b then isolateReport (if a then topoReport u k else u) k else if a then topoReport u k else u) := by
    have htopo : MaintenanceKept s (if a then topoReport u k else u) := ite (h.trans (raise ..)) h
    exact ite (htopo.trans (raise ..)) htopo
  unfold Machine.checkPort
  refine hreports _ ?_ _ _
  exact of_same rfl

theorem checkTopo (s : State) : MaintenanceKept s (checkTopo s) := by
  unfold Machine.checkTopo
  exact ite (refl s) (foldl (fun s k => ite (refl s) (checkPort s k)) _ s)

end MaintenanceKept

/-! ### Commands that act at once -/

section
variable {s : State} {m : Mgmt}

/-- A command that a check refuses once accepted. -/
theorem refuses {i : Instr} {opc : Nat} {bad : Bool} (h : accepted s m opc bad) {st : Status}
    (hx : exec i s = .next (finishToken (opened s m opc) m.step st [])) :
    answers i s fun t => responded s t m st [] ∧ { t with errs := s.errs } = s := by
  obtain ⟨e, he⟩ := finishToken_rest (opened s m opc) m.step st []
  refine ⟨_, hx, responded_finishToken h rfl st [], ?_⟩
  rw [he]
  rfl

/-- The answer of a command that acts at once: what its act leaves of the fault manager. -/
theorem responded_of_kept {opc : Nat} {bad : Bool} {u : State} (h : accepted s m opc bad) (st : Status) (ws : List Word)
    (hanswers : u.errs.answers = (opened s m opc).errs.answers) (htokens : u.errs.tokens = (opened s m opc).errs.tokens) :
    responded s (finishToken u m.step st ws) m st ws := by
  have htoken : tokenOf u m.step = _ := (congrArg (firstThat fun (t : Token) => t.step == m.step) htokens).trans (tokenOf_opened h)
  rw [finishToken_some htoken, responded]
  exact congrArg (· ++ _) hanswers

end

end Sys2Proof.Machine
end

section
/-! PROOFS. ASSIGN, ACK, RETIRE_PORT, RT_WRITE, HOLD, RELEASE and WAKE (Table 17.8, R337, R343, R439, R471). -/

namespace Sys2Proof.Machine

/-- A response leaves all but the tokens and the answers. -/
theorem finishToken_kept (s : State) (step : Word) (st : Status) (ws : List Word) :
    ∃ ts as, finishToken s step st ws = { s with errs := { s.errs with tokens := ts, answers := as } } := by
  unfold finishToken
  split
  · exact ⟨s.errs.tokens, s.errs.answers, rfl⟩
  · exact ⟨_, _, rfl⟩

/-- Command `i` answers OK, and leaves what `P` says. -/
def Accepts (s : State) (m : Mgmt) (i : Instr) (P : State → Prop) : Prop := answers i s fun t => responded s t m sOK [] ∧ P t

section
variable {s : State} {m : Mgmt}

/-- A command that acts on `u` and answers: what holds of `u`, but for the tokens and the answers, holds at its end. -/
theorem accepts {i : Instr} {opc : Nat} {bad : Bool} {u : State} {P : State → Prop} (h : accepted s m opc bad)
    (hx : exec i s = .next (finishToken u m.step sOK [])) (hanswers : u.errs.answers = (opened s m opc).errs.answers)
    (htokens : u.errs.tokens = (opened s m opc).errs.tokens)
    (hP : ∀ ts as, P { u with errs := { u.errs with tokens := ts, answers := as } }) : Accepts s m i P := by
  obtain ⟨ts, as, ht⟩ := finishToken_kept u m.step sOK []
  refine ⟨_, hx, responded_of_kept h sOK [] hanswers htokens, ?_⟩
  rw [ht]
  exact hP ts as

/-! ### ASSIGN -/

/-- An assignment that comes after READY, to a device without one. -/
theorem applyAssign_none {u : State} (i : ReadyIn) (hready : u.cruise.ready = true) :
    MaintenanceKept { u with errs := { u.errs with assign := none }, did := 0 } (applyAssign u none i) := by
  rw [applyAssign]
  dsimp only
  rw [hready]
  refine .trans ?_ (.loseRoutes _)
  exact .of_same rfl

theorem applyAssign_some {u : State} (x : Assign) (i : ReadyIn) (hready : u.cruise.ready = true) (hrunning : u.cruise.running = false) :
    MaintenanceKept { u with errs := { u.errs with assign := some x }, did := wd (2 ^ 63 + x.did.toNat) } (applyAssign u (some x) i) := by
  rw [applyAssign]
  dsimp only
  rw [hready, hrunning]
  refine .trans ?_ (.foldl .pump _ _)
  refine .trans ?_ (.checkTopo _)
  exact .of_same rfl

theorem toNat_assignDid (d : Did) : (wd (2 ^ 63 + d.toNat)).toNat = 2 ^ 63 + d.toNat := by
  rw [wd, BitVec.toNat_ofNat]
  have := d.isLt
  omega

theorem mgmtAssign_accepts (x : ReadyIn) (h : accepted s m 1 (assignBad m.args)) (hready : s.cruise.ready = true)
    (hrunning : s.cruise.running = false) : Accepts s m (.mgmtAssign m x) fun t => t.errs.assign = assignOf m.args ∧
      t.did.toNat = match assignOf m.args with | some a => 2 ^ 63 + a.did.toNat | none => 0 := by
  have hx : exec (.mgmtAssign m x) s = .next (doMgmtAssign m x s) := rfl
  rw [doMgmtAssign, withToken_accepted _ _ _ _ _ h] at hx
  cases ha : assignOf m.args with
  | none =>
    rw [ha] at hx
    have hkept := applyAssign_none (u := opened s m 1) x hready
    exact accepts h hx hkept.answers hkept.tokens fun _ _ => ⟨hkept.assign, congrArg BitVec.toNat hkept.did⟩
  | some a =>
    rw [ha] at hx
    have hkept := applyAssign_some (u := opened s m 1) a x hready hrunning
    exact accepts h hx hkept.answers hkept.tokens fun _ _ => ⟨hkept.assign, (congrArg BitVec.toNat hkept.did).trans (toNat_assignDid _)⟩

/-! ### ACK -/

theorem addEntry_head (c : Comb) (e : LogEnt) : (addEntry c e).head = c.head := rfl

theorem closeGap_head (c : Comb) : (closeGap c).head = c.head := by
  unfold closeGap
  split
  · split <;> rfl
  · rfl

theorem spillGo_head (n : Nat) (c : Comb) : (spillGo n c).head = c.head := by
  induction n generalizing c with
  | zero => rfl
  | succ n ih =>
    unfold spillGo
    split
    · rfl
    · split
      · rfl
      · split
        · exact ih _
        · split
          · exact ih _
          · rfl

/-- What settling a log leaves: the cores, and the log's head; the signal apart, all but the logs. -/
theorem settleComb_frame (s : State) (i : Nat) :
    (settleComb s i).cores = s.cores ∧ (settleComb s i).errs.answers = s.errs.answers ∧ (settleComb s i).errs.tokens = s.errs.tokens ∧
    (getComb (settleComb s i) i).head = (getComb s i).head := by
  have hwarn (u : State) : (warnRing u i).cores = u.cores ∧ (warnRing u i).errs.answers = u.errs.answers ∧
      (warnRing u i).errs.tokens = u.errs.tokens ∧ (getComb (warnRing u i) i).head = (getComb u i).head := by
    unfold warnRing
    dsimp only
    split
    · refine ⟨rfl, rfl, rfl, ?_⟩
      rw [getComb_modComb]
      rfl
    · refine ⟨rfl, rfl, rfl, ?_⟩
      rw [getComb_modComb]
  obtain ⟨hcores, hanswers, htokens, hhead⟩ := hwarn (modComb s i fun c => spillGo ((closeGap (spillGo (c.die.length + 1) c)).die.length + 1)
    (closeGap (spillGo (c.die.length + 1) c)))
  refine ⟨hcores, hanswers, htokens, hhead.trans ?_⟩
  rw [getComb_modComb, spillGo_head, closeGap_head, spillGo_head]

theorem exec_mgmtAck (h : accepted s m 2 (m.args.length != 2 || above (m.args.getD 0 0) 2 || above (m.args.getD 1 0) 32)) :
    exec (.mgmtAck m) s = .next (
      let o := opened s m 2
      let c := getComb s (m.args.getD 0 0).toNat
      let n := headStep c (m.args.getD 1 0).toNat
      if bit s.errs.cfg 32 then finishToken o m.step sPERM []
      else if n ≤ c.tail - c.head then finishToken (advanceHead o (m.args.getD 0 0).toNat (c.head + n)) m.step sOK []
      else finishToken o m.step (if 2 ^ 31 ≤ n then sOK else sBOUNDS) []) := by
  have hx : exec (.mgmtAck m) s = .next (doMgmtAck m s) := rfl
  rwa [doMgmtAck, withToken_accepted _ _ _ _ _ h] at hx

theorem mgmtAck_accepts (h : accepted s m 2 (m.args.length != 2 || above (m.args.getD 0 0) 2 || above (m.args.getD 1 0) 32))
    (hcfg : s.errs.cfg.getLsbD 32 = false)
    (hroom : headStep (getComb s (m.args.getD 0 0).toNat) (m.args.getD 1 0).toNat ≤
      (getComb s (m.args.getD 0 0).toNat).tail - (getComb s (m.args.getD 0 0).toNat).head) :
    Accepts s m (.mgmtAck m) fun t => (getComb t (m.args.getD 0 0).toNat).head =
      (getComb s (m.args.getD 0 0).toNat).head + headStep (getComb s (m.args.getD 0 0).toNat) (m.args.getD 1 0).toNat ∧ t.cores = s.cores := by
  have hx := (exec_mgmtAck h).trans (congrArg _ ((if_neg (by rw [bit_eq_getLsbD, hcfg]; exact Bool.false_ne_true)).trans (if_pos hroom)))
  generalize (m.args.getD 0 0).toNat = i at hx ⊢
  generalize (getComb s i).head + headStep (getComb s i) (m.args.getD 1 0).toNat = head at hx ⊢
  obtain ⟨hcores, hanswers, htokens, hhead⟩ :=
    settleComb_frame (modComb (opened s m 2) i fun c => { c with head := head, spill := c.spill.filter fun e => head ≤ e.seq }) i
  rw [getComb_modComb] at hhead
  exact accepts h hx hanswers htokens fun _ _ => ⟨hhead, hcores⟩

/-! ### RETIRE_PORT -/

theorem retirePort_st {u : State} {k : Nat} (h : (getPort u k).st ≠ 0) : (getPort (retirePort u k) k).st = 4 ∧
    (retirePort u k).errs.answers = u.errs.answers ∧ (retirePort u k).errs.tokens = u.errs.tokens := by
  rw [retirePort]
  by_cases hgone : portGone u k = true
  · rw [if_pos hgone]
    refine ⟨?_, rfl, rfl⟩
    rw [portGone, Bool.or_eq_true, beq_iff_eq, beq_iff_eq] at hgone
    exact hgone.resolve_left h
  · rw [if_neg hgone]
    dsimp only
    generalize hv : modPort u k (fun p => { p with st := 4, cause := sLINKRET, attempts := 0, upFrom := none }) = v
    have hst : (getPort v k).st = 4 := by rw [← hv, getPort_modPort]
    have herrs : v.errs = u.errs := by rw [← hv]; rfl
    have hkept : MaintenanceKept v (raise (loseRoutes (modPort (movePort (remapAll (portSignal v k)) k) k fun p => { p with jobs := [] }))
        { portRpt 14 sLINKRET 2 k 0x1F with d0 := wd (getPort u k).peerDid.toNat, d1 := wd (getPort u k).peerPort.toNat, action := 6 }) :=
      (((((MaintenanceKept.modFn v 0 fun n => signalFn n (176 + k % 16)).trans (.remapAll _)).trans (.movePort _ k)).trans
        (.modPort _ k _)).trans (.loseRoutes _)).trans (.raise ..)
    exact ⟨(hkept.port k).trans hst, hkept.answers.trans (congrArg Errs.answers herrs), hkept.tokens.trans (congrArg Errs.tokens herrs)⟩

theorem exec_mgmtRetirePort (h : accepted s m 4 (m.args.length != 1 || above (m.args.getD 0 0) 4)) :
    exec (.mgmtRetirePort m) s = .next (if (getPort s (m.args.getD 0 0).toNat).st = 0 then finishToken (opened s m 4) m.step sBOUNDS []
      else finishToken (retirePort (opened s m 4) (m.args.getD 0 0).toNat) m.step sOK []) := by
  have hx : exec (.mgmtRetirePort m) s = .next (doMgmtRetirePort m s) := rfl
  rwa [doMgmtRetirePort, withToken_accepted _ _ _ _ _ h] at hx

theorem mgmtRetirePort_accepts (h : accepted s m 4 (m.args.length != 1 || above (m.args.getD 0 0) 4))
    (hst : (getPort s (m.args.getD 0 0).toNat).st ≠ 0) :
    Accepts s m (.mgmtRetirePort m) fun t => (getPort t (m.args.getD 0 0).toNat).st = 4 := by
  have hx := (exec_mgmtRetirePort h).trans (congrArg _ (if_neg hst))
  obtain ⟨hretired, hanswers, htokens⟩ := retirePort_st (u := opened s m 4) (k := (m.args.getD 0 0).toNat) hst
  exact accepts h hx hanswers htokens fun _ _ => hretired

/-! ### RT_WRITE, HOLD, RELEASE and WAKE -/

theorem exec_mgmtRtWrite (h : accepted s m 7 (above (m.args.getD 0 0) 2 || (m.args.drop 1).isEmpty || decide (64 < (m.args.drop 1).length) ||
      (m.args.drop 1).any (rtWordBad (bit (m.args.getD 0 0) 1)))) :
    exec (.mgmtRtWrite m) s = .next (
      if bit (m.args.getD 0 0) 0 == s.gf.active then finishToken (opened s m 7) m.step sPERM []
      else if (m.args.drop 1).any (rtWordFused s (bit (m.args.getD 0 0) 1)) then finishToken (opened s m 7) m.step sBOUNDS []
      else finishToken { opened s m 7 with gf := (m.args.drop 1).foldl (rtPut (bit (m.args.getD 0 0) 1) (fld (m.args.getD 0 0) 0 1)) s.gf }
        m.step sOK []) := by
  have hx : exec (.mgmtRtWrite m) s = .next (doMgmtRtWrite m s) := rfl
  rwa [doMgmtRtWrite, withToken_accepted _ _ _ _ _ h] at hx

/-- The held ranges as HOLD gives them. -/
theorem tget_holds (ws : List Word) (i : Nat) : tget 0 (ws.zipIdx.foldl (fun t p => tput 0 t p.2 p.1) []) i = ws.getD i 0 := by
  have hfold (ws : List Word) (n : Nat) (t : Tbl Word) (i : Nat) :
      tget 0 ((ws.zipIdx n).foldl (fun t p => tput 0 t p.2 p.1) t) i = if n ≤ i ∧ i < n + ws.length then ws.getD (i - n) 0 else tget 0 t i := by
    induction ws generalizing n t with
    | nil => exact (if_neg (by rw [List.length_nil]; omega)).symm
    | cons w ws ih =>
      rw [List.zipIdx_cons, List.foldl_cons, ih, List.length_cons]
      by_cases hi : i = n
      · subst hi
        rw [if_neg (by omega), if_pos (by omega), tget_tput_same, Nat.sub_self, List.getD_cons_zero]
      · rw [tget_tput_other _ _ _ _ _ hi]
        by_cases hin : n + 1 ≤ i ∧ i < n + 1 + ws.length
        · obtain ⟨j, hj⟩ : ∃ j, i - n = j + 1 := ⟨i - n - 1, by omega⟩
          rw [if_pos hin, if_pos (by omega), hj, List.getD_cons_succ, show i - (n + 1) = j by omega]
        · rw [if_neg hin, if_neg (by omega)]
  rw [hfold]
  split
  · rw [Nat.sub_zero]
  · rw [List.getD_eq_default _ _ (by omega)]
    rfl

theorem mgmtHold_accepts (h : accepted s m 8 (decide (4 < m.args.length) || m.args.any holdBad)) :
    Accepts s m (.mgmtHold m) fun t =>
      t.cores = s.cores ∧ (∀ i, i < 4 → tget 0 t.gf.holds i = m.args.getD i 0) ∧ t.gf.active = s.gf.active := by
  have hx : exec (.mgmtHold m) s = .next (doMgmtHold m s) := rfl
  rw [doMgmtHold, withToken_accepted _ _ _ _ _ h] at hx
  exact accepts h hx rfl rfl fun _ _ => ⟨rfl, fun i _ => tget_holds m.args i, rfl⟩

theorem mgmtRelease_accepts (h : accepted s m 0x0A (!m.args.isEmpty)) :
    Accepts s m (.mgmtRelease m) fun t => t.cores = s.cores ∧ t.gf = { s.gf with holds := [] } := by
  have hx : exec (.mgmtRelease m) s = .next (doMgmtRelease m s) := rfl
  rw [doMgmtRelease, withToken_accepted _ _ _ _ _ h] at hx
  exact accepts h hx rfl rfl fun _ _ => ⟨rfl, rfl⟩

theorem fireWake_frame (u : State) (src : Nat) :
    (fireWake u src).errs = u.errs ∧ (fireWake u src).cores = u.cores ∧ (fireWake u src).gf = u.gf ∧
    (fireWake u src).dorm.st = if u.dorm.wakeEn.getLsbD src && (u.dorm.st == .dormant || u.dorm.st == .entering) then .waking else u.dorm.st := by
  rw [fireWake, bit_eq_getLsbD, Bool.and_comm]
  split <;> exact ⟨rfl, rfl, rfl, rfl⟩

theorem mgmtWake_accepts (h : accepted s m 0x0C (!m.args.isEmpty)) : Accepts s m (.mgmtWake m) fun t => t.cores = s.cores ∧ t.gf = s.gf ∧
    t.dorm.st = if s.dorm.wakeEn.getLsbD 1 && (s.dorm.st == .dormant || s.dorm.st == .entering) then .waking else s.dorm.st := by
  have hx : exec (.mgmtWake m) s = .next (doMgmtWake m s) := rfl
  rw [doMgmtWake, withToken_accepted _ _ _ _ _ h] at hx
  obtain ⟨herrs, hcores, hgf, hst⟩ := fireWake_frame (opened s m 0x0C) 1
  exact accepts h hx (congrArg Errs.answers herrs) (congrArg Errs.tokens herrs) fun _ _ => ⟨hcores, hgf, hst⟩

end

end Sys2Proof.Machine
end

section
/-! PROOFS. BLAZE, RESET, SWAP, STATUS and READ_LOG (Table 17.8, R343, R452, R468, R495). -/

namespace Sys2Proof.Machine

/-! ### Commands that may wait -/

/-- The entry of a command that has just been accepted. -/
def newToken (s : State) (m : Mgmt) (opc : Nat) : Token := ⟨m.step, BitVec.ofNat 8 opc, mgmtDigest m, none, now s, m.args, false, false⟩

section
variable {s : State} {m : Mgmt}

theorem startToken_opened {opc : Nat} {bad : Bool} (h : accepted s m opc bad) :
    startToken (opened s m opc) m.step = tryToken (opened s m opc) (newToken s m opc) := by
  rw [startToken, tokenOf_opened h]
  rfl

/-! ### SWAP -/

theorem exec_mgmtSwap (h : accepted s m 9 (m.args.length != 1 || above (m.args.getD 0 0) 1)) :
    exec (.mgmtSwap m) s = .next (
      if s.gf.active == bit (m.args.getD 0 0) 0 then finishToken (opened s m 9) m.step sOK []
      else if drainCount s = 0 then finishToken (setActive (opened s m 9) (bit (m.args.getD 0 0) 0)) m.step sOK []
      else opened s m 9) := by
  have hx : exec (.mgmtSwap m) s = .next (doMgmtSwap m s) := rfl
  rw [doMgmtSwap, withToken_accepted _ _ _ _ _ h, startToken_opened h] at hx
  exact hx

theorem setActive_frame {u : State} {b : Bool} (h : u.gf.active ≠ b) : (setActive u b).gf.active = b ∧
    (setActive u b).errs.answers = u.errs.answers ∧ (setActive u b).errs.tokens = u.errs.tokens := by
  rw [setActive, if_neg h]
  have hkept := MaintenanceKept.loseRoutes { u with gf := { u.gf with active := b } }
  exact ⟨hkept.active, hkept.answers, hkept.tokens⟩

/-! ### BLAZE -/

/-- The unit that a BLAZE names. -/
def blazePsid (m : Mgmt) : BitVec 24 := BitVec.ofNat 24 (fld (m.args.getD 1 0) 0 24)

theorem exec_mgmtBlaze (h : accepted s m 3 (m.args.length != 2 || m.args.getD 0 0 != 0 || above (m.args.getD 1 0) 24 || !canBlaze (blazePsid m) ||
      blazePsid m != unitOf (blazePsid m))) :
    exec (.mgmtBlaze m) s = .next (
      if blazeGone s (blazePsid m) then finishToken (opened s m 3) m.step sBOUNDS []
      else if groveBusy s (psidDg (blazePsid m)) || groveServed s (psidDg (blazePsid m)) then opened s m 3
      else finishToken (blazeUnit (opened s m 3) (blazePsid m)) m.step sOK []) := by
  have hx : exec (.mgmtBlaze m) s = .next (doMgmtBlaze m s) := rfl
  rw [doMgmtBlaze] at hx
  refine hx.trans (congrArg _ ((withToken_accepted s m 3 _ _ h).trans ?_))
  rw [startToken_opened h]
  rfl

theorem markBlazed_blazed (u : State) (dg : Dg) (n : Nat) : (tget Site.zero (getGrove (markBlazed dg u n) dg).sites n).blazed = true := by
  have henter : (getGrove (markBlazed dg u n) dg) = getGrove (modSite u dg n fun t => { t with blazed := true }) dg := by
    unfold markBlazed enterBlaze
    split <;> rfl
  rw [henter, modSite, getGrove_modGrove]
  dsimp only
  rw [tget_tput_same]

theorem blazeSites_blazed (u : State) (dg : Dg) (n : Nat) (hfused : (getGrove u dg).fused = false)
    (hblazed : (tget Site.zero (getGrove u dg).sites n).blazed = false) :
    (tget Site.zero (getGrove (blazeSites u dg [n]) dg).sites n).blazed = true := by
  have hns : ([n].filter fun n => !(tget Site.zero (getGrove u dg).sites n).blazed) = [n] :=
    List.filter_cons_of_pos (by rw [hblazed]; rfl)
  have hkept (seats : List Nat) (g : Nat → List Nat) (p : Nat → BitVec 24) :
      MaintenanceKept (markBlazed dg u n) (seats.foldl (fun s p' => reseat s (lcidOf dg p') (g p') (p p')) (markBlazed dg u n)) :=
    .foldl (fun s p' => .reseat s (lcidOf dg p') (g p') (p p')) seats _
  have hmark := markBlazed_blazed u dg n
  rw [blazeSites, hfused]
  dsimp only
  rw [if_neg Bool.false_ne_true, hns]
  split
  · exact ((hkept _ _ _).sites dg).blazed n hmark
  · exact (((hkept _ _ _).trans (.remap _ dg)).sites dg).blazed n hmark

theorem exec_mgmtBlaze_acts (h : accepted s m 3 (m.args.length != 2 || m.args.getD 0 0 != 0 || above (m.args.getD 1 0) 24 ||
      !canBlaze (blazePsid m) || blazePsid m != unitOf (blazePsid m))) (hthere : blazeGone s (blazePsid m) = false)
    (hidle : groveBusy s (psidDg (blazePsid m)) = false) (hserved : groveServed s (psidDg (blazePsid m)) = false) :
    exec (.mgmtBlaze m) s = .next (finishToken (blazeUnit (opened s m 3) (blazePsid m)) m.step sOK []) :=
  (exec_mgmtBlaze h).trans (congrArg _ ((if_neg (Bool.eq_false_iff.1 hthere)).trans (if_neg (by
    rw [hidle, hserved]
    exact Bool.false_ne_true))))

theorem fused_of_isSite {u : State} {p : BitVec 24} (hsite : isSite p = true) (hthere : blazeGone u p = false) :
    (getGrove u (psidDg p)).fused = false := by
  have hne : (psidSite p != 24) = true := bne_iff_ne.2 (Nat.ne_of_lt (Nat.lt_trans (of_decide_eq_true hsite) (by decide)))
  rwa [blazeGone, hne, Bool.and_true] at hthere

/-- The sites that a repair spends are blazed after it. -/
theorem spendSites_blazed (u : State) (dg : Dg) (n : Nat) (hfused : (getGrove u dg).fused = false) :
    (tget Site.zero (getGrove (spendSites u dg [n]) dg).sites n).blazed = true := by
  by_cases hblazed : (tget Site.zero (getGrove u dg).sites n).blazed = true
  · exact ((MaintenanceKept.spendSites u dg [n]).sites dg).blazed n hblazed
  · have hblazed := Bool.eq_false_iff.2 hblazed
    have hns : ([n].filter fun n => !(tget Site.zero (getGrove u dg).sites n).blazed) = [n] :=
      List.filter_cons_of_pos (by rw [hblazed]; rfl)
    rw [spendSites, hfused]
    dsimp only
    rw [if_neg Bool.false_ne_true, hns]
    exact blazeSites_blazed _ dg n hfused hblazed

theorem blazeUnit_blazed (u : State) (p : BitVec 24) (hsite : isSite p = true) (hfused : (getGrove u (psidDg p)).fused = false) :
    (tget Site.zero (getGrove (blazeUnit u p) (psidDg p)).sites (psidSite p)).blazed = true := by
  have hkept := (MaintenanceKept.serveEarlier u (psidDg p)).sites (psidDg p)
  have hunit : blazeUnit u p = spendSites (serveEarlier u (psidDg p)) (psidDg p) [psidSite p] := if_pos (of_decide_eq_true hsite)
  rw [hunit]
  exact spendSites_blazed _ _ _ (hkept.fused.trans hfused)

/-! ### RESET -/

theorem exec_mgmtReset (x : CruiseIn) (h : accepted s m 6 (resetBad m.args)) :
    exec (.mgmtReset m x) s = .next (
      if resetGone s (fld (m.args.getD 0 0) 0 3) (m.args.getD 1 0) then finishToken (opened s m 6) m.step sVACANT []
      else if resetLocked s (fld (m.args.getD 0 0) 0 3) (m.args.getD 1 0) then finishToken (opened s m 6) m.step sPERM []
      else if fld (m.args.getD 0 0) 0 3 = 4 then cruise (warmReset (finishToken (opened s m 6) m.step sOK [])) false x
      else tryReset (opened s m 6) (newToken s m 6)) := by
  have hx : exec (.mgmtReset m x) s = .next (doMgmtReset m x s) := rfl
  rw [doMgmtReset] at hx
  refine hx.trans (congrArg _ ((withToken_accepted s m 6 _ _ h).trans ?_))
  rw [startToken_opened h]
  rfl

section
variable {u : State} {t : Token}

/-- A context's reset that has not begun. -/
theorem tryReset_ctx (hdom : fld (t.args.getD 0 0) 0 3 = 0) (hbegun : t.begun = false) {l : Lcid} {c : CtxNo}
    (hl : l = BitVec.ofNat 12 (fld (t.args.getD 1 0) 9 12)) (hc : c = BitVec.ofNat 9 (fld (t.args.getD 1 0) 0 9))
    (hidle : groveBusy u (dgOf l) = false) :
    tryReset u t = if (ctxOf u l c).st = .free then finishToken u t.step sOK []
      else if (ctxOf (beginToken (freeCtx u l c) t.step) l c).freeing then beginToken (freeCtx u l c) t.step
      else finishToken (beginToken (freeCtx u l c) t.step) t.step sOK [] := by
  subst hl hc
  unfold tryReset
  rw [hdom, hbegun]
  dsimp only
  rw [hidle, Bool.false_and, Bool.false_or, Bool.false_and, if_neg Bool.false_ne_true]
  simp only [Bool.or_false, decide_eq_true_eq]

theorem tryReset_core (hdom : fld (t.args.getD 0 0) 0 3 = 1) {l : Lcid} (hl : l = BitVec.ofNat 12 (fld (t.args.getD 1 0) 0 12)) :
    tryReset u t = if groveBusy u (dgOf l) then u else finishToken (resetCore u l) t.step sOK [] := by
  subst hl
  unfold tryReset
  rw [hdom]
  rfl

theorem tryReset_grove (hdom : fld (t.args.getD 0 0) 0 3 = 2) {dg : Dg} (hdg : dg = BitVec.ofNat 8 (fld (t.args.getD 1 0) 0 8)) :
    tryReset u t = if groveBusy u dg then u else finishToken (resetGrove u dg) t.step sOK [] := by
  subst hdg
  unfold tryReset
  rw [hdom]
  rfl

theorem tryReset_stand (hdom : fld (t.args.getD 0 0) 0 3 = 3) :
    tryReset u t = if (groves (fld (t.args.getD 1 0) 0 2)).any (groveBusy u) then u
      else finishToken (resetStand u (fld (t.args.getD 1 0) 0 2)) t.step sOK [] := by
  unfold tryReset
  rw [hdom]
  rfl

end

theorem MaintenanceKept.resetCore (u : State) (l : Lcid) : MaintenanceKept u (resetCore u l) := by
  unfold Machine.resetCore bounceWaiting
  rw [writeResident_eq]
  exact (((modCore u l _).trans (foldl (fun s m => (modCore s l _).trans (bounce ..)) _ _)).trans (discardCore ..)).trans
    ((modCore ..).trans (modCore ..))

/-- A core that is reset: no context, no control, no role and no queue. -/
theorem getCore_resetCore (u : State) (l : Lcid) :
    (getCore (resetCore u l) l).ctxs = [] ∧ (getCore (resetCore u l) l).ctrl = 0 ∧ (getCore (resetCore u l) l).role = 0 ∧
    (getCore (resetCore u l) l).un.queues = [] := by
  rw [resetCore]
  generalize discardCore (bounceWaiting u l sNOTLOADED) l false = v
  rw [writeResident_eq, getCore_modCore, getCore_modCore]
  exact ⟨rfl, rfl, rfl, rfl⟩

theorem mgmtReset_runs (x : CruiseIn) (h : accepted s m 6 (resetBad m.args))
    (hthere : resetGone s (fld (m.args.getD 0 0) 0 3) (m.args.getD 1 0) = false)
    (hmay : resetLocked s (fld (m.args.getD 0 0) 0 3) (m.args.getD 1 0) = false) (hdom : fld (m.args.getD 0 0) 0 3 ≠ 4) :
    exec (.mgmtReset m x) s = .next (tryReset (opened s m 6) (newToken s m 6)) :=
  (exec_mgmtReset x h).trans (congrArg _ ((if_neg (Bool.eq_false_iff.1 hthere)).trans ((if_neg (Bool.eq_false_iff.1 hmay)).trans (if_neg hdom))))

theorem mgmtReset_core (x : CruiseIn) (h : accepted s m 6 (resetBad m.args)) (hdom : fld (m.args.getD 0 0) 0 3 = 1) {l : Lcid}
    (hl : l = BitVec.ofNat 12 (fld (m.args.getD 1 0) 0 12)) (hthere : standsAt s l = true)
    (hmay : resetLocked s 1 (m.args.getD 1 0) = false) :
    exec (.mgmtReset m x) s = .next (if groveBusy s (dgOf l) then opened s m 6 else finishToken (resetCore (opened s m 6) l) m.step sOK []) := by
  have hstays : resetGone s 1 (m.args.getD 1 0) = false := by
    subst hl
    exact congrArg (!·) hthere
  rw [exec_mgmtReset x h, hdom, hstays, hmay, if_neg Bool.false_ne_true, if_neg Bool.false_ne_true, if_neg (by decide),
    tryReset_core (t := newToken s m 6) hdom hl]
  rfl

theorem mgmtReset_core_accepts (x : CruiseIn) (h : accepted s m 6 (resetBad m.args)) (hdom : fld (m.args.getD 0 0) 0 3 = 1) {l : Lcid}
    (hl : l = BitVec.ofNat 12 (fld (m.args.getD 1 0) 0 12)) (hthere : standsAt s l = true)
    (hmay : resetLocked s 1 (m.args.getD 1 0) = false) (hidle : groveBusy s (dgOf l) = false) :
    Accepts s m (.mgmtReset m x) fun t =>
      (getCore t l).ctxs = [] ∧ (getCore t l).ctrl = 0 ∧ (getCore t l).role = 0 ∧ (getCore t l).un.queues = [] := by
  have hx := mgmtReset_core x h hdom hl hthere hmay
  rw [hidle, if_neg Bool.false_ne_true] at hx
  have hkept := MaintenanceKept.resetCore (opened s m 6) l
  have hcore := getCore_resetCore (opened s m 6) l
  generalize resetCore (opened s m 6) l = u at hx hkept hcore
  exact accepts h hx hkept.answers hkept.tokens fun _ _ => hcore

/-! ### STATUS and READ_LOG -/

theorem exec_mgmtStatus (hup : lookoutUp s = true) (hopc : mgmtOpc m = 0x10) (hrsvd : mgmtRsvd m = false) (hstep : m.step = 0)
    (hargs : m.args = []) :
    exec (.mgmtStatus m) s = .next (answer s m sOK 0 ([devCruise s, devTopo s] ++ (below 4).map (errStatus s) ++ s.cruise.report)) := by
  have hx : exec (.mgmtStatus m) s = .next (doMgmtStatus m s) := rfl
  have hgood : (!m.args.isEmpty) = false := by
    rw [hargs]
    rfl
  rwa [doMgmtStatus, hgood, withoutToken_answers _ _ _ _ hup hopc hrsvd hstep] at hx

theorem exec_mgmtReadLog (hup : lookoutUp s = true) (hopc : mgmtOpc m = 0x11) (hrsvd : mgmtRsvd m = false) (hstep : m.step = 0)
    (hgood : (m.args.length != 3 || above (m.args.getD 0 0) 2 || above (m.args.getD 1 0) 32 || decide (64 < (m.args.getD 2 0).toNat)) = false) :
    exec (.mgmtReadLog m) s = .next (answer s m sOK 0 (((below (m.args.getD 2 0).toNat).filterMap fun i =>
      firstThat (fun (e : LogEnt) => (getComb s (m.args.getD 0 0).toNat).head ≤ e.seq && e.seq % 2 ^ 32 == ((m.args.getD 1 0).toNat + i) % 2 ^ 32)
        ((getComb s (m.args.getD 0 0).toNat).spill ++ (getComb s (m.args.getD 0 0).toNat).die)).flatMap (entryWords64 s))) := by
  have hx : exec (.mgmtReadLog m) s = .next (doMgmtReadLog m s) := rfl
  rwa [doMgmtReadLog, hgood, withoutToken_answers _ _ _ _ hup hopc hrsvd hstep] at hx

end

theorem exec_mgmtAck_past {s : State} {m : Mgmt}
    (h : accepted s m 2 (m.args.length != 2 || above (m.args.getD 0 0) 2 || above (m.args.getD 1 0) 32)) (hcfg : s.errs.cfg.getLsbD 32 = false)
    (hpast : (getComb s (m.args.getD 0 0).toNat).tail - (getComb s (m.args.getD 0 0).toNat).head <
      headStep (getComb s (m.args.getD 0 0).toNat) (m.args.getD 1 0).toNat) :
    exec (.mgmtAck m) s = .next (finishToken (opened s m 2) m.step
      (if 2 ^ 31 ≤ headStep (getComb s (m.args.getD 0 0).toNat) (m.args.getD 1 0).toNat then sOK else sBOUNDS) []) :=
  (exec_mgmtAck h).trans (congrArg _ ((if_neg (by rw [bit_eq_getLsbD, hcfg]; exact Bool.false_ne_true)).trans (if_neg (Nat.not_le.2 hpast))))

theorem fld_domain {w : Word} {n : Nat} (hn : n < 8) (h : w = BitVec.ofNat 64 n) : fld w 0 3 = n := by
  subst h
  rw [fld_zero_eq_mod, BitVec.toNat_ofNat]
  omega

/-- Settles O58. -/
theorem managementCommands : Obligations.ManagementCommands := by
  unfold Obligations.ManagementCommands
  intro s m
  refine ⟨fun x h hready hrunning => mgmtAssign_accepts x h hready hrunning, fun h => ⟨fun hcfg => ?_, fun hcfg => ⟨mgmtAck_accepts h hcfg,
    fun hpast hn => ?_, fun hpast hn => ?_⟩⟩, fun h => ⟨fun hst => ?_, mgmtRetirePort_accepts h⟩, fun h => ⟨fun hbank => ?_, fun hbank hfused => ?_,
    fun hbank hfused => ?_⟩, mgmtHold_accepts, mgmtRelease_accepts, mgmtWake_accepts, fun h => ⟨fun hbank => ?_, fun hbank hdrain => ?_,
    fun hbank hdrain => ?_⟩, fun h => ⟨fun hgone => ?_, fun hthere hbusy => ?_, fun hthere hidle hserved => ?_,
    fun hthere hidle hserved hsite => ?_⟩, fun h hdom => ⟨fun x hgone => ?_, fun x hthere hlocked => ?_, fun x hthere hmay hbusy => ?_,
    fun x hthere hmay hidle => ?_⟩, fun x h hthere hmay => ⟨fun hdom hidle => ⟨fun hfree => ?_, fun hfree => ?_⟩, fun hdom hidle => ?_,
    fun hdom hidle => ?_, fun hdom => ?_⟩, fun hup hrsvd hstep => ⟨fun hopc hargs => ⟨_, exec_mgmtStatus hup hopc hrsvd hstep hargs, rfl, rfl⟩,
    fun hopc hlen hcomb hseq hcount => ⟨_, exec_mgmtReadLog hup hopc hrsvd hstep ?_, rfl, rfl⟩⟩⟩
  · exact refuses h ((exec_mgmtAck h).trans (congrArg _ (if_pos (by rw [bit_eq_getLsbD]; exact hcfg))))
  · refine refuses h ((exec_mgmtAck_past h hcfg hpast).trans ?_)
    rw [if_neg (Nat.not_le.2 hn)]
  · refine refuses h ((exec_mgmtAck_past h hcfg hpast).trans ?_)
    rw [if_pos hn]
  · exact refuses h ((exec_mgmtRetirePort h).trans (congrArg _ (if_pos hst)))
  · exact refuses h ((exec_mgmtRtWrite h).trans (congrArg _ (if_pos (by rw [bit_eq_getLsbD]; exact beq_iff_eq.2 hbank))))
  · exact refuses h ((exec_mgmtRtWrite h).trans (congrArg _ ((if_neg (by rw [bit_eq_getLsbD]; exact fun hb => hbank (beq_iff_eq.1 hb))).trans
      (if_pos hfused))))
  · exact accepts h ((exec_mgmtRtWrite h).trans (congrArg _ ((if_neg (by rw [bit_eq_getLsbD]; exact fun hb => hbank (beq_iff_eq.1 hb))).trans
      (if_neg (Bool.eq_false_iff.1 hfused))))) rfl rfl fun _ _ => ⟨rfl, rfl⟩
  · exact refuses h ((exec_mgmtSwap h).trans (congrArg _ (if_pos (by rw [bit_eq_getLsbD]; exact beq_iff_eq.2 hbank.symm))))
  · obtain ⟨hactive, hanswers, htokens⟩ := setActive_frame (u := opened s m 9) (b := bit (m.args.getD 0 0) 0)
      (by rw [bit_eq_getLsbD]; exact fun hb => hbank hb.symm)
    exact accepts h ((exec_mgmtSwap h).trans (congrArg _ ((if_neg (by rw [bit_eq_getLsbD]; exact fun hb => hbank (beq_iff_eq.1 hb).symm)).trans
      (if_pos hdrain)))) hanswers htokens fun _ _ => hactive.trans (bit_eq_getLsbD _ _)
  · exact ⟨_, (exec_mgmtSwap h).trans (congrArg _ ((if_neg (by rw [bit_eq_getLsbD]; exact fun hb => hbank (beq_iff_eq.1 hb).symm)).trans
      (if_neg hdrain))), rfl⟩
  · exact refuses h ((exec_mgmtBlaze h).trans (congrArg _ (if_pos hgone)))
  · exact ⟨_, (exec_mgmtBlaze h).trans (congrArg _ ((if_neg (Bool.eq_false_iff.1 hthere)).trans (if_pos (Bool.or_eq_true_iff.2 hbusy)))), rfl⟩
  · exact ⟨_, exec_mgmtBlaze_acts h hthere hidle hserved, rfl⟩
  · have hfused : (getGrove s (psidDg (blazePsid m))).fused = false := fused_of_isSite hsite hthere
    have hkept := MaintenanceKept.blazeUnit (opened s m 3) (blazePsid m)
    exact accepts h (exec_mgmtBlaze_acts h hthere hidle hserved) hkept.answers hkept.tokens fun _ _ =>
      blazeUnit_blazed (opened s m 3) (blazePsid m) hsite hfused
  · refine refuses h ((exec_mgmtReset x h).trans (congrArg _ (if_pos ?_)))
    rw [fld_domain (n := 1) (by decide) hdom]
    exact congrArg (!·) hgone
  · refine refuses h ((exec_mgmtReset x h).trans (congrArg _ ((if_neg ?_).trans (if_pos ?_))))
    · rw [fld_domain (n := 1) (by decide) hdom]
      exact fun hgone => Bool.false_ne_true ((congrArg (!·) hthere).symm.trans hgone)
    · rw [fld_domain (n := 1) (by decide) hdom]
      exact hlocked
  · exact ⟨_, (mgmtReset_core x h (fld_domain (n := 1) (by decide) hdom) rfl hthere hmay).trans (congrArg _ (if_pos hbusy)), rfl⟩
  · exact mgmtReset_core_accepts x h (fld_domain (n := 1) (by decide) hdom) rfl hthere hmay hidle
  · have hdom := fld_domain (n := 0) (by decide) hdom
    have hx := (mgmtReset_runs x h hthere hmay (by rw [hdom]; decide)).trans (congrArg _ (tryReset_ctx hdom rfl rfl rfl hidle))
    exact accepts h (hx.trans (congrArg _ (if_pos hfree))) rfl rfl fun _ _ => rfl
  · have hdom := fld_domain (n := 0) (by decide) hdom
    have hx := (mgmtReset_runs x h hthere hmay (by rw [hdom]; decide)).trans (congrArg _ (tryReset_ctx hdom rfl rfl rfl hidle))
    exact ⟨_, hx.trans (congrArg _ (if_neg hfree)), rfl⟩
  · have hdom := fld_domain (n := 2) (by decide) hdom
    have hx := (mgmtReset_runs x h hthere hmay (by rw [hdom]; decide)).trans (congrArg _ (tryReset_grove hdom rfl))
    exact ⟨_, hx.trans (congrArg _ (if_neg (Bool.eq_false_iff.1 hidle))), rfl⟩
  · have hdom := fld_domain (n := 3) (by decide) hdom
    have hx := (mgmtReset_runs x h hthere hmay (by rw [hdom]; decide)).trans (congrArg _ (tryReset_stand hdom))
    refine ⟨_, hx.trans (congrArg _ (if_neg fun hany => ?_)), rfl⟩
    obtain ⟨d, hd, hbusy⟩ := List.any_eq_true.1 hany
    exact Bool.false_ne_true ((hidle d hd).symm.trans hbusy)
  · have hdom := fld_domain (n := 4) (by decide) hdom
    exact ⟨_, (exec_mgmtReset x h).trans (congrArg _ ((if_neg (Bool.eq_false_iff.1 hthere)).trans
      ((if_neg (Bool.eq_false_iff.1 hmay)).trans (if_pos hdom)))), rfl⟩
  · rw [hlen, hcomb, hseq, decide_eq_false (Nat.not_lt.2 hcount)]
    rfl

end Sys2Proof.Machine
end
